-- ==== Sys2Proof/Word.lean ====
section
/-! DEFINITION. The plain words of the device: a register word, a byte, and a table keyed by a number. -/
namespace Sys2Proof

/-- A 32-bit register word (R60). -/
abbrev Word := BitVec 32

/-- A byte of memory, of a packet or of a ring entry. -/
abbrev Byte := BitVec 8

/-- A sparse table: pairs of a key and a value, keys strictly rising (R-independent plain data). -/
abbrev Tbl (α : Type) := List (Nat × α)

end Sys2Proof
end

