-- ==== Sys2Proof/Syntax.lean ====
section
/-! DEFINITION. The commands of the block, one constructor per row of spec/opcode_table.json, and the types of their operands. -/
namespace Sys2Proof

/-- Who sent a command (R82, R104, "Host Attachment and Register Conventions"): a command ring of the host, a COMMAND
frame on the management port (with the address and SEQ its answer goes to), or firmware through its internal path. -/
inductive CmdSrc where
  | ring (i : Nat)
  | mgmt (mac seq : Nat)
  | firmware
  deriving DecidableEq, Repr

/-- What every command entry carries beside its operands (the entry layout before R91). -/
structure CmdHdr where
  src : CmdSrc
  tag : Nat
  event : Bool
  fence : Bool
  target : Nat
  deriving DecidableEq, Repr

/-- A command entry as fetched: 64 bytes split as the entry layout before R91 gives. `rsv2` is FLAGS[7:2]. -/
structure RawEntry where
  opcode : Nat
  event : Bool
  fence : Bool
  rsv2 : Nat
  rsv3 : Nat
  tag : Nat
  target : Nat
  rsv12 : Nat
  operands : List Byte
  deriving DecidableEq, Repr

/-- A management frame as received (R102): its destination and source address, its EtherType (of a tagged frame the tag's), the fields, the reserved
bytes 22–31, BODY and MAC. -/
structure MpFrame where
  dest : Nat
  srcMac : Nat
  etherType : Nat
  magic : Nat
  op : Nat
  status : Nat
  session : Nat
  seq : Nat
  addr : Nat
  len : Nat
  rsv : Nat
  body : List Byte
  mac : List Byte
  deriving DecidableEq, Repr

/-- A fabric packet (R175–R177): the fields of the TFH with HCRC as received, the payload and the trailer. -/
structure Pkt where
  ver : Nat := 2
  cls : Nat
  cmark : Nat := 0
  typ : Nat
  flags : Nat := 0
  dst : Nat
  src : Nat
  seq : Nat := 0
  gen : Nat := 0
  msgId : Nat := 0
  offset : Nat := 0
  plen : Nat
  hop : Nat := 0
  rsv26 : Nat := 0
  rsv27 : Nat := 0
  hcrc : Nat := 0
  payload : List Byte
  pcrc : Nat := 0
  cchk : Nat := 0
  deriving DecidableEq, Repr

/-- Where a register access comes from (R53, R62, R94): the operator host or management port, firmware, or a tenant ring bound to a window. -/
inductive Requester where
  | operator
  | firmware
  | tenant (win : Nat)
  deriving DecidableEq, Repr

/-- A received time message: the port it came in on (0x7FF: management port), whether it is an IEEE 1588 message of that port, its receive stamp
in timestamp form (R139), its payload, and the stamp identifier that firmware marks the message it sends in return with, if any (R140). -/
structure TimeRx where
  port : Nat
  is1588 : Bool
  stamp : Nat
  payload : List Byte
  mark : Option Nat
  deriving DecidableEq, Repr

/-- What one execution of a chunk gave (R557): its result bytes and its flags. -/
structure RunOut where
  bytes : List Byte
  flags : Nat
  deriving DecidableEq, Repr

/-- The ECC verdict over a flit as a ring link reads it (R243, R281): none, corrected, uncorrectable, or uncorrectable as it is read from ingress
staging. -/
inductive FlitErr where
  | none
  | corrected
  | uncorrectable
  | staging
  deriving DecidableEq, Repr

/-- A HELLO as received (R326). -/
structure Hello where
  role : Nat
  gen : Nat
  seen : Bool
  live : Nat
  id : Nat
  privLimit : Nat
  sharedLimit : Nat
  sharedCap : Nat
  deriving DecidableEq, Repr

/-- A beat of a tier, read by a client, whose check code shows an error (R587): its channel; uncorrectable, or corrected. -/
structure BeatErr where
  chan : Nat
  ue : Bool
  deriving DecidableEq, Repr

/-- A host access to memory of the device (R55, R57): a read of some bytes, with the errors of its beats (R587), or a write. -/
inductive MemAcc where
  | read (len : Nat) (errs : List BeatErr)
  | write (data : List Byte)
  deriving DecidableEq, Repr

/-- A request at a memory channel's arbiter (R593, R594): client 0–7, its beats, marked LOCK. -/
structure TierReq where
  client : Nat
  beats : Nat
  lock : Bool
  deriving DecidableEq, Repr

/-- What the check code of a beat shows (R587). -/
inductive EccRes where
  | ok | corrected | uncorrectable
  deriving DecidableEq, Repr

/-- FEC codewords that a logical port has corrected in the telemetry window that ends (R654). -/
structure FecCount where
  lport : Nat
  corrected : Nat
  deriving DecidableEq, Repr


/-- How an access to the board flash ends (R768, FLASH_FAIL): good, a write or read-back failed, a counter's MAC failed. -/
inductive FlashRes where
  | good | writeFails | counterFails
  deriving DecidableEq, Repr

/-- A register value that a configuration record holds (R778): BAR0 address of a word, and the word. -/
structure RegSet where
  addr : Nat
  value : Nat
  deriving DecidableEq, Repr

/-- What the site record gives beside register values (R57, R184, R778): the spine index and the sizes of HDM0 and HDM1. -/
structure SiteRec where
  spine : Nat
  hdm0 : Nat
  hdm1 : Nat
  deriving DecidableEq, Repr

/-- A valid image that the board flash holds since before the device's own writes: VERSION and SVN (R773). -/
structure ImageInfo where
  version : Nat
  svn : Nat
  deriving DecidableEq, Repr

/-- A settings record (R790): SET_VER, VERSION and SEQ of its header, REFRESH, and of its body the margin section by unit, the active half, and the
management keys (R106). -/
structure SetRec where
  setVer : Nat
  version : Nat
  seq : Nat
  refresh : Bool
  half : Nat
  margin : List (Nat × Nat)
  keys : List (Nat × Nat)
  deriving DecidableEq, Repr

/-- A start-up stage that completes (R781), with what the security root and the tests found: the PUF helper copies, the type-key blob, the counters'
MACs, the records; the flash's images, and the settings records of its current and previous slot whose MAC passes; the units that failed a self-test. -/
inductive StartStage where
  | root
  | identity (helperA helperB blob counters unitRec : Bool) (site : Option SiteRec) (values : List RegSet)
  | firmware (image0 image1 : Option ImageInfo) (current previous : Option SetRec)
  | formats (failed : List Nat)
  | exact (failed : List Nat)
  | attend (failed : List Nat)
  | fullOptics
  deriving DecidableEq, Repr


/-- The readings of one evaluation (R840): the 19 temperature sensors, each in the 16-bit form of PWR_TEMP, and package power in 0.1 W. -/
structure SensorSample where
  temps : List Nat
  pkg : Nat
  deriving DecidableEq, Repr

/-- The commands of the block: one constructor per row of the opcode table. -/
inductive Instr where
  /-- REGISTER_WRITE (R62): A register write to a field that has no row of its own takes effect under the access rules. -/
  | registerWrite (addr : Nat) (size : Nat) (value : Nat) (who : Requester)
  /-- RC_FIELD_READ (R65): A read of an RC field returns its value and clears it. -/
  | rcFieldRead (addr : Nat) (size : Nat) (who : Requester)
  /-- SPLIT_64BIT_READ (R61): A 4-byte read of the low word of a 64-bit register latches the high word for the next read. -/
  | split64bitRead (addr : Nat) (who : Requester)
  /-- PAGE_LOCK (R64): Writing PAGE_CTRL.LOCK locks the page's RWL fields until the next warm or cold reset. -/
  | pageLock (page : Nat)
  /-- PAGE_RESET (R847): Writing PAGE_CTRL.SOFT_RESET starts a page reset that returns block-specific fields to reset and aborts the block's commands. -/
  | pageReset (page : Nat)
  /-- PAGE_RESET_COMPLETE (R75): A page reset completes within 10 us and RESET_BUSY clears. -/
  | pageResetComplete (page : Nat)
  /-- PAGE_IRQ_FORCE (R69): Writing 1 to a PAGE_IRQ_FORCE bit sets the same bit in PAGE_IRQ_STATUS. -/
  | pageIrqForce (page : Nat) (value : Nat)
  /-- PAGE_ERR_CLEAR (R71): Writing PAGE_ERR_CLEAR.CLEAR resets TOTAL, FIRST_VALID and NEXT of the error log. -/
  | pageErrClear (page : Nat)
  /-- HOST_RESET_KEY (R74): A write to HOST_RESET advances, restarts or cancels the key sequence that causes a warm reset. -/
  | hostResetKey (value : Nat)
  /-- TENANT_WINDOW_BIND (R81): A write of HOST_TW_BIND enables, disables or rebinds a tenant window, stopping its rings when disabled. -/
  | tenantWindowBind (win : Nat) (value : Nat)
  /-- CXL_LINK_TRAIN (R50): The CXL link trains, holding link-down and setting SWITCHED when it finds a switch. -/
  | cxlLinkTrain (wide : Bool) (fast : Bool) (switched : Bool) (cache : Bool) (mem : Bool)
  /-- BAR2_ACCESS (R56): A host access to BAR2 reaches the tier-1 staging region, or reads zero before tier 1 has trained. -/
  | bar2Access (off : Nat) (acc : MemAcc)
  /-- HDM_WRITE (R58): A CXL.mem write to HDM0 or HDM1 completes, is discarded and is counted; the read of either range (R57) goes with this row. -/
  | hdmWrite (hdm off : Nat) (acc : MemAcc)
  /-- CMD_RING_ENABLE (R83): Enabling a command ring loads HEAD from the tail line, or enters error state when LOG2_SIZE is out of range. -/
  | cmdRingEnable (ring : Nat) (value : Nat) (tail : Nat)
  /-- CMD_RING_DISABLE (R88): Disabling a command ring stops fetching and clears its error state. -/
  | cmdRingDisable (ring : Nat)
  /-- TAIL_SNOOP (R86): A snoop of a watched tail line makes the device re-read the line with RdShared. -/
  | tailSnoop (ring : Nat)
  /-- TAIL_REREAD (R86): The re-read tail line returns and the device issues RdCurr fetches for entries HEAD to TAIL - 1. -/
  | tailReread (ring : Nat) (tail : Nat)
  /-- ENTRY_FETCH (R91): Fetched command entries arrive, HEAD advances and the commands start in ring order. -/
  | entryFetch (ring : Nat) (entries : List RawEntry)
  /-- EVENT_RING_ENABLE (R89): Writing ENABLE of an event ring starts it, or is discarded and logs 0x0004 when LOG2_SIZE is out of range. -/
  | eventRingEnable (ring : Nat) (value : Nat) (cons : Nat)
  /-- EVENT_RING_DISABLE (R849): Disabling an event ring hands its held and queued events to firmware and resumes stopped command rings. -/
  | eventRingDisable (ring : Nat)
  /-- CONS_SNOOP (R96): A snoop of a consumer line makes the device re-read CONS and free room in the event ring. -/
  | consSnoop (ring : Nat) (cons : Nat)
  /-- HELD_EVENT_WRITE (R98): Held completions and queued events are written in order once room frees in the event ring. -/
  | heldEventWrite (ring : Nat)
  /-- EVENT_WRITE_DONE (R100): The host completes an event entry WrInv and the MSI-X message is sent when COUNT entries are pending. -/
  | eventWriteDone (ring : Nat)
  /-- MSIX_DELAY_EXPIRY (R100): The oldest unsignalled entry has waited DELAY us and the MSI-X message is sent. -/
  | msixDelayExpiry (ring : Nat)
  /-- MSIX_UNMASK (R101): Unmasking a vector whose pending bit is set sends its message. -/
  | msixUnmask (vector : Nat)
  /-- NOP (R93): The NOP command completes with OK. -/
  | nop (h : CmdHdr)
  /-- REG_WRITE (R851): The REG_WRITE command writes 4 bytes to a BAR0 offset under the ring's privilege. -/
  | regWrite (h : CmdHdr) (addr : Nat) (value : Nat)
  /-- REG_READ (R851): The REG_READ command reads 4 bytes from a BAR0 offset into RESULT under the ring's privilege. -/
  | regRead (h : CmdHdr) (addr : Nat)
  /-- MP_REG_READ (R104): An accepted management REG_READ frame performs a register read and answers with READ_RESP. -/
  | mpRegRead (frame : MpFrame)
  /-- MP_REG_WRITE (R104): An accepted management REG_WRITE frame performs a register write and answers with WRITE_RESP. -/
  | mpRegWrite (frame : MpFrame)
  /-- MP_COMMAND (R104): An accepted management COMMAND frame executes its command entry and answers with one COMPLETION frame. -/
  | mpCommand (frame : MpFrame)
  /-- MP_KEY_SET (R106): The MP_KEY_SET command writes or empties a management key slot. -/
  | mpKeySet (h : CmdHdr) (slot : Nat) (empty : Nat) (key : Nat)
  /-- MGMT_CNT_CLEAR (R107): Writing MGMT_CTRL.CNT_CLEAR clears the MGMT counters. -/
  | mgmtCntClear
  /-- TIME_INCR_WRITE (R115): A committed TIME_INCR write sets the per-tick increment, or is refused outside the allowed range. -/
  | timeIncrWrite (value : Nat)
  /-- TIME_ADJ_WRITE (R120): A committed TIME_ADJ write is slewed, held as pending, or applied as a step by time state. -/
  | timeAdjWrite (value : Nat)
  /-- SLEW_DONE (R118): The remaining slew offset falls below RATE, the remainder is added and SLEWING clears. -/
  | slewDone
  /-- TIME_STEP_KEY (R121): A write of TIME_STEP_KEY advances the key sequence that applies a pending offset as a forced step. -/
  | timeStepKey (value : Nat)
  /-- TIME_SET (R123): A committed TIME_SET loads seconds and nanoseconds in UNSET or LOST. -/
  | timeSet (sec : Nat) (ns : Nat)
  /-- DECLARE_LOCK (R125): Writing DECLARE_LOCK moves the time state to LOCKED from ACQUIRE, HOLDOVER or LOST. -/
  | declareLock
  /-- DECLARE_LOST (R125): Writing DECLARE_LOST moves the time state to LOST. -/
  | declareLost
  /-- TIME_HEARTBEAT (R126): A TIME_HEARTBEAT write restarts the hold window or returns HOLDOVER or LOST toward LOCKED. -/
  | timeHeartbeat
  /-- HOLD_WINDOW_EXPIRY (R125): No heartbeat for TIME_HOLD_WIN in LOCKED moves the state to HOLDOVER or LOST. -/
  | holdWindowExpiry
  /-- HOLDOVER_EXPIRY (R125): TIME_HOLDOVER_MAX spent in HOLDOVER moves the state to LOST. -/
  | holdoverExpiry
  /-- PARK_MAX_EXPIRY (R129): TIME_PARK_MAX ticks after entry to LOST every unparked crosspoint parks, cutting its slot. -/
  | parkMaxExpiry
  /-- TIME_NOW_READ (R109): A read of the first word of TIME_NOW latches the whole device time. -/
  | timeNowRead (wide : Bool)
  /-- TIME_MESSAGE_RX (R139): A received time message is stamped and delivered to firmware, or discarded and counted if malformed. -/
  | timeMessageRx (rx : TimeRx)
  /-- SYNC_TX (R148): At each sync interval a Sync carrying the time state is sent on ports with SYNC_OUT. -/
  | syncTx (port : Nat) (stampId : Option Nat)
  /-- SOURCE_SWITCH (R153): The active time source sends no Sync for TIME_HOLD_WIN and the device moves to the next valid source. -/
  | sourceSwitch
  /-- TIME_TXQ_ENTRY_READ (R140): A read of the top word of TIME_TXQ_ENTRY removes the head stamp and latches its other words. -/
  | timeTxqEntryRead
  /-- TPO_ENABLE (R164): Setting TPO_CTRL.ENABLE arms a pulse output or is refused. -/
  | tpoEnable (k : Nat)
  /-- TPO_EDGE (R162): Device time reaches a scheduled pulse time and the output makes its leading edge. -/
  | tpoEdge (k : Nat)
  /-- TPO_PULSE_END (R163): A pulse output's width of ticks ends and the pulse falls. -/
  | tpoPulseEnd (k : Nat)
  /-- TPI_EDGE (R168): A capture input level held 20 ns is accepted and its time captured. -/
  | tpiEdge (k : Nat) (level : Bool) (edge : Nat)
  /-- TPI_STUCK (R170): A capture input held active for 10 ms sets STUCK and logs error code 0x0102. -/
  | tpiStuck (k : Nat)
  /-- TPI_CAPT_READ (R171): A read of the first word of TPI_CAPT latches the capture and clears CAPTURED. -/
  | tpiCaptRead (k : Nat)
  /-- ASYM_CAL (R157): The ASYM_CAL command sends CAL_START and builds a hairpin to measure a link's asymmetry. -/
  | asymCal (h : CmdHdr) (u : Nat) (d : Nat)
  /-- CAL_WINDOW_END (R157): At W + 20 us the calibration hairpin is released. -/
  | calWindowEnd (port : Nat)
  /-- CAL_REPORT_RX (R158): A CAL_REPORT arrives and the device computes and writes the asymmetry. -/
  | calReportRx (rx : TimeRx)
  /-- CAL_REPORT_TIMEOUT (R160): No CAL_REPORT within 1 ms of the hairpin's release ends ASYM_CAL with NO_REPORT. -/
  | calReportTimeout (port : Nat)
  /-- CAL_START_RX (R161): A CAL_START on a cascade port makes the device act as the far end of the calibration loop. -/
  | calStartRx (rx : TimeRx)
  /-- CAL_BURST (R161): At its chosen moment in the loop window the far end sends its calibration burst and stamps it. -/
  | calBurst (port : Nat) (moment : Nat)
  /-- PACKET_RX (R227): A received packet's header is checked in discard-reason order, policed and staged for lookup. -/
  | packetRx (lport : Nat) (header : List Byte) (pkt : Pkt) (shared : Bool)
  /-- PACKET_TAIL (R266): A packet's tail arrives and its PCRC, FEC and length verdicts are applied, stomping a cut-through copy if bad. -/
  | packetTail (id : Nat) (frameLen : Nat) (fecBad : Bool) (stomped : Bool) (late : Bool)
  /-- PIPELINE_LOOKUP (R287): A staged packet gets a lookup slot and is resolved to a port, bundle, flood or discard. -/
  | pipelineLookup (n : Nat) (ue : Option Nat)
  /-- RING_FLIT_ENTRY (R240): A head flit enters a ring once the next stop has two free buffers and the switch credits are held. -/
  | ringFlitEntry (quad : Nat) (pair : Nat) (ccw : Bool) (stop : Nat) (err : FlitErr)
  /-- SWITCH_GRANT (R244): A quadrant switch output grants one input's packet by class priority and rotation. -/
  | switchGrant (output : Nat)
  /-- BRIDGE_FLIT_RETRY (R246): A bridge flit failing its CRC is resent, and lost with its packet after 16 resends. -/
  | bridgeFlitRetry (id : Nat) (output : Nat)
  /-- OUTPUT_ENQUEUE (R259): A packet reaching its output tile is limit-checked, early-dropped or marked, and enqueued. -/
  | outputEnqueue (id : Nat) (lport : Nat)
  /-- TRANSMIT_START (R368): A free transmitter starts the highest eligible class's packet, possibly by cut-through. -/
  | transmitStart (lport : Nat) (cellUe : Bool)
  /-- OCC_PUBLISH (R272): Every 16 cycles each queue manager publishes its queue occupancies. -/
  | occPublish
  /-- DRIZZLE_RECORD (R278): At the sampled frame's end a Drizzle record is sent through the quadrant's token bucket. -/
  | drizzleRecord (quad : Nat)
  /-- QM_LIMIT_WRITE (R253): A QM_LIMIT write sets a queue limit, or is refused when the tile sum would exceed 12,288. -/
  | qmLimitWrite (tile : Nat) (port : Nat) (cls : Nat) (value : Nat)
  /-- POLICER_WRITE (R282): A write of a policer rate or depth sets its bucket full. -/
  | policerWrite (tile : Nat) (port : Nat) (cls : Nat) (word : Nat) (value : Nat)
  /-- DRZ_SEED_LOAD (R276): Every write of PT_CTRL loads DRZ_SEED into the Drizzle generator. -/
  | drzSeedLoad (tile : Nat) (value : Nat)
  /-- PT_CNT_CLEAR (R281): Writing PT_CTRL.CNT_CLEAR clears the PT page counters. -/
  | ptCntClear (tile : Nat) (seed : Nat)
  /-- LFSR_SEED_LOAD (R261): Every write of QM_CTRL loads LFSR_SEED into the early-drop LFSR. -/
  | lfsrSeedLoad (tile : Nat) (value : Nat)
  /-- QM_CNT_CLEAR (R281): Writing QM_CTRL.CNT_CLEAR clears the QM counters and sets HIGH_WATER to USED. -/
  | qmCntClear (tile : Nat) (seed : Nat)
  /-- RING_CNT_CLEAR (R281): Writing RING_CTRL.CNT_CLEAR clears the RING page counters. -/
  | ringCntClear (quad : Nat)
  /-- LEAF_SET (R858): The LEAF_SET command replaces a leaf row's bundle word in one commit. -/
  | leafSet (h : CmdHdr) (leaf : Nat) (count : Nat) (members : List Nat)
  /-- EPGEN_SET (R312): The EPGEN_SET command sets a run of endpoint generation bytes. -/
  | epgenSet (h : CmdHdr) (leaf : Nat) (first : Nat) (count : Nat) (gen : Nat)
  /-- OVR_INSERT (R298): The OVR_INSERT command inserts an override by cuckoo path or into the stash. -/
  | ovrInsert (h : CmdHdr) (feid : Nat) (kind : Nat) (gen : Nat) (target : Nat)
  /-- OVR_DELETE (R301): The OVR_DELETE command removes an override and retries the oldest stash entry. -/
  | ovrDelete (h : CmdHdr) (feid : Nat)
  /-- OVR_AGE (R302): The OVR_AGE command returns and clears HIT for 64 override entries. -/
  | ovrAge (h : CmdHdr) (first : Nat)
  /-- GRP_SET (R304): The GRP_SET command inserts or replaces a group entry. -/
  | grpSet (h : CmdHdr) (group : Nat) (kind : Nat) (gen : Nat) (desc : Nat) (base : Nat) (count : Nat)
  /-- GRP_DELETE (R312): The GRP_DELETE command removes a group entry. -/
  | grpDelete (h : CmdHdr) (group : Nat)
  /-- MEMBER_LOAD (R309): The MEMBER_LOAD command copies FEIDs from staging into member slots. -/
  | memberLoad (h : CmdHdr) (off : Nat) (first : Nat) (count : Nat)
  /-- TABLE_LOAD (R312): The TABLE_LOAD command replaces every table from a checked staging image in one commit. -/
  | tableLoad (h : CmdHdr) (off : Nat) (crc : Nat)
  /-- TABLE_READ (R854): The TABLE_READ command returns 8 bytes of a named table entry. -/
  | tableRead (h : CmdHdr) (table : Nat) (index : Nat)
  /-- CMP_WORD_COMPARE (R318): Every 16 MGMT_CLK cycles a comparator checks one table word against the shadow. -/
  | cmpWordCompare
  /-- FWT_CNT_CLEAR (R281): Writing FWT_CTRL.CNT_CLEAR clears the FWT page counters. -/
  | fwtCntClear (n : Nat)
  /-- LEARN_MOVE_RX (R316): A LEARN MOVE from another spine is applied as OVR_INSERT and acknowledged. -/
  | learnMoveRx (lport : Nat) (pkt : Pkt)
  /-- LEARN_UNMOVE_RX (R316): A LEARN UNMOVE from another spine is applied as OVR_DELETE and acknowledged. -/
  | learnUnmoveRx (lport : Nat) (pkt : Pkt)
  /-- LEARN_ACK_RX (R316): A LEARN ACK confirms a move notice sent to another spine. -/
  | learnAckRx (lport : Nat) (pkt : Pkt)
  /-- LINK_DATA_FRAME_RX (R332): A DATA frame is accepted in LSEQ order or discarded, with a NAK for a bad or unexpected frame. -/
  | linkDataFrameRx (lport : Nat) (header : List Byte) (fecBad : Bool)
  /-- ACK_RX (R333): An acknowledgement frees acknowledged frames from the replay store. -/
  | ackRx (lport : Nat) (header : List Byte) (body : List Byte) (fecBad : Bool)
  /-- NAK_RX (R334): A NAK makes the sender resend every unacknowledged frame from NAK_SEQ. -/
  | nakRx (lport : Nat) (header : List Byte) (body : List Byte) (fecBad : Bool)
  /-- CREDIT_RX (R330): A CREDIT frame updates the sender's available private and shared credits. -/
  | creditRx (lport : Nat) (header : List Byte) (body : List Byte) (fecBad : Bool)
  /-- HELLO_RX (R342): A HELLO moves the link to UP or SLUICE, changes its state, or logs a wrong ROLE. -/
  | helloRx (lport : Nat) (header : List Byte) (body : List Byte) (fecBad : Bool)
  /-- GOODBYE_RX (R344): A GOODBYE moves the link to HOLD_DOWN as a flap. -/
  | goodbyeRx (lport : Nat) (header : List Byte) (body : List Byte) (fecBad : Bool)
  /-- REPLAY_TIMEOUT (R334): The oldest unacknowledged frame waits REPLAY_TIMEOUT and is resent, or the retry limit takes the link down. -/
  | replayTimeout (lport : Nat)
  /-- HELLO_TIMER (R341): The HELLO interval expires and a HELLO frame is sent. -/
  | helloTimer (lport : Nat)
  /-- REEDS_LOCKED (R431): The optics report the port's reeds locked and the link moves from DOWN to ALIGN. -/
  | reedsLocked (lport : Nat)
  /-- PROVISIONAL_TIMER (R431): 50 ms after the first reed locked, one locked reed suffices to report the port locked. -/
  | provisionalTimer (lport : Nat)
  /-- REEDS_UNLOCKED (R341): No reed stays locked and the link returns to DOWN without a training failure. -/
  | reedsUnlocked (lport : Nat)
  /-- PCS_ALIGNED (R341): The PCS aligns and the FEC locks, moving the link from ALIGN to HELLO. -/
  | pcsAligned (lport : Nat)
  /-- ALIGN_TIMEOUT (R341): 5 ms in ALIGN ends as a training failure. -/
  | alignTimeout (lport : Nat)
  /-- HELLO_TIMEOUT (R343): 2 ms in HELLO ends as a training failure, logging 0x0105. -/
  | helloTimeout (lport : Nat)
  /-- PCS_ALIGN_LOSS (R344): The PCS loses alignment for more than 10 us and the link leaves its state. -/
  | pcsAlignLoss (lport : Nat)
  /-- HOLD_DOWN_END (R346): The hold-down H ends and the link returns to DOWN. -/
  | holdDownEnd (lport : Nat)
  /-- TRAINING_WAIT_END (R347): The wait of H in DOWN after a training failure ends and the link returns to ALIGN. -/
  | trainingWaitEnd (lport : Nat)
  /-- DAMPING_DECAY (R346): Each full 60 s in UP or SLUICE without a flap halves H. -/
  | dampingDecay (lport : Nat)
  /-- LINK_PROVISION (R861): The LINK_PROVISION command sets a link's generation and optionally takes it down or clears damping. -/
  | linkProvision (h : CmdHdr) (gen : Nat) (action : Nat)
  /-- SLUICE_EP (R355): The SLUICE_EP command adds an endpoint to or releases it from the sluice list. -/
  | sluiceEp (h : CmdHdr) (feid : Nat) (action : Nat)
  /-- LINK_QUERY (R365): The LINK_QUERY command returns a link's state and counters. -/
  | linkQuery (h : CmdHdr) (clear : Nat)
  /-- LINK_PARAMS (R364): The LINK_PARAMS command sets the device-wide link parameters. -/
  | linkParams (h : CmdHdr) (grace : Nat) (thresh : Nat) (retry : Nat) (timeout : Nat)
  /-- TIDE_SLOT_BOUNDARY (R379): Device time reaches a list boundary, and the port's gates and engine's causeway map change. -/
  | tideSlotBoundary (port : Nat) (listUe : Option Bool) (elemFail : Option Nat)
  /-- CW_TAKEOVER (R464): At TAKEOVER a causeway shadow bank becomes active when port 32n is not running. -/
  | cwTakeover (n : Nat)
  /-- LAUNCH (R394): At LAUNCH_T the port starts the head of its TC6 queue and the entry moves on or clears. -/
  | launch (port : Nat)
  /-- TIDE_LOAD (R399): The TIDE_LOAD command loads a tide package into the shadow banks all or nothing. -/
  | tideLoad (h : CmdHdr) (off : Nat)
  /-- TIDE_CANCEL (R391): The TIDE_CANCEL command ends a pending takeover. -/
  | tideCancel (h : CmdHdr)
  /-- TIDE_STOP (R400): The TIDE_STOP command ends the active bank at its first cycle start after a time. -/
  | tideStop (h : CmdHdr) (time : Nat)
  /-- LAUNCH_SET (R396): The LAUNCH_SET command sets or clears a launch entry. -/
  | launchSet (h : CmdHdr) (entry : Nat) (action : Nat) (time : Nat) (period : Nat)
  /-- TIDE_READ (R400): The TIDE_READ command returns a list entry. -/
  | tideRead (h : CmdHdr) (bank : Nat) (entry : Nat)
  /-- TIDE_LIST_DISABLE (R386): Writing LIST_EN to 0 holds the port IDLE with its banks kept. -/
  | tideListDisable (port : Nat)
  /-- SHAPER_WRITE (R375): A shaper write sets the bucket to BURST or zero. -/
  | shaperWrite (port : Nat) (cls : Nat) (value : Nat)
  /-- TIDE_CNT_CLEAR (R403): Writing TIDE_CTRL.CNT_CLEAR clears the TIDE page counters. -/
  | tideCntClear (tile : Nat)
  /-- LINE_LOW (R411): A comb line measures below WARN in some feed and is reported low. -/
  | lineLow (m : Nat) (line : Nat) (feed : Nat) (power : Nat)
  /-- LINE_FAIL (R412): A comb line below FAIL in every feed takes its reeds out of service with CAUSE_LASER. -/
  | lineFail (m : Nat) (line : Nat) (powers : List Nat)
  /-- LINE_RESTORE (R412): A line at or above WARN for 1 s returns its reeds to lock and margin testing. -/
  | lineRestore (m : Nat) (line : Nat) (powers : List Nat)
  /-- FEED_FAULT (R413): A feed below FAIL or dark removes the reeds of its fibres. -/
  | feedFault (m : Nat) (feed : Nat) (powers : List Nat)
  /-- FEED_DARK_INTERLOCK (R414): A feed dark for 1 ms while lasing clears LASER_EN and sets INTERLOCK. -/
  | feedDarkInterlock (m : Nat) (feed : Nat)
  /-- ELS_REMOVAL (R415): A laser module's presence contact opens and the device clears LASER_EN. -/
  | elsRemoval (m : Nat)
  /-- ELS_INSERTION (R415): A laser module is seated and its identity memory is read. -/
  | elsInsertion (m : Nat)
  /-- IDENTITY_READ_DONE (R418): An identity memory read completes, setting or clearing ID_OK and lighting lasers when AUTO_ON. -/
  | identityReadDone (which : Nat) (record : List Byte)
  /-- LASER_ENABLE (R416): A write of LASER_EN lights the module or is refused. -/
  | laserEnable (m : Nat)
  /-- RING_IDENTITY_FAIL (R423): A ring's wavelength identity fails and it parks to relock. -/
  | ringIdentityFail (port : Nat) (reed : Nat) (tx : Bool) (tone : Option Nat)
  /-- RELOCK_DONE (R425): A relock sweep ends locked or counts a failure, disabling the reed after three. -/
  | relockDone (port : Nat) (reed : Nat) (tx : Bool) (locked : Bool) (tone : Nat)
  /-- RING_SLIP (R429): Detuning over THRESH for DWELL puts the ring in SLIP. -/
  | ringSlip (port : Nat) (reed : Nat) (tx : Bool)
  /-- SLIP_END (R429): 10 us within THRESH returns the ring to LOCKED. -/
  | slipEnd (port : Nat) (reed : Nat) (tx : Bool)
  /-- FAILS_RESET (R426): After 1 s in LOCKED or SLIP a reed's FAILS returns to 0. -/
  | failsReset (port : Nat) (reed : Nat)
  /-- REED_LIGHT_LOSS (R437): A reed's received light is lost for 10 us and it leaves the live set. -/
  | reedLightLoss (port : Nat) (reed : Nat)
  /-- CX_POWER_PUBLISH (R428): Every 10 us CX power is published and heater loops add the feed-forward. -/
  | cxPowerPublish (power : Nat) (settled : Bool)
  /-- MARGIN_TEST_START (R432): Once the link is UP the device starts margin tests of untested reeds. -/
  | marginTestStart (lport : Nat)
  /-- MARGIN_STEP_RX (R435): A MARGIN STEP makes the device clear its checkers and count errors for the dwell. -/
  | marginStepRx (lport : Nat) (header : List Byte) (body : List Byte) (fecBad : Bool)
  /-- MARGIN_DWELL_END (R435): The dwell ends and a MARGIN REPORT is sent. -/
  | marginDwellEnd (lport : Nat) (errors : List Nat)
  /-- MARGIN_REPORT_RX (R434): A MARGIN REPORT stops reeds at their margin or raises the attenuation. -/
  | marginReportRx (lport : Nat) (header : List Byte) (body : List Byte) (fecBad : Bool)
  /-- MARGIN_DONE_RX (R433): A MARGIN DONE gives the far end's measured margins. -/
  | marginDoneRx (lport : Nat) (header : List Byte) (body : List Byte) (fecBad : Bool)
  /-- MARGIN_REPORT_TIMEOUT (R434): No REPORT within 100 us aborts the test. -/
  | marginReportTimeout (lport : Nat)
  /-- MARGIN_RETRY (R434): 1 s after an aborted test, the test is retried. -/
  | marginRetry (lport : Nat)
  /-- REED_RETRY (R466): The REED_RETRY command clears FAILS, DISABLED and LOW_MARGIN and relocks the reeds. -/
  | reedRetry (h : CmdHdr) (mask : Nat)
  /-- MARGIN_RUN (R466): The MARGIN_RUN command tests the named reeds of the device's transmitter. -/
  | marginRun (h : CmdHdr) (mask : Nat)
  /-- ID_READ (R466): The ID_READ command re-reads an identity memory. -/
  | idRead (h : CmdHdr)
  /-- CW_LOAD (R463): The CW_LOAD command loads a causeway package into the shadow banks all or nothing. -/
  | cwLoad (h : CmdHdr) (off : Nat)
  /-- CW_STANDING (R459): The CW_STANDING command sets or clears a standing causeway. -/
  | cwStanding (h : CmdHdr) (src : Nat) (dst : Nat) (action : Nat)
  /-- STANDING_BUILD_DONE (R458): A standing causeway's thermal build or clearance completes. -/
  | standingBuildDone (n : Nat)
  /-- CW_CANCEL (R465): The CW_CANCEL command ends a pending causeway takeover. -/
  | cwCancel (h : CmdHdr)
  /-- OE_CNT_CLEAR (R469): Writing OE_CTRL.CNT_CLEAR clears the OE counters. -/
  | oeCntClear (n : Nat)
  /-- CW_CNT_CLEAR (R470): Writing CW_CTRL.CNT_CLEAR clears the CW counters. -/
  | cwCntClear (n : Nat)
  /-- ELS_CNT_CLEAR (R471): Writing ELS_CTRL.CNT_CLEAR clears the ELS counters. -/
  | elsCntClear (m : Nat)
  /-- FEN_OPEN (R522): A COLL_CTRL OPEN admits or refuses a collective round and answers the members. -/
  | fenOpen (lport : Nat) (pkt : Pkt)
  /-- COLL_IN (R534): A contribution region is checked, accepted and reduced, or discarded or backed off. -/
  | collIn (lport : Nat) (pkt : Pkt) (wrong : Option RunOut)
  /-- CHUNK_RELEASE (R558): A finished chunk is released through the replicator as COLL_OUT. -/
  | chunkRelease (die : Nat) (group : Nat) (chunk : Nat)
  /-- VERDICT (R557): A shadow finishes and the verdict compares it with the primary result. -/
  | verdict (die : Nat) (group : Nat) (chunk : Nat) (shadow : Option RunOut)
  /-- FEN_STALL (R543): A chunk open STALL_US with a missing member sends firmware a stall notice. -/
  | fenStall (die : Nat) (group : Nat) (chunk : Nat)
  /-- FEN_REPEAT (R555): A REPEAT is answered with the retained chunk, the last record, or GONE. -/
  | fenRepeat (lport : Nat) (pkt : Pkt)
  /-- FEN_DONE (R525): A DONE in pass-through counts the member and sends the record when all are done. -/
  | fenDone (lport : Nat) (pkt : Pkt)
  /-- HALL_ADMITTED_RX (R569): A hall spine receives the root's ADMITTED and answers its members. -/
  | hallAdmittedRx (lport : Nat) (pkt : Pkt)
  /-- HALL_REFUSED_RX (R570): A hall spine receives REFUSED, returns its reservation and refuses its members. -/
  | hallRefusedRx (lport : Nat) (pkt : Pkt)
  /-- HALL_OPEN_TIMEOUT (R570): 1 ms without every hall OPEN makes the root refuse with HALL_REFUSED. -/
  | hallOpenTimeout (die : Nat) (group : Nat)
  /-- HALL_RELEASE_RX (R573): A hall spine replicates the root's COLL_OUT to its members unchanged. -/
  | hallReleaseRx (lport : Nat) (pkt : Pkt)
  /-- HALL_RECALL_RX (R573): A hall spine forwards the root's recall to its members. -/
  | hallRecallRx (lport : Nat) (pkt : Pkt)
  /-- HALL_RECORD_RX (R573): A hall spine forwards the root's completion record with its own counts. -/
  | hallRecordRx (lport : Nat) (pkt : Pkt)
  /-- FEN_MEM_ERROR (R574): An uncorrectable Fen memory error resets its partition and aborts its rounds. -/
  | fenMemError (die : Nat) (tier1 : Bool) (slot : Nat) (beat : Nat)
  /-- REDUCER_UE (R721): An uncorrectable reducer datapath error retires the instance and restarts its chunks. -/
  | reducerUe (n : Nat)
  /-- FEN_DESC_SET (R517): The FEN_DESC_SET command writes a descriptor on both dies. -/
  | fenDescSet (h : CmdHdr) (index : Nat) (desc : Nat)
  /-- FEN_DESC_READ (R578): The FEN_DESC_READ command returns 8 bytes of a descriptor. -/
  | fenDescRead (h : CmdHdr) (index : Nat) (word : Nat)
  /-- FEN_PART_SET (R527): The FEN_PART_SET command sets a Fen partition's ranges and binding. -/
  | fenPartSet (h : CmdHdr) (part : Nat) (ring : Nat) (tenant : Nat) (sfirst : Nat) (scount : Nat) (tfirst : Nat) (tcount : Nat) (enable : Nat)
  /-- FEN_PART_RESET (R578): The FEN_PART_RESET command resets a Fen partition. -/
  | fenPartReset (h : CmdHdr) (part : Nat)
  /-- FEN_ABORT (R567): The FEN_ABORT command ends an open round with ABORT. -/
  | fenAbort (h : CmdHdr) (group : Nat) (rnd : Nat)
  /-- FEN_QUERY (R578): The FEN_QUERY command returns a group's round state. -/
  | fenQuery (h : CmdHdr) (group : Nat)
  /-- SALT_SEED_LOAD (R557): A write of FADM_SALT_SEED loads the SALT generator. -/
  | saltSeedLoad (die : Nat) (value : Nat)
  /-- FEN_CNT_CLEAR (R580): Writing FEN_CTRL.CNT_CLEAR clears the FEN counters. -/
  | fenCntClear (n : Nat)
  /-- FADM_CNT_CLEAR (R581): Writing FADM_CTRL.CNT_CLEAR clears the FADM counters. -/
  | fadmCntClear (die : Nat)
  /-- TIER_GRANT (R593): A channel arbiter grants one waiting client's request by credit and rotation. -/
  | tierGrant (ch : Nat) (idle : Nat) (reqs : List TierReq) (room : Bool)
  /-- ARB_WINDOW (R593): Every 1,024 cycles each client's credit is refilled and OFFSET advances. -/
  | arbWindow (ch : Nat)
  /-- LOCK_BREAK (R594): A lock holder presents no request for 32 cycles and the lock breaks. -/
  | lockBreak (ch : Nat)
  /-- SCRUB (R588): The patrol scrubber reads a beat and writes corrected data back. -/
  | scrub (res : EccRes) (parts : List Nat)
  /-- TIER1_TRAINED (R585): Tier-1 training completes and tier 1 serves when all stacks trained. -/
  | tier1Trained (mask : Nat)
  /-- TIER2_TRAINED (R584): Tier-2 training completes and n is set from the accepted modules. -/
  | tier2Trained (present : Nat) (accepted : Nat) (trained : Nat)
  /-- PEAT_PUT (R613): A PUT request writes blocks into slots and the directory. -/
  | peatPut (lport : Nat) (pkt : Pkt) (errs : List BeatErr)
  /-- PEAT_GET (R613): A GET request returns whole blocks. -/
  | peatGet (lport : Nat) (pkt : Pkt) (errs : List BeatErr)
  /-- PEAT_GATHER (R613): A GATHER request returns a byte range from each block. -/
  | peatGather (lport : Nat) (pkt : Pkt) (errs : List BeatErr)
  /-- PEAT_ATTEND (R627): An ATTEND request computes attention partials over named blocks. -/
  | peatAttend (lport : Nat) (pkt : Pkt) (errs : List BeatErr)
  /-- PEAT_PIN (R613): A PIN request sets or clears PIN on blocks. -/
  | peatPin (lport : Nat) (pkt : Pkt) (errs : List BeatErr)
  /-- PEAT_EVICT (R613): An EVICT request removes blocks and frees their slots. -/
  | peatEvict (lport : Nat) (pkt : Pkt) (errs : List BeatErr)
  /-- PEAT_PROMOTE (R613): A PROMOTE request moves tier-2 blocks to tier 1. -/
  | peatPromote (lport : Nat) (pkt : Pkt) (errs : List BeatErr)
  /-- PEAT_DEMOTE (R613): A DEMOTE request moves tier-1 blocks to tier 2. -/
  | peatDemote (lport : Nat) (pkt : Pkt) (errs : List BeatErr)
  /-- PEAT_REASM_TIMEOUT (R606): An incomplete Peat request is discarded after PEAT_REASM.US. -/
  | peatReasmTimeout (src : Nat) (msgId : Nat) (gen : Nat)
  /-- AUTO_DEMOTE (R615): A partition above HIGH demotes its least recently used unpinned block. -/
  | autoDemote (p : Nat)
  /-- PEAT_POWER_INTERVAL (R621): Every 10 us the array's power estimate sets the allowed issue for the next interval. -/
  | peatPowerInterval (want : Nat)
  /-- PEAT_PART_UE (R630): An uncorrectable error in a partition's beat resets the partition. -/
  | peatPartUe (chan : Option Nat) (parts : List Nat)
  /-- STALE_SWEEP_DONE (R631): The background sweep of a reset partition's stale entries completes. -/
  | staleSweepDone (p : Nat)
  /-- PEAT_PART_SET (R596): The PEAT_PART_SET command binds a Peat partition. -/
  | peatPartSet (h : CmdHdr) (part : Nat) (ring : Nat) (tenant : Nat) (group : Nat) (t1First : Nat) (t1Count : Nat) (t2First : Nat) (t2Count : Nat) (dirBase : Nat) (dirLog2 : Nat) (enable : Nat)
  /-- PEAT_PART_RESET (R635): The PEAT_PART_RESET command resets a Peat partition. -/
  | peatPartReset (h : CmdHdr) (part : Nat)
  /-- PEAT_LOOKUP (R635): The PEAT_LOOKUP command returns a directory entry for a key. -/
  | peatLookup (h : CmdHdr) (part : Nat) (key : Nat)
  /-- PEAT_SNAPSHOT (R633): The PEAT_SNAPSHOT command writes a partition's directory to PEAT_SNAP. -/
  | peatSnapshot (h : CmdHdr) (part : Nat) (off : Nat)
  /-- PEAT_USAGE (R635): The PEAT_USAGE command returns a partition's slot use. -/
  | peatUsage (h : CmdHdr) (part : Nat)
  /-- PEAT_CNT_CLEAR (R637): Writing PEAT_CTRL.CNT_CLEAR clears the PEAT counters. -/
  | peatCntClear
  /-- TIER_CNT_CLEAR (R638): Writing TIER_CTRL.CNT_CLEAR clears the TIER page 0 counters. -/
  | tierCntClear
  /-- TIER_CH_CNT_CLEAR (R638): Writing TIER_CH_CTRL.CNT_CLEAR clears a channel's counters. -/
  | tierChCntClear (ch : Nat)
  /-- WINDOW_OPEN (R639): A window boundary opens the next telemetry window, closing the oldest if four are open. -/
  | windowOpen (fec : List FecCount)
  /-- WINDOW_CLOSE (R642): A window closes at its end plus GRACE and its results are written and given to Barometer. -/
  | windowClose
  /-- WIN_US_WRITE (R640): A WIN_US write is accepted for the next second boundary or discarded. -/
  | winUsWrite (value : Nat)
  /-- WINDOW_RECONFIG (R640): At the second boundary the new WIN_US applies and open windows close CUT_SHORT. -/
  | windowReconfig (fec : List FecCount)
  /-- TELEM (R645): A TELEM packet's records are judged, reduced and sampled. -/
  | telem (lport : Nat) (pkt : Pkt)
  /-- SEGMENT_TIMEOUT (R656): A segment open SEG_MAX_MS closes. -/
  | segmentTimeout (kind : Nat)
  /-- SEGMENT_COMPLETE (R658): A segment header is written and a segment-complete event posted. -/
  | segmentComplete (kind : Nat) (next : Nat)
  /-- DEL_GROUP_SET (R647): The DEL_GROUP_SET command writes a reduction descriptor. -/
  | delGroupSet (h : CmdHdr) (index : Nat) (set : Nat) (rgroup : Nat) (ops : Nat) (flags : Nat) (rawLog2 : Nat) (expect : Nat)
  /-- FROST_ARM (R662): The FROST_ARM command arms a Frost at time T. -/
  | frostArm (h : CmdHdr) (t : Nat) (mode : Nat)
  /-- THAW (R670): The THAW command sets the Thaw time. -/
  | thaw (h : CmdHdr) (tt : Nat)
  /-- FROST_CANCEL (R662): The FROST_CANCEL command returns an armed Frost to IDLE. -/
  | frostCancel (h : CmdHdr)
  /-- SNAPSHOT (R672): The SNAPSHOT command arms a local latch at time T. -/
  | snapshot (h : CmdHdr) (t : Nat)
  /-- DEL_SNAP_READ (R680): The DEL_SNAP_READ command returns a snapshot value or link snapshot. -/
  | delSnapRead (h : CmdHdr) (off : Nat) (sel : Nat)
  /-- FROST_IN_EDGE (R663): An accepted FROST_IN edge arms Frost at an aligned time. -/
  | frostInEdge (level : Bool) (edge : Nat)
  /-- FROST_IN_STUCK (R663): FROST_IN held active 10 ms is reported stuck. -/
  | frostInStuck
  /-- FROST_LATCH (R665): On the tick holding T every armed page latches, and a freeze begins in freeze mode. -/
  | frostLatch
  /-- FROST_OUT_END (R664): The FROST_OUT pulse width ends. -/
  | frostOutEnd
  /-- THAW_TIME (R670): At TT credits are freed and launches resume. -/
  | thawTime
  /-- AUTO_THAW (R670): With no TT set by T + FROST_MAX the device thaws itself. -/
  | autoThaw
  /-- FROST_IMAGE (R671): The Frost image segment is written to the archive. -/
  | frostImage
  /-- TRACE_ARM (R678): Writing ARM clears the pre-trigger ring and arms the trace. -/
  | traceArm
  /-- TRACE_TRIGGER (R675): Writing TRIGGER fires the trace trigger. -/
  | traceTrigger
  /-- TRACE_MARK (R673): Writing the top word of DEL_TRACE_MARK makes a mark entry. -/
  | traceMark (mark : Nat)
  /-- TRACE_CAPTURE_END (R677): The capture takes its post-trigger count and writes its header. -/
  | traceCaptureEnd
  /-- DEL_CNT_CLEAR (R682): Writing DEL_CTRL.CNT_CLEAR clears the DEL page 0 counters. -/
  | delCntClear
  /-- DEL_FROST_CNT_CLEAR (R683): Writing DEL_FROST_CTRL.CNT_CLEAR clears the DEL page 1 counters. -/
  | delFrostCntClear
  /-- BARO_EVALUATION (R687): After a window close scores decay, take the window's inputs and are judged. -/
  | baroEvaluation
  /-- FENCE_COMMIT (R698): A fence addition or removal commits and raises the fence epoch. -/
  | fenceCommit
  /-- PEER_FENCE_RESEND (R709): 2 ms without ACK resends a peer message, setting PEER_FAIL after three. -/
  | peerFenceResend (dst : Nat) (seq : Nat)
  /-- PEER_FENCE_RX (R709): A PEER_FENCE is applied as a peer entry and acknowledged. -/
  | peerFenceRx (lport : Nat) (pkt : Pkt)
  /-- PEER_UNFENCE_RX (R709): A PEER_UNFENCE removes the matching peer entry and is acknowledged. -/
  | peerUnfenceRx (lport : Nat) (pkt : Pkt)
  /-- FENCE_ACK_RX (R709): A FENCE ACK confirms a peer message. -/
  | fenceAckRx (lport : Nat) (pkt : Pkt)
  /-- SHIELD_END (R695): A shield ends and the child is judged again. -/
  | shieldEnd (obj : Nat)
  /-- FENCE_COPY_UE (R703): An uncorrectable error in a fence list copy is repaired from another copy. -/
  | fenceCopyUe
  /-- FENCE_ADD (R717): The FENCE_ADD command adds an operator fence. -/
  | fenceAdd (h : CmdHdr) (obj : Nat) (key : Nat) (prop : Nat) (group : Nat)
  /-- FENCE_CLEAR (R702): The FENCE_CLEAR command removes a fence and resets scores. -/
  | fenceClear (h : CmdHdr) (obj : Nat) (key : Nat) (prop : Nat)
  /-- FENCE_READ (R717): The FENCE_READ command returns a fence list entry. -/
  | fenceRead (h : CmdHdr) (index : Nat)
  /-- HOLD_CLEAR (R717): The HOLD_CLEAR command releases an object from suspect-hold. -/
  | holdClear (h : CmdHdr) (obj : Nat)
  /-- SCORE_READ (R717): The SCORE_READ command returns an object's score and state. -/
  | scoreRead (h : CmdHdr) (obj : Nat)
  /-- SCORE_RESET (R717): The SCORE_RESET command sets an object's score to 0. -/
  | scoreReset (h : CmdHdr) (obj : Nat)
  /-- BARO_CNT_CLEAR (R719): Writing BARO_CTRL.CNT_CLEAR clears the BARO counters. -/
  | baroCntClear
  /-- CHK_MARGIN (R741): The CHK_MARGIN command sets a unit's margin step. -/
  | chkMargin (h : CmdHdr) (unit : Nat) (step : Nat)
  /-- CHK_RETURN (R741): The CHK_RETURN command tests a retired unit and returns it as a spare. -/
  | chkReturn (h : CmdHdr) (unit : Nat)
  /-- IFT_RUN (R741): The IFT_RUN command tests a unit now. -/
  | iftRun (h : CmdHdr) (unit : Nat)
  /-- IFT_SCHEDULE (R733): A unit's scheduled in-field test falls due and its stand-in takes its work. -/
  | iftSchedule (unit : Nat)
  /-- IFT_WAIT_EXPIRY (R736): After WAIT_MIN without a free stand-in the test runs throttled. -/
  | iftWaitExpiry (unit : Nat)
  /-- IFT_COMPLETE (R734): An in-field test ends in pass, returning the unit, or fail, retiring it. -/
  | iftComplete (unit : Nat) (pass : Bool)
  /-- HANDOVER_DRAINED (R721): An old reducer instance holds no open chunk and leaves the work. -/
  | handoverDrained (n : Nat)
  /-- PENDING_SUBSTITUTION (R731): A spare becomes free and a pending substitution is applied. -/
  | pendingSubstitution (unit : Nat)
  /-- MAC_TILE_UE (R724): An uncorrectable error in a MAC tile of a spared row takes ATTEND offline. -/
  | macTileUe (row : Nat) (col : Nat)
  /-- ERGAN_MEM_ERROR (R739): An uncorrectable Ergan memory error retires the core or reloads the service. -/
  | erganMemError (core : Option Nat) (chan : Nat)
  /-- DEGRADED_TAKEOVER (R726): A degraded active half passes control at the next millisecond boundary. -/
  | degradedTakeover
  /-- CHK_CNT_CLEAR (R743): Writing CHK_CTRL.CNT_CLEAR clears the CHK counters. -/
  | chkCntClear
  /-- PMC_SLOT_CFG_WRITE (R748): A PMC_SLOT_CFG write zeroes the count and sets the selection, or is refused for OPEN. -/
  | pmcSlotCfgWrite (slot : Nat) (value : Nat)
  /-- TAG_SEED_LOAD (R751): Every write of PMC_CTRL loads TAG_SEED into the tag generator. -/
  | tagSeedLoad (value : Nat)
  /-- PMC_CNT_CLEAR (R766): Writing PMC_CTRL.CNT_CLEAR clears the PMC counters. -/
  | pmcCntClear (seed : Nat)
  /-- PMC_TAG_COPY (R756): The PMC_TAG_COPY command moves unread tag records to staging. -/
  | pmcTagCopy (h : CmdHdr) (off : Nat) (count : Nat)
  /-- MIRE_READ (R762): The MIRE_READ command writes the last completed round to staging. -/
  | mireRead (h : CmdHdr) (off : Nat) (maxLen : Nat)
  /-- MIRE_ROUND (R764): The MIRE_ROUND command ends the current period at once. -/
  | mireRound (h : CmdHdr)
  /-- MIRE_PERIOD (R759): Every PERIOD_MS firmware reports its edges and the collector closes the round. -/
  | mirePeriod
  /-- MIRE_EDGES_RX (R760): The collector takes an EDGES report into its round. -/
  | mireEdgesRx (lport : Nat) (pkt : Pkt)
  /-- CREDIT_BLOCK_TIMER (R758): A class blocked for credits for WAIT_US sets its wait bit and makes an edge. -/
  | creditBlockTimer (lport : Nat) (cls : Nat)
  /-- FW_STAGE (R794): The FW_STAGE command verifies an image and writes it to the non-boot slot. -/
  | fwStage (h : CmdHdr) (off : Nat) (len : Nat) (flash : FlashRes)
  /-- FW_ACTIVATE (R795): The FW_ACTIVATE command boots the staged image on the standby half for takeover at T. -/
  | fwActivate (h : CmdHdr) (time : Nat)
  /-- FW_TAKEOVER (R795): At T the halves exchange roles. -/
  | fwTakeover
  /-- TAKEOVER_LATE (R796): Mirroring unfinished at T - 10 ms cancels the takeover. -/
  | takeoverLate
  /-- FW_COMMIT (R797): The FW_COMMIT command makes the running image the boot image. -/
  | fwCommit (h : CmdHdr) (flash : FlashRes)
  /-- FW_ROLLBACK (R797): The FW_ROLLBACK command returns control to the old image at T. -/
  | fwRollback (h : CmdHdr) (time : Nat)
  /-- FW_CHAIN (R799): The FW_CHAIN command sends a staged image along a chain of spines. -/
  | fwChain (h : CmdHdr) (off : Nat) (ue : List Nat)
  /-- CHAIN_DATA_RX (R801): A chain DATA packet is received and acknowledged, and the whole transfer forwarded once checked. -/
  | chainDataRx (lport : Nat) (pkt : Pkt) (flash : FlashRes)
  /-- CHAIN_ACK_RX (R801): A chain ACK advances the sender's window. -/
  | chainAckRx (lport : Nat) (pkt : Pkt)
  /-- CHAIN_DONE_RX (R802): The head records a chain entry's DONE status. -/
  | chainDoneRx (lport : Nat) (pkt : Pkt)
  /-- CHAIN_ABORT_RX (R800): A chain ABORT ends the transfer. -/
  | chainAbortRx (lport : Nat) (pkt : Pkt)
  /-- CHAIN_RESEND (R801): 2 ms without progress resends, and after three skips the next entry. -/
  | chainResend (origin : Nat) (xfer : Nat)
  /-- CHAIN_TIMEOUT (R802): FW_CHAIN completes after 10 minutes. -/
  | chainTimeout (xfer : Nat)
  /-- CFG_WRITE (R779): The CFG_WRITE command verifies and stores a configuration record. -/
  | cfgWrite (h : CmdHdr) (off : Nat) (len : Nat) (flash : FlashRes)
  /-- JOB_REUSE (R804): The JOB_REUSE command replaces OLD_GEN with NEW_GEN in one table commit. -/
  | jobReuse (h : CmdHdr) (oldGen : Nat) (newGen : Nat) (c1 : Nat) (c2 : Nat) (c3 : Nat)
  /-- ATTEST (R788): The ATTEST command writes a signed attestation report. -/
  | attest (h : CmdHdr) (nonce : Nat) (off : Nat) (flash : FlashRes)
  /-- UNLOCK_CHALLENGE (R789): The UNLOCK_CHALLENGE command raises counter 4 and returns the challenge. -/
  | unlockChallenge (h : CmdHdr) (flash : FlashRes)
  /-- UNLOCK (R789): The UNLOCK command accepts a token and sets UNLOCKED. -/
  | unlock (h : CmdHdr) (off : Nat) (len : Nat)
  /-- PUF_REFRESH (R793): The PUF_REFRESH command arms a helper data refresh at the next cold reset. -/
  | pufRefresh (h : CmdHdr) (flash : FlashRes)
  /-- BCAST_START (R806): The BCAST_START command replicates staged data as BCAST blocks to a group. -/
  | bcastStart (h : CmdHdr) (off : Nat) (len : Nat) (group : Nat) (alts : List Nat) (ue : List Nat)
  /-- BCAST_ABORT (R810): The BCAST_ABORT command ends a broadcast without a record. -/
  | bcastAbort (h : CmdHdr) (group : Nat)
  /-- BCAST_ACK (R808): A member's BCAST_ACK records its acknowledged blocks. -/
  | bcastAck (lport : Nat) (pkt : Pkt)
  /-- BCAST_BLOCK_DEADLINE (R809): An unacknowledged block's deadline sends it through an alternate or directly. -/
  | bcastBlockDeadline (group : Nat) (member : Nat) (block : Nat)
  /-- BCAST_RELAY_RX (R809): An alternate receives a relayed block and sends it to the member alone. -/
  | bcastRelayRx (lport : Nat) (pkt : Pkt)
  /-- BCAST_STALL_NOTICE (R809): Every 100 ms with a block missing a stall notice goes to firmware. -/
  | bcastStallNotice (group : Nat)
  /-- CFG_STARTUP_STAGE (R781): A start-up stage completes and its CFG_STATUS bit is set. -/
  | cfgStartupStage (stage : StartStage)
  /-- PWR_GOOD_RISE (R832): PWR_GOOD rises as the power-on event. -/
  | pwrGoodRise
  /-- PWR_GOOD_FALL (R832): PWR_GOOD falls and the device enters reset and closes carrier gates. -/
  | pwrGoodFall
  /-- RESET_N_ASSERT (R833): RESET_N low for 1 us causes a warm reset. -/
  | resetNAssert (ns : Nat)
  /-- RESET_N_RELEASE (R781): RESET_N is released and start-up begins. -/
  | resetNRelease
  /-- REFCLK_LOSS (R834): REFCLK or root PLL lock is lost and the device holds itself in warm reset. -/
  | refclkLoss
  /-- CLOCK_RESTORED (R834): REFCLK is good and lock has held 1 ms, so the device restarts. -/
  | clockRestored
  /-- SENSOR_READ (R840): Every 10 us the temperature sensors are read and thresholds applied. -/
  | sensorRead (sample : SensorSample)
  /-- RAIL_MONITOR (R843): A rail out of tolerance for 10 us sets or clears RAIL_FAULT. -/
  | railMonitor (rail : Nat) (voltage : Nat) (current : Nat)
  /-- PWR_ALERT_FORCE (R844): Writing PWR_ALERT_FORCE sets alert source FORCE. -/
  | pwrAlertForce
  /-- PWR_CNT_CLEAR (R846): Writing PWR_CTRL.CNT_CLEAR clears the PWR counters and PEAK fields. -/
  | pwrCntClear
  /-- TIDE_LIST_ENABLE (R386): A write of TIDE_PORT_CFG.LIST_EN back to 1 lets a port held IDLE take up its active bank again. -/
  | tideListEnable (port : Nat)
  /-- CAL_BURST_RETURN (R161): When the device is the far end of ASYM_CAL on a cascade port, its calibration burst returns through the hairpin and is stamped as t_rx. -/
  | calBurstReturn (port : Nat) (stamp : Nat)
  /-- CAL_LOOP_END (R161): At W + 70 us the far end of a calibration loop restarts its link-layer timers and reacquires the spine's stream. -/
  | calLoopEnd (port : Nat)
  /-- PDELAY_REQ_TX (R143): At each peer delay interval of 2^-LOG_PDELAY s a Pdelay_Req is sent on ports with peer-to-peer delay enabled. -/
  | pdelayReqTx (port : Nat) (stampId : Option Nat)
  /-- ANNOUNCE_TX (R144): While the device is the hall grandmaster it sends an Announce message on the management port at its announce interval. -/
  | announceTx
  /-- HALL_ABORT_RX (R573): A COLL_CTRL ABORT arriving from the root or a hall spine of a cross-hall round ends that round here with HALL_LOST or the given reason. -/
  | hallAbortRx (lport : Nat) (pkt : Pkt)
  /-- CXL_LINK_DOWN (R47): The host's CXL link goes down or the host detaches, clearing HOST_LINK_STATUS.UP while the data plane runs on. -/
  | cxlLinkDown
  /-- LASER_LIGHT_ON (R415): Light from a laser module reaches the engines within 50 ms of LASER_EN, and LASING becomes 1. -/
  | laserLightOn (m : Nat)
  deriving DecidableEq, Repr

end Sys2Proof
end

