-- ==== Sys2Proof/WellFormed.lean ====
section
/-! DEFINITION. Which operands a command can carry: the ranges the spec gives for ports, classes, pages, rings and fields. -/
namespace Sys2Proof

/-- The header of a command: a ring below 256, a 32-bit TAG and TARGET (R82). -/
def CmdHdr.wf (h : CmdHdr) : Bool :=
  (match h.src with | .ring i => decide (i < 256) | .mgmt mac seq => decide (mac < 2 ^ 48) && decide (seq < 2 ^ 64) | .firmware => true) &&
  decide (h.tag < 2 ^ 32) && decide (h.target < 2 ^ 32)

/-- A fetched entry: every field within its width, 48 operand bytes. -/
def RawEntry.wf (e : RawEntry) : Bool :=
  decide (e.opcode < 2 ^ 16) && decide (e.rsv2 < 64) && decide (e.rsv3 < 256) && decide (e.tag < 2 ^ 32) && decide (e.target < 2 ^ 32) &&
  decide (e.rsv12 < 2 ^ 32) && decide (e.operands.length = 48)

/-- A management frame: every field within its width (R102). -/
def MpFrame.wf (f : MpFrame) : Bool :=
  decide (f.dest < 2 ^ 48) && decide (f.etherType < 2 ^ 16) &&
  decide (f.srcMac < 2 ^ 48) && decide (f.magic < 2 ^ 16) && decide (f.op < 256) && decide (f.status < 256) && decide (f.session < 2 ^ 32) &&
  decide (f.seq < 2 ^ 64) && decide (f.addr < 2 ^ 32) && decide (f.len < 2 ^ 16) && decide (f.body.length = f.len) && decide (f.mac.length = 32)

/-- A packet: every TFH field within its width (R177). The length of the payload may differ from PAYLOAD_LEN (R200). -/
def Pkt.wf (p : Pkt) : Bool :=
  decide (p.ver < 16) && decide (p.cls < 8) && decide (p.cmark < 2) && decide (p.typ < 256) && decide (p.flags < 2 ^ 16) && decide (p.dst < 2 ^ 32) &&
  decide (p.src < 2 ^ 32) && decide (p.seq < 2 ^ 24) && decide (p.gen < 256) && decide (p.msgId < 2 ^ 32) && decide (p.offset < 2 ^ 32) &&
  decide (p.plen < 2 ^ 16) && decide (p.hop < 16) && decide (p.rsv26 < 16) && decide (p.rsv27 < 256) && decide (p.hcrc < 2 ^ 32) &&
  decide (p.pcrc < 2 ^ 32) && decide (p.cchk < 2 ^ 32)

/-- A window of a tenant requester is 0–63 (R78). -/
def Requester.wf : Requester → Bool
  | .tenant w => decide (w < 64)
  | _ => true

/-- A received time message: a logical port or 0x7FF, and a stamp in timestamp form (R114). -/
def TimeRx.wf (t : TimeRx) : Bool := (decide (t.port < 1024) || t.port == 0x7FF) && decide (t.stamp < 2 ^ 80)

/-- A request of a channel's client (R591, R592): 1 to 64 beats. -/
def TierReq.wf (r : TierReq) : Bool := decide (r.client < 8) && decide (0 < r.beats) && decide (r.beats ≤ 64)

/-- Are a FEC count's fields within their widths? -/
def FecCount.wf (x : FecCount) : Bool := decide (x.lport < 1024) && decide (x.corrected < 4294967296)

/-- An access of memory, of 1 to 64 bytes. -/
def MemAcc.wf : MemAcc → Bool
  | .read n errs => decide (0 < n) && decide (n ≤ 64) && errs.all (decide <| ·.chan < 16)
  | .write d => decide (0 < d.length) && decide (d.length ≤ 64)

/-- A register value of a record names a word of the block pages. -/
def RegSet.wf (x : RegSet) : Bool := decide (x.addr < 2 ^ 28) && x.addr % 4 == 0 && decide (x.value < 2 ^ 32)

/-- A site record's spine index is 0–255 (R184). -/
def SiteRec.wf (r : SiteRec) : Bool := decide (r.spine < 256)

/-- An image's VERSION and SVN are 32-bit (R773). -/
def ImageInfo.wf (i : ImageInfo) : Bool := decide (i.version < 2 ^ 32) && decide (i.svn < 2 ^ 32)

/-- A settings record (R790): its header fields within their widths; steps 1–5 of units below 388 and keys of the four slots, in rising order. -/
def SetRec.wf (r : SetRec) : Bool :=
  decide (r.setVer < 2 ^ 16) && decide (r.version < 2 ^ 32) && decide (r.seq < 2 ^ 32) && decide (r.half < 2) &&
  (r.margin.all fun e => decide (e.1 < 388) && decide (0 < e.2) && decide (e.2 < 6)) && decide (r.margin.Pairwise fun x y => x.1 < y.1) &&
  (r.keys.all fun e => decide (e.1 < 4) && decide (e.2 < 2 ^ 256)) && decide (r.keys.Pairwise fun x y => x.1 < y.1)

/-- A start-up stage: physical Fen instances are 0–33, MAC tiles 0–271. -/
def StartStage.wf : StartStage → Bool
  | .identity _ _ _ _ _ site values => site.all SiteRec.wf && values.all RegSet.wf
  | .firmware a b c p => a.all ImageInfo.wf && b.all ImageInfo.wf && c.all SetRec.wf && p.all SetRec.wf
  | .formats l => l.all fun n => decide (n < 34)
  | .exact l => l.all fun n => decide (n < 34)
  | .attend l => l.all fun i => decide (i < 272)
  | _ => true

/-- Nineteen sensors, 16-bit readings (R840). -/
def SensorSample.wf (x : SensorSample) : Bool :=
  decide (x.temps.length = 19) && x.temps.all (fun t => decide (t < 2 ^ 16)) && decide (x.pkg < 2 ^ 16)

/-- Is a command well formed: is every operand within the range the spec gives it? -/
def Instr.wf : Instr → Bool
  | .registerWrite addr size value who => decide (addr < 268435456) && decide (size < 65) && decide (value < 18446744073709551616) && who.wf
  | .rcFieldRead addr size who => decide (addr < 268435456) && decide (size < 65) && who.wf
  | .split64bitRead addr who => decide (addr < 268435456) && who.wf
  | .pageLock page => decide (256 ≤ page) && decide (page < 5888)
  | .pageReset page => decide (256 ≤ page) && decide (page < 5888)
  | .pageResetComplete page => decide (256 ≤ page) && decide (page < 5888)
  | .pageIrqForce page value => decide (256 ≤ page) && decide (page < 5888) && decide (value < 4294967296)
  | .pageErrClear page => decide (256 ≤ page) && decide (page < 5888)
  | .hostResetKey value => decide (value < 4294967296)
  | .tenantWindowBind win value => decide (win < 64) && decide (value < 4294967296)
  | .cxlLinkTrain _ _ _ _ _ => true
  | .bar2Access off acc => decide (off < 4294967296) && acc.wf
  | .hdmWrite hdm off acc => decide (hdm < 2) && decide (off < 2 ^ 64) && acc.wf
  | .cmdRingEnable ring value tail => decide (ring < 256) && decide (value < 4294967296) && decide (tail < 4294967296)
  | .cmdRingDisable ring => decide (ring < 256)
  | .tailSnoop ring => decide (ring < 256)
  | .tailReread ring tail => decide (ring < 256) && decide (tail < 4294967296)
  | .entryFetch ring entries => decide (ring < 256) && entries.all RawEntry.wf
  | .eventRingEnable ring value cons => decide (ring < 256) && decide (value < 4294967296) && decide (cons < 4294967296)
  | .eventRingDisable ring => decide (ring < 256)
  | .consSnoop ring cons => decide (ring < 256) && decide (cons < 4294967296)
  | .heldEventWrite ring => decide (ring < 256)
  | .eventWriteDone ring => decide (ring < 256)
  | .msixDelayExpiry ring => decide (ring < 256)
  | .msixUnmask vector => decide (vector < 2048)
  | .nop h => h.wf
  | .regWrite h addr value => h.wf && decide (addr < 4294967296) && decide (value < 4294967296)
  | .regRead h addr => h.wf && decide (addr < 4294967296)
  | .mpRegRead frame => frame.wf
  | .mpRegWrite frame => frame.wf
  | .mpCommand frame => frame.wf
  | .mpKeySet h slot empty key => h.wf && decide (slot < 256) && decide (empty < 256) && decide (key < 115792089237316195423570985008687907853269984665640564039457584007913129639936)
  | .mgmtCntClear => true
  | .timeIncrWrite value => decide (value < 18446744073709551616)
  | .timeAdjWrite value => decide (value < 18446744073709551616)
  | .slewDone => true
  | .timeStepKey value => decide (value < 4294967296)
  | .timeSet sec ns => decide (sec < 281474976710656) && decide (ns < 1073741824)
  | .declareLock => true
  | .declareLost => true
  | .timeHeartbeat => true
  | .holdWindowExpiry => true
  | .holdoverExpiry => true
  | .parkMaxExpiry => true
  | .timeNowRead _ => true
  | .timeMessageRx rx => rx.wf
  | .syncTx port _ => decide (port < 2048)
  | .sourceSwitch => true
  | .timeTxqEntryRead => true
  | .tpoEnable k => decide (k < 8)
  | .tpoEdge k => decide (k < 8)
  | .tpoPulseEnd k => decide (k < 8)
  | .tpiEdge k _ _ => decide (k < 4)
  | .tpiStuck k => decide (k < 4)
  | .tpiCaptRead k => decide (k < 4)
  | .asymCal h u d => h.wf && decide (u < 4294967296) && decide (d < 4294967296)
  | .calWindowEnd port => decide (port < 512)
  | .calReportRx rx => rx.wf
  | .calReportTimeout port => decide (port < 512)
  | .calStartRx rx => rx.wf
  | .calBurst port _ => decide (port < 512)
  | .packetRx lport header pkt _ => decide (lport < 1024) && header.length == 8 && pkt.wf
  | .packetTail _ _ _ _ _ => true
  | .pipelineLookup n _ => decide (n < 16)
  | .ringFlitEntry quad pair _ stop _ => decide (quad < 8) && decide (pair < 8) && decide (stop < 9)
  | .switchGrant output => decide (output < 10)
  | .bridgeFlitRetry _ output => decide (output < 8)
  | .outputEnqueue _ lport => decide (lport < 1024)
  | .transmitStart lport _ => decide (lport < 1024)
  | .occPublish => true
  | .drizzleRecord quad => decide (quad < 8)
  | .qmLimitWrite tile port cls value => decide (tile < 64) && decide (port < 8) && decide (cls < 8) && decide (value < 4294967296)
  | .policerWrite tile port cls word value => decide (tile < 64) && decide (port < 8) && decide (cls < 8) && decide (word < 4) && decide (value < 4294967296)
  | .drzSeedLoad tile value => decide (tile < 64) && decide (value < 4294967296)
  | .ptCntClear tile seed => decide (tile < 64) && decide (seed < 65536)
  | .lfsrSeedLoad tile value => decide (tile < 64) && decide (value < 4294967296)
  | .qmCntClear tile seed => decide (tile < 64) && decide (seed < 65536)
  | .ringCntClear quad => decide (quad < 8)
  | .leafSet h leaf count _ => h.wf && decide (leaf < 65536) && decide (count < 256)
  | .epgenSet h leaf first count gen => h.wf && decide (leaf < 65536) && decide (first < 256) && decide (count < 256) && decide (gen < 256)
  | .ovrInsert h feid kind gen target => h.wf && decide (feid < 4294967296) && decide (kind < 256) && decide (gen < 256) && decide (target < 65536)
  | .ovrDelete h feid => h.wf && decide (feid < 4294967296)
  | .ovrAge h first => h.wf && decide (first < 4294967296)
  | .grpSet h group kind gen desc base count => h.wf && decide (group < 4294967296) && decide (kind < 256) && decide (gen < 256) && decide (desc < 65536) && decide (base < 4294967296) && decide (count < 4294967296)
  | .grpDelete h group => h.wf && decide (group < 4294967296)
  | .memberLoad h off first count => h.wf && decide (off < 18446744073709551616) && decide (first < 4294967296) && decide (count < 4294967296)
  | .tableLoad h off crc => h.wf && decide (off < 18446744073709551616) && decide (crc < 4294967296)
  | .tableRead h table index => h.wf && decide (table < 256) && decide (index < 4294967296)
  | .cmpWordCompare => true
  | .fwtCntClear n => decide (n < 16)
  | .learnMoveRx lport pkt => decide (lport < 1024) && pkt.wf
  | .learnUnmoveRx lport pkt => decide (lport < 1024) && pkt.wf
  | .learnAckRx lport pkt => decide (lport < 1024) && pkt.wf
  | .linkDataFrameRx lport header _ => decide (lport < 1024) && header.length == 8
  | .ackRx lport header body _ => decide (lport < 1024) && header.length == 8 && body.length == 48
  | .nakRx lport header body _ => decide (lport < 1024) && header.length == 8 && body.length == 48
  | .creditRx lport header body _ => decide (lport < 1024) && header.length == 8 && body.length == 48
  | .helloRx lport header body _ => decide (lport < 1024) && header.length == 8 && body.length == 48
  | .goodbyeRx lport header body _ => decide (lport < 1024) && header.length == 8 && body.length == 48
  | .replayTimeout lport => decide (lport < 1024)
  | .helloTimer lport => decide (lport < 1024)
  | .reedsLocked lport => decide (lport < 1024)
  | .provisionalTimer lport => decide (lport < 1024)
  | .reedsUnlocked lport => decide (lport < 1024)
  | .pcsAligned lport => decide (lport < 1024)
  | .alignTimeout lport => decide (lport < 1024)
  | .helloTimeout lport => decide (lport < 1024)
  | .pcsAlignLoss lport => decide (lport < 1024)
  | .holdDownEnd lport => decide (lport < 1024)
  | .trainingWaitEnd lport => decide (lport < 1024)
  | .dampingDecay lport => decide (lport < 1024)
  | .linkProvision h gen action => h.wf && decide (gen < 256) && decide (action < 256)
  | .sluiceEp h feid action => h.wf && decide (feid < 4294967296) && decide (action < 256)
  | .linkQuery h clear => h.wf && decide (clear < 256)
  | .linkParams h grace thresh retry timeout => h.wf && decide (grace < 65536) && decide (thresh < 65536) && decide (retry < 256) && decide (timeout < 65536)
  | .tideSlotBoundary port _ _ => decide (port < 512)
  | .cwTakeover n => decide (n < 16)
  | .launch port => decide (port < 512)
  | .tideLoad h off => h.wf && decide (off < 18446744073709551616)
  | .tideCancel h => h.wf
  | .tideStop h time => h.wf && decide (time < 18446744073709551616)
  | .launchSet h entry action time period => h.wf && decide (entry < 256) && decide (action < 256) && decide (time < 18446744073709551616) && decide (period < 4294967296)
  | .tideRead h bank entry => h.wf && decide (bank < 256) && decide (entry < 65536)
  | .tideListDisable port => decide (port < 512)
  | .shaperWrite port cls value => decide (port < 512) && decide (cls < 8) && decide (value < 18446744073709551616)
  | .tideCntClear tile => decide (tile < 64)
  | .lineLow m line feed power => decide (m < 8) && decide (line < 16) && decide (feed < 4) && decide (power < 65536)
  | .lineFail m line _ => decide (m < 8) && decide (line < 16)
  | .lineRestore m line _ => decide (m < 8) && decide (line < 16)
  | .feedFault m feed _ => decide (m < 8) && decide (feed < 4)
  | .feedDarkInterlock m feed => decide (m < 8) && decide (feed < 4)
  | .elsRemoval m => decide (m < 8)
  | .elsInsertion m => decide (m < 8)
  | .identityReadDone which _ => decide (which < 24)
  | .laserEnable m => decide (m < 8)
  | .ringIdentityFail port reed _ _ => decide (port < 512) && decide (reed < 4)
  | .relockDone port reed _ _ tone => decide (port < 512) && decide (reed < 4) && decide (tone < 16)
  | .ringSlip port reed _ => decide (port < 512) && decide (reed < 4)
  | .slipEnd port reed _ => decide (port < 512) && decide (reed < 4)
  | .failsReset port reed => decide (port < 512) && decide (reed < 4)
  | .reedLightLoss port reed => decide (port < 512) && decide (reed < 4)
  | .cxPowerPublish power _ => decide (power < 65536)
  | .marginTestStart lport => decide (lport < 1024)
  | .marginStepRx lport header body _ => decide (lport < 1024) && header.length == 8 && body.length == 48
  | .marginDwellEnd lport _ => decide (lport < 1024)
  | .marginReportRx lport header body _ => decide (lport < 1024) && header.length == 8 && body.length == 48
  | .marginDoneRx lport header body _ => decide (lport < 1024) && header.length == 8 && body.length == 48
  | .marginReportTimeout lport => decide (lport < 1024)
  | .marginRetry lport => decide (lport < 1024)
  | .reedRetry h mask => h.wf && decide (mask < 256)
  | .marginRun h mask => h.wf && decide (mask < 256)
  | .idRead h => h.wf
  | .cwLoad h off => h.wf && decide (off < 18446744073709551616)
  | .cwStanding h src dst action => h.wf && decide (src < 256) && decide (dst < 256) && decide (action < 256)
  | .standingBuildDone n => decide (n < 16)
  | .cwCancel h => h.wf
  | .oeCntClear n => decide (n < 16)
  | .cwCntClear n => decide (n < 16)
  | .elsCntClear m => decide (m < 8)
  | .fenOpen lport pkt => decide (lport < 1024) && pkt.wf
  | .collIn lport pkt _ => decide (lport < 1024) && pkt.wf
  | .chunkRelease die group chunk => decide (die < 2) && decide (group < 1048576) && decide (chunk < 4096)
  | .verdict die group chunk _ => decide (die < 2) && decide (group < 1048576) && decide (chunk < 4096)
  | .fenStall die group chunk => decide (die < 2) && decide (group < 1048576) && decide (chunk < 4096)
  | .fenRepeat lport pkt => decide (lport < 1024) && pkt.wf
  | .fenDone lport pkt => decide (lport < 1024) && pkt.wf
  | .hallAdmittedRx lport pkt => decide (lport < 1024) && pkt.wf
  | .hallRefusedRx lport pkt => decide (lport < 1024) && pkt.wf
  | .hallOpenTimeout die group => decide (die < 2) && decide (group < 1048576)
  | .hallReleaseRx lport pkt => decide (lport < 1024) && pkt.wf
  | .hallRecallRx lport pkt => decide (lport < 1024) && pkt.wf
  | .hallRecordRx lport pkt => decide (lport < 1024) && pkt.wf
  | .fenMemError die _ slot beat => decide (die < 2) && decide (slot < 16777216) && decide (beat < 1024)
  | .reducerUe n => decide (n < 34)
  | .fenDescSet h index desc => h.wf && decide (index < 65536) && decide (desc < 115792089237316195423570985008687907853269984665640564039457584007913129639936)
  | .fenDescRead h index word => h.wf && decide (index < 65536) && decide (word < 256)
  | .fenPartSet h part ring tenant sfirst scount tfirst tcount enable => h.wf && decide (part < 256) && decide (ring < 256) && decide (tenant < 65536) && decide (sfirst < 65536) && decide (scount < 65536) && decide (tfirst < 4294967296) && decide (tcount < 4294967296) && decide (enable < 256)
  | .fenPartReset h part => h.wf && decide (part < 256)
  | .fenAbort h group rnd => h.wf && decide (group < 4294967296) && decide (rnd < 65536)
  | .fenQuery h group => h.wf && decide (group < 4294967296)
  | .saltSeedLoad die value => decide (die < 2) && decide (value < 4294967296)
  | .fenCntClear n => decide (n < 34)
  | .fadmCntClear die => decide (die < 2)
  | .tierGrant ch _ reqs _ => decide (ch < 16) && reqs.all TierReq.wf
  | .arbWindow ch => decide (ch < 16)
  | .lockBreak ch => decide (ch < 16)
  | .scrub _ _ => true
  | .tier1Trained mask => decide (mask < 256)
  | .tier2Trained present accepted trained => decide (present < 256) && decide (accepted < 256) && decide (trained < 256)
  | .peatPut lport pkt errs => decide (lport < 1024) && pkt.wf && errs.all (decide <| ·.chan < 16)
  | .peatGet lport pkt errs => decide (lport < 1024) && pkt.wf && errs.all (decide <| ·.chan < 16)
  | .peatGather lport pkt errs => decide (lport < 1024) && pkt.wf && errs.all (decide <| ·.chan < 16)
  | .peatAttend lport pkt errs => decide (lport < 1024) && pkt.wf && errs.all (decide <| ·.chan < 16)
  | .peatPin lport pkt errs => decide (lport < 1024) && pkt.wf && errs.all (decide <| ·.chan < 16)
  | .peatEvict lport pkt errs => decide (lport < 1024) && pkt.wf && errs.all (decide <| ·.chan < 16)
  | .peatPromote lport pkt errs => decide (lport < 1024) && pkt.wf && errs.all (decide <| ·.chan < 16)
  | .peatDemote lport pkt errs => decide (lport < 1024) && pkt.wf && errs.all (decide <| ·.chan < 16)
  | .peatReasmTimeout src msgId gen => decide (src < 4294967296) && decide (msgId < 4294967296) && decide (gen < 256)
  | .autoDemote p => decide (p < 64)
  | .peatPowerInterval want => decide (want < 65537)
  | .peatPartUe chan parts => chan.all (decide <| · < 16) && parts.all (decide <| · < 64)
  | .staleSweepDone p => decide (p < 64)
  | .peatPartSet h part ring tenant group t1First t1Count t2First t2Count dirBase dirLog2 enable => h.wf && decide (part < 256) && decide (ring < 256) && decide (tenant < 65536) && decide (group < 4294967296) && decide (t1First < 4294967296) && decide (t1Count < 4294967296) && decide (t2First < 4294967296) && decide (t2Count < 4294967296) && decide (dirBase < 4294967296) && decide (dirLog2 < 256) && decide (enable < 256)
  | .peatPartReset h part => h.wf && decide (part < 256)
  | .peatLookup h part key => h.wf && decide (part < 256) && decide (key < 79228162514264337593543950336)
  | .peatSnapshot h part off => h.wf && decide (part < 256) && decide (off < 18446744073709551616)
  | .peatUsage h part => h.wf && decide (part < 256)
  | .peatCntClear => true
  | .tierCntClear => true
  | .tierChCntClear ch => decide (ch < 16)
  | .windowOpen fec => fec.all FecCount.wf
  | .windowClose => true
  | .winUsWrite value => decide (value < 4294967296)
  | .windowReconfig fec => fec.all FecCount.wf
  | .telem lport pkt => decide (lport < 1024) && pkt.wf
  | .segmentTimeout kind => decide (1 ≤ kind) && decide (kind < 7)
  | .segmentComplete kind _ => decide (1 ≤ kind) && decide (kind < 7)
  | .delGroupSet h index set rgroup ops flags rawLog2 expect => h.wf && decide (index < 65536) && decide (set < 65536) && decide (rgroup < 4294967296) && decide (ops < 16777216) && decide (flags < 256) && decide (rawLog2 < 256) && decide (expect < 4294967296)
  | .frostArm h t mode => h.wf && decide (t < 18446744073709551616) && decide (mode < 256)
  | .thaw h tt => h.wf && decide (tt < 18446744073709551616)
  | .frostCancel h => h.wf
  | .snapshot h t => h.wf && decide (t < 18446744073709551616)
  | .delSnapRead h off sel => h.wf && decide (off < 4294967296) && decide (sel < 256)
  | .frostInEdge _ _ => true
  | .frostInStuck => true
  | .frostLatch => true
  | .frostOutEnd => true
  | .thawTime => true
  | .autoThaw => true
  | .frostImage => true
  | .traceArm => true
  | .traceTrigger => true
  | .traceMark mark => decide (mark < 340282366920938463463374607431768211456)
  | .traceCaptureEnd => true
  | .delCntClear => true
  | .delFrostCntClear => true
  | .baroEvaluation => true
  | .fenceCommit => true
  | .peerFenceResend dst seq => decide (dst < 256) && decide (seq < 4294967296)
  | .peerFenceRx lport pkt => decide (lport < 1024) && pkt.wf
  | .peerUnfenceRx lport pkt => decide (lport < 1024) && pkt.wf
  | .fenceAckRx lport pkt => decide (lport < 1024) && pkt.wf
  | .shieldEnd obj => decide (obj < 4294967296)
  | .fenceCopyUe => true
  | .fenceAdd h obj key prop group => h.wf && decide (obj < 256) && decide (key < 4294967296) && decide (prop < 256) && decide (group < 4294967296)
  | .fenceClear h obj key prop => h.wf && decide (obj < 256) && decide (key < 4294967296) && decide (prop < 256)
  | .fenceRead h index => h.wf && decide (index < 65536)
  | .holdClear h obj => h.wf && decide (obj < 4294967296)
  | .scoreRead h obj => h.wf && decide (obj < 4294967296)
  | .scoreReset h obj => h.wf && decide (obj < 4294967296)
  | .baroCntClear => true
  | .chkMargin h unit step => h.wf && decide (unit < 65536) && decide (step < 256)
  | .chkReturn h unit => h.wf && decide (unit < 65536)
  | .iftRun h unit => h.wf && decide (unit < 65536)
  | .iftSchedule unit => decide (64 ≤ unit) && decide (unit < 388)
  | .iftWaitExpiry unit => decide (64 ≤ unit) && decide (unit < 388)
  | .iftComplete unit _ => decide (64 ≤ unit) && decide (unit < 388)
  | .handoverDrained n => decide (n < 34)
  | .pendingSubstitution unit => decide (64 ≤ unit) && decide (unit < 388)
  | .macTileUe row col => decide (row < 16) && decide (col < 17)
  | .erganMemError core chan => core.all (fun x => decide (x < 18)) && decide (chan < 16)
  | .degradedTakeover => true
  | .chkCntClear => true
  | .pmcSlotCfgWrite slot value => decide (slot < 64) && decide (value < 18446744073709551616)
  | .tagSeedLoad value => decide (value < 4294967296)
  | .pmcCntClear seed => decide (seed < 65536)
  | .pmcTagCopy h off count => h.wf && decide (off < 18446744073709551616) && decide (count < 4294967296)
  | .mireRead h off maxLen => h.wf && decide (off < 18446744073709551616) && decide (maxLen < 4294967296)
  | .mireRound h => h.wf
  | .mirePeriod => true
  | .mireEdgesRx lport pkt => decide (lport < 1024) && pkt.wf
  | .creditBlockTimer lport cls => decide (lport < 1024) && decide (cls < 8)
  | .fwStage h off len _ => h.wf && decide (off < 18446744073709551616) && decide (len < 4294967296)
  | .fwActivate h time => h.wf && decide (time < 18446744073709551616)
  | .fwTakeover => true
  | .takeoverLate => true
  | .fwCommit h _ => h.wf
  | .fwRollback h time => h.wf && decide (time < 18446744073709551616)
  | .fwChain h off _ => h.wf && decide (off < 18446744073709551616)
  | .chainDataRx lport pkt _ => decide (lport < 1024) && pkt.wf
  | .chainAckRx lport pkt => decide (lport < 1024) && pkt.wf
  | .chainDoneRx lport pkt => decide (lport < 1024) && pkt.wf
  | .chainAbortRx lport pkt => decide (lport < 1024) && pkt.wf
  | .chainResend origin xfer => decide (origin < 4294967296) && decide (xfer < 4294967296)
  | .chainTimeout xfer => decide (xfer < 4294967296)
  | .cfgWrite h off len _ => h.wf && decide (off < 18446744073709551616) && decide (len < 4294967296)
  | .jobReuse h oldGen newGen c1 c2 c3 => h.wf && decide (oldGen < 256) && decide (newGen < 256) && decide (c1 < 4294967296) && decide (c2 < 4294967296) && decide (c3 < 4294967296)
  | .attest h _ off _ => h.wf && decide (off < 18446744073709551616)
  | .unlockChallenge h _ => h.wf
  | .unlock h off len => h.wf && decide (off < 18446744073709551616) && decide (len < 4294967296)
  | .pufRefresh h _ => h.wf
  | .bcastStart h off len group _ _ => h.wf && decide (off < 18446744073709551616) && decide (len < 4294967296) && decide (group < 4294967296)
  | .bcastAbort h group => h.wf && decide (group < 4294967296)
  | .bcastAck lport pkt => decide (lport < 1024) && pkt.wf
  | .bcastBlockDeadline group _ block => decide (group < 1048576) && decide (block < 4096)
  | .bcastRelayRx lport pkt => decide (lport < 1024) && pkt.wf
  | .bcastStallNotice group => decide (group < 1048576)
  | .cfgStartupStage stage => stage.wf
  | .pwrGoodRise => true
  | .pwrGoodFall => true
  | .resetNAssert _ => true
  | .resetNRelease => true
  | .refclkLoss => true
  | .clockRestored => true
  | .sensorRead sample => sample.wf
  | .railMonitor rail voltage current => decide (rail < 10) && decide (voltage < 65536) && decide (current < 65536)
  | .pwrAlertForce => true
  | .pwrCntClear => true
  | .tideListEnable port => decide (port < 512)
  | .calBurstReturn port _ => decide (port < 512)
  | .calLoopEnd port => decide (port < 512)
  | .pdelayReqTx port _ => decide (port < 2048)
  | .announceTx => true
  | .hallAbortRx lport pkt => decide (lport < 1024) && pkt.wf
  | .cxlLinkDown => true
  | .laserLightOn m => decide (m < 8)

end Sys2Proof
end

