-- ==== Sys2Proof/Decode.lean ====
section
/-! DEFINITION. The word decoder of the opcode table. No row of spec/opcode_table.json gives its command any bits (the device takes
register accesses, ring entries, frames, timers and pins, not instruction words), so no word spells a command. -/
namespace Sys2Proof

/-- The command a word of nbits bits spells by the table's bits: none, since the table gives no row any bits. -/
def decodeTableWord (_nbits _w : Nat) : Option Instr := none

end Sys2Proof
end

