-- ==== Sys2Proof/Config.lean ====
section
/-! DEFINITION. What an implementation fixes and the spec leaves open: every constant here has no body, so nothing in Lean can
evaluate it and a claim holds whatever it is. Each is named in the assumption log. -/
namespace Sys2Proof.Config

/-- A free value: the n-th number drawn where the spec states no value. -/
opaque freeNat : Nat → Nat
/-- The n-th session number drawn at random by the security root (R103), before it is kept from being 0. -/
opaque session : Nat → BitVec 32
/-- HMAC-SHA-256 of a message under a key (R102; RFC 2104, FIPS 180-4): 32 bytes. -/
opaque hmac : Nat → List Byte → List Byte
/-- The n-th draw of a Drizzle position generator since its seed was loaded (R276: uniform, the generator not given). -/
opaque drizzle : Nat → Nat → Nat
/-- The n-th draw of the tag generator since its seed was loaded (R751). -/
opaque tagDraw : Nat → Nat → Nat
/-- The n-th SALT drawn since FADM_SALT_SEED loaded its generator (R557: 12 bits, the generator not given). -/
opaque salt : Nat → Nat → Nat
/-- The code EXP gives a negative x by the code of |x|, before it is kept within R505's bounds and falling. -/
opaque expLow : Nat → Nat
/-- The code EXP gives a positive x by its code, before it is kept within R505's bounds and rising. -/
opaque expHigh : Nat → Nat
/-- The bits of a hardware location code that R37 does not state for a part it does not list: by block type and instance. -/
opaque locOpen : Nat → Nat
/-- The role whose key signed the given bytes with the given HSS signature, if it verifies under Nerxon's root key (R774, R775; RFC 8554). -/
opaque hssRole : List Byte → List Byte → Option Nat
/-- Does a signed object's GCM tag verify under the hardware-type key (R776)? -/
opaque gcmGood : List Byte → Bool
/-- SHA-256 (FIPS 180-4) of some bytes. -/
opaque sha256 : List Byte → List Byte
/-- The attestation signature of a report under an index (R786). -/
opaque attSign : Nat → List Byte → List Byte
/-- UNIT_ID (R770). -/
opaque unitId : Nat
/-- The top-level public key of the unit's attestation key (R786). -/
opaque attPub : Nat
/-- The SHA-256 of an object that the board flash holds since before the device's own writes: slots 0 and 1, and the site record as 2. -/
opaque boardHash : Nat → List Byte
/-- Which of the status words that a tenant window mirrors stands at an offset of its first page (R78 gives no layout), counted from 0. -/
opaque mirrorOf : Nat → Nat
/-- PAGE_STATUS.BLOCK of a page, for which no chapter gives a value. -/
opaque pageBlock : Nat → Nat
/-- The SET_VER that the image of a VERSION writes, and whether it knows another (R791, R792). -/
opaque setVer : Nat → Nat
opaque knowsSet : Nat → Nat → Bool
/-- The flits that a switch input's queue for one output and class holds beside the 17 of a longest packet (R357 gives no depth). -/
opaque switchSpare : Nat
/-- What the vendor service window holds at an address, which the spec does not describe. -/
opaque vendorWord : Nat → Nat
/-- What a flash slot holds after a write that failed. -/
opaque flashBad : Nat → List Byte
end Sys2Proof.Config
end

