-- ==== Sys2Proof/Machine/Bits.lean ====
section
/-! DEFINITION. Bit fields, byte order, sparse tables: the helpers every block uses. -/
namespace Sys2Proof

/-- Bits [hi:lo] of a number (R8). -/
def bits (hi lo n : Nat) : Nat := (n >>> lo) % 2 ^ (hi - lo + 1)

/-- Bit k of a number. -/
def bit (k n : Nat) : Bool := n.testBit k

/-- n with bits [hi:lo] replaced by v (R8). -/
def withBits (hi lo v n : Nat) : Nat :=
  n % 2 ^ lo + (v % 2 ^ (hi - lo + 1)) * 2 ^ lo + (n >>> (hi + 1)) * 2 ^ (hi + 1)

/-- 0 or 1. -/
def b2n (b : Bool) : Nat := if b then 1 else 0

/-- The low n bytes of v, least significant first (R9: registers and ring structures). -/
def leBytes : Nat → Nat → List Byte
  | 0, _ => []
  | n + 1, v => BitVec.ofNat 8 v :: leBytes n (v / 256)

/-- The low n bytes of v, most significant first (R9: packets and structures on the fabric). -/
def beBytes (n v : Nat) : List Byte := (leBytes n v).reverse

/-- The number spelt by bytes, least significant first. -/
def leNat : List Byte → Nat
  | [] => 0
  | b :: bs => b.toNat + 256 * leNat bs

/-- The number spelt by bytes, most significant first. -/
def beNat (bs : List Byte) : Nat := bs.foldl (fun a b => a * 256 + b.toNat) 0

/-- Bytes i to i + n - 1 of a structure; bytes past its end read as zero. -/
def slice (i n : Nat) (bs : List Byte) : List Byte :=
  let t := (bs.drop i).take n
  t ++ List.replicate (n - t.length) 0

/-- The little-endian number in bytes i to i + n - 1. -/
def leAt (i n : Nat) (bs : List Byte) : Nat := leNat (slice i n bs)

/-- The big-endian number in bytes i to i + n - 1. -/
def beAt (i n : Nat) (bs : List Byte) : Nat := beNat (slice i n bs)

/-- Are the bytes all zero? -/
def allZero (bs : List Byte) : Bool := bs.all (· == 0)

/-- ⌈a / b⌉. -/
def ceilDiv (a b : Nat) : Nat := (a + b - 1) / b

/-- The number of bits set in the low n bits of v. -/
def popCount : Nat → Nat → Nat
  | 0, _ => 0
  | n + 1, v => v % 2 + popCount n (v / 2)

/-- The bit numbers below n that are set in v, rising. -/
def bitList (n v : Nat) : List Nat := (List.range n).filter (v.testBit ·)

/-- The number whose set bits are listed. -/
def bitsOf (l : List Nat) : Nat := l.foldl (fun a k => if a.testBit k then a else a + 2 ^ k) 0

/-- n / d rounded to the nearest integer, ties to even. -/
def roundDivEven (n : Int) (d : Nat) : Int :=
  let q := n / (d : Int)
  let r := n % (d : Int)
  if 2 * r < d then q else if (d : Int) < 2 * r then q + 1 else if q % 2 = 0 then q else q + 1

/-- floor(log2 n), 0 for 0 and 1. -/
def log2 (n : Nat) : Nat := Nat.log2 n

/-- Two's complement reading of the low w bits of v. -/
def toSigned (w v : Nat) : Int := if v.testBit (w - 1) then (v % 2 ^ w : Nat) - (2 ^ w : Nat) else (v % 2 ^ w : Nat)

/-- Two's complement spelling of z in w bits. -/
def ofSigned (w : Nat) (z : Int) : Nat := (z % (2 ^ w : Nat)).toNat

/-- The value at key k, if listed. -/
def Tbl.find {α : Type} : Tbl α → Nat → Option α
  | [], _ => none
  | (j, v) :: t, k => if j = k then some v else if k < j then none else Tbl.find t k

/-- The value at key k, d where nothing is listed. -/
def Tbl.getD {α : Type} (t : Tbl α) (d : α) (k : Nat) : α := (Tbl.find t k).getD d

/-- Lists v at key k, keeping the keys strictly rising. -/
def Tbl.put {α : Type} : Tbl α → Nat → α → Tbl α
  | [], k, v => [(k, v)]
  | (j, w) :: t, k, v => if j = k then (k, v) :: t else if k < j then (k, v) :: (j, w) :: t else (j, w) :: Tbl.put t k v

/-- Removes key k. -/
def Tbl.del {α : Type} : Tbl α → Nat → Tbl α
  | [], _ => []
  | (j, w) :: t, k => if j = k then t else if k < j then (j, w) :: t else (j, w) :: Tbl.del t k

/-- Sets key k to v, where an unlisted key reads as d: the value d removes the entry, so equal tables are equal data. -/
def Tbl.set {α : Type} [DecidableEq α] (t : Tbl α) (d : α) (k : Nat) (v : α) : Tbl α :=
  if v = d then Tbl.del t k else Tbl.put t k v

/-- Changes the value at key k by f, where an unlisted key reads as d. -/
def Tbl.upd {α : Type} [DecidableEq α] (t : Tbl α) (d : α) (k : Nat) (f : α → α) : Tbl α :=
  Tbl.set t d k (f (Tbl.getD t d k))

/-- The first element that satisfies p, and the list without it. -/
def takeFirst {α : Type} (p : α → Bool) : List α → Option (α × List α)
  | [] => none
  | x :: xs => if p x then some (x, xs) else (takeFirst p xs).map fun (y, ys) => (y, x :: ys)

/-- The list with element i changed by f; a list shorter than i + 1 is unchanged. -/
def modifyAt {α : Type} (i : Nat) (f : α → α) (l : List α) : List α := l.modify i f

/-- Folds f over the numbers below n, rising. -/
def forRange {σ : Type} (n : Nat) (f : Nat → σ → σ) (s : σ) : σ := (List.range n).foldl (fun a i => f i a) s

/-- The shift-register step of R261: 16 bits, Fibonacci form, taps 16, 14, 13 and 11, shifting right. -/
def lfsr16Next (l : Nat) : Nat :=
  let b := (b2n (bit 0 l) + b2n (bit 2 l) + b2n (bit 3 l) + b2n (bit 5 l)) % 2
  (l / 2 + b * 32768) % 65536

/-- One byte of a reflected CRC with polynomial poly, bit by bit. -/
def crcByteRefl (poly : Nat) (c : Nat) (b : Byte) : Nat :=
  (List.range 8).foldl (fun c _ => if c % 2 = 1 then (c / 2) ^^^ poly else c / 2) (c ^^^ b.toNat)

/-- CRC-32C (reflected polynomial 0x82F6_3B78, initial value and final complement all ones), as R195 names it. -/
def crc32c (bs : List Byte) : Nat := (bs.foldl (crcByteRefl 0x82F63B78) 0xFFFFFFFF) ^^^ 0xFFFFFFFF

/-- One byte of an unreflected CRC-16 with polynomial poly. -/
def crcByte16 (poly : Nat) (c : Nat) (b : Byte) : Nat :=
  (List.range 8).foldl (fun c _ => if c ≥ 32768 then ((c * 2) % 65536) ^^^ poly else (c * 2) % 65536) (c ^^^ (b.toNat * 256))

/-- The CRC of a link header (R325): polynomial 0x1021, initial value 0xFFFF, no reflection, no final XOR. -/
def lhcrc (bs : List Byte) : Nat := bs.foldl (crcByte16 0x1021) 0xFFFF

end Sys2Proof
end

