-- ==== Sys2Proof/Machine/RegMap.lean ====
section
/-! DEFINITION. The address of every register and counter, and the place of every field, under the names the spec gives them. -/
namespace Sys2Proof

/-- Bits [hi:lo] of a register. -/
structure Fld where
  hi : Nat
  lo : Nat
  deriving DecidableEq, Repr

/-- The BAR0 address of page instance n of block type typ (R73). -/
def pageAddr (typ n : Nat) : Nat := 0x100000 * typ + 0x1000 * n

/-- MGMT_CTRL (R107). -/
def Reg.MGMT_CTRL : Nat := 0x00100100
@[inline] def Fld.MGMT_CTRL_CNT_CLEAR : Fld := ⟨0, 0⟩
/-- MGMT_STATUS (R106). -/
def Reg.MGMT_STATUS : Nat := 0x00100104
@[inline] def Fld.MGMT_STATUS_ACTIVE_HALF : Fld := ⟨31, 31⟩
@[inline] def Fld.MGMT_STATUS_STANDBY_READY : Fld := ⟨30, 30⟩
@[inline] def Fld.MGMT_STATUS_SERVICES_UP : Fld := ⟨29, 29⟩
@[inline] def Fld.MGMT_STATUS_CORES_B : Fld := ⟨17, 9⟩
@[inline] def Fld.MGMT_STATUS_CORES_A : Fld := ⟨8, 0⟩
/-- MGMT_MP_CFG (R103). -/
def Reg.MGMT_MP_CFG : Nat := 0x00100108
@[inline] def Fld.MGMT_MP_CFG_ENABLE : Fld := ⟨31, 31⟩
@[inline] def Fld.MGMT_MP_CFG_EVENT_EN : Fld := ⟨30, 30⟩
@[inline] def Fld.MGMT_MP_CFG_KEY_SLOT : Fld := ⟨29, 28⟩
@[inline] def Fld.MGMT_MP_CFG_EVENT_RING : Fld := ⟨23, 16⟩
/-- MGMT_MP_SESSION (R103). -/
def Reg.MGMT_MP_SESSION : Nat := 0x0010010C
@[inline] def Fld.MGMT_MP_SESSION_SESSION : Fld := ⟨31, 0⟩
/-- MGMT_MP_MAC (R102). -/
def Reg.MGMT_MP_MAC : Nat := 0x00100110
@[inline] def Fld.MGMT_MP_MAC_MAC : Fld := ⟨47, 0⟩
/-- MGMT_MP_DEST (R105). -/
def Reg.MGMT_MP_DEST : Nat := 0x00100118
@[inline] def Fld.MGMT_MP_DEST_DEST : Fld := ⟨47, 0⟩
/-- MGMT_MP_KEYS (R106). -/
def Reg.MGMT_MP_KEYS : Nat := 0x00100120
@[inline] def Fld.MGMT_MP_KEYS_VALID : Fld := ⟨3, 0⟩
/-- Counter MP_ACCEPTED (R107). -/
def Cnt.MGMT_MP_ACCEPTED : Nat := 0x00100200
/-- Counter MP_ANSWERS (R107). -/
def Cnt.MGMT_MP_ANSWERS : Nat := 0x00100200 + 8
/-- Counter MP_EVENTS (R107). -/
def Cnt.MGMT_MP_EVENTS : Nat := 0x00100200 + 16
/-- Counter MP_BAD_FRAME (R107). -/
def Cnt.MGMT_MP_BAD_FRAME : Nat := 0x00100200 + 24
/-- Counter MP_AUTH_FAIL (R107). -/
def Cnt.MGMT_MP_AUTH_FAIL : Nat := 0x00100200 + 32
/-- Counter MP_REPLAY (R107). -/
def Cnt.MGMT_MP_REPLAY : Nat := 0x00100200 + 40
/-- HOST_LINK_STATUS (R50). -/
def Reg.HOST_LINK_STATUS : Nat := 0x00200100
@[inline] def Fld.HOST_LINK_STATUS_SWITCHED : Fld := ⟨11, 11⟩
@[inline] def Fld.HOST_LINK_STATUS_MEM_EN : Fld := ⟨10, 10⟩
@[inline] def Fld.HOST_LINK_STATUS_CACHE_EN : Fld := ⟨9, 9⟩
@[inline] def Fld.HOST_LINK_STATUS_UP : Fld := ⟨8, 8⟩
@[inline] def Fld.HOST_LINK_STATUS_SPEED : Fld := ⟨7, 5⟩
@[inline] def Fld.HOST_LINK_STATUS_WIDTH : Fld := ⟨4, 0⟩
/-- HOST_RESET (R74). -/
def Reg.HOST_RESET : Nat := 0x00200104
@[inline] def Fld.HOST_RESET_KEY : Fld := ⟨31, 0⟩
/-- HOST_UNMAPPED_CNT (R54). -/
def Reg.HOST_UNMAPPED_CNT : Nat := 0x00200108
@[inline] def Fld.HOST_UNMAPPED_CNT_COUNT : Fld := ⟨31, 0⟩
/-- HOST_HDM_WR_DROP (R58). -/
def Reg.HOST_HDM_WR_DROP : Nat := 0x0020010C
@[inline] def Fld.HOST_HDM_WR_DROP_COUNT : Fld := ⟨31, 0⟩
/-- HOST_TW_BIND (R78). -/
def Reg.HOST_TW_BIND (j : Nat) : Nat := 0x00200200 + 0x4 * j
@[inline] def Fld.HOST_TW_BIND_ENABLE : Fld := ⟨31, 31⟩
@[inline] def Fld.HOST_TW_BIND_TENANT : Fld := ⟨15, 0⟩
/-- HOST_CR_BASE (R83). -/
def Reg.HOST_CR_BASE (i j : Nat) : Nat := 0x00200100 + 4096 * i + 0x20 * j
@[inline] def Fld.HOST_CR_BASE_ADDR : Fld := ⟨63, 12⟩
/-- HOST_CR_TAIL_ADDR (R83). -/
def Reg.HOST_CR_TAIL_ADDR (i j : Nat) : Nat := 0x00200108 + 4096 * i + 0x20 * j
@[inline] def Fld.HOST_CR_TAIL_ADDR_ADDR : Fld := ⟨63, 6⟩
/-- HOST_CR_CFG (R83). -/
def Reg.HOST_CR_CFG (i j : Nat) : Nat := 0x00200110 + 4096 * i + 0x20 * j
@[inline] def Fld.HOST_CR_CFG_ENABLE : Fld := ⟨31, 31⟩
@[inline] def Fld.HOST_CR_CFG_EVENT_RING : Fld := ⟨23, 16⟩
@[inline] def Fld.HOST_CR_CFG_OPERATOR : Fld := ⟨15, 15⟩
@[inline] def Fld.HOST_CR_CFG_TENANT_WIN : Fld := ⟨13, 8⟩
@[inline] def Fld.HOST_CR_CFG_LOG2_SIZE : Fld := ⟨4, 0⟩
/-- HOST_CR_STATUS (R88). -/
def Reg.HOST_CR_STATUS (i j : Nat) : Nat := 0x00200114 + 4096 * i + 0x20 * j
@[inline] def Fld.HOST_CR_STATUS_STATE : Fld := ⟨31, 30⟩
@[inline] def Fld.HOST_CR_STATUS_ERROR : Fld := ⟨15, 0⟩
/-- HOST_CR_HEAD (R83). -/
def Reg.HOST_CR_HEAD (i j : Nat) : Nat := 0x00200118 + 4096 * i + 0x20 * j
@[inline] def Fld.HOST_CR_HEAD_COUNT : Fld := ⟨31, 0⟩
/-- HOST_ER_BASE (R97). -/
def Reg.HOST_ER_BASE (i j : Nat) : Nat := 0x00200100 + 4096 * i + 0x20 * j
@[inline] def Fld.HOST_ER_BASE_ADDR : Fld := ⟨63, 12⟩
/-- HOST_ER_CONS_ADDR (R96). -/
def Reg.HOST_ER_CONS_ADDR (i j : Nat) : Nat := 0x00200108 + 4096 * i + 0x20 * j
@[inline] def Fld.HOST_ER_CONS_ADDR_ADDR : Fld := ⟨63, 6⟩
/-- HOST_ER_CFG (R89). -/
def Reg.HOST_ER_CFG (i j : Nat) : Nat := 0x00200110 + 4096 * i + 0x20 * j
@[inline] def Fld.HOST_ER_CFG_ENABLE : Fld := ⟨31, 31⟩
@[inline] def Fld.HOST_ER_CFG_VECTOR : Fld := ⟨26, 16⟩
@[inline] def Fld.HOST_ER_CFG_OPERATOR : Fld := ⟨15, 15⟩
@[inline] def Fld.HOST_ER_CFG_TENANT_WIN : Fld := ⟨13, 8⟩
@[inline] def Fld.HOST_ER_CFG_LOG2_SIZE : Fld := ⟨4, 0⟩
/-- HOST_ER_MOD (R100). -/
def Reg.HOST_ER_MOD (i j : Nat) : Nat := 0x00200114 + 4096 * i + 0x20 * j
@[inline] def Fld.HOST_ER_MOD_DELAY : Fld := ⟨31, 16⟩
@[inline] def Fld.HOST_ER_MOD_COUNT : Fld := ⟨15, 0⟩
/-- HOST_ER_PROD (R97). -/
def Reg.HOST_ER_PROD (i j : Nat) : Nat := 0x00200118 + 4096 * i + 0x20 * j
@[inline] def Fld.HOST_ER_PROD_COUNT : Fld := ⟨31, 0⟩
/-- HOST_ER_STATUS (R98). -/
def Reg.HOST_ER_STATUS (i j : Nat) : Nat := 0x0020011C + 4096 * i + 0x20 * j
@[inline] def Fld.HOST_ER_STATUS_OVERFLOWED : Fld := ⟨31, 31⟩
@[inline] def Fld.HOST_ER_STATUS_DROPPED : Fld := ⟨15, 0⟩
/-- MSIX_ADDR (R101). -/
def Reg.MSIX_ADDR (i j : Nat) : Nat := 0x00200000 + 4096 * i + 0x10 * j
@[inline] def Fld.MSIX_ADDR_ADDR : Fld := ⟨63, 0⟩
/-- MSIX_DATA (R101). -/
def Reg.MSIX_DATA (i j : Nat) : Nat := 0x00200008 + 4096 * i + 0x10 * j
@[inline] def Fld.MSIX_DATA_DATA : Fld := ⟨31, 0⟩
/-- MSIX_CTRL (R101). -/
def Reg.MSIX_CTRL (i j : Nat) : Nat := 0x0020000C + 4096 * i + 0x10 * j
@[inline] def Fld.MSIX_CTRL_MASK : Fld := ⟨0, 0⟩
/-- MSIX_PENDING (R101). -/
def Reg.MSIX_PENDING (j : Nat) : Nat := 0x00218000 + 0x4 * j
@[inline] def Fld.MSIX_PENDING_PENDING : Fld := ⟨31, 0⟩
/-- TIME_CTRL (R125). -/
def Reg.TIME_CTRL : Nat := 0x00300100
@[inline] def Fld.TIME_CTRL_DECLARE_LOCK : Fld := ⟨2, 2⟩
@[inline] def Fld.TIME_CTRL_DECLARE_LOST : Fld := ⟨1, 1⟩
@[inline] def Fld.TIME_CTRL_HOLDOVER_EN : Fld := ⟨0, 0⟩
/-- TIME_STATUS (R125). -/
def Reg.TIME_STATUS : Nat := 0x00300104
@[inline] def Fld.TIME_STATUS_EPOCH : Fld := ⟨15, 8⟩
@[inline] def Fld.TIME_STATUS_SLEWING : Fld := ⟨7, 7⟩
@[inline] def Fld.TIME_STATUS_ADJ_PENDING : Fld := ⟨6, 6⟩
@[inline] def Fld.TIME_STATUS_INCR_REFUSED : Fld := ⟨5, 5⟩
@[inline] def Fld.TIME_STATUS_ADJ_REFUSED : Fld := ⟨4, 4⟩
@[inline] def Fld.TIME_STATUS_STATE : Fld := ⟨2, 0⟩
/-- TIME_MSG_DROP (R146). -/
def Reg.TIME_MSG_DROP : Nat := 0x00300108
@[inline] def Fld.TIME_MSG_DROP_COUNT : Fld := ⟨31, 0⟩
/-- TIME_NOW (R109). -/
def Reg.TIME_NOW : Nat := 0x00300110
@[inline] def Fld.TIME_NOW_SECONDS : Fld := ⟨111, 64⟩
@[inline] def Fld.TIME_NOW_NANOSECONDS : Fld := ⟨61, 32⟩
@[inline] def Fld.TIME_NOW_FRACTION : Fld := ⟨31, 0⟩
/-- TIME_INCR (R115). -/
def Reg.TIME_INCR : Nat := 0x00300120
@[inline] def Fld.TIME_INCR_NS : Fld := ⟨35, 32⟩
@[inline] def Fld.TIME_INCR_FRAC : Fld := ⟨31, 0⟩
/-- TIME_ADJ (R118). -/
def Reg.TIME_ADJ : Nat := 0x00300128
@[inline] def Fld.TIME_ADJ_OFFSET_NS : Fld := ⟨63, 16⟩
@[inline] def Fld.TIME_ADJ_OFFSET_FRAC : Fld := ⟨15, 0⟩
/-- TIME_SLEW (R118). -/
def Reg.TIME_SLEW : Nat := 0x00300130
@[inline] def Fld.TIME_SLEW_RATE : Fld := ⟨31, 0⟩
/-- TIME_JUMP_LIMIT (R118). -/
def Reg.TIME_JUMP_LIMIT : Nat := 0x00300134
@[inline] def Fld.TIME_JUMP_LIMIT_LIMIT : Fld := ⟨31, 0⟩
/-- TIME_STEP_KEY (R121). -/
def Reg.TIME_STEP_KEY : Nat := 0x00300138
@[inline] def Fld.TIME_STEP_KEY_KEY : Fld := ⟨31, 0⟩
/-- TIME_HEARTBEAT (R126). -/
def Reg.TIME_HEARTBEAT : Nat := 0x0030013C
@[inline] def Fld.TIME_HEARTBEAT_BEAT : Fld := ⟨31, 0⟩
/-- TIME_HOLD_WIN (R125). -/
def Reg.TIME_HOLD_WIN : Nat := 0x00300140
@[inline] def Fld.TIME_HOLD_WIN_US : Fld := ⟨31, 0⟩
/-- TIME_HOLDOVER_MAX (R125). -/
def Reg.TIME_HOLDOVER_MAX : Nat := 0x00300144
@[inline] def Fld.TIME_HOLDOVER_MAX_US : Fld := ⟨31, 0⟩
/-- TIME_PARK_MAX (R129). -/
def Reg.TIME_PARK_MAX : Nat := 0x00300148
@[inline] def Fld.TIME_PARK_MAX_TICKS : Fld := ⟨31, 0⟩
/-- TIME_RESUME_GAP (R132). -/
def Reg.TIME_RESUME_GAP : Nat := 0x0030014C
@[inline] def Fld.TIME_RESUME_GAP_US : Fld := ⟨31, 0⟩
/-- TIME_RESUME_TIME (R132). -/
def Reg.TIME_RESUME_TIME : Nat := 0x00300150
@[inline] def Fld.TIME_RESUME_TIME_TIME : Fld := ⟨63, 0⟩
/-- TIME_ROLE (R150). -/
def Reg.TIME_ROLE : Nat := 0x00300158
@[inline] def Fld.TIME_ROLE_DOMAIN : Fld := ⟨23, 16⟩
@[inline] def Fld.TIME_ROLE_LOG_SYNC : Fld := ⟨15, 12⟩
@[inline] def Fld.TIME_ROLE_LOG_PDELAY : Fld := ⟨11, 8⟩
@[inline] def Fld.TIME_ROLE_FABRIC_ROLE : Fld := ⟨5, 4⟩
@[inline] def Fld.TIME_ROLE_MGMT_DELAY : Fld := ⟨3, 2⟩
@[inline] def Fld.TIME_ROLE_REF : Fld := ⟨1, 0⟩
/-- TIME_SRC_PORT (R153). -/
def Reg.TIME_SRC_PORT : Nat := 0x00300160
@[inline] def Fld.TIME_SRC_PORT_ACTIVE : Fld := ⟨49, 48⟩
@[inline] def Fld.TIME_SRC_PORT_SRC3 : Fld := ⟨47, 36⟩
@[inline] def Fld.TIME_SRC_PORT_SRC2 : Fld := ⟨35, 24⟩
@[inline] def Fld.TIME_SRC_PORT_SRC1 : Fld := ⟨23, 12⟩
@[inline] def Fld.TIME_SRC_PORT_SRC0 : Fld := ⟨11, 0⟩
/-- TIME_TXQ_STATUS (R141). -/
def Reg.TIME_TXQ_STATUS : Nat := 0x00300168
@[inline] def Fld.TIME_TXQ_STATUS_OVERFLOW : Fld := ⟨31, 31⟩
@[inline] def Fld.TIME_TXQ_STATUS_DEPTH : Fld := ⟨22, 16⟩
@[inline] def Fld.TIME_TXQ_STATUS_LOST : Fld := ⟨15, 0⟩
/-- TIME_TXQ_ENTRY (R140). -/
def Reg.TIME_TXQ_ENTRY : Nat := 0x00300170
@[inline] def Fld.TIME_TXQ_ENTRY_ID : Fld := ⟨127, 112⟩
@[inline] def Fld.TIME_TXQ_ENTRY_VALID : Fld := ⟨111, 111⟩
@[inline] def Fld.TIME_TXQ_ENTRY_PORT : Fld := ⟨106, 96⟩
@[inline] def Fld.TIME_TXQ_ENTRY_STAMP : Fld := ⟨79, 0⟩
/-- TIME_SET (R123). -/
def Reg.TIME_SET : Nat := 0x00300180
@[inline] def Fld.TIME_SET_SECONDS : Fld := ⟨111, 64⟩
@[inline] def Fld.TIME_SET_NANOSECONDS : Fld := ⟨61, 32⟩
@[inline] def Fld.TIME_SET_FRACTION : Fld := ⟨31, 0⟩
/-- TPO_CTRL (R164). -/
def Reg.TPO_CTRL (j : Nat) : Nat := 0x00301100 + 0x20 * j
@[inline] def Fld.TPO_CTRL_ENABLE : Fld := ⟨31, 31⟩
@[inline] def Fld.TPO_CTRL_PERIODIC : Fld := ⟨30, 30⟩
@[inline] def Fld.TPO_CTRL_SQUELCH_ON_LOST : Fld := ⟨29, 29⟩
@[inline] def Fld.TPO_CTRL_POLARITY : Fld := ⟨28, 28⟩
@[inline] def Fld.TPO_CTRL_REFUSED : Fld := ⟨27, 27⟩
@[inline] def Fld.TPO_CTRL_FINE : Fld := ⟨4, 0⟩
/-- TPO_START (R162). -/
def Reg.TPO_START (j : Nat) : Nat := 0x00301108 + 0x20 * j
@[inline] def Fld.TPO_START_TIME : Fld := ⟨63, 0⟩
/-- TPO_PERIOD (R162). -/
def Reg.TPO_PERIOD (j : Nat) : Nat := 0x00301110 + 0x20 * j
@[inline] def Fld.TPO_PERIOD_NS : Fld := ⟨31, 0⟩
/-- TPO_WIDTH (R163). -/
def Reg.TPO_WIDTH (j : Nat) : Nat := 0x00301114 + 0x20 * j
@[inline] def Fld.TPO_WIDTH_TICKS : Fld := ⟨15, 0⟩
/-- TPI_CTRL (R168). -/
def Reg.TPI_CTRL (j : Nat) : Nat := 0x00302100 + 0x20 * j
@[inline] def Fld.TPI_CTRL_ENABLE : Fld := ⟨31, 31⟩
@[inline] def Fld.TPI_CTRL_POLARITY : Fld := ⟨30, 30⟩
@[inline] def Fld.TPI_CTRL_CABLE_DELAY : Fld := ⟨23, 0⟩
/-- TPI_STATUS (R170). -/
def Reg.TPI_STATUS (j : Nat) : Nat := 0x00302104 + 0x20 * j
@[inline] def Fld.TPI_STATUS_STUCK : Fld := ⟨31, 31⟩
@[inline] def Fld.TPI_STATUS_CAPTURED : Fld := ⟨30, 30⟩
@[inline] def Fld.TPI_STATUS_IGNORED : Fld := ⟨15, 0⟩
/-- TPI_CAPT (R171). -/
def Reg.TPI_CAPT (j : Nat) : Nat := 0x00302108 + 0x20 * j
@[inline] def Fld.TPI_CAPT_STAMP : Fld := ⟨79, 0⟩
/-- PT_CTRL (R276). -/
def Reg.PT_CTRL (i : Nat) : Nat := 0x00400100 + 4096 * i
@[inline] def Fld.PT_CTRL_CNT_CLEAR : Fld := ⟨16, 16⟩
@[inline] def Fld.PT_CTRL_DRZ_SEED : Fld := ⟨15, 0⟩
/-- PT_STATUS (R341). -/
def Reg.PT_STATUS (i : Nat) : Nat := 0x00400104 + 4096 * i
@[inline] def Fld.PT_STATUS_PORT_UP : Fld := ⟨7, 0⟩
/-- PT_PORT_CFG (R265). -/
def Reg.PT_PORT_CFG (i j : Nat) : Nat := 0x00400110 + 4096 * i + 0x4 * j
@[inline] def Fld.PT_PORT_CFG_ROLE : Fld := ⟨31, 30⟩
@[inline] def Fld.PT_PORT_CFG_SPLIT : Fld := ⟨29, 29⟩
@[inline] def Fld.PT_PORT_CFG_CT_EN : Fld := ⟨28, 28⟩
@[inline] def Fld.PT_PORT_CFG_SPRAY_MODE : Fld := ⟨27, 26⟩
@[inline] def Fld.PT_PORT_CFG_DRAIN : Fld := ⟨25, 25⟩
/-- PT_PORT_STATUS (R341). -/
def Reg.PT_PORT_STATUS (i j : Nat) : Nat := 0x00400130 + 4096 * i + 0x4 * j
@[inline] def Fld.PT_PORT_STATUS_LIVE_REEDS : Fld := ⟨11, 8⟩
@[inline] def Fld.PT_PORT_STATUS_UP : Fld := ⟨7, 7⟩
@[inline] def Fld.PT_PORT_STATUS_SPRAY_LIVE : Fld := ⟨6, 6⟩
@[inline] def Fld.PT_PORT_STATUS_SLUICE : Fld := ⟨5, 5⟩
@[inline] def Fld.PT_PORT_STATUS_HOLD_DOWN : Fld := ⟨4, 4⟩
/-- PT_DRZ_CFG (R276). -/
def Reg.PT_DRZ_CFG (i j : Nat) : Nat := 0x00400150 + 4096 * i + 0x4 * j
@[inline] def Fld.PT_DRZ_CFG_RX_EN : Fld := ⟨31, 31⟩
@[inline] def Fld.PT_DRZ_CFG_TX_EN : Fld := ⟨30, 30⟩
@[inline] def Fld.PT_DRZ_CFG_LOG2_N : Fld := ⟨20, 16⟩
@[inline] def Fld.PT_DRZ_CFG_CLASS_MASK : Fld := ⟨7, 0⟩
/-- PT_POL_CIR (R231). -/
def Reg.PT_POL_CIR (i j c : Nat) : Nat := 0x00400200 + 4096 * i + 0x80 * j + 0x10 * c
@[inline] def Fld.PT_POL_CIR_ENABLE : Fld := ⟨31, 31⟩
@[inline] def Fld.PT_POL_CIR_AWARE : Fld := ⟨30, 30⟩
@[inline] def Fld.PT_POL_CIR_RED_DROP : Fld := ⟨29, 29⟩
@[inline] def Fld.PT_POL_CIR_CIR : Fld := ⟨19, 0⟩
/-- PT_POL_PIR (R230). -/
def Reg.PT_POL_PIR (i j c : Nat) : Nat := 0x00400204 + 4096 * i + 0x80 * j + 0x10 * c
@[inline] def Fld.PT_POL_PIR_PIR : Fld := ⟨19, 0⟩
/-- PT_POL_CBS (R230). -/
def Reg.PT_POL_CBS (i j c : Nat) : Nat := 0x00400208 + 4096 * i + 0x80 * j + 0x10 * c
@[inline] def Fld.PT_POL_CBS_CBS : Fld := ⟨23, 0⟩
/-- PT_POL_PBS (R230). -/
def Reg.PT_POL_PBS (i j c : Nat) : Nat := 0x0040020C + 4096 * i + 0x80 * j + 0x10 * c
@[inline] def Fld.PT_POL_PBS_PBS : Fld := ⟨23, 0⟩
/-- PT_TS_CFG (R174). -/
def Reg.PT_TS_CFG (i j : Nat) : Nat := 0x00400C00 + 4096 * i + 0x10 * j
@[inline] def Fld.PT_TS_CFG_STAMP_REED : Fld := ⟨7, 4⟩
@[inline] def Fld.PT_TS_CFG_ONE_STEP : Fld := ⟨3, 3⟩
@[inline] def Fld.PT_TS_CFG_PDELAY : Fld := ⟨2, 2⟩
@[inline] def Fld.PT_TS_CFG_SYNC_OUT : Fld := ⟨1, 1⟩
@[inline] def Fld.PT_TS_CFG_TIME_EN : Fld := ⟨0, 0⟩
/-- PT_TS_ASYM (R174). -/
def Reg.PT_TS_ASYM (i j : Nat) : Nat := 0x00400C04 + 4096 * i + 0x10 * j
@[inline] def Fld.PT_TS_ASYM_ASYM : Fld := ⟨31, 0⟩
/-- Counter HEADER_CRC (R283). -/
def Cnt.PT_HEADER_CRC (i j : Nat) : Nat := 0x00400600 + 4096 * i + 0xA8 * j
/-- Counter BAD_VERSION (R283). -/
def Cnt.PT_BAD_VERSION (i j : Nat) : Nat := 0x00400600 + 4096 * i + 0xA8 * j + 8
/-- Counter LENGTH (R283). -/
def Cnt.PT_LENGTH (i j : Nat) : Nat := 0x00400600 + 4096 * i + 0xA8 * j + 16
/-- Counter BAD_TYPE (R283). -/
def Cnt.PT_BAD_TYPE (i j : Nat) : Nat := 0x00400600 + 4096 * i + 0xA8 * j + 24
/-- Counter CLASS_MISMATCH (R283). -/
def Cnt.PT_CLASS_MISMATCH (i j : Nat) : Nat := 0x00400600 + 4096 * i + 0xA8 * j + 32
/-- Counter HOP_VIOLATION (R283). -/
def Cnt.PT_HOP_VIOLATION (i j : Nat) : Nat := 0x00400600 + 4096 * i + 0xA8 * j + 40
/-- Counter SPEC_FROM_LEAF (R283). -/
def Cnt.PT_SPEC_FROM_LEAF (i j : Nat) : Nat := 0x00400600 + 4096 * i + 0xA8 * j + 48
/-- Counter UNROUTABLE (R283). -/
def Cnt.PT_UNROUTABLE (i j : Nat) : Nat := 0x00400600 + 4096 * i + 0xA8 * j + 56
/-- Counter MISADDRESSED (R283). -/
def Cnt.PT_MISADDRESSED (i j : Nat) : Nat := 0x00400600 + 4096 * i + 0xA8 * j + 64
/-- Counter STALE_GENERATION (R283). -/
def Cnt.PT_STALE_GENERATION (i j : Nat) : Nat := 0x00400600 + 4096 * i + 0xA8 * j + 72
/-- Counter RESERVED_NONZERO (R283). -/
def Cnt.PT_RESERVED_NONZERO (i j : Nat) : Nat := 0x00400600 + 4096 * i + 0xA8 * j + 80
/-- Counter PAYLOAD_CRC (R283). -/
def Cnt.PT_PAYLOAD_CRC (i j : Nat) : Nat := 0x00400600 + 4096 * i + 0xA8 * j + 88
/-- Counter RX_PACKETS (R283). -/
def Cnt.PT_RX_PACKETS (i j : Nat) : Nat := 0x00400600 + 4096 * i + 0xA8 * j + 96
/-- Counter TX_PACKETS (R283). -/
def Cnt.PT_TX_PACKETS (i j : Nat) : Nat := 0x00400600 + 4096 * i + 0xA8 * j + 104
/-- Counter GREEN (R283). -/
def Cnt.PT_GREEN (i j : Nat) : Nat := 0x00400600 + 4096 * i + 0xA8 * j + 112
/-- Counter YELLOW (R283). -/
def Cnt.PT_YELLOW (i j : Nat) : Nat := 0x00400600 + 4096 * i + 0xA8 * j + 120
/-- Counter RED (R283). -/
def Cnt.PT_RED (i j : Nat) : Nat := 0x00400600 + 4096 * i + 0xA8 * j + 128
/-- Counter POL_DROP (R283). -/
def Cnt.PT_POL_DROP (i j : Nat) : Nat := 0x00400600 + 4096 * i + 0xA8 * j + 136
/-- Counter STOMP_TX (R283). -/
def Cnt.PT_STOMP_TX (i j : Nat) : Nat := 0x00400600 + 4096 * i + 0xA8 * j + 144
/-- Counter STOMP_RX (R283). -/
def Cnt.PT_STOMP_RX (i j : Nat) : Nat := 0x00400600 + 4096 * i + 0xA8 * j + 152
/-- Counter NO_PATH (R283). -/
def Cnt.PT_NO_PATH (i j : Nat) : Nat := 0x00400600 + 4096 * i + 0xA8 * j + 160
/-- QM_CTRL (R261). -/
def Reg.QM_CTRL (i : Nat) : Nat := 0x00500100 + 4096 * i
@[inline] def Fld.QM_CTRL_LFSR_SEED : Fld := ⟨31, 16⟩
@[inline] def Fld.QM_CTRL_CNT_CLEAR : Fld := ⟨0, 0⟩
/-- QM_POOL_STATUS (R252). -/
def Reg.QM_POOL_STATUS (i : Nat) : Nat := 0x00500104 + 4096 * i
@[inline] def Fld.QM_POOL_STATUS_USED : Fld := ⟨30, 16⟩
@[inline] def Fld.QM_POOL_STATUS_HIGH_WATER : Fld := ⟨14, 0⟩
/-- QM_LIMIT (R253). -/
def Reg.QM_LIMIT (i j c : Nat) : Nat := 0x00500200 + 4096 * i + 0x20 * j + 0x4 * c
@[inline] def Fld.QM_LIMIT_LIMIT : Fld := ⟨13, 0⟩
/-- QM_OCC (R252). -/
def Reg.QM_OCC (i j c : Nat) : Nat := 0x00500300 + 4096 * i + 0x20 * j + 0x4 * c
@[inline] def Fld.QM_OCC_OCC : Fld := ⟨13, 0⟩
/-- QM_PROF (R263). -/
def Reg.QM_PROF (i j c : Nat) : Nat := 0x00500400 + 4096 * i + 0xC * j + 0x4 * c
@[inline] def Fld.QM_PROF_ACTION : Fld := ⟨31, 31⟩
@[inline] def Fld.QM_PROF_MIN : Fld := ⟨23, 20⟩
@[inline] def Fld.QM_PROF_MAX : Fld := ⟨19, 16⟩
@[inline] def Fld.QM_PROF_MAXP : Fld := ⟨7, 0⟩
/-- Counter ENQ (R284). -/
def Cnt.QM_ENQ (i j c : Nat) : Nat := 0x00500600 + 4096 * i + 0x140 * j + 0x28 * c
/-- Counter DROP_LIMIT (R284). -/
def Cnt.QM_DROP_LIMIT (i j c : Nat) : Nat := 0x00500600 + 4096 * i + 0x140 * j + 0x28 * c + 8
/-- Counter DROP_EARLY (R284). -/
def Cnt.QM_DROP_EARLY (i j c : Nat) : Nat := 0x00500600 + 4096 * i + 0x140 * j + 0x28 * c + 16
/-- Counter MARKED (R284). -/
def Cnt.QM_MARKED (i j c : Nat) : Nat := 0x00500600 + 4096 * i + 0x140 * j + 0x28 * c + 24
/-- Counter FLUSH (R284). -/
def Cnt.QM_FLUSH (i j c : Nat) : Nat := 0x00500600 + 4096 * i + 0x140 * j + 0x28 * c + 32
/-- FWT_CTRL (R322). -/
def Reg.FWT_CTRL (i : Nat) : Nat := 0x00600100 + 4096 * i
@[inline] def Fld.FWT_CTRL_CNT_CLEAR : Fld := ⟨2, 2⟩
@[inline] def Fld.FWT_CTRL_MOVE_DETECT : Fld := ⟨1, 1⟩
@[inline] def Fld.FWT_CTRL_SRC_CHECK : Fld := ⟨0, 0⟩
/-- FWT_CFG (R287). -/
def Reg.FWT_CFG (i : Nat) : Nat := 0x00600104 + 4096 * i
@[inline] def Fld.FWT_CFG_PLANE : Fld := ⟨15, 13⟩
@[inline] def Fld.FWT_CFG_LEAVES : Fld := ⟨12, 11⟩
/-- FWT_STATUS (R318). -/
def Reg.FWT_STATUS (i : Nat) : Nat := 0x00600108 + 4096 * i
@[inline] def Fld.FWT_STATUS_CMP_PAUSED : Fld := ⟨7, 7⟩
@[inline] def Fld.FWT_STATUS_STASH_USED : Fld := ⟨4, 0⟩
/-- FWT_UPDATE_SEQ (R310). -/
def Reg.FWT_UPDATE_SEQ (i : Nat) : Nat := 0x0060010C + 4096 * i
@[inline] def Fld.FWT_UPDATE_SEQ_SEQ : Fld := ⟨31, 0⟩
/-- FWT_CMP_CTRL (R318). -/
def Reg.FWT_CMP_CTRL (i : Nat) : Nat := 0x00600110 + 4096 * i
@[inline] def Fld.FWT_CMP_CTRL_ENABLE : Fld := ⟨31, 31⟩
@[inline] def Fld.FWT_CMP_CTRL_REPAIR : Fld := ⟨30, 30⟩
/-- FWT_CMP_SHADOW_SEQ (R318). -/
def Reg.FWT_CMP_SHADOW_SEQ (i : Nat) : Nat := 0x00600114 + 4096 * i
@[inline] def Fld.FWT_CMP_SHADOW_SEQ_SEQ : Fld := ⟨31, 0⟩
/-- FWT_CMP_BASE (R317). -/
def Reg.FWT_CMP_BASE (i : Nat) : Nat := 0x00600118 + 4096 * i
@[inline] def Fld.FWT_CMP_BASE_ADDR : Fld := ⟨63, 21⟩
/-- Counter OVR_HIT (R322). -/
def Cnt.FWT_OVR_HIT (i : Nat) : Nat := 0x00600200 + 4096 * i
/-- Counter ROW_HIT (R322). -/
def Cnt.FWT_ROW_HIT (i : Nat) : Nat := 0x00600200 + 4096 * i + 8
/-- Counter FLOOD (R322). -/
def Cnt.FWT_FLOOD (i : Nat) : Nat := 0x00600200 + 4096 * i + 16
/-- Counter OVR_DROP (R322). -/
def Cnt.FWT_OVR_DROP (i : Nat) : Nat := 0x00600200 + 4096 * i + 24
/-- Counter STALE_DST (R322). -/
def Cnt.FWT_STALE_DST (i : Nat) : Nat := 0x00600200 + 4096 * i + 32
/-- Counter STALE_SRC (R322). -/
def Cnt.FWT_STALE_SRC (i : Nat) : Nat := 0x00600200 + 4096 * i + 40
/-- Counter STALE_GRP (R322). -/
def Cnt.FWT_STALE_GRP (i : Nat) : Nat := 0x00600200 + 4096 * i + 48
/-- Counter INSERT_FAIL (R322). -/
def Cnt.FWT_INSERT_FAIL (i : Nat) : Nat := 0x00600200 + 4096 * i + 56
/-- Counter MOVE_SEEN (R322). -/
def Cnt.FWT_MOVE_SEEN (i : Nat) : Nat := 0x00600200 + 4096 * i + 64
/-- Counter CMP_MISMATCH (R322). -/
def Cnt.FWT_CMP_MISMATCH (i : Nat) : Nat := 0x00600200 + 4096 * i + 72
/-- Counter TABLE_UE (R322). -/
def Cnt.FWT_TABLE_UE (i : Nat) : Nat := 0x00600200 + 4096 * i + 80
/-- Counter FENCE_SKIP (R322). -/
def Cnt.FWT_FENCE_SKIP (i : Nat) : Nat := 0x00600200 + 4096 * i + 88
/-- Counter FUNC_NO_PATH (R322). -/
def Cnt.FWT_FUNC_NO_PATH (i : Nat) : Nat := 0x00600200 + 4096 * i + 96
/-- RING_CTRL (R281). -/
def Reg.RING_CTRL (i : Nat) : Nat := 0x00700100 + 4096 * i
@[inline] def Fld.RING_CTRL_CNT_CLEAR : Fld := ⟨0, 0⟩
/-- RING_DRZ_CAP (R279). -/
def Reg.RING_DRZ_CAP (i : Nat) : Nat := 0x00700108 + 4096 * i
@[inline] def Fld.RING_DRZ_CAP_BURST : Fld := ⟨31, 16⟩
@[inline] def Fld.RING_DRZ_CAP_RATE : Fld := ⟨8, 0⟩
/-- Counter RING_DRZ_SENT (R285). -/
def Cnt.RING_DRZ_SENT (i : Nat) : Nat := 0x00700110 + 4096 * i
/-- Counter RING_DRZ_DROP (R285). -/
def Cnt.RING_DRZ_DROP (i : Nat) : Nat := 0x00700118 + 4096 * i
/-- Counter RING_XB_RETRY (R285). -/
def Cnt.RING_XB_RETRY (i : Nat) : Nat := 0x00700120 + 4096 * i
/-- Counter RING_PAIR_CE (R285). -/
def Cnt.RING_PAIR_CE (i j : Nat) : Nat := 0x00700200 + 4096 * i + 0x10 * j
/-- Counter RING_PAIR_UE (R285). -/
def Cnt.RING_PAIR_UE (i j : Nat) : Nat := 0x00700208 + 4096 * i + 0x10 * j
/-- Counter RING_QS_STALL (R285). -/
def Cnt.RING_QS_STALL (i j : Nat) : Nat := 0x00700280 + 4096 * i + 0x8 * j
/-- TIDE_CTRL (R382). -/
def Reg.TIDE_CTRL (i : Nat) : Nat := 0x00800100 + 4096 * i
@[inline] def Fld.TIDE_CTRL_GUARD_NS : Fld := ⟨23, 16⟩
@[inline] def Fld.TIDE_CTRL_CNT_CLEAR : Fld := ⟨0, 0⟩
/-- TIDE_STATUS (R386). -/
def Reg.TIDE_STATUS (i : Nat) : Nat := 0x00800104 + 4096 * i
@[inline] def Fld.TIDE_STATUS_RUNNING : Fld := ⟨7, 0⟩
/-- TIDE_PORT_CFG (R386). -/
def Reg.TIDE_PORT_CFG (i j : Nat) : Nat := 0x00800140 + 4096 * i + 0x20 * j
@[inline] def Fld.TIDE_PORT_CFG_TC6_MODE : Fld := ⟨1, 1⟩
@[inline] def Fld.TIDE_PORT_CFG_LIST_EN : Fld := ⟨0, 0⟩
/-- TIDE_PORT_STATUS (R386). -/
def Reg.TIDE_PORT_STATUS (i j : Nat) : Nat := 0x00800144 + 4096 * i + 0x20 * j
@[inline] def Fld.TIDE_PORT_STATUS_STATE : Fld := ⟨31, 29⟩
@[inline] def Fld.TIDE_PORT_STATUS_ACTIVE_BANK : Fld := ⟨28, 28⟩
@[inline] def Fld.TIDE_PORT_STATUS_SHADOW_VALID : Fld := ⟨27, 27⟩
@[inline] def Fld.TIDE_PORT_STATUS_TAKEOVER_PENDING : Fld := ⟨26, 26⟩
@[inline] def Fld.TIDE_PORT_STATUS_ENTRY : Fld := ⟨25, 16⟩
@[inline] def Fld.TIDE_PORT_STATUS_GEN : Fld := ⟨15, 8⟩
@[inline] def Fld.TIDE_PORT_STATUS_LIST_UE : Fld := ⟨7, 7⟩
/-- TIDE_TAKEOVER (R388). -/
def Reg.TIDE_TAKEOVER (i j : Nat) : Nat := 0x00800148 + 4096 * i + 0x20 * j
@[inline] def Fld.TIDE_TAKEOVER_TIME : Fld := ⟨63, 0⟩
/-- TIDE_CYCLE_START (R379). -/
def Reg.TIDE_CYCLE_START (i j : Nat) : Nat := 0x00800150 + 4096 * i + 0x20 * j
@[inline] def Fld.TIDE_CYCLE_START_TIME : Fld := ⟨63, 0⟩
/-- TIDE_SHP (R374). -/
def Reg.TIDE_SHP (i j c : Nat) : Nat := 0x00800300 + 4096 * i + 0x40 * j + 0x8 * c
@[inline] def Fld.TIDE_SHP_ENABLE : Fld := ⟨63, 63⟩
@[inline] def Fld.TIDE_SHP_RESET_FULL : Fld := ⟨62, 62⟩
@[inline] def Fld.TIDE_SHP_RATE : Fld := ⟨51, 32⟩
@[inline] def Fld.TIDE_SHP_BURST : Fld := ⟨23, 0⟩
/-- TIDE_DRR (R370). -/
def Reg.TIDE_DRR (i j c : Nat) : Nat := 0x00800500 + 4096 * i + 0x20 * j + 0x4 * c
@[inline] def Fld.TIDE_DRR_QUANTUM : Fld := ⟨15, 0⟩
/-- Counter CYCLES (R403). -/
def Cnt.TIDE_CYCLES (i j : Nat) : Nat := 0x00800600 + 4096 * i + 0x40 * j
/-- Counter GUARD_HOLD (R403). -/
def Cnt.TIDE_GUARD_HOLD (i j : Nat) : Nat := 0x00800600 + 4096 * i + 0x40 * j + 8
/-- Counter DARK_SLOTS (R403). -/
def Cnt.TIDE_DARK_SLOTS (i j : Nat) : Nat := 0x00800600 + 4096 * i + 0x40 * j + 16
/-- Counter TAKEOVERS (R403). -/
def Cnt.TIDE_TAKEOVERS (i j : Nat) : Nat := 0x00800600 + 4096 * i + 0x40 * j + 24
/-- Counter LAUNCH_SENT (R403). -/
def Cnt.TIDE_LAUNCH_SENT (i j : Nat) : Nat := 0x00800600 + 4096 * i + 0x40 * j + 32
/-- Counter LAUNCH_EMPTY (R403). -/
def Cnt.TIDE_LAUNCH_EMPTY (i j : Nat) : Nat := 0x00800600 + 4096 * i + 0x40 * j + 40
/-- Counter LAUNCH_SKIPPED (R403). -/
def Cnt.TIDE_LAUNCH_SKIPPED (i j : Nat) : Nat := 0x00800600 + 4096 * i + 0x40 * j + 48
/-- Counter RESEND_IN_CLOSED (R403). -/
def Cnt.TIDE_RESEND_IN_CLOSED (i j : Nat) : Nat := 0x00800600 + 4096 * i + 0x40 * j + 56
/-- OE_CTRL (R421). -/
def Reg.OE_CTRL (i : Nat) : Nat := 0x00900100 + 4096 * i
@[inline] def Fld.OE_CTRL_CNT_CLEAR : Fld := ⟨3, 3⟩
@[inline] def Fld.OE_CTRL_ID_OVERRIDE : Fld := ⟨2, 2⟩
@[inline] def Fld.OE_CTRL_TONE_CHECK : Fld := ⟨1, 1⟩
@[inline] def Fld.OE_CTRL_FF_EN : Fld := ⟨0, 0⟩
/-- OE_STATUS (R411). -/
def Reg.OE_STATUS (i : Nat) : Nat := 0x00900104 + 4096 * i
@[inline] def Fld.OE_STATUS_ID_OK : Fld := ⟨4, 4⟩
@[inline] def Fld.OE_STATUS_FEED_LOW : Fld := ⟨3, 2⟩
@[inline] def Fld.OE_STATUS_FEED_DARK : Fld := ⟨1, 0⟩
/-- OE_FF_COEF (R428). -/
def Reg.OE_FF_COEF (i : Nat) : Nat := 0x00900108 + 4096 * i
@[inline] def Fld.OE_FF_COEF_COEF : Fld := ⟨15, 0⟩
/-- OE_SLIP (R429). -/
def Reg.OE_SLIP (i : Nat) : Nat := 0x0090010C + 4096 * i
@[inline] def Fld.OE_SLIP_THRESH : Fld := ⟨15, 8⟩
@[inline] def Fld.OE_SLIP_DWELL : Fld := ⟨7, 0⟩
/-- OE_MARGIN_MIN (R432). -/
def Reg.OE_MARGIN_MIN (i : Nat) : Nat := 0x00900110 + 4096 * i
@[inline] def Fld.OE_MARGIN_MIN_MIN : Fld := ⟨7, 0⟩
/-- OE_FEED_PWR (R411). -/
def Reg.OE_FEED_PWR (i j c : Nat) : Nat := 0x00900200 + 4096 * i + 0x40 * j + 0x4 * c
@[inline] def Fld.OE_FEED_PWR_POWER : Fld := ⟨15, 0⟩
/-- OE_REED (R426). -/
def Reg.OE_REED (i j c : Nat) : Nat := 0x00900400 + 4096 * i + 0x10 * j + 0x4 * c
@[inline] def Fld.OE_REED_TX_STATE : Fld := ⟨31, 29⟩
@[inline] def Fld.OE_REED_RX_STATE : Fld := ⟨28, 26⟩
@[inline] def Fld.OE_REED_FAILS : Fld := ⟨25, 24⟩
@[inline] def Fld.OE_REED_MARGIN : Fld := ⟨23, 16⟩
@[inline] def Fld.OE_REED_ATTEN : Fld := ⟨15, 8⟩
@[inline] def Fld.OE_REED_RX_TONE : Fld := ⟨7, 4⟩
@[inline] def Fld.OE_REED_CAUSE_LASER : Fld := ⟨3, 3⟩
@[inline] def Fld.OE_REED_LOW_MARGIN : Fld := ⟨2, 2⟩
@[inline] def Fld.OE_REED_PROVISIONAL : Fld := ⟨1, 1⟩
@[inline] def Fld.OE_REED_LIVE : Fld := ⟨0, 0⟩
/-- OE_ID_DATA (R418). -/
def Reg.OE_ID_DATA (i j : Nat) : Nat := 0x00900A00 + 4096 * i + 0x4 * j
@[inline] def Fld.OE_ID_DATA_DATA : Fld := ⟨31, 0⟩
/-- Counter RELOCKS (R469). -/
def Cnt.OE_RELOCKS (i : Nat) : Nat := 0x00900800 + 4096 * i
/-- Counter ID_MISMATCH (R469). -/
def Cnt.OE_ID_MISMATCH (i : Nat) : Nat := 0x00900800 + 4096 * i + 8
/-- Counter REEDS_DISABLED (R469). -/
def Cnt.OE_REEDS_DISABLED (i : Nat) : Nat := 0x00900800 + 4096 * i + 16
/-- Counter SLIPS (R469). -/
def Cnt.OE_SLIPS (i : Nat) : Nat := 0x00900800 + 4096 * i + 24
/-- Counter MARGIN_RUNS (R469). -/
def Cnt.OE_MARGIN_RUNS (i : Nat) : Nat := 0x00900800 + 4096 * i + 32
/-- Counter MARGIN_LOW (R469). -/
def Cnt.OE_MARGIN_LOW (i : Nat) : Nat := 0x00900800 + 4096 * i + 40
/-- CW_CTRL (R446). -/
def Reg.CW_CTRL (i : Nat) : Nat := 0x00A00100 + 4096 * i
@[inline] def Fld.CW_CTRL_CNT_CLEAR : Fld := ⟨1, 1⟩
@[inline] def Fld.CW_CTRL_SUPPRESS_EN : Fld := ⟨0, 0⟩
/-- CW_STATUS (R455). -/
def Reg.CW_STATUS (i : Nat) : Nat := 0x00A00104 + 4096 * i
@[inline] def Fld.CW_STATUS_GEN : Fld := ⟨23, 16⟩
@[inline] def Fld.CW_STATUS_PARKED : Fld := ⟨15, 15⟩
@[inline] def Fld.CW_STATUS_ACTIVE_BANK : Fld := ⟨14, 14⟩
@[inline] def Fld.CW_STATUS_SHADOW_VALID : Fld := ⟨13, 13⟩
@[inline] def Fld.CW_STATUS_TAKEOVER_PENDING : Fld := ⟨12, 12⟩
@[inline] def Fld.CW_STATUS_BUILD_BUSY : Fld := ⟨11, 11⟩
@[inline] def Fld.CW_STATUS_MAP : Fld := ⟨6, 0⟩
/-- CW_DELAY (R444). -/
def Reg.CW_DELAY (i : Nat) : Nat := 0x00A00108 + 4096 * i
@[inline] def Fld.CW_DELAY_DELAY : Fld := ⟨15, 0⟩
/-- CW_ARMED (R460). -/
def Reg.CW_ARMED (i : Nat) : Nat := 0x00A0010C + 4096 * i
@[inline] def Fld.CW_ARMED_ELEMENTS : Fld := ⟨10, 0⟩
/-- CW_TAKEOVER (R464). -/
def Reg.CW_TAKEOVER (i : Nat) : Nat := 0x00A00110 + 4096 * i
@[inline] def Fld.CW_TAKEOVER_TIME : Fld := ⟨63, 0⟩
/-- CW_OCCUPIED (R445). -/
def Reg.CW_OCCUPIED (i : Nat) : Nat := 0x00A00118 + 4096 * i
@[inline] def Fld.CW_OCCUPIED_PORTS : Fld := ⟨31, 0⟩
/-- CW_MAP (R441). -/
def Reg.CW_MAP (i j c : Nat) : Nat := 0x00A00200 + 4096 * i + 0x20 * j + 0x4 * c
@[inline] def Fld.CW_MAP_BYTES : Fld := ⟨31, 0⟩
/-- CW_STANDING (R458). -/
def Reg.CW_STANDING (i j : Nat) : Nat := 0x00A00A00 + 4096 * i + 0x4 * j
@[inline] def Fld.CW_STANDING_BYTES : Fld := ⟨31, 0⟩
/-- Counter SLOTS (R470). -/
def Cnt.CW_SLOTS (i : Nat) : Nat := 0x00A00C00 + 4096 * i
/-- Counter PARKS (R470). -/
def Cnt.CW_PARKS (i : Nat) : Nat := 0x00A00C00 + 4096 * i + 8
/-- Counter CUT_SLOTS (R470). -/
def Cnt.CW_CUT_SLOTS (i : Nat) : Nat := 0x00A00C00 + 4096 * i + 16
/-- Counter SUPPRESSED (R470). -/
def Cnt.CW_SUPPRESSED (i : Nat) : Nat := 0x00A00C00 + 4096 * i + 24
/-- Counter MAP_UNDEFINED (R470). -/
def Cnt.CW_MAP_UNDEFINED (i : Nat) : Nat := 0x00A00C00 + 4096 * i + 32
/-- Counter BUILDS (R470). -/
def Cnt.CW_BUILDS (i : Nat) : Nat := 0x00A00C00 + 4096 * i + 40
/-- ELS_CTRL (R416). -/
def Reg.ELS_CTRL (i : Nat) : Nat := 0x00B00100 + 4096 * i
@[inline] def Fld.ELS_CTRL_CNT_CLEAR : Fld := ⟨2, 2⟩
@[inline] def Fld.ELS_CTRL_AUTO_ON : Fld := ⟨1, 1⟩
@[inline] def Fld.ELS_CTRL_LASER_EN : Fld := ⟨0, 0⟩
/-- ELS_STATUS (R411). -/
def Reg.ELS_STATUS (i : Nat) : Nat := 0x00B00104 + 4096 * i
@[inline] def Fld.ELS_STATUS_PRESENT : Fld := ⟨20, 20⟩
@[inline] def Fld.ELS_STATUS_ID_OK : Fld := ⟨19, 19⟩
@[inline] def Fld.ELS_STATUS_LASING : Fld := ⟨18, 18⟩
@[inline] def Fld.ELS_STATUS_INTERLOCK : Fld := ⟨17, 17⟩
@[inline] def Fld.ELS_STATUS_LINE_WARN : Fld := ⟨16, 16⟩
@[inline] def Fld.ELS_STATUS_LINE_FAIL : Fld := ⟨15, 0⟩
/-- ELS_THRESH (R411). -/
def Reg.ELS_THRESH (i : Nat) : Nat := 0x00B00108 + 4096 * i
@[inline] def Fld.ELS_THRESH_WARN : Fld := ⟨31, 16⟩
@[inline] def Fld.ELS_THRESH_FAIL : Fld := ⟨15, 0⟩
/-- ELS_TEMP (R411). -/
def Reg.ELS_TEMP (i : Nat) : Nat := 0x00B0010C + 4096 * i
@[inline] def Fld.ELS_TEMP_TEMP : Fld := ⟨7, 0⟩
/-- ELS_LINE_PWR (R411). -/
def Reg.ELS_LINE_PWR (i j c : Nat) : Nat := 0x00B00200 + 4096 * i + 0x40 * j + 0x4 * c
@[inline] def Fld.ELS_LINE_PWR_POWER : Fld := ⟨15, 0⟩
/-- ELS_ID_DATA (R418). -/
def Reg.ELS_ID_DATA (i j : Nat) : Nat := 0x00B00400 + 4096 * i + 0x4 * j
@[inline] def Fld.ELS_ID_DATA_DATA : Fld := ⟨31, 0⟩
/-- Counter INSERTIONS (R471). -/
def Cnt.ELS_INSERTIONS (i : Nat) : Nat := 0x00B00300 + 4096 * i
/-- Counter REMOVALS (R471). -/
def Cnt.ELS_REMOVALS (i : Nat) : Nat := 0x00B00300 + 4096 * i + 8
/-- Counter LINE_FAILS (R471). -/
def Cnt.ELS_LINE_FAILS (i : Nat) : Nat := 0x00B00300 + 4096 * i + 16
/-- Counter INTERLOCKS (R471). -/
def Cnt.ELS_INTERLOCKS (i : Nat) : Nat := 0x00B00300 + 4096 * i + 24
/-- FEN_CTRL (R580). -/
def Reg.FEN_CTRL (i : Nat) : Nat := 0x00C00100 + 4096 * i
@[inline] def Fld.FEN_CTRL_CNT_CLEAR : Fld := ⟨0, 0⟩
/-- FEN_STATUS (R514). -/
def Reg.FEN_STATUS (i : Nat) : Nat := 0x00C00104 + 4096 * i
@[inline] def Fld.FEN_STATUS_IN_SERVICE : Fld := ⟨7, 7⟩
@[inline] def Fld.FEN_STATUS_SPARE : Fld := ⟨6, 6⟩
@[inline] def Fld.FEN_STATUS_SHADOW : Fld := ⟨5, 5⟩
@[inline] def Fld.FEN_STATUS_LOGICAL : Fld := ⟨3, 0⟩
/-- FEN_STICKY (R508). -/
def Reg.FEN_STICKY (i : Nat) : Nat := 0x00C00108 + 4096 * i
@[inline] def Fld.FEN_STICKY_OF : Fld := ⟨3, 3⟩
@[inline] def Fld.FEN_STICKY_UF : Fld := ⟨2, 2⟩
@[inline] def Fld.FEN_STICKY_NX : Fld := ⟨1, 1⟩
@[inline] def Fld.FEN_STICKY_NV : Fld := ⟨0, 0⟩
/-- Counter CHUNKS (R580). -/
def Cnt.FEN_CHUNKS (i : Nat) : Nat := 0x00C00200 + 4096 * i
/-- Counter SHADOWS (R580). -/
def Cnt.FEN_SHADOWS (i : Nat) : Nat := 0x00C00200 + 4096 * i + 8
/-- Counter IN_BYTES (R580). -/
def Cnt.FEN_IN_BYTES (i : Nat) : Nat := 0x00C00200 + 4096 * i + 16
/-- Counter VERDICT_PASS (R580). -/
def Cnt.FEN_VERDICT_PASS (i : Nat) : Nat := 0x00C00200 + 4096 * i + 24
/-- Counter VERDICT_FAIL (R580). -/
def Cnt.FEN_VERDICT_FAIL (i : Nat) : Nat := 0x00C00200 + 4096 * i + 32
/-- Counter ACC_UE (R580). -/
def Cnt.FEN_ACC_UE (i : Nat) : Nat := 0x00C00200 + 4096 * i + 40
/-- FADM_CTRL (R537). -/
def Reg.FADM_CTRL (i : Nat) : Nat := 0x00D00100 + 4096 * i
@[inline] def Fld.FADM_CTRL_BACKOFF_NS : Fld := ⟨31, 16⟩
@[inline] def Fld.FADM_CTRL_CNT_CLEAR : Fld := ⟨2, 2⟩
@[inline] def Fld.FADM_CTRL_T1_EN : Fld := ⟨1, 1⟩
@[inline] def Fld.FADM_CTRL_OPEN_EN : Fld := ⟨0, 0⟩
/-- FADM_STATUS (R532). -/
def Reg.FADM_STATUS (i : Nat) : Nat := 0x00D00104 + 4096 * i
@[inline] def Fld.FADM_STATUS_OPEN_COLLS : Fld := ⟨20, 10⟩
@[inline] def Fld.FADM_STATUS_T1_READY : Fld := ⟨2, 2⟩
@[inline] def Fld.FADM_STATUS_EXACT_OK : Fld := ⟨1, 1⟩
@[inline] def Fld.FADM_STATUS_FORMATS_OK : Fld := ⟨0, 0⟩
/-- FADM_SALT_SEED (R557). -/
def Reg.FADM_SALT_SEED (i : Nat) : Nat := 0x00D00108 + 4096 * i
@[inline] def Fld.FADM_SALT_SEED_SEED : Fld := ⟨31, 0⟩
/-- FADM_T1_BASE (R527). -/
def Reg.FADM_T1_BASE (i : Nat) : Nat := 0x00D00110 + 4096 * i
@[inline] def Fld.FADM_T1_BASE_ADDR : Fld := ⟨63, 21⟩
/-- FADM_T1_SLOTS (R527). -/
def Reg.FADM_T1_SLOTS (i : Nat) : Nat := 0x00D00118 + 4096 * i
@[inline] def Fld.FADM_T1_SLOTS_SLOTS : Fld := ⟨23, 0⟩
/-- FADM_PART_CFG (R527). -/
def Reg.FADM_PART_CFG (i j : Nat) : Nat := 0x00D00400 + 4096 * i + 0x20 * j
@[inline] def Fld.FADM_PART_CFG_ENABLE : Fld := ⟨31, 31⟩
@[inline] def Fld.FADM_PART_CFG_EVENT_RING : Fld := ⟨23, 16⟩
@[inline] def Fld.FADM_PART_CFG_TENANT : Fld := ⟨15, 0⟩
/-- FADM_PART_SRAM (R527). -/
def Reg.FADM_PART_SRAM (i j : Nat) : Nat := 0x00D00404 + 4096 * i + 0x20 * j
@[inline] def Fld.FADM_PART_SRAM_COUNT : Fld := ⟨25, 16⟩
@[inline] def Fld.FADM_PART_SRAM_FIRST : Fld := ⟨9, 0⟩
/-- FADM_PART_T1_FIRST (R527). -/
def Reg.FADM_PART_T1_FIRST (i j : Nat) : Nat := 0x00D00408 + 4096 * i + 0x20 * j
@[inline] def Fld.FADM_PART_T1_FIRST_FIRST : Fld := ⟨23, 0⟩
/-- FADM_PART_T1_COUNT (R527). -/
def Reg.FADM_PART_T1_COUNT (i j : Nat) : Nat := 0x00D0040C + 4096 * i + 0x20 * j
@[inline] def Fld.FADM_PART_T1_COUNT_COUNT : Fld := ⟨23, 0⟩
/-- FADM_PART_STATUS (R574). -/
def Reg.FADM_PART_STATUS (i j : Nat) : Nat := 0x00D00410 + 4096 * i + 0x20 * j
@[inline] def Fld.FADM_PART_STATUS_GEN : Fld := ⟨31, 24⟩
@[inline] def Fld.FADM_PART_STATUS_SRAM_USED : Fld := ⟨9, 0⟩
/-- FADM_PART_T1_USED (R530). -/
def Reg.FADM_PART_T1_USED (i j : Nat) : Nat := 0x00D00414 + 4096 * i + 0x20 * j
@[inline] def Fld.FADM_PART_T1_USED_USED : Fld := ⟨23, 0⟩
/-- Counter OPENS (R581). -/
def Cnt.FADM_OPENS (i : Nat) : Nat := 0x00D00C00 + 4096 * i
/-- Counter ADMITS (R581). -/
def Cnt.FADM_ADMITS (i : Nat) : Nat := 0x00D00C00 + 4096 * i + 8
/-- Counter REFUSED_FULL (R581). -/
def Cnt.FADM_REFUSED_FULL (i : Nat) : Nat := 0x00D00C00 + 4096 * i + 16
/-- Counter REFUSED_OTHER (R581). -/
def Cnt.FADM_REFUSED_OTHER (i : Nat) : Nat := 0x00D00C00 + 4096 * i + 24
/-- Counter NO_GROUP (R581). -/
def Cnt.FADM_NO_GROUP (i : Nat) : Nat := 0x00D00C00 + 4096 * i + 32
/-- Counter NOT_OPEN (R581). -/
def Cnt.FADM_NOT_OPEN (i : Nat) : Nat := 0x00D00C00 + 4096 * i + 40
/-- Counter NOT_MEMBER (R581). -/
def Cnt.FADM_NOT_MEMBER (i : Nat) : Nat := 0x00D00C00 + 4096 * i + 48
/-- Counter BAD_SHAPE (R581). -/
def Cnt.FADM_BAD_SHAPE (i : Nat) : Nat := 0x00D00C00 + 4096 * i + 56
/-- Counter DUP (R581). -/
def Cnt.FADM_DUP (i : Nat) : Nat := 0x00D00C00 + 4096 * i + 64
/-- Counter BACKOFFS (R581). -/
def Cnt.FADM_BACKOFFS (i : Nat) : Nat := 0x00D00C00 + 4096 * i + 72
/-- Counter CHUNK_FAIL (R581). -/
def Cnt.FADM_CHUNK_FAIL (i : Nat) : Nat := 0x00D00C00 + 4096 * i + 80
/-- Counter RECALLS (R581). -/
def Cnt.FADM_RECALLS (i : Nat) : Nat := 0x00D00C00 + 4096 * i + 88
/-- Counter EXCUSED (R581). -/
def Cnt.FADM_EXCUSED (i : Nat) : Nat := 0x00D00C00 + 4096 * i + 96
/-- Counter STALLS (R581). -/
def Cnt.FADM_STALLS (i : Nat) : Nat := 0x00D00C00 + 4096 * i + 104
/-- Counter PART_RESETS (R581). -/
def Cnt.FADM_PART_RESETS (i : Nat) : Nat := 0x00D00C00 + 4096 * i + 112
/-- Counter GONE (R581). -/
def Cnt.FADM_GONE (i : Nat) : Nat := 0x00D00C00 + 4096 * i + 120
/-- Counter MISSTRIPED (R581). -/
def Cnt.FADM_MISSTRIPED (i : Nat) : Nat := 0x00D00C00 + 4096 * i + 128
/-- Counter CHECK_SKIPPED (R581). -/
def Cnt.FADM_CHECK_SKIPPED (i : Nat) : Nat := 0x00D00C00 + 4096 * i + 136
/-- Counter FENCED_IN (R581). -/
def Cnt.FADM_FENCED_IN (i : Nat) : Nat := 0x00D00C00 + 4096 * i + 144
/-- PEAT_CTRL (R620). -/
def Reg.PEAT_CTRL : Nat := 0x00E00100
@[inline] def Fld.PEAT_CTRL_CNT_CLEAR : Fld := ⟨2, 2⟩
@[inline] def Fld.PEAT_CTRL_FILL_EN : Fld := ⟨1, 1⟩
@[inline] def Fld.PEAT_CTRL_ACCEPT : Fld := ⟨0, 0⟩
/-- PEAT_STATUS (R620). -/
def Reg.PEAT_STATUS : Nat := 0x00E00104
@[inline] def Fld.PEAT_STATUS_SPARE_ACTIVE : Fld := ⟨4, 4⟩
@[inline] def Fld.PEAT_STATUS_ATTEND_OK : Fld := ⟨3, 3⟩
@[inline] def Fld.PEAT_STATUS_T2_READY : Fld := ⟨2, 2⟩
@[inline] def Fld.PEAT_STATUS_T1_READY : Fld := ⟨1, 1⟩
@[inline] def Fld.PEAT_STATUS_ONLINE : Fld := ⟨0, 0⟩
/-- PEAT_STICKY (R629). -/
def Reg.PEAT_STICKY : Nat := 0x00E00108
@[inline] def Fld.PEAT_STICKY_OF : Fld := ⟨3, 3⟩
@[inline] def Fld.PEAT_STICKY_UF : Fld := ⟨2, 2⟩
@[inline] def Fld.PEAT_STICKY_NX : Fld := ⟨1, 1⟩
@[inline] def Fld.PEAT_STICKY_NV : Fld := ⟨0, 0⟩
/-- PEAT_RAMP (R621). -/
def Reg.PEAT_RAMP : Nat := 0x00E0010C
@[inline] def Fld.PEAT_RAMP_UP : Fld := ⟨31, 16⟩
@[inline] def Fld.PEAT_RAMP_DOWN : Fld := ⟨15, 0⟩
/-- PEAT_POWER (R621). -/
def Reg.PEAT_POWER : Nat := 0x00E00110
@[inline] def Fld.PEAT_POWER_ALLOW : Fld := ⟨31, 16⟩
@[inline] def Fld.PEAT_POWER_EST : Fld := ⟨15, 0⟩
/-- PEAT_PMODEL (R621). -/
def Reg.PEAT_PMODEL : Nat := 0x00E00114
@[inline] def Fld.PEAT_PMODEL_IDLE : Fld := ⟨31, 16⟩
@[inline] def Fld.PEAT_PMODEL_FULL : Fld := ⟨15, 0⟩
/-- PEAT_DEMOTE (R615). -/
def Reg.PEAT_DEMOTE : Nat := 0x00E00118
@[inline] def Fld.PEAT_DEMOTE_RATE : Fld := ⟨31, 16⟩
@[inline] def Fld.PEAT_DEMOTE_HIGH : Fld := ⟨15, 12⟩
@[inline] def Fld.PEAT_DEMOTE_LOW : Fld := ⟨11, 8⟩
/-- PEAT_REASM (R606). -/
def Reg.PEAT_REASM : Nat := 0x00E0011C
@[inline] def Fld.PEAT_REASM_US : Fld := ⟨15, 0⟩
/-- Counter REQUESTS (R637). -/
def Cnt.PEAT_REQUESTS : Nat := 0x00E00200
/-- Counter PUTS (R637). -/
def Cnt.PEAT_PUTS : Nat := 0x00E00200 + 8
/-- Counter GETS (R637). -/
def Cnt.PEAT_GETS : Nat := 0x00E00200 + 16
/-- Counter ATTENDS (R637). -/
def Cnt.PEAT_ATTENDS : Nat := 0x00E00200 + 24
/-- Counter MACS (R637). -/
def Cnt.PEAT_MACS : Nat := 0x00E00200 + 32
/-- Counter ABSENT (R637). -/
def Cnt.PEAT_ABSENT : Nat := 0x00E00200 + 40
/-- Counter STALE_HITS (R637). -/
def Cnt.PEAT_STALE_HITS : Nat := 0x00E00200 + 48
/-- Counter DENIED (R637). -/
def Cnt.PEAT_DENIED : Nat := 0x00E00200 + 56
/-- Counter DIR_FULL (R637). -/
def Cnt.PEAT_DIR_FULL : Nat := 0x00E00200 + 64
/-- Counter STASHED (R637). -/
def Cnt.PEAT_STASHED : Nat := 0x00E00200 + 72
/-- Counter AUTO_DEMOTES (R637). -/
def Cnt.PEAT_AUTO_DEMOTES : Nat := 0x00E00200 + 80
/-- Counter MOVES (R637). -/
def Cnt.PEAT_MOVES : Nat := 0x00E00200 + 88
/-- Counter REASM_DROP (R637). -/
def Cnt.PEAT_REASM_DROP : Nat := 0x00E00200 + 96
/-- Counter PART_RESETS (R637). -/
def Cnt.PEAT_PART_RESETS : Nat := 0x00E00200 + 104
/-- Counter RAMP_HOLD (R637). -/
def Cnt.PEAT_RAMP_HOLD : Nat := 0x00E00200 + 112
/-- Counter FILL_INTERVALS (R637). -/
def Cnt.PEAT_FILL_INTERVALS : Nat := 0x00E00200 + 120
/-- PEAT_PART_CFG (R596). -/
def Reg.PEAT_PART_CFG (j : Nat) : Nat := 0x00E01100 + 0x20 * j
@[inline] def Fld.PEAT_PART_CFG_ENABLE : Fld := ⟨31, 31⟩
@[inline] def Fld.PEAT_PART_CFG_EVENT_RING : Fld := ⟨23, 16⟩
@[inline] def Fld.PEAT_PART_CFG_TENANT : Fld := ⟨15, 0⟩
/-- PEAT_PART_ACCESS (R596). -/
def Reg.PEAT_PART_ACCESS (j : Nat) : Nat := 0x00E01104 + 0x20 * j
@[inline] def Fld.PEAT_PART_ACCESS_GROUP : Fld := ⟨19, 0⟩
/-- PEAT_PART_T1_FIRST (R596). -/
def Reg.PEAT_PART_T1_FIRST (j : Nat) : Nat := 0x00E01108 + 0x20 * j
@[inline] def Fld.PEAT_PART_T1_FIRST_FIRST : Fld := ⟨24, 0⟩
/-- PEAT_PART_T1_COUNT (R596). -/
def Reg.PEAT_PART_T1_COUNT (j : Nat) : Nat := 0x00E0110C + 0x20 * j
@[inline] def Fld.PEAT_PART_T1_COUNT_COUNT : Fld := ⟨24, 0⟩
/-- PEAT_PART_T2_FIRST (R596). -/
def Reg.PEAT_PART_T2_FIRST (j : Nat) : Nat := 0x00E01110 + 0x20 * j
@[inline] def Fld.PEAT_PART_T2_FIRST_FIRST : Fld := ⟨24, 0⟩
/-- PEAT_PART_T2_COUNT (R596). -/
def Reg.PEAT_PART_T2_COUNT (j : Nat) : Nat := 0x00E01114 + 0x20 * j
@[inline] def Fld.PEAT_PART_T2_COUNT_COUNT : Fld := ⟨24, 0⟩
/-- PEAT_PART_DIR (R596). -/
def Reg.PEAT_PART_DIR (j : Nat) : Nat := 0x00E01118 + 0x20 * j
@[inline] def Fld.PEAT_PART_DIR_DIR_LOG2 : Fld := ⟨28, 24⟩
@[inline] def Fld.PEAT_PART_DIR_BASE : Fld := ⟨23, 0⟩
/-- PEAT_PART_STATUS (R630). -/
def Reg.PEAT_PART_STATUS (j : Nat) : Nat := 0x00E0111C + 0x20 * j
@[inline] def Fld.PEAT_PART_STATUS_GEN : Fld := ⟨31, 24⟩
@[inline] def Fld.PEAT_PART_STATUS_RESETTING : Fld := ⟨23, 23⟩
@[inline] def Fld.PEAT_PART_STATUS_SNAPSHOT_BUSY : Fld := ⟨22, 22⟩
@[inline] def Fld.PEAT_PART_STATUS_STASH_USED : Fld := ⟨21, 19⟩
/-- TIER_CTRL (R588). -/
def Reg.TIER_CTRL : Nat := 0x00F00100
@[inline] def Fld.TIER_CTRL_CNT_CLEAR : Fld := ⟨1, 1⟩
@[inline] def Fld.TIER_CTRL_SCRUB_EN : Fld := ⟨0, 0⟩
/-- TIER_STATUS (R585). -/
def Reg.TIER_STATUS : Nat := 0x00F00104
@[inline] def Fld.TIER_STATUS_T2_MODULES : Fld := ⟨31, 28⟩
@[inline] def Fld.TIER_STATUS_T2_READY : Fld := ⟨27, 27⟩
@[inline] def Fld.TIER_STATUS_T1_READY : Fld := ⟨26, 26⟩
@[inline] def Fld.TIER_STATUS_T2_ACCEPTED : Fld := ⟨23, 16⟩
@[inline] def Fld.TIER_STATUS_T2_TRAINED : Fld := ⟨15, 8⟩
@[inline] def Fld.TIER_STATUS_T1_TRAINED : Fld := ⟨7, 0⟩
/-- TIER_SCRUB (R588). -/
def Reg.TIER_SCRUB : Nat := 0x00F00108
@[inline] def Fld.TIER_SCRUB_HOURS : Fld := ⟨7, 0⟩
/-- TIER_REGION_CFG (R589). -/
def Reg.TIER_REGION_CFG (j : Nat) : Nat := 0x00F00200 + 0x10 * j
@[inline] def Fld.TIER_REGION_CFG_KIND : Fld := ⟨31, 28⟩
@[inline] def Fld.TIER_REGION_CFG_TIER : Fld := ⟨27, 27⟩
/-- TIER_REGION_BASE (R589). -/
def Reg.TIER_REGION_BASE (j : Nat) : Nat := 0x00F00204 + 0x10 * j
@[inline] def Fld.TIER_REGION_BASE_BASE : Fld := ⟨23, 0⟩
/-- TIER_REGION_SIZE (R589). -/
def Reg.TIER_REGION_SIZE (j : Nat) : Nat := 0x00F00208 + 0x10 * j
@[inline] def Fld.TIER_REGION_SIZE_SIZE : Fld := ⟨23, 0⟩
/-- Counter REGION_VIOLATION (R638). -/
def Cnt.TIER_REGION_VIOLATION : Nat := 0x00F00300
/-- Counter SCRUB_PASSES (R638). -/
def Cnt.TIER_SCRUB_PASSES : Nat := 0x00F00300 + 8
/-- TIER_CH_STATUS (R594). -/
def Reg.TIER_CH_STATUS (i : Nat) : Nat := 0x00F00100 + 4096 * i
@[inline] def Fld.TIER_CH_STATUS_TRAINED : Fld := ⟨31, 31⟩
@[inline] def Fld.TIER_CH_STATUS_PRESENT : Fld := ⟨30, 30⟩
@[inline] def Fld.TIER_CH_STATUS_LOCKED : Fld := ⟨29, 29⟩
@[inline] def Fld.TIER_CH_STATUS_LOCK_OWNER : Fld := ⟨28, 26⟩
@[inline] def Fld.TIER_CH_STATUS_OFFSET : Fld := ⟨25, 23⟩
/-- TIER_CH_CTRL (R638). -/
def Reg.TIER_CH_CTRL (i : Nat) : Nat := 0x00F00104 + 4096 * i
@[inline] def Fld.TIER_CH_CTRL_CNT_CLEAR : Fld := ⟨0, 0⟩
/-- TIER_ARB_WEIGHT (R591). -/
def Reg.TIER_ARB_WEIGHT (i j : Nat) : Nat := 0x00F00140 + 4096 * i + 0x4 * j
@[inline] def Fld.TIER_ARB_WEIGHT_WEIGHT : Fld := ⟨7, 0⟩
/-- TIER_ARB_CREDIT (R593). -/
def Reg.TIER_ARB_CREDIT (i j : Nat) : Nat := 0x00F00160 + 4096 * i + 0x4 * j
@[inline] def Fld.TIER_ARB_CREDIT_CREDIT : Fld := ⟨23, 0⟩
/-- Counter GRANTS (R638). -/
def Cnt.TIER_CLIENT_GRANTS (i j : Nat) : Nat := 0x00F00200 + 4096 * i + 0x20 * j
/-- Counter BEATS (R638). -/
def Cnt.TIER_CLIENT_BEATS (i j : Nat) : Nat := 0x00F00200 + 4096 * i + 0x20 * j + 8
/-- Counter LOSSES (R638). -/
def Cnt.TIER_CLIENT_LOSSES (i j : Nat) : Nat := 0x00F00200 + 4096 * i + 0x20 * j + 16
/-- Counter BACKOFF_CYCLES (R638). -/
def Cnt.TIER_CLIENT_BACKOFF_CYCLES (i j : Nat) : Nat := 0x00F00200 + 4096 * i + 0x20 * j + 24
/-- Counter CE (R638). -/
def Cnt.TIER_CHAN_CE (i : Nat) : Nat := 0x00F00300 + 4096 * i
/-- Counter UE (R638). -/
def Cnt.TIER_CHAN_UE (i : Nat) : Nat := 0x00F00300 + 4096 * i + 8
/-- Counter LOCK_BREAKS (R638). -/
def Cnt.TIER_CHAN_LOCK_BREAKS (i : Nat) : Nat := 0x00F00300 + 4096 * i + 16
/-- Counter QUEUE_FULL (R638). -/
def Cnt.TIER_CHAN_QUEUE_FULL (i : Nat) : Nat := 0x00F00300 + 4096 * i + 24
/-- DEL_CTRL (R654). -/
def Reg.DEL_CTRL : Nat := 0x01000100
@[inline] def Fld.DEL_CTRL_ARCH_EN : Fld := ⟨31, 31⟩
@[inline] def Fld.DEL_CTRL_SPINE_REC : Fld := ⟨30, 30⟩
@[inline] def Fld.DEL_CTRL_EVENT_RING : Fld := ⟨23, 16⟩
@[inline] def Fld.DEL_CTRL_CNT_CLEAR : Fld := ⟨0, 0⟩
/-- DEL_STATUS (R641). -/
def Reg.DEL_STATUS : Nat := 0x01000104
@[inline] def Fld.DEL_STATUS_ARCH_READY : Fld := ⟨4, 4⟩
@[inline] def Fld.DEL_STATUS_UNALIGNED : Fld := ⟨3, 3⟩
@[inline] def Fld.DEL_STATUS_OPEN_WINDOWS : Fld := ⟨2, 0⟩
/-- DEL_WINDOW (R639). -/
def Reg.DEL_WINDOW : Nat := 0x01000108
@[inline] def Fld.DEL_WINDOW_WIN_US : Fld := ⟨31, 12⟩
@[inline] def Fld.DEL_WINDOW_GRACE : Fld := ⟨11, 0⟩
/-- DEL_ARCH_RATE (R660). -/
def Reg.DEL_ARCH_RATE : Nat := 0x0100010C
@[inline] def Fld.DEL_ARCH_RATE_RATE : Fld := ⟨7, 0⟩
/-- DEL_ARCH_SEG (R656). -/
def Reg.DEL_ARCH_SEG : Nat := 0x01000110
@[inline] def Fld.DEL_ARCH_SEG_SEG_MAX_MS : Fld := ⟨15, 8⟩
@[inline] def Fld.DEL_ARCH_SEG_LOG2_MIB : Fld := ⟨2, 0⟩
/-- DEL_ARCH_HEAD (R656). -/
def Reg.DEL_ARCH_HEAD : Nat := 0x01000118
@[inline] def Fld.DEL_ARCH_HEAD_OFFSET : Fld := ⟨63, 0⟩
/-- DEL_ARCH_SEQ (R658). -/
def Reg.DEL_ARCH_SEQ : Nat := 0x01000120
@[inline] def Fld.DEL_ARCH_SEQ_SEQ : Fld := ⟨63, 0⟩
/-- Counter RECORDS (R682). -/
def Cnt.DEL_RECORDS : Nat := 0x01000200
/-- Counter LATE (R682). -/
def Cnt.DEL_LATE : Nat := 0x01000200 + 8
/-- Counter EARLY (R682). -/
def Cnt.DEL_EARLY : Nat := 0x01000200 + 16
/-- Counter NO_GROUP (R682). -/
def Cnt.DEL_NO_GROUP : Nat := 0x01000200 + 24
/-- Counter DUP (R682). -/
def Cnt.DEL_DUP : Nat := 0x01000200 + 32
/-- Counter OVERRUN (R682). -/
def Cnt.DEL_OVERRUN : Nat := 0x01000200 + 40
/-- Counter BAD_RECORD (R682). -/
def Cnt.DEL_BAD_RECORD : Nat := 0x01000200 + 48
/-- Counter UNALIGNED_REC (R682). -/
def Cnt.DEL_UNALIGNED_REC : Nat := 0x01000200 + 56
/-- Counter RAW_KEPT (R682). -/
def Cnt.DEL_RAW_KEPT : Nat := 0x01000200 + 64
/-- Counter RESULTS (R682). -/
def Cnt.DEL_RESULTS : Nat := 0x01000200 + 72
/-- Counter SEGMENTS (R682). -/
def Cnt.DEL_SEGMENTS : Nat := 0x01000200 + 80
/-- Counter ARCH_DROP (R682). -/
def Cnt.DEL_ARCH_DROP : Nat := 0x01000200 + 88
/-- DEL_FROST_CTRL (R670). -/
def Reg.DEL_FROST_CTRL : Nat := 0x01001100
@[inline] def Fld.DEL_FROST_CTRL_FROST_MAX : Fld := ⟨31, 16⟩
@[inline] def Fld.DEL_FROST_CTRL_OUT_WIDTH : Fld := ⟨15, 8⟩
@[inline] def Fld.DEL_FROST_CTRL_IN_MODE : Fld := ⟨3, 3⟩
@[inline] def Fld.DEL_FROST_CTRL_OUT_EN : Fld := ⟨2, 2⟩
@[inline] def Fld.DEL_FROST_CTRL_CNT_CLEAR : Fld := ⟨0, 0⟩
/-- DEL_FROST_STATUS (R662). -/
def Reg.DEL_FROST_STATUS : Nat := 0x01001104
@[inline] def Fld.DEL_FROST_STATUS_FROST_SEQ : Fld := ⟨31, 16⟩
@[inline] def Fld.DEL_FROST_STATUS_STEPPED : Fld := ⟨4, 4⟩
@[inline] def Fld.DEL_FROST_STATUS_MODE : Fld := ⟨3, 3⟩
@[inline] def Fld.DEL_FROST_STATUS_STATE : Fld := ⟨2, 0⟩
/-- DEL_FIN_CTRL (R663). -/
def Reg.DEL_FIN_CTRL : Nat := 0x01001108
@[inline] def Fld.DEL_FIN_CTRL_ENABLE : Fld := ⟨31, 31⟩
@[inline] def Fld.DEL_FIN_CTRL_POLARITY : Fld := ⟨30, 30⟩
@[inline] def Fld.DEL_FIN_CTRL_DELAY_US : Fld := ⟨23, 12⟩
@[inline] def Fld.DEL_FIN_CTRL_ALIGN_US : Fld := ⟨11, 0⟩
/-- DEL_FIN_STATUS (R663). -/
def Reg.DEL_FIN_STATUS : Nat := 0x0100110C
@[inline] def Fld.DEL_FIN_STATUS_STUCK : Fld := ⟨31, 31⟩
@[inline] def Fld.DEL_FIN_STATUS_CAPTURED : Fld := ⟨30, 30⟩
@[inline] def Fld.DEL_FIN_STATUS_IGNORED : Fld := ⟨15, 0⟩
/-- DEL_FROST_TIME (R662). -/
def Reg.DEL_FROST_TIME : Nat := 0x01001110
@[inline] def Fld.DEL_FROST_TIME_TIME : Fld := ⟨63, 0⟩
/-- DEL_THAW_TIME (R670). -/
def Reg.DEL_THAW_TIME : Nat := 0x01001118
@[inline] def Fld.DEL_THAW_TIME_TIME : Fld := ⟨63, 0⟩
/-- DEL_FIN_CAPT (R663). -/
def Reg.DEL_FIN_CAPT : Nat := 0x01001120
@[inline] def Fld.DEL_FIN_CAPT_TIME : Fld := ⟨63, 0⟩
/-- DEL_TRACE_CTRL (R677). -/
def Reg.DEL_TRACE_CTRL : Nat := 0x01001140
@[inline] def Fld.DEL_TRACE_CTRL_SPILL_RATE : Fld := ⟨31, 24⟩
@[inline] def Fld.DEL_TRACE_CTRL_POST_KENT : Fld := ⟨23, 8⟩
@[inline] def Fld.DEL_TRACE_CTRL_POLICY : Fld := ⟨2, 2⟩
@[inline] def Fld.DEL_TRACE_CTRL_TRIGGER : Fld := ⟨1, 1⟩
@[inline] def Fld.DEL_TRACE_CTRL_ARM : Fld := ⟨0, 0⟩
/-- DEL_TRACE_STATUS (R675). -/
def Reg.DEL_TRACE_STATUS : Nat := 0x01001144
@[inline] def Fld.DEL_TRACE_STATUS_STATE : Fld := ⟨31, 30⟩
@[inline] def Fld.DEL_TRACE_STATUS_FULL : Fld := ⟨29, 29⟩
@[inline] def Fld.DEL_TRACE_STATUS_SPILLING : Fld := ⟨28, 28⟩
@[inline] def Fld.DEL_TRACE_STATUS_PRE_ENTRIES : Fld := ⟨15, 0⟩
/-- DEL_TRACE_FILTER (R673). -/
def Reg.DEL_TRACE_FILTER : Nat := 0x01001148
@[inline] def Fld.DEL_TRACE_FILTER_MIN_SEV : Fld := ⟨9, 8⟩
@[inline] def Fld.DEL_TRACE_FILTER_KINDS : Fld := ⟨7, 0⟩
/-- DEL_TRACE_TRIG (R675). -/
def Reg.DEL_TRACE_TRIG : Nat := 0x0100114C
@[inline] def Fld.DEL_TRACE_TRIG_ON_FROST : Fld := ⟨31, 31⟩
@[inline] def Fld.DEL_TRACE_TRIG_KIND : Fld := ⟨23, 16⟩
@[inline] def Fld.DEL_TRACE_TRIG_CODE : Fld := ⟨15, 0⟩
/-- DEL_TRACE_AREA (R655). -/
def Reg.DEL_TRACE_AREA : Nat := 0x01001150
@[inline] def Fld.DEL_TRACE_AREA_SIZE : Fld := ⟨15, 0⟩
/-- DEL_TRACE_TRIG_TIME (R675). -/
def Reg.DEL_TRACE_TRIG_TIME : Nat := 0x01001158
@[inline] def Fld.DEL_TRACE_TRIG_TIME_TIME : Fld := ⟨63, 0⟩
/-- DEL_TRACE_MARK (R673). -/
def Reg.DEL_TRACE_MARK : Nat := 0x01001160
@[inline] def Fld.DEL_TRACE_MARK_MARK : Fld := ⟨127, 0⟩
/-- Counter FROSTS (R683). -/
def Cnt.DEL_FROST_FROSTS : Nat := 0x01001200
/-- Counter THAWS (R683). -/
def Cnt.DEL_FROST_THAWS : Nat := 0x01001200 + 8
/-- Counter AUTO_THAWS (R683). -/
def Cnt.DEL_FROST_AUTO_THAWS : Nat := 0x01001200 + 16
/-- Counter SNAPSHOTS (R683). -/
def Cnt.DEL_FROST_SNAPSHOTS : Nat := 0x01001200 + 24
/-- Counter TRACE_ENTRIES (R683). -/
def Cnt.DEL_FROST_TRACE_ENTRIES : Nat := 0x01001200 + 32
/-- Counter TRACE_DROPPED (R683). -/
def Cnt.DEL_FROST_TRACE_DROPPED : Nat := 0x01001200 + 40
/-- Counter TRACE_OVERRUN (R683). -/
def Cnt.DEL_FROST_TRACE_OVERRUN : Nat := 0x01001200 + 48
/-- Counter SPILLED (R683). -/
def Cnt.DEL_FROST_SPILLED : Nat := 0x01001200 + 56
/-- BARO_CTRL (R704). -/
def Reg.BARO_CTRL : Nat := 0x01100100
@[inline] def Fld.BARO_CTRL_AUTO_FENCE : Fld := ⟨31, 31⟩
@[inline] def Fld.BARO_CTRL_PEER_SYNC : Fld := ⟨30, 30⟩
@[inline] def Fld.BARO_CTRL_TILE_MARGIN : Fld := ⟨29, 29⟩
@[inline] def Fld.BARO_CTRL_EVENT_RING : Fld := ⟨23, 16⟩
@[inline] def Fld.BARO_CTRL_CNT_CLEAR : Fld := ⟨0, 0⟩
/-- BARO_STATUS (R706). -/
def Reg.BARO_STATUS : Nat := 0x01100104
@[inline] def Fld.BARO_STATUS_STORM : Fld := ⟨31, 31⟩
@[inline] def Fld.BARO_STATUS_FENCES : Fld := ⟨28, 16⟩
@[inline] def Fld.BARO_STATUS_HELD : Fld := ⟨8, 0⟩
/-- BARO_BUDGET (R704). -/
def Reg.BARO_BUDGET : Nat := 0x01100108
@[inline] def Fld.BARO_BUDGET_BUDGET_N : Fld := ⟨31, 24⟩
@[inline] def Fld.BARO_BUDGET_BUDGET_S : Fld := ⟨23, 8⟩
@[inline] def Fld.BARO_BUDGET_USED : Fld := ⟨3, 0⟩
/-- BARO_PARENT (R694). -/
def Reg.BARO_PARENT : Nat := 0x0110010C
@[inline] def Fld.BARO_PARENT_PARENT_MIN : Fld := ⟨31, 24⟩
@[inline] def Fld.BARO_PARENT_PARENT_WIN_MS : Fld := ⟨23, 8⟩
@[inline] def Fld.BARO_PARENT_SHIELD_S : Fld := ⟨7, 0⟩
/-- BARO_SQUALL (R714). -/
def Reg.BARO_SQUALL : Nat := 0x01100110
@[inline] def Fld.BARO_SQUALL_HOLD_MS : Fld := ⟨31, 16⟩
/-- BARO_STRAG (R692). -/
def Reg.BARO_STRAG : Nat := 0x01100114
@[inline] def Fld.BARO_STRAG_STRAG_MIN : Fld := ⟨7, 0⟩
/-- BARO_DRIFT (R693). -/
def Reg.BARO_DRIFT : Nat := 0x01100118
@[inline] def Fld.BARO_DRIFT_SLOPE : Fld := ⟨15, 0⟩
/-- BARO_NOTIFY (R708). -/
def Reg.BARO_NOTIFY : Nat := 0x0110011C
@[inline] def Fld.BARO_NOTIFY_GROUP : Fld := ⟨19, 0⟩
/-- BARO_FENCE_EPOCH (R698). -/
def Reg.BARO_FENCE_EPOCH : Nat := 0x01100120
@[inline] def Fld.BARO_FENCE_EPOCH_EPOCH : Fld := ⟨31, 0⟩
/-- Counter EVALUATIONS (R719). -/
def Cnt.BARO_EVALUATIONS : Nat := 0x01100200
/-- Counter RECOMMENDATIONS (R719). -/
def Cnt.BARO_RECOMMENDATIONS : Nat := 0x01100200 + 8
/-- Counter FENCES_APPLIED (R719). -/
def Cnt.BARO_FENCES_APPLIED : Nat := 0x01100200 + 16
/-- Counter PEER_FENCES (R719). -/
def Cnt.BARO_PEER_FENCES : Nat := 0x01100200 + 24
/-- Counter UNFENCES (R719). -/
def Cnt.BARO_UNFENCES : Nat := 0x01100200 + 32
/-- Counter HOLDS (R719). -/
def Cnt.BARO_HOLDS : Nat := 0x01100200 + 40
/-- Counter HOLD_FULL (R719). -/
def Cnt.BARO_HOLD_FULL : Nat := 0x01100200 + 48
/-- Counter STORMS (R719). -/
def Cnt.BARO_STORMS : Nat := 0x01100200 + 56
/-- Counter PARENT_BLAMES (R719). -/
def Cnt.BARO_PARENT_BLAMES : Nat := 0x01100200 + 64
/-- Counter SQUALLS (R719). -/
def Cnt.BARO_SQUALLS : Nat := 0x01100200 + 72
/-- Counter SQUALLS_SUPPRESSED (R719). -/
def Cnt.BARO_SQUALLS_SUPPRESSED : Nat := 0x01100200 + 80
/-- Counter LIST_FULL (R719). -/
def Cnt.BARO_LIST_FULL : Nat := 0x01100200 + 88
/-- Counter BAD_FENCE (R719). -/
def Cnt.BARO_BAD_FENCE : Nat := 0x01100200 + 96
/-- BARO_KIND_WATCH (R689). -/
def Reg.BARO_KIND_WATCH (j : Nat) : Nat := 0x01101100 + 0x10 * j
@[inline] def Fld.BARO_KIND_WATCH_WATCH : Fld := ⟨31, 0⟩
/-- BARO_KIND_FENCE (R689). -/
def Reg.BARO_KIND_FENCE (j : Nat) : Nat := 0x01101104 + 0x10 * j
@[inline] def Fld.BARO_KIND_FENCE_FENCE : Fld := ⟨31, 0⟩
/-- BARO_KIND_CFG (R689). -/
def Reg.BARO_KIND_CFG (j : Nat) : Nat := 0x01101108 + 0x10 * j
@[inline] def Fld.BARO_KIND_CFG_DECAY : Fld := ⟨4, 0⟩
/-- BARO_WEIGHT (R688). -/
def Reg.BARO_WEIGHT (j : Nat) : Nat := 0x01101400 + 0x4 * j
@[inline] def Fld.BARO_WEIGHT_WEIGHT : Fld := ⟨15, 0⟩
/-- CHK_CTRL (R733). -/
def Reg.CHK_CTRL : Nat := 0x01200100
@[inline] def Fld.CHK_CTRL_IFT_EN : Fld := ⟨31, 31⟩
@[inline] def Fld.CHK_CTRL_XDIE_SHADOW : Fld := ⟨30, 30⟩
@[inline] def Fld.CHK_CTRL_CNT_CLEAR : Fld := ⟨0, 0⟩
/-- CHK_STATUS (R727). -/
def Reg.CHK_STATUS : Nat := 0x01200104
@[inline] def Fld.CHK_STATUS_QDEPTH1 : Fld := ⟨31, 24⟩
@[inline] def Fld.CHK_STATUS_QDEPTH0 : Fld := ⟨23, 16⟩
@[inline] def Fld.CHK_STATUS_SPARE1 : Fld := ⟨3, 2⟩
@[inline] def Fld.CHK_STATUS_SPARE0 : Fld := ⟨1, 0⟩
/-- CHK_IFT_CFG (R736). -/
def Reg.CHK_IFT_CFG : Nat := 0x01200108
@[inline] def Fld.CHK_IFT_CFG_WAIT_MIN : Fld := ⟨31, 16⟩
@[inline] def Fld.CHK_IFT_CFG_HOURS : Fld := ⟨15, 0⟩
/-- CHK_IFT_RESULT (R734). -/
def Reg.CHK_IFT_RESULT : Nat := 0x0120010C
@[inline] def Fld.CHK_IFT_RESULT_UNIT : Fld := ⟨31, 16⟩
@[inline] def Fld.CHK_IFT_RESULT_RESULT : Fld := ⟨1, 0⟩
/-- CHK_IFT_TIME (R734). -/
def Reg.CHK_IFT_TIME : Nat := 0x01200110
@[inline] def Fld.CHK_IFT_TIME_TIME : Fld := ⟨63, 0⟩
/-- Counter CHECKS (R743). -/
def Cnt.CHK_CHECKS : Nat := 0x01200200
/-- Counter CHECKS_XDIE (R743). -/
def Cnt.CHK_CHECKS_XDIE : Nat := 0x01200200 + 8
/-- Counter CHECKS_UNSPARED (R743). -/
def Cnt.CHK_CHECKS_UNSPARED : Nat := 0x01200200 + 16
/-- Counter SHADOW_BACKOFFS (R743). -/
def Cnt.CHK_SHADOW_BACKOFFS : Nat := 0x01200200 + 24
/-- Counter SUBSTITUTIONS (R743). -/
def Cnt.CHK_SUBSTITUTIONS : Nat := 0x01200200 + 32
/-- Counter TIMESHARES (R743). -/
def Cnt.CHK_TIMESHARES : Nat := 0x01200200 + 40
/-- Counter IFT_RUN (R743). -/
def Cnt.CHK_IFT_RUN : Nat := 0x01200200 + 48
/-- Counter IFT_FAIL (R743). -/
def Cnt.CHK_IFT_FAIL : Nat := 0x01200200 + 56
/-- Counter IFT_THROTTLED (R743). -/
def Cnt.CHK_IFT_THROTTLED : Nat := 0x01200200 + 64
/-- Counter MARGIN_STEPS (R743). -/
def Cnt.CHK_MARGIN_STEPS : Nat := 0x01200200 + 72
/-- CHK_FEN_MAP (R722). -/
def Reg.CHK_FEN_MAP (j c : Nat) : Nat := 0x01201100 + 0x40 * j + 0x4 * c
@[inline] def Fld.CHK_FEN_MAP_MODE : Fld := ⟨31, 30⟩
@[inline] def Fld.CHK_FEN_MAP_PARTNER : Fld := ⟨11, 8⟩
@[inline] def Fld.CHK_FEN_MAP_PHYS : Fld := ⟨5, 0⟩
/-- CHK_PEAT_ROW (R723). -/
def Reg.CHK_PEAT_ROW (j : Nat) : Nat := 0x01202100 + 0x4 * j
@[inline] def Fld.CHK_PEAT_ROW_SPARED : Fld := ⟨31, 31⟩
@[inline] def Fld.CHK_PEAT_ROW_TESTING : Fld := ⟨30, 30⟩
@[inline] def Fld.CHK_PEAT_ROW_SKIP : Fld := ⟨4, 0⟩
/-- CHK_ERGAN (R725). -/
def Reg.CHK_ERGAN (j : Nat) : Nat := 0x01203100 + 0x4 * j
@[inline] def Fld.CHK_ERGAN_DEGRADED : Fld := ⟨31, 31⟩
@[inline] def Fld.CHK_ERGAN_FAILED : Fld := ⟨24, 16⟩
@[inline] def Fld.CHK_ERGAN_SPARE_FOR : Fld := ⟨3, 0⟩
/-- CHK_MARGIN (R730). -/
def Reg.CHK_MARGIN (j : Nat) : Nat := 0x01204100 + 0x4 * j
@[inline] def Fld.CHK_MARGIN_PENDING : Fld := ⟨7, 7⟩
@[inline] def Fld.CHK_MARGIN_STEP : Fld := ⟨2, 0⟩
/-- PMC_CTRL (R751). -/
def Reg.PMC_CTRL : Nat := 0x01300100
@[inline] def Fld.PMC_CTRL_TAG_SEED : Fld := ⟨31, 16⟩
@[inline] def Fld.PMC_CTRL_CNT_CLEAR : Fld := ⟨0, 0⟩
/-- PMC_STATUS (R748). -/
def Reg.PMC_STATUS : Nat := 0x01300104
@[inline] def Fld.PMC_STATUS_SLOT_REFUSED : Fld := ⟨31, 31⟩
@[inline] def Fld.PMC_STATUS_TAG_UNREAD : Fld := ⟨16, 0⟩
/-- PMC_TAG_CAP (R755). -/
def Reg.PMC_TAG_CAP : Nat := 0x01300108
@[inline] def Fld.PMC_TAG_CAP_BURST : Fld := ⟨31, 16⟩
@[inline] def Fld.PMC_TAG_CAP_RATE : Fld := ⟨8, 0⟩
/-- PMC_MIRE_CFG (R759). -/
def Reg.PMC_MIRE_CFG : Nat := 0x0130010C
@[inline] def Fld.PMC_MIRE_CFG_MIRE_EN : Fld := ⟨31, 31⟩
@[inline] def Fld.PMC_MIRE_CFG_COLLECTOR : Fld := ⟨23, 16⟩
@[inline] def Fld.PMC_MIRE_CFG_PERIOD_MS : Fld := ⟨15, 8⟩
@[inline] def Fld.PMC_MIRE_CFG_WAIT_US : Fld := ⟨7, 0⟩
/-- Counter TAGGED (R766). -/
def Cnt.PMC_TAGGED : Nat := 0x01300200
/-- Counter TAG_RECORDS (R766). -/
def Cnt.PMC_TAG_RECORDS : Nat := 0x01300200 + 8
/-- Counter TAG_CAPPED (R766). -/
def Cnt.PMC_TAG_CAPPED : Nat := 0x01300200 + 16
/-- Counter TAG_LOST (R766). -/
def Cnt.PMC_TAG_LOST : Nat := 0x01300200 + 24
/-- Counter MIRE_ROUNDS (R766). -/
def Cnt.PMC_MIRE_ROUNDS : Nat := 0x01300200 + 32
/-- Counter MIRE_CYCLES (R766). -/
def Cnt.PMC_MIRE_CYCLES : Nat := 0x01300200 + 40
/-- PMC_SLOT_CFG (R748). -/
def Reg.PMC_SLOT_CFG (j : Nat) : Nat := 0x01301100 + 0x10 * j
@[inline] def Fld.PMC_SLOT_CFG_ENABLE : Fld := ⟨63, 63⟩
@[inline] def Fld.PMC_SLOT_CFG_OPEN : Fld := ⟨62, 62⟩
@[inline] def Fld.PMC_SLOT_CFG_WIN : Fld := ⟨61, 56⟩
@[inline] def Fld.PMC_SLOT_CFG_EVENT : Fld := ⟨55, 48⟩
@[inline] def Fld.PMC_SLOT_CFG_CLASS_MASK : Fld := ⟨47, 40⟩
@[inline] def Fld.PMC_SLOT_CFG_SCOPE : Fld := ⟨39, 28⟩
/-- Counter PMC_SLOT_CNT (R744). -/
def Cnt.PMC_SLOT_CNT (j : Nat) : Nat := 0x01301108 + 0x10 * j
/-- PMC_TAG_PORT (R751). -/
def Reg.PMC_TAG_PORT (j : Nat) : Nat := 0x01302100 + 0x4 * j
@[inline] def Fld.PMC_TAG_PORT_RX_EN : Fld := ⟨31, 31⟩
@[inline] def Fld.PMC_TAG_PORT_HONOUR_IN : Fld := ⟨30, 30⟩
@[inline] def Fld.PMC_TAG_PORT_LOG2_M : Fld := ⟨20, 16⟩
@[inline] def Fld.PMC_TAG_PORT_CLASS_MASK : Fld := ⟨7, 0⟩
/-- PMC_WAIT (R758). -/
def Reg.PMC_WAIT (j : Nat) : Nat := 0x01303100 + 0x4 * j
@[inline] def Fld.PMC_WAIT_BLOCKED : Fld := ⟨7, 0⟩
/-- SEC_STATUS (R789). -/
def Reg.SEC_STATUS : Nat := 0x01400100
@[inline] def Fld.SEC_STATUS_UNLOCKED : Fld := ⟨31, 31⟩
@[inline] def Fld.SEC_STATUS_SCOPE : Fld := ⟨23, 16⟩
@[inline] def Fld.SEC_STATUS_REFRESH_ARMED : Fld := ⟨15, 15⟩
/-- SEC_UNIT_ID (R770). -/
def Reg.SEC_UNIT_ID : Nat := 0x01400110
@[inline] def Fld.SEC_UNIT_ID_UNIT_ID : Fld := ⟨127, 0⟩
/-- SEC_COUNTER (R768). -/
def Reg.SEC_COUNTER (j : Nat) : Nat := 0x01400120 + 0x4 * j
@[inline] def Fld.SEC_COUNTER_VALUE : Fld := ⟨31, 0⟩
/-- SEC_ATT_PUB (R786). -/
def Reg.SEC_ATT_PUB : Nat := 0x01400140
@[inline] def Fld.SEC_ATT_PUB_PUB : Fld := ⟨511, 0⟩
/-- SEC_CHALLENGE (R789). -/
def Reg.SEC_CHALLENGE : Nat := 0x01400180
@[inline] def Fld.SEC_CHALLENGE_CHALLENGE : Fld := ⟨31, 0⟩
/-- CFG_ID (R2). -/
def Reg.CFG_ID : Nat := 0x01500100
@[inline] def Fld.CFG_ID_PART : Fld := ⟨31, 16⟩
@[inline] def Fld.CFG_ID_STEPPING : Fld := ⟨15, 8⟩
/-- CFG_STATUS (R781). -/
def Reg.CFG_STATUS : Nat := 0x01500104
@[inline] def Fld.CFG_STATUS_RECOVERY : Fld := ⟨31, 31⟩
@[inline] def Fld.CFG_STATUS_TAKEOVER_PENDING : Fld := ⟨30, 30⟩
@[inline] def Fld.CFG_STATUS_TRIAL : Fld := ⟨29, 29⟩
@[inline] def Fld.CFG_STATUS_ACTIVE_HALF : Fld := ⟨28, 28⟩
@[inline] def Fld.CFG_STATUS_STANDBY_READY : Fld := ⟨27, 27⟩
@[inline] def Fld.CFG_STATUS_BOOT_SLOT : Fld := ⟨21, 21⟩
@[inline] def Fld.CFG_STATUS_RUN_SLOT : Fld := ⟨20, 20⟩
@[inline] def Fld.CFG_STATUS_SETTINGS_OK : Fld := ⟨11, 11⟩
@[inline] def Fld.CFG_STATUS_SITE_REC_OK : Fld := ⟨10, 10⟩
@[inline] def Fld.CFG_STATUS_UNIT_REC_OK : Fld := ⟨9, 9⟩
@[inline] def Fld.CFG_STATUS_PUF_OK : Fld := ⟨8, 8⟩
@[inline] def Fld.CFG_STATUS_OPTICS_FULL : Fld := ⟨7, 7⟩
@[inline] def Fld.CFG_STATUS_TIER2 : Fld := ⟨6, 6⟩
@[inline] def Fld.CFG_STATUS_PEAT_ATTEND : Fld := ⟨5, 5⟩
@[inline] def Fld.CFG_STATUS_FEN_EXACT : Fld := ⟨4, 4⟩
@[inline] def Fld.CFG_STATUS_FEN_FP32 : Fld := ⟨3, 3⟩
@[inline] def Fld.CFG_STATUS_TIER1 : Fld := ⟨2, 2⟩
@[inline] def Fld.CFG_STATUS_FW_RUNNING : Fld := ⟨0, 0⟩
/-- CFG_IMAGE (R773). -/
def Reg.CFG_IMAGE : Nat := 0x01500108
@[inline] def Fld.CFG_IMAGE_VERSION : Fld := ⟨31, 0⟩
/-- CFG_RESET_CAUSE (R784). -/
def Reg.CFG_RESET_CAUSE : Nat := 0x0150010C
@[inline] def Fld.CFG_RESET_CAUSE_WHY : Fld := ⟨7, 4⟩
@[inline] def Fld.CFG_RESET_CAUSE_CAUSE : Fld := ⟨1, 0⟩
/-- CFG_TAKEOVER_TIME (R795). -/
def Reg.CFG_TAKEOVER_TIME : Nat := 0x01500110
@[inline] def Fld.CFG_TAKEOVER_TIME_TIME : Fld := ⟨63, 0⟩
/-- Counter STAGES (R815). -/
def Cnt.CFG_STAGES : Nat := 0x01500200
/-- Counter TAKEOVERS (R815). -/
def Cnt.CFG_TAKEOVERS : Nat := 0x01500200 + 8
/-- Counter ROLLBACKS (R815). -/
def Cnt.CFG_ROLLBACKS : Nat := 0x01500200 + 16
/-- Counter CHAIN_SKIPS (R815). -/
def Cnt.CFG_CHAIN_SKIPS : Nat := 0x01500200 + 24
/-- Counter REUSES (R815). -/
def Cnt.CFG_REUSES : Nat := 0x01500200 + 32
/-- Counter BCAST_RESENDS (R815). -/
def Cnt.CFG_BCAST_RESENDS : Nat := 0x01500200 + 40
/-- PWR_CTRL (R841). -/
def Reg.PWR_CTRL : Nat := 0x01600100
@[inline] def Fld.PWR_CTRL_THROTTLE_EN : Fld := ⟨1, 1⟩
@[inline] def Fld.PWR_CTRL_CNT_CLEAR : Fld := ⟨0, 0⟩
/-- PWR_STATUS (R842). -/
def Reg.PWR_STATUS : Nat := 0x01600104
@[inline] def Fld.PWR_STATUS_TRIPPED : Fld := ⟨31, 31⟩
@[inline] def Fld.PWR_STATUS_THROTTLING : Fld := ⟨30, 30⟩
@[inline] def Fld.PWR_STATUS_ALERT : Fld := ⟨29, 29⟩
@[inline] def Fld.PWR_STATUS_RAIL_FAULT : Fld := ⟨9, 0⟩
/-- PWR_ALERT_SRC (R844). -/
def Reg.PWR_ALERT_SRC : Nat := 0x01600108
@[inline] def Fld.PWR_ALERT_SRC_SRC : Fld := ⟨5, 0⟩
/-- PWR_ALERT_MASK (R844). -/
def Reg.PWR_ALERT_MASK : Nat := 0x0160010C
@[inline] def Fld.PWR_ALERT_MASK_MASK : Fld := ⟨5, 0⟩
/-- PWR_CX_POWER (R840). -/
def Reg.PWR_CX_POWER : Nat := 0x01600110
@[inline] def Fld.PWR_CX_POWER_POWER : Fld := ⟨15, 0⟩
/-- PWR_PKG_POWER (R840). -/
def Reg.PWR_PKG_POWER : Nat := 0x01600114
@[inline] def Fld.PWR_PKG_POWER_POWER : Fld := ⟨15, 0⟩
/-- PWR_ALERT_FORCE (R844). -/
def Reg.PWR_ALERT_FORCE : Nat := 0x01600118
@[inline] def Fld.PWR_ALERT_FORCE_FORCE : Fld := ⟨0, 0⟩
/-- PWR_TEMP (R840). -/
def Reg.PWR_TEMP (j : Nat) : Nat := 0x01600120 + 0x4 * j
@[inline] def Fld.PWR_TEMP_PEAK : Fld := ⟨31, 16⟩
@[inline] def Fld.PWR_TEMP_TEMP : Fld := ⟨15, 0⟩
/-- PWR_THRESH_DIE (R841). -/
def Reg.PWR_THRESH_DIE : Nat := 0x01600180
@[inline] def Fld.PWR_THRESH_DIE_TRIP : Fld := ⟨23, 16⟩
@[inline] def Fld.PWR_THRESH_DIE_THROTTLE : Fld := ⟨15, 8⟩
@[inline] def Fld.PWR_THRESH_DIE_WARN : Fld := ⟨7, 0⟩
/-- PWR_THRESH_OE (R841). -/
def Reg.PWR_THRESH_OE : Nat := 0x01600184
@[inline] def Fld.PWR_THRESH_OE_TRIP : Fld := ⟨23, 16⟩
@[inline] def Fld.PWR_THRESH_OE_WARN : Fld := ⟨7, 0⟩
/-- PWR_RAIL (R843). -/
def Reg.PWR_RAIL (j : Nat) : Nat := 0x01600200 + 0x8 * j
@[inline] def Fld.PWR_RAIL_CURRENT : Fld := ⟨47, 32⟩
@[inline] def Fld.PWR_RAIL_VOLTAGE : Fld := ⟨15, 0⟩
/-- Counter WARN_EVENTS (R846). -/
def Cnt.PWR_WARN_EVENTS : Nat := 0x01600300
/-- Counter THROTTLE_INTERVALS (R846). -/
def Cnt.PWR_THROTTLE_INTERVALS : Nat := 0x01600300 + 8
/-- Counter RAIL_FAULTS (R846). -/
def Cnt.PWR_RAIL_FAULTS : Nat := 0x01600300 + 16
/-- Counter ALERT_ASSERTS (R846). -/
def Cnt.PWR_ALERT_ASSERTS : Nat := 0x01600300 + 24
/-- PAGE_ID (R66). -/
def Reg.PAGE_ID (p : Nat) : Nat := p * 4096 + 0x0
@[inline] def Fld.PAGE_ID_TYPE : Fld := ⟨31, 16⟩
@[inline] def Fld.PAGE_ID_INSTANCE : Fld := ⟨15, 0⟩
/-- PAGE_VER (R66). -/
def Reg.PAGE_VER (p : Nat) : Nat := p * 4096 + 0x4
@[inline] def Fld.PAGE_VER_MAJOR : Fld := ⟨31, 24⟩
@[inline] def Fld.PAGE_VER_MINOR : Fld := ⟨23, 16⟩
/-- PAGE_CTRL (R66). -/
def Reg.PAGE_CTRL (p : Nat) : Nat := p * 4096 + 0x8
@[inline] def Fld.PAGE_CTRL_LOCK : Fld := ⟨3, 3⟩
@[inline] def Fld.PAGE_CTRL_SNAP_ARM : Fld := ⟨2, 2⟩
@[inline] def Fld.PAGE_CTRL_SOFT_RESET : Fld := ⟨1, 1⟩
@[inline] def Fld.PAGE_CTRL_ENABLE : Fld := ⟨0, 0⟩
/-- PAGE_STATUS (R66). -/
def Reg.PAGE_STATUS (p : Nat) : Nat := p * 4096 + 0xC
@[inline] def Fld.PAGE_STATUS_BLOCK : Fld := ⟨15, 8⟩
@[inline] def Fld.PAGE_STATUS_PART_RESET_BUSY : Fld := ⟨4, 4⟩
@[inline] def Fld.PAGE_STATUS_SNAP_VALID : Fld := ⟨3, 3⟩
@[inline] def Fld.PAGE_STATUS_LOCKED : Fld := ⟨2, 2⟩
@[inline] def Fld.PAGE_STATUS_RESET_BUSY : Fld := ⟨1, 1⟩
@[inline] def Fld.PAGE_STATUS_ENABLED : Fld := ⟨0, 0⟩
/-- PAGE_IRQ_STATUS (R69). -/
def Reg.PAGE_IRQ_STATUS (p : Nat) : Nat := p * 4096 + 0x10
@[inline] def Fld.PAGE_IRQ_STATUS_BITS : Fld := ⟨31, 0⟩
/-- PAGE_IRQ_ENABLE (R69). -/
def Reg.PAGE_IRQ_ENABLE (p : Nat) : Nat := p * 4096 + 0x14
@[inline] def Fld.PAGE_IRQ_ENABLE_BITS : Fld := ⟨31, 0⟩
/-- PAGE_IRQ_FORCE (R69). -/
def Reg.PAGE_IRQ_FORCE (p : Nat) : Nat := p * 4096 + 0x18
@[inline] def Fld.PAGE_IRQ_FORCE_BITS : Fld := ⟨31, 0⟩
/-- PAGE_IRQ_ROUTE (R70). -/
def Reg.PAGE_IRQ_ROUTE (p : Nat) : Nat := p * 4096 + 0x1C
@[inline] def Fld.PAGE_IRQ_ROUTE_DEST : Fld := ⟨8, 8⟩
@[inline] def Fld.PAGE_IRQ_ROUTE_EVENT_RING : Fld := ⟨7, 0⟩
/-- PAGE_SNAP_CTRL (R66). -/
def Reg.PAGE_SNAP_CTRL (p : Nat) : Nat := p * 4096 + 0x20
@[inline] def Fld.PAGE_SNAP_CTRL_SOURCE : Fld := ⟨1, 0⟩
/-- PAGE_SNAP_TIME (R67). -/
def Reg.PAGE_SNAP_TIME (p : Nat) : Nat := p * 4096 + 0x28
@[inline] def Fld.PAGE_SNAP_TIME_TIME : Fld := ⟨63, 0⟩
/-- PAGE_ERR_STATUS (R71). -/
def Reg.PAGE_ERR_STATUS (p : Nat) : Nat := p * 4096 + 0x40
@[inline] def Fld.PAGE_ERR_STATUS_TOTAL : Fld := ⟨31, 16⟩
@[inline] def Fld.PAGE_ERR_STATUS_NEXT : Fld := ⟨7, 4⟩
@[inline] def Fld.PAGE_ERR_STATUS_FIRST_VALID : Fld := ⟨0, 0⟩
/-- PAGE_ERR_CLEAR (R71). -/
def Reg.PAGE_ERR_CLEAR (p : Nat) : Nat := p * 4096 + 0x44
@[inline] def Fld.PAGE_ERR_CLEAR_CLEAR : Fld := ⟨0, 0⟩
/-- PAGE_ERR_ENTRY (R71). -/
def Reg.PAGE_ERR_ENTRY (p j : Nat) : Nat := p * 4096 + 0x50 + 0x10 * j
@[inline] def Fld.PAGE_ERR_ENTRY_REPEAT : Fld := ⟨127, 112⟩
@[inline] def Fld.PAGE_ERR_ENTRY_SEVERITY : Fld := ⟨111, 104⟩
@[inline] def Fld.PAGE_ERR_ENTRY_CODE : Fld := ⟨95, 80⟩
@[inline] def Fld.PAGE_ERR_ENTRY_LOCATION : Fld := ⟨79, 64⟩
@[inline] def Fld.PAGE_ERR_ENTRY_TIME : Fld := ⟨63, 0⟩

end Sys2Proof
end

