-- ==== Sys2Proof/Machine/RegTable.lean ====
section
/-! DEFINITION. Every register of BAR0 (R53, R66, R73): its page, offset, fields, access kinds and reset values, as the
register tables of spec/ give them, and the reset word, the writable bits and the sticky bits computed from them. -/
namespace Sys2Proof

/-- The access kinds of a field (R64, R65 and the register tables). -/
inductive Acc where
  | rw | ro | w1c | w1s | wo | rwl | rc
  deriving DecidableEq, Repr

/-- One field of a register: bits [hi:lo], access, reset value (or the number of a reset rule, 0 for none),
sticky through warm reset (R68), global over its block's pages. -/
structure FieldDesc where
  hi : Nat
  lo : Nat
  acc : Acc
  rst : Nat
  fn : Nat
  sticky : Bool
  glob : Bool
  deriving DecidableEq, Repr

/-- One register or array of registers: first and last page instance, offset, two array dimensions with their strides,
size in bytes, fields. -/
structure RegDesc where
  i0 : Nat
  i1 : Nat
  off : Nat
  n1 : Nat
  s1 : Nat
  n2 : Nat
  s2 : Nat
  bytes : Nat
  fields : List FieldDesc
  deriving DecidableEq, Repr

/-- One group of counters in the format of R281. -/
structure CntDesc where
  typ : Nat
  i0 : Nat
  i1 : Nat
  off : Nat
  n1 : Nat
  s1 : Nat
  n2 : Nat
  s2 : Nat
  n3 : Nat
  s3 : Nat
  deriving DecidableEq, Repr

/-- The registers of block type 0x01, part 0. -/
def mgmtRegs0 : List RegDesc := [
  ⟨0, 0, 0x100, 1, 0, 1, 0, 4,  -- MGMT_CTRL (R107)
    [⟨0, 0, .wo, 0, 0, false, false⟩]⟩,
  ⟨0, 0, 0x104, 1, 0, 1, 0, 4,  -- MGMT_STATUS (R106)
    [⟨31, 31, .ro, 0, 0, false, false⟩, ⟨30, 30, .ro, 0, 0, false, false⟩, ⟨29, 29, .ro, 0, 0, false, false⟩, ⟨17, 9, .ro, 0, 0, false, false⟩, ⟨8, 0, .ro, 0, 0, false, false⟩]⟩,
  ⟨0, 0, 0x108, 1, 0, 1, 0, 4,  -- MGMT_MP_CFG (R103)
    [⟨31, 31, .rwl, 0, 0, false, false⟩, ⟨30, 30, .rw, 0, 0, false, false⟩, ⟨29, 28, .rw, 0, 0, false, false⟩, ⟨23, 16, .rw, 0, 0, false, false⟩]⟩,
  ⟨0, 0, 0x10C, 1, 0, 1, 0, 4,  -- MGMT_MP_SESSION (R103)
    [⟨31, 0, .ro, 0, 0, false, false⟩]⟩,
  ⟨0, 0, 0x110, 1, 0, 1, 0, 8,  -- MGMT_MP_MAC (R102)
    [⟨47, 0, .rwl, 0, 0, false, false⟩]⟩,
  ⟨0, 0, 0x118, 1, 0, 1, 0, 8,  -- MGMT_MP_DEST (R105)
    [⟨47, 0, .rw, 0, 0, false, false⟩]⟩,
  ⟨0, 0, 0x120, 1, 0, 1, 0, 4,  -- MGMT_MP_KEYS (R106)
    [⟨3, 0, .ro, 0, 0, false, false⟩]⟩]

/-- Every register of block type 0x01. -/
def mgmtRegs : List RegDesc := mgmtRegs0

/-- The registers of block type 0x02, part 0. -/
def hostRegs0 : List RegDesc := [
  ⟨0, 0, 0x100, 1, 0, 1, 0, 4,  -- HOST_LINK_STATUS (R50)
    [⟨11, 11, .ro, 0, 0, false, false⟩, ⟨10, 10, .ro, 0, 0, false, false⟩, ⟨9, 9, .ro, 0, 0, false, false⟩, ⟨8, 8, .ro, 0, 0, false, false⟩, ⟨7, 5, .ro, 0, 0, false, false⟩, ⟨4, 0, .ro, 0, 0, false, false⟩]⟩,
  ⟨0, 0, 0x104, 1, 0, 1, 0, 4,  -- HOST_RESET (R74)
    [⟨31, 0, .wo, 0, 0, false, false⟩]⟩,
  ⟨0, 0, 0x108, 1, 0, 1, 0, 4,  -- HOST_UNMAPPED_CNT (R54)
    [⟨31, 0, .rc, 0, 0, false, false⟩]⟩,
  ⟨0, 0, 0x10C, 1, 0, 1, 0, 4,  -- HOST_HDM_WR_DROP (R58)
    [⟨31, 0, .rc, 0, 0, false, false⟩]⟩,
  ⟨0, 0, 0x200, 64, 4, 1, 0, 4,  -- HOST_TW_BIND (R78)
    [⟨31, 31, .rw, 0, 0, false, false⟩, ⟨15, 0, .rw, 0, 0, false, false⟩]⟩,
  ⟨1, 4, 0x100, 64, 32, 1, 0, 8,  -- HOST_CR_BASE (R83)
    [⟨63, 12, .rw, 0, 0, false, false⟩]⟩,
  ⟨1, 4, 0x108, 64, 32, 1, 0, 8,  -- HOST_CR_TAIL_ADDR (R83)
    [⟨63, 6, .rw, 0, 0, false, false⟩]⟩,
  ⟨1, 4, 0x110, 64, 32, 1, 0, 4,  -- HOST_CR_CFG (R83)
    [⟨31, 31, .rw, 0, 0, false, false⟩, ⟨23, 16, .rw, 0, 0, false, false⟩, ⟨15, 15, .rw, 0, 0, false, false⟩, ⟨13, 8, .rw, 0, 0, false, false⟩, ⟨4, 0, .rw, 0, 0, false, false⟩]⟩,
  ⟨1, 4, 0x114, 64, 32, 1, 0, 4,  -- HOST_CR_STATUS (R88)
    [⟨31, 30, .ro, 0, 0, false, false⟩, ⟨15, 0, .ro, 0, 0, false, false⟩]⟩,
  ⟨1, 4, 0x118, 64, 32, 1, 0, 4,  -- HOST_CR_HEAD (R83)
    [⟨31, 0, .ro, 0, 0, false, false⟩]⟩,
  ⟨5, 8, 0x100, 64, 32, 1, 0, 8,  -- HOST_ER_BASE (R97)
    [⟨63, 12, .rw, 0, 0, false, false⟩]⟩,
  ⟨5, 8, 0x108, 64, 32, 1, 0, 8,  -- HOST_ER_CONS_ADDR (R96)
    [⟨63, 6, .rw, 0, 0, false, false⟩]⟩,
  ⟨5, 8, 0x110, 64, 32, 1, 0, 4,  -- HOST_ER_CFG (R89)
    [⟨31, 31, .rw, 0, 0, false, false⟩, ⟨26, 16, .rw, 0, 0, false, false⟩, ⟨15, 15, .rw, 0, 0, false, false⟩, ⟨13, 8, .rw, 0, 0, false, false⟩, ⟨4, 0, .rw, 0, 0, false, false⟩]⟩,
  ⟨5, 8, 0x114, 64, 32, 1, 0, 4,  -- HOST_ER_MOD (R100)
    [⟨31, 16, .rw, 0, 0, false, false⟩, ⟨15, 0, .rw, 1, 0, false, false⟩]⟩,
  ⟨5, 8, 0x118, 64, 32, 1, 0, 4,  -- HOST_ER_PROD (R97)
    [⟨31, 0, .ro, 0, 0, false, false⟩]⟩,
  ⟨5, 8, 0x11C, 64, 32, 1, 0, 4,  -- HOST_ER_STATUS (R98)
    [⟨31, 31, .w1c, 0, 0, false, false⟩, ⟨15, 0, .rc, 0, 0, false, false⟩]⟩,
  ⟨16, 23, 0x000, 256, 16, 1, 0, 8,  -- MSIX_ADDR (R101)
    [⟨63, 0, .rw, 0, 0, false, false⟩]⟩,
  ⟨16, 23, 0x008, 256, 16, 1, 0, 4,  -- MSIX_DATA (R101)
    [⟨31, 0, .rw, 0, 0, false, false⟩]⟩,
  ⟨16, 23, 0x00C, 256, 16, 1, 0, 4,  -- MSIX_CTRL (R101)
    [⟨0, 0, .rw, 1, 0, false, false⟩]⟩,
  ⟨24, 24, 0x000, 64, 4, 1, 0, 4,  -- MSIX_PENDING (R101)
    [⟨31, 0, .ro, 0, 0, false, false⟩]⟩]

/-- Every register of block type 0x02. -/
def hostRegs : List RegDesc := hostRegs0

/-- The registers of block type 0x03, part 0. -/
def timeRegs0 : List RegDesc := [
  ⟨0, 0, 0x100, 1, 0, 1, 0, 4,  -- TIME_CTRL (R125)
    [⟨2, 2, .wo, 0, 0, false, false⟩, ⟨1, 1, .wo, 0, 0, false, false⟩, ⟨0, 0, .rw, 1, 0, false, false⟩]⟩,
  ⟨0, 0, 0x104, 1, 0, 1, 0, 4,  -- TIME_STATUS (R125)
    [⟨15, 8, .ro, 0, 0, false, false⟩, ⟨7, 7, .ro, 0, 0, false, false⟩, ⟨6, 6, .ro, 0, 0, false, false⟩, ⟨5, 5, .w1c, 0, 0, false, false⟩, ⟨4, 4, .w1c, 0, 0, false, false⟩, ⟨2, 0, .ro, 0, 0, false, false⟩]⟩,
  ⟨0, 0, 0x108, 1, 0, 1, 0, 4,  -- TIME_MSG_DROP (R146)
    [⟨31, 0, .rc, 0, 0, false, false⟩]⟩,
  ⟨0, 0, 0x110, 1, 0, 1, 0, 16,  -- TIME_NOW (R109)
    [⟨111, 64, .ro, 0, 0, false, false⟩, ⟨61, 32, .ro, 0, 0, false, false⟩, ⟨31, 0, .ro, 0, 0, false, false⟩]⟩,
  ⟨0, 0, 0x120, 1, 0, 1, 0, 8,  -- TIME_INCR (R115)
    [⟨35, 32, .rw, 1, 0, false, false⟩, ⟨31, 0, .rw, 0x47AE147B, 0, false, false⟩]⟩,
  ⟨0, 0, 0x128, 1, 0, 1, 0, 8,  -- TIME_ADJ (R118)
    [⟨63, 16, .rw, 0, 0, false, false⟩, ⟨15, 0, .rw, 0, 0, false, false⟩]⟩,
  ⟨0, 0, 0x130, 1, 0, 1, 0, 4,  -- TIME_SLEW (R118)
    [⟨31, 0, .rw, 0x00400000, 0, false, false⟩]⟩,
  ⟨0, 0, 0x134, 1, 0, 1, 0, 4,  -- TIME_JUMP_LIMIT (R118)
    [⟨31, 0, .rwl, 100, 0, false, false⟩]⟩,
  ⟨0, 0, 0x138, 1, 0, 1, 0, 4,  -- TIME_STEP_KEY (R121)
    [⟨31, 0, .wo, 0, 0, false, false⟩]⟩,
  ⟨0, 0, 0x13C, 1, 0, 1, 0, 4,  -- TIME_HEARTBEAT (R126)
    [⟨31, 0, .wo, 0, 0, false, false⟩]⟩,
  ⟨0, 0, 0x140, 1, 0, 1, 0, 4,  -- TIME_HOLD_WIN (R125)
    [⟨31, 0, .rw, 4000, 0, false, false⟩]⟩,
  ⟨0, 0, 0x144, 1, 0, 1, 0, 4,  -- TIME_HOLDOVER_MAX (R125)
    [⟨31, 0, .rw, 20000, 0, false, false⟩]⟩,
  ⟨0, 0, 0x148, 1, 0, 1, 0, 4,  -- TIME_PARK_MAX (R129)
    [⟨31, 0, .rw, 2048, 0, false, false⟩]⟩,
  ⟨0, 0, 0x14C, 1, 0, 1, 0, 4,  -- TIME_RESUME_GAP (R132)
    [⟨31, 0, .rw, 1000, 0, false, false⟩]⟩,
  ⟨0, 0, 0x150, 1, 0, 1, 0, 8,  -- TIME_RESUME_TIME (R132)
    [⟨63, 0, .ro, 0, 0, false, false⟩]⟩,
  ⟨0, 0, 0x158, 1, 0, 1, 0, 4,  -- TIME_ROLE (R150)
    [⟨23, 16, .rwl, 0, 0, false, false⟩, ⟨15, 12, .rwl, 10, 0, false, false⟩, ⟨11, 8, .rwl, 6, 0, false, false⟩, ⟨5, 4, .rwl, 0, 0, false, false⟩, ⟨3, 2, .rwl, 0, 0, false, false⟩, ⟨1, 0, .rwl, 0, 0, false, false⟩]⟩,
  ⟨0, 0, 0x160, 1, 0, 1, 0, 8,  -- TIME_SRC_PORT (R153)
    [⟨49, 48, .ro, 0, 0, false, false⟩, ⟨47, 36, .rwl, 0, 0, false, false⟩, ⟨35, 24, .rwl, 0, 0, false, false⟩, ⟨23, 12, .rwl, 0, 0, false, false⟩, ⟨11, 0, .rwl, 0, 0, false, false⟩]⟩,
  ⟨0, 0, 0x168, 1, 0, 1, 0, 4,  -- TIME_TXQ_STATUS (R141)
    [⟨31, 31, .w1c, 0, 0, false, false⟩, ⟨22, 16, .ro, 0, 0, false, false⟩, ⟨15, 0, .rc, 0, 0, false, false⟩]⟩,
  ⟨0, 0, 0x170, 1, 0, 1, 0, 16,  -- TIME_TXQ_ENTRY (R140)
    [⟨127, 112, .ro, 0, 0, false, false⟩, ⟨111, 111, .ro, 0, 0, false, false⟩, ⟨106, 96, .ro, 0, 0, false, false⟩, ⟨79, 0, .ro, 0, 0, false, false⟩]⟩,
  ⟨0, 0, 0x180, 1, 0, 1, 0, 16,  -- TIME_SET (R123)
    [⟨111, 64, .rw, 0, 0, false, false⟩, ⟨61, 32, .rw, 0, 0, false, false⟩, ⟨31, 0, .rw, 0, 0, false, false⟩]⟩,
  ⟨1, 1, 0x100, 8, 32, 1, 0, 4,  -- TPO_CTRL (R164)
    [⟨31, 31, .rw, 0, 0, false, false⟩, ⟨30, 30, .rw, 0, 0, false, false⟩, ⟨29, 29, .rw, 1, 0, false, false⟩, ⟨28, 28, .rw, 0, 0, false, false⟩, ⟨27, 27, .w1c, 0, 0, false, false⟩, ⟨4, 0, .rw, 0, 0, false, false⟩]⟩,
  ⟨1, 1, 0x108, 8, 32, 1, 0, 8,  -- TPO_START (R162)
    [⟨63, 0, .rw, 0, 0, false, false⟩]⟩,
  ⟨1, 1, 0x110, 8, 32, 1, 0, 4,  -- TPO_PERIOD (R162)
    [⟨31, 0, .rw, 0, 0, false, false⟩]⟩,
  ⟨1, 1, 0x114, 8, 32, 1, 0, 4,  -- TPO_WIDTH (R163)
    [⟨15, 0, .rw, 1, 0, false, false⟩]⟩]

/-- The registers of block type 0x03, part 1. -/
def timeRegs1 : List RegDesc := [
  ⟨2, 2, 0x100, 4, 32, 1, 0, 4,  -- TPI_CTRL (R168)
    [⟨31, 31, .rw, 0, 0, false, false⟩, ⟨30, 30, .rw, 0, 0, false, false⟩, ⟨23, 0, .rw, 0, 0, false, false⟩]⟩,
  ⟨2, 2, 0x104, 4, 32, 1, 0, 4,  -- TPI_STATUS (R170)
    [⟨31, 31, .ro, 0, 0, false, false⟩, ⟨30, 30, .w1c, 0, 0, false, false⟩, ⟨15, 0, .rc, 0, 0, false, false⟩]⟩,
  ⟨2, 2, 0x108, 4, 32, 1, 0, 12,  -- TPI_CAPT (R171)
    [⟨79, 0, .ro, 0, 0, false, false⟩]⟩]

/-- Every register of block type 0x03. -/
def timeRegs : List RegDesc := timeRegs0 ++ timeRegs1

/-- The registers of block type 0x04, part 0. -/
def ptRegs0 : List RegDesc := [
  ⟨0, 63, 0x100, 1, 0, 1, 0, 4,  -- PT_CTRL (R276)
    [⟨16, 16, .wo, 0, 0, false, false⟩, ⟨15, 0, .rw, 1, 0, false, false⟩]⟩,
  ⟨0, 63, 0x104, 1, 0, 1, 0, 4,  -- PT_STATUS (R341)
    [⟨7, 0, .ro, 0, 0, false, false⟩]⟩,
  ⟨0, 63, 0x110, 8, 4, 1, 0, 4,  -- PT_PORT_CFG (R265)
    [⟨31, 30, .rwl, 0, 0, false, false⟩, ⟨29, 29, .rwl, 0, 0, false, false⟩, ⟨28, 28, .rw, 1, 0, false, false⟩, ⟨27, 26, .rw, 0, 0, false, false⟩, ⟨25, 25, .rw, 0, 0, false, false⟩]⟩,
  ⟨0, 63, 0x130, 8, 4, 1, 0, 4,  -- PT_PORT_STATUS (R341)
    [⟨11, 8, .ro, 0, 0, false, false⟩, ⟨7, 7, .ro, 0, 0, false, false⟩, ⟨6, 6, .ro, 0, 0, false, false⟩, ⟨5, 5, .ro, 0, 0, false, false⟩, ⟨4, 4, .ro, 0, 0, false, false⟩]⟩,
  ⟨0, 63, 0x150, 8, 4, 1, 0, 4,  -- PT_DRZ_CFG (R276)
    [⟨31, 31, .rw, 0, 0, false, false⟩, ⟨30, 30, .rw, 0, 0, false, false⟩, ⟨20, 16, .rw, 16, 0, false, false⟩, ⟨7, 0, .rw, 255, 0, false, false⟩]⟩,
  ⟨0, 63, 0x200, 8, 128, 8, 16, 4,  -- PT_POL_CIR (R231)
    [⟨31, 31, .rw, 0, 0, false, false⟩, ⟨30, 30, .rw, 0, 0, false, false⟩, ⟨29, 29, .rw, 0, 0, false, false⟩, ⟨19, 0, .rw, 0, 0, false, false⟩]⟩,
  ⟨0, 63, 0x204, 8, 128, 8, 16, 4,  -- PT_POL_PIR (R230)
    [⟨19, 0, .rw, 0, 0, false, false⟩]⟩,
  ⟨0, 63, 0x208, 8, 128, 8, 16, 4,  -- PT_POL_CBS (R230)
    [⟨23, 0, .rw, 0, 0, false, false⟩]⟩,
  ⟨0, 63, 0x20C, 8, 128, 8, 16, 4,  -- PT_POL_PBS (R230)
    [⟨23, 0, .rw, 0, 0, false, false⟩]⟩,
  ⟨0, 63, 0xC00, 8, 16, 1, 0, 4,  -- PT_TS_CFG (R174)
    [⟨7, 4, .ro, 0, 0, false, false⟩, ⟨3, 3, .rw, 0, 0, false, false⟩, ⟨2, 2, .rw, 0, 0, false, false⟩, ⟨1, 1, .rw, 0, 0, false, false⟩, ⟨0, 0, .rw, 0, 0, false, false⟩]⟩,
  ⟨0, 63, 0xC04, 8, 16, 1, 0, 4,  -- PT_TS_ASYM (R174)
    [⟨31, 0, .rw, 0, 0, false, false⟩]⟩]

/-- Every register of block type 0x04. -/
def ptRegs : List RegDesc := ptRegs0

/-- The registers of block type 0x05, part 0. -/
def qmRegs0 : List RegDesc := [
  ⟨0, 63, 0x100, 1, 0, 1, 0, 4,  -- QM_CTRL (R261)
    [⟨31, 16, .rw, 0xACE1, 0, false, false⟩, ⟨0, 0, .wo, 0, 0, false, false⟩]⟩,
  ⟨0, 63, 0x104, 1, 0, 1, 0, 4,  -- QM_POOL_STATUS (R252)
    [⟨30, 16, .ro, 0, 0, false, false⟩, ⟨14, 0, .ro, 0, 0, false, false⟩]⟩,
  ⟨0, 63, 0x200, 8, 32, 8, 4, 4,  -- QM_LIMIT (R253)
    [⟨13, 0, .rwl, 0, 1, false, false⟩]⟩,
  ⟨0, 63, 0x300, 8, 32, 8, 4, 4,  -- QM_OCC (R252)
    [⟨13, 0, .ro, 0, 0, false, false⟩]⟩,
  ⟨0, 63, 0x400, 8, 12, 3, 4, 4,  -- QM_PROF (R263)
    [⟨31, 31, .rw, 0, 2, false, false⟩, ⟨23, 20, .rw, 0, 3, false, false⟩, ⟨19, 16, .rw, 0, 4, false, false⟩, ⟨7, 0, .rw, 0, 5, false, false⟩]⟩]

/-- Every register of block type 0x05. -/
def qmRegs : List RegDesc := qmRegs0

/-- The registers of block type 0x06, part 0. -/
def fwtRegs0 : List RegDesc := [
  ⟨0, 15, 0x100, 1, 0, 1, 0, 4,  -- FWT_CTRL (R322)
    [⟨2, 2, .wo, 0, 0, false, false⟩, ⟨1, 1, .rw, 0, 0, false, true⟩, ⟨0, 0, .rw, 1, 0, false, true⟩]⟩,
  ⟨0, 15, 0x104, 1, 0, 1, 0, 4,  -- FWT_CFG (R287)
    [⟨15, 13, .rwl, 0, 0, false, true⟩, ⟨12, 11, .rwl, 3, 0, false, true⟩]⟩,
  ⟨0, 15, 0x108, 1, 0, 1, 0, 4,  -- FWT_STATUS (R318)
    [⟨7, 7, .ro, 0, 0, false, false⟩, ⟨4, 0, .ro, 0, 0, false, false⟩]⟩,
  ⟨0, 15, 0x10C, 1, 0, 1, 0, 4,  -- FWT_UPDATE_SEQ (R310)
    [⟨31, 0, .ro, 0, 0, false, false⟩]⟩,
  ⟨0, 15, 0x110, 1, 0, 1, 0, 4,  -- FWT_CMP_CTRL (R318)
    [⟨31, 31, .rw, 0, 0, false, true⟩, ⟨30, 30, .rw, 1, 0, false, true⟩]⟩,
  ⟨0, 15, 0x114, 1, 0, 1, 0, 4,  -- FWT_CMP_SHADOW_SEQ (R318)
    [⟨31, 0, .rw, 0, 0, false, true⟩]⟩,
  ⟨0, 15, 0x118, 1, 0, 1, 0, 8,  -- FWT_CMP_BASE (R317)
    [⟨63, 21, .rwl, 0, 0, false, true⟩]⟩]

/-- Every register of block type 0x06. -/
def fwtRegs : List RegDesc := fwtRegs0

/-- The registers of block type 0x07, part 0. -/
def ringRegs0 : List RegDesc := [
  ⟨0, 7, 0x100, 1, 0, 1, 0, 4,  -- RING_CTRL (R281)
    [⟨0, 0, .wo, 0, 0, false, false⟩]⟩,
  ⟨0, 7, 0x108, 1, 0, 1, 0, 4,  -- RING_DRZ_CAP (R279)
    [⟨31, 16, .rw, 64, 0, false, false⟩, ⟨8, 0, .rw, 16, 0, false, false⟩]⟩]

/-- Every register of block type 0x07. -/
def ringRegs : List RegDesc := ringRegs0

/-- The registers of block type 0x08, part 0. -/
def tideRegs0 : List RegDesc := [
  ⟨0, 63, 0x100, 1, 0, 1, 0, 4,  -- TIDE_CTRL (R382)
    [⟨23, 16, .rwl, 6, 0, false, false⟩, ⟨0, 0, .wo, 0, 0, false, false⟩]⟩,
  ⟨0, 63, 0x104, 1, 0, 1, 0, 4,  -- TIDE_STATUS (R386)
    [⟨7, 0, .ro, 0, 0, false, false⟩]⟩,
  ⟨0, 63, 0x140, 8, 32, 1, 0, 4,  -- TIDE_PORT_CFG (R386)
    [⟨1, 1, .rw, 0, 0, false, false⟩, ⟨0, 0, .rw, 1, 0, false, false⟩]⟩,
  ⟨0, 63, 0x144, 8, 32, 1, 0, 4,  -- TIDE_PORT_STATUS (R386)
    [⟨31, 29, .ro, 0, 0, false, false⟩, ⟨28, 28, .ro, 0, 0, false, false⟩, ⟨27, 27, .ro, 0, 0, false, false⟩, ⟨26, 26, .ro, 0, 0, false, false⟩, ⟨25, 16, .ro, 0, 0, false, false⟩, ⟨15, 8, .ro, 0, 0, false, false⟩, ⟨7, 7, .w1c, 0, 0, false, false⟩]⟩,
  ⟨0, 63, 0x148, 8, 32, 1, 0, 8,  -- TIDE_TAKEOVER (R388)
    [⟨63, 0, .ro, 0, 0, false, false⟩]⟩,
  ⟨0, 63, 0x150, 8, 32, 1, 0, 8,  -- TIDE_CYCLE_START (R379)
    [⟨63, 0, .ro, 0, 0, false, false⟩]⟩,
  ⟨0, 63, 0x300, 8, 64, 8, 8, 8,  -- TIDE_SHP (R374)
    [⟨63, 63, .rw, 0, 6, false, false⟩, ⟨62, 62, .rw, 0, 7, false, false⟩, ⟨51, 32, .rw, 0, 8, false, false⟩, ⟨23, 0, .rw, 0, 9, false, false⟩]⟩,
  ⟨0, 63, 0x500, 8, 32, 8, 4, 4,  -- TIDE_DRR (R370)
    [⟨15, 0, .rw, 0, 10, false, false⟩]⟩]

/-- Every register of block type 0x08. -/
def tideRegs : List RegDesc := tideRegs0

/-- The registers of block type 0x09, part 0. -/
def oeRegs0 : List RegDesc := [
  ⟨0, 15, 0x100, 1, 0, 1, 0, 4,  -- OE_CTRL (R421)
    [⟨3, 3, .wo, 0, 0, false, false⟩, ⟨2, 2, .rwl, 0, 0, false, false⟩, ⟨1, 1, .rw, 1, 0, false, false⟩, ⟨0, 0, .rw, 1, 0, false, false⟩]⟩,
  ⟨0, 15, 0x104, 1, 0, 1, 0, 4,  -- OE_STATUS (R411)
    [⟨4, 4, .ro, 0, 0, false, false⟩, ⟨3, 2, .ro, 0, 0, false, false⟩, ⟨1, 0, .ro, 0, 0, false, false⟩]⟩,
  ⟨0, 15, 0x108, 1, 0, 1, 0, 4,  -- OE_FF_COEF (R428)
    [⟨15, 0, .rwl, 0, 0, false, false⟩]⟩,
  ⟨0, 15, 0x10C, 1, 0, 1, 0, 4,  -- OE_SLIP (R429)
    [⟨15, 8, .rw, 8, 0, false, false⟩, ⟨7, 0, .rw, 20, 0, false, false⟩]⟩,
  ⟨0, 15, 0x110, 1, 0, 1, 0, 4,  -- OE_MARGIN_MIN (R432)
    [⟨7, 0, .rw, 8, 0, false, false⟩]⟩,
  ⟨0, 15, 0x200, 2, 64, 16, 4, 4,  -- OE_FEED_PWR (R411)
    [⟨15, 0, .ro, 0x8000, 0, false, false⟩]⟩,
  ⟨0, 15, 0x400, 32, 16, 4, 4, 4,  -- OE_REED (R426)
    [⟨31, 29, .ro, 0, 0, false, false⟩, ⟨28, 26, .ro, 0, 0, false, false⟩, ⟨25, 24, .ro, 0, 0, false, false⟩, ⟨23, 16, .ro, 255, 0, false, false⟩, ⟨15, 8, .ro, 0, 0, false, false⟩, ⟨7, 4, .ro, 0, 0, false, false⟩, ⟨3, 3, .ro, 0, 0, false, false⟩, ⟨2, 2, .ro, 0, 0, false, false⟩, ⟨1, 1, .ro, 0, 0, false, false⟩, ⟨0, 0, .ro, 0, 0, false, false⟩]⟩,
  ⟨0, 15, 0xA00, 64, 4, 1, 0, 4,  -- OE_ID_DATA (R418)
    [⟨31, 0, .ro, 0, 0, false, false⟩]⟩]

/-- Every register of block type 0x09. -/
def oeRegs : List RegDesc := oeRegs0

/-- The registers of block type 0x0A, part 0. -/
def cwRegs0 : List RegDesc := [
  ⟨0, 15, 0x100, 1, 0, 1, 0, 4,  -- CW_CTRL (R446)
    [⟨1, 1, .wo, 0, 0, false, false⟩, ⟨0, 0, .rw, 1, 0, false, false⟩]⟩,
  ⟨0, 15, 0x104, 1, 0, 1, 0, 4,  -- CW_STATUS (R455)
    [⟨23, 16, .ro, 0, 0, false, false⟩, ⟨15, 15, .ro, 1, 0, false, false⟩, ⟨14, 14, .ro, 0, 0, false, false⟩, ⟨13, 13, .ro, 0, 0, false, false⟩, ⟨12, 12, .ro, 0, 0, false, false⟩, ⟨11, 11, .ro, 0, 0, false, false⟩, ⟨6, 0, .ro, 127, 0, false, false⟩]⟩,
  ⟨0, 15, 0x108, 1, 0, 1, 0, 4,  -- CW_DELAY (R444)
    [⟨15, 0, .rwl, 3000, 0, false, false⟩]⟩,
  ⟨0, 15, 0x10C, 1, 0, 1, 0, 4,  -- CW_ARMED (R460)
    [⟨10, 0, .ro, 0, 0, false, false⟩]⟩,
  ⟨0, 15, 0x110, 1, 0, 1, 0, 8,  -- CW_TAKEOVER (R464)
    [⟨63, 0, .ro, 0, 0, false, false⟩]⟩,
  ⟨0, 15, 0x118, 1, 0, 1, 0, 4,  -- CW_OCCUPIED (R445)
    [⟨31, 0, .ro, 0, 0, false, false⟩]⟩,
  ⟨0, 15, 0x200, 64, 32, 8, 4, 4,  -- CW_MAP (R441)
    [⟨31, 0, .ro, 0, 0, false, false⟩]⟩,
  ⟨0, 15, 0xA00, 8, 4, 1, 0, 4,  -- CW_STANDING (R458)
    [⟨31, 0, .ro, 0, 0, false, false⟩]⟩]

/-- Every register of block type 0x0A. -/
def cwRegs : List RegDesc := cwRegs0

/-- The registers of block type 0x0B, part 0. -/
def elsRegs0 : List RegDesc := [
  ⟨0, 7, 0x100, 1, 0, 1, 0, 4,  -- ELS_CTRL (R416)
    [⟨2, 2, .wo, 0, 0, false, false⟩, ⟨1, 1, .rwl, 0, 0, false, false⟩, ⟨0, 0, .rw, 0, 0, false, false⟩]⟩,
  ⟨0, 7, 0x104, 1, 0, 1, 0, 4,  -- ELS_STATUS (R411)
    [⟨20, 20, .ro, 0, 0, false, false⟩, ⟨19, 19, .ro, 0, 0, false, false⟩, ⟨18, 18, .ro, 0, 0, false, false⟩, ⟨17, 17, .w1c, 0, 0, false, false⟩, ⟨16, 16, .ro, 0, 0, false, false⟩, ⟨15, 0, .ro, 0, 0, false, false⟩]⟩,
  ⟨0, 7, 0x108, 1, 0, 1, 0, 4,  -- ELS_THRESH (R411)
    [⟨31, 16, .rw, 1000, 0, false, false⟩, ⟨15, 0, .rw, 800, 0, false, false⟩]⟩,
  ⟨0, 7, 0x10C, 1, 0, 1, 0, 4,  -- ELS_TEMP (R411)
    [⟨7, 0, .ro, 0, 0, false, false⟩]⟩,
  ⟨0, 7, 0x200, 4, 64, 16, 4, 4,  -- ELS_LINE_PWR (R411)
    [⟨15, 0, .ro, 0x8000, 0, false, false⟩]⟩,
  ⟨0, 7, 0x400, 64, 4, 1, 0, 4,  -- ELS_ID_DATA (R418)
    [⟨31, 0, .ro, 0, 0, false, false⟩]⟩]

/-- Every register of block type 0x0B. -/
def elsRegs : List RegDesc := elsRegs0

/-- The registers of block type 0x0C, part 0. -/
def fenRegs0 : List RegDesc := [
  ⟨0, 33, 0x100, 1, 0, 1, 0, 4,  -- FEN_CTRL (R580)
    [⟨0, 0, .wo, 0, 0, false, false⟩]⟩,
  ⟨0, 33, 0x104, 1, 0, 1, 0, 4,  -- FEN_STATUS (R514)
    [⟨7, 7, .ro, 0, 11, false, false⟩, ⟨6, 6, .ro, 0, 12, false, false⟩, ⟨5, 5, .ro, 0, 0, false, false⟩, ⟨3, 0, .ro, 0, 13, false, false⟩]⟩,
  ⟨0, 33, 0x108, 1, 0, 1, 0, 4,  -- FEN_STICKY (R508)
    [⟨3, 3, .w1c, 0, 0, false, false⟩, ⟨2, 2, .w1c, 0, 0, false, false⟩, ⟨1, 1, .w1c, 0, 0, false, false⟩, ⟨0, 0, .w1c, 0, 0, false, false⟩]⟩]

/-- Every register of block type 0x0C. -/
def fenRegs : List RegDesc := fenRegs0

/-- The registers of block type 0x0D, part 0. -/
def fadmRegs0 : List RegDesc := [
  ⟨0, 1, 0x100, 1, 0, 1, 0, 4,  -- FADM_CTRL (R537)
    [⟨31, 16, .rw, 2000, 0, false, false⟩, ⟨2, 2, .wo, 0, 0, false, false⟩, ⟨1, 1, .rwl, 0, 0, false, false⟩, ⟨0, 0, .rw, 1, 0, false, false⟩]⟩,
  ⟨0, 1, 0x104, 1, 0, 1, 0, 4,  -- FADM_STATUS (R532)
    [⟨20, 10, .ro, 0, 0, false, false⟩, ⟨2, 2, .ro, 0, 0, false, false⟩, ⟨1, 1, .ro, 0, 0, false, false⟩, ⟨0, 0, .ro, 0, 0, false, false⟩]⟩,
  ⟨0, 1, 0x108, 1, 0, 1, 0, 4,  -- FADM_SALT_SEED (R557)
    [⟨31, 0, .rw, 1, 0, false, false⟩]⟩,
  ⟨0, 1, 0x110, 1, 0, 1, 0, 8,  -- FADM_T1_BASE (R527)
    [⟨63, 21, .rwl, 0, 0, false, false⟩]⟩,
  ⟨0, 1, 0x118, 1, 0, 1, 0, 4,  -- FADM_T1_SLOTS (R527)
    [⟨23, 0, .rwl, 0, 0, false, false⟩]⟩,
  ⟨0, 1, 0x400, 64, 32, 1, 0, 4,  -- FADM_PART_CFG (R527)
    [⟨31, 31, .ro, 0, 0, false, false⟩, ⟨23, 16, .ro, 0, 0, false, false⟩, ⟨15, 0, .ro, 0, 0, false, false⟩]⟩,
  ⟨0, 1, 0x404, 64, 32, 1, 0, 4,  -- FADM_PART_SRAM (R527)
    [⟨25, 16, .ro, 0, 0, false, false⟩, ⟨9, 0, .ro, 0, 0, false, false⟩]⟩,
  ⟨0, 1, 0x408, 64, 32, 1, 0, 4,  -- FADM_PART_T1_FIRST (R527)
    [⟨23, 0, .ro, 0, 0, false, false⟩]⟩,
  ⟨0, 1, 0x40C, 64, 32, 1, 0, 4,  -- FADM_PART_T1_COUNT (R527)
    [⟨23, 0, .ro, 0, 0, false, false⟩]⟩,
  ⟨0, 1, 0x410, 64, 32, 1, 0, 4,  -- FADM_PART_STATUS (R574)
    [⟨31, 24, .ro, 1, 0, false, false⟩, ⟨9, 0, .ro, 0, 0, false, false⟩]⟩,
  ⟨0, 1, 0x414, 64, 32, 1, 0, 4,  -- FADM_PART_T1_USED (R530)
    [⟨23, 0, .ro, 0, 0, false, false⟩]⟩]

/-- Every register of block type 0x0D. -/
def fadmRegs : List RegDesc := fadmRegs0

/-- The registers of block type 0x0E, part 0. -/
def peatRegs0 : List RegDesc := [
  ⟨0, 0, 0x100, 1, 0, 1, 0, 4,  -- PEAT_CTRL (R620)
    [⟨2, 2, .wo, 0, 0, false, false⟩, ⟨1, 1, .rw, 1, 0, false, false⟩, ⟨0, 0, .rw, 1, 0, false, false⟩]⟩,
  ⟨0, 0, 0x104, 1, 0, 1, 0, 4,  -- PEAT_STATUS (R620)
    [⟨4, 4, .ro, 0, 0, false, false⟩, ⟨3, 3, .ro, 0, 0, false, false⟩, ⟨2, 2, .ro, 0, 0, false, false⟩, ⟨1, 1, .ro, 0, 0, false, false⟩, ⟨0, 0, .ro, 0, 0, false, false⟩]⟩,
  ⟨0, 0, 0x108, 1, 0, 1, 0, 4,  -- PEAT_STICKY (R629)
    [⟨3, 3, .w1c, 0, 0, false, false⟩, ⟨2, 2, .w1c, 0, 0, false, false⟩, ⟨1, 1, .w1c, 0, 0, false, false⟩, ⟨0, 0, .w1c, 0, 0, false, false⟩]⟩,
  ⟨0, 0, 0x10C, 1, 0, 1, 0, 4,  -- PEAT_RAMP (R621)
    [⟨31, 16, .rwl, 600, 0, false, false⟩, ⟨15, 0, .rwl, 600, 0, false, false⟩]⟩,
  ⟨0, 0, 0x110, 1, 0, 1, 0, 4,  -- PEAT_POWER (R621)
    [⟨31, 16, .ro, 0, 0, false, false⟩, ⟨15, 0, .ro, 0, 0, false, false⟩]⟩,
  ⟨0, 0, 0x114, 1, 0, 1, 0, 4,  -- PEAT_PMODEL (R621)
    [⟨31, 16, .rwl, 80, 0, false, false⟩, ⟨15, 0, .rwl, 1200, 0, false, false⟩]⟩,
  ⟨0, 0, 0x118, 1, 0, 1, 0, 4,  -- PEAT_DEMOTE (R615)
    [⟨31, 16, .rw, 160, 0, false, false⟩, ⟨15, 12, .rw, 15, 0, false, false⟩, ⟨11, 8, .rw, 14, 0, false, false⟩]⟩,
  ⟨0, 0, 0x11C, 1, 0, 1, 0, 4,  -- PEAT_REASM (R606)
    [⟨15, 0, .rw, 100, 0, false, false⟩]⟩,
  ⟨1, 1, 0x100, 64, 32, 1, 0, 4,  -- PEAT_PART_CFG (R596)
    [⟨31, 31, .ro, 0, 0, false, false⟩, ⟨23, 16, .ro, 0, 0, false, false⟩, ⟨15, 0, .ro, 0, 0, false, false⟩]⟩,
  ⟨1, 1, 0x104, 64, 32, 1, 0, 4,  -- PEAT_PART_ACCESS (R596)
    [⟨19, 0, .ro, 0, 0, false, false⟩]⟩,
  ⟨1, 1, 0x108, 64, 32, 1, 0, 4,  -- PEAT_PART_T1_FIRST (R596)
    [⟨24, 0, .ro, 0, 0, false, false⟩]⟩,
  ⟨1, 1, 0x10C, 64, 32, 1, 0, 4,  -- PEAT_PART_T1_COUNT (R596)
    [⟨24, 0, .ro, 0, 0, false, false⟩]⟩,
  ⟨1, 1, 0x110, 64, 32, 1, 0, 4,  -- PEAT_PART_T2_FIRST (R596)
    [⟨24, 0, .ro, 0, 0, false, false⟩]⟩,
  ⟨1, 1, 0x114, 64, 32, 1, 0, 4,  -- PEAT_PART_T2_COUNT (R596)
    [⟨24, 0, .ro, 0, 0, false, false⟩]⟩,
  ⟨1, 1, 0x118, 64, 32, 1, 0, 4,  -- PEAT_PART_DIR (R596)
    [⟨28, 24, .ro, 0, 0, false, false⟩, ⟨23, 0, .ro, 0, 0, false, false⟩]⟩,
  ⟨1, 1, 0x11C, 64, 32, 1, 0, 4,  -- PEAT_PART_STATUS (R630)
    [⟨31, 24, .ro, 1, 0, false, false⟩, ⟨23, 23, .ro, 0, 0, false, false⟩, ⟨22, 22, .ro, 0, 0, false, false⟩, ⟨21, 19, .ro, 0, 0, false, false⟩]⟩]

/-- Every register of block type 0x0E. -/
def peatRegs : List RegDesc := peatRegs0

/-- The registers of block type 0x0F, part 0. -/
def tierRegs0 : List RegDesc := [
  ⟨0, 0, 0x100, 1, 0, 1, 0, 4,  -- TIER_CTRL (R588)
    [⟨1, 1, .wo, 0, 0, false, false⟩, ⟨0, 0, .rw, 1, 0, false, false⟩]⟩,
  ⟨0, 0, 0x104, 1, 0, 1, 0, 4,  -- TIER_STATUS (R585)
    [⟨31, 28, .ro, 0, 0, false, false⟩, ⟨27, 27, .ro, 0, 0, false, false⟩, ⟨26, 26, .ro, 0, 0, false, false⟩, ⟨23, 16, .ro, 0, 0, false, false⟩, ⟨15, 8, .ro, 0, 0, false, false⟩, ⟨7, 0, .ro, 0, 0, false, false⟩]⟩,
  ⟨0, 0, 0x108, 1, 0, 1, 0, 4,  -- TIER_SCRUB (R588)
    [⟨7, 0, .rw, 24, 0, false, false⟩]⟩,
  ⟨0, 0, 0x200, 16, 16, 1, 0, 4,  -- TIER_REGION_CFG (R589)
    [⟨31, 28, .rwl, 0, 0, false, false⟩, ⟨27, 27, .rwl, 0, 0, false, false⟩]⟩,
  ⟨0, 0, 0x204, 16, 16, 1, 0, 4,  -- TIER_REGION_BASE (R589)
    [⟨23, 0, .rwl, 0, 0, false, false⟩]⟩,
  ⟨0, 0, 0x208, 16, 16, 1, 0, 4,  -- TIER_REGION_SIZE (R589)
    [⟨23, 0, .rwl, 0, 0, false, false⟩]⟩,
  ⟨1, 16, 0x100, 1, 0, 1, 0, 4,  -- TIER_CH_STATUS (R594)
    [⟨31, 31, .ro, 0, 0, false, false⟩, ⟨30, 30, .ro, 0, 14, false, false⟩, ⟨29, 29, .ro, 0, 0, false, false⟩, ⟨28, 26, .ro, 0, 0, false, false⟩, ⟨25, 23, .ro, 0, 0, false, false⟩]⟩,
  ⟨1, 16, 0x104, 1, 0, 1, 0, 4,  -- TIER_CH_CTRL (R638)
    [⟨0, 0, .wo, 0, 0, false, false⟩]⟩,
  ⟨1, 16, 0x140, 8, 4, 1, 0, 4,  -- TIER_ARB_WEIGHT (R591)
    [⟨7, 0, .rw, 0, 15, false, false⟩]⟩,
  ⟨1, 16, 0x160, 8, 4, 1, 0, 4,  -- TIER_ARB_CREDIT (R593)
    [⟨23, 0, .ro, 0, 0, false, false⟩]⟩]

/-- Every register of block type 0x0F. -/
def tierRegs : List RegDesc := tierRegs0

/-- The registers of block type 0x10, part 0. -/
def delRegs0 : List RegDesc := [
  ⟨0, 0, 0x100, 1, 0, 1, 0, 4,  -- DEL_CTRL (R654)
    [⟨31, 31, .rw, 1, 0, false, false⟩, ⟨30, 30, .rw, 1, 0, false, false⟩, ⟨23, 16, .rwl, 0, 0, false, false⟩, ⟨0, 0, .wo, 0, 0, false, false⟩]⟩,
  ⟨0, 0, 0x104, 1, 0, 1, 0, 4,  -- DEL_STATUS (R641)
    [⟨4, 4, .ro, 0, 0, false, false⟩, ⟨3, 3, .ro, 0, 0, false, false⟩, ⟨2, 0, .ro, 0, 0, false, false⟩]⟩,
  ⟨0, 0, 0x108, 1, 0, 1, 0, 4,  -- DEL_WINDOW (R639)
    [⟨31, 12, .rwl, 1000, 0, false, false⟩, ⟨11, 0, .rwl, 50, 0, false, false⟩]⟩,
  ⟨0, 0, 0x10C, 1, 0, 1, 0, 4,  -- DEL_ARCH_RATE (R660)
    [⟨7, 0, .rw, 40, 0, false, false⟩]⟩,
  ⟨0, 0, 0x110, 1, 0, 1, 0, 4,  -- DEL_ARCH_SEG (R656)
    [⟨15, 8, .rw, 100, 0, false, false⟩, ⟨2, 0, .rwl, 2, 0, false, false⟩]⟩,
  ⟨0, 0, 0x118, 1, 0, 1, 0, 8,  -- DEL_ARCH_HEAD (R656)
    [⟨63, 0, .ro, 0, 0, false, false⟩]⟩,
  ⟨0, 0, 0x120, 1, 0, 1, 0, 8,  -- DEL_ARCH_SEQ (R658)
    [⟨63, 0, .ro, 0, 0, false, false⟩]⟩,
  ⟨1, 1, 0x100, 1, 0, 1, 0, 4,  -- DEL_FROST_CTRL (R670)
    [⟨31, 16, .rwl, 50, 0, false, false⟩, ⟨15, 8, .rw, 10, 0, false, false⟩, ⟨3, 3, .rw, 0, 0, false, false⟩, ⟨2, 2, .rw, 1, 0, false, false⟩, ⟨0, 0, .wo, 0, 0, false, false⟩]⟩,
  ⟨1, 1, 0x104, 1, 0, 1, 0, 4,  -- DEL_FROST_STATUS (R662)
    [⟨31, 16, .ro, 0, 0, false, false⟩, ⟨4, 4, .ro, 0, 0, false, false⟩, ⟨3, 3, .ro, 0, 0, false, false⟩, ⟨2, 0, .ro, 0, 0, false, false⟩]⟩,
  ⟨1, 1, 0x108, 1, 0, 1, 0, 4,  -- DEL_FIN_CTRL (R663)
    [⟨31, 31, .rw, 0, 0, false, false⟩, ⟨30, 30, .rw, 0, 0, false, false⟩, ⟨23, 12, .rw, 10, 0, false, false⟩, ⟨11, 0, .rw, 100, 0, false, false⟩]⟩,
  ⟨1, 1, 0x10C, 1, 0, 1, 0, 4,  -- DEL_FIN_STATUS (R663)
    [⟨31, 31, .ro, 0, 0, false, false⟩, ⟨30, 30, .w1c, 0, 0, false, false⟩, ⟨15, 0, .rc, 0, 0, false, false⟩]⟩,
  ⟨1, 1, 0x110, 1, 0, 1, 0, 8,  -- DEL_FROST_TIME (R662)
    [⟨63, 0, .ro, 0, 0, false, false⟩]⟩,
  ⟨1, 1, 0x118, 1, 0, 1, 0, 8,  -- DEL_THAW_TIME (R670)
    [⟨63, 0, .ro, 0, 0, false, false⟩]⟩,
  ⟨1, 1, 0x120, 1, 0, 1, 0, 8,  -- DEL_FIN_CAPT (R663)
    [⟨63, 0, .ro, 0, 0, false, false⟩]⟩,
  ⟨1, 1, 0x140, 1, 0, 1, 0, 4,  -- DEL_TRACE_CTRL (R677)
    [⟨31, 24, .rw, 10, 0, false, false⟩, ⟨23, 8, .rw, 1024, 0, false, false⟩, ⟨2, 2, .rw, 0, 0, false, false⟩, ⟨1, 1, .w1s, 0, 0, false, false⟩, ⟨0, 0, .w1s, 0, 0, false, false⟩]⟩,
  ⟨1, 1, 0x144, 1, 0, 1, 0, 4,  -- DEL_TRACE_STATUS (R675)
    [⟨31, 30, .ro, 0, 0, false, false⟩, ⟨29, 29, .ro, 0, 0, false, false⟩, ⟨28, 28, .ro, 0, 0, false, false⟩, ⟨15, 0, .ro, 0, 0, false, false⟩]⟩,
  ⟨1, 1, 0x148, 1, 0, 1, 0, 4,  -- DEL_TRACE_FILTER (R673)
    [⟨9, 8, .rw, 1, 0, false, false⟩, ⟨7, 0, .rw, 255, 0, false, false⟩]⟩,
  ⟨1, 1, 0x14C, 1, 0, 1, 0, 4,  -- DEL_TRACE_TRIG (R675)
    [⟨31, 31, .rw, 1, 0, false, false⟩, ⟨23, 16, .rw, 0, 0, false, false⟩, ⟨15, 0, .rw, 0xFFFF, 0, false, false⟩]⟩,
  ⟨1, 1, 0x150, 1, 0, 1, 0, 4,  -- DEL_TRACE_AREA (R655)
    [⟨15, 0, .rwl, 64, 0, false, false⟩]⟩,
  ⟨1, 1, 0x158, 1, 0, 1, 0, 8,  -- DEL_TRACE_TRIG_TIME (R675)
    [⟨63, 0, .ro, 0, 0, false, false⟩]⟩,
  ⟨1, 1, 0x160, 1, 0, 1, 0, 16,  -- DEL_TRACE_MARK (R673)
    [⟨127, 0, .wo, 0, 0, false, false⟩]⟩]

/-- Every register of block type 0x10. -/
def delRegs : List RegDesc := delRegs0

/-- The registers of block type 0x11, part 0. -/
def baroRegs0 : List RegDesc := [
  ⟨0, 0, 0x100, 1, 0, 1, 0, 4,  -- BARO_CTRL (R704)
    [⟨31, 31, .rw, 1, 0, false, false⟩, ⟨30, 30, .rw, 1, 0, false, false⟩, ⟨29, 29, .rw, 1, 0, false, false⟩, ⟨23, 16, .rwl, 0, 0, false, false⟩, ⟨0, 0, .wo, 0, 0, false, false⟩]⟩,
  ⟨0, 0, 0x104, 1, 0, 1, 0, 4,  -- BARO_STATUS (R706)
    [⟨31, 31, .ro, 0, 0, false, false⟩, ⟨28, 16, .ro, 0, 0, false, false⟩, ⟨8, 0, .ro, 0, 0, false, false⟩]⟩,
  ⟨0, 0, 0x108, 1, 0, 1, 0, 4,  -- BARO_BUDGET (R704)
    [⟨31, 24, .rwl, 2, 0, false, false⟩, ⟨23, 8, .rwl, 10, 0, false, false⟩, ⟨3, 0, .ro, 0, 0, false, false⟩]⟩,
  ⟨0, 0, 0x10C, 1, 0, 1, 0, 4,  -- BARO_PARENT (R694)
    [⟨31, 24, .rw, 3, 0, false, false⟩, ⟨23, 8, .rw, 1000, 0, false, false⟩, ⟨7, 0, .rw, 60, 0, false, false⟩]⟩,
  ⟨0, 0, 0x110, 1, 0, 1, 0, 4,  -- BARO_SQUALL (R714)
    [⟨31, 16, .rw, 1000, 0, false, false⟩]⟩,
  ⟨0, 0, 0x114, 1, 0, 1, 0, 4,  -- BARO_STRAG (R692)
    [⟨7, 0, .rw, 8, 0, false, false⟩]⟩,
  ⟨0, 0, 0x118, 1, 0, 1, 0, 4,  -- BARO_DRIFT (R693)
    [⟨15, 0, .rw, 4, 0, false, false⟩]⟩,
  ⟨0, 0, 0x11C, 1, 0, 1, 0, 4,  -- BARO_NOTIFY (R708)
    [⟨19, 0, .rw, 0, 0, false, false⟩]⟩,
  ⟨0, 0, 0x120, 1, 0, 1, 0, 4,  -- BARO_FENCE_EPOCH (R698)
    [⟨31, 0, .ro, 0, 0, false, false⟩]⟩,
  ⟨1, 1, 0x100, 7, 16, 1, 0, 4,  -- BARO_KIND_WATCH (R689)
    [⟨31, 0, .rw, 0, 16, false, false⟩]⟩,
  ⟨1, 1, 0x104, 7, 16, 1, 0, 4,  -- BARO_KIND_FENCE (R689)
    [⟨31, 0, .rw, 0, 17, false, false⟩]⟩,
  ⟨1, 1, 0x108, 7, 16, 1, 0, 4,  -- BARO_KIND_CFG (R689)
    [⟨4, 0, .rw, 0, 18, false, false⟩]⟩,
  ⟨1, 1, 0x400, 32, 4, 1, 0, 4,  -- BARO_WEIGHT (R688)
    [⟨15, 0, .rw, 0, 19, false, false⟩]⟩]

/-- Every register of block type 0x11. -/
def baroRegs : List RegDesc := baroRegs0

/-- The registers of block type 0x12, part 0. -/
def chkRegs0 : List RegDesc := [
  ⟨0, 0, 0x100, 1, 0, 1, 0, 4,  -- CHK_CTRL (R733)
    [⟨31, 31, .rw, 1, 0, false, false⟩, ⟨30, 30, .rw, 1, 0, false, false⟩, ⟨0, 0, .wo, 0, 0, false, false⟩]⟩,
  ⟨0, 0, 0x104, 1, 0, 1, 0, 4,  -- CHK_STATUS (R727)
    [⟨31, 24, .ro, 0, 0, false, false⟩, ⟨23, 16, .ro, 0, 0, false, false⟩, ⟨3, 2, .ro, 0, 0, false, false⟩, ⟨1, 0, .ro, 0, 0, false, false⟩]⟩,
  ⟨0, 0, 0x108, 1, 0, 1, 0, 4,  -- CHK_IFT_CFG (R736)
    [⟨31, 16, .rw, 10, 0, false, false⟩, ⟨15, 0, .rw, 24, 0, false, false⟩]⟩,
  ⟨0, 0, 0x10C, 1, 0, 1, 0, 4,  -- CHK_IFT_RESULT (R734)
    [⟨31, 16, .ro, 0, 0, false, false⟩, ⟨1, 0, .ro, 0, 0, false, false⟩]⟩,
  ⟨0, 0, 0x110, 1, 0, 1, 0, 8,  -- CHK_IFT_TIME (R734)
    [⟨63, 0, .ro, 0, 0, false, false⟩]⟩,
  ⟨1, 1, 0x100, 2, 64, 16, 4, 4,  -- CHK_FEN_MAP (R722)
    [⟨31, 30, .ro, 0, 0, false, false⟩, ⟨11, 8, .ro, 0, 0, false, false⟩, ⟨5, 0, .ro, 0, 20, false, false⟩]⟩,
  ⟨2, 2, 0x100, 16, 4, 1, 0, 4,  -- CHK_PEAT_ROW (R723)
    [⟨31, 31, .ro, 0, 0, true, false⟩, ⟨30, 30, .ro, 0, 0, false, false⟩, ⟨4, 0, .ro, 0, 0, true, false⟩]⟩,
  ⟨3, 3, 0x100, 2, 4, 1, 0, 4,  -- CHK_ERGAN (R725)
    [⟨31, 31, .ro, 0, 0, true, false⟩, ⟨24, 16, .ro, 0, 0, true, false⟩, ⟨3, 0, .ro, 15, 0, false, false⟩]⟩,
  ⟨4, 4, 0x100, 388, 4, 1, 0, 4,  -- CHK_MARGIN (R730)
    [⟨7, 7, .ro, 0, 0, true, false⟩, ⟨2, 0, .ro, 0, 0, true, false⟩]⟩]

/-- Every register of block type 0x12. -/
def chkRegs : List RegDesc := chkRegs0

/-- The registers of block type 0x13, part 0. -/
def pmcRegs0 : List RegDesc := [
  ⟨0, 0, 0x100, 1, 0, 1, 0, 4,  -- PMC_CTRL (R751)
    [⟨31, 16, .rw, 1, 0, false, false⟩, ⟨0, 0, .wo, 0, 0, false, false⟩]⟩,
  ⟨0, 0, 0x104, 1, 0, 1, 0, 4,  -- PMC_STATUS (R748)
    [⟨31, 31, .w1c, 0, 0, false, false⟩, ⟨16, 0, .ro, 0, 0, false, false⟩]⟩,
  ⟨0, 0, 0x108, 1, 0, 1, 0, 4,  -- PMC_TAG_CAP (R755)
    [⟨31, 16, .rw, 64, 0, false, false⟩, ⟨8, 0, .rw, 32, 0, false, false⟩]⟩,
  ⟨0, 0, 0x10C, 1, 0, 1, 0, 4,  -- PMC_MIRE_CFG (R759)
    [⟨31, 31, .rw, 0, 0, false, false⟩, ⟨23, 16, .rwl, 0, 0, false, false⟩, ⟨15, 8, .rw, 100, 0, false, false⟩, ⟨7, 0, .rw, 100, 0, false, false⟩]⟩,
  ⟨1, 1, 0x100, 64, 16, 1, 0, 8,  -- PMC_SLOT_CFG (R748)
    [⟨63, 63, .rw, 0, 0, false, false⟩, ⟨62, 62, .rw, 0, 0, false, false⟩, ⟨61, 56, .rw, 0, 0, false, false⟩, ⟨55, 48, .rw, 0, 0, false, false⟩, ⟨47, 40, .rw, 255, 0, false, false⟩, ⟨39, 28, .rw, 4095, 0, false, false⟩]⟩,
  ⟨2, 2, 0x100, 512, 4, 1, 0, 4,  -- PMC_TAG_PORT (R751)
    [⟨31, 31, .rw, 0, 0, false, false⟩, ⟨30, 30, .rw, 0, 0, false, false⟩, ⟨20, 16, .rw, 16, 0, false, false⟩, ⟨7, 0, .rw, 255, 0, false, false⟩]⟩,
  ⟨3, 3, 0x100, 512, 4, 1, 0, 4,  -- PMC_WAIT (R758)
    [⟨7, 0, .ro, 0, 0, false, false⟩]⟩]

/-- Every register of block type 0x13. -/
def pmcRegs : List RegDesc := pmcRegs0

/-- The registers of block type 0x14, part 0. -/
def secRegs0 : List RegDesc := [
  ⟨0, 0, 0x100, 1, 0, 1, 0, 4,  -- SEC_STATUS (R789)
    [⟨31, 31, .ro, 0, 0, false, false⟩, ⟨23, 16, .ro, 0, 0, false, false⟩, ⟨15, 15, .ro, 0, 0, false, false⟩]⟩,
  ⟨0, 0, 0x110, 1, 0, 1, 0, 16,  -- SEC_UNIT_ID (R770)
    [⟨127, 0, .ro, 0, 0, false, false⟩]⟩,
  ⟨0, 0, 0x120, 5, 4, 1, 0, 4,  -- SEC_COUNTER (R768)
    [⟨31, 0, .ro, 0, 0, false, false⟩]⟩,
  ⟨0, 0, 0x140, 1, 0, 1, 0, 64,  -- SEC_ATT_PUB (R786)
    [⟨511, 0, .ro, 0, 0, false, false⟩]⟩,
  ⟨0, 0, 0x180, 1, 0, 1, 0, 4,  -- SEC_CHALLENGE (R789)
    [⟨31, 0, .ro, 0, 0, false, false⟩]⟩]

/-- Every register of block type 0x14. -/
def secRegs : List RegDesc := secRegs0

/-- The registers of block type 0x15, part 0. -/
def cfgRegs0 : List RegDesc := [
  ⟨0, 0, 0x100, 1, 0, 1, 0, 4,  -- CFG_ID (R2)
    [⟨31, 16, .ro, 0x9512, 0, false, false⟩, ⟨15, 8, .ro, 176, 0, false, false⟩]⟩,
  ⟨0, 0, 0x104, 1, 0, 1, 0, 4,  -- CFG_STATUS (R781)
    [⟨31, 31, .ro, 0, 0, false, false⟩, ⟨30, 30, .ro, 0, 0, false, false⟩, ⟨29, 29, .ro, 0, 0, false, false⟩, ⟨28, 28, .ro, 0, 0, false, false⟩, ⟨27, 27, .ro, 0, 0, false, false⟩, ⟨21, 21, .ro, 0, 0, false, false⟩, ⟨20, 20, .ro, 0, 0, false, false⟩, ⟨11, 11, .ro, 0, 0, false, false⟩, ⟨10, 10, .ro, 0, 0, false, false⟩, ⟨9, 9, .ro, 0, 0, false, false⟩, ⟨8, 8, .ro, 0, 0, false, false⟩, ⟨7, 7, .ro, 0, 0, false, false⟩, ⟨6, 6, .ro, 0, 0, false, false⟩, ⟨5, 5, .ro, 0, 0, false, false⟩, ⟨4, 4, .ro, 0, 0, false, false⟩, ⟨3, 3, .ro, 0, 0, false, false⟩, ⟨2, 2, .ro, 0, 0, false, false⟩, ⟨0, 0, .ro, 0, 0, false, false⟩]⟩,
  ⟨0, 0, 0x108, 1, 0, 1, 0, 4,  -- CFG_IMAGE (R773)
    [⟨31, 0, .ro, 0, 0, false, false⟩]⟩,
  ⟨0, 0, 0x10C, 1, 0, 1, 0, 4,  -- CFG_RESET_CAUSE (R784)
    [⟨7, 4, .ro, 0, 0, false, false⟩, ⟨1, 0, .ro, 1, 0, false, false⟩]⟩,
  ⟨0, 0, 0x110, 1, 0, 1, 0, 8,  -- CFG_TAKEOVER_TIME (R795)
    [⟨63, 0, .ro, 0, 0, false, false⟩]⟩]

/-- Every register of block type 0x15. -/
def cfgRegs : List RegDesc := cfgRegs0

/-- The registers of block type 0x16, part 0. -/
def pwrRegs0 : List RegDesc := [
  ⟨0, 0, 0x100, 1, 0, 1, 0, 4,  -- PWR_CTRL (R841)
    [⟨1, 1, .rwl, 1, 0, false, false⟩, ⟨0, 0, .wo, 0, 0, false, false⟩]⟩,
  ⟨0, 0, 0x104, 1, 0, 1, 0, 4,  -- PWR_STATUS (R842)
    [⟨31, 31, .ro, 0, 0, false, false⟩, ⟨30, 30, .ro, 0, 0, false, false⟩, ⟨29, 29, .ro, 0, 0, false, false⟩, ⟨9, 0, .ro, 0, 0, false, false⟩]⟩,
  ⟨0, 0, 0x108, 1, 0, 1, 0, 4,  -- PWR_ALERT_SRC (R844)
    [⟨5, 0, .w1c, 0, 0, false, false⟩]⟩,
  ⟨0, 0, 0x10C, 1, 0, 1, 0, 4,  -- PWR_ALERT_MASK (R844)
    [⟨5, 0, .rw, 31, 0, false, false⟩]⟩,
  ⟨0, 0, 0x110, 1, 0, 1, 0, 4,  -- PWR_CX_POWER (R840)
    [⟨15, 0, .ro, 0, 0, false, false⟩]⟩,
  ⟨0, 0, 0x114, 1, 0, 1, 0, 4,  -- PWR_PKG_POWER (R840)
    [⟨15, 0, .ro, 0, 0, false, false⟩]⟩,
  ⟨0, 0, 0x118, 1, 0, 1, 0, 4,  -- PWR_ALERT_FORCE (R844)
    [⟨0, 0, .w1s, 0, 0, false, false⟩]⟩,
  ⟨0, 0, 0x120, 19, 4, 1, 0, 4,  -- PWR_TEMP (R840)
    [⟨31, 16, .ro, 0x8000, 0, false, false⟩, ⟨15, 0, .ro, 0x8000, 0, false, false⟩]⟩,
  ⟨0, 0, 0x180, 1, 0, 1, 0, 4,  -- PWR_THRESH_DIE (R841)
    [⟨23, 16, .rwl, 110, 0, false, false⟩, ⟨15, 8, .rw, 100, 0, false, false⟩, ⟨7, 0, .rw, 95, 0, false, false⟩]⟩,
  ⟨0, 0, 0x184, 1, 0, 1, 0, 4,  -- PWR_THRESH_OE (R841)
    [⟨23, 16, .rwl, 95, 0, false, false⟩, ⟨7, 0, .rw, 80, 0, false, false⟩]⟩,
  ⟨0, 0, 0x200, 10, 8, 1, 0, 8,  -- PWR_RAIL (R843)
    [⟨47, 32, .ro, 0, 0, false, false⟩, ⟨15, 0, .ro, 0, 0, false, false⟩]⟩]

/-- Every register of block type 0x16. -/
def pwrRegs : List RegDesc := pwrRegs0

/-- The registers of block type ANY (the header of every page), part 0. -/
def hdrRegs0 : List RegDesc := [
  ⟨0, 255, 0x000, 1, 0, 1, 0, 4,  -- PAGE_ID (R66)
    [⟨31, 16, .ro, 0, 21, false, false⟩, ⟨15, 0, .ro, 0, 22, false, false⟩]⟩,
  ⟨0, 255, 0x004, 1, 0, 1, 0, 4,  -- PAGE_VER (R66)
    [⟨31, 24, .ro, 2, 0, false, false⟩, ⟨23, 16, .ro, 0, 0, false, false⟩]⟩,
  ⟨0, 255, 0x008, 1, 0, 1, 0, 4,  -- PAGE_CTRL (R66)
    [⟨3, 3, .w1s, 0, 0, false, false⟩, ⟨2, 2, .rw, 0, 0, false, false⟩, ⟨1, 1, .w1s, 0, 0, false, false⟩, ⟨0, 0, .rw, 0, 0, false, false⟩]⟩,
  ⟨0, 255, 0x00C, 1, 0, 1, 0, 4,  -- PAGE_STATUS (R66)
    [⟨15, 8, .ro, 0, 0, false, false⟩, ⟨4, 4, .ro, 0, 0, false, false⟩, ⟨3, 3, .ro, 0, 0, false, false⟩, ⟨2, 2, .ro, 0, 0, false, false⟩, ⟨1, 1, .ro, 0, 0, false, false⟩, ⟨0, 0, .ro, 0, 0, false, false⟩]⟩,
  ⟨0, 255, 0x010, 1, 0, 1, 0, 4,  -- PAGE_IRQ_STATUS (R69)
    [⟨31, 0, .w1c, 0, 0, false, false⟩]⟩,
  ⟨0, 255, 0x014, 1, 0, 1, 0, 4,  -- PAGE_IRQ_ENABLE (R69)
    [⟨31, 0, .rw, 0, 0, false, false⟩]⟩,
  ⟨0, 255, 0x018, 1, 0, 1, 0, 4,  -- PAGE_IRQ_FORCE (R69)
    [⟨31, 0, .wo, 0, 0, false, false⟩]⟩,
  ⟨0, 255, 0x01C, 1, 0, 1, 0, 4,  -- PAGE_IRQ_ROUTE (R70)
    [⟨8, 8, .rwl, 0, 0, false, false⟩, ⟨7, 0, .rwl, 0, 0, false, false⟩]⟩,
  ⟨0, 255, 0x020, 1, 0, 1, 0, 4,  -- PAGE_SNAP_CTRL (R66)
    [⟨1, 0, .rw, 0, 0, false, false⟩]⟩,
  ⟨0, 255, 0x028, 1, 0, 1, 0, 8,  -- PAGE_SNAP_TIME (R67)
    [⟨63, 0, .ro, 0, 0, false, false⟩]⟩,
  ⟨0, 255, 0x040, 1, 0, 1, 0, 4,  -- PAGE_ERR_STATUS (R71)
    [⟨31, 16, .ro, 0, 0, true, false⟩, ⟨7, 4, .ro, 1, 0, true, false⟩, ⟨0, 0, .ro, 0, 0, true, false⟩]⟩,
  ⟨0, 255, 0x044, 1, 0, 1, 0, 4,  -- PAGE_ERR_CLEAR (R71)
    [⟨0, 0, .wo, 0, 0, false, false⟩]⟩,
  ⟨0, 255, 0x050, 11, 16, 1, 0, 16,  -- PAGE_ERR_ENTRY (R71)
    [⟨127, 112, .ro, 0, 0, true, false⟩, ⟨111, 104, .ro, 0, 0, true, false⟩, ⟨95, 80, .ro, 0, 0, true, false⟩, ⟨79, 64, .ro, 0, 0, true, false⟩, ⟨63, 0, .ro, 0, 0, true, false⟩]⟩]

/-- Every register of block type ANY. -/
def hdrRegs : List RegDesc := hdrRegs0

/-- Every group of counters in the format of R281: type, first and last page instance, offset, and up to three array dimensions. -/
def counterRows : List CntDesc := [
  ⟨0x01, 0, 0, 0x200, 6, 8, 1, 0, 1, 0⟩,
  ⟨0x04, 0, 63, 0x600, 8, 168, 21, 8, 1, 0⟩,
  ⟨0x05, 0, 63, 0x600, 8, 320, 8, 40, 5, 8⟩,
  ⟨0x06, 0, 15, 0x200, 13, 8, 1, 0, 1, 0⟩,
  ⟨0x07, 0, 7, 0x110, 1, 8, 1, 0, 1, 0⟩,
  ⟨0x07, 0, 7, 0x118, 1, 8, 1, 0, 1, 0⟩,
  ⟨0x07, 0, 7, 0x120, 1, 8, 1, 0, 1, 0⟩,
  ⟨0x07, 0, 7, 0x200, 8, 16, 1, 0, 1, 0⟩,
  ⟨0x07, 0, 7, 0x208, 8, 16, 1, 0, 1, 0⟩,
  ⟨0x07, 0, 7, 0x280, 8, 8, 1, 0, 1, 0⟩,
  ⟨0x08, 0, 63, 0x600, 8, 64, 8, 8, 1, 0⟩,
  ⟨0x09, 0, 15, 0x800, 6, 8, 1, 0, 1, 0⟩,
  ⟨0x0A, 0, 15, 0xC00, 6, 8, 1, 0, 1, 0⟩,
  ⟨0x0B, 0, 7, 0x300, 4, 8, 1, 0, 1, 0⟩,
  ⟨0x0C, 0, 33, 0x200, 6, 8, 1, 0, 1, 0⟩,
  ⟨0x0D, 0, 1, 0xC00, 19, 8, 1, 0, 1, 0⟩,
  ⟨0x0E, 0, 0, 0x200, 16, 8, 1, 0, 1, 0⟩,
  ⟨0x0F, 0, 0, 0x300, 2, 8, 1, 0, 1, 0⟩,
  ⟨0x0F, 1, 16, 0x200, 8, 32, 4, 8, 1, 0⟩,
  ⟨0x0F, 1, 16, 0x300, 4, 8, 1, 0, 1, 0⟩,
  ⟨0x10, 0, 0, 0x200, 12, 8, 1, 0, 1, 0⟩,
  ⟨0x10, 1, 1, 0x200, 8, 8, 1, 0, 1, 0⟩,
  ⟨0x11, 0, 0, 0x200, 13, 8, 1, 0, 1, 0⟩,
  ⟨0x12, 0, 0, 0x200, 10, 8, 1, 0, 1, 0⟩,
  ⟨0x13, 0, 0, 0x200, 6, 8, 1, 0, 1, 0⟩,
  ⟨0x13, 1, 1, 0x108, 64, 16, 1, 0, 1, 0⟩,
  ⟨0x15, 0, 0, 0x200, 6, 8, 1, 0, 1, 0⟩,
  ⟨0x16, 0, 0, 0x300, 4, 8, 1, 0, 1, 0⟩]

/-- The registers of a block type (R73). -/
def regsOfType : Nat → List RegDesc
  | 1 => mgmtRegs
  | 2 => hostRegs
  | 3 => timeRegs
  | 4 => ptRegs
  | 5 => qmRegs
  | 6 => fwtRegs
  | 7 => ringRegs
  | 8 => tideRegs
  | 9 => oeRegs
  | 10 => cwRegs
  | 11 => elsRegs
  | 12 => fenRegs
  | 13 => fadmRegs
  | 14 => peatRegs
  | 15 => tierRegs
  | 16 => delRegs
  | 17 => baroRegs
  | 18 => chkRegs
  | 19 => pmcRegs
  | 20 => secRegs
  | 21 => cfgRegs
  | 22 => pwrRegs
  | _ => []
/-- The queue limits at reset, TC0 first (R258). -/
def qmLimitReset (c : Nat) : Nat := ([192, 64, 256, 192, 192, 320, 256, 64]).getD c 0

/-- The early-drop profile of class c and colour k at reset as (ACTION, MIN, MAX, MAXP) (R263). -/
def profReset (c k : Nat) : Nat × Nat × Nat × Nat :=
  if c ≥ 6 then (0, 0, 0, 0) else if k = 0 then (1, 12, 15, 63) else if k = 1 then (0, 8, 14, 127) else (0, 4, 8, 255)

/-- The arbiter weights at reset, client i of an HBM4E or LPDDR6 channel (R591). -/
def arbWeightReset (ch i : Nat) : Nat :=
  if ch < 8 then ([48, 48, 96, 16, 8, 16, 16, 8]).getD i 0 else ([0, 0, 128, 64, 32, 8, 16, 8]).getD i 0

/-- The weights of Barometer's inputs at reset (R688). -/
def baroWeightReset (i : Nat) : Nat :=
  ([1, 20, 10, 2000, 500, 1000, 5, 100, 500, 2000, 10000, 100, 5000, 2, 200, 1000, 1000, 5000, 500, 10, 2000, 1000, 1, 2000]).getD i 0

/-- The reset rules that depend on the page instance n or on the array indices i and c. -/
def resetRule (fn typ n i c : Nat) : Nat :=
  match fn with
  | 1 => qmLimitReset c
  | 2 => (profReset i c).1
  | 3 => (profReset i c).2.1
  | 4 => (profReset i c).2.2.1
  | 5 => (profReset i c).2.2.2
  | 6 => if c = 7 ∨ c = 1 then 1 else 0
  | 7 => if c = 7 ∨ c = 1 then 1 else 0
  | 8 => if c = 7 then 4000 else if c = 1 then 8000 else 0
  | 9 => if c = 7 ∨ c = 1 then 16384 else 0
  | 10 => ([64, 32, 128, 128, 128, 256, 128]).getD c 0
  | 11 => if n = 16 ∨ n = 33 then 0 else 1
  | 12 => if n = 16 ∨ n = 33 then 1 else 0
  | 13 => if n = 16 ∨ n = 33 then 0 else n % 17
  | 14 => if n ≤ 8 then 1 else 0
  | 15 => arbWeightReset (n - 1) i
  | 16 => ([2000, 5000, 2000, 2000, 1000, 500, 2000]).getD i 0
  | 17 => ([10000, 50000, 10000, 10000, 5000, 2000, 20000]).getD i 0
  | 18 => ([16, 16, 16, 16, 16, 14, 16]).getD i 0
  | 19 => baroWeightReset i
  | 20 => 17 * i + c
  | 21 => typ
  | 22 => n
  | _ => 0

/-- The array indices and the word within the register of offset off, when register r covers it. -/
def RegDesc.locate (r : RegDesc) (off : Nat) : Option (Nat × Nat × Nat) :=
  if off < r.off then none else
  let rel := off - r.off
  let i := if r.n1 = 1 then 0 else rel / r.s1
  let rel := if r.n1 = 1 then rel else rel % r.s1
  let c := if r.n2 = 1 then 0 else rel / r.s2
  let rel := if r.n2 = 1 then rel else rel % r.s2
  if i < r.n1 ∧ c < r.n2 ∧ rel < r.bytes then some (i, c, rel / 4) else none

/-- A register found at an address: its description, block type, page instance, array indices and word. -/
structure RegAt where
  desc : RegDesc
  typ : Nat
  inst : Nat
  i : Nat
  c : Nat
  w : Nat
  deriving DecidableEq, Repr

/-- The first register of a list that covers offset off of page instance n. -/
def findIn (typ n off : Nat) : List RegDesc → Option RegAt
  | [] => none
  | r :: rs =>
    if r.i0 ≤ n ∧ n ≤ r.i1 then
      match r.locate off with
      | some (i, c, w) => some ⟨r, typ, n, i, c, w⟩
      | none => findIn typ n off rs
    else findIn typ n off rs

/-- Do pages of this block type and instance carry the common header (R66)? -/
def hasHeader (typ n : Nat) : Bool := !(typ == 2 && 16 ≤ n)

/-- The register at a BAR0 byte address in the block pages. -/
def regAt (a : Nat) : Option RegAt :=
  let typ := a / 0x100000
  let n := a / 4096 % 256
  let off := a % 4096
  if off < 0x100 && hasHeader typ n then findIn typ n off hdrRegs else findIn typ n off (regsOfType typ)

/-- The part of field f that lies in word w: its low bit in the word and its width there. -/
def FieldDesc.part (f : FieldDesc) (w : Nat) : Option (Nat × Nat × Nat) :=
  let lo := max f.lo (32 * w)
  let hi := min f.hi (32 * w + 31)
  if lo ≤ hi then some (lo - 32 * w, hi - lo + 1, lo - f.lo) else none

/-- The value of field f at reset. -/
def RegAt.fieldReset (r : RegAt) (f : FieldDesc) : Nat := if f.fn = 0 then f.rst else resetRule f.fn r.typ r.inst r.i r.c

/-- The value that a register's word holds at reset (R68). -/
def RegAt.reset (r : RegAt) : Nat :=
  r.desc.fields.foldl (fun a f => match f.part r.w with
    | some (lo, n, sh) => a + (r.fieldReset f >>> sh) % 2 ^ n * 2 ^ lo
    | none => a) 0

/-- The bits of a register's word that belong to the fields p selects. -/
def RegAt.mask (r : RegAt) (p : FieldDesc → Bool) : Nat :=
  r.desc.fields.foldl (fun a f => match f.part r.w with
    | some (lo, n, _) => if p f then a + (2 ^ n - 1) * 2 ^ lo else a
    | none => a) 0

/-- What the word at a BAR0 address holds at reset; a reserved word holds zero (R15). -/
def resetWord (a : Nat) : Word := BitVec.ofNat 32 ((regAt a).elim 0 RegAt.reset)

/-- The sticky bits of the word at an address (R68). -/
def stickyMask (a : Nat) : Nat := (regAt a).elim 0 fun r => r.mask (·.sticky)

/-- Is a block page implemented (R73 and the chapters' page lists)? -/
def pageImplemented (p : Nat) : Bool :=
  let n := p % 256
  match p / 256 with
  | 1 => n = 0
  | 2 => n ≤ 8 || (16 ≤ n && n ≤ 24)
  | 3 => n ≤ 2
  | 4 => n ≤ 63
  | 5 => n ≤ 63
  | 6 => n ≤ 15
  | 7 => n ≤ 7
  | 8 => n ≤ 63
  | 9 => n ≤ 15
  | 10 => n ≤ 15
  | 11 => n ≤ 7
  | 12 => n ≤ 33
  | 13 => n ≤ 1
  | 14 => n ≤ 1
  | 15 => n ≤ 16
  | 16 => n ≤ 1
  | 17 => n ≤ 1
  | 18 => n ≤ 4
  | 19 => n ≤ 3
  | 20 => n = 0
  | 21 => n = 0
  | 22 => n = 0
  | _ => false

/-- The low word's address of the counter (R281) that covers a BAR0 address, if a counter does. -/
def CntDesc.locate (c : CntDesc) (a : Nat) : Option Nat :=
  let n := a / 4096 % 256
  if a / 0x100000 = c.typ ∧ c.i0 ≤ n ∧ n ≤ c.i1 ∧ c.off ≤ a % 4096 then
    let rel := a % 4096 - c.off
    let i := if c.n1 = 1 then 0 else rel / c.s1
    let rel := if c.n1 = 1 then rel else rel % c.s1
    let j := if c.n2 = 1 then 0 else rel / c.s2
    let rel := if c.n2 = 1 then rel else rel % c.s2
    let k := if c.n3 = 1 then 0 else rel / c.s3
    let rel := if c.n3 = 1 then rel else rel % c.s3
    if i < c.n1 ∧ j < c.n2 ∧ k < c.n3 ∧ rel < 8 then some (a - rel) else none
  else none

/-- The counter at a BAR0 address: the address of its low word. -/
def counterAt (a : Nat) : Option Nat := counterRows.findSome? (·.locate a)

end Sys2Proof
end

