-- ==== Sys2Proof/Machine/State.lean ====
section
/-! DEFINITION. The state of the TK9512 as plain data, grouped by the chapters of spec/, and the state after a cold reset. -/
namespace Sys2Proof.Machine

/-! ### Chapter 2: host attachment -/

/-- An event entry (the entry layout before R850), less PHASE and LOST, which are given when it is written. -/
structure Ev where
  kind : Nat
  source : Nat
  tag : Nat
  status : Nat
  location : Nat
  flagsSum : Nat
  ring : Option Nat       -- the command ring of a completion; it reads as 0 elsewhere
  time : Nat
  head : Nat
  payload : List Byte
  deriving DecidableEq, Repr

/-- The internal state of a command ring beside its descriptor registers (R82–R90). -/
structure CrSt where
  head : Nat        -- HOST_CR_HEAD.COUNT
  state : Nat       -- HOST_CR_STATUS.STATE
  error : Nat       -- HOST_CR_STATUS.ERROR
  rereading : Bool  -- a RdShared of the tail line is outstanding (R86)
  tail : Nat        -- the tail count last read
  fetchTo : Nat     -- entries up to this count are being fetched with RdCurr (R86)
  deriving DecidableEq, Repr

/-- The internal state of an event ring beside its descriptor registers (R95–R100, R849). -/
structure ErSt where
  prod : Nat            -- HOST_ER_PROD.COUNT
  cons : Nat            -- CONS as last read
  overflowed : Nat      -- HOST_ER_STATUS.OVERFLOWED
  dropped : Nat         -- HOST_ER_STATUS.DROPPED
  lost : Bool           -- the next entry written carries LOST
  seq : Nat             -- the ring's event sequence
  waiting : List Ev     -- completions held back and events queued, in the order they arose (R98)
  unsig : List Nat      -- the tick each entry written and not yet signalled was written at, oldest first
  done : Nat            -- how many of those the host has completed
  deriving DecidableEq, Repr

/-- A command taken and not yet completed (R91): its entry's fields, the tick it was taken at, and whether it has started. -/
structure Started where
  src : CmdSrc
  opcode : Nat
  tag : Nat
  event : Bool
  fence : Bool
  target : Nat
  operands : List Byte
  at_ : Nat
  running : Bool
  deriving DecidableEq, Repr

/-- HOST and MGMT: the rings, the latches of R61, the key sequence of HOST_RESET and the management session. -/
structure HostSt where
  cr : Tbl CrSt
  er : Tbl ErSt
  started : List Started      -- commands not yet completed, in the order in which they were taken
  latch : Tbl Word            -- high words latched by reads of low words (R61), by address
  rstKey : Option Nat         -- the tick of a write of 0x0000_A55A to HOST_RESET
  mpSeq : Option Nat          -- the greatest SEQ accepted in the session (R103)
  mpEvents : Nat              -- EVENT frames sent in the session (R102)
  keys : Tbl Nat              -- the management key slots that hold a key (R106)
  authLog : Option Nat        -- the tick error 0x0100 of MGMT was last logged at
  sessions : Nat              -- sessions drawn before this one (R103)
  deriving DecidableEq, Repr

/-- The state of a command ring after reset: stopped. -/
def CrSt.init : CrSt := ⟨0, 0, 0, false, 0, 0⟩
/-- The state of an event ring after reset. -/
def ErSt.init : ErSt := ⟨0, 0, 0, 0, false, 0, [], [], 0⟩
/-- The host block after reset. -/
def HostSt.init : HostSt := ⟨[], [], [], [], none, none, 0, [], none, 0⟩

/-! ### Chapter 3: network time -/

/-- A pulse output's progress (R162–R167): the number of its next edge, and, of the pulse that is high, the tick it ends at and how long before its
tick its edge was made (2^-32 ns). -/
structure TpoSt where
  next : Nat
  highUntil : Option (Nat × Nat)
  deriving DecidableEq, Repr

/-- A capture input (R168–R171): the accepted level, the tick of the last accepted event and of the last edge to active. -/
structure TpiSt where
  active : Bool
  lastEvent : Option Nat
  since : Nat
  deriving DecidableEq, Repr

/-- A stamp in the transmit timestamp queue (R140). -/
structure TxStamp where
  id : Nat
  port : Nat
  stamp : Nat
  deriving DecidableEq, Repr

/-- The device's side of ASYM_CAL under way (R157–R160). -/
structure CalSt where
  port : Nat
  hdr : CmdHdr
  w : Nat           -- W in units of 2^-32 ns
  up : Nat          -- u in centimetres
  down : Nat        -- d in centimetres
  released : Bool   -- the hairpin has been released (step 4)
  deriving DecidableEq, Repr

/-- The far end's side of a calibration loop (R161). -/
structure CalFar where
  port : Nat
  w : Nat
  sentAt : Option Nat   -- t_tx of the burst, 2^-16 ns
  backAt : Option Nat   -- t_rx of the burst, 2^-16 ns
  deriving DecidableEq, Repr

/-- The time core beside its registers. `now` is device time in units of 2^-32 ns (R109); `ticks` counts TIME_CLK ticks since
the last cold reset, the model's own measure of elapsed time (R11). -/
structure TimeSt where
  now : Nat
  ticks : Nat
  slew : Int               -- remaining offset of a slew, 2^-32 ns (R118)
  pending : Option Int     -- the pending over-limit offset, 2^-32 ns (R120)
  held : Tbl Word          -- words held under R117, by address
  stepKey : Option Nat     -- the tick of a write of 0x0000_C3C3 (R121)
  holdFrom : Nat           -- the tick the hold window began at (R126)
  holdoverFrom : Nat       -- the tick HOLDOVER was entered at
  lostFrom : Option Nat    -- the tick LOST was entered at, until TIME_PARK_MAX has passed (R129)
  lostDev : Nat            -- the device time of that tick (R852)
  resuming : Bool          -- a resumption at TIME_RESUME_TIME is pending (R132, R134)
  nowLatch : Nat           -- TIME_NOW as latched, 128 bits
  txq : List TxStamp       -- the transmit timestamp queue, head first
  txqLatch : Nat           -- TIME_TXQ_ENTRY as latched, 128 bits
  tpo : Tbl TpoSt
  tpi : Tbl TpiSt
  captLatch : Tbl Nat      -- TPI_CAPT_k as latched
  noticeSeq : Tbl Nat      -- STATE_NOTICEs sent, by logical port (R852)
  syncSeq : Tbl Nat        -- sequence identifiers of Sync, Pdelay_Req and Announce, by port and kind
  steps : Nat              -- STEPS that the device's own Sync carries
  srcLost : Tbl Bool       -- sources whose last Sync carried FLAGS.LOST (R153)
  cal : List CalSt         -- ASYM_CAL commands under way
  calFar : Tbl CalFar      -- by port
  unlocked : Bool          -- LOST has been entered and LOCKED not since (R166)
  srcAt : Tbl Nat          -- 1 + the tick of the last Sync, by source port (R153)
  sentAt : Tbl Nat         -- 1 + the tick of the last Sync or Pdelay_Req sent, by 16 × port + kind (R143)
  sample : Option (Nat × Nat)   -- the last 1588 sample: its time (2^-32 ns) and the tick it came (R152)
  deriving DecidableEq, Repr

/-- The time core after reset: time zero, UNSET (R125). -/
def TimeSt.init : TimeSt :=
  ⟨0, 0, 0, none, [], none, 0, 0, none, 0, false, 0, [], 0, [], [], [], [], [], 0, [], [], [], false, [], [], none⟩

/-! ### Chapters 4 and 5: packets inside the device -/

/-- Where a packet inside the device stands (R228, R235–R249, R265). -/
inductive Stage where
  /-- In ingress staging, header checked and policed, waiting for a lookup slot (R225, R229). -/
  | staged
  /-- Looked up; its flits enter the ring toward the switch, and none has arrived there yet (R235–R240, R357). -/
  | routed
  /-- Its head flit has reached its switch input queue (R244). -/
  | atSwitch
  /-- The copy that a switch output carries for its quadrant or function port (R249): its flits pass the switch and go on to the output tiles. -/
  | toOutput (output : Nat)
  /-- In the output queue of a logical port and its class. -/
  | queued (lport : Nat)
  /-- Being sent by cut-through on a logical port, its tail not yet arrived (R265). -/
  | cutting (lport : Nat)
  deriving DecidableEq, Repr

/-- A destination of a packet: a logical port with the FEID and the SEQ its copy carries (R205, R306), or a die's function port (R228). -/
inductive Dest where
  | port (lport feid seq : Nat)
  | fn (die : Nat)
  deriving DecidableEq, Repr

/-- The record of a tagged packet on its way (R753, R754): had it arrived tagged (ORIGIN_TAG), device time of stage 0, and the stages reached as pairs of
stage and picoseconds since stage 0. -/
structure TagTrack where
  origin : Bool
  t0 : Nat
  stages : Tbl Nat
  deriving DecidableEq, Repr

/-- A frame a Drizzle sampler took (R276–R278): its sampler, the flight it belongs to, and its record less FLAGS and REASON. -/
structure DrzFrame where
  lport : Nat
  tx : Bool
  flight : Option Nat     -- the flight whose end it waits for; none once the frame has ended
  endAt : Nat             -- the tick it ended at
  stomped : Bool
  discarded : Bool
  reason : Nat
  length : Nat
  log2n : Nat
  time : Nat
  seq : Nat
  bytes : List Byte
  deriving DecidableEq, Repr

/-- One packet inside the device. -/
structure Flight where
  id : Nat
  pkt : Pkt
  from_ : Option Nat      -- the logical port it arrived on; none for a packet a function originates
  stage : Stage
  dests : List Dest       -- destinations still to be served
  replica : Bool          -- it is replicated, and this is or becomes one of its copies (R753)
  marked : Bool           -- CMARK is to be set at transmission (R262)
  group : Option Nat      -- the group it is replicated to (R306)
  resends : Nat           -- bridge resends of the flit that fails (R246)
  at_ : Nat               -- the tick it reached its stage at
  track : Option TagTrack -- its tag record under way (R751–R754)
  stampId : Option Nat    -- the stamp identifier firmware marked it with (R140)
  inp : Nat               -- its switch input: 0–7 a quadrant, 8 and 9 the function port of a die (R244)
  got : Nat               -- the flits of it that are at the switch input, or have passed the switch (R238, R244)
  whole : Bool            -- its last flit is at its output tile: its tail has arrived and passed every check (R265)
  deriving DecidableEq, Repr

/-- A packet's way along one ring (R235–R240): from its port tile to the switch stop, or from the switch stop to the tile of an egress port. -/
structure Leg where
  id : Nat
  out : Option Nat        -- the egress port; none toward the switch
  ring : Nat              -- 16 × quadrant + 2 × ring pair + 1 for the anticlockwise ring of the pair
  src : Nat               -- the stops it enters and leaves at
  dst : Nat
  cls : Nat
  flits : Nat
  ready : Nat             -- flits that may enter by now
  sent : Nat              -- flits that have entered
  got : Nat               -- flits that have left at `dst`
  deriving DecidableEq, Repr

/-- A ring (R239, R241): the flit buffers of its stops, by 8 × stop + class, each flit as the key of its leg, oldest first; the leg that holds the link
from a stop within a class, with the flits of it that have passed; the rotation over TC5 to TC0, by stop. -/
structure RingSt where
  buf : Tbl (List Nat)
  hold : Tbl (Nat × Nat)
  rot : Tbl Nat
  deriving DecidableEq, Repr

def RingSt.init : RingSt := ⟨[], [], []⟩

/-- A received frame with a packet (R225, R329, R336): the packet as received, the units and pool of its credits, whether the link layer has accepted
the frame, whether the packet has left staging or been discarded, whether its credits are freed, whether its tail has been judged, and whether a reason of
R221 has been counted for it or it was dropped before its tail. -/
structure RxFrame where
  id : Nat
  lport : Nat
  pkt : Pkt
  shared : Bool
  accepted : Bool
  left : Bool
  freed : Bool
  tailed : Bool
  counted : Bool
  deriving DecidableEq, Repr

/-- A token bucket pair of a policer (R230): in units of 1/6,250 byte (rate units per tick), and the tick they were last filled at. -/
structure PolSt where
  tc : Nat
  tp : Nat
  at_ : Nat
  deriving DecidableEq, Repr

/-- A Drizzle or tag sampler (R276, R751): frames seen in the block, the position drawn for the block, frames taken, the setting the block began under. -/
structure SampSt where
  seen : Nat
  pos : Nat
  taken : Nat
  log2n : Nat           -- the LOG2_N of the block
  deriving DecidableEq, Repr

/-- The switch core beside its registers. -/
structure SwSt where
  flights : List Flight       -- every packet inside the device; packets of one queue stand in queue order
  nextId : Nat
  pol : Tbl PolSt             -- policer tokens by 64 × tile + 8 × port + class
  lfsr : Tbl Nat              -- the early-drop LFSR of each tile (R261)
  tileRot : Tbl Nat           -- lookup rotation over tiles, by pipeline (R229)
  portRot : Tbl Nat           -- lookup rotation over ports, by tile (R229)
  swRot : Tbl Nat             -- rotation over (input, class), by switch output (R244)
  published : Tbl Nat         -- occupancies as published, by 64 × tile + 8 × port + class (R272)
  drzGen : Tbl Nat            -- draws taken from each tile's Drizzle generator since its seed was loaded (R276)
  rxSamp : Tbl SampSt         -- receive samplers by physical port
  txSamp : Tbl SampSt         -- transmit samplers by physical port
  drz : List DrzFrame         -- frames sampled whose record has not been sent, oldest first (R278)
  drzTok : Tbl PolSt          -- Drizzle buckets by quadrant (R279); only tc is used
  credHeld : List (Nat × Bool × Nat × Nat)   -- credits a freeze holds: logical port, shared pool, class, units (R669)
  streams : Tbl Nat           -- the next SEQ of the device's own streams, by class, source and destination (R205)
  peak : Tbl Nat              -- the greatest occupancy of a logical port's queues since the last window boundary (R654)
  sat : Tbl (Nat × Nat)       -- by 8 × logical port + class, since the last window boundary: ticks at or above the threshold of R264, and 1 + the tick it is there from
  fnq : Tbl (List (Nat × Pkt))   -- packets delivered at the function ports, by 8 × die + class, oldest first: arrival port (1024: none), packet (R356)
  rx : List RxFrame           -- received frames whose packet has not left staging with its credits freed and its tail judged
  legs : List Leg             -- the ways over the rings under way; those of one stop and class stand in the order in which they enter
  rings : Tbl RingSt          -- by ring (Leg.ring)
  deriving DecidableEq, Repr

/-- The switch core after reset. -/
def SwSt.init : SwSt := ⟨[], 0, [], [], [], [], [], [], [], [], [], [], [], [], [], [], [], [], [], [], []⟩

/-! ### Chapter 6: forwarding tables -/

/-- One pipeline's copy of the tables, and its spray pointers (R286, R273). Words are held as R293 and R296 lay them out. -/
structure Pipe where
  row : Tbl Nat           -- 128-bit bundle words by leaf
  epgen : Tbl Nat         -- endpoint generation bytes by 256 × leaf + EP
  ovr : Tbl Nat           -- 64-bit override entries by entry index (R297), with this pipeline's HIT
  stash : Tbl Nat         -- stash entries 0–15
  ptr : Tbl Nat           -- spray pointer by leaf (R273, R274)
  deriving DecidableEq, Repr

/-- One die's copy of the group tables, and the spray pointers of its function-port lookup (R286, R856). -/
structure DieTbl where
  grp : Tbl Nat           -- 128-bit group entries by entry index
  member : Tbl Nat        -- FEIDs by slot
  ptr : Tbl Nat           -- spray pointer by leaf of the function-port lookup
  deriving DecidableEq, Repr

/-- The forwarding tables. -/
structure FwtSt where
  pipes : List Pipe
  dies : List DieTbl
  stashAge : List Nat     -- stash entry numbers in use, oldest first (R301)
  sluice : List Nat       -- the sluice list: FEID[31:12] (R352)
  genCommit : Nat         -- the tick of the last commit that changed a generation (R352)
  moveAt : Tbl Nat        -- the tick of each pipeline's last move notice, plus one (R314)
  learnSeq : Tbl Nat      -- the last LEARN_SEQ applied, plus one, by origin (R316)
  learnAcked : Tbl Nat    -- the last LEARN_SEQ acknowledged, plus one, by the spine that acknowledged it (R316)
  cmpAt : Tbl Nat         -- the comparator's next word, by pipeline
  cmpUrgent : Tbl Nat     -- the word to be checked out of turn, plus one, by pipeline (R320)
  deriving DecidableEq, Repr

def Pipe.init : Pipe := ⟨[], [], [], [], []⟩
def DieTbl.init : DieTbl := ⟨[], [], []⟩
/-- The tables after cold and warm reset (R855): everything empty. -/
def FwtSt.init : FwtSt := ⟨List.replicate 16 Pipe.init, List.replicate 2 DieTbl.init, [], [], 0, [], [], [], [], []⟩

/-! ### Chapter 7: links -/

/-- The states of a link (R341), numbered as R365 reports them. -/
inductive LinkState where
  | down | align | hello | up | sluice | holdDown
  deriving DecidableEq, Repr

/-- A frame in the replay store (R338): its LSEQ, packet, cells, the tick it was last sent at, stomped. -/
structure Replay where
  lseq : Nat
  pkt : Pkt
  cells : Nat
  sentAt : Nat
  stomped : Bool
  deriving DecidableEq, Repr

/-- A logical link (R341–R351, R328–R338, R365). -/
structure LinkSt where
  st : LinkState
  gen : Nat               -- the provisioned generation (R348)
  farGen : Nat            -- the far end's last LINK_GEN
  farId : Option Nat      -- the ID of the HELLO accepted
  seen : Bool             -- SEEN in the device's own HELLO (R342)
  h : Nat                 -- the hold-down H in ms (R346)
  since : Nat             -- the tick the state was entered at
  quietFrom : Nat         -- the tick the current 60 s without a flap began at (R346)
  holdFor : Nat           -- the hold-down in progress, in ms (R346)
  waitFrom : Option Nat   -- waiting H in DOWN since this tick (R347)
  locked : Bool           -- the optics report the reeds locked
  aligned : Bool          -- the PCS is aligned
  txSeq : Nat             -- the next LSEQ to send
  rxSeq : Nat             -- the next LSEQ expected
  nakFor : Option (Nat × Nat)   -- the NAK_SEQ last sent and its tick (R333)
  replay : List Replay    -- unacknowledged frames, oldest first
  resent : Nat            -- consecutive resends of the same oldest frame (R335)
  privLimit : Nat         -- the far end's advertised PRIV_LIMIT
  sharedLimit : Nat
  sharedCap : Nat
  privTaken : List Nat    -- units taken and freed, by class, modulo 2^16 (R330)
  privFreed : List Nat
  sharedTaken : List Nat
  sharedFreed : List Nat
  ownPriv : List Nat      -- PRIV_FREED and SHARED_FREED that the device reports, by class
  ownShared : List Nat
  retryTx : Nat
  nakTx : Nat
  nakRx : Nat
  replayTimeouts : Nat
  fecUncorr : Nat
  replayStall : Nat
  flaps : Nat
  stalled : Bool          -- a head packet waits for replay cells (R338)
  rxOpen : Option Nat     -- the frame being received, by the number of its packet (R332, R337)
  ackDue : Bool           -- an ACK, CREDIT or NAK frame waits for the port to be lit again (R330, R333, R384)
  creditDue : Bool
  nakDue : Bool
  resendFrom : Option Nat -- a resend waits for the frame in progress to end: its first LSEQ (R334)
  deriving DecidableEq, Repr

/-- A tracker of stale discards (R352): FEID[31:12], the ticks of its discards in the last millisecond, oldest first. -/
structure StaleTrk where
  key : Nat
  at_ : List Nat
  deriving DecidableEq, Repr

/-- The links and the device-wide link parameters (R364). -/
structure LinksSt where
  link : Tbl LinkSt       -- by logical port
  trackers : List StaleTrk
  sluiceGrace : Nat
  staleThresh : Nat
  retryLimit : Nat
  replayTimeout : Nat
  deriving DecidableEq, Repr

/-- A link after reset: DOWN, H 1 ms, generation 0x00 (R346, R348). -/
def LinkSt.init : LinkSt :=
  ⟨.down, 0, 0, none, false, 1, 0, 0, 0, none, false, false, 0, 0, none, [], 0, 0, 0, 0,
    List.replicate 8 0, List.replicate 8 0, List.replicate 8 0, List.replicate 8 0, List.replicate 8 0, List.replicate 8 0,
    0, 0, 0, 0, 0, 0, 0, false, none, false, false, false, none⟩
/-- The links after reset (R364). -/
def LinksSt.init : LinksSt := ⟨[], [], 100, 16, 16, 4000⟩

/-! ### Chapter 8: tide engines and the output scheduler -/

/-- A list bank (R377). BASE is in whole nanoseconds; entries are the 64-bit words of R378. -/
structure TideBank where
  valid : Bool
  base : Nat
  cycle : Nat
  gen : Nat
  entries : List Nat
  deriving DecidableEq, Repr

/-- A launch entry (R393): LAUNCH_T in hundredths of a nanosecond, and the period in ticks. -/
structure Launch where
  t : Nat
  period : Nat
  deriving DecidableEq, Repr

/-- A port's tide engine beside its registers. -/
structure PortTide where
  bank0 : TideBank
  bank1 : TideBank
  hasActive : Bool          -- a bank is active (R386)
  start : Nat               -- WAITING: the cycle start it waits for, in hundredths of a nanosecond
  stop : Option Nat         -- the time of a TIDE_STOP that has not taken effect, in ns
  launches : Tbl Launch     -- by entry 0–15
  deriving DecidableEq, Repr

/-- A shaper's tokens in units of 1/6,250 byte (RATE units per tick), and the tick they were last filled at (R374). -/
structure ShpSt where
  tok : Int
  at_ : Nat
  deriving DecidableEq, Repr

/-- The tide engines and schedulers. -/
structure TideSt where
  port : Tbl PortTide       -- by physical port
  shp : Tbl ShpSt           -- by 8 × logical port + class; an unlisted one is full at its BURST
  deficit : Tbl Nat         -- R370, by 8 × logical port + class
  fresh : Tbl Bool
  rr : Tbl Nat              -- 6 less the class of the round robin's ptr, by logical port (R370)
  held : Tbl Bool           -- counted in GUARD_HOLD and not eligible until its gate next allows it (R381)
  darkEnd : Tbl Nat         -- the end of a port's last dark slot, in hundredths of a nanosecond (R384)
  darkFrom : Tbl Nat        -- the tick a dark port went dark at (R384)
  checks : Tbl Nat          -- CHECK of the package behind a bank, by 2 × port + bank (R397, R803)
  deriving DecidableEq, Repr

def TideBank.init : TideBank := ⟨false, 0, 0, 0, []⟩
def PortTide.init : PortTide := ⟨TideBank.init, TideBank.init, false, 0, none, []⟩
def TideSt.init : TideSt := ⟨[], [], [], [], [], [], [], [], []⟩

/-! ### Chapter 9: optical engines, laser modules and causeways -/

/-- A bank of causeway maps (R441): each map is its 32 bytes as one number, byte 0 lowest. -/
structure CwBank where
  gen : Nat
  maps : Tbl Nat
  deriving DecidableEq, Repr

/-- A standing causeway being built or cleared (R458). -/
structure CwBuild where
  src : Nat
  dst : Nat
  set : Bool
  hdr : Option CmdHdr
  startedAt : Nat
  deriving DecidableEq, Repr

/-- An engine's crosspoint beside its registers. -/
structure EngSt where
  bank0 : CwBank
  bank1 : CwBank
  standing : Nat           -- standing causeways, as 32 map bytes
  builds : List CwBuild
  faulty : List Nat        -- elements that failed to switch, as 128 i + 16 j + k (ELEMENT_FAULT)
  suppressed : List Nat    -- source local ports suppressed in the current slot (R446)
  shadowArmed : Bool       -- the shadow bank's elements are armed: it was loaded since the last activation (R463, R464)
  deriving DecidableEq, Repr

/-- A margin test of the device's own transmitter (R434). -/
structure MarginTest where
  lport : Nat
  reeds : Nat              -- reeds under test
  stepping : Nat           -- reeds still stepping
  s : Nat
  margins : List Nat       -- by reed; 0xFF not yet known
  aborted : Nat            -- reeds whose test has aborted, because the far end removed them (R468)
  sentAt : Nat             -- the tick its last STEP was sent at
  deriving DecidableEq, Repr

/-- Optics beside their registers. -/
structure OpticsSt where
  eng : Tbl EngSt          -- by engine
  firstLock : Tbl Nat      -- the tick a port's first reed locked, plus one (R431), by logical port
  tests : List MarginTest
  farTests : Tbl Nat       -- by logical port: reeds × 256 + attenuation of the STEP whose dwell runs, plus one (R435)
  retries : List (Nat × Nat × Nat)   -- aborted tests to retry: logical port, reeds, tick of the abort (R434)
  farMargins : Tbl Nat     -- the far end's margins by logical port, from DONE
  reedCmds : List (CmdHdr × Nat × Nat)   -- REED_RETRY commands under way: header, port, reeds
  runCmds : List (CmdHdr × Nat × Nat)    -- MARGIN_RUN commands under way: header, port, reeds under test
  idReads : List CmdHdr    -- ID_READ commands under way
  lockAt : Tbl Nat         -- the tick a reed's rings last locked, plus one, by 4 × port + reed (R426)
  upFresh : Tbl Bool       -- the link has entered UP and LOW_MARGIN reeds are to be tested again, by logical port (R432)
  pref : Nat               -- P_ref, the CX power at the heater loops' last settled sample (R428)
  heater : Tbl Int         -- the feed-forward term of each engine, in µW (R428)
  checks : Tbl Nat         -- CHECK of the package behind a bank, by 2 × engine + bank (R461, R803)
  parkDue : List Nat       -- engines whose crosspoint has still to park since LOST was entered (R129, R455)
  shut : List Nat          -- reeds, as 4 × port + reed, whose carrier gate is closed because they left the live set (R437)
  deriving DecidableEq, Repr

def CwBank.init : CwBank := ⟨0, []⟩
def EngSt.init : EngSt := ⟨CwBank.init, CwBank.init, 0, [], [], [], false⟩
def OpticsSt.init : OpticsSt := ⟨[], [], [], [], [], [], [], [], [], [], [], 0, [], [], [], []⟩

/-! ### Chapter 11: Fen -/

/-- A contribution region accepted (R534): the contributor (a member index, or 2^20 + h for hall h), its region (16 × limb + region for a
hall), its PCRC and CCHK, its bytes, and whether its packet had POISON set (R183). -/
structure Contrib where
  who : Nat
  region : Nat
  pcrc : Nat
  cchk : Nat
  data : List Byte
  poison : Bool
  deriving DecidableEq, Repr

/-- A packet of the root's release as a hall spine holds it (R573): its region, its SPEC and POISON flags, its PCRC and CCHK, its bytes. -/
structure Relayed where
  region : Nat
  spec : Bool
  poison : Bool
  pcrc : Nat
  cchk : Nat
  data : List Byte
  deriving DecidableEq, Repr

/-- A chunk of an admitted round. -/
structure Chunk where
  got : List Contrib            -- regions accepted, in order of acceptance
  arrived : List (Nat × Nat)    -- contributors whose contribution is complete, with the device time in nanoseconds (R542)
  first : Option Nat            -- the tick its first region was accepted at
  opened : Nat                  -- and its device time, short form
  noticed : Nat                 -- stall notices sent since then (R543)
  named : List Nat              -- the members the last notice named (R758)
  placed : Bool                 -- R557 has been decided for it
  checked : Bool
  spare : Nat                   -- the spare instance that shadows it (R727)
  phys : Nat                    -- the physical instance that reduces it (R721)
  result : Option (RunOut × RunOut)   -- what the primary gave and what R472 gives; for a hall spine the stored partial
  flags : Nat
  verdict : Nat                 -- 0 none, 1 pending, 2 passed
  sent : Bool                   -- a hall spine has sent its partial
  relayed : List Relayed        -- the root's release as a hall spine has gathered it
  released : Bool
  finished : Bool
  check : Nat                   -- the chunk check of its last release
  fails : Nat                   -- chunk check failures (R538)
  vfails : Nat                  -- failed verdicts (R562)
  recalls : Nat                 -- recalls sent (R560)
  backoffs : Tbl Nat            -- 1 + the tick of the last BACKOFF, by contributor (R537)
  firstRun : Option (Nat × RunOut × Nat × RunOut)   -- primary instance and result, shadow instance and result, of a failed verdict (R729)
  deriving DecidableEq, Repr

/-- A round in the collective table of a die: with a reservation, or in pass-through (R525). -/
structure Round where
  die : Nat
  group : Nat
  gen : Nat
  round : Nat
  desc : Nat                    -- the descriptor as it stood at the OPEN (R577)
  feids : List Nat              -- the members' FEIDs in member-index order
  pass : Bool
  tier1 : Bool
  slots : Nat
  chk : Nat                     -- CHECK in force (R529)
  salt : Nat
  fenced : List Nat             -- members fenced since admission or before (R539)
  excused : List Nat            -- members counted in EXCUSED (R540)
  done : List Nat               -- members whose DONE has come (R525)
  chunks : Tbl Chunk
  kept : List (Nat × List Byte) -- results kept for repeats, oldest first (R555)
  recalled : Bool
  unchecked : Bool
  provSent : Bool               -- the record with VERIFIED = 0 has been sent
  epoch : Nat                   -- the epoch of the fence list last read for the round
  halls : List Nat              -- hall spines whose OPEN the root holds (R570)
  waiting : Bool                -- the members have not been answered yet (R569, R570)
  openedAt : Nat                -- the tick the root's wait began at
  deriving DecidableEq, Repr

/-- What a die keeps of a group (R518): LAST_ROUND, LAST_STATUS, and the last record sent for that round (R555). -/
structure FenHist where
  round : Nat
  status : Nat
  record : Option (List Byte)
  deriving DecidableEq, Repr

/-- Fen beside its registers. -/
structure FenSt where
  descs : Tbl Nat               -- the descriptors, as 32-byte numbers, one copy for both dies (R515)
  rounds : List Round           -- both dies' collective tables
  hist : Tbl FenHist            -- by 2^20 × die + group
  seq : Tbl Nat                 -- the group streams' next SEQ (R205)
  salts : Tbl Nat               -- SALT draws since the generator was seeded, by die (R557)
  spareQ : Tbl (List Nat)       -- by die of the spare: the ticks at which it has taken each region of its input queue (R728)
  noSpareLog : Option Nat       -- the tick CHK error 0x0102 was last logged at (R727)
  deriving DecidableEq, Repr

def Chunk.init : Chunk := ⟨[], [], none, 0, 0, [], false, false, 0, 0, none, 0, 0, false, [], false, false, 0, 0, 0, 0, [], none⟩
def FenHist.init : FenHist := ⟨0, 0, none⟩
def FenSt.init : FenSt := ⟨[], [], [], [], [], [], none⟩

/-! ### Chapter 12: Peat and the memory tiers -/

/-- A packet of a Peat request accepted into reassembly (R605, R209): its logical port, OFFSET, payload, POISON. -/
structure PeatSeg where
  lport : Nat
  offset : Nat
  data : List Byte
  poison : Bool
  deriving DecidableEq, Repr

/-- A Peat request being gathered (R209, R606). -/
structure Reasm where
  src : Nat
  msgId : Nat
  gen : Nat
  since : Nat             -- the tick of its first packet
  segs : List PeatSeg
  total : Option Nat      -- its length, once the packet with LAST has come
  deriving DecidableEq, Repr

/-- A channel's arbiter beside its registers (R592–R594): the cycle it has reached, each client's losses in a row and the cycle it presents requests
again from, the owner of a lock with the beats of its sequence, and the PEAT client's requesting cycles and losses in the telemetry window (R616). -/
structure ChanSt where
  cyc : Nat
  losses : Tbl Nat
  until_ : Tbl Nat
  beats : Nat             -- beats of the locked sequence
  peatReq : Nat
  peatLoss : Nat
  deriving DecidableEq, Repr

/-- Peat and the tiers beside their registers. -/
structure PeatSt where
  reasm : List Reasm
  stash : Tbl Nat         -- stash entries, 256 bits each, by 4 × partition + entry (R602)
  owner : Tbl Nat         -- the slot table (R598): by tier × 2^25 + slot, 1 + 2^32 × partition + directory entry index; stash entry k is 2^30 + k
  hand : Tbl Nat          -- where each partition's scan goes on (R615), as an offset in its tier-1 range
  demoting : List Nat     -- partitions that went above HIGH and are not yet at LOW (R615)
  stopUntil : Tbl Nat     -- the tick until which a partition's demotion has stopped (R615)
  demoteAt : Nat          -- the tick from which the next automatic demotion may copy (R615)
  below : List Nat        -- partitions that have been at or below HIGH in the telemetry window (R616)
  power : Nat             -- the array's power in the last interval, in mW (R621)
  allow : Nat             -- the power that interval allowed, in mW (R841)
  macRem : Nat            -- multiply-accumulates not yet counted in MACS (R637)
  resetWait : List (Nat × Option CmdHdr)   -- resets that wait for the background sweep (R631)
  chan : Tbl ChanSt
  scrub : Nat             -- the next beat the patrol scrubber reads: tier 2 follows tier 1 (R588)
  trained : Bool × Bool   -- has training of tier 1 and of tier 2 ended since the reset (R585, R586)?
  deriving DecidableEq, Repr

def ChanSt.init : ChanSt := ⟨0, [], [], 0, 0, 0⟩
def PeatSt.init : PeatSt := ⟨[], [], [], [], [], [], 0, [], 0, 0, 0, [], [], 0, (false, false)⟩

/-! ### Chapter 13: Delsia -/

/-- A reduction descriptor (R647): OPS holds two bits for each counter. -/
structure DDesc where
  set : Nat
  rgroup : Nat
  ops : Nat
  quant : Nat
  keep : Bool
  enable : Bool
  rawLog2 : Nat
  expect : Nat
  deriving DecidableEq, Repr

/-- What a descriptor has gathered in one window (R648): contributors, unaligned ones, the 12 results, the sketches. -/
structure DAcc where
  contrib : Nat
  unaligned : Nat
  vals : List Nat
  sketch : Tbl Nat        -- counts by 128 × counter + bucket
  deriving DecidableEq, Repr

/-- An open window (R639–R642). Times are device time in whole nanoseconds when it is aligned, and ticks when it is not. -/
structure Win where
  index : Nat
  fin : Nat               -- its end
  aligned : Bool
  ended : Bool            -- its end has come; the last window of the list runs until then
  moved : Option Nat      -- the close that a freeze has given it (R669)
  cutShort : Bool
  frozen : Bool
  descs : Tbl DDesc       -- the enabled descriptors in force when it opened
  acc : Tbl DAcc
  seen : List (Nat × Nat × Nat)   -- FEID, SET, RGROUP of the records accepted
  deltas : Tbl Nat        -- once ended, the ports' deltas over it, by 16 × logical port + counter (R654)
  deriving DecidableEq, Repr

/-- What a closed window gives Barometer (R687): its index, the inputs charged up to its close, the late listings, the saturation reports and the
ports' deltas. -/
structure Closed where
  index : Nat
  charges : Tbl Nat
  late : List (Nat × Nat)
  levels : Tbl (Nat × Nat)
  deltas : Tbl Nat
  deriving DecidableEq, Repr

/-- An open archive segment (R656). -/
structure SegSt where
  base : Nat              -- its offset in the DEL region
  used : Nat
  entries : Nat
  time : Nat
  window : Nat
  unaligned : Bool
  openedAt : Nat          -- the tick of its first entry
  size : Nat              -- the bytes of its slot (R656)
  deriving DecidableEq, Repr

/-- The trace (R673–R678). -/
structure TraceSt where
  ring : List (List Byte) -- the pre-trigger ring, oldest first
  post : Nat              -- post-trigger entries taken
  pre : Nat               -- entries of the frozen ring
  trigKind : Nat
  trigCode : Nat
  spilled : Bool
  dropped : Bool
  tick : Nat              -- the tick of the last entry taken
  taken : Nat             -- entries taken in it
  spillAt : Nat           -- the tick the last entry was spilled at
  mark : Nat              -- the held words of DEL_TRACE_MARK
  due : Bool              -- a triggering entry was not taken: the trigger falls on the next entry taken (R679)
  deriving DecidableEq, Repr

/-- Delsia beside its registers. -/
structure DelSt where
  descs : Tbl DDesc
  wins : List Win         -- open windows, oldest first
  lastIndex : Option Nat  -- the index of the window opened last
  winPending : Option (Nat × Nat) -- a WIN_US accepted, and the second boundary it waits for, in seconds of device time (R640)
  winUs : Nat             -- the WIN_US in force
  from_ : Nat             -- the tick of the last window boundary
  base : Tbl Nat          -- the counters of R654 at that boundary, by 16 × logical port + counter
  second : Nat            -- the second whose accepted records are counted (R645)
  accepted : Nat
  qBytes : Nat            -- 1/125 bytes in the 4 MiB archive queue, and the tick they were last drained at (R660)
  qAt : Nat
  segs : Tbl SegSt        -- open segments by kind
  lost : Tbl Bool         -- entries of the kind were dropped since its last segment
  frostSrc : Nat          -- SOURCE of the armed or last Frost
  epochAt : Nat           -- the EPOCH of device time when a Frost or SNAPSHOT was armed (R665)
  snapAt : Option Nat     -- the short-form T of a pending SNAPSHOT
  images : List (List Byte)   -- Frost images latched and not yet written, oldest first
  fin : TpiSt             -- the FROST_IN input
  outUntil : Option Nat   -- the tick at which the FROST_OUT pulse ends
  freezeAt : Nat          -- the tick a freeze began
  snaps : Tbl Nat         -- snapshot registers by the address of the live register
  snapLinks : Tbl Nat     -- link snapshots by logical port
  trace : TraceSt
  deriving DecidableEq, Repr

def DAcc.init : DAcc := ⟨0, 0, [], []⟩
def TraceSt.init : TraceSt := ⟨[], 0, 0, 0, 0, false, false, 0, 0, 0, 0, false⟩
def DelSt.init : DelSt :=
  ⟨[], [], none, none, 1000, 0, [], 0, 0, 0, 0, [], [], 0, 0, none, [], ⟨false, none, 0⟩, none, 0, [], [], TraceSt.init⟩

/-! ### Chapter 14: Barometer -/

/-- A PEER_FENCE or PEER_UNFENCE not yet acknowledged (R709): the spine it went to, its SEQ, its payload, the tick it was last sent at, resends. -/
structure PeerMsg where
  dst : Nat
  seq : Nat
  payload : List Byte
  sentAt : Nat
  tries : Nat
  deriving DecidableEq, Repr

/-- Barometer beside its registers. -/
structure BaroSt where
  held : List Nat               -- object IDs in suspect-hold (R706)
  late : List (Nat × Nat)       -- late listings since the last window close: FEID[31:12], group (R692)
  levels : Tbl (Nat × Nat)      -- saturation reports since the last window close, by level: count, AUX1 of the last (R712)
  closed : List Closed          -- windows closed and not yet evaluated, oldest first (R687)
  score : Tbl Nat               -- by object ID (R686)
  watch : Tbl Nat               -- objects in WATCH: 1 + the tick they entered it at (R690)
  crossed : Tbl Bool            -- objects whose crossing of FENCE has been acted on (R690)
  shield : Tbl (Nat × Nat)      -- shielded objects: the tick the shield ends, the parent (R695)
  shielded : Tbl (List Nat)     -- by fenced object, the children its blame shielded (R702)
  track : Tbl (List Nat)        -- drift trackers: points charged in the last 32 windows, latest first (R693)
  quiet : Tbl Nat               -- windows left without another drift finding for an object (R693)
  budget : List Nat             -- ticks of the budgeted fences, latest first (R704)
  stormAt : Option Nat          -- the tick of the last FENCE_STORM
  squallAt : Tbl Nat            -- by 2^32 × code + object, 1 + the tick a Squall was last posted at (R714)
  decided : List (Nat × Nat)    -- fences decided and not yet committed: object, REASON (R705)
  lastWin : Nat                 -- the index of the window evaluated last
  streak : Tbl Nat              -- consecutive windows with a saturation report, by level (R712)
  seq : Nat                     -- the SEQ of the last peer message sent
  peers : List PeerMsg
  applied : Tbl Nat             -- the last SEQ applied plus one, by ORIGIN
  origin : Tbl Nat              -- the ORIGIN of a PEER entry, by index of the fence list
  repairAt : Nat                -- the tick at which the last repair of a copy of the list is complete (R703)
  deriving DecidableEq, Repr

def BaroSt.init : BaroSt := ⟨[], [], [], [], [], [], [], [], [], [], [], [], none, [], [], 0, [], 0, [], [], [], 0⟩

/-! ### Chapter 15: silent-error defence -/

/-- An in-field test (R733–R736): the unit, the command that asked for it, whether CHK_RETURN did, since when it waits or runs, whether it runs, with
a stand-in, throttled, and whether the instance still has to drain. -/
structure IftTest where
  unit : Nat
  hdr : Option CmdHdr
  isReturn : Bool
  since : Nat
  running : Bool
  standIn : Bool
  throttled : Bool
  drain : Bool
  deriving DecidableEq, Repr

/-- CHK beside its registers. -/
structure ChkSt where
  tests : List IftTest
  spareAt : Tbl Nat       -- the Fen instance that is each die's spare, plus one; none listed: 17d + 16 (R721, R741)
  spareCore : Tbl Nat     -- the physical core, 0–8, that is each half's spare, plus one; none listed: 8 (R725, R741)
  coreMap : Tbl Nat       -- by 8 × half + logical core: the physical core that serves it, plus one (20: none); none listed: its own (R725)
  macOut : List Nat       -- MAC tiles with an uncorrectable error in a row spared for another tile (R724)
  reloadTo : Nat          -- the tick at which the last reload after an error in the ERGAN region is done (R739)
  deriving DecidableEq, Repr

def ChkSt.init : ChkSt := ⟨[], [], [], [], [], 0⟩

/-! ### Chapter 16: performance counters and hang analysis -/

/-- A Mire round as the collector closed it (R761, R762): edges are FROM, TO, SINCE; a cycle lists indices of its edges in wait order. -/
structure MireRound where
  round : Nat
  time : Nat
  edges : List (Nat × Nat × Nat)
  cycles : List (List Nat)
  deriving DecidableEq, Repr

/-- PMC beside its registers. -/
structure PmcSt where
  tags : List (List Byte)      -- unread tag records, oldest first (R756)
  tok : PolSt                  -- the tag bucket (R755); only tc is used
  tagSamp : Tbl SampSt         -- tag samplers by physical port (R751)
  tagDraws : Nat               -- draws taken from the tag generator since its seed was loaded
  blocked : Tbl (Nat × Nat × Bool)   -- classes blocked for credits, by 8 × logical port + class: the tick and the short-form time it began, BLOCKED is set (R758)
  round : Nat                  -- the current Mire round
  edges : List (Nat × Nat × Nat)
  last : Option MireRound
  reported : List (List (Nat × Nat × Nat))   -- cycles reported whose edges persist (R761)
  deriving DecidableEq, Repr

def PmcSt.init : PmcSt := ⟨[], ⟨64 * 1024 * 6250, 0, 0⟩, [], 0, [], 0, [], none, []⟩

/-! ### Chapter 17: start-up, update, chains and broadcasts -/

/-- A takeover that is pending (R795–R797): its command, T as given, the slot whose image takes control, a rollback. -/
structure Takeover where
  hdr : CmdHdr
  time : Nat
  slot : Nat
  back : Bool
  deriving DecidableEq, Repr

/-- A chain transfer being sent on (R801): head and identifier, the transfer, the entries still to be tried, the bytes acknowledged and sent, the tick
of the last progress or resend, resends since. -/
structure ChainTx where
  origin : Nat
  xfer : Nat
  data : List Byte
  bad : List Nat        -- its pieces of 4,064 bytes read from memory with an uncorrectable error (R183)
  targets : List Nat
  acked : Nat
  sent : Nat
  at_ : Nat
  tries : Nat
  deriving DecidableEq, Repr

/-- A chain transfer being received: head and identifier, its length, the pieces held by offset. -/
structure ChainRx where
  origin : Nat
  xfer : Nat
  total : Nat
  segs : List (Nat × List Byte)
  checked : Bool            -- the whole transfer has been held and judged
  deriving DecidableEq, Repr

/-- FW_CHAIN at the head (R799, R802): its entries, the DONE statuses by entry address, the entries skipped, the tick it began at. -/
structure ChainHead where
  hdr : CmdHdr
  xfer : Nat
  entries : List Nat
  done : Tbl Nat
  skipped : List Nat
  startedAt : Nat
  deriving DecidableEq, Repr

/-- A job-start broadcast (R805–R810): the SEQ of each block's first packet, by member the mask of acknowledged blocks and the SEQ of its last answer
plus one, the deadlines by 4,096 × member + block: tick and alternates used. -/
structure Bcast where
  hdr : CmdHdr
  group : Nat
  gen : Nat
  data : List Byte
  bad : List Nat        -- its pieces of 4,096 bytes read from memory with an uncorrectable error (R183)
  alts : List Nat
  feids : List Nat
  seqs : List Nat
  acked : Tbl Nat
  lastSeq : Tbl Nat
  excused : List Nat
  due : Tbl (Nat × Nat)
  startedAt : Nat
  notices : Nat
  deriving DecidableEq, Repr

/-- A block that another spine relays to a member (R809): source, GROUP and block, member, first SEQ, length, the pieces held by offset. -/
structure RelayRx where
  src : Nat
  xfer : Nat
  member : Nat
  seq : Nat
  total : Nat
  segs : List (Nat × List Byte)
  deriving DecidableEq, Repr

/-- CFG and SEC beside their registers: what the board flash holds that the device has written or counted, and the updates, chains and broadcasts
under way. -/
structure CfgSt where
  keysHeld : Bool           -- the keys of R769 are derived (R771)
  slots : Tbl (List Byte)   -- the image objects FW_STAGE has written, by slot (R794)
  images : Tbl (Nat × Nat)  -- by slot, VERSION and SVN of the valid image it holds
  recs : Tbl (List Byte)    -- the records CFG_WRITE has written, by KIND (R779)
  ctrs : Tbl Nat            -- the flash's monotonic counters (R768)
  boot : Nat                -- the boot slot (R797)
  settings : SetRec         -- the settings in use (R790)
  current : Option SetRec   -- the records that the settings record's two slots hold, as far as the device has read or written them (R791, R792)
  previous : Option SetRec
  hdm : Nat × Nat           -- the sizes of HDM0 and HDM1 (R57)
  takeover : Option Takeover
  chainTx : List ChainTx
  chainRx : List ChainRx
  chainHead : List ChainHead
  bcasts : List Bcast
  used : Tbl Nat            -- by group, 1 + the generation of its last broadcast (R805)
  relays : List RelayRx
  deriving DecidableEq, Repr

/-- The settings that the device starts from where it finds none (R791). -/
def setDefaults : SetRec := ⟨0, 0, 0, false, 0, [], []⟩
def CfgSt.init : CfgSt := ⟨false, [], [], [], [], 0, setDefaults, none, none, (0, 0), none, [], [], [], [], [], []⟩
/-! ### Chapter 18: power, temperature and the reset pins -/

/-- PWR beside its registers. -/
structure PwrSt where
  good : Bool               -- PWR_GOOD is high
  low : Bool                -- RESET_N is low
  cold : Bool               -- the next release of RESET_N begins a cold reset (R832)
  clockLost : Bool          -- held in reset until the clock is good (R834)
  therm : Bool              -- THERM_TRIP_N is asserted (R842)
  warn : List Nat           -- sensors whose WARN threshold is in force (R841)
  throttle : List Nat       -- sensors whose THROTTLE threshold is in force
  samples : Tbl Nat         -- the tick of the last 10 µs evaluation: 0 sensors (R840), 1 CX power (R840), 2 the Peat array (R621)
  deriving DecidableEq, Repr

def PwrSt.init : PwrSt := ⟨true, false, false, false, false, [], [], []⟩
/-- Is the device held in reset: no power good, RESET_N low or not yet released, the clock lost, or tripped (R832–R834, R842)? -/
def PwrSt.held (p : PwrSt) : Bool := !p.good || p.low || p.cold || p.clockLost || p.therm

/-! ### What crosses the package -/

/-- What the device sends out, in the order it arises: the model's own record of every crossing of the package and of every
notice to firmware; no command reads it back. -/
inductive Out where
  /-- One WrInv of an event entry: event ring, count k of the entry, its host address, entry, PHASE, LOST (R97). -/
  | wrInv (ring k addr : Nat) (e : Ev) (phase lost : Bool)
  /-- RdShared of a tail line (`cons = false`) or consumer line of a ring: its host address (R86, R96). -/
  | rdShared (cons : Bool) (ring addr : Nat)
  /-- RdCurr of entries first to last − 1 of a command ring, at their host addresses, in order (R84, R86). -/
  | rdCurr (ring first last : Nat) (addrs : List Nat)
  /-- An MSI-X message: vector, address, data (R100, R101). -/
  | msix (vector addr data : Nat)
  /-- An event delivered to firmware (R70, R99). -/
  | firmware (e : Ev)
  /-- A management frame of the device (R102): destination, source, EtherType, payload. -/
  | mpFrame (dest src etherType : Nat) (payload : List Byte)
  /-- Data returned to a requester by a register read or a read of BAR2 or CXL.mem. -/
  | readData (addr value : Nat)
  /-- Data returned poisoned to a host read of BAR2 or CXL.mem (R587, R590). -/
  | readPoison (addr value : Nat)
  /-- A notice handed to firmware by a rule: what it is and its data. -/
  | notice (what : Nat) (data : List Nat)
  /-- A received message delivered to firmware with its port and receive stamp (R139, R144). -/
  | timeToFw (port stamp : Nat) (payload : List Byte)
  /-- A frame of IEEE 1588 on the management port, EtherType 0x88F7 (R143): destination, message type, domain, two-step, sequence, the time it
  carries (short form) and the correction (2^-16 ns), with its check fields computed for them (R142). -/
  | ptp (dest msg domain : Nat) (twoStep : Bool) (seq time corr : Nat)
  /-- The edge of a pulse output: output, level, the device time it is made at in units of 2^-32 ns (R162, R163). -/
  | pulse (k : Nat) (level : Bool) (at_ : Nat)
  /-- A level of a board pin: pin number, level (R820–R827). -/
  | pin (pin : Nat) (level : Bool)
  /-- A DATA frame leaving at a transmit fibre face: logical port, link header (R324), packet, cut through, stomped. On the line it is a start block, the
  header, the packet, an error block where it is stomped, and a terminate block (R323, R327). -/
  | tx (lport : Nat) (header : List Byte) (p : Pkt) (cut stomped : Bool)
  /-- A CONTROL frame: logical port, link header, body of 48 bytes (R324–R326), between a start and a terminate block (R323). -/
  | linkFrame (lport : Nat) (header body : List Byte)
  /-- A DATA frame sent again from the replay store (R334): logical port, link header, packet, stomped (R327). -/
  | resend (lport : Nat) (header : List Byte) (p : Pkt) (stomped : Bool)
  /-- A Drizzle record sent to firmware through a function port (R278). -/
  | drizzle (record : List Byte)
  /-- A calibration burst (R161): port, the stamp reed, time. -/
  | calBurst (port reed time : Nat)
  deriving DecidableEq, Repr

/-! ### The machine -/

/-- Why a step stops with a fault. -/
inductive Fault where
  /-- Raised by no meaning: the block has no address that does not exist (R54 answers them all). Safe. -/
  | unreachable
  deriving DecidableEq, Repr

/-- Why a step refuses a command. -/
inductive Refusal where
  /-- Raised by exec's arm of a command that has no meaning yet. Safe. -/
  | notModelled (mnemonic : String)
  deriving DecidableEq, Repr

/-- The whole state of the block. -/
structure State where
  /-- every register word that differs from its reset value, by BAR0 address (R66, R73). -/
  regs : Tbl Word
  /-- every counter of R281 that is not zero, by the BAR0 address of its low word. -/
  cnts : Tbl Nat
  /-- per page number, 1 + the error log entry most recently written since the last clear (R72). -/
  logLast : Tbl Nat
  /-- chapter 2. -/
  host : HostSt
  /-- chapter 3. -/
  time : TimeSt
  /-- tier-1 memory: address and byte, addresses rising, no zero byte listed (R582). -/
  mem1 : List Host.Cell
  /-- tier-2 memory, in the same form (R583). -/
  mem2 : List Host.Cell
  /-- chapters 4 and 5. -/
  sw : SwSt
  /-- chapter 6. -/
  fwt : FwtSt
  /-- chapter 7. -/
  links : LinksSt
  /-- the spine index of the site record (R184). -/
  spine : Nat
  /-- chapter 8. -/
  tide : TideSt
  /-- chapter 9. -/
  optics : OpticsSt
  /-- inputs charged to Barometer since the last window close, by 32 × object ID + input (R688). -/
  charges : Tbl Nat
  /-- chapter 11. -/
  fen : FenSt
  /-- chapter 12. -/
  peat : PeatSt
  /-- chapter 13. -/
  del : DelSt
  /-- the fence list: 64-bit entries by index (R697). -/
  fences : Tbl Nat
  /-- chapter 14. -/
  baro : BaroSt
  /-- chapter 15. -/
  chk : ChkSt
  /-- chapter 16. -/
  pmc : PmcSt
  /-- chapter 17. -/
  cfg : CfgSt
  /-- chapter 18. -/
  pwr : PwrSt
  out : List Out            -- what has left the package, newest first
  free : Nat                -- how many free values have been drawn (the model's own field)
  pending : List Instr      -- the commands waiting, first in first out (the model's own field)
  deriving DecidableEq, Repr

/-- The machine right after a cold reset (R74): every register at the value of its table, every queue, table and memory empty,
no command waiting. -/
def State.reset : State := {
  regs := []
  cnts := []
  logLast := []
  host := HostSt.init
  time := TimeSt.init
  mem1 := []
  mem2 := []
  sw := SwSt.init
  fwt := FwtSt.init
  links := LinksSt.init
  spine := 0
  tide := TideSt.init
  optics := OpticsSt.init
  charges := []
  fen := FenSt.init
  peat := PeatSt.init
  del := DelSt.init
  fences := []
  baro := BaroSt.init
  chk := ChkSt.init
  pmc := PmcSt.init
  cfg := CfgSt.init
  pwr := PwrSt.init
  out := []
  free := 0
  pending := [] }

end Sys2Proof.Machine
end

