-- ==== Sys2Proof/Machine/Ops.lean ====
section
/-! DEFINITION. The operations every block shares: register words and fields, counters, device time, locations,
memory and event rings. -/
namespace Sys2Proof.Machine

/-- The outcome of a step of this block. -/
abbrev Result := Host.Outcome State Fault Refusal

/-! ### Register words, fields and counters -/

/-- The word a register holds; a word never written holds its reset value. -/
def State.rd (s : State) (a : Nat) : Word := (Tbl.find s.regs a).getD (resetWord a)

/-- Stores a register word, keeping the table canonical. -/
def State.wr (s : State) (a : Nat) (v : Word) : State := { s with regs := Tbl.set s.regs (resetWord a) a v }

/-- n words from address a, the first least significant. -/
def State.rdWide (s : State) (a : Nat) : Nat → Nat
  | 0 => 0
  | n + 1 => (s.rd a).toNat + 2 ^ 32 * State.rdWide s (a + 4) n

/-- Stores n words from address a, the first least significant. -/
def State.wrWide (s : State) (a : Nat) (v : Nat) : Nat → State
  | 0 => s
  | n + 1 => State.wrWide (s.wr a (BitVec.ofNat 32 v)) (a + 4) (v >>> 32) n

/-- The value of a field of the register at a. -/
def State.fld (s : State) (a : Nat) (f : Fld) : Nat :=
  bits (f.hi - 32 * (f.lo / 32)) (f.lo % 32) (s.rdWide (a + 4 * (f.lo / 32)) (f.hi / 32 - f.lo / 32 + 1))

/-- Is a one-bit field of the register at a set? -/
def State.flag (s : State) (a : Nat) (f : Fld) : Bool := s.fld a f == 1

/-- Sets a field of the register at a. -/
def State.setFld (s : State) (a : Nat) (f : Fld) (v : Nat) : State :=
  let n := f.hi / 32 - f.lo / 32 + 1
  let b := a + 4 * (f.lo / 32)
  s.wrWide b (withBits (f.hi - 32 * (f.lo / 32)) (f.lo % 32) v (s.rdWide b n)) n

/-- Sets a one-bit field. -/
def State.setFlag (s : State) (a : Nat) (f : Fld) (b : Bool) : State := s.setFld a f (b2n b)

/-- The count of a counter of R281. -/
def State.cnt (s : State) (a : Nat) : Nat := Tbl.getD s.cnts 0 a

/-- Adds to a counter, which saturates at 0xFFFF_FFFF_FFFF (R281). -/
def State.addCnt (s : State) (a n : Nat) : State :=
  { s with cnts := Tbl.set s.cnts 0 a (min (s.cnt a + n) 0xFFFFFFFFFFFF) }

/-- Counts one. -/
def State.inc (s : State) (a : Nat) : State := s.addCnt a 1

/-- Clears every counter of a page (R281). -/
def State.clearCnts (s : State) (p : Nat) : State :=
  { s with cnts := s.cnts.filter fun c => c.1 / 4096 != p }

/-- Adds n to an RC field of w bits that saturates. -/
def State.addFld (s : State) (a : Nat) (f : Fld) (n : Nat) : State :=
  s.setFld a f (min (s.fld a f + n) (2 ^ (f.hi - f.lo + 1) - 1))

/-- Records what leaves the package. -/
def State.emit (s : State) (o : Out) : State := { s with out := o :: s.out }

/-- Draws a free value: a number that nothing constrains. -/
def State.draw (s : State) : Nat × State := (Config.freeNat s.free, { s with free := s.free + 1 })

/-! ### Time -/

/-- One second of device time, in units of 2^-32 ns (R109). -/
def secUnits : Nat := 1000000000 * 2 ^ 32

/-- The device time now, in whole nanoseconds. -/
def State.nowNs (s : State) : Nat := s.time.now / 2 ^ 32

/-- The short form of a time in units of 2^-32 ns (R67). -/
def shortForm (t : Nat) : Nat := (t / secUnits % 2 ^ 34) * 2 ^ 30 + t / 2 ^ 32 % 1000000000

/-- The timestamp form of a time in units of 2^-32 ns (R114). -/
def stampForm (t : Nat) : Nat := shortForm t * 65536 + t / 65536 % 65536

/-- The time in units of 2^-32 ns that a short form spells. -/
def fromShort (x : Nat) : Nat := ((x / 2 ^ 30) * 1000000000 + x % 2 ^ 30) * 2 ^ 32

/-- Device time now, in short form. -/
def State.short (s : State) : Nat := shortForm s.time.now

/-- The per-tick increment in units of 2^-32 ns (R110). -/
def State.incr (s : State) : Nat := s.rdWide Reg.TIME_INCR 2 % 2 ^ 36

/-- The slew rate in force: values outside 0x1000 to 0x0100_0000 act as the nearer bound (TIME_SLEW). -/
def State.slewRate (s : State) : Nat := max 0x1000 (min 0x01000000 (s.rd Reg.TIME_SLEW).toNat)

/-- Ticks in n microseconds, rounded up (R11). -/
def usTicks (n : Nat) : Nat := ceilDiv (n * 3125) 4
/-- Ticks in n nanoseconds, rounded up (R11). -/
def nsTicks (n : Nat) : Nat := ceilDiv (n * 25) 32

/-! ### Locations (R37) -/

/-- The location code of a port tile, or of reed `lane` of it (0x1F: the whole tile). -/
def locTile (t lane : Nat) : Nat :=
  (if t < 32 then 0 else 1) * 2 ^ 14 + (t / 8 % 8) * 2 ^ 11 + t % 64 * 32 + lane % 32
/-- The location code of the tile of a port. -/
def locPort (p : Nat) : Nat := locTile (p / 8) 31
/-- The location code of reed r of a port. -/
def locReed (p r : Nat) : Nat := locTile (p / 8) (4 * (p % 8) + r)
/-- The location code of a physical Fen reducer instance. R37 does not state its quadrant: one of its die's that keeps the code apart from every port
tile's, for codes name objects (R684). -/
def locFen (n : Nat) : Nat :=
  let d := n / 17
  let f := Config.locOpen (0xC00 + n)
  let q := if n / 32 = d then (n / 8 + 1 + f % 3) % 4 else f % 4
  d * 2 ^ 14 + (4 * d + q) * 2 ^ 11 + n % 64 * 32 + 31
/-- The location code of a die's Fen admission: R37 states no more of it than its die. -/
def locFadm (d : Nat) : Nat := d * 2 ^ 14 + Config.locOpen (0xD00 + d) % 2 ^ 14
/-- The location code of a quadrant's rings: R37 states no tile of it. -/
def locQuad (q : Nat) : Nat := q / 4 * 2 ^ 14 + q % 8 * 2 ^ 11 + Config.locOpen (0x700 + q) % 2 ^ 11
/-- The location code of a CX unit: group and unit, the whole unit. -/
def locCx (group unit : Nat) : Nat := 2 * 2 ^ 14 + group % 4 * 2 ^ 12 + unit % 512 * 8 + 7
/-- The location code of a CX block by its type code. -/
def locBlock (typ : Nat) : Nat := locCx 3 typ
/-- The location code of an optical engine: fibre, direction, wavelength. -/
def locOe (n fibre dir wl : Nat) : Nat := 3 * 2 ^ 14 + n % 16 * 2 ^ 9 + fibre % 8 * 64 + dir % 2 * 32 + wl % 16 * 2
/-- The location code of an engine as a whole: fibre, direction and wavelength are not stated. -/
def locOeAll (n : Nat) : Nat := locOe n 0 0 0 + Config.locOpen (0x900 + n) % 2 ^ 8 * 2
/-- The location code of a wavelength at an engine's input: fibre and direction are not stated. -/
def locOeWl (n wl : Nat) : Nat := locOe n (Config.locOpen (0x900 + n)) (Config.locOpen (0x910 + n)) wl
/-- The location code of a laser module's comb line. -/
def locEls (m line : Nat) : Nat := 3 * 2 ^ 14 + 2 ^ 13 + m % 8 * 2 ^ 10 + line % 16 * 64

/-- The location code of a laser module as a whole: the line is not stated. -/
def locElsAll (m : Nat) : Nat := locEls m (Config.locOpen (0xB00 + m))

/-! ### Memory (R55, R582–R590) -/

/-- One byte of a memory; a byte never written reads as zero. -/
def memByte (m : List Host.Cell) (a : Nat) : Byte := Tbl.getD m 0 a
/-- Stores one byte, keeping the memory canonical. -/
def memPut (m : List Host.Cell) (a : Nat) (b : Byte) : List Host.Cell := Tbl.set m 0 a b
/-- n bytes from address a. -/
def memRead (m : List Host.Cell) (a n : Nat) : List Byte := (List.range n).map fun i => memByte m (a + i)
/-- Stores bytes from address a. -/
def memWrite (m : List Host.Cell) : Nat → List Byte → List Host.Cell
  | _, [] => m
  | a, b :: bs => memWrite (memPut m a b) (a + 1) bs

/-- The first region of the given kind: tier, base and size in bytes (R589). -/
def State.regionOf (s : State) (kind : Nat) : Option (Nat × Nat × Nat) :=
  (List.range 16).findSome? fun r =>
    let k := s.fld (Reg.TIER_REGION_CFG r) Fld.TIER_REGION_CFG_KIND
    if k = kind ∧ k < 9 then
      some (s.fld (Reg.TIER_REGION_CFG r) Fld.TIER_REGION_CFG_TIER, s.fld (Reg.TIER_REGION_BASE r) Fld.TIER_REGION_BASE_BASE * 2097152,
        s.fld (Reg.TIER_REGION_SIZE r) Fld.TIER_REGION_SIZE_SIZE * 2097152)
    else none

/-- The bytes of a tier. -/
def State.tier (s : State) (t : Nat) : List Host.Cell := if t = 0 then s.mem1 else s.mem2
/-- Stores bytes in a tier. -/
def State.tierWrite (s : State) (t a : Nat) (bs : List Byte) : State :=
  if t = 0 then { s with mem1 := memWrite s.mem1 a bs } else { s with mem2 := memWrite s.mem2 a bs }

/-- The memory with n bytes from address a zero. -/
def memZero (m : List Host.Cell) (a n : Nat) : List Host.Cell := m.filter fun c => !(decide (a ≤ c.1) && decide (c.1 < a + n))

/-- Does a tier serve accesses: has it trained (R584, R585)? -/
def State.tierReady (s : State) (t : Nat) : Bool :=
  s.flag Reg.TIER_STATUS (if t = 0 then Fld.TIER_STATUS_T1_READY else Fld.TIER_STATUS_T2_READY)

/-- Zeroes n bytes of a tier. -/
def State.tierZero (s : State) (t a n : Nat) : State :=
  if t = 0 then { s with mem1 := memZero s.mem1 a n } else { s with mem2 := memZero s.mem2 a n }

/-! ### Event rings (R95–R105, R849, R850) -/

/-- HOST page and base address of command ring i's descriptor (R82). -/
def crPage (i : Nat) : Nat := 1 + i / 64
/-- HOST page of event ring j's descriptor (R95). -/
def erPage (j : Nat) : Nat := 5 + j / 64

def State.crCfg (s : State) (i : Nat) (f : Fld) : Nat := s.fld (Reg.HOST_CR_CFG (crPage i) (i % 64)) f
def State.erCfg (s : State) (j : Nat) (f : Fld) : Nat := s.fld (Reg.HOST_ER_CFG (erPage j) (j % 64)) f
def State.cr (s : State) (i : Nat) : CrSt := Tbl.getD s.host.cr CrSt.init i
def State.er (s : State) (j : Nat) : ErSt := Tbl.getD s.host.er ErSt.init j

def State.setCr (s : State) (i : Nat) (c : CrSt) : State :=
  { s with host := { s.host with cr := Tbl.set s.host.cr CrSt.init i c } }
def State.setEr (s : State) (j : Nat) (e : ErSt) : State :=
  { s with host := { s.host with er := Tbl.set s.host.er ErSt.init j e } }

/-- Is event ring j enabled? -/
def State.erOn (s : State) (j : Nat) : Bool := s.erCfg j Fld.HOST_ER_CFG_ENABLE == 1
/-- The number of entries of event ring j. -/
def State.erSize (s : State) (j : Nat) : Nat := 2 ^ s.erCfg j Fld.HOST_ER_CFG_LOG2_SIZE
/-- Has event ring j no room: k − CONS = 2^LOG2_SIZE (R97)? -/
def State.erFull (s : State) (j : Nat) : Bool := s.erSize j ≤ ((s.er j).prod + 2 ^ 32 - (s.er j).cons) % 2 ^ 32

/-- Does the management port take the events bound for ring j (R105)? -/
def State.mpTakes (s : State) (j : Nat) : Bool :=
  s.flag Reg.MGMT_MP_CFG Fld.MGMT_MP_CFG_EVENT_EN && s.fld Reg.MGMT_MP_CFG Fld.MGMT_MP_CFG_EVENT_RING == j

/-- The 64 bytes of an event entry. -/
def Ev.bytes (e : Ev) (phase lost : Bool) : List Byte :=
  leBytes 2 e.kind ++ leBytes 1 (b2n phase + 2 * b2n lost) ++ leBytes 1 e.source ++ leBytes 4 e.tag ++ leBytes 2 e.status ++
  leBytes 2 e.location ++ leBytes 1 e.flagsSum ++ leBytes 1 0 ++ leBytes 2 (e.ring.getD 0) ++ leBytes 8 e.time ++ leBytes 4 e.head ++ slice 0 36 e.payload

/-- The payload bytes 0 to 31 + LEN of a management frame (R102). -/
def mpBytes (op status session seq addr : Nat) (body : List Byte) : List Byte :=
  beBytes 2 0x4E4D ++ beBytes 1 op ++ beBytes 1 status ++ beBytes 4 session ++ beBytes 8 seq ++ beBytes 4 addr ++ beBytes 2 body.length ++
  beBytes 10 0 ++ body

/-- The session number (R103): drawn at random at every reset, never 0. -/
def State.mpSession (s : State) : Nat := max 1 (Config.session s.host.sessions).toNat

/-- The MAC under the key of slot KEY_SLOT (R102); with no key the slot's key reads as zero. -/
def State.mpMac (s : State) (msg : List Byte) : List Byte :=
  Config.hmac (Tbl.getD s.host.keys 0 (s.fld Reg.MGMT_MP_CFG Fld.MGMT_MP_CFG_KEY_SLOT)) msg

/-- The device's address in MGMT_MP_MAC. -/
def State.mpOwn (s : State) : Nat := s.fld Reg.MGMT_MP_MAC Fld.MGMT_MP_MAC_MAC
/-- A frame payload, padded with zero to the Ethernet minimum of 46 bytes (R102). -/
def etherPad (b : List Byte) : List Byte := b ++ List.replicate (46 - b.length) 0

/-- Sends a management frame of the device (R102): its payload with the MAC over it, from MGMT_MP_MAC. ADDR is zero in every frame it sends. -/
def State.mpSend (s : State) (dest op status seq : Nat) (body : List Byte) : State :=
  let b := mpBytes op status s.mpSession seq 0 body
  s.emit (.mpFrame dest s.mpOwn 0x88B5 (etherPad (b ++ s.mpMac b)))

/-- Sends an event as an EVENT frame (R105). Its SEQ is the count of EVENT frames sent in the session before it, so that the first carries 0: DESIGN
CHOICE, R102 does not say whether the count takes in the frame itself. Unsafe. -/
def State.mpSendEvent (s : State) (e : Ev) : State :=
  let q := s.host.mpEvents
  let s := { s with host := { s.host with mpEvents := q + 1 } }
  (s.inc Cnt.MGMT_MP_EVENTS).mpSend (s.fld Reg.MGMT_MP_DEST Fld.MGMT_MP_DEST_DEST) 0x84 0 q (e.bytes false false)

/-- The host address of entry k of event ring j (R97), and of its consumer line (R96). -/
def State.erAddr (s : State) (j k : Nat) : Nat :=
  s.rdWide (Reg.HOST_ER_BASE (erPage j) (j % 64)) 2 / 4096 * 4096 + 64 * (k % s.erSize j)
def State.erLine (s : State) (j : Nat) : Nat := s.rdWide (Reg.HOST_ER_CONS_ADDR (erPage j) (j % 64)) 2 / 64 * 64
/-- The host address of entry k of command ring i (R84), and of its tail line. -/
def State.crAddr (s : State) (i k : Nat) : Nat :=
  s.rdWide (Reg.HOST_CR_BASE (crPage i) (i % 64)) 2 / 4096 * 4096 + 64 * (k % 2 ^ s.crCfg i Fld.HOST_CR_CFG_LOG2_SIZE)
def State.crLine (s : State) (i : Nat) : Nat := s.rdWide (Reg.HOST_CR_TAIL_ADDR (crPage i) (i % 64)) 2 / 64 * 64

/-- Writes an event entry to ring j with one WrInv (R97, R98: LOST goes with the next entry written). -/
def State.erWrite (s : State) (j : Nat) (e : Ev) : State :=
  let r := s.er j
  let e := match e.ring with | some i => { e with head := (s.cr i).head } | none => e
  (s.setEr j { r with prod := (r.prod + 1) % 2 ^ 32, lost := false, unsig := r.unsig ++ [s.time.ticks] }).emit
    (.wrInv j r.prod (s.erAddr j r.prod) e (r.prod / s.erSize j % 2 == 0) r.lost)

/-- Drops an event for lack of room: DROPPED, OVERFLOWED, and LOST on the next entry (R98). -/
def State.erDrop (s : State) (j : Nat) : State :=
  let r := s.er j
  s.setEr j { r with dropped := min (r.dropped + 1) 0xFFFF, overflowed := 1, lost := true }

/-- An event other than a completion takes the ring's event sequence as its TAG, and the sequence rises (the TAG field). -/
def State.erSeq (s : State) (j : Nat) (e : Ev) : Ev × State :=
  if e.kind = 1 then (e, s)
  else
    let r := s.er j
    ({ e with tag := r.seq }, s.setEr j { r with seq := (r.seq + 1) % 2 ^ 32 })

/-- Events of kind k waiting at a ring. -/
def ErSt.waitingOf (r : ErSt) (completions : Bool) : Nat := (r.waiting.filter fun e => (e.kind == 1) == completions).length

/-- Posts an event to event ring j (R97–R99, R105): over the management port when R105 takes it, to firmware when the ring is
not enabled, to host memory when there is room; a full ring holds completions back, queues up to 64 ring errors and
segment-complete events, and drops the rest. -/
def State.post (s : State) (j : Nat) (e : Ev) : State :=
  let (e, s) := s.erSeq j e
  if s.mpTakes j then s.mpSendEvent e
  else if !s.erOn j then s.emit (.firmware e)
  else
    let r := s.er j
    let keeps := e.kind == 1 || e.kind == 4 || e.kind == 5
    if keeps && (s.erFull j || !r.waiting.isEmpty) then
      if e.kind != 1 && decide (64 ≤ r.waitingOf false) then s.erDrop j else s.setEr j { r with waiting := r.waiting ++ [e] }
    else if s.erFull j then s.erDrop j
    else s.erWrite j e

/-- A ring-error event (R850) to event ring 0 (R88, R89). -/
def State.ringError (s : State) (i code : Nat) : State :=
  s.post 0 ⟨4, 2, 0, code, 0, 0, none, s.short, 0, leBytes 2 i ++ leBytes 2 0 ++ leBytes 4 (s.cr i).head ++ leBytes 28 0⟩

/-- Sends the message of an MSI-X vector, or sets its pending bit while the vector is masked (R101). -/
def State.sendMsix (s : State) (v : Nat) : State :=
  let p := 16 + v / 256; let k := v % 256
  if s.flag (Reg.MSIX_CTRL p k) Fld.MSIX_CTRL_MASK then
    let a := Reg.MSIX_PENDING (v / 32)
    s.wr a (s.rd a ||| BitVec.ofNat 32 (2 ^ (v % 32)))
  else s.emit (.msix v (s.fld (Reg.MSIX_ADDR p k) Fld.MSIX_ADDR_ADDR) (s.rd (Reg.MSIX_DATA p k)).toNat)

/-- Signals event ring j's completed entries when COUNT of them are pending or the oldest has waited DELAY µs (R100). -/
def State.erSignal (s : State) (j : Nat) : State :=
  let r := s.er j
  let md := Reg.HOST_ER_MOD (erPage j) (j % 64)
  let due : Bool := match r.unsig with
    | t :: _ => decide (t + usTicks (s.fld md Fld.HOST_ER_MOD_DELAY) ≤ s.time.ticks)
    | [] => false
  if 0 < r.done ∧ (max 1 (s.fld md Fld.HOST_ER_MOD_COUNT) ≤ r.done ∨ due) then
    (s.setEr j { r with unsig := r.unsig.drop r.done, done := 0 }).sendMsix (s.erCfg j Fld.HOST_ER_CFG_VECTOR)
  else s

end Sys2Proof.Machine
end

