-- ==== Sys2Proof/Machine/Trace.lean ====
section
/-! DEFINITION. Page interrupt words, archive segments and the trace (R69, R655–R659, R673–R678): what the error log and the interrupt
sources feed. -/
namespace Sys2Proof.Machine

/-- The page number of instance n of block type typ. -/
def pg (typ n : Nat) : Nat := typ * 256 + n

/-- The AND of PAGE_IRQ_STATUS and PAGE_IRQ_ENABLE of page p. -/
def State.irqAnd (s : State) (p : Nat) : Word := s.rd (Reg.PAGE_IRQ_STATUS p) &&& s.rd (Reg.PAGE_IRQ_ENABLE p)

/-- Posts page p's PAGE_IRQ event to its destination (R69, R70, R850). -/
def State.postPageIrq (s : State) (p : Nat) : State :=
  let e : Ev := ⟨3, p / 256, 0, 0, 0, 0, none, s.short, 0,
    leBytes 2 (p % 256) ++ leBytes 2 0 ++ leBytes 4 (s.irqAnd p).toNat ++ leBytes 28 0⟩
  if s.flag (Reg.PAGE_IRQ_ROUTE p) Fld.PAGE_IRQ_ROUTE_DEST then s.post (s.fld (Reg.PAGE_IRQ_ROUTE p) Fld.PAGE_IRQ_ROUTE_EVENT_RING) e
  else s.emit (.firmware e)

/-- Stores PAGE_IRQ_STATUS or PAGE_IRQ_ENABLE and posts one event when their AND leaves zero (R69). -/
def State.irqStore (s : State) (p a : Nat) (v : Word) : State :=
  let s' := s.wr a v
  if s.irqAnd p = 0 ∧ s'.irqAnd p ≠ 0 then s'.postPageIrq p else s'

/-- Sets bit b of PAGE_IRQ_STATUS of page p. -/
def State.irqRaw (s : State) (p b : Nat) : State :=
  let a := Reg.PAGE_IRQ_STATUS p
  s.irqStore p a (s.rd a ||| BitVec.ofNat 32 (2 ^ b))

/-! ### Archive segments (R655–R659) -/

/-- The DEL region of a trained tier: tier, base and size (R655). -/
def State.delRegion (s : State) : Option (Nat × Nat × Nat) :=
  match s.regionOf 7 with
  | some r => if s.tierReady r.1 then some r else none
  | none => none

/-- The bytes of the capture area at the front of the DEL region. -/
def State.captureArea (s : State) : Nat := 1048576 * max 2 (s.fld Reg.DEL_TRACE_AREA Fld.DEL_TRACE_AREA_SIZE)
/-- The bytes of a segment slot (R656). -/
def State.slotSize (s : State) : Nat := 1048576 * 2 ^ min 6 (s.fld Reg.DEL_ARCH_SEG Fld.DEL_ARCH_SEG_LOG2_MIB)
/-- The offset of the slot after the one at off, in ring order (R655, R656). -/
def State.slotAfter (s : State) (off size : Nat) : Nat :=
  let n := min (size - s.captureArea) 256000000000 / s.slotSize
  let i := (off - s.captureArea) / s.slotSize + 1
  s.captureArea + (if i < n then i else 0) * s.slotSize

/-- Stores bytes at an offset of the DEL region. -/
def State.delWrite (s : State) (off : Nat) (bs : List Byte) : State :=
  match s.delRegion with
  | some (t, b, _) => s.tierWrite t (b + off) bs
  | none => s
/-- Zeroes n bytes at an offset of the DEL region. -/
def State.delZero (s : State) (off n : Nat) : State :=
  match s.delRegion with
  | some (t, b, _) => s.tierZero t (b + off) n
  | none => s

def State.setSeg (s : State) (kind : Nat) (g : Option SegSt) : State :=
  { s with del := { s.del with segs := match g with | some g => Tbl.put s.del.segs kind g | none => Tbl.del s.del.segs kind } }

/-- Posts a segment-complete event (R658): offset, length, SEG_SEQ, kind. -/
def State.postSegment (s : State) (off len seq kind : Nat) : State :=
  s.post (s.fld Reg.DEL_CTRL Fld.DEL_CTRL_EVENT_RING)
    ⟨5, 0x10, 0, 0, 0, 0, none, s.short, 0, leBytes 8 off ++ leBytes 8 len ++ leBytes 8 seq ++ leBytes 1 kind ++ leBytes 11 0⟩

/-- Closes the open segment of a kind: the tail zeroed, the header written last, the event posted (R656–R658). -/
def State.segClose (s : State) (kind : Nat) : State :=
  match Tbl.find s.del.segs kind with
  | none => s
  | some g =>
    let seq := s.rdWide Reg.DEL_ARCH_SEQ 2 + 1
    let s := s.delZero (g.base + g.used) (g.size - g.used)
    let body := match s.delRegion with | some (t, b, _) => memRead (s.tier t) (b + g.base + 64) (g.used - 64) | none => []
    let flags := b2n g.unaligned + 2 * b2n (Tbl.getD s.del.lost false kind)
    let hdr := leBytes 4 0x47534544 ++ leBytes 2 1 ++ leBytes 1 kind ++ leBytes 1 flags ++ leBytes 8 seq ++ leBytes 8 g.time ++ leBytes 4 g.used ++
      leBytes 4 g.entries ++ leBytes 4 (crc32c body) ++ leBytes 4 g.window ++ leBytes 24 0
    let s := (s.delWrite g.base hdr).setSeg kind none
    let s := { s with del := { s.del with lost := Tbl.set s.del.lost false kind false } }
    let s := (s.wrWide Reg.DEL_ARCH_SEQ seq 2).inc Cnt.DEL_SEGMENTS
    s.postSegment g.base g.used seq kind

/-- Opens a segment of a kind in the next slot of the ring (R656). -/
def State.segOpen (s : State) (kind time window size : Nat) : State :=
  let off := max s.captureArea (s.rdWide Reg.DEL_ARCH_HEAD 2)
  let s := s.delZero off 64
  let s := s.wrWide Reg.DEL_ARCH_HEAD (s.slotAfter off size) 2
  s.setSeg kind (some ⟨off, 64, 0, time, window, false, s.time.ticks, s.slotSize⟩)

/-- Writes an entry to the segment of its kind (R656); a segment it would not fit closes first. -/
def State.segPut (s : State) (kind : Nat) (entry : List Byte) (window : Nat) (unaligned : Bool) : State :=
  match s.delRegion with
  | none => s
  | some (_, _, size) =>
    let full := match Tbl.find s.del.segs kind with | some g => decide (g.size < g.used + entry.length) | none => false
    let s := if full then s.segClose kind else s
    let s := if (Tbl.find s.del.segs kind).isNone then s.segOpen kind s.short window size else s
    match Tbl.find s.del.segs kind with
    | none => s
    | some g =>
      (s.delWrite (g.base + g.used) entry).setSeg kind
        (some { g with used := g.used + entry.length, entries := g.entries + 1, unaligned := g.unaligned || unaligned })

/-! ### The trace (R673–R678) -/

def trSt : Nat := Reg.DEL_TRACE_STATUS
def State.setTrace (s : State) (t : TraceSt) : State := { s with del := { s.del with trace := t } }
def State.traceState (s : State) : Nat := s.fld trSt Fld.DEL_TRACE_STATUS_STATE
/-- The post-trigger entries a capture takes (R677). -/
def State.tracePosts (s : State) : Nat := 1024 * max 1 (s.fld Reg.DEL_TRACE_CTRL Fld.DEL_TRACE_CTRL_POST_KENT)

/-- The capture ends: header, DONE, event (R676, R677). The event's SEG_SEQ is not stated for a capture: a free value. -/
def State.traceEnd (s : State) (full : Bool) : State :=
  let t := s.del.trace
  let flags := b2n full + 2 * b2n t.spilled + 4 * b2n t.dropped
  let hdr := leBytes 4 0x52544544 ++ leBytes 4 0 ++ leBytes 8 (s.rdWide Reg.DEL_TRACE_TRIG_TIME 2) ++ leBytes 1 t.trigKind ++ leBytes 1 0 ++
    leBytes 2 t.trigCode ++ leBytes 4 t.pre ++ leBytes 4 t.post ++ leBytes 1 flags ++ leBytes 35 0
  let s := (s.delZero 0 4096).delWrite 0 hdr
  let s := ((s.setFld trSt Fld.DEL_TRACE_STATUS_STATE 3).setFlag trSt Fld.DEL_TRACE_STATUS_FULL full).setFld trSt Fld.DEL_TRACE_STATUS_SPILLING 0
  let s := s.irqRaw (pg 0x10 1) 6
  let (v, s) := s.draw
  s.postSegment 0 (min s.captureArea (4096 + 1048576 + 32 * t.post)) v 6

/-- The offset of the next post-trigger entry, and whether it fits the capture area (R676). -/
def State.tracePostOff (s : State) : Nat := 4096 + 1048576 + 32 * s.del.trace.post
def State.traceFits (s : State) : Bool := decide (s.tracePostOff + 32 ≤ s.captureArea)
/-- Has the capture area filled under stop-on-full before the post-trigger count is reached (R677)? -/
def State.traceFull (s : State) : Bool :=
  !s.traceFits && !s.flag Reg.DEL_TRACE_CTRL Fld.DEL_TRACE_CTRL_POLICY && decide (s.del.trace.post < s.tracePosts)

/-- Does the write path take a spilled entry (R677)? It must once 32 bytes at SPILL_RATE have passed since the last; what it buffers beyond that the
spec leaves open: a free value. -/
def State.spillTakes (s : State) : Bool × State :=
  if 250 ≤ (s.time.ticks - s.del.trace.spillAt) * min 40 (s.fld Reg.DEL_TRACE_CTRL Fld.DEL_TRACE_CTRL_SPILL_RATE) then (true, s)
  else
    let (v, s) := s.draw
    (v % 2 == 0, s)

/-- Takes one post-trigger entry (R676, R677), until the capture is complete; TRACE_CAPTURE_END then ends it. -/
def State.tracePost (s : State) (e : List Byte) : State :=
  let t := s.del.trace
  let off := s.tracePostOff
  let fits := s.traceFits
  if s.traceFull ∨ s.tracePosts ≤ t.post then s
  else
    let (keep, s) := if fits then (true, s) else s.spillTakes
    if !keep then (s.setTrace { t with dropped := true }).inc Cnt.DEL_FROST_TRACE_DROPPED
    else
      let s := if fits then s.delWrite off e else ((s.setFld trSt Fld.DEL_TRACE_STATUS_SPILLING 1).segPut 6 e 0 false).inc Cnt.DEL_FROST_SPILLED
      let s := s.setTrace { t with post := t.post + 1, spilled := t.spilled || !fits, spillAt := if fits then t.spillAt else s.time.ticks }
      s.inc Cnt.DEL_FROST_TRACE_ENTRIES

/-- Is the trace CAPTURING? -/
def State.capturing (s : State) : Bool := s.traceState == 2

/-- The trigger fires (R675, R676): the ring freezes and is copied out oldest first, and the triggering entry, if there is one, is the first
post-trigger entry. -/
def State.traceFire (s : State) (kind code : Nat) (e : Option (List Byte)) : State :=
  let t := s.del.trace
  let n := t.ring.length
  let s := s.setTrace { t with pre := n, post := 0, trigKind := kind, trigCode := code, spilled := false, dropped := false, spillAt := 0, due := false }
  let s := (s.setFld trSt Fld.DEL_TRACE_STATUS_STATE 2).setFld trSt Fld.DEL_TRACE_STATUS_PRE_ENTRIES (n % 32768)
  let s := (s.setFld trSt Fld.DEL_TRACE_STATUS_FULL 0).wrWide Reg.DEL_TRACE_TRIG_TIME s.short 2
  let s := (s.delZero 4096 1048576).delWrite 4096 t.ring.flatten
  let s := match e with | some e => s.tracePost e | none => s
  s.irqRaw (pg 0x10 1) 5

/-- Does an entry, or the latch it records, trigger an armed trace (R675)? -/
def State.traceTriggers (s : State) (kind code : Nat) : Bool :=
  let k := s.fld Reg.DEL_TRACE_TRIG Fld.DEL_TRACE_TRIG_KIND
  let c := s.fld Reg.DEL_TRACE_TRIG Fld.DEL_TRACE_TRIG_CODE
  s.traceState == 1 && ((k != 0 && k == kind && (c == code || c == 0xFFFF)) ||
    (kind == 8 && code == 1 && s.flag Reg.DEL_TRACE_TRIG Fld.DEL_TRACE_TRIG_ON_FROST))

/-- Takes a trace entry while the trace is armed or capturing (R673–R675): at most four in one cycle. The trigger falls on its own entry if that is
taken, and otherwise on the first entry taken after it (R679). -/
def State.traceTake (s : State) (kind code : Nat) (e : List Byte) : State :=
  let t := s.del.trace
  let n := if t.tick = s.time.ticks then t.taken else 0
  let due := t.due || s.traceTriggers kind code
  if s.traceState ≠ 1 ∧ s.traceState ≠ 2 then s
  else if 4 ≤ n then (s.setTrace { t with due := due }).inc Cnt.DEL_FROST_TRACE_OVERRUN
  else
    let s := s.setTrace { t with tick := s.time.ticks, taken := n + 1 }
    if s.capturing then s.tracePost e
    else
      if due then s.traceFire kind code (some e)
      else
        let r := t.ring ++ [e]
        (s.setTrace { s.del.trace with ring := if 32768 < r.length then r.drop 1 else r }).inc Cnt.DEL_FROST_TRACE_ENTRIES

/-- The 32 bytes of a trace entry (R673). -/
def State.traceBytes (s : State) (kind code loc src inst : Nat) (data : List Byte) : List Byte :=
  leBytes 8 s.short ++ leBytes 2 loc ++ leBytes 1 src ++ leBytes 1 kind ++ leBytes 2 code ++ leBytes 2 inst ++ slice 0 16 data

/-- Traces an event of a kind whose bit of KINDS is set (R673). -/
def State.trace (s : State) (kind code loc src inst : Nat) (data : List Byte) : State :=
  if bit (kind - 1) (s.fld Reg.DEL_TRACE_FILTER Fld.DEL_TRACE_FILTER_KINDS) then s.traceTake kind code (s.traceBytes kind code loc src inst data)
  else s

/-- Traces an error log entry at SEVERITY of MIN_SEV or more (R673). -/
def State.traceError (s : State) (p code sev loc : Nat) : State :=
  if s.fld Reg.DEL_TRACE_FILTER Fld.DEL_TRACE_FILTER_MIN_SEV ≤ sev then s.trace 1 code loc (p / 256) (p % 256) (leBytes 1 sev) else s

end Sys2Proof.Machine
end

