-- ==== Sys2Proof/Machine/Events.lean ====
section
/-! DEFINITION. Page interrupts, error logs, commands and their completions, and the memory regions: what every block reports through. -/
namespace Sys2Proof.Machine

/-! ### Page interrupts and error logs (R69–R72) -/

/-- Hardware sets bit b of PAGE_IRQ_STATUS of page p; a source that becomes set is traced (R69, R673). -/
def State.irq (s : State) (p b : Nat) : State :=
  let s' := s.irqRaw p b
  if (s.rd (Reg.PAGE_IRQ_STATUS p)).toNat.testBit b then s' else s'.trace 2 b 0 (p / 256) (p % 256) []

/-- Is ALERT_OUT asserted: tripped, the clock lost, or a source that the mask lets through (R844)? -/
def State.alertOn (s : State) : Bool :=
  s.flag Reg.PWR_STATUS Fld.PWR_STATUS_TRIPPED || s.pwr.therm || s.pwr.clockLost || s.rd Reg.PWR_ALERT_SRC &&& s.rd Reg.PWR_ALERT_MASK != 0

/-- ALERT_OUT and PWR_STATUS.ALERT follow; an assertion is counted (R844, R846). ALERT_OUT is pin 9 of the model's record. -/
def State.alertUpdate (s : State) : State :=
  if s.alertOn = s.flag Reg.PWR_STATUS Fld.PWR_STATUS_ALERT then s
  else
    let b := s.alertOn
    let s := (s.setFlag Reg.PWR_STATUS Fld.PWR_STATUS_ALERT b).emit (.pin 9 b)
    if b then s.inc Cnt.PWR_ALERT_ASSERTS else s

/-- Sets an alert source (R844). -/
def State.alertSource (s : State) (k : Nat) : State :=
  (s.wr Reg.PWR_ALERT_SRC (s.rd Reg.PWR_ALERT_SRC ||| BitVec.ofNat 32 (2 ^ k))).alertUpdate

/-- Writes error log entry k of page p; one of severity 3 is an alert source (R844). -/
def State.putLogEntry (s : State) (p k code sev loc : Nat) : State :=
  let a := Reg.PAGE_ERR_ENTRY p k
  let s := s.wrWide a (s.short + loc % 65536 * 2 ^ 64 + code % 65536 * 2 ^ 80 + sev % 256 * 2 ^ 104) 4
  if sev = 3 then s.alertSource 3 else s

/-- Logs an error in page p (R71, R72): the first since the last clear goes to entry 0 and a later one to entry NEXT, unless it
repeats the code and location of the entry written last, which counts in that entry's REPEAT; TOTAL counts every one. An entry written is
traced at its severity (R673). -/
def State.logErr (s : State) (p code sev loc : Nat) : State :=
  let st := Reg.PAGE_ERR_STATUS p
  let s := s.addFld st Fld.PAGE_ERR_STATUS_TOTAL 1
  let last := Tbl.getD s.logLast 0 p
  let e := Reg.PAGE_ERR_ENTRY p (last - 1)
  if s.flag st Fld.PAGE_ERR_STATUS_FIRST_VALID then
    if last ≠ 0 ∧ s.fld e Fld.PAGE_ERR_ENTRY_CODE = code ∧ s.fld e Fld.PAGE_ERR_ENTRY_LOCATION = loc then
      s.addFld e Fld.PAGE_ERR_ENTRY_REPEAT 1
    else
      let k := s.fld st Fld.PAGE_ERR_STATUS_NEXT
      let s := (s.putLogEntry p k code sev loc).setFld st Fld.PAGE_ERR_STATUS_NEXT (if k = 10 then 1 else k + 1)
      ({ s with logLast := Tbl.set s.logLast 0 p (k + 1) }.irq p 0).traceError p code sev loc
  else
    let s := (s.putLogEntry p 0 code sev loc).setFld st Fld.PAGE_ERR_STATUS_FIRST_VALID 1
    ({ s with logLast := Tbl.set s.logLast 0 p 1 }.irq p 0).traceError p code sev loc

/-- A start-up stage has completed (R781): counted, with STAGE_DONE (R815). -/
def State.stageDone (s : State) : State := (s.inc Cnt.CFG_STAGES).irq (pg 0x15 0) 3

/-- Is a page reset of page p in progress (R75)? -/
def State.pageBusy (s : State) (p : Nat) : Bool := hasHeader (p / 256) (p % 256) && s.flag (Reg.PAGE_CTRL p) Fld.PAGE_CTRL_SOFT_RESET
/-- Is page p locked (R64)? -/
def State.pageLocked (s : State) (p : Nat) : Bool := hasHeader (p / 256) (p % 256) && s.flag (Reg.PAGE_CTRL p) Fld.PAGE_CTRL_LOCK

/-- The location code an error of page p carries where no rule names a smaller part: the tile, the engine, the module, the reducer, or
the CX block (R37). -/
def locPage (p : Nat) : Nat :=
  let n := p % 256
  match p / 256 with
  | 4 => locTile n 31 | 5 => locTile n 31 | 8 => locTile n 31
  | 6 => locTile (4 * n) 31 | 7 => locQuad n
  | 9 => locOeAll n | 0x0A => locOeAll n | 0x0B => locElsAll n
  | 0x0C => locFen n
  | 0x0D => locFadm n
  | 0x0F => if n = 0 then locBlock 0x0F else locCx 1 (n - 1)
  | t => locBlock t

/-- A write of a block-specific register of page p takes effect by f; during a page reset it is discarded (R75), and a device held in reset takes
none. -/
def State.onPage (s : State) (p : Nat) (f : State → State) : State := if s.pwr.held || s.pageBusy p then s else f s

/-! ### Commands and their completions (R79, R91–R94, R104, R782) -/

/-- How a command ends: status, RESULT, the flags summary, and the block's own payload bytes after RESULT. -/
structure Cmpl where
  status : Nat
  result : Nat := 0
  sum : Nat := 0
  extra : List Byte := []
  deriving DecidableEq, Repr

/-- Do two commands come from one ring: a ring of CXL, the management port, which is one ring more (R104), or firmware? -/
def sameRing : CmdSrc → CmdSrc → Bool
  | .ring i, .ring j => i == j
  | .mgmt _ _, .mgmt _ _ => true
  | .firmware, .firmware => true
  | _, _ => false

/-- Is a listed command the one of this header and operation, not yet started? -/
def cmdNames (h : CmdHdr) (opcode : Nat) (t : Started) : Bool := !t.running && t.src == h.src && t.opcode == opcode && t.tag == h.tag

/-- The commands of its ring that stand before a command (R91): those listed before its own entry, or all of them when none is listed for it. -/
def State.ahead (s : State) (h : CmdHdr) (opcode : Nat) : List Started :=
  (s.host.started.filter fun t => sameRing t.src h.src).takeWhile fun t => !cmdNames h opcode t

/-- The tick a command was taken at; one that no entry lists is taken now. -/
def State.takenAt (s : State) (h : CmdHdr) (opcode : Nat) : Nat := ((s.host.started.find? (cmdNames h opcode)).map (·.at_)).getD s.time.ticks

/-- The order of sources whose commands start in one cycle (R104, R311): the rings by index, the management port, firmware. -/
def srcRank : CmdSrc → Nat
  | .ring i => i % 256
  | .mgmt _ _ => 256
  | .firmware => 257

/-- Can a listed command start as far as its own ring goes (R91)? -/
def State.ready (s : State) (t : Started) : Bool :=
  let before := (s.host.started.filter fun u => sameRing u.src t.src).takeWhile fun u => u != t
  !t.running && before.all (·.running) && (!t.fence || before.isEmpty)

/-- Does a command of another source, taken at the same tick and ready, start before it (R311)? DEDUCED: two commands start in the same cycle when they
were taken at one tick. -/
def State.outranked (s : State) (h : CmdHdr) (opcode : Nat) : Bool :=
  s.host.started.any fun t => decide (srcRank t.src < srcRank h.src) && t.at_ == s.takenAt h opcode && s.ready t

/-- May a command start (R91, R311): every command before it in its ring has started, and with FENCE has completed, and no other source goes first? -/
def State.mayStart (s : State) (h : CmdHdr) (opcode : Nat) : Bool :=
  (s.ahead h opcode).all (·.running) && (!h.fence || (s.ahead h opcode).isEmpty) && !s.outranked h opcode

/-- A command starts: its entry is marked, or one is listed for a command that came without. -/
def State.start (s : State) (h : CmdHdr) (opcode : Nat) : State :=
  if s.host.started.any (cmdNames h opcode) then
    { s with host := { s.host with
      started := (s.host.started.takeWhile fun t => !cmdNames h opcode t) ++
        match s.host.started.dropWhile fun t => !cmdNames h opcode t with
        | t :: rest => { t with running := true } :: rest
        | [] => [] } }
  else { s with host := { s.host with started := s.host.started ++ [⟨h.src, opcode, h.tag, h.event, h.fence, h.target, [], s.time.ticks, true⟩] } }

/-- Is a listed command the running one that a completion is for? -/
def cmdRuns (h : CmdHdr) (block : Nat) (t : Started) : Bool := t.running && t.src == h.src && t.opcode / 256 == block && t.tag == h.tag

/-- A completed command leaves the list of commands not yet completed. -/
def State.unstart (s : State) (h : CmdHdr) (block : Nat) : State :=
  match takeFirst (cmdRuns h block) s.host.started with
  | some (_, rest) => { s with host := { s.host with started := rest } }
  | none => s

/-- Posts a completion: always when the command failed, else when FLAGS.EVENT is set (R93); to the event ring of its ring, as the one COMPLETION frame
of a management request (R104), or to firmware. In a COMPLETION frame RING, HEAD, PHASE and LOST are 0: DESIGN CHOICE, the spec gives the management
port no ring index and no counts. Unsafe. -/
def State.answer (s : State) (h : CmdHdr) (block : Nat) (c : Cmpl) : State :=
  let e : Ev := ⟨1, block, h.tag, c.status, 0, c.sum, none, s.short, 0, leBytes 8 c.result ++ c.extra⟩
  match h.src with
  | .ring i =>
    if c.status ≠ 0 ∨ h.event then
      s.post (s.crCfg i Fld.HOST_CR_CFG_EVENT_RING) { e with ring := some i, head := (s.cr i).head }
    else s
  | .mgmt mac seq =>
    (s.inc Cnt.MGMT_MP_ANSWERS).mpSend mac 0x83 0 seq (e.bytes false false)
  | .firmware => if c.status ≠ 0 ∨ h.event then s.emit (.firmware e) else s

/-- A command completes: it leaves the list, and its completion is posted. -/
def State.complete (s : State) (h : CmdHdr) (block : Nat) (c : Cmpl) : State := (s.unstart h block).answer h block c

/-- The header of a listed command. -/
def Started.hdr (t : Started) : CmdHdr := ⟨t.src, t.tag, t.event, t.fence, t.target⟩

/-- Listed commands complete with ABORTED (R74). -/
def State.abortListed (s : State) (f : Started → Bool) : State :=
  let mine := s.host.started.filter f
  mine.foldl (fun s t => s.answer t.hdr (t.opcode / 256) ⟨6, 0, 0, []⟩)
    { s with host := { s.host with started := s.host.started.filter fun t => !f t } }

/-- The tenant window a ring acts for, none for the operator (R77, R94). -/
def State.ringWindow (s : State) (i : Nat) : Option Nat :=
  if s.crCfg i Fld.HOST_CR_CFG_OPERATOR = 1 then none else some (s.crCfg i Fld.HOST_CR_CFG_TENANT_WIN)

/-- The tenant window a command's sender acts for, none for the operator and firmware (R104). -/
def State.cmdWindow (s : State) (h : CmdHdr) : Option Nat :=
  match h.src with
  | .ring i => s.ringWindow i
  | _ => none

/-- The tenant bound to a window, while the window is live (R78). -/
def State.winTenant (s : State) (w : Nat) : Option Nat :=
  if s.flag (Reg.HOST_TW_BIND w) Fld.HOST_TW_BIND_ENABLE then some (s.fld (Reg.HOST_TW_BIND w) Fld.HOST_TW_BIND_TENANT) else none

/-- May the sender of a command act on something of a tenant: the operator always, a tenant on its own (R77, R79)? -/
def State.mayTouch (s : State) (h : CmdHdr) (tenant : Nat) : Bool :=
  match s.cmdWindow h with
  | none => true
  | some w => s.winTenant w == some tenant

/-- Does the sender act with operator privilege? -/
def State.isOperator (s : State) (h : CmdHdr) : Bool := (s.cmdWindow h).isNone

/-- A command denied (R79): status DENIED, and error 0x0003 in HOST page 0. -/
def State.deny (s : State) (h : CmdHdr) (block : Nat) : State :=
  (s.logErr (pg 2 0) 0x0003 0 (locBlock 2)).complete h block ⟨3, 0, 0, []⟩

/-- The bit of CFG_STATUS that shows a block's start-up stage reached (R781, R782): Fen with the self-test stage, and every other
block with the firmware stage. -/
def blockStage (block : Nat) : Fld :=
  if block = 0x0C ∨ block = 0x0D then Fld.CFG_STATUS_FEN_FP32 else Fld.CFG_STATUS_FW_RUNNING

/-- Has the block's start-up stage been reached? -/
def State.stageReached (s : State) (block : Nat) : Bool := s.flag Reg.CFG_STATUS (blockStage block)

/-- The commands that run in recovery (R784): FW_STAGE, CFG_WRITE, ATTEST, UNLOCK_CHALLENGE and UNLOCK. -/
def inRecovery (opcode : Nat) : Bool := opcode == 0x1501 || opcode == 0x1506 || opcode == 0x1401 || opcode == 0x1402 || opcode == 0x1403

/-- Runs a command once it may start (R91, R311): RECOVERY and BUSY by start-up stage (R782, R784), DENIED outside its privilege (R79), then
its own effect, which ends in a completion or leaves one for later. -/
def State.runCmd (s : State) (h : CmdHdr) (opcode : Nat) (operOnly : Bool) (body : State → State × Option Cmpl) : State :=
  if !s.mayStart h opcode then s else
  let s := s.start h opcode
  let block := opcode / 256
  if s.flag Reg.CFG_STATUS Fld.CFG_STATUS_RECOVERY && !inRecovery opcode then s.complete h block ⟨0x0107, 0, 0, []⟩
  else if !s.flag Reg.CFG_STATUS Fld.CFG_STATUS_RECOVERY && !s.stageReached block then s.complete h block ⟨4, 0, 0, []⟩
  else if operOnly && !s.isOperator h then s.deny h block
  else match body s with
    | (t, some c) => t.complete h block c
    | (t, none) => t

/-- A command that ends with OK. -/
def ok (s : State) (result : Nat := 0) : State × Option Cmpl := (s, some ⟨0, result, 0, []⟩)
/-- A command that fails with a status and changes nothing. -/
def fail (s : State) (status : Nat) : State × Option Cmpl := (s, some ⟨status, 0, 0, []⟩)
/-- A command that fails in a way for which the spec states no status: a free status, and no other effect. -/
def failOpen (s : State) : State × Option Cmpl :=
  let (v, s) := s.draw
  fail s (v % 65536)

/-! ### Barometer inputs and the fence list (R684, R688, R697) -/

/-- Charges an input to an object (R688): what Barometer takes at its next evaluation. -/
def State.charge (s : State) (obj input n : Nat) : State := { s with charges := Tbl.upd s.charges 0 (32 * obj + input) (· + n) }
/-- Object IDs of Barometer (R684). -/
def objEndpoint (key : Nat) : Nat := key % 2 ^ 20
def objLeaf (l : Nat) : Nat := 1 * 2 ^ 28 + l % 512
def objPort (lp : Nat) : Nat := 2 * 2 ^ 28 + lp % 2048
def objReed (p r : Nat) : Nat := 3 * 2 ^ 28 + p % 512 * 4 + r % 4
def objLine (m k : Nat) : Nat := 4 * 2 ^ 28 + m % 8 * 16 + k % 16
def objTile (loc : Nat) : Nat := 5 * 2 ^ 28 + loc % 65536
def objQuad (q : Nat) : Nat := 6 * 2 ^ 28 + q % 8
/-- The TILE object of a Fen reducer (R684, R37). -/
def objFen (n : Nat) : Nat := objTile (locFen n)

/-- A saturation report of a level (R264, R533, R616, R712): counted, with the AUX1 of the last. -/
def State.levelReport (s : State) (level aux : Nat) : State :=
  { s with baro := { s.baro with levels := Tbl.upd s.baro.levels (0, 0) level fun x => (x.1 + 1, aux) } }

/-- Is an object in suspect-hold (R706)? -/
def State.isHeld (s : State) (obj : Nat) : Bool := s.baro.held.contains obj

/-- Is an object of a fence entry's KIND and KEY fenced (R697)? -/
def State.fencedObj (s : State) (kind key : Nat) : Bool := s.fences.any fun e => bits 62 62 e.2 == kind && bits 19 0 e.2 == key
/-- Is an endpoint fenced, by the bits of its FEID that name it (R700)? -/
def State.fencedEp (s : State) (feid : Nat) : Bool := s.fencedObj 0 (bits 31 12 feid)
/-- The epoch of the fence list (R698). -/
def State.fenceEpoch (s : State) : Nat := s.fld Reg.BARO_FENCE_EPOCH Fld.BARO_FENCE_EPOCH_EPOCH

/-! ### The archive queue (R655, R660) -/

/-- The archive rate in 1/125 byte a tick (DEL_ARCH_RATE: units of 100 MB/s, above 160 acts as 160). -/
def State.archRate (s : State) : Nat := 16 * min 160 (s.fld Reg.DEL_ARCH_RATE Fld.DEL_ARCH_RATE_RATE)
/-- What the 4 MiB queue holds now, in 1/125 byte. -/
def State.archQueue (s : State) : Nat := s.del.qBytes - s.archRate * (s.time.ticks - s.del.qAt)

/-- Archives an entry (R655, R660): without a region or with the queue full it is dropped and counted, the next segment of its kind carries
LOST, and the first drop of a kind since its last segment is logged. With ARCH_EN = 0 nothing is archived (DEL_CTRL). -/
def State.archive (s : State) (kind : Nat) (entry : List Byte) (window : Nat) (unaligned : Bool) : State :=
  if !s.flag Reg.DEL_CTRL Fld.DEL_CTRL_ARCH_EN then s else
  let q := s.archQueue
  if s.delRegion.isNone ∨ 125 * 4194304 < q + 125 * entry.length then
    let s := (s.inc Cnt.DEL_ARCH_DROP).irq (pg 0x10 0) 2
    let s := if Tbl.getD s.del.lost false kind then s else s.logErr (pg 0x10 0) 0x0100 1 (locBlock 0x10)
    { s with del := { s.del with lost := Tbl.set s.del.lost false kind true } }
  else
    let s := s.segPut kind entry window unaligned
    { s with del := { s.del with qBytes := q + 125 * entry.length, qAt := s.time.ticks } }

/-! ### Check codes and memory regions (R587, R589, R590) -/

/-- The page of memory channel c. -/
def chPg (c : Nat) : Nat := pg 0x0F (c + 1)
/-- A client reads a beat whose check code shows an error (R587): the channel counts it, and logs one that it cannot correct. -/
def State.beatSeen (s : State) (e : BeatErr) : State :=
  if e.ue then ((s.inc (Cnt.TIER_CHAN_UE (e.chan + 1))).irq (chPg e.chan) 2).logErr (chPg e.chan) 0x0100 2 (locPage (chPg e.chan))
  else s.inc (Cnt.TIER_CHAN_CE (e.chan + 1))
def State.beatsSeen (s : State) (l : List BeatErr) : State := l.foldl State.beatSeen s
/-- The channel of an address (R582, R583). -/
def State.chanOf (s : State) (t a : Nat) : Nat :=
  if t = 0 then a / 4096 % 8 else 8 + a / 4096 % max 1 (s.fld Reg.TIER_STATUS Fld.TIER_STATUS_T2_MODULES)

/-- Refused by the tier's region table (R590): counted and logged. -/
def State.regionViolation (s : State) : State :=
  ((s.inc Cnt.TIER_REGION_VIOLATION).irq (pg 15 0) 2).logErr (pg 15 0) 0x0103 1 (locBlock 15)

/-- Reads n bytes at an offset of the first region of a kind; outside it the read gives zeros (R590). -/
def State.regionRead (s : State) (kind off n : Nat) : List Byte :=
  match s.regionOf kind with
  | some (t, b, sz) => if off + n ≤ sz then memRead (s.tier t) (b + off) n else List.replicate n 0
  | none => List.replicate n 0

/-- Stores bytes at an offset of the first region of a kind; outside it the write is discarded and counted (R590). -/
def State.regionWrite (s : State) (kind off : Nat) (bs : List Byte) : State :=
  match s.regionOf kind with
  | some (t, b, sz) => if off + bs.length ≤ sz then s.tierWrite t (b + off) bs else s.regionViolation
  | none => s.regionViolation

/-- Staging bytes at an offset (R55). -/
def State.staging (s : State) (off n : Nat) : List Byte := s.regionRead 1 off n

end Sys2Proof.Machine
end

