-- ==== Sys2Proof/Machine/Packet.lean ====
section
/-! DEFINITION. Fabric packets (chapter 4): the fields of FLAGS, the checks of the header and the trailer, lengths, classes, and
what each type may carry. -/
namespace Sys2Proof.Machine

/-! ### FLAGS (R180) -/
def fTag : Nat := 15
def fSpec : Nat := 14
def fPoison : Nat := 13
def fLast : Nat := 10
def fAckReq : Nat := 9
def fDstSpine : Nat := 8
def fSrcSpine : Nat := 7

/-- Is a FLAGS bit of a packet set? -/
def pflag (p : Pkt) (k : Nat) : Bool := p.flags.testBit k
/-- FLAGS.COLOUR (R180). -/
def colour (p : Pkt) : Nat := bits 12 11 p.flags
/-- The packet with FLAGS.COLOUR written (R232). -/
def withColour (p : Pkt) (c : Nat) : Pkt := { p with flags := withBits 12 11 c p.flags }
/-- The packet with a FLAGS bit set. -/
def withFlag (p : Pkt) (k : Nat) (b : Bool) : Pkt := { p with flags := withBits k k (b2n b) p.flags }

/-! ### Layout (R175–R177) -/

/-- The 28 header bytes that HCRC covers. -/
def headBytes (p : Pkt) : List Byte :=
  beBytes 1 (p.ver % 16 * 16 + p.cls % 8 * 2 + p.cmark % 2) ++ beBytes 1 p.typ ++ beBytes 2 p.flags ++ beBytes 4 p.dst ++ beBytes 4 p.src ++
  beBytes 3 p.seq ++ beBytes 1 p.gen ++ beBytes 4 p.msgId ++ beBytes 4 p.offset ++ beBytes 2 p.plen ++
  beBytes 1 (p.hop % 16 * 16 + p.rsv26 % 16) ++ beBytes 1 p.rsv27

/-- HCRC as the header fields give it (R177, R195). -/
def hcrcOf (p : Pkt) : Nat := crc32c (headBytes p)
/-- PCRC as OFFSET and the payload give it (R196). -/
def pcrcOf (p : Pkt) : Nat := crc32c (beBytes 4 p.offset ++ p.payload)
/-- The packet with HCRC recomputed (R198). -/
def withHcrc (p : Pkt) : Pkt := { p with hcrc := hcrcOf p }
/-- The packet with both checks computed, as the device originates it. -/
def sealPkt (p : Pkt) : Pkt := withHcrc { p with pcrc := pcrcOf p }
/-- The bytes of a packet on the line: header, payload, trailer. -/
def pktBytes (p : Pkt) : List Byte := headBytes p ++ beBytes 4 p.hcrc ++ p.payload ++ beBytes 4 p.pcrc ++ beBytes 4 p.cchk

/-- The length of a packet from the first TFH byte to the last trailer byte (R175, R224). -/
def pktLen (p : Pkt) : Nat := 40 + p.plen
/-- The cells a packet occupies (R250). -/
def pktCells (p : Pkt) : Nat := ceilDiv (pktLen p) 256
/-- The flits a packet occupies (R238). -/
def pktFlits (p : Pkt) : Nat := ceilDiv (pktLen p + 32) 256
/-- The credit units a packet takes (R329). -/
def pktUnits (p : Pkt) : Nat := ceilDiv (pktLen p) 64

/-! ### Addresses (R30, R184) -/
def feidPlane (a : Nat) : Nat := bits 31 29 a
def feidLeaf (a : Nat) : Nat := bits 28 20 a
def feidEp (a : Nat) : Nat := bits 19 12 a
/-- The 20 bits that name an endpoint (R295). -/
def feidKey (a : Nat) : Nat := bits 31 12 a
/-- FN of a spine address (R184). -/
def spineFn (a : Nat) : Nat := bits 11 0 a
/-- SPINE of a spine address. -/
def spineIdx (a : Nat) : Nat := bits 19 12 a

/-- The plane of the device (FWT_CFG.PLANE). -/
def State.plane (s : State) : Nat := s.fld (Reg.FWT_CFG 0) Fld.FWT_CFG_PLANE
/-- The plane's leaf count L (FWT_CFG.LEAVES). -/
def State.leaves (s : State) : Nat := 64 * 2 ^ s.fld (Reg.FWT_CFG 0) Fld.FWT_CFG_LEAVES
/-- The device's own spine address with a function number (R184). -/
def State.spineAddr (s : State) (fn : Nat) : Nat := s.plane * 2 ^ 29 + s.spine % 256 * 2 ^ 12 + fn

/-- The role of physical port p: 1 leaf-facing, 2 cascade, 0 unused (R24). -/
def State.role (s : State) (p : Nat) : Nat :=
  let r := s.fld (Reg.PT_PORT_CFG (p / 8) (p % 8)) Fld.PT_PORT_CFG_ROLE
  if r = 3 then 0 else r
/-- Is port p split into halves (R39)? -/
def State.isSplit (s : State) (p : Nat) : Bool := s.flag (Reg.PT_PORT_CFG (p / 8) (p % 8)) Fld.PT_PORT_CFG_SPLIT
/-- The number of cascade ports C (R20). -/
def State.cascades (s : State) : Nat := ((List.range 512).filter fun p => s.role p == 2).length
/-- The bundle width b (R21): the largest of 1, 2, 4 and 8 for which L × b + C ≤ 512. -/
def State.bundle (s : State) : Nat := ([8, 4, 2, 1].find? fun b => decide (s.leaves * b + s.cascades ≤ 512)).getD 1
/-- The plane's spine count S = 256 / b (R20). -/
def State.spines (s : State) : Nat := 256 / s.bundle

/-! ### Types and classes (R188) -/

/-- The classes listed for a type; none for an unknown type. -/
def typeClasses (t : Nat) : Option (List Nat) :=
  match t with
  | 0x01 => some [0, 2, 6] | 0x02 => some [3, 6] | 0x03 => some [4, 6] | 0x04 => some [4, 5, 6]
  | 0x10 => some [5, 6] | 0x11 => some [5, 6] | 0x12 => some [7] | 0x13 => some [7]
  | 0x18 => some [2] | 0x19 => some [4] | 0x20 => some [3, 6] | 0x21 => some [4, 6]
  | 0x28 => some [1] | 0x30 => some [7] | 0x31 => some [7] | 0x32 => some [7] | 0x33 => some [2, 7]
  | _ => none

/-- The function a type is consumed by at a spine (R188). -/
def typeFn (t : Nat) : Option Nat :=
  match t with
  | 0x10 => some 1 | 0x13 => some 1 | 0x19 => some 0 | 0x20 => some 2 | 0x28 => some 3 | 0x30 => some 4
  | 0x31 => some 0 | 0x32 => some 0 | 0x33 => some 0
  | _ => none

/-- The discard reasons (R221). -/
def rHcrc : Nat := 1
def rVersion : Nat := 2
def rLength : Nat := 3
def rType : Nat := 4
def rClass : Nat := 5
def rHop : Nat := 6
def rSpec : Nat := 7
def rUnroutable : Nat := 8
def rMisaddressed : Nat := 9
def rStale : Nat := 10
def rReserved : Nat := 11
def rPcrc : Nat := 12

/-- Does an FN match a type where it arrives (R187, R27)? -/
def fnMatches (t fn : Nat) (cascade : Bool) : Bool :=
  typeFn t == some fn || (cascade && fn == 1 && (t == 0x11 || t == 0x12 || t == 0x04))

/-- Is a TC7 packet a spine-to-spine control packet relayed by one leaf (R194)? -/
def isRelayed (p : Pkt) : Bool := p.cls == 7 && pflag p fDstSpine && pflag p fSrcSpine && p.hop == 2

/-- Does an address name another plane, or a leaf that the plane does not have (R31)? -/
def State.badAddr (s : State) (a : Nat) : Bool := feidPlane a != s.plane || decide (s.leaves ≤ feidLeaf a)

/-- Does a packet addressed to a function hold a non-zero reserved field of the header (R179, R184)? -/
def reservedSet (p : Pkt) : Bool :=
  pflag p fDstSpine && (bits 28 20 p.dst != 0 || p.flags % 128 != 0 || p.rsv26 != 0 || p.rsv27 != 0)

/-- The first header check a packet fails, in the order of R221 (R227), before the generation and the reserved fields; none when it passes. `cascade`: it
arrived on a cascade port. LENGTH here is PAYLOAD_LEN above 4,096; the frame's own length is judged at the tail (R227). A packet for an endpoint that
arrives on a cascade port is UNROUTABLE where its address is (R31), else MISADDRESSED (R27). -/
def State.headerReason (s : State) (cascade : Bool) (p : Pkt) : Option Nat :=
  if p.hcrc ≠ hcrcOf p then some rHcrc
  else if p.ver ≠ 2 then some rVersion
  else if 4096 < p.plen then some rLength
  else if (typeClasses p.typ).isNone then some rType
  else if !((typeClasses p.typ).getD []).contains p.cls then some rClass
  else if (!cascade && decide (p.cls ≤ 6) && p.hop != 1) || (cascade && p.hop == 15) then some rHop
  else if !cascade && (pflag p fSpec || (pflag p fSrcSpine && !isRelayed p)) then some rSpec
  else if pflag p fDstSpine && decide (s.spines ≤ spineIdx p.dst) then some rUnroutable
  else if cascade && !pflag p fDstSpine then some (if s.badAddr p.dst then rUnroutable else rMisaddressed)
  else if pflag p fDstSpine && (spineIdx p.dst != s.spine || feidPlane p.dst != s.plane || decide (4 < spineFn p.dst) ||
      !fnMatches p.typ (spineFn p.dst) cascade) then some rMisaddressed
  else if cascade && p.cls != 7 && spineFn p.dst != 1 then some rMisaddressed
  else none

/-- A logical port's physical port. -/
def lp2p (lp : Nat) : Nat := lp / 2
/-- The page of port statistics of a logical port, and the port within it. -/
def lpTile (lp : Nat) : Nat := lp / 16
def lpPort (lp : Nat) : Nat := lp / 2 % 8
/-- The die of a tile (R38). -/
def tileDie (t : Nat) : Nat := t / 32
/-- The quadrant of a tile (R38). -/
def tileQuad (t : Nat) : Nat := t / 8
/-- The location of a logical link (R860): the first reed of the port or half. -/
def locLink (lp : Nat) : Nat := locTile (lpTile lp) (4 * lpPort lp + 2 * (lp % 2))

/-- The PT counter of a discard reason. -/
def reasonCnt (lp r : Nat) : Nat := Cnt.PT_HEADER_CRC (lpTile lp) (lpPort lp) + 8 * (r - 1)

/-- Does a packet take its SEQ from its group's stream: COLL_OUT, COLL_RECALL and collective COMPLETION (R205), BCAST (R806)? -/
def groupStream (p : Pkt) : Bool := p.typ == 0x11 || p.typ == 0x12 || p.typ == 0x18 || (p.typ == 0x04 && beAt 0 2 p.payload == 1)

/-- The packet with the next SEQ of its stream of class, source and destination (R205). -/
def State.withSeq (s : State) (p : Pkt) : Pkt × State :=
  if groupStream p then (p, s)
  else
    let k := (p.cls * 2 ^ 32 + p.src) * 2 ^ 32 + p.dst
    let q := Tbl.getD s.sw.streams 0 k
    ({ p with seq := q }, { s with sw := { s.sw with streams := Tbl.set s.sw.streams 0 k ((q + 1) % 2 ^ 24) } })

/-- The quadrant switch output a destination leaves by: 0–7 the quadrants, 8 and 9 the function ports. -/
def Dest.output : Dest → Nat
  | .port lp _ _ => lp / 128
  | .fn d => 8 + d

/-- A packet of a function enters the switch by the function port of a die, for the destinations given (R236, R244, R247): HOP 0 here, 1 as it leaves
(R191). -/
def State.enterSwitch (s : State) (die : Nat) (p : Pkt) (dests : List Dest) (group stampId : Option Nat) : State :=
  { s with sw := { s.sw with
      flights := s.sw.flights ++ [⟨s.sw.nextId, sealPkt p, none, .atSwitch, dests, false, false, group, 0, s.time.ticks, none, stampId, 8 + die,
        pktFlits p, false⟩]
      nextId := s.sw.nextId + 1 } }

/-- A function of a die originates a packet on a logical port (R247, R856), with the next SEQ of its stream. -/
def State.originateOn (s : State) (die lp : Nat) (p : Pkt) (stampId : Option Nat) : State :=
  let (p, s) := s.withSeq p
  s.enterSwitch die p [.port lp p.dst p.seq] none stampId

/-- The die of a logical port (R38). -/
def lpDie (lp : Nat) : Nat := lp / 512

/-- The same where no rule names the die: that of the port. -/
def State.originateMarked (s : State) (lp : Nat) (p : Pkt) (stampId : Option Nat) : State := s.originateOn (lpDie lp) lp p stampId

/-- The same for a packet that no stamp is taken of. -/
def State.originate (s : State) (lp : Nat) (p : Pkt) : State := s.originateMarked lp p none

/-- The function-port queue of a packet that came in on a logical port: that of its die and class (R247, R356). -/
def fnKey (lp : Nat) (p : Pkt) : Nat := 8 * (lpDie lp % 2) + p.cls

/-- Takes a packet from those delivered at the function ports, once its function disposes of it. -/
def State.takeFn (s : State) (lp : Nat) (p : Pkt) : State :=
  match takeFirst (fun x => x == (lp, p)) (Tbl.getD s.sw.fnq [] (fnKey lp p)) with
  | some (_, rest) => { s with sw := { s.sw with fnq := Tbl.set s.sw.fnq [] (fnKey lp p) rest } }
  | none => s

/-- The far spine address of a cascade logical port, with function FN: the ID of the HELLO accepted there (R326). -/
def farSpine (farId fn : Nat) : Nat := farId / 4096 * 4096 + fn

end Sys2Proof.Machine
end

