-- ==== Sys2Proof/Machine/PeatCore.lean ====
section
/-! DEFINITION. Peat's partitions and how full they are (R595, R598, R615): what the window boundary reads too. -/
namespace Sys2Proof.Machine

def State.setPeat (s : State) (f : PeatSt → PeatSt) : State := { s with peat := f s.peat }

/-- Is a partition enabled (R595)? -/
def State.partOn (s : State) (p : Nat) : Bool := s.flag (Reg.PEAT_PART_CFG p) Fld.PEAT_PART_CFG_ENABLE
def State.partTenant (s : State) (p : Nat) : Nat := s.fld (Reg.PEAT_PART_CFG p) Fld.PEAT_PART_CFG_TENANT
/-- A partition's generation (R596). -/
def State.partGen (s : State) (p : Nat) : Nat := s.fld (Reg.PEAT_PART_STATUS p) Fld.PEAT_PART_STATUS_GEN
/-- The enabled partition of a tenant (R597). -/
def State.partOf (s : State) (tenant : Nat) : Option Nat := (List.range 64).find? fun p => s.partOn p && s.partTenant p == tenant
/-- A partition's slot range in a tier: the first slot and the count. -/
def State.slotRange (s : State) (p tier : Nat) : Nat × Nat :=
  if tier = 0 then (s.fld (Reg.PEAT_PART_T1_FIRST p) Fld.PEAT_PART_T1_FIRST_FIRST, s.fld (Reg.PEAT_PART_T1_COUNT p) Fld.PEAT_PART_T1_COUNT_COUNT)
  else (s.fld (Reg.PEAT_PART_T2_FIRST p) Fld.PEAT_PART_T2_FIRST_FIRST, s.fld (Reg.PEAT_PART_T2_COUNT p) Fld.PEAT_PART_T2_COUNT_COUNT)
/-- The key of a slot in the slot table. -/
def slotKey (tier slot : Nat) : Nat := tier * 2 ^ 25 + slot
/-- The slots of a tier that a range uses. -/
def State.poolUsed (s : State) (tier : Nat) (r : Nat × Nat) : Nat :=
  (s.peat.owner.filter fun o => decide (slotKey tier r.1 ≤ o.1) && decide (o.1 < slotKey tier (r.1 + r.2))).length
/-- Slots of a partition's range in a tier that are in use. -/
def State.partUsed (s : State) (p tier : Nat) : Nat := s.poolUsed tier (s.slotRange p tier)
/-- Is a partition above HIGH (R615)? -/
def State.aboveHigh (s : State) (p : Nat) : Bool :=
  decide (s.fld Reg.PEAT_DEMOTE Fld.PEAT_DEMOTE_HIGH * (s.slotRange p 0).2 < 16 * s.partUsed p 0)

end Sys2Proof.Machine
end

