-- ==== Sys2Proof/Machine/Tables.lean ====
section
/-! DEFINITION. The forwarding and group tables (chapter 6): hashing, cuckoo insertion, lookup, spraying, commits, the function-port
lookup and the replicator. -/
namespace Sys2Proof.Machine

/-! ### Hashing and buckets (R297, R303) -/

/-- The CRC-32C hash of a 20-bit key for side A (0) or B (1), reduced to nb buckets. -/
def hashKey (nb side key : Nat) : Nat :=
  crc32c (beBytes 4 (key % 2 ^ 20) ++ (if side = 0 then [] else [0xA5])) % nb

/-- Entry index of a side, bucket and way (R297). -/
def slotIdx (nb side bucket way : Nat) : Nat := 4 * (nb * side + bucket) + way

/-- The kind of table an insertion works on: buckets per side, the bit that says VALID, and the place of the key. -/
structure TblKind where
  nb : Nat
  valid : Nat
  keyLo : Nat
  deriving DecidableEq, Repr

/-- The override table (R296) and the group table (R303). -/
def ovrKind : TblKind := ⟨4096, 63, 0⟩
def grpKind : TblKind := ⟨2048, 127, 92⟩

def TblKind.key (k : TblKind) (e : Nat) : Nat := e >>> k.keyLo % 2 ^ 20
def TblKind.used (k : TblKind) (e : Nat) : Bool := e.testBit k.valid

/-- The entry at an index, 0 where none is. -/
def entryAt (t : Tbl Nat) (i : Nat) : Nat := Tbl.getD t 0 i

/-- The lowest way of a bucket that satisfies p, as an entry index. -/
def wayWhere (k : TblKind) (t : Tbl Nat) (side bucket : Nat) (p : Nat → Bool) : Option Nat :=
  (List.range 4).findSome? fun w =>
    let i := slotIdx k.nb side bucket w
    if p (entryAt t i) then some i else none

/-- The entry index that holds a key in either of its buckets. -/
def findKey (k : TblKind) (t : Tbl Nat) (key : Nat) : Option Nat :=
  let hit := fun e => k.used e && k.key e == key
  (wayWhere k t 0 (hashKey k.nb 0 key) hit).orElse fun _ => wayWhere k t 1 (hashKey k.nb 1 key) hit

/-- The lowest free way of a bucket. -/
def freeWay (k : TblKind) (t : Tbl Nat) (side bucket : Nat) : Option Nat := wayWhere k t side bucket fun e => !k.used e

/-- The path of R298 and R299: entry e takes way step mod 4 of the bucket, and the entry y it displaces goes to a free way of its
bucket on the other side, or displaces in its turn; none when no path ends within the fuel. -/
def cuckooPath (k : TblKind) : Nat → Nat → Tbl Nat → Nat → Nat → Nat → Option (Tbl Nat)
  | 0, _, _, _, _, _ => none
  | fuel + 1, step, t, side, bucket, e =>
    let i := slotIdx k.nb side bucket (step % 4)
    let y := entryAt t i
    let t := Tbl.set t 0 i e
    let o := 1 - side
    let ob := hashKey k.nb o (k.key y)
    match freeWay k t o ob with
    | some f => some (Tbl.set t 0 f y)
    | none => cuckooPath k fuel (step + 1) t o ob y

/-- Insertion without the stash (R298, R304): in place, a free way of A, a free way of B, or a path of at most 32 moves. -/
def insertEntry (k : TblKind) (t : Tbl Nat) (e : Nat) : Option (Tbl Nat) :=
  let key := k.key e
  let a := hashKey k.nb 0 key
  match findKey k t key with
  | some i => some (Tbl.set t 0 i e)
  | none =>
    match freeWay k t 0 a with
    | some i => some (Tbl.set t 0 i e)
    | none =>
      match freeWay k t 1 (hashKey k.nb 1 key) with
      | some i => some (Tbl.set t 0 i e)
      | none => cuckooPath k 32 0 t 0 a e

/-! ### A pipeline's tables -/

def State.pipe (s : State) (n : Nat) : Pipe := s.fwt.pipes.getD n Pipe.init
def State.dieTbl (s : State) (d : Nat) : DieTbl := s.fwt.dies.getD d DieTbl.init

/-- Changes one pipeline's copy. -/
def State.modPipe (s : State) (n : Nat) (f : Pipe → Pipe) : State := { s with fwt := { s.fwt with pipes := s.fwt.pipes.modify n f } }
/-- Changes one die's copy. -/
def State.modDie (s : State) (d : Nat) (f : DieTbl → DieTbl) : State := { s with fwt := { s.fwt with dies := s.fwt.dies.modify d f } }

/-- One commit over every pipeline and die (R310): the next value of FWT_UPDATE_SEQ goes with it. -/
def State.commit (s : State) (f : Pipe → Pipe) (g : DieTbl → DieTbl) : State :=
  let s := { s with fwt := { s.fwt with pipes := s.fwt.pipes.map f, dies := s.fwt.dies.map g } }
  s.wr (Reg.FWT_UPDATE_SEQ 0) (s.rd (Reg.FWT_UPDATE_SEQ 0) + 1)

/-- Marks the commit as one that changed a generation (R352). -/
def State.genChanged (s : State) : State := { s with fwt := { s.fwt with genCommit := s.time.ticks } }

/-- The stash entry number that holds a key. -/
def stashFind (p : Pipe) (key : Nat) : Option Nat :=
  (List.range 16).find? fun i => ovrKind.used (entryAt p.stash i) && ovrKind.key (entryAt p.stash i) == key

/-- How an override insertion ended (R298). -/
inductive InsRes where
  | bucket (p : Pipe)
  | stashed (p : Pipe) (i : Nat)
  | full
  deriving DecidableEq, Repr

/-- OVR_INSERT on one pipeline's tables (R298–R300). -/
def insertOvr (p : Pipe) (e : Nat) : InsRes :=
  match stashFind p (ovrKind.key e) with
  | some i => .bucket { p with stash := Tbl.set p.stash 0 i e }
  | none =>
    match insertEntry ovrKind p.ovr e with
    | some t => .bucket { p with ovr := t }
    | none =>
      match (List.range 16).find? fun i => !ovrKind.used (entryAt p.stash i) with
      | some i => .stashed { p with stash := Tbl.set p.stash 0 i e } i
      | none => .full

/-- The tables an insertion leaves; unchanged when it is refused. -/
def insertOvrPipe (e : Nat) (p : Pipe) : Pipe :=
  match insertOvr p e with
  | .bucket q => q
  | .stashed q _ => q
  | .full => p

/-- Moves stash entry i into the buckets if an insertion without the stash steps succeeds (R301). -/
def retryStash (i : Nat) (p : Pipe) : Option Pipe :=
  (insertEntry ovrKind p.ovr (entryAt p.stash i)).map fun t => { p with ovr := t, stash := Tbl.del p.stash i }

/-- OVR_DELETE on one pipeline's tables: the tables after it, was it found, was a bucket way freed, the stash entry removed. -/
def deleteOvr (key : Nat) (p : Pipe) : Pipe × Bool × Option Nat :=
  match findKey ovrKind p.ovr key with
  | some i => ({ p with ovr := Tbl.del p.ovr i }, true, none)
  | none =>
    match stashFind p key with
    | some i => ({ p with stash := Tbl.del p.stash i }, false, some i)
    | none => (p, false, none)

/-- ovr(k) of R287: is it in the stash, its index there, the entry. -/
def ovrLookup (p : Pipe) (key : Nat) : Option (Bool × Nat × Nat) :=
  match findKey ovrKind p.ovr key with
  | some i => some (false, i, entryAt p.ovr i)
  | none => (stashFind p key).map fun i => (true, i, entryAt p.stash i)

/-- Sets HIT of an entry (R302). -/
def setHit (p : Pipe) (h : Bool × Nat × Nat) : Pipe :=
  let e := withBits 62 62 1 h.2.2
  if h.1 then { p with stash := Tbl.set p.stash 0 h.2.1 e } else { p with ovr := Tbl.set p.ovr 0 h.2.1 e }

def ovrKindOf (e : Nat) : Nat := bits 61 60 e
def ovrGen (e : Nat) : Nat := bits 59 52 e
def ovrTarget (e : Nat) : Nat := bits 51 42 e
/-- An override entry (R296). -/
def mkOvr (kind gen target key : Nat) : Nat := 2 ^ 63 + kind % 4 * 2 ^ 60 + gen % 256 * 2 ^ 52 + target % 1024 * 2 ^ 42 + key % 2 ^ 20

/-- COUNT and the members of a bundle word (R293). -/
def rowCount (w : Nat) : Nat := bits 127 124 w
def rowMembers (w : Nat) : List Nat := (List.range (rowCount w)).map fun k => bits (10 * k + 9) (10 * k) w
/-- A bundle word. -/
def mkRow (members : List Nat) : Nat :=
  members.length % 16 * 2 ^ 124 + (members.take 8).foldr (fun m a => a * 1024 + m % 1024) 0

/-- The bundle word of a leaf in a pipeline. -/
def Pipe.leafRow (p : Pipe) (leaf : Nat) : Nat := entryAt p.row leaf
def Pipe.gen (p : Pipe) (leaf ep : Nat) : Nat := entryAt p.epgen (256 * leaf + ep)

/-- The leaf whose row lists a logical port (R295). -/
def rowOfPort (p : Pipe) (lp : Nat) : Option Nat := (p.row.find? fun r => (rowMembers r.2).contains lp).map (·.1)

/-! ### Live members and spraying (R271–R275) -/

def State.link (s : State) (lp : Nat) : LinkSt := Tbl.getD s.links.link LinkSt.init lp
def State.setLink (s : State) (lp : Nat) (l : LinkSt) : State := { s with links := { s.links with link := Tbl.set s.links.link LinkSt.init lp l } }

/-- Is a logical port live for spraying (R271)? -/
def State.live (s : State) (lp : Nat) : Bool :=
  (s.link lp).st == .up && !s.flag (Reg.PT_PORT_CFG (lpTile lp) (lpPort lp)) Fld.PT_PORT_CFG_DRAIN

/-- May a packet toward an endpoint leave by this logical port? A live port that is no cascade port: a cascade port is never a member of a
leaf bundle (R26), and no packet from a leaf goes to one (R25). DEDUCED: a PORT override or a row that names one counts as naming no live
port. Safe. -/
def State.leafward (s : State) (lp : Nat) : Bool := s.live lp && s.role (lp2p lp) != 2

/-- The published occupancy of a logical port's queue of class c (R272). -/
def State.pubOcc (s : State) (lp c : Nat) : Nat := Tbl.getD s.sw.published 0 (64 * lpTile lp + 8 * lpPort lp + c)

/-- The member chosen for a packet and its index in the row (R273, R274); none when no member is live. -/
def State.sprayPick (s : State) (mode ptr : Nat) (p : Pkt) (members : List Nat) : Option (Nat × Nat) :=
  let live := (members.zipIdx).filter fun m => s.leafward m.1
  match live with
  | [] => none
  | _ =>
    let pickFrom := fun (l : List (Nat × Nat)) => ((l.find? fun m => decide (ptr ≤ m.2)).orElse fun _ => l.head?)
    if mode = 2 then
      let h := crc32c (beBytes 4 p.src ++ beBytes 4 p.dst ++ beBytes 4 p.msgId)
      live[h % live.length]?
    else if mode = 1 then pickFrom live
    else
      let m := (live.map fun x => s.pubOcc x.1 p.cls).foldl min (2 ^ 32)
      pickFrom (live.filter fun x => s.pubOcc x.1 p.cls == m)

/-- Sprays over a leaf's row with the pointer of a pipeline: the port chosen, and the tables with the pointer moved on. -/
def State.sprayPipe (s : State) (n mode : Nat) (p : Pkt) (leaf : Nat) : Option Nat × State :=
  let q := s.pipe n
  let ms := rowMembers (q.leafRow leaf)
  match s.sprayPick mode (Tbl.getD q.ptr 0 leaf) p ms with
  | some (lp, i) => (some lp, s.modPipe n fun q => { q with ptr := Tbl.set q.ptr 0 leaf ((i + 1) % max 1 ms.length) })
  | none => (none, s)

/-- The same with the pointer of a die's function-port lookup, under SPRAY_MODE 0b00 (R856). -/
def State.sprayDie (s : State) (d : Nat) (p : Pkt) (leaf : Nat) : Option Nat × State :=
  let ms := rowMembers ((s.pipe (8 * d)).leafRow leaf)
  match s.sprayPick 0 (Tbl.getD (s.dieTbl d).ptr 0 leaf) p ms with
  | some (lp, i) => (some lp, s.modDie d fun q => { q with ptr := Tbl.set q.ptr 0 leaf ((i + 1) % max 1 ms.length) })
  | none => (none, s)

/-! ### Lookup (R287–R291, R353, R857) -/

/-- compare(GEN, g) (R288). -/
def genPass (p : Pkt) (g : Nat) : Bool := (p.gen == g && g != 0) || (p.cls == 7 && (p.gen == 0 || p.gen == g))

/-- Where a destination lookup sends a packet. -/
inductive Route where
  | row (leaf : Nat)
  | port (lp : Nat)
  | flood
  | drop
  | none
  deriving DecidableEq, Repr

/-- The destination part of R287 and R290: the route, the generation it names, and the override found. -/
def destRoute (p : Pipe) (dst : Nat) : Route × Nat × Option (Bool × Nat × Nat) :=
  match ovrLookup p (feidKey dst) with
  | some h =>
    let e := h.2.2
    let r := match ovrKindOf e with
      | 0 => if h.1 then .flood else if rowCount (p.leafRow (ovrTarget e)) = 0 then .none else .row (ovrTarget e)
      | 1 => .port (ovrTarget e)
      | _ => .drop
    (r, ovrGen e, some h)
  | none =>
    let leaf := feidLeaf dst
    (if rowCount (p.leafRow leaf) = 0 then .none else .row leaf, p.gen leaf (feidEp dst), none)

/-- What a lookup decides: discard under a reason of R221 (with the FWT counters it names), or forward by a route. -/
inductive Decision where
  | discard (reason : Nat) (cnts : List Nat)
  | forward (r : Route) (cnt : Nat)
  deriving DecidableEq, Repr

/-- Is an endpoint on the sluice list (R353)? -/
def State.sluiced (s : State) (key : Nat) : Bool := s.fwt.sluice.contains key

/-- The decision of pipeline n on a packet with DST_SPINE = 0 that arrived on a leaf-facing port or not, and the pipeline's tables
with the HIT bits it sets. -/
def State.lookupDecide (s : State) (n : Nat) (leafFacing : Bool) (p : Pkt) : Decision × State :=
  let q := s.pipe n
  if s.badAddr p.dst then (.discard rUnroutable [], s) else
  let (r, gd, h) := destRoute q p.dst
  let s := match h with | some h => s.modPipe n fun q => setHit q h | none => s
  let cnt := if h.isSome then Cnt.FWT_OVR_HIT n else Cnt.FWT_ROW_HIT n
  match r with
  | .drop => (.discard rUnroutable [Cnt.FWT_OVR_DROP n], s)
  | .none => (.discard rUnroutable [], s)
  | _ =>
    let check := s.flag (Reg.FWT_CTRL 0) Fld.FWT_CTRL_SRC_CHECK && leafFacing && !pflag p fSrcSpine
    if check && s.badAddr p.src then (.discard rUnroutable [], s)
    else if !genPass p gd then (.discard rStale [Cnt.FWT_STALE_DST n], s)
    else
      let hs := if check then ovrLookup (s.pipe n) (feidKey p.src) else none
      let s := match hs with | some h => s.modPipe n fun q => setHit q h | none => s
      let gs := match hs with | some h => ovrGen h.2.2 | none => q.gen (feidLeaf p.src) (feidEp p.src)
      if check && !genPass p gs then (.discard rStale [Cnt.FWT_STALE_SRC n], s)
      else if decide (p.cls ≤ 6) && s.sluiced (feidKey p.src) then (.discard rStale [Cnt.FWT_STALE_SRC n], s)
      else if decide (p.cls ≤ 6) && s.sluiced (feidKey p.dst) then (.discard rStale [Cnt.FWT_STALE_DST n], s)
      else (.forward r cnt, s)

/-- Resolves a route to destination ports with the pipeline's pointers (R290, R291): the ports, counting a flood once. -/
def State.resolve (s : State) (n mode : Nat) (p : Pkt) (r : Route) : List Nat × State :=
  match r with
  | .row leaf => let (o, s) := s.sprayPipe n mode p leaf; (o.toList, s)
  | .port lp => (if s.leafward lp then [lp] else [], s)
  | .flood =>
    let leaves := ((s.pipe n).row.filter fun r => rowCount r.2 ≠ 0).map (·.1)
    let (l, s) := leaves.foldl (fun (acc : List Nat × State) leaf =>
      let (o, s) := acc.2.sprayPipe n mode p leaf
      (acc.1 ++ o.toList, s)) ([], s)
    (l, s.inc (Cnt.FWT_FLOOD n))
  | _ => ([], s)

/-! ### The function-port lookup and the replicator (R306–R308, R856) -/

/-- The logical ports that the function-port lookup of die d gives a packet (R856): the destination part of R287 and R290, counted in page 8d as R322
counts it. A packet that finds no live member or port is dropped, and so is one that R287 discards. -/
def State.fnRoute (s : State) (d : Nat) (p : Pkt) : List Nat × State :=
  let n := 8 * d
  if s.badAddr p.dst then ([], s) else
  let (r, _, h) := destRoute (s.pipe n) p.dst
  let s := match h with | some h => s.modPipe n fun q => setHit q h | none => s
  let counted := s.inc (if h.isSome then Cnt.FWT_OVR_HIT n else Cnt.FWT_ROW_HIT n)
  let lost := fun (s : State) => (([] : List Nat), s.inc (Cnt.FWT_FUNC_NO_PATH n))
  match r with
  | .row leaf => (match counted.sprayDie d p leaf with | (some lp, s) => ([lp], s) | (none, s) => lost s)
  | .port lp => if s.leafward lp then ([lp], counted) else lost counted
  | .flood =>
    let leaves := ((s.pipe n).row.filter fun r => rowCount r.2 ≠ 0).map (·.1)
    leaves.foldl (fun (acc : List Nat × State) leaf => let (o, s) := acc.2.sprayDie d p leaf; (acc.1 ++ o.toList, s))
      ([], counted.inc (Cnt.FWT_FLOOD n))
  | .drop => ([], s.inc (Cnt.FWT_OVR_DROP n))
  | .none => ([], s)

/-- One packet of die d's functions enters the switch for its destinations: by the function port of d where they all lie on one die, else as one copy
by the port of each die, which stays there (R247). -/
def State.sendCopies (s : State) (d : Nat) (p : Pkt) (dests : List Dest) (group : Option Nat) : State :=
  let on := fun (k : Nat) => dests.filter fun | .port lp _ _ => lpDie lp == k | .fn x => x == k
  if dests.isEmpty then s
  else if (on 0).isEmpty || (on 1).isEmpty then s.enterSwitch d p dests group none
  else (s.enterSwitch 0 p (on 0) group none).enterSwitch 1 p (on 1) group none

/-- A function of die d sends one packet to an endpoint (R856), which floods where its route does. -/
def State.fnSend (s : State) (d : Nat) (p : Pkt) : State :=
  match s.fnRoute d p with
  | ([], s) => s
  | (ports, s) => let (p, s) := s.withSeq p; s.sendCopies d p (ports.map fun lp => .port lp p.dst p.seq) none

/-- The group entry of a group in a die's table. -/
def State.group (s : State) (d g : Nat) : Option Nat :=
  let t := (s.dieTbl d).grp
  (findKey grpKind t (g % 2 ^ 20)).map (entryAt t)

def grpKindOf (e : Nat) : Nat := bits 126 125 e
def grpGen (e : Nat) : Nat := bits 119 112 e
def grpBase (e : Nat) : Nat := bits 91 74 e
def grpCount (e : Nat) : Nat := bits 73 56 e
def grpDesc (e : Nat) : Nat := bits 55 44 e
/-- A group entry (R303). -/
def mkGrp (kind gen g base count desc : Nat) : Nat :=
  2 ^ 127 + kind % 4 * 2 ^ 125 + gen % 256 * 2 ^ 112 + g % 2 ^ 20 * 2 ^ 92 + base % 2 ^ 18 * 2 ^ 74 + count % 2 ^ 18 * 2 ^ 56 + desc % 4096 * 2 ^ 44

/-- The generation of a source endpoint as a pipeline's tables give it (R202, R288). -/
def Pipe.srcGen (q : Pipe) (src : Nat) : Nat :=
  match ovrLookup q (feidKey src) with | some h => ovrGen h.2.2 | none => q.gen (feidLeaf src) (feidEp src)

/-- Is a request's generation stale against its partition's (R202)? The packet at OFFSET 0 names the tenant, unless it is POISON; any other packet is
judged by it once it has come. -/
def State.peatStale (s : State) (p : Pkt) : Bool :=
  let first := if p.offset = 0 then (if pflag p fPoison then none else some p.payload) else
    (s.peat.reasm.find? fun q => q.src == p.src && q.msgId == p.msgId && q.gen == p.gen).bind fun q =>
      (q.segs.find? fun g => g.offset == 0 && !g.poison).map (·.data)
  match first with
  | some b => if 6 ≤ b.length then (match s.partOf (beAt 4 2 b) with | some x => s.partGen x != p.gen | none => false) else false
  | none => false
/-- Is a packet addressed to a function stale (R202): its source on the sluice list (R353), or its GEN not that of the group, the source or the
partition it names? `n` is the pipeline of its port. -/
def State.fnStale (s : State) (n : Nat) (p : Pkt) : Bool :=
  (decide (p.cls ≤ 6) && s.sluiced (feidKey p.src)) ||
  match p.typ with
  | 0x10 | 0x13 => (match s.group 0 (p.msgId / 4096) with | some e => grpKindOf e == 0 && !genPass p (grpGen e) | none => false)
  | 0x28 => !genPass p ((s.pipe n).srcGen p.src)
  | 0x20 => s.peatStale p
  | _ => false

/-- The FEIDs of a group entry's members in member-index order (R305). -/
def State.members (s : State) (d e : Nat) : List Nat :=
  (List.range (grpCount e)).map fun i => Tbl.getD (s.dieTbl d).member 0 (grpBase e + i)

/-- Sends a batch of the replicator (R306): each copy carries its member's FEID, and the next SEQ of its stream. -/
def State.sendBatch (s : State) (d g : Nat) (p : Pkt) (batch : List (Nat × Nat)) : State :=
  let (ds, s) := batch.foldl (fun (acc : List Dest × State) x =>
    let (q, s) := acc.2.withSeq { p with dst := x.2 }
    (acc.1 ++ [.port x.1 x.2 q.seq], s)) ([], s)
  s.sendCopies d p ds (some g)

/-- The replicator of die d sends a packet of group g to the members listed, in member-index order (R306): copies gather in a batch until the next
one's port is already in it, or it holds 64. The fence list is checked as the output tile makes each copy (R249, R307). -/
def State.replicateTo (s : State) (d g : Nat) (p : Pkt) (ms : List Nat) : State :=
  let (b, s) := ms.foldl (fun (acc : List (Nat × Nat) × State) m =>
    let (ports, s) := acc.2.fnRoute d { p with dst := m }
    ports.foldl (fun (acc : List (Nat × Nat) × State) lp =>
      if acc.1.any (·.1 == lp) || decide (64 ≤ acc.1.length) then ([(lp, m)], acc.2.sendBatch d g p acc.1)
      else (acc.1 ++ [(lp, m)], acc.2)) (acc.1, s)) ([], s)
  s.sendBatch d g p b

/-- Replication of a function's packet to the members of a group for which `keep` holds (R306–R308). When the group is absent or of another generation no
copy is made: STALE_GRP counts the packet, and it goes back to the function as stale (notice 0x0308: die, group, generation). -/
def State.replicate (s : State) (d g gen : Nat) (p : Pkt) (keep : Nat → Bool) : State :=
  match s.group d g with
  | some e =>
    if grpGen e = gen then s.replicateTo d g p ((s.members d e).filter keep)
    else (s.inc (Cnt.FWT_STALE_GRP (8 * d))).emit (.notice 0x0308 [d, g, gen])
  | none => (s.inc (Cnt.FWT_STALE_GRP (8 * d))).emit (.notice 0x0308 [d, g, gen])

end Sys2Proof.Machine
end

