-- ==== Sys2Proof/Machine/Gates.lean ====
section
/-! DEFINITION. Gate lists, dark slots and causeway maps (chapters 8 and 9): what is open and what is dark at a time, and the change
at a boundary. Times at slot boundaries are in hundredths of a nanosecond, in which a tick is 128 (R11, R379). -/
namespace Sys2Proof.Machine

/-- Device time now, in hundredths of a nanosecond, rounded down. -/
def State.nowC (s : State) : Nat := s.time.now * 100 / 2 ^ 32
/-- The first device time, in units of 2^-32 ns, at or after a time in hundredths of a nanosecond. -/
def cToDev (c : Nat) : Nat := ceilDiv (c * 2 ^ 32) 100
/-- A short-form time in hundredths of a nanosecond. -/
def shortToC (x : Nat) : Nat := fromShort x / 2 ^ 32 * 100
/-- A time in hundredths of a nanosecond, in short form. -/
def cToShort (c : Nat) : Nat := shortForm (c / 100 * 2 ^ 32)

def State.timeState (s : State) : Nat := s.fld Reg.TIME_STATUS Fld.TIME_STATUS_STATE
/-- Is network time valid for scheduled traffic: LOCKED or HOLDOVER (R386)? -/
def State.timeLocked (s : State) : Bool := s.timeState == 2 || s.timeState == 3

/-! ### Ports and banks -/

def State.portTide (s : State) (p : Nat) : PortTide := Tbl.getD s.tide.port PortTide.init p
def State.setPortTide (s : State) (p : Nat) (t : PortTide) : State := { s with tide := { s.tide with port := Tbl.set s.tide.port PortTide.init p t } }

/-- The address of TIDE_PORT_STATUS of a port. -/
def tideSt (p : Nat) : Nat := Reg.TIDE_PORT_STATUS (p / 8) (p % 8)
def State.tideState (s : State) (p : Nat) : Nat := s.fld (tideSt p) Fld.TIDE_PORT_STATUS_STATE
/-- Moves a port to a tide state; a change sets STATE_CHANGE. -/
def State.setTideState (s : State) (p st : Nat) : State :=
  if s.tideState p = st then s
  else (s.setFld (tideSt p) Fld.TIDE_PORT_STATUS_STATE st).irq (pg 8 (p / 8)) 4

def PortTide.bank (t : PortTide) (b : Nat) : TideBank := if b = 0 then t.bank0 else t.bank1
def PortTide.setBank (t : PortTide) (b : Nat) (v : TideBank) : PortTide := if b = 0 then { t with bank0 := v } else { t with bank1 := v }
def State.activeIdx (s : State) (p : Nat) : Nat := s.fld (tideSt p) Fld.TIDE_PORT_STATUS_ACTIVE_BANK
def State.activeBank (s : State) (p : Nat) : TideBank := (s.portTide p).bank (s.activeIdx p)
def State.shadowBank (s : State) (p : Nat) : TideBank := (s.portTide p).bank (1 - s.activeIdx p)

def entGates (e : Nat) : Nat := bits 63 56 e
def entMap (e : Nat) : Nat := bits 54 48 e
def entDur (e : Nat) : Nat := bits 23 0 e

/-- The first cycle start of a bank at or after time t (R379, R387, R388). -/
def TideBank.cycleFrom (b : TideBank) (t : Nat) : Nat :=
  let b0 := b.base * 100
  let c := max 1 b.cycle * 128
  if t ≤ b0 then b0 else b0 + ceilDiv (t - b0) c * c

/-- The entry that covers an offset into the cycle: its number, its word, and the offset of its end. -/
def entryCovering : List Nat → Nat → Nat → Nat → Option (Nat × Nat × Nat)
  | [], _, _, _ => none
  | e :: es, i, start, off =>
    let fin := start + entDur e * 128
    if off < fin then some (i, e, fin) else entryCovering es (i + 1) fin off

/-- The entry word in force at time t and the time it ends. -/
def TideBank.slotAt (b : TideBank) (t : Nat) : Option (Nat × Nat) :=
  let c := max 1 b.cycle * 128
  let off := (t - b.base * 100) % c
  (entryCovering b.entries 0 0 off).map fun x => (x.2.1, t - off + x.2.2)

/-- The instant a pending takeover of a port takes place (R388). -/
def State.takeoverAt (s : State) (p : Nat) : Option Nat :=
  if s.flag (tideSt p) Fld.TIDE_PORT_STATUS_TAKEOVER_PENDING then
    some ((s.shadowBank p).cycleFrom (shortToC (s.rdWide (Reg.TIDE_TAKEOVER (p / 8) (p % 8)) 2)))
  else none

/-- The entry word that governs a RUNNING port at time t, looking across a pending takeover (R381), and the time it ends. -/
def State.gateAt (s : State) (p t : Nat) : Option (Nat × Nat) :=
  match s.takeoverAt p with
  | some k => if k ≤ t then (s.shadowBank p).slotAt t else ((s.activeBank p).slotAt t).map fun x => (x.1, min x.2 k)
  | none => (s.activeBank p).slotAt t

/-! ### Causeway maps (R439–R448) -/

def State.eng (s : State) (n : Nat) : EngSt := Tbl.getD s.optics.eng EngSt.init n
def State.setEng (s : State) (n : Nat) (e : EngSt) : State := { s with optics := { s.optics with eng := Tbl.set s.optics.eng EngSt.init n e } }
def EngSt.bank (e : EngSt) (b : Nat) : CwBank := if b = 0 then e.bank0 else e.bank1
def EngSt.setBank (e : EngSt) (b : Nat) (v : CwBank) : EngSt := if b = 0 then { e with bank0 := v } else { e with bank1 := v }
def State.cwActive (s : State) (n : Nat) : CwBank := (s.eng n).bank (s.fld (Reg.CW_STATUS n) Fld.CW_STATUS_ACTIVE_BANK)
def State.cwShadow (s : State) (n : Nat) : CwBank := (s.eng n).bank (1 - s.fld (Reg.CW_STATUS n) Fld.CW_STATUS_ACTIVE_BANK)

/-- The causeways of a map as pairs of local ports (R441). -/
def mapPairs (m : Nat) : List (Nat × Nat) :=
  (List.range 32).filterMap fun l => if bit (8 * l + 5) m then some (l, bits (8 * l + 4) (8 * l) m) else none
/-- The local ports a map occupies (R441). -/
def mapPorts (m : Nat) : List Nat := (List.range 32).filter fun l => (mapPairs m).any fun x => x.1 == l || x.2 == l
/-- The crosspoint elements of a causeway, as 128 i + 16 j + k (R440). -/
def pairElements (x : Nat × Nat) : List Nat :=
  (List.range 4).map fun r => 128 * (x.1 / 4) + 16 * (x.2 / 4) + 4 * (x.1 % 4) + r

/-- The map applied in the current slot of an engine, if any. -/
def State.appliedMap (s : State) (n : Nat) : Nat :=
  if s.flag (Reg.CW_STATUS n) Fld.CW_STATUS_PARKED then 0
  else Tbl.getD (s.cwActive n).maps 0 (s.fld (Reg.CW_STATUS n) Fld.CW_STATUS_MAP)

/-- Is a port occupied now, by the slot's map or by a standing causeway (CW_OCCUPIED)? -/
def State.occupied (s : State) (p : Nat) : Bool :=
  (mapPorts (s.appliedMap (p / 32))).contains (p % 32) || (mapPorts (s.eng (p / 32)).standing).contains (p % 32)

/-- Is a port dark (R384, R458)? -/
def State.dark (s : State) (p : Nat) : Bool := s.occupied p

/-- The causeway takeover time of an engine, in hundredths of a nanosecond, while one is pending. -/
def State.cwTakeover (s : State) (n : Nat) : Option Nat :=
  if s.flag (Reg.CW_STATUS n) Fld.CW_STATUS_TAKEOVER_PENDING then some (shortToC (s.rdWide (Reg.CW_TAKEOVER n) 2)) else none

/-- Does a pending tide takeover of port 32n carry the same time as the engine's own (R464)? -/
def State.sameTakeover (s : State) (n : Nat) : Bool :=
  let p := 32 * n
  s.flag (tideSt p) Fld.TIDE_PORT_STATUS_TAKEOVER_PENDING && s.rdWide (Reg.TIDE_TAKEOVER (p / 8) (p % 8)) 2 == s.rdWide (Reg.CW_TAKEOVER n) 2

/-- The instant the shadow bank of an engine is to become active (R464): with a tide takeover of the same time, at a cycle start of the running list of
port 32n (across its own takeover), or at TAKEOVER. -/
def State.cwSwapAt (s : State) (n : Nat) : Option Nat :=
  (s.cwTakeover n).map fun c =>
    let p := 32 * n
    let k := (s.activeBank p).cycleFrom c
    if s.sameTakeover n then (s.takeoverAt p).getD c
    else if s.tideState p = 2 then
      match s.takeoverAt p with
      | some j => if j ≤ k then (s.shadowBank p).cycleFrom (max c j) else k
      | none => k
    else c

/-- Does the map that engine n's list names for an entry word that begins to govern at time t occupy a local port (R383, R445)? -/
def State.mapOccupies (s : State) (n word l t : Nat) : Bool :=
  let b := match s.cwSwapAt n with | some k => if k ≤ t then s.cwShadow n else s.cwActive n | none => s.cwActive n
  (mapPorts (Tbl.getD b.maps 0 (entMap word))).contains l

/-- Is port p free of dark slots from t to e, by the list of its engine's first port (R381, R445)? -/
def State.lightThrough (s : State) (p : Nat) : Nat → Nat → Nat → Bool
  | 0, _, _ => false
  | fuel + 1, t, e =>
    let q := p / 32 * 32
    if s.tideState q = 2 then
      match s.gateAt q t with
      | some (w, fin) => !s.mapOccupies (p / 32) w (p % 32) t && (decide (e ≤ fin) || State.lightThrough s p fuel fin e)
      | none => true
    else true

/-- Does class c's gate stay open on port p from t to e (R381)? -/
def State.gateThrough (s : State) (p c : Nat) : Nat → Nat → Nat → Bool
  | 0, _, _ => false
  | fuel + 1, t, e =>
    match s.gateAt p t with
    | some (w, fin) => bit c (entGates w) && (decide (e ≤ fin) || State.gateThrough s p c fuel fin e)
    | none => false

/-- GUARD in hundredths of a nanosecond (R382). -/
def State.guardC (s : State) (p : Nat) : Nat := 100 * max 2 (s.fld (Reg.TIDE_CTRL (p / 8)) Fld.TIDE_CTRL_GUARD_NS)

/-! ### Reeds and rates (R405–R409) -/

/-- The address of a reed's register. -/
def reedReg (p r : Nat) : Nat := Reg.OE_REED (p / 32) (p % 32) r
/-- The reeds of a logical port (R39): all four, or two of a half. -/
def State.reedsOf (s : State) (lp : Nat) : List Nat :=
  if s.isSplit (lp2p lp) then [2 * (lp % 2), 2 * (lp % 2) + 1] else [0, 1, 2, 3]
/-- The live reeds of a logical port. -/
def State.liveReeds (s : State) (lp : Nat) : List Nat := (s.reedsOf lp).filter fun r => s.flag (reedReg (lp2p lp) r) Fld.OE_REED_LIVE
/-- The stamp reed of a logical port: the lowest-numbered live reed of the port, or of the half (R136). -/
def State.stampReed (s : State) (lp : Nat) : Option Nat := (s.liveReeds lp).head?
/-- A port's rate in units of 100 Gb/s (R407). -/
def State.rate (s : State) (lp : Nat) : Nat := (s.liveReeds lp).length
/-- How long a packet's frame takes on the line, in hundredths of a nanosecond, with link header and control blocks (24 bytes). -/
def State.lineTime (s : State) (lp : Nat) (p : Pkt) : Nat := ceilDiv ((pktLen p + 24) * 8) (max 1 (s.rate lp))

/-- May a packet of class c start on a logical port now without breaking R381 and R384: not dark, not within GUARD after a dark slot,
its gate and the light open until its end plus GUARD? -/
def State.gateOpen (s : State) (lp : Nat) (p : Pkt) : Bool :=
  let q := lp2p lp
  let t := s.nowC
  let e := t + s.lineTime lp p + s.guardC q
  !s.dark q && decide (Tbl.getD s.tide.darkEnd 0 q + s.guardC q ≤ t || Tbl.getD s.tide.darkEnd 0 q = 0) && s.lightThrough q 200 t e &&
  (s.tideState q != 2 || s.gateThrough q p.cls 200 t e)

/-! ### Parking and applying a map (R443–R456) -/

/-- Dark slots begin now on the local ports given that are not dark (R384). -/
def State.beginDark (s : State) (n : Nat) (ports : List Nat) : State :=
  { s with tide := { s.tide with darkFrom := ports.foldl (fun d l =>
      if (Tbl.find d (32 * n + l)).isSome then d else Tbl.put d (32 * n + l) s.time.ticks) s.tide.darkFrom } }

/-- The REPLAY_TIMEOUT clocks of a link stood still from tick `from_` until now (R333, R334, R384). -/
def State.timersResume (s : State) (lp from_ : Nat) : State :=
  let late := fun (t : Nat) => if t ≤ from_ then t + (s.time.ticks - from_) else s.time.ticks
  match Tbl.find s.links.link lp with
  | none => s
  | some l => s.setLink lp { l with replay := l.replay.map fun r => { r with sentAt := late r.sentAt }, nakFor := l.nakFor.map fun x => (x.1, late x.2) }

/-- Dark slots end now, at time t, on the local ports given: their clocks run on (R384). -/
def State.endDark (s : State) (n t : Nat) (ports : List Nat) : State :=
  let s := ports.foldl (fun s l =>
    let p := 32 * n + l
    match Tbl.find s.tide.darkFrom p with
    | some k => (s.timersResume (2 * p) k).timersResume (2 * p + 1) k
    | none => s) s
  { s with tide := { s.tide with
      darkEnd := ports.foldl (fun d l => Tbl.set d 0 (32 * n + l) t) s.tide.darkEnd
      darkFrom := ports.foldl (fun d l => Tbl.del d (32 * n + l)) s.tide.darkFrom } }

/-- An engine's crosspoint has parked since LOST was entered, or its list has resumed without that (R129, R132). -/
def State.parkDone (s : State) (n : Nat) : State := { s with optics := { s.optics with parkDue := s.optics.parkDue.filter (· != n) } }

/-- Parks an engine's crosspoint at time t; `cut` when the park falls inside a slot (R455, R456). -/
def State.park (s : State) (n t : Nat) (cut : Bool) : State :=
  if s.flag (Reg.CW_STATUS n) Fld.CW_STATUS_PARKED then s
  else
    let s := s.endDark n t (mapPorts (s.appliedMap n))
    let s := (s.setFld (Reg.CW_STATUS n) Fld.CW_STATUS_PARKED 1).setFld (Reg.CW_STATUS n) Fld.CW_STATUS_MAP 0x7F
    let s := (s.inc (Cnt.CW_PARKS n)).irq (pg 10 n) 3
    let s := (s.setEng n { s.eng n with suppressed := [] }).parkDone n
    if cut then s.inc (Cnt.CW_CUT_SLOTS n) else s

/-- Is a causeway of engine n suppressed: a link of an end not in UP (R446), or a faulty element? -/
def State.suppresses (s : State) (n : Nat) (x : Nat × Nat) : Bool :=
  let up := fun l => (s.link (2 * (32 * n + l))).st == .up && (!s.isSplit (32 * n + l) || (s.link (2 * (32 * n + l) + 1)).st == .up)
  (s.flag (Reg.CW_CTRL n) Fld.CW_CTRL_SUPPRESS_EN && !(up x.1 && up x.2)) || (pairElements x).any fun e => (s.eng n).faulty.contains e

/-- Applies map m at a slot boundary at time t (R443, R446, R447): 0x7F parks, an undefined map parks and is counted, a map occupies
its ports, and a causeway that may not run is suppressed. -/
def State.applyMap (s : State) (n m t : Nat) : State :=
  if m = 0x7F then s.park n t false
  else match Tbl.find (s.cwActive n).maps m with
    | none => (((s.inc (Cnt.CW_MAP_UNDEFINED n)).logErr (pg 10 n) 0x0101 0 (locOeAll n)).irq (pg 10 n) 6).park n t false
    | some mp =>
      let before := mapPorts (s.appliedMap n)
      let ports := mapPorts mp
      let sup := ((mapPairs mp).filter fun x => s.suppresses n x).map (·.1)
      let wasParked := s.flag (Reg.CW_STATUS n) Fld.CW_STATUS_PARKED
      let s := (s.endDark n t (before.filter fun l => !ports.contains l)).beginDark n ports
      let s := (s.setFld (Reg.CW_STATUS n) Fld.CW_STATUS_PARKED 0).setFld (Reg.CW_STATUS n) Fld.CW_STATUS_MAP m
      let s := s.inc (Cnt.CW_SLOTS n)
      let s := if wasParked then s.irq (pg 10 n) 3 else s
      let s := s.setEng n { s.eng n with suppressed := sup }
      let s := if sup.isEmpty then s else (s.addCnt (Cnt.CW_SUPPRESSED n) sup.length).irq (pg 10 n) 5
      ports.foldl (fun s l => s.inc (Cnt.TIDE_DARK_SLOTS ((32 * n + l) / 8) ((32 * n + l) % 8))) s

/-- Element e of engine n fails to switch: logged, and the causeways that use it are suppressed until the next CW_LOAD (CW pages). -/
def State.elementFault (s : State) (n e : Nat) : State :=
  let g := s.eng n
  let s := s.setEng n { g with faulty := if g.faulty.contains e then g.faulty else g.faulty ++ [e] }
  (s.logErr (pg 10 n) 0x0100 1 (locOeAll n)).irq (pg 10 n) 7

/-- Engine n's shadow bank becomes active (R464). -/
def State.cwSwap (s : State) (n : Nat) : State :=
  let a := Reg.CW_STATUS n
  let k := 1 - s.fld a Fld.CW_STATUS_ACTIVE_BANK
  let s := (s.setFld a Fld.CW_STATUS_ACTIVE_BANK k).setFld a Fld.CW_STATUS_TAKEOVER_PENDING 0
  let s := (s.setFld a Fld.CW_STATUS_GEN ((s.eng n).bank k).gen).setEng n { s.eng n with shadowArmed := false }
  let s := s.setFlag a Fld.CW_STATUS_SHADOW_VALID (!((s.eng n).bank (1 - k)).maps.isEmpty)
  s.irq (pg 10 n) 2

/-! ### List boundaries (R379, R383, R386–R392) -/

/-- The offset of the end of entry i in its cycle, in hundredths of a nanosecond. -/
def entryEnd (es : List Nat) (i : Nat) : Nat := 128 * ((es.take (i + 1)).map entDur).foldl (· + ·) 0

/-- Stores the current cycle start of a port. -/
def State.setCycle (s : State) (p c : Nat) : State :=
  (s.wrWide (Reg.TIDE_CYCLE_START (p / 8) (p % 8)) (cToShort c) 2).setPortTide p { s.portTide p with start := c }

/-- For the first port of an engine: applies the map of the current entry, first swapping the causeway banks when `swap` holds. -/
def State.engineSlot (s : State) (p t : Nat) (swap : Bool) : State :=
  if p % 32 = 0 then
    let n := p / 32
    let s := if swap && (s.cwTakeover n).isSome then s.cwSwap n else s
    if s.tideState p = 2 then
      let e := s.fld (tideSt p) Fld.TIDE_PORT_STATUS_ENTRY
      (s.parkDone n).applyMap n (entMap ((s.activeBank p).entries.getD e 0)) t
    else s.park n t false
  else s

/-- The port starts cycle t of its active bank: RUNNING from entry 0, CYCLES counted (R403). -/
def State.startCycle (s : State) (p t : Nat) : State :=
  let s := (s.setTideState p 2).setFld (tideSt p) Fld.TIDE_PORT_STATUS_ENTRY 0
  (s.setCycle p t).inc (Cnt.TIDE_CYCLES (p / 8) (p % 8))

/-- The time of TIME_RESUME_TIME while a resumption is pending, else 0. -/
def State.resumeC (s : State) : Nat := if s.time.resuming then shortToC (s.rdWide Reg.TIME_RESUME_TIME 2) else 0

/-- A bank of port p has become active at time t, a cycle start of its own: the port runs if time and LIST_EN allow, else waits for the
cycle start that R132 names (R386, R387); HELD stays HELD (R390). -/
def State.bankActive (s : State) (p t : Nat) : State :=
  if s.tideState p = 3 then s
  else if !s.flag (Reg.TIDE_PORT_CFG (p / 8) (p % 8)) Fld.TIDE_PORT_CFG_LIST_EN then s.setTideState p 0
  else if s.timeLocked && decide (s.resumeC ≤ t) then s.startCycle p t
  else (s.setTideState p 1).setCycle p ((s.activeBank p).cycleFrom (max (t + 1) s.resumeC))

/-- A takeover of port p at time t (R388). -/
def State.takeover (s : State) (p t : Nat) : State :=
  let a := tideSt p
  let same := match s.cwTakeover (p / 32) with
    | some c => c == shortToC (s.rdWide (Reg.TIDE_TAKEOVER (p / 8) (p % 8)) 2)
    | none => false
  let running := s.tideState p == 2
  let k := 1 - s.activeIdx p
  let s := (s.setFld a Fld.TIDE_PORT_STATUS_ACTIVE_BANK k).setFld a Fld.TIDE_PORT_STATUS_TAKEOVER_PENDING 0
  let s := s.setFlag a Fld.TIDE_PORT_STATUS_SHADOW_VALID ((s.portTide p).bank (1 - k)).valid
  let s := s.setFld a Fld.TIDE_PORT_STATUS_GEN ((s.portTide p).bank k).gen
  let s := s.setPortTide p { s.portTide p with hasActive := true, stop := none }
  let s := (s.inc (Cnt.TIDE_TAKEOVERS (p / 8) (p % 8))).irq (pg 8 (p / 8)) 2
  let s := s.bankActive p t
  let due := match s.cwTakeover (p / 32) with | some c => running && decide (c ≤ t) | none => false
  s.engineSlot p t (same || due)

/-- The active bank of port p ends: the port is IDLE and, for the first port of an engine, the crosspoint parks (R383, R386). -/
def State.listEnds (s : State) (p t : Nat) (cut : Bool) : State :=
  let s := (s.setTideState p 0).setPortTide p { s.portTide p with hasActive := false, stop := none }
  if p % 32 = 0 then s.park (p / 32) t cut else s

/-- A boundary of port p's own list at time t: the next entry, or the next cycle, at which a TIDE_STOP whose time has come ends the
list (R379, R400). -/
def State.ownBoundary (s : State) (p t : Nat) : State :=
  let b := s.activeBank p
  let e := s.fld (tideSt p) Fld.TIDE_PORT_STATUS_ENTRY
  if e + 1 < b.entries.length then
    (s.setFld (tideSt p) Fld.TIDE_PORT_STATUS_ENTRY (e + 1)).engineSlot p t false
  else
    let stops := match (s.portTide p).stop with | some x => decide (x * 100 ≤ t) | none => false
    if stops then s.listEnds p t false
    else
      let due := match s.cwTakeover (p / 32) with | some c => decide (c ≤ t) | none => false
      (s.startCycle p t).engineSlot p t due

/-- The next boundary of port p: its own list's, the start it waits for, its takeover, the end of its list by a TIDE_STOP, or, while HELD, the end of
the held slot at which the crosspoint parks; and what happens there. -/
inductive Boundary where
  | take
  | own
  | start
  | stop
  | heldPark
  deriving DecidableEq, Repr

/-- The earlier of two boundaries; of two at one time the first (R402). -/
def earlier (a b : Option (Nat × Boundary)) : Option (Nat × Boundary) :=
  match a, b with
  | some x, some y => if x.1 ≤ y.1 then some x else some y
  | some x, none => some x
  | none, y => y

def State.nextBoundary (s : State) (p : Nat) : Option (Nat × Boundary) :=
  let st := s.tideState p
  let t := s.portTide p
  let own : Option (Nat × Boundary) :=
    if st = 2 then some (t.start + entryEnd (s.activeBank p).entries (s.fld (tideSt p) Fld.TIDE_PORT_STATUS_ENTRY), .own)
    else
      let start : Option (Nat × Boundary) := if st = 1 ∧ s.timeLocked then some (t.start, .start) else none
      if (st = 3 ∨ st = 1) ∧ p % 32 = 0 ∧ !s.flag (Reg.CW_STATUS (p / 32)) Fld.CW_STATUS_PARKED then
        match (s.activeBank p).slotAt s.nowC, start with
        | some x, some (b, w) => if x.2 < b then some (x.2, .heldPark) else some (b, w)
        | some x, none => some (x.2, .heldPark)
        | none, o => o
      else start
  let stop : Option (Nat × Boundary) := if st = 2 ∨ !t.hasActive then none else t.stop.map fun x => ((s.activeBank p).cycleFrom (x * 100), .stop)
  earlier ((s.takeoverAt p).map fun k => (k, .take)) (earlier stop own)

/-! ### Entry to LOST and to LOCKED (R129, R132, R386, R387) -/

/-- Time has left LOCKED and HOLDOVER: WAITING and RUNNING ports are HELD, pending launches go to their queues as unscheduled, and every crosspoint
that is not parked has to park (R129). -/
def State.tideLost (s : State) : State :=
  let ps := s.tide.port.map (·.1)
  let s := { s with optics := { s.optics with parkDue := (List.range 16).filter fun n => !s.flag (Reg.CW_STATUS n) Fld.CW_STATUS_PARKED } }
  let s := ps.foldl (fun s p => if s.tideState p = 1 ∨ s.tideState p = 2 then s.setTideState p 3 else s) s
  { s with tide := { s.tide with port := s.tide.port.map fun x => (x.1, { x.2 with launches := [] }) } }

/-- Time has entered LOCKED: HELD ports wait for the cycle start that R132 names. -/
def State.tideLocked (s : State) : State :=
  (s.tide.port.map (·.1)).foldl (fun s p =>
    if s.tideState p = 3 ∨ s.tideState p = 1 then
      (s.setTideState p 1).setCycle p ((s.activeBank p).cycleFrom (max s.nowC s.resumeC))
    else s) s

/-! ### Frames of the link layer (R323–R327, R433) -/

/-- Does the device ignore all light on a port: occupied, or within GUARD after (R448)? -/
def State.ignoresLight (s : State) (p : Nat) : Bool :=
  let e := Tbl.getD s.tide.darkEnd 0 p
  s.occupied p || (e != 0 && decide (s.nowC < e + s.guardC p))

/-- Is a port the far end of a calibration loop whose window is open, so that it sends no light but its burst (R161)? -/
def State.calSilent (s : State) (p : Nat) : Bool :=
  match Tbl.find s.time.calFar p with
  | some c => decide (c.w ≤ s.time.now) && decide (s.time.now < c.w + 20000 * 2 ^ 32)
  | none => false

/-- May a logical port send for the next n hundredths of a nanosecond: is its port not dark, not within GUARD after a dark slot, not silent, and does
no dark slot begin before that (R161, R384)? -/
def State.lightFor (s : State) (lp n : Nat) : Bool :=
  let p := lp2p lp
  !s.ignoresLight p && !s.calSilent p && s.lightThrough p 200 s.nowC (s.nowC + n)

/-- May a CONTROL frame leave on a logical port now (R372, R384)? Header, body and control blocks take 72 bytes (R323). -/
def State.lineFree (s : State) (lp : Nat) : Bool := s.lightFor lp (ceilDiv (72 * 8) (max 1 (s.rate lp)))

/-- Would a frame that ends in n hundredths of a nanosecond end before every pending launch time less GUARD (R394)? -/
def State.launchAllows (s : State) (lp n : Nat) : Bool :=
  let q := lp2p lp
  let t := s.portTide q
  let acts := s.flag (Reg.TIDE_PORT_CFG (q / 8) (q % 8)) Fld.TIDE_PORT_CFG_TC6_MODE && s.timeLocked && (s.tideState q == 0 || s.tideState q == 1)
  !acts || t.launches.all fun x => decide (s.nowC + n + s.guardC q ≤ x.2.t)

/-- The 8 bytes of a link header (R324), with its LHCRC. -/
def linkHeader (ftype lseq ackSeq : Nat) (ackValid : Bool) : List Byte :=
  let b := beBytes 1 (16 * ftype) ++ beBytes 1 (128 * b2n ackValid) ++ beBytes 2 lseq ++ beBytes 2 ackSeq
  b ++ beBytes 2 (lhcrc b)

/-- The fields of a link header: FTYPE, ACK_VALID, LSEQ, ACK_SEQ; is it good: its LHCRC right and its FTYPE DATA or CONTROL (R325)? -/
def hdrType (h : List Byte) : Nat := beAt 0 1 h / 16
def hdrAckValid (h : List Byte) : Bool := bit 7 (beAt 1 1 h)
def hdrSeq (h : List Byte) : Nat := beAt 2 2 h
def hdrAck (h : List Byte) : Nat := beAt 4 2 h
def hdrGood (h : List Byte) : Bool := beAt 6 2 h == lhcrc (slice 0 6 h) && (hdrType h == 1 || hdrType h == 2)

/-- The header the device gives a frame. Each carries the next LSEQ it expects (R333): DESIGN CHOICE, the spec lets it choose the frames whose ACK_SEQ is
valid. Unsafe. -/
def State.ownHeader (s : State) (lp ftype lseq : Nat) : List Byte := linkHeader ftype lseq (s.link lp).rxSeq true

/-- The 48 bytes of a CONTROL body (R326, R433): KIND, three reserved bytes, the fields, zeros. -/
def ctlBody (kind : Nat) (fields : List Byte) : List Byte := slice 0 48 (beBytes 1 kind ++ beBytes 3 0 ++ fields)
def ackBody (seq : Nat) : List Byte := ctlBody 1 (beBytes 2 seq)
def nakBody (seq : Nat) : List Byte := ctlBody 2 (beBytes 2 seq)
def creditBody (priv shared : List Nat) : List Byte := ctlBody 3 (priv.flatMap (beBytes 2) ++ shared.flatMap (beBytes 2))
def helloBody (h : Hello) : List Byte :=
  ctlBody 4 (beBytes 1 h.role ++ beBytes 1 h.gen ++ beBytes 1 (b2n h.seen) ++ beBytes 1 h.live ++ beBytes 4 h.id ++ beBytes 2 h.privLimit ++
    beBytes 2 h.sharedLimit ++ beBytes 2 h.sharedCap)
def goodbyeBody (reason : Nat) : List Byte := ctlBody 5 (beBytes 1 reason)
def marginBody (op reeds atten : Nat) (errors margins : List Nat) : List Byte :=
  ctlBody 6 (beBytes 1 op ++ beBytes 1 reeds ++ beBytes 1 atten ++ beBytes 1 0 ++ (List.range 4).flatMap (fun r => beBytes 4 (errors.getD r 0)) ++
    (List.range 4).flatMap (fun r => beBytes 1 (margins.getD r 0)))

/-- The KIND of a CONTROL body, and the HELLO one holds. -/
def ctlKind (b : List Byte) : Nat := beAt 0 1 b
def helloOf (b : List Byte) : Hello :=
  ⟨beAt 4 1 b, beAt 5 1 b, bit 0 (beAt 6 1 b), beAt 7 1 b, beAt 8 4 b, beAt 12 2 b, beAt 14 2 b, beAt 16 2 b⟩

/-- Sends a CONTROL frame between frames; on a port that sends no light now, an ACK and a CREDIT frame wait for the light (R330, R333, R372, R384). -/
def State.control (s : State) (lp : Nat) (body : List Byte) : State :=
  if s.lineFree lp then s.emit (.linkFrame lp (s.ownHeader lp 2 0) body)
  else
    let l := s.link lp
    if ctlKind body = 1 then s.setLink lp { l with ackDue := true }
    else if ctlKind body = 3 then s.setLink lp { l with creditDue := true }
    else s

/-- One NAK for the next LSEQ expected, unless one for it has gone and neither a frame has been accepted nor REPLAY_TIMEOUT has passed since (R333); on a
port that sends no light now it waits (R384). -/
def State.nak (s : State) (lp : Nat) : State :=
  let l := s.link lp
  let quiet := match l.nakFor with
    | some (q, t) => q == l.rxSeq && decide (s.time.ticks < t + nsTicks s.links.replayTimeout)
    | none => false
  if quiet then s
  else if !s.lineFree lp then s.setLink lp { l with nakDue := true }
  else (s.setLink lp { l with nakFor := some (l.rxSeq, s.time.ticks), nakTx := min (l.nakTx + 1) 0xFFFFFFFF }).control lp (nakBody l.rxSeq)

/-- The ACK, NAK and CREDIT frames that waited for a link's light go once it is there. -/
def State.sendDue (s : State) (lp : Nat) : State :=
  let l := s.link lp
  if !(l.ackDue || l.creditDue || l.nakDue) || !s.lineFree lp then s
  else
    let s := s.setLink lp { l with ackDue := false, creditDue := false, nakDue := false }
    let s := if l.ackDue then s.control lp (ackBody l.rxSeq) else s
    let s := if l.nakDue then s.nak lp else s
    if l.creditDue then s.control lp (creditBody l.ownPriv l.ownShared) else s

/-- The same for every link. -/
def State.allDue (s : State) : State := (s.links.link.filter fun x => x.2.ackDue || x.2.creditDue || x.2.nakDue).foldl (fun s x => s.sendDue x.1) s

end Sys2Proof.Machine
end

