-- ==== Sys2Proof/Machine/Clock.lean ====
section
/-! DEFINITION. What a queue holds and may send, the counter slots, and the passing of time. -/
namespace Sys2Proof.Machine

/-! ### Output queue occupancy (R250–R256) -/

def qmOcc (lp c : Nat) : Nat := Reg.QM_OCC (lpTile lp) (lpPort lp) c
/-- The cells a queue holds (QM_OCC). -/
def State.occ (s : State) (lp c : Nat) : Nat := s.fld (qmOcc lp c) Fld.QM_OCC_OCC

/-- The occupancy from which a queue counts as saturated: its MAX threshold for colour green (R259, R264). -/
def State.satLevel (s : State) (lp c : Nat) : Nat :=
  let v := s.fld (Reg.QM_LIMIT (lpTile lp) (lpPort lp) c) Fld.QM_LIMIT_LIMIT
  s.fld (Reg.QM_PROF (lpTile lp) c 0) Fld.QM_PROF_MAX * (if s.isSplit (lp2p lp) then v / 2 else v) / 16

/-- The cells that the queue of a class holds for a logical port, which may be a half of a port (R255). -/
def State.qCells (s : State) (lp c : Nat) : Nat :=
  ((s.sw.flights.filter fun f => f.stage == .queued lp && f.pkt.cls == c).map fun f => pktCells f.pkt).foldl (· + ·) 0

/-- What is known of a queue's saturation since the last window boundary: one never judged has been at a threshold of 0 all along (R264). -/
def State.satOf (s : State) (lp c : Nat) : Nat × Nat :=
  (Tbl.find s.sw.sat (8 * lp + c)).getD (if s.satLevel lp c = 0 then (0, s.del.from_ + 1) else (0, 0))

/-- A queue's occupancy or its threshold has changed: its port's greatest occupancy in the window, and the time it is saturated (R264, R654). -/
def State.occNote (s : State) (lp c : Nat) : State :=
  let now := s.time.ticks
  let x := s.satOf lp c
  let y := if s.satLevel lp c ≤ s.qCells lp c then (x.1, if x.2 = 0 then now + 1 else x.2)
    else (if x.2 = 0 then x.1 else x.1 + (now + 1 - x.2), 0)
  { s with sw := { s.sw with sat := Tbl.put s.sw.sat (8 * lp + c) y, peak := Tbl.upd s.sw.peak 0 lp (max (s.occ lp c)) } }

/-- Every queue of the classes given of a tile is judged again, as a change of its thresholds asks (R264). -/
def State.satJudge (s : State) (t : Nat) (cs : List Nat) : State :=
  (List.range 16).foldl (fun s k => cs.foldl (fun s c => s.occNote (16 * t + k) c) s) s

/-- n cells enter a queue: OCC, USED and HIGH_WATER follow. -/
def State.occAdd (s : State) (lp c n : Nat) : State :=
  let a := Reg.QM_POOL_STATUS (lpTile lp)
  let u := s.fld a Fld.QM_POOL_STATUS_USED + n
  let s := (s.setFld (qmOcc lp c) Fld.QM_OCC_OCC (s.occ lp c + n)).setFld a Fld.QM_POOL_STATUS_USED u
  (s.setFld a Fld.QM_POOL_STATUS_HIGH_WATER (max u (s.fld a Fld.QM_POOL_STATUS_HIGH_WATER))).occNote lp c

/-- A class is no longer blocked for credits (R758). -/
def State.unblock (s : State) (lp c : Nat) : State := { s with pmc := { s.pmc with blocked := Tbl.del s.pmc.blocked (8 * lp + c) } }

/-- A queue that has emptied loses its deficit (R371). -/
def State.deficitLoss (s : State) (lp c : Nat) : State :=
  if s.sw.flights.any fun f => f.stage == .queued lp && f.pkt.cls == c then s
  else { s with tide := { s.tide with
      deficit := Tbl.set s.tide.deficit 0 (8 * lp + c) 0
      fresh := Tbl.set s.tide.fresh false (8 * lp + c) false } }

/-- n cells leave a queue: a packet has gone, so the class is not blocked. -/
def State.occSub (s : State) (lp c n : Nat) : State :=
  let a := Reg.QM_POOL_STATUS (lpTile lp)
  let s := (s.unblock lp c).deficitLoss lp c
  ((s.setFld (qmOcc lp c) Fld.QM_OCC_OCC (s.occ lp c - n)).setFld a Fld.QM_POOL_STATUS_USED (s.fld a Fld.QM_POOL_STATUS_USED - n)).occNote lp c

/-! ### Link credits (R328–R331) -/

/-- The credits of a class available to the device as sender (R330): private, shared, and what class c holds of the shared pool. -/
def LinkSt.privAvail (l : LinkSt) (c : Nat) : Nat :=
  l.privLimit - (l.privTaken.getD c 0 + 65536 - l.privFreed.getD c 0) % 65536
def LinkSt.sharedHeld (l : LinkSt) (c : Nat) : Nat := (l.sharedTaken.getD c 0 + 65536 - l.sharedFreed.getD c 0) % 65536
def LinkSt.sharedAvail (l : LinkSt) : Nat := l.sharedLimit - ((List.range 8).map l.sharedHeld).foldl (· + ·) 0

/-- From which pool a class-c packet of n units may be sent: private when enough is held, shared within SHARED_CAP, TC7 private only
(R329). -/
def LinkSt.pool (l : LinkSt) (c n : Nat) : Option Bool :=
  if n ≤ l.privAvail c then some false
  else if c ≠ 7 ∧ n ≤ l.sharedAvail ∧ l.sharedHeld c + n ≤ l.sharedCap then some true
  else none

/-! ### Counter slots (R744–R747) -/

/-- Addresses of the high words of the slot configurations that have been written: only such a slot can be enabled. -/
def State.slotWords (s : State) : List Nat :=
  (s.regs.filter fun r => r.1 / 4096 == 0x1301 && decide (0x104 ≤ r.1 % 4096) && r.1 % 16 == 4).map (·.1)

/-- Counts n of an event in every enabled slot that selects it, for class c and the unit `unit` (R744, R745). -/
def State.pmcEvent (s : State) (ev c unit n : Nat) : State :=
  if n = 0 then s else
  s.slotWords.foldl (fun s a =>
    let w := s.rdWide (a - 4) 2
    let sc := bits 39 28 w
    if bit 63 w && bits 55 48 w == ev && (decide (0x10 ≤ ev) || bit (40 + c) w) && (sc == 0xFFF || sc == unit % 4096) then s.addCnt (a + 4) n else s) s

/-- Does a slot configuration with OPEN meet R748 as far as its event, its scope and its window go: a tenant-attributable event, one partition, of
the tenant bound to the enabled window WIN? -/
def State.slotMeets (s : State) (w : Nat) : Bool :=
  let ev := bits 55 48 w
  let sc := bits 39 28 w
  let fen := decide (0x10 ≤ ev) && decide (ev ≤ 0x13) && bits 10 6 sc == 0
  let peat := decide (0x20 ≤ ev) && decide (ev ≤ 0x23) && bits 11 6 sc == 0
  let tenant := if fen then s.fld (Reg.FADM_PART_CFG (bits 11 11 sc) (sc % 64)) Fld.FADM_PART_CFG_TENANT
    else s.fld (Reg.PEAT_PART_CFG (sc % 64)) Fld.PEAT_PART_CFG_TENANT
  (fen || peat) && s.winTenant (bits 61 56 w) == some tenant

/-- OPEN clears in every slot that no longer meets R748 (R750). -/
def State.slotOpenClear (s : State) : State :=
  s.slotWords.foldl (fun s a =>
    let w := s.rdWide (a - 4) 2
    if bit 62 w && !s.slotMeets w then s.wrWide (a - 4) (withBits 62 62 0 w) 2 else s) s

/-- The logical ports and classes with a packet in their output queue, and its head packet. -/
def State.heads (s : State) : List (Nat × Pkt) :=
  (s.sw.flights.foldl (fun (acc : List (Nat × Pkt)) f =>
    match f.stage with
    | .queued lp => if acc.any fun x => x.1 == lp && x.2.cls == f.pkt.cls then acc else (lp, f.pkt) :: acc
    | _ => acc) []).reverse

/-- Counts a per-cycle event in the slots that select it: `f` gives the count of a port's head packet; with `once` a port counts once
whatever the number of its classes. -/
def State.pmcCycles (s : State) (ev : Nat) (f : Nat × Pkt → Nat) (once : Bool) : State :=
  (s.slotWords.filter fun a => let w := s.rdWide (a - 4) 2; bit 63 w && bits 55 48 w == ev).foldl (fun s a =>
    let w := s.rdWide (a - 4) 2
    let sc := bits 39 28 w
    let mine := s.heads.filter fun x => bit (40 + x.2.cls) w && (sc == 0xFFF || sc == x.1)
    let per := mine.map fun x => (x.1, f x)
    let n := if once then
        (per.map (·.1)).eraseDups.foldl (fun acc lp => acc + ((per.filter (·.1 == lp)).map (·.2)).foldl max 0) 0
      else (per.map (·.2)).foldl (· + ·) 0
    if n = 0 then s else s.addCnt (a + 4) n) s

/-- Does a logical port lack the credits for a head packet (R329)? -/
def State.creditBlocked (s : State) (x : Nat × Pkt) : Bool := ((s.link x.1).pool x.2.cls (pktUnits x.2)).isNone

/-- Does a packet at a switch input wait with its head flit for an output: some output of it carries no copy of it yet (R244)? -/
def State.headWaits (s : State) (f : Flight) : Bool :=
  f.stage == .atSwitch && f.dests.any fun d => !s.sw.flights.any fun g => g.id == f.id && g.stage == .toOutput d.output

/-- Counts n cycles: queue occupancy, credit stalls and gate holds in the slots that select them (R745), and head flits that wait at a
quadrant switch (R285). -/
def State.countCycles (s : State) (n : Nat) : State :=
  let waiting := (s.sw.flights.filter fun f => decide (f.inp < 8) && s.headWaits f).map fun f => (f.inp, f.pkt.cls)
  let s := (waiting.eraseDups).foldl (fun s x => s.addCnt (Cnt.RING_QS_STALL x.1 x.2) n) s
  let s := s.pmcCycles 4 (fun x => n * s.occ x.1 x.2.cls) false
  let s := s.pmcCycles 5 (fun x => if s.creditBlocked x then n else 0) true
  s.pmcCycles 6 (fun x => if s.gateOpen x.1 x.2 then 0 else n) true

/-- A class with a queued packet and no credits is blocked from now on (R758). -/
def State.blockNote (s : State) : State :=
  let hs := s.heads
  let s := { s with pmc := { s.pmc with blocked := s.pmc.blocked.filter fun b => hs.any fun x => 8 * x.1 + x.2.cls == b.1 && s.creditBlocked x } }
  (hs.filter fun x => s.creditBlocked x && (Tbl.find s.pmc.blocked (8 * x.1 + x.2.cls)).isNone).foldl (fun s x =>
    { s with pmc := { s.pmc with blocked := Tbl.put s.pmc.blocked (8 * x.1 + x.2.cls) (s.time.ticks, s.short, false) } }) s

/-- A class whose head packet now has credits is no longer blocked (R758). -/
def State.blockCheck (s : State) (lp : Nat) : State :=
  (s.heads.filter fun x => x.1 == lp && !s.creditBlocked x).foldl (fun s x => s.unblock lp x.2.cls) s

/-! ### The passing of time (R109–R111, R118) -/

/-- n ticks pass: device time gains TIME_INCR on each, and a slew adds or takes RATE on each until less than RATE remains, when
one tick takes the rest (R110, R118). Acknowledgements and credits that waited for a port's light go (R330, R333). Counts of cycles take the state as it stands when the ticks begin, two cycles a tick (R12). -/
def State.elapse (n : Nat) (s : State) : State :=
  let s := (s.countCycles (2 * n)).blockNote
  let a := min s.time.slew.natAbs (n * s.slewRate)
  let d : Int := if s.time.slew < 0 then -(a : Int) else a
  ({ s with time := { s.time with
      ticks := s.time.ticks + n
      now := ((s.time.now : Int) + (n * s.incr : Nat) + d).toNat % (2 ^ 48 * secUnits)
      slew := s.time.slew - d } }).allDue

/-- Time passes until tick t, if it has not come yet. -/
def State.elapseToTick (t : Nat) (s : State) : State := s.elapse (t - s.time.ticks)

/-- The next of the evaluations that come every 10 µs: 0 the sensors, 1 CX power, 2 the Peat array. -/
def State.nextSample (s : State) (k : Nat) : State :=
  let t := Tbl.getD s.pwr.samples 0 k + usTicks 10
  let s := s.elapseToTick t
  { s with pwr := { s.pwr with samples := Tbl.set s.pwr.samples 0 k (max t s.time.ticks) } }

/-- The ticks until device time has gained d (units of 2^-32 ns), with the slew in progress (R110, R118). A slew forward by S gains
min (S, n × RATE) in n ticks, so both parts of the minimum must reach d; a slew back loses that much, so one of them has to. -/
def State.ticksToGain (s : State) (d : Nat) : Nat :=
  let i := s.incr; let r := s.slewRate; let m := s.time.slew.natAbs
  if 0 ≤ s.time.slew then max (ceilDiv d (max 1 (i + r))) (ceilDiv (d - m) (max 1 i))
  else min (ceilDiv d (max 1 (i - r))) (ceilDiv (d + m) (max 1 i))

/-- Time passes until device time is t (units of 2^-32 ns) or later. -/
def State.elapseToDev (t : Nat) (s : State) : State := s.elapse (s.ticksToGain (t - s.time.now))

/-- Device time reaches the next boundary of port p, and the change is made (R379, R388, R402). -/
def State.boundary (s : State) (p : Nat) : State :=
  match s.nextBoundary p with
  | none => s
  | some (t, w) =>
    let s := s.elapseToDev (cToDev t)
    match w with
    | .take => s.takeover p t
    | .own => s.ownBoundary p t
    | .start => (s.startCycle p t).engineSlot p t (match s.cwTakeover (p / 32) with | some c => decide (c ≤ t) | none => false)
    | .stop => s.listEnds p t false
    | .heldPark => s.park (p / 32) t false

end Sys2Proof.Machine
end

