-- ==== Sys2Proof/Machine/Numbers.lean ====
section
/-! DEFINITION. Number formats and arithmetic (chapter 10): exact dyadic values, one rounding, the exact accumulator. -/
namespace Sys2Proof

/-- A value of a floating-point format: a NaN (signalling or not), an infinity, or ±m × 2^e. -/
inductive FVal where
  | nan (sig : Bool)
  | inf (neg : Bool)
  | fin (neg : Bool) (m : Nat) (e : Int)
  deriving DecidableEq, Repr

/-- The flags of R506. -/
def flOF : Nat := 8
def flUF : Nat := 4
def flNX : Nat := 2
def flNV : Nat := 1

/-- A floating-point format (R476, R480, R481): exponent and fraction bits, bias, ignored low bits of its container, whether it saturates
and has no infinity, whether it has signalling NaNs, and its canonical NaN. -/
structure FFmt where
  eb : Nat
  fb : Nat
  bias : Nat
  pad : Nat
  sat : Bool
  ieee : Bool
  canon : Nat
  deriving DecidableEq, Repr

/-- The floating-point formats by CODE (R473, R481). T6 and T4 have no NaN; an element of a NaN block has code 0 (R489). -/
def fmtOf (code : Nat) : Option FFmt :=
  match code with
  | 0x00 => some ⟨11, 52, 1023, 0, false, true, 0x7FF8000000000000⟩
  | 0x01 => some ⟨8, 23, 127, 0, false, true, 0x7FC00000⟩
  | 0x02 => some ⟨5, 10, 15, 0, false, true, 0x7E00⟩
  | 0x03 => some ⟨8, 10, 127, 13, false, false, 0x7FC00000⟩
  | 0x04 => some ⟨8, 7, 127, 0, false, false, 0x7FC0⟩
  | 0x05 => some ⟨4, 3, 7, 0, true, false, 0x80⟩
  | 0x06 => some ⟨5, 2, 15, 0, false, false, 0x7E⟩
  | 0x07 => some ⟨3, 2, 3, 0, true, false, 0⟩
  | 0x08 => some ⟨2, 1, 1, 0, true, false, 0⟩
  | _ => none

/-- Binary32. -/
def f32 : FFmt := ⟨8, 23, 127, 0, false, true, 0x7FC00000⟩
/-- T19 (R480). -/
def fT19 : FFmt := ⟨8, 10, 127, 13, false, false, 0x7FC00000⟩

/-- Is a CODE an integer format? -/
def isIntCode (c : Nat) : Bool := decide (0x10 ≤ c) && decide (c ≤ 0x13)
/-- The bits of an element of a format, by CODE (R473). -/
def elemBits (c : Nat) : Nat :=
  match c with
  | 0x00 => 64 | 0x01 => 32 | 0x02 => 16 | 0x03 => 32 | 0x04 => 16 | 0x05 => 8 | 0x06 => 8 | 0x07 => 6 | 0x08 => 4
  | 0x10 => 8 | 0x11 => 16 | 0x12 => 32 | 0x13 => 64 | _ => 0
/-- CODE, SCALED and UNSIGNED of a format byte (R473). -/
def fmtCode (b : Nat) : Nat := b % 32
def fmtScaled (b : Nat) : Bool := bit 7 b
def fmtUnsigned (b : Nat) : Bool := bit 6 b

/-- Is a format byte valid (R474)? -/
def fmtOk (b : Nat) : Bool :=
  let c := fmtCode b
  ((fmtOf c).isSome || isIntCode c) && !bit 5 b && !(fmtScaled b && !(decide (3 ≤ c) && decide (c ≤ 8))) &&
  !(!fmtScaled b && (c == 7 || c == 8)) && !(fmtUnsigned b && decide (c < 0x10))

/-! ### Rounding -/

/-- m × 2^sh rounded to an integer by MODE (R475: 0 RNE, 1 RTZ, 2 RUP, 3 RDN), and is it inexact? -/
def roundSh (mode : Nat) (neg : Bool) (m : Nat) (sh : Int) : Nat × Bool :=
  if 0 ≤ sh then (m * 2 ^ sh.toNat, false)
  else
    let d := 2 ^ (-sh).toNat
    let q := m / d
    let r := m % d
    let up := match mode with
      | 0 => decide (d < 2 * r) || (2 * r == d && q % 2 == 1)
      | 1 => false
      | 2 => !neg && decide (0 < r)
      | _ => neg && decide (0 < r)
    (if up then q + 1 else q, decide (0 < r))

/-- The least exponent of a normal value. -/
def FFmt.emin (f : FFmt) : Int := 1 - (f.bias : Int)
/-- The code, less sign and container, of the largest finite value. -/
def FFmt.maxCode (f : FFmt) : Nat := if f.sat then 2 ^ (f.eb + f.fb) - 1 else (2 ^ f.eb - 1) * 2 ^ f.fb - 1
/-- A code of a format with its sign, in its container. -/
def FFmt.pack (f : FFmt) (neg : Bool) (c : Nat) : Nat :=
  if f.sat && c == 0 then 0 else (b2n neg * 2 ^ (f.eb + f.fb) + c) * 2 ^ f.pad

/-- The value of a code (R476, R481, R482, R484). -/
def FFmt.decode (f : FFmt) (code : Nat) : FVal :=
  let c := code / 2 ^ f.pad
  let neg := c.testBit (f.eb + f.fb)
  let e := c / 2 ^ f.fb % 2 ^ f.eb
  let x := c % 2 ^ f.fb
  if f.sat && c % 2 ^ (f.eb + f.fb + 1) == 2 ^ (f.eb + f.fb) then (if f.canon = 0 then .fin false 0 0 else .nan false)
  else if !f.sat && e == 2 ^ f.eb - 1 then (if x = 0 then .inf neg else .nan (f.ieee && !x.testBit (f.fb - 1)))
  else if e = 0 then .fin neg x (f.emin - f.fb)
  else .fin neg (2 ^ f.fb + x) ((e : Int) - f.bias - f.fb)

/-- Overflow: what R483 gives beyond the range, with its flags. -/
def FFmt.overflow (f : FFmt) (mode : Nat) (neg : Bool) : Nat × Nat :=
  let toInf := match mode with | 0 => true | 1 => false | 2 => !neg | _ => neg
  (f.pack neg (if f.sat || !toInf then f.maxCode else f.maxCode + 1), flOF + flNX)

/-- Writes a value in a format, rounded once by MODE, with its flags (R478, R479, R483, R484, R492, R493). -/
def FFmt.encode (f : FFmt) (mode : Nat) (n : FVal) : Nat × Nat :=
  match n with
  | .nan sig => (f.canon, if sig then flNV else 0)
  | .inf neg => if f.sat then (f.pack neg f.maxCode, flOF + flNX) else (f.pack neg (f.maxCode + 1), 0)
  | .fin neg m e =>
    if m = 0 then (f.pack neg 0, 0)
    else
      let top : Int := (log2 m : Int) + e
      let q := max top f.emin - f.fb
      let (r, inexact) := roundSh mode neg m (e - q)
      let code := ((q + f.fb + f.bias).toNat - 1) * 2 ^ f.fb + r
      if f.maxCode < code then f.overflow mode neg
      else
        let tiny := decide (top < f.emin) &&
          (let (r', _) := roundSh mode neg m (e - (top - f.fb)); decide (r' < 2 ^ (f.emin - top + f.fb).toNat))
        (f.pack neg code, if inexact then flNX + (if tiny then flUF else 0) else 0)

/-- The value of a finite number as a multiple of 2^e. -/
def scaleTo (neg : Bool) (m : Nat) (x e : Int) : Int :=
  let v : Int := (m * 2 ^ (x - e).toNat : Nat)
  if neg then -v else v

/-- The exact number z × 2^e; a zero takes the given sign. -/
def ofInt (z e : Int) (zneg : Bool) : FVal := if z = 0 then .fin zneg 0 0 else .fin (decide (z < 0)) z.natAbs e

/-- The exact sum, and NV: a zero sum takes the sign IEEE 754-2019 gives it under MODE (R495). -/
def addExact (mode : Nat) (a b : FVal) : FVal × Nat :=
  match a, b with
  | .nan s, .nan t => (.nan false, if s || t then flNV else 0)
  | .nan s, _ => (.nan false, if s then flNV else 0)
  | _, .nan t => (.nan false, if t then flNV else 0)
  | .inf s, .inf t => if s == t then (.inf s, 0) else (.nan false, flNV)
  | .inf s, _ => (.inf s, 0)
  | _, .inf t => (.inf t, 0)
  | .fin s m x, .fin t n y =>
    let e := min x y
    let z := scaleTo s m x e + scaleTo t n y e
    let zneg := if m = 0 ∧ n = 0 ∧ s = t then s else mode == 3
    (ofInt z e zneg, 0)

/-- Binary32 addition under MODE (R495). -/
def add32 (mode : Nat) (a b : FVal) : FVal × Nat :=
  let (x, f) := addExact mode a b
  let (c, g) := f32.encode mode x
  (f32.decode c, f ||| g)

/-- The order of R496 on values that are no NaN, −0 below +0. -/
def numLt : FVal → FVal → Bool
  | .nan _, _ => false
  | _, .nan _ => false
  | .inf s, .inf t => s && !t
  | .inf s, _ => s
  | _, .inf t => !t
  | .fin s m x, .fin t n y =>
    let e := min x y
    let a := scaleTo s m x e
    let b := scaleTo t n y e
    decide (a < b) || (a == b && s && !t)

/-- MIN (`mx = false`) or MAX of two values (R496). -/
def minMax (mx : Bool) (a b : FVal) : FVal × Nat :=
  match a, b with
  | .nan s, .nan t => (.nan false, if s || t then flNV else 0)
  | .nan s, _ => (.nan false, if s then flNV else 0)
  | _, .nan t => (.nan false, if t then flNV else 0)
  | a, b => (if (if mx then numLt a b else numLt b a) then b else a, 0)

/-! ### Integers (R491, R493) -/

/-- The value of an integer code. -/
def intDecode (w : Nat) (uns : Bool) (c : Nat) : Int := if uns then (c % 2 ^ w : Nat) else toSigned w c
/-- The limits of an integer format. -/
def intMin (w : Nat) (uns : Bool) : Int := if uns then 0 else -(2 ^ (w - 1) : Nat)
def intMax (w : Nat) (uns : Bool) : Int := if uns then (2 ^ w - 1 : Nat) else (2 ^ (w - 1) - 1 : Nat)
/-- Writes an integer in an integer format: saturation sets OF alone (R491). -/
def intEncode (w : Nat) (uns : Bool) (z : Int) : Nat × Nat :=
  if z < intMin w uns then (ofSigned w (intMin w uns), flOF)
  else if intMax w uns < z then (ofSigned w (intMax w uns), flOF)
  else (ofSigned w z, 0)

/-- Converts a floating-point value to an integer format (R493). -/
def toIntFmt (w : Nat) (uns : Bool) (mode : Nat) (n : FVal) : Nat × Nat :=
  match n with
  | .nan _ => (0, flNV)
  | .inf neg => (ofSigned w (if neg then intMin w uns else intMax w uns), flNV)
  | .fin neg m e =>
    let (r, inexact) := roundSh mode neg m e
    let z : Int := if neg then -(r : Int) else r
    if z < intMin w uns then (ofSigned w (intMin w uns), flNV)
    else if intMax w uns < z then (ofSigned w (intMax w uns), flNV)
    else (ofSigned w z, if inexact then flNX else 0)

/-! ### Exact accumulators (R498–R503) -/

/-- An exact accumulator in units of 2^-149, its marks, and what R503 asks of the addends: was every one −0, was one not a zero, is that unknown of some
(an accumulator taken from its stored form). -/
structure ExAcc where
  acc : Int
  nan : Bool
  pinf : Bool
  ninf : Bool
  allNeg : Bool
  anyNz : Bool
  unknown : Bool
  deriving DecidableEq, Repr

def ExAcc.init : ExAcc := ⟨0, false, false, false, true, false, false⟩

/-- Adds one value (R499, R500). -/
def ExAcc.add (a : ExAcc) (x : FVal) : ExAcc × Nat :=
  match x with
  | .nan sig => ({ a with nan := true, allNeg := false, anyNz := true }, if sig then flNV else 0)
  | .inf neg => (if neg then { a with ninf := true, allNeg := false, anyNz := true } else { a with pinf := true, allNeg := false, anyNz := true }, 0)
  | .fin neg m e =>
    if m = 0 then ({ a with allNeg := a.allNeg && neg }, 0)
    else
      let a := { a with allNeg := false, anyNz := true }
      if 152 ≤ (log2 m : Int) + e then (if neg then { a with ninf := true } else { a with pinf := true }, flOF + flNX)
      else
        let (r, inexact) := roundSh 0 neg m (e + 149)
        ({ a with acc := a.acc + (if neg then -(r : Int) else r) }, if inexact then flNX + flUF else 0)

/-- Merges two accumulators (R502). -/
def ExAcc.merge (a b : ExAcc) : ExAcc :=
  ⟨a.acc + b.acc, a.nan || b.nan, a.pinf || b.pinf, a.ninf || b.ninf, a.allNeg && b.allNeg, a.anyNz || b.anyNz, a.unknown || b.unknown⟩

/-- The sign of a zero result (R503): none where the stored forms merged leave it open. -/
def ExAcc.zeroNeg (mode : Nat) (a : ExAcc) : Option Bool :=
  if mode = 3 ∧ a.anyNz then some true
  else if mode ≠ 3 ∧ !a.allNeg then some false
  else if a.unknown then none
  else some (a.allNeg || (mode == 3 && a.anyNz))

/-- The value an accumulator finishes with (R500, R503); `open_` is the sign of a zero that is left open. -/
def ExAcc.finish (mode : Nat) (open_ : Bool) (a : ExAcc) : FVal × Nat :=
  if a.nan || (a.pinf && a.ninf) then (.nan false, if a.pinf && a.ninf then flNV else 0)
  else if a.pinf then (.inf false, 0)
  else if a.ninf then (.inf true, 0)
  else (ofInt a.acc (-149) ((a.zeroNeg mode).getD open_), 0)

/-- The 48 bytes of an accumulator in stored form (R571). -/
def ExAcc.store (a : ExAcc) : List Byte := leBytes 40 (ofSigned 320 a.acc) ++ leBytes 1 (b2n a.nan + 2 * b2n a.pinf + 4 * b2n a.ninf) ++ leBytes 7 0

/-- An accumulator read from its stored form. -/
def ExAcc.load (bs : List Byte) : ExAcc :=
  let z := toSigned 320 (leAt 0 40 bs)
  let m := leAt 40 1 bs
  let nz := z != 0 || m != 0
  ⟨z, bit 0 m, bit 1 m, bit 2 m, !nz, nz, !nz⟩

end Sys2Proof
end

