-- ==== Sys2Proof/Machine/Attend.lean ====
section
/-! DEFINITION. The Peat array (R485–R488, R497, R505, R618, R623–R629): tensors, exact products, the exponential, the partial of a query vector. -/
namespace Sys2Proof

/-! ### Tensors (R485–R488) -/

/-- Bytes of a superblock of a scaled format, and of one block's element string (R487). -/
def superBytes (c : Nat) : Nat := 32 + 128 * elemBits c
def stringBytes (c : Nat) : Nat := 4 * elemBits c

/-- A value multiplied by 2^k. -/
def scale2 (k : Int) (n : FVal) : FVal :=
  match n with
  | .fin s m e => .fin s m (e + k)
  | n => n

/-- Element i of a tensor in a format byte's layout. -/
def tensorElem (fmt : Nat) (bs : List Byte) (i : Nat) : FVal :=
  let c := fmtCode fmt
  let f := (fmtOf c).getD f32
  let w := elemBits c
  if fmtScaled fmt then
    let sb := superBytes c * (i / 1024)
    let b := i % 1024 / 32
    let e := leAt (sb + b) 1 bs
    let str := leAt (sb + 32 + stringBytes c * b) (stringBytes c) bs
    if e = 255 then .nan false else scale2 ((e : Int) - 127) (f.decode (str / 2 ^ (w * (i % 32)) % 2 ^ w))
  else f.decode (leAt (w / 8 * i) (w / 8) bs)

/-- The scale byte that a unit chooses for the 32 values of a block (R489). -/
def blockScale (f : FFmt) (xs : List FVal) : Nat :=
  if xs.any fun x => match x with | .nan _ => true | _ => false then 255
  else
    let mags := xs.map fun x => match x with | .fin _ m e => FVal.fin false m e | _ => .fin false 0 0
    if mags.all fun x => match x with | .fin _ m _ => m == 0 | _ => false then 127
    else
      let top := f.decode (f.pack false f.maxCode)
      ((List.range 255).find? fun (e : Nat) => mags.all fun x => !numLt (scale2 ((e : Int) - 127) top) x).getD 254

/-- A block in a scaled format (R483, R489): the scale byte, the element codes and the flags. No command writes one: Fen takes no scaled format
(R516), and Peat stores the bytes that it is sent. -/
def writeBlock (f : FFmt) (mode : Nat) (xs : List FVal) : Nat × List Nat × Nat :=
  let e := blockScale f xs
  if e = 255 then (255, xs.map fun _ => 0, 0)
  else
    let cs := xs.map fun x => f.encode mode (scale2 (127 - (e : Int)) x)
    (e, cs.map (·.1), cs.foldl (fun a c => a ||| c.2) 0)

/-! ### Products and the exponential (R497, R505) -/

/-- Flips the sign. -/
def negNum (n : FVal) : FVal :=
  match n with
  | .inf s => .inf (!s)
  | .fin s m e => .fin (!s) m e
  | n => n

/-- The exact product, and NV (R479, R497). -/
def mulExact (a b : FVal) : FVal × Nat :=
  let nv := fun (n : FVal) => match n with | .nan true => flNV | _ => 0
  let sgn := fun (n : FVal) => match n with | .inf s => s | .fin s _ _ => s | _ => false
  let zero := fun (n : FVal) => match n with | .fin _ m _ => m == 0 | _ => false
  let isNan := fun (n : FVal) => match n with | .nan _ => true | _ => false
  let isInf := fun (n : FVal) => match n with | .inf _ => true | _ => false
  let s := sgn a != sgn b
  if isNan a || isNan b then (.nan false, nv a ||| nv b)
  else if isInf a || isInf b then (if zero a || zero b then (.nan false, flNV) else (.inf s, 0))
  else match a, b with
    | .fin _ m x, .fin _ n y => (.fin s (m * n) (x + y), 0)
    | _, _ => (.nan false, 0)

/-- A value written as binary32 under MODE, with its flags. -/
def to32 (mode : Nat) (x : FVal × Nat) : FVal × Nat :=
  let (c, g) := f32.encode mode x.1
  (f32.decode c, x.2 ||| g)

/-- Binary32 multiplication under MODE. -/
def mul32 (mode : Nat) (a b : FVal) : FVal × Nat := to32 mode (mulExact a b)
/-- a + x × y, the exact product added with one rounding under MODE (R497). -/
def mac32 (mode : Nat) (a x y : FVal) : FVal × Nat :=
  let (p, f) := mulExact x y
  let (z, g) := addExact mode a p
  let (c, h) := f32.encode mode z
  (f32.decode c, f ||| g ||| h)

/-- T19(y): into T19 under T19IN (R494). -/
def toT19 (t19in : Bool) (y : FVal) : FVal × Nat :=
  let (c, g) := fT19.encode (if t19in then 0 else 1) y
  (fT19.decode c, g)

/-- Fixed-point bits of the exponential's evaluation. -/
def expBits : Nat := 400
/-- The sum of the terms (−v)^k / k! for k ≤ n, v in units of 2^-expBits. -/
def expSeries (v : Nat) : Nat → Int → Nat → Int → Int
  | 0, _, _, acc => acc
  | n + 1, term, k, acc => expSeries v n (-(term * v) / (2 ^ expBits * (k + 1) : Nat)) (k + 1) (acc + term)
/-- e^-y in units of 2^-expBits, for y = v × 2^-expBits below 128: a series on y / 256, squared eight times. -/
def expFix (v : Nat) : Nat :=
  (List.range 8).foldl (fun a _ => a * a / 2 ^ expBits) (expSeries (v / 256) 60 (2 ^ expBits : Nat) 0 0).toNat

/-- The running least value of an arbitrary function: it falls as x rises. -/
def runMin (g : Nat → Nat) : Nat → Nat
  | 0 => g 0
  | x + 1 => min (runMin g x) (g (x + 1))
/-- The running greatest value. -/
def runMax (g : Nat → Nat) : Nat → Nat
  | 0 => g 0
  | x + 1 => max (runMax g x) (g (x + 1))

/-- The least and the greatest code that R505 allows for a value v × 2^-expBits: within 2 ulp, or within 2^-149 below 2^-126. -/
def expBand (v : Nat) : Nat × Nat :=
  let top : Int := (log2 v : Int) - expBits
  let d : Nat := if top < -126 then 2 ^ (expBits - 149) else 2 ^ ((top - 22 + expBits).toNat)
  ((f32.encode 2 (.fin false (v - d) (-(expBits : Int)))).1, (f32.encode 1 (.fin false (v + d) (-(expBits : Int)))).1)

/-- EXP of a binary32 value (R505). Its finite results are free within the bounds, falling with x: Config.expLow and Config.expHigh name a code by the
code of |x|. -/
def exp32 (x : FVal) : FVal × Nat :=
  match x with
  | .nan s => (.nan false, if s then flNV else 0)
  | .inf neg => (if neg then .fin false 0 0 else .inf false, 0)
  | .fin neg m e =>
    if m = 0 then (.fin false 1 0, 0)
    else
      let code := (f32.encode 0 (.fin false m e)).1
      let big := decide (128 ≤ (m : Int) * 2 ^ e.toNat / 2 ^ (-e).toNat)
      let v := if big then 0 else expFix ((m * 2 ^ (e + expBits).toNat) / 2 ^ (-(e + expBits)).toNat)
      if neg then
        let (lo, hi) := expBand v
        let c := max lo (min (min hi 0x3F800000) (runMin Config.expLow code))
        (f32.decode c, flNX + (if v < 2 ^ (expBits - 126) then flUF else 0))
      else
        let w := 2 ^ (2 * expBits) / max 1 v
        let (lo, hi) := expBand w
        if big ∨ (2 ^ 24 - 1) * 2 ^ (expBits + 104) < w then (.inf false, flNX + flOF)
        else (f32.decode (max (max lo 0x3F800000) (min hi (runMax Config.expHigh code))), flNX)

/-! ### ATTEND (R623–R629) -/

/-- The elements that a half block holds in a format byte; none for a format that R625 does not allow (R624). -/
def halfCap (fmt : Nat) : Option Nat :=
  if !fmtOk fmt then none
  else if fmtScaled fmt then
    match fmtCode fmt with
    | 3 => some 8128 | 4 => some 16128 | 5 => some 31744 | 6 => some 31744 | 7 => some 41920 | 8 => some 61632 | _ => none
  else
    match fmtCode fmt with
    | 1 => some 8192 | 3 => some 8192 | 2 => some 16384 | 4 => some 16384 | 5 => some 32768 | 6 => some 32768 | _ => none

/-- May queries be in a format byte (R625)? -/
def queryFmtOk (fmt : Nat) : Bool := fmtOk fmt && !fmtScaled fmt && decide (1 ≤ fmtCode fmt) && decide (fmtCode fmt ≤ 6)

/-- A block served by ATTEND: TOKENS, the format byte of its keys and values, its bytes. -/
structure AttBlock where
  tokens : Nat
  fmt : Nat
  data : List Byte
  deriving DecidableEq, Repr

/-- The shape of an ATTEND: MODE and T19IN of RND, G, QH, DH, NQ, SCALE. -/
structure AttShape where
  mode : Nat
  t19in : Bool
  g : Nat
  qh : Nat
  dh : Nat
  nq : Nat
  scale : FVal
  deriving DecidableEq, Repr

/-- An operand as it enters a product: an FP32 element through T19IN, every other one exactly (R494, R497). -/
def operand (a : AttShape) (fmt : Nat) (bs : List Byte) (i : Nat) : FVal × Nat :=
  let n := tensorElem fmt bs i
  if fmtCode fmt = 1 then toT19 a.t19in n else (n, 0)

/-- Element (t, g, i) of a half (R623). -/
def AttShape.elem (a : AttShape) (b : AttBlock) (half : List Byte) (t g i : Nat) : FVal × Nat := operand a b.fmt half ((t * a.g + g) * a.dh + i)

/-- The partial of a query vector: m, l, o (R627), and the flags raised. -/
structure Partial where
  m : FVal
  l : FVal
  o : List FVal
  flags : Nat
  deriving DecidableEq, Repr

def Partial.init (dh : Nat) : Partial := ⟨.inf true, .fin false 0 0, List.replicate dh (.fin false 0 0), 0⟩

/-- One run of up to 32 tokens of a block (R627). -/
def attendRun (a : AttShape) (xs : List (FVal × Nat)) (g : Nat) (b : AttBlock) (p : Partial) (run : List Nat) : Partial :=
  let k := b.data.take 32768
  let v := b.data.drop 32768
  let sc := run.map fun t =>
    let acc := xs.zipIdx.foldl (fun (acc : FVal × Nat) x =>
      let (e, f) := a.elem b k t g x.2
      let (z, h) := mac32 a.mode acc.1 x.1.1 e
      (z, acc.2 ||| x.1.2 ||| f ||| h)) (.fin false 0 0, 0)
    let (z, h) := mul32 a.mode acc.1 a.scale
    (z, acc.2 ||| h)
  let (mx, fm) := sc.foldl (fun (acc : FVal × Nat) s => let (z, h) := minMax true acc.1 s.1; (z, acc.2 ||| s.2 ||| h)) (p.m, p.flags)
  if mx = .inf true then { p with flags := fm }
  else
    let (d, f1) := add32 a.mode p.m (negNum mx)
    let (c, f2) := exp32 d
    let (l, f3) := mul32 a.mode p.l c
    let os := p.o.map fun o => mul32 a.mode o c
    let ps := sc.map fun s =>
      let (d, g1) := add32 a.mode s.1 (negNum mx)
      let (e, g2) := exp32 d
      let (t, g3) := toT19 a.t19in e
      (t, g1 ||| g2 ||| g3)
    let (l, f4) := ps.foldl (fun (acc : FVal × Nat) t => let (z, h) := add32 a.mode acc.1 t.1; (z, acc.2 ||| t.2 ||| h)) (l, f3)
    let os := os.zipIdx.map fun o =>
      (ps.zip run).foldl (fun (acc : FVal × Nat) t =>
        let (e, f) := a.elem b v t.2 g o.2
        let (z, h) := mac32 a.mode acc.1 t.1.1 e
        (z, acc.2 ||| f ||| h)) o.1
    ⟨mx, l, os.map (·.1), os.foldl (fun f o => f ||| o.2) (fm ||| f1 ||| f2 ||| f4)⟩

/-- The runs of a block's tokens. -/
def tokenRuns (n : Nat) : List (List Nat) := (List.range (ceilDiv n 32)).map fun r => (List.range (min 32 (n - 32 * r))).map (32 * r + ·)

/-- The partial of query vector j (R626, R627). -/
def attendVec (a : AttShape) (qfmt : Nat) (queries : List Byte) (blocks : List AttBlock) (j : Nat) : Partial :=
  let xs := (List.range a.dh).map fun i => operand a qfmt queries (a.dh * j + i)
  blocks.foldl (fun p b => (tokenRuns b.tokens).foldl (fun p r => attendRun a xs (j / a.qh % a.g) b p r) p) (Partial.init a.dh)

/-- The record of a partial: m, l, o as FP32 (R628). -/
def Partial.bytes (p : Partial) : List Byte := (p.m :: p.l :: p.o).flatMap fun n => leBytes 4 (f32.encode 0 n).1

/-- The records of every query vector, and the flags of all (R628, R629). -/
def attend (a : AttShape) (qfmt : Nat) (queries : List Byte) (blocks : List AttBlock) : List Byte × Nat :=
  let ps := (List.range (a.nq * a.g * a.qh)).map fun j => attendVec a qfmt queries blocks j
  (ps.flatMap (·.bytes), ps.foldl (fun f p => f ||| p.flags) 0)

end Sys2Proof
end

