-- ==== Sys2Proof/Machine/Reduce.lean ====
section
/-! DEFINITION. Fen descriptors and the reduction of a region (R515–R517, R528, R544–R548, R571, R572). -/
namespace Sys2Proof

/-! ### The Fen descriptor (R515): 32 bytes as one little-endian number -/
def dKind (d : Nat) : Nat := bits 1 0 d
def dOp (d : Nat) : Nat := bits 3 2 d
def dExact (d : Nat) : Bool := bit 4 d
def dSpec (d : Nat) : Bool := bit 5 d
def dHome (d : Nat) : Nat := bits 6 6 d
def dTier1 (d : Nat) : Bool := bit 7 d
def dIn (d : Nat) : Nat := bits 15 8 d
def dOut (d : Nat) : Nat := bits 23 16 d
/-- MODE of RND (R475). -/
def dMode (d : Nat) : Nat := bits 25 24 d
def dTc (d : Nat) : Nat := if bit 27 d then 6 else 5
def dPart (d : Nat) : Nat := bits 37 32 d
def dWindow (d : Nat) : Nat := bits 47 40 d
def dHold (d : Nat) : Nat := bits 55 48 d
def dCheck (d : Nat) : Nat := bits 63 56 d
def dFirst (d : Nat) : Nat := bits 75 64 d
def dCount (d : Nat) : Nat := bits 92 80 d
def dRoot (d : Nat) : Nat := bits 112 96 d
def dLast (d : Nat) : Nat := bits 143 128 d
def dRetain (d : Nat) : Nat := bits 151 144 d
def dStall (d : Nat) : Nat := if bits 175 160 d = 0 then 1000 else bits 175 160 d
def dStraggle (d : Nat) : Nat := if bits 191 176 d = 0 then 50 else bits 191 176 d
def dXhall (d : Nat) : Bool := bit 192 d
def dXroot (d : Nat) : Bool := bit 193 d
def dHall (d : Nat) : Nat := bits 204 200 d
def dHalls (d : Nat) : Nat := bits 213 208 d
def dXport (d : Nat) : Nat := bits 234 224 d

/-- Is this spine the root of a cross-hall stripe, or a hall spine of one? -/
def isRoot (d : Nat) : Bool := dXhall d && dXroot d
def isHall (d : Nat) : Bool := dXhall d && !dXroot d

/-- The width group of a format code in R516: integers of each width apart. -/
def pairGroup (c : Nat) : Nat :=
  match c with
  | 0x01 => 1 | 0x03 => 1 | 0x02 => 2 | 0x04 => 2 | 0x05 => 3 | 0x06 => 3
  | 0x10 => 4 | 0x11 => 5 | 0x12 => 6 | 0x13 => 7 | _ => 0

/-- Do IN_FMT and OUT_FMT form a pair of R516? -/
def pairOk (i o : Nat) : Bool :=
  fmtOk i && fmtOk o && !fmtScaled i && !fmtScaled o && pairGroup (fmtCode i) != 0 && pairGroup (fmtCode i) == pairGroup (fmtCode o)

/-- Bytes of an input element. -/
def dWidth (d : Nat) : Nat := elemBits (fmtCode (dIn d)) / 8
def dInt (d : Nat) : Bool := isIntCode (fmtCode (dIn d))

/-- Is a descriptor valid (R517)? -/
def descOk (d : Nat) : Bool :=
  dKind d != 3 && dOp d != 3 && bits 31 28 d == 0 && bits 39 38 d == 0 && bits 79 76 d == 0 && bits 95 93 d == 0 && bits 127 113 d == 0 &&
  bits 159 152 d == 0 && bits 199 194 d == 0 && bits 207 205 d == 0 && bits 215 214 d == 0 && bits 223 216 d == 0 && bits 255 235 d == 0 &&
  pairOk (dIn d) (dOut d) && decide (1 ≤ dWindow d) && decide (dWindow d ≤ 64) && decide (dHold d ≤ 63) && decide (dCheck d ≤ 16) &&
  decide (2 ≤ dRetain d) && decide (1 ≤ dCount d) && decide (dFirst d + dCount d ≤ 4096) && dLast d % dWidth d == 0 &&
  !(dKind d == 2 && (dOp d != 0 || dExact d)) &&
  !(dXhall d && (if dXroot d then dHall d != 0 || decide (dHalls d < 2) || decide (32 < dHalls d) || decide (1023 < dXport d + dHalls d - 2)
    else dHall d == 0 || decide (1023 < dXport d)))

/-- Is the operation the ordered tree of R546? -/
def dTree (d : Nat) : Bool := !dInt d && dOp d == 0 && !dExact d
/-- Is the operation exact floating-point SUM? -/
def dExactSum (d : Nat) : Bool := !dInt d && dOp d == 0 && dExact d

/-- Bytes of an accumulator element in stored form (R528, R571). -/
def dAccBytes (d : Nat) : Nat :=
  if dInt d then (if dOp d = 0 then 16 else 8) else if dExactSum d then 48 else 4
/-- U (R528): slots of one chunk's accumulator. -/
def dU (d : Nat) : Nat := dAccBytes d / max 1 (dWidth d)

/-- ⌈log2 n⌉, 0 for 0 and 1. -/
def clog2 (n : Nat) : Nat := if n ≤ 1 then 0 else log2 (n - 1) + 1

/-- A (R528). -/
def dA (d m : Nat) : Nat := if dKind d = 2 then 1 else if dTree d then dU d * (clog2 m + 1 + dHold d) else dU d
/-- SH (R528) for an effective CHECK. -/
def dSH (d check : Nat) : Nat := if check = 0 ∨ dKind d = 2 then 0 else min (dWindow d) (ceilDiv (dWindow d) (2 ^ (check - 1)) + 1)
/-- R (R528): the slots a collective of m members reserves in a plane of L leaves. -/
def dSlots (d m leaves check : Nat) : Nat :=
  leaves / 64 + dWindow d * (dA d m + (if dKind d = 2 then 1 else ceilDiv (16 * m) 65536)) + dSH d check * dA d m + dRetain d

/-- The bytes of a chunk of the stripe (R515): LAST_BYTES is the length of the stripe's last chunk. -/
def dChunkLen (d c : Nat) : Nat := if c + 1 = dFirst d + dCount d ∧ dLast d ≠ 0 then dLast d else 65536
/-- The regions of a chunk, and the bytes of region r. -/
def dRegions (d c : Nat) : Nat := ceilDiv (dChunkLen d c) 4096
def dRegionLen (d c r : Nat) : Nat := min 4096 (dChunkLen d c - 4096 * r)

/-- Does the kind take contributions from member i, and does it send member i results (R510)? -/
def contributes (d i : Nat) : Bool := dKind d != 2 || i == dRoot d
def receives (d i : Nat) : Bool := match dKind d with | 0 => true | 1 => i == dRoot d | _ => i != dRoot d

/-! ### One element -/

/-- A partial result of one element: a binary32 value, an exact accumulator, or an integer. -/
inductive Part where
  | fp (n : FVal)
  | ex (a : ExAcc)
  | int (z : Int)
  deriving DecidableEq, Repr

/-- An element as it enters the reduction (R544), with the flags of reading it. -/
def enter (d code : Nat) : Part × Nat :=
  let c := fmtCode (dIn d)
  if dInt d then (.int (intDecode (elemBits c) (fmtUnsigned (dIn d)) code), 0)
  else
    let n := ((fmtOf c).getD f32).decode code
    let f := match n with | .nan true => flNV | _ => 0
    let n := match n with | .nan _ => FVal.nan false | n => n
    if dExactSum d then (let (a, g) := ExAcc.init.add n; (.ex a, f ||| g)) else (.fp n, f)

/-- Joins two partials under OP (R495, R496, R502). -/
def join (d : Nat) (a b : Part) : Part × Nat :=
  match a, b with
  | .fp x, .fp y =>
    if dOp d = 0 then (let (z, f) := add32 (dMode d) x y; (.fp z, f)) else (let (z, f) := minMax (dOp d == 2) x y; (.fp z, f))
  | .ex x, .ex y => (.ex (x.merge y), 0)
  | .int x, .int y => (.int (if dOp d = 0 then x + y else if dOp d = 1 then min x y else max x y), 0)
  | a, _ => (a, 0)

/-- Joins where either may be empty (R546). -/
def join? (d : Nat) (a b : Option Part) : Option Part × Nat :=
  match a, b with
  | some x, some y => let (z, f) := join d x y; (some z, f)
  | some x, none => (some x, 0)
  | none, y => (y, 0)

/-- The ordered tree over member indices a to b − 1 (R546); `ls` lists the members that have a leaf. The first number bounds the depth. -/
def treeSum (d : Nat) : Nat → Nat → Nat → List (Nat × Part) → Option Part × Nat
  | 0, _, _, _ => (none, 0)
  | n + 1, a, b, ls =>
    match ls with
    | [] => (none, 0)
    | l :: _ =>
      if b - a ≤ 1 then (some l.2, 0)
      else
        let m := a + 2 ^ (clog2 (b - a) - 1)
        let (x, f) := treeSum d n a m (ls.filter fun l => decide (l.1 < m))
        let (y, g) := treeSum d n m b (ls.filter fun l => decide (m ≤ l.1))
        let (z, h) := join? d x y
        (z, f ||| g ||| h)

/-- The reduction of one element over the members that contributed, given by index and code (R544–R546). -/
def reduceElem (d m : Nat) (cs : List (Nat × Nat)) : Option Part × Nat :=
  let ls := cs.map fun x => (x.1, enter d x.2)
  let f := ls.foldl (fun f l => f ||| l.2.2) 0
  let ps := ls.map fun l => (l.1, l.2.1)
  let (z, g) := if dTree d then treeSum d 20 0 m ps
    else ps.foldl (fun (acc : Option Part × Nat) l => let (z, g) := join? d acc.1 (some l.2); (z, acc.2 ||| g)) (none, 0)
  (z, f ||| g)

/-- A partial in stored form (R571). -/
def Part.store (d : Nat) : Part → List Byte
  | .fp n => leBytes 4 (f32.encode (dMode d) n).1
  | .ex a => a.store
  | .int z => leBytes (dAccBytes d) (ofSigned (8 * dAccBytes d) z)

/-- A partial read from its stored form. -/
def Part.load (d : Nat) (bs : List Byte) : Part :=
  if dInt d then
    let w := 8 * dAccBytes d
    .int (if dOp d ≠ 0 ∧ fmtUnsigned (dIn d) then (leNat bs : Int) else toSigned w (leNat bs))
  else if dExactSum d then .ex (ExAcc.load bs)
  else .fp (f32.decode (leNat bs))

/-- Writes a result element in OUT_FMT (R548); `open_` is the sign of a zero left open by R503. -/
def finishElem (d : Nat) (open_ : Bool) (p : Part) : Nat × Nat :=
  let c := fmtCode (dOut d)
  match p with
  | .int z => intEncode (elemBits c) (fmtUnsigned (dOut d)) z
  | .fp n => ((fmtOf c).getD f32).encode (dMode d) n
  | .ex a =>
    let (n, f) := a.finish (dMode d) open_
    let (r, g) := ((fmtOf c).getD f32).encode (dMode d) n
    (r, f ||| g)

/-! ### A chunk -/

/-- Element k of a member's contribution bytes. -/
def elemAt (d : Nat) (bs : List Byte) (k : Nat) : Nat := leAt (dWidth d * k) (dWidth d) bs

/-- The partials of a region's n elements, with their flags; `cs` gives each contributing member's bytes of the region. -/
def reduceRegion (d m n : Nat) (cs : List (Nat × List Byte)) : List (Option Part) × Nat :=
  let es := (List.range n).map fun k => reduceElem d m (cs.map fun c => (c.1, elemAt d c.2 k))
  (es.map (·.1), es.foldl (fun f e => f ||| e.2) 0)

/-- Adds the halls' stored partials of one element in ascending hall index (R572). -/
def addHalls (d : Nat) (own : Option Part) (halls : List (List Byte)) : Option Part × Nat :=
  halls.foldl (fun (acc : Option Part × Nat) bs => let (z, g) := join? d acc.1 (some (Part.load d bs)); (z, acc.2 ||| g)) (own, 0)

/-- Non-frontier partials that a region holds (R547): the complete subtrees that hold a contribution, are not joined to their sibling, and do
not lie wholly below j. `done` lists the members that have contributed or been excused, `cont` those that contributed. -/
def heldCount (done cont : List Nat) (j : Nat) : Nat → Nat → Nat → Nat
  | 0, _, _ => 0
  | n + 1, a, b =>
    if (done.filter fun i => decide (a ≤ i) && decide (i < b)).length = b - a then
      (if b ≤ j then 0 else if cont.any fun i => decide (a ≤ i) && decide (i < b) then 1 else 0)
    else if b - a ≤ 1 then 0
    else
      let m := a + 2 ^ (clog2 (b - a) - 1)
      heldCount done cont j n a m + heldCount done cont j n m b

/-- The lowest member index below m that is not listed (R547), m when all are. -/
def lowestMissing (done : List Nat) (m : Nat) : Nat := ((List.range m).find? fun i => !done.contains i).getD m

end Sys2Proof
end

