-- ==== Sys2Proof/Machine/FenCore.lean ====
section
/-! DEFINITION. Fen's rounds (chapter 11): what Fen sends, chunks and their results, records, the end of a round, fences. -/
namespace Sys2Proof.Machine

/-! ### Rounds and chunks -/

def fenKey (die g : Nat) : Nat := 2 ^ 20 * die + g % 2 ^ 20
/-- The round of a group in a die's collective table (R522: it is open). -/
def State.fenRound (s : State) (die g : Nat) : Option Round := s.fen.rounds.find? fun r => r.die == die && r.group == g
def Round.same (r q : Round) : Bool := q.die == r.die && q.group == r.group
/-- Stores a round in its table. -/
def State.setRound (s : State) (r : Round) : State :=
  { s with fen := { s.fen with rounds := if s.fen.rounds.any r.same then s.fen.rounds.map fun q => if r.same q then r else q else s.fen.rounds ++ [r] } }
def State.fenHist (s : State) (die g : Nat) : FenHist := Tbl.getD s.fen.hist FenHist.init (fenKey die g)
def State.setHist (s : State) (die g : Nat) (h : FenHist) : State :=
  { s with fen := { s.fen with hist := Tbl.set s.fen.hist FenHist.init (fenKey die g) h } }

def Round.m (r : Round) : Nat := r.feids.length
def Round.chunk (r : Round) (c : Nat) : Chunk := Tbl.getD r.chunks Chunk.init c
def Round.setChunk (r : Round) (c : Nat) (ch : Chunk) : Round := { r with chunks := Tbl.set r.chunks Chunk.init c ch }
/-- The chunks of the stripe (R512). -/
def Round.stripe (r : Round) : List Nat := (List.range (dCount r.desc)).map (dFirst r.desc + ·)
/-- The members that contribute (R510). -/
def Round.contributors (r : Round) : List Nat := (List.range r.m).filter (contributes r.desc)
/-- The halls whose partials the root takes, 1 to HALLS − 1 (R535). -/
def Round.hallList (r : Round) : List Nat := if isRoot r.desc then (List.range (dHalls r.desc - 1)).map (· + 1) else []
/-- The cascade port of hall h at the root (R535). -/
def Round.hallPort (r : Round) (h : Nat) : Nat := dXport r.desc + h - 1
/-- The contributor number of hall h. -/
def hallWho (h : Nat) : Nat := 2 ^ 20 + h
/-- The unit of a partition in PMC (R745). -/
def Round.pmcUnit (r : Round) : Nat := 2048 * r.die + dPart r.desc

/-- The regions accepted from a contributor. -/
def Chunk.regionsOf (ch : Chunk) (who : Nat) : List Nat := (ch.got.filter fun x => x.who == who).map (·.region)
def Chunk.has (ch : Chunk) (who rg : Nat) : Bool := ch.got.any fun x => x.who == who && x.region == rg

/-- The regions that make up a contributor's contribution to chunk c: a hall's are those of its U limbs (R571). -/
def regionKeys (d c : Nat) (hall : Bool) : List Nat :=
  if hall then (List.range (dU d)).flatMap fun k => (List.range (dRegions d c)).map (16 * k + ·) else List.range (dRegions d c)

/-- Has every member contributed to every region or been excused, and every hall sent its partial (R548, R572)? -/
def Round.complete (r : Round) (c : Nat) (ch : Chunk) : Bool :=
  (r.contributors.all fun i => r.fenced.contains i || (regionKeys r.desc c false).all fun k => ch.has i k) &&
  (r.hallList.all fun h => (regionKeys r.desc c true).all fun k => ch.has (hallWho h) k)

/-- The partials of a chunk's elements, in order, with their flags; the halls' added at the root (R546, R572). -/
def chunkParts (r : Round) (c : Nat) (ch : Chunk) : List (Option Part) × Nat :=
  let d := r.desc
  let own := (List.range (dRegions d c)).map fun k =>
    reduceRegion d r.m (dRegionLen d c k / max 1 (dWidth d)) ((ch.got.filter fun x => x.region == k && decide (x.who < 2 ^ 20)).map fun x => (x.who, x.data))
  let parts := own.flatMap (·.1)
  let f := own.foldl (fun f x => f ||| x.2) 0
  if !isRoot d then (parts, f)
  else
    let bytes := r.hallList.map fun h => (regionKeys d c true).flatMap fun k =>
      match ch.got.find? fun x => x.who == hallWho h && x.region == k with | some x => x.data | none => []
    let w := dAccBytes d
    let js := (parts.zip (List.range parts.length)).map fun x => addHalls d x.1 (bytes.map fun b => slice (w * x.2) w b)
    (js.map (·.1), js.foldl (fun f x => f ||| x.2) f)

/-- The bytes of a chunk's result with their flags (R548), none when an element has no contribution; a hall spine's result is its stored partial
(R571). `open_` gives the sign of a zero that R503 leaves open. -/
def chunkResult (d : Nat) (open_ : Nat → Bool) (ps : List (Option Part)) (f : Nat) : Option (List Byte × Nat) :=
  if ps.any Option.isNone then none
  else if isHall d then some (ps.flatMap fun p => match p with | some p => p.store d | none => [], f)
  else
    let es := (ps.zip (List.range ps.length)).map fun x => match x.1 with | some p => finishElem d (open_ x.2) p | none => (0, 0)
    some (es.flatMap fun e => leBytes (dWidth d) e.1, es.foldl (fun f e => f ||| e.2) f)

/-! ### What Fen sends (R520, R552, R553) -/

/-- The payload of COLL_CTRL (R520). -/
def ctrlBytes (op status round chunk regions retry epoch members : Nat) : List Byte :=
  beBytes 1 op ++ beBytes 1 status ++ beBytes 2 round ++ beBytes 2 chunk ++ beBytes 2 regions ++ beBytes 4 retry ++ beBytes 4 epoch ++
  beBytes 4 members ++ beBytes 44 0

/-- A packet from Fen with the fields that R552 gives every one of them. -/
def State.fenPkt (s : State) (cls typ flags gen msgId offset : Nat) (payload : List Byte) : Pkt :=
  { cls := cls, typ := typ, flags := flags + 2 ^ fSrcSpine, dst := 0, src := s.spineAddr 1, gen := gen, msgId := msgId % 2 ^ 32, offset := offset
    plen := payload.length, payload := payload }

/-- The packet with its group stream's next SEQ, which goes on by one (R205). -/
def State.fenSeq (s : State) (g : Nat) (p : Pkt) : Pkt × State :=
  if groupStream p then
    let q := Tbl.getD s.fen.seq 0 g
    ({ p with seq := q }, { s with fen := { s.fen with seq := Tbl.set s.fen.seq 0 g ((q + 1) % 2 ^ 24) } })
  else (p, s)

/-- Fen of a die sends one packet on a cascade port to Fen of the spine at its far end (R569–R573). -/
def State.fenToPort (s : State) (die lp : Nat) (p : Pkt) : State :=
  match (s.link lp).farId with
  | some id => s.originateOn die lp { p with dst := farSpine id 1, flags := p.flags + 2 ^ fDstSpine } none
  | none => s

/-- Sends a packet of a round through the replicator (R553, R306): to the members listed, or to all; fenced members get no copy (R307). -/
def State.fenSend (s : State) (r : Round) (who : Option (List Nat)) (p : Pkt) : State :=
  let feids := who.map fun l => l.map fun i => r.feids.getD i 0
  s.replicate r.die r.group r.gen p fun m => match feids with | some l => l.contains m | none => true

/-- The COLL_CTRL packet of a round. -/
def State.ctrlPkt (s : State) (g gen round m op status chunk regions retry : Nat) : Pkt :=
  let e := if op = 2 ∨ op = 3 ∨ op = 9 then s.fenceEpoch else 0
  s.fenPkt 7 0x13 0 gen (g * 4096 + chunk % 4096) 0 (ctrlBytes op status round chunk regions retry e (if op = 2 then m else 0))

/-- Traces a Fen round event: a COLL_CTRL sent, or a recall as 0x80 (R673). -/
def State.fenTrace (s : State) (r : Round) (code c : Nat) : State :=
  s.trace 6 code (locPage (pg 0x0D r.die)) 0x0D r.die (leBytes 4 r.group ++ leBytes 2 r.round ++ leBytes 2 c)

/-- Sends COLL_CTRL to members of a round (R520, R521). -/
def State.sendCtrl (s : State) (r : Round) (op : Nat) (who : Option (List Nat)) (status : Nat) (chunk : Nat := 0) (regions : Nat := 0)
    (retry : Nat := 0) : State :=
  (s.fenSend r who (s.ctrlPkt r.group r.gen r.round r.m op status chunk regions retry)).fenTrace r op chunk

/-- Sends COLL_CTRL to hall h's spine, or to the root (R569–R573). -/
def State.sendHall (s : State) (r : Round) (lp op status : Nat) (chunk : Nat := 0) (regions : Nat := 0) (retry : Nat := 0) : State :=
  (s.fenToPort r.die lp (s.ctrlPkt r.group r.gen r.round r.m op status chunk regions retry)).fenTrace r op chunk

/-- Sends COLL_CTRL to every hall spine listed. -/
def State.sendHalls (s : State) (r : Round) (hs : List Nat) (op status : Nat) (chunk : Nat := 0) : State :=
  hs.foldl (fun s h => s.sendHall r (r.hallPort h) op status chunk) s

/-! ### The end of a round (R530, R566, R567) -/

/-- n slots of a round's partition are taken, or returned. -/
def State.partUse (s : State) (r : Round) (take : Bool) : State :=
  let p := dPart r.desc
  let upd := fun a f => let u := s.fld a f; s.setFld a f (if take then u + r.slots else u - r.slots)
  if r.pass then s
  else if r.tier1 then upd (Reg.FADM_PART_T1_USED r.die p) ⟨23, 0⟩
  else upd (Reg.FADM_PART_STATUS r.die p) Fld.FADM_PART_STATUS_SRAM_USED

/-- A round leaves the table and its slots return. -/
def State.dropRound (s : State) (r : Round) : State :=
  let s := s.partUse r false
  { s with fen := { s.fen with rounds := s.fen.rounds.filter fun q => !r.same q } }

/-- The flags of a round's chunks. -/
def Round.sticky (r : Round) : Nat := r.chunks.foldl (fun f x => f ||| x.2.flags) 0

/-- Posts the completion event of a round that ends (R566, R567): none where no valid descriptor names a partition. -/
def State.postRound (s : State) (r : Round) (status flags : Nat) : State :=
  if descOk r.desc then
    s.post (s.fld (Reg.FADM_PART_CFG r.die (dPart r.desc)) Fld.FADM_PART_CFG_EVENT_RING)
      ⟨1, 0x0D, r.group, status, 0, r.sticky, none, s.short, 0, leBytes 8 (r.round + flags * 65536)⟩
  else s

/-- Ends a round with ABORT (R567): every unfenced member, and in a cross-hall round the halls or the root, hear of it. -/
def State.fenAbort (s : State) (r : Round) (reason : Nat) (log : Bool := true) : State :=
  let s := s.sendCtrl r 9 none reason
  let s := if isRoot r.desc then s.sendHalls r r.hallList 9 reason else if isHall r.desc then s.sendHall r (dXport r.desc) 9 reason else s
  let s := if log then s.logErr (pg 0x0D r.die) 0x0101 2 (locPage (pg 0x0D r.die)) else s
  (s.dropRound r).postRound r 0x0105 0

/-- The payload of a completion record (R217, R565). -/
def State.recordBytes (s : State) (r : Round) (flags : Nat) : List Byte :=
  let d := r.desc
  let valid := descOk d
  let first := if valid then dFirst d else 0
  let rc := if r.pass then 0 else r.chunks.foldl (fun x c => x ^^^ c.2.check) 0
  let ex := r.excused.length
  let ns := s.nowNs
  beBytes 2 1 ++ beBytes 1 flags ++ beBytes 1 (if r.pass then 0 else r.sticky) ++ beBytes 4 (r.group * 4096 + first) ++
  beBytes 2 (if valid then dCount d else 1) ++ beBytes 1 r.gen ++ beBytes 1 0 ++ beBytes 4 r.m ++ beBytes 4 (r.m - ex) ++ beBytes 4 ex ++
  beBytes 4 s.fenceEpoch ++ beBytes 6 (ns / 1000000000) ++ beBytes 4 (ns % 1000000000) ++ beBytes 4 rc ++ beBytes 22 0

/-- The COMPLETION packet of a record. -/
def State.recordPkt (s : State) (r : Round) (body : List Byte) : Pkt :=
  s.fenPkt (if descOk r.desc then dTc r.desc else 5) 0x04 (2 ^ fLast) r.gen (beAt 4 4 body) 0 body

/-- Sends a record to every unfenced member, and from a root to every hall spine (R564, R573), and keeps it for repeats (R555). -/
def State.sendRecord (s : State) (r : Round) (body : List Byte) : State :=
  let (p, s) := s.fenSeq r.group (s.recordPkt r body)
  let s := s.fenSend r none p
  let s := r.hallList.foldl (fun s h => s.fenToPort r.die (r.hallPort h) p) s
  s.setHist r.die r.group { s.fenHist r.die r.group with record := some body }

/-- A round ends with its final record sent (R566). -/
def State.endRound (s : State) (r : Round) (flags : Nat) : State := (s.dropRound r).postRound r 0 flags

/-- FLAGS of a record (R217). -/
def Round.flags (r : Round) (verified : Bool) : Nat := b2n verified + 2 * b2n r.pass + 4 * b2n r.recalled + 8 * b2n r.unchecked

/-- Sends the records that are due (R564): the final one when every chunk is finished, which ends the round; the one with VERIFIED = 0, once, when
every chunk has been released. A hall spine's records are the root's (R573). -/
def State.fenProgress (s : State) (r : Round) : State :=
  let s := s.setRound r
  if isHall r.desc || r.waiting then s
  else if r.stripe.all fun c => (r.chunk c).finished then (s.sendRecord r (s.recordBytes r (r.flags true))).endRound r (r.flags true)
  else if !r.provSent && r.stripe.all fun c => (r.chunk c).released then
    let r := { r with provSent := true }
    (s.setRound r).sendRecord r (s.recordBytes r (r.flags false))
  else s

/-! ### Pass-through (R525) -/

/-- Sends the record of a pass-through round once every member has sent DONE or is fenced, and frees its entry. -/
def State.passCheck (s : State) (r : Round) : State :=
  if (List.range r.m).all fun i => r.done.contains i || s.fencedEp (r.feids.getD i 0) then
    let r := { r with excused := (List.range r.m).filter fun i => !r.done.contains i }
    (s.sendRecord r (s.recordBytes r 3)).endRound r 3
  else s.setRound r

/-! ### Finishing a chunk (R536, R542, R548, R549) -/

/-- The archived arrival record and what Barometer takes of it (R542, R652, R692). The median of an even number of arrivals is not stated: a
free value between the two middle ones. -/
def State.arrivalRecord (s : State) (r : Round) (c : Nat) (ch : Chunk) : State :=
  let mine := ch.arrived.filter fun a => decide (a.1 < 2 ^ 20)
  if mine.isEmpty then s
  else
    let ts := (mine.map (·.2)).mergeSort (fun a b => decide (a ≤ b))
    let n := ts.length
    let lo := ts.getD ((n - 1) / 2) 0
    let hi := ts.getD (n / 2) 0
    let (v, s) := if lo = hi then (0, s) else s.draw
    let med := lo + v % (hi - lo + 1)
    let late := ((mine.filter fun a => decide (med + 100 * dStraggle r.desc < a.2)).map (·.1)).mergeSort (fun a b => decide (a ≤ b))
    let ids := late.take 8
    let entry := leBytes 4 r.group ++ leBytes 2 r.round ++ leBytes 2 c ++ leBytes 8 (shortForm (med * 2 ^ 32)) ++
      leBytes 8 (shortForm (ts.getD (n - 1) 0 * 2 ^ 32)) ++ leBytes 1 (min 255 late.length) ++ leBytes 7 0 ++
      ((List.range 8).flatMap fun i => leBytes 4 (ids.getD i 0xFFFFFFFF))
    let s := s.archive 4 entry 0 (!s.timeLocked)
    ids.foldl (fun s i =>
      let key := feidKey (r.feids.getD i 0)
      let s := s.charge (objEndpoint key) 13 1
      { s with baro := { s.baro with late := s.baro.late ++ [(key, r.group)] } }) s

/-- A chunk is finished (R536). -/
def State.finishChunk (s : State) (r : Round) (c : Nat) : Round × State :=
  let ch := r.chunk c
  if ch.finished then (r, s) else (r.setChunk c { ch with finished := true }, s.arrivalRecord r c ch)

/-- The logical reducer of chunk c (R514), another one after each recall (R561). -/
def logicalOf (c : Nat) (ch : Chunk) : Nat := (c + ch.recalls) % 16
/-- The physical instance that serves a logical reducer (R721). -/
def State.physOf (s : State) (die l : Nat) : Nat := s.fld (Reg.CHK_FEN_MAP die l) Fld.CHK_FEN_MAP_PHYS

/-- Flags are ORed into the sticky register of a reducer (R507, R549). -/
def State.orSticky (s : State) (phys f : Nat) : State :=
  let a := Reg.FEN_STICKY phys
  s.wr a (s.rd a ||| BitVec.ofNat 32 (f % 16))

/-- Reduces a chunk once it is complete (R548): its first result is `wrong` where the primary gives wrong bits or flags, and else what R472 gives. A chunk
that every member is excused of finishes with nothing to release. -/
def State.tryFinish (s : State) (r : Round) (c : Nat) (wrong : Option RunOut) : Round × State :=
  let ch := r.chunk c
  if ch.result.isSome || ch.finished || !r.complete c ch then (r, s)
  else
    let (ps, f) := chunkParts r c ch
    let base := s.free
    match chunkResult r.desc (fun k => Config.freeNat (base + k) % 2 == 1) ps f with
    | none => s.finishChunk (r.setChunk c { ch with released := true }) c
    | some (res, f) =>
      let s := if isRoot r.desc && dExactSum r.desc then { s with free := base + ps.length } else s
      let out := wrong.getD ⟨res, f⟩
      let ch := { ch with result := some (out, ⟨res, f⟩), flags := out.flags, verdict := if ch.checked then 1 else 0 }
      (r.setChunk c ch, (s.inc (Cnt.FEN_CHUNKS ch.phys)).orSticky ch.phys out.flags)

/-- Judges every chunk again after members have been excused: a chunk nobody is left to contribute to finishes too (R539, R548). -/
def State.sweep (s : State) (r : Round) : Round × State :=
  r.stripe.foldl (fun (acc : Round × State) c => acc.2.tryFinish acc.1 c none) (r, s)

/-! ### Fences (R539–R541, R554) -/

/-- Members counted in EXCUSED, each once (R540). -/
def State.excuse (s : State) (r : Round) (is : List Nat) : Round × State :=
  let new := is.filter fun i => !r.excused.contains i
  ({ r with excused := r.excused ++ new }, s.addCnt (Cnt.FADM_EXCUSED r.die) new.length)

/-- A round reads the fence list (R539, R554). -/
def State.fenceRound (s : State) (r : Round) : State :=
  let r := { r with epoch := s.fenceEpoch }
  if r.pass then s.passCheck r
  else
    let new := (List.range r.m).filter fun i => !r.fenced.contains i && s.fencedEp (r.feids.getD i 0)
    if new.isEmpty then s.setRound r
    else
      let owes := fun i => contributes r.desc i && !(r.stripe.all fun c => (r.chunk c).arrived.any fun a => a.1 == i)
      let pend := !(r.stripe.all fun c => (r.chunk c).released)
      let (r, s) := s.excuse { r with fenced := r.fenced ++ new } (new.filter fun i => owes i || (receives r.desc i && pend))
      if dKind r.desc = 2 ∧ new.contains (dRoot r.desc) ∧ owes (dRoot r.desc) then s.fenAbort r 3
      else
        let (r, s) := s.sweep r
        s.fenProgress r

/-- Every round reads a change of the fence list (R539). -/
def State.fenFences (s : State) : State :=
  s.fen.rounds.foldl (fun s r => match s.fenRound r.die r.group with | some r => s.fenceRound r | none => s) s

/-! ### Changes of the group table and of cascade links (R518, R573) -/

/-- A group of both dies has been inserted, removed, or its GEN has changed (R518): its rounds end silently, their slots return, and its history is
cleared. -/
def State.groupChanged (s : State) (g : Nat) : State :=
  let s := (s.fen.rounds.filter fun r => r.group == g).foldl (fun s r => s.dropRound r) s
  (s.setHist 0 g FenHist.init).setHist 1 g FenHist.init

/-- A cascade link is lost: cross-hall rounds that use it end with HALL_LOST (R573). -/
def State.hallLost (s : State) (lp : Nat) : State :=
  (s.fen.rounds.filter fun r => !r.pass && ((isHall r.desc && dXport r.desc == lp) || r.hallList.any fun h => r.hallPort h == lp)).foldl
    (fun s r => match s.fenRound r.die r.group with | some r => s.fenAbort r 6 | none => s) s

end Sys2Proof.Machine
end

