-- ==== Sys2Proof/Machine/ChkCore.lean ====
section
/-! DEFINITION. The maps from logical to physical Fen instances and their changes (R720–R722, R727, R731, R740). -/
namespace Sys2Proof.Machine

/-- The spare instance of a die: 17d + 16 at reset, later the one that CHK_RETURN made it (R721, R741). -/
def State.spareInst (s : State) (d : Nat) : Nat := match Tbl.find s.chk.spareAt d with | some n => n - 1 | none => 17 * d + 16
/-- Is an instance its die's spare? -/
def State.isSpare (s : State) (n : Nat) : Bool := s.spareInst (n / 17) == n
def spareFld (d : Nat) : Fld := if d = 0 then Fld.CHK_STATUS_SPARE0 else Fld.CHK_STATUS_SPARE1
/-- The state of a die's spare: 0 SHADOW, 1 SUBSTITUTING, 2 TESTING, 3 ABSENT. -/
def State.spareState (s : State) (d : Nat) : Nat := s.fld Reg.CHK_STATUS (spareFld d)
def State.setSpare (s : State) (d st : Nat) : State := s.setFld Reg.CHK_STATUS (spareFld d) st

/-- Does instance n hold an open chunk (R721)? -/
def State.holdsChunk (s : State) (n : Nat) : Bool :=
  s.fen.rounds.any fun r => !r.pass && r.chunks.any fun c => c.2.first.isSome && !c.2.finished && c.2.phys == n

/-- The die and logical reducer that an instance serves of its own (R720), if any. -/
def State.servedBy (s : State) (n : Nat) : Option (Nat × Nat) :=
  let d := n / 17
  ((List.range 16).find? fun l => s.physOf d l == n && (s.flag (Reg.FEN_STATUS n) Fld.FEN_STATUS_IN_SERVICE && s.fld (Reg.FEN_STATUS n) Fld.FEN_STATUS_LOGICAL == l)).map
    fun l => (d, l)

/-- An instance out of the work shows it (FEN_STATUS): a spare is a spare again, in state SHADOW unless it is retired. -/
def State.outOfWork (s : State) (n : Nat) : State :=
  let a := Reg.FEN_STATUS n
  let s := (s.setFlag a Fld.FEN_STATUS_IN_SERVICE false).setFld a Fld.FEN_STATUS_LOGICAL 0
  if s.isSpare n then
    let s := s.setFlag a Fld.FEN_STATUS_SPARE true
    if s.spareState (n / 17) = 3 then s else s.setSpare (n / 17) 0
  else s

/-- An instance that no logical reducer names leaves the work when it holds no open chunk (R721). -/
def State.leaveWork (s : State) (n : Nat) : State :=
  if s.holdsChunk n || (List.range 16).any fun l => s.physOf (n / 17) l == n then s else s.outOfWork n

/-- Ends the time-sharing of a logical reducer and its partner (R722). -/
def State.unshare (s : State) (d l : Nat) : State :=
  let a := Reg.CHK_FEN_MAP d l
  if s.fld a Fld.CHK_FEN_MAP_MODE = 1 then
    let b := Reg.CHK_FEN_MAP d (s.fld a Fld.CHK_FEN_MAP_PARTNER)
    [a, b].foldl (fun s a => (s.setFld a Fld.CHK_FEN_MAP_MODE 0).setFld a Fld.CHK_FEN_MAP_PARTNER 0) s
  else s

/-- Handover: logical reducer l of die d is served by instance n (R721). Its open chunks finish where they are, and a
logical reducer that shares its instance moves with it. -/
def State.handover (s : State) (d l n : Nat) : State :=
  let old := s.physOf d l
  let rides := (List.range 16).filter fun k => k != l && s.physOf d k == old && s.fld (Reg.FEN_STATUS old) Fld.FEN_STATUS_LOGICAL == l
  let s := if rides.isEmpty then s.unshare d l else rides.foldl (fun s k => s.setFld (Reg.CHK_FEN_MAP d k) Fld.CHK_FEN_MAP_PHYS n) s
  let s := s.setFld (Reg.CHK_FEN_MAP d l) Fld.CHK_FEN_MAP_PHYS n
  let a := Reg.FEN_STATUS n
  let s := ((s.setFlag a Fld.FEN_STATUS_IN_SERVICE true).setFlag a Fld.FEN_STATUS_SPARE false).setFld a Fld.FEN_STATUS_LOGICAL l
  if old = n then s else s.leaveWork old

/-- Logical reducer l shares the instance of (l + 8) mod 16 of its die (R722). -/
def State.timeShare (s : State) (d l : Nat) : State :=
  let k := (l + 8) % 16
  let old := s.physOf d l
  let s := s.setFld (Reg.CHK_FEN_MAP d l) Fld.CHK_FEN_MAP_PHYS (s.physOf d k)
  let s := [(l, k), (k, l)].foldl (fun s x =>
    (s.setFld (Reg.CHK_FEN_MAP d x.1) Fld.CHK_FEN_MAP_MODE 1).setFld (Reg.CHK_FEN_MAP d x.1) Fld.CHK_FEN_MAP_PARTNER x.2) s
  (s.inc Cnt.CHK_TIMESHARES).leaveWork old

/-- A logical reducer of a die that time-shares the instance of its partner (R722), if there is one. -/
def State.rider (s : State) (d : Nat) : Option Nat :=
  (List.range 16).find? fun l => s.fld (Reg.CHK_FEN_MAP d l) Fld.CHK_FEN_MAP_MODE == 1 && s.fld (Reg.FEN_STATUS (s.physOf d l)) Fld.FEN_STATUS_LOGICAL != l

/-- The result of a test (CHK_IFT_RESULT, CHK_IFT_TIME): 1 pass, 2 fail, 3 aborted. -/
def State.iftResult (s : State) (unit result : Nat) : State :=
  let s := (s.setFld Reg.CHK_IFT_RESULT Fld.CHK_IFT_RESULT_UNIT unit).setFld Reg.CHK_IFT_RESULT Fld.CHK_IFT_RESULT_RESULT result
  s.wrWide Reg.CHK_IFT_TIME s.short 2

def unitFen (n : Nat) : Nat := 64 + n
def unitMac (r c : Nat) : Nat := 98 + 17 * r + c
def unitCore (k : Nat) : Nat := 370 + k

/-- Stores a test under way in place of the one of its unit. -/
def State.setTest (s : State) (t : IftTest) : State :=
  let f := fun (q : IftTest) => if q.unit == t.unit then t else q
  { s with chk := { s.chk with tests := s.chk.tests.map f } }

/-- A test that uses a die's spare as stand-in aborts, and its unit returns by handover (R740); the test waits for the next pass. -/
def State.abortStandIn (s : State) (d : Nat) : State :=
  match s.chk.tests.find? fun t => t.running && t.standIn && decide (64 ≤ t.unit) && decide (t.unit < 98) && (t.unit - 64) / 17 == d with
  | none => s
  | some t =>
    let s := s.setTest { t with running := false, standIn := false, since := s.time.ticks }
    match s.servedBy (s.spareInst d) with
    | some (d, l) => (s.handover d l (t.unit - 64)).iftResult t.unit 3
    | none => s.iftResult t.unit 3

/-- The margin step of a unit (R730, R732). -/
def State.marginStep (s : State) (u : Nat) : Nat := s.fld (Reg.CHK_MARGIN u) Fld.CHK_MARGIN_STEP
/-- Firmware rewrites the current slot of the settings record (R790): SEQ counts, VERSION and SET_VER are the running image's. A record of another SET_VER
is copied to the previous slot first, so that the previous slot always holds the last one written under a different SET_VER (R792). -/
def State.writeSettings (s : State) (f : SetRec → SetRec) : State :=
  let c := s.cfg
  let v := (s.rd Reg.CFG_IMAGE).toNat
  let r := { f c.settings with setVer := Config.setVer v, version := v, seq := c.settings.seq + 1 }
  let p := match c.current with | some x => if x.setVer = r.setVer then c.previous else some x | none => c.previous
  { s with cfg := { c with settings := r, current := some r, previous := p } }

/-- A unit reaches a step: CHK_MARGIN shows it, and firmware writes it into the settings record's margin section (R783). -/
def State.setStep (s : State) (u st : Nat) : State :=
  let s := s.setFld (Reg.CHK_MARGIN u) Fld.CHK_MARGIN_STEP st
  if Tbl.getD s.cfg.settings.margin 0 u = st then s else s.writeSettings fun r => { r with margin := Tbl.set r.margin 0 u st }
def State.setPending (s : State) (u : Nat) (b : Bool) : State := s.setFlag (Reg.CHK_MARGIN u) Fld.CHK_MARGIN_PENDING b

/-- A substitution has been made: counted, logged, SUBSTITUTED set (R743). -/
def State.substituted (s : State) (loc : Nat) : State := ((s.inc Cnt.CHK_SUBSTITUTIONS).irq (pg 0x12 0) 2).logErr (pg 0x12 0) 0x0101 0 loc

/-- Time-sharing ends by handover to the die's spare once that is free (R722), unless a throttled test has the logical reducer share. -/
def State.endSharing (s : State) (d : Nat) : State :=
  let test := s.chk.tests.any fun t => t.running && t.throttled && decide (64 ≤ t.unit) && decide (t.unit < 98) && (t.unit - 64) / 17 == d
  match s.rider d with
  | some l => if s.spareState d = 0 ∧ !test then (s.setSpare d 1).handover d l (s.spareInst d) else s
  | none => s

/-- Retires a Fen instance (R721, R722, R731): a spare is ABSENT; an instance in service is replaced by its die's spare, or where that is not free
shares another's (`share`) or waits with PENDING at step 4. -/
def State.retireFen (s : State) (n : Nat) (share : Bool) : State :=
  let d := n / 17
  let u := unitFen n
  let s := s.abortStandIn d
  if s.isSpare n then
    let s := (s.setStep u 5).setPending u false
    match s.servedBy n with
    | some (d, l) => ((s.setSpare d 3).timeShare d l).leaveWork n
    | none => s.setSpare d 3
  else
    match s.servedBy n with
    | none => (s.setStep u 5).setPending u false
    | some (d, l) =>
      if s.spareState d = 0 then
        ((((s.setSpare d 1).handover d l (s.spareInst d)).setStep u 5).setPending u false).substituted (locFen n)
      else if share then ((s.timeShare d l).setStep u 5).setPending u false
      else (s.setStep u 4).setPending u true

/-! ### Units (R37, R720, R730) -/

/-- The kinds of unit that CHK manages. -/
inductive UnitKind where
  | port | fen | mac | core
  deriving DecidableEq, Repr

/-- The kind of unit u (R720). -/
def unitKind (u : Nat) : Option UnitKind :=
  if u < 64 then some .port else if u < 98 then some .fen else if u < 370 then some .mac else if u < 388 then some .core else none

/-- The location code of unit u. -/
def unitLoc (u : Nat) : Nat :=
  if u < 64 then locTile u 31 else if u < 98 then locFen (u - 64) else if u < 370 then locCx 0 (u - 98) else locCx 2 (u - 370)

/-- The unit that the location code of a whole tile or unit names, if CHK manages it. -/
def unitOfLoc (loc : Nat) : Option Nat :=
  let die := bits 15 14 loc
  let f := bits 10 5 loc
  if die < 2 then
    if bits 4 0 loc ≠ 31 then none
    else if f / 32 = die ∧ f / 8 = bits 13 11 loc then some f
    else if f < 34 ∧ f / 17 = die then some (unitFen f)
    else none
  else if die = 2 ∧ bits 2 0 loc = 7 then
    let u := bits 11 3 loc
    if bits 13 12 loc = 0 ∧ u < 272 then some (98 + u) else if bits 13 12 loc = 2 ∧ u < 18 then some (unitCore u) else none
  else none

/-- The TILE object of a unit (R684). -/
def objUnit (u : Nat) : Nat := objTile (unitLoc u)

/-- The next step for a unit at a step (R730): steps that its kind lacks are passed over. -/
def nextStep (k : UnitKind) (st : Nat) : Option Nat :=
  if st < 3 then some (st + 1)
  else if 5 ≤ st then none
  else match k with
    | .port => none
    | .mac => some 5
    | _ => some (if st = 3 then 4 else 5)

/-! ### MAC tiles (R723, R724) -/

def macRow (u : Nat) : Nat := (u - 98) / 17
def macCol (u : Nat) : Nat := (u - 98) % 17
def State.rowSpared (s : State) (r : Nat) : Bool := s.flag (Reg.CHK_PEAT_ROW r) Fld.CHK_PEAT_ROW_SPARED
def State.rowTesting (s : State) (r : Nat) : Bool := s.flag (Reg.CHK_PEAT_ROW r) Fld.CHK_PEAT_ROW_TESTING
def State.rowSkip (s : State) (r : Nat) : Nat := s.fld (Reg.CHK_PEAT_ROW r) Fld.CHK_PEAT_ROW_SKIP
def State.setRow (s : State) (r : Nat) (spared testing : Bool) (skip : Nat) : State :=
  let a := Reg.CHK_PEAT_ROW r
  ((s.setFlag a Fld.CHK_PEAT_ROW_SPARED spared).setFlag a Fld.CHK_PEAT_ROW_TESTING testing).setFld a Fld.CHK_PEAT_ROW_SKIP skip

/-- A MAC tile whose test has its row's stand-in gives it up (R740). -/
def State.abortMac (s : State) (r : Nat) : State :=
  match s.chk.tests.find? fun t => t.running && t.standIn && unitKind t.unit == some .mac && macRow t.unit == r with
  | none => s
  | some t => ((s.setTest { t with running := false, standIn := false, since := s.time.ticks }).setRow r false false 0).iftResult t.unit 3

/-- Does a row have its spare free for a substitution? -/
def State.rowFree (s : State) (u : Nat) : Bool := !s.rowSpared (macRow u) || s.rowSkip (macRow u) == macCol u

/-- A MAC tile leaves its row by SKIP (R723, R731); a row spared for another tile keeps it, with PENDING (R724). -/
def State.retireMac (s : State) (u : Nat) : State :=
  let r := macRow u
  if s.rowFree u then
    (((s.abortMac r).setRow r true false (macCol u)).setStep u 5).setPending u false |>.substituted (unitLoc u)
  else s.setPending u true

/-! ### Ergan cores (R725, R726) -/

def coreHalf (u : Nat) : Nat := (u - 370) / 9
def coreNum (u : Nat) : Nat := (u - 370) % 9
/-- The physical core of a half that is its spare. -/
def State.spareCore (s : State) (h : Nat) : Nat := match Tbl.find s.chk.spareCore h with | some k => k - 1 | none => 8
/-- The physical core that serves a logical core of a half; 19 when none does. -/
def State.coreOf (s : State) (h l : Nat) : Nat := match Tbl.find s.chk.coreMap (8 * h + l) with | some k => k - 1 | none => l
def State.setCore (s : State) (h l k : Nat) : State := { s with chk := { s.chk with coreMap := Tbl.put s.chk.coreMap (8 * h + l) (k + 1) } }
/-- The logical core that a physical core serves. -/
def State.coreServes (s : State) (h k : Nat) : Option Nat := (List.range 8).find? fun l => s.coreOf h l == k
def State.coreFailed (s : State) (h k : Nat) : Bool := bit k (s.fld (Reg.CHK_ERGAN h) Fld.CHK_ERGAN_FAILED)
def State.setFailed (s : State) (h k : Nat) (b : Bool) : State :=
  s.setFld (Reg.CHK_ERGAN h) Fld.CHK_ERGAN_FAILED (withBits k k (b2n b) (s.fld (Reg.CHK_ERGAN h) Fld.CHK_ERGAN_FAILED))
def State.spareFor (s : State) (h : Nat) : Nat := s.fld (Reg.CHK_ERGAN h) Fld.CHK_ERGAN_SPARE_FOR
def State.setSpareFor (s : State) (h l : Nat) : State := s.setFld (Reg.CHK_ERGAN h) Fld.CHK_ERGAN_SPARE_FOR l

/-- A test of a core of the half that has its spare as stand-in gives it up (R740). -/
def State.abortCore (s : State) (h : Nat) : State :=
  match s.chk.tests.find? fun t => t.running && t.standIn && unitKind t.unit == some .core && coreHalf t.unit == h with
  | none => s
  | some t =>
    let s := s.setTest { t with running := false, standIn := false, since := s.time.ticks }
    ((s.setCore h (s.spareFor h) (coreNum t.unit)).setSpareFor h 15).iftResult t.unit 3

/-- Is a half's spare core free: good, and serving none? -/
def State.coreFree (s : State) (h : Nat) : Bool := !s.coreFailed h (s.spareCore h) && s.spareFor h == 15

/-- Retires a core (R725, R731); `lost`: it has failed outright, so a half without a free spare is degraded (R726). -/
def State.retireCore (s : State) (u : Nat) (lost : Bool) : State :=
  let h := coreHalf u; let k := coreNum u
  let s := s.abortCore h
  match s.coreServes h k with
  | none => ((s.setFailed h k true).setStep u 5).setPending u false
  | some l =>
    if s.coreFree h then
      ((((s.setCore h l (s.spareCore h)).setSpareFor h l).setFailed h k true).setStep u 5).setPending u false |>.substituted (unitLoc u)
    else if lost then
      let s := if k = s.spareCore h then s.setSpareFor h 15 else s
      ((((s.setCore h l 19).setFailed h k true).setStep u 5).setPending u false).setFlag (Reg.CHK_ERGAN h) Fld.CHK_ERGAN_DEGRADED true
    else (s.setStep u 4).setPending u true

/-! ### Steps (R730, R731) -/

/-- Step 5 for a unit, by its kind. -/
def State.retireUnit (s : State) (u : Nat) : State :=
  match unitKind u with
  | some .fen => s.retireFen (u - 64) false
  | some .mac => s.retireMac u
  | some .core => s.retireCore u false
  | _ => s

/-- Barometer's next step for a unit (R711, R730, R731): the step decided, none when it has no further one or the row keeps the tile (R724). -/
def State.baroStep (s : State) (u : Nat) : Option Nat × State :=
  match unitKind u with
  | none => (none, s)
  | some k =>
    match nextStep k (s.marginStep u) with
    | none => (none, s)
    | some st =>
      if st < 5 then (some st, (s.inc Cnt.CHK_MARGIN_STEPS).setStep u st)
      else if k = .mac ∧ !s.rowFree u then (none, s.setPending u true)
      else (some 5, (s.inc Cnt.CHK_MARGIN_STEPS).retireUnit u)

end Sys2Proof.Machine
end

