-- ==== Sys2Proof/Machine/Copies.lean ====
section
/-! DEFINITION. A packet's copies inside the device: samplers, Drizzle and tag records, its ways over the rings, its frame's credits, and how a copy that
is spoiled ends. -/
namespace Sys2Proof.Machine

/-! ### Samplers (R276, R751) -/

def SampSt.init : SampSt := ⟨0, 0, 0, 0⟩

/-- Does the next frame begin a block of 2^n? A new setting begins one (DESIGN CHOICE: the spec does not say what becomes of the block under way). -/
def SampSt.fresh (x : SampSt) (n : Nat) : Bool := x.seen == 0 || x.log2n != n

/-- One frame meets a sampler of blocks of 2^n: is it taken, the sampler after it. `draw` is used at the start of a block. -/
def sample (x : SampSt) (n draw : Nat) : Bool × SampSt :=
  let x := if x.fresh n then ⟨0, draw % 2 ^ n, x.taken, n⟩ else x
  let hit := x.seen == x.pos
  (hit, { x with seen := (x.seen + 1) % 2 ^ n, taken := if hit then (x.taken + 1) % 2 ^ 32 else x.taken })

/-- A frame of a logical port meets the Drizzle sampler of the port and direction (R276, R277): a taken frame waits for its end. -/
def State.drizzleSee (s : State) (lp : Nat) (tx : Bool) (p : Pkt) (flight : Option Nat) : State :=
  let a := Reg.PT_DRZ_CFG (lpTile lp) (lpPort lp)
  let active := s.flag a (if tx then Fld.PT_DRZ_CFG_TX_EN else Fld.PT_DRZ_CFG_RX_EN)
  if !(active && bit p.cls (s.fld a Fld.PT_DRZ_CFG_CLASS_MASK)) then s else
  let n := min 20 (s.fld a Fld.PT_DRZ_CFG_LOG2_N)
  let k := lp2p lp
  let tbl := if tx then s.sw.txSamp else s.sw.rxSamp
  let x := Tbl.getD tbl SampSt.init k
  let g := Tbl.getD s.sw.drzGen 0 (lpTile lp)
  let (hit, y) := sample x n (Config.drizzle (s.fld (Reg.PT_CTRL (lpTile lp)) Fld.PT_CTRL_DRZ_SEED) g)
  let s := if x.fresh n then { s with sw := { s.sw with drzGen := Tbl.set s.sw.drzGen 0 (lpTile lp) (g + 1) } } else s
  let s := if tx then { s with sw := { s.sw with txSamp := Tbl.set s.sw.txSamp SampSt.init k y } }
    else { s with sw := { s.sw with rxSamp := Tbl.set s.sw.rxSamp SampSt.init k y } }
  if hit then
    { s with sw := { s.sw with drz := s.sw.drz ++ [⟨lp, tx, flight, 0, false, false, 0, pktLen p, n, s.short, x.taken, slice 0 256 (pktBytes p)⟩] } }
  else s

/-- The received frame of a packet is discarded for a reason of R221, or for none of them (0): its record will say so (R278). -/
def State.drizzleMark (s : State) (id reason : Nat) : State :=
  let f := fun (d : DrzFrame) => if d.flight == some id && !d.tx && !d.discarded then { d with discarded := true, reason := reason } else d
  { s with sw := { s.sw with drz := s.sw.drz.map f } }

/-- The frame of a packet ends: as received, or as sent on a logical port (R278). -/
def State.drizzleEnd (s : State) (id : Nat) (tx : Option Nat) (stomped discarded : Bool) (len : Nat) : State :=
  let mine := fun (d : DrzFrame) => d.flight == some id && tx == (if d.tx then some d.lport else none)
  let f := fun (d : DrzFrame) =>
    if mine d then { d with flight := none, endAt := s.time.ticks, stomped := stomped, discarded := d.discarded || discarded, length := len } else d
  { s with sw := { s.sw with drz := s.sw.drz.map f } }

/-! ### Tag records (R751–R756) -/

/-- The packet reaches a stage of R754 now. -/
def TagTrack.reach (t : TagTrack) (now k : Nat) : TagTrack :=
  { t with stages := Tbl.put t.stages k (min ((now - t.t0) * 1000 / 2 ^ 32) 0xFFFFFFFE) }
def State.stageAt (s : State) (f : Flight) (k : Nat) : Flight := { f with track := f.track.map fun t => t.reach s.time.now k }

/-- The highest stage reached. -/
def TagTrack.last (t : TagTrack) : Nat := (t.stages.map (·.1)).foldl max 0

/-- The 64 bytes of a tag record (R753). -/
def tagBytes (inPort out : Nat) (p : Pkt) (t : TagTrack) (flags reason : Nat) : List Byte :=
  leBytes 2 inPort ++ leBytes 2 out ++ leBytes 1 p.cls ++ leBytes 1 p.typ ++ leBytes 2 (pktLen p) ++ leBytes 1 flags ++ leBytes 1 reason ++
  leBytes 1 t.last ++ leBytes 1 0 ++ leBytes 4 p.src ++ leBytes 4 p.dst ++ leBytes 4 p.msgId ++ leBytes 8 (shortForm t.t0) ++
  ((List.range 6).flatMap fun k => leBytes 4 (Tbl.getD t.stages 0xFFFFFFFF (k + 1))) ++ leBytes 4 (p.seq % 2 ^ 24) ++ leBytes 4 0

/-- Tokens of a bucket after it has filled to now: units of 1/6,250 byte, rate in Mb/s, depth in bytes. -/
def fillBucket (tok at_ now rate depth : Nat) : Nat := min (tok + (now - at_) * rate) (depth * 6250)

/-- A record reaches PMC through the tag bucket and its buffer (R755, R756). -/
def State.tagArrive (s : State) (r : List Byte) : State :=
  let a := Reg.PMC_TAG_CAP
  let rate := 100 * min 256 (s.fld a Fld.PMC_TAG_CAP_RATE)
  let depth := 1024 * min 1024 (max 1 (s.fld a Fld.PMC_TAG_CAP_BURST))
  let have_ := fillBucket s.pmc.tok.tc s.pmc.tok.at_ s.time.ticks rate depth
  if have_ < 64 * 6250 then
    (({ s with pmc := { s.pmc with tok := ⟨have_, 0, s.time.ticks⟩ } }).inc Cnt.PMC_TAG_CAPPED).irq (pg 0x13 0) 3
  else
    let s := { s with pmc := { s.pmc with tok := ⟨have_ - 64 * 6250, 0, s.time.ticks⟩ } }
    let s := s.inc Cnt.PMC_TAG_RECORDS
    if 65536 ≤ s.pmc.tags.length then ({ s with pmc := { s.pmc with tags := s.pmc.tags.drop 1 ++ [r] } }).inc Cnt.PMC_TAG_LOST
    else { s with pmc := { s.pmc with tags := s.pmc.tags ++ [r] } }

/-- A recorded packet's record is made (R753). -/
def State.tagRecord (s : State) (f : Flight) (out : Nat) (cut stomped discarded func : Bool) (reason : Nat) : State :=
  match f.track with
  | none => s
  | some t =>
    let flags := b2n t.origin + 2 * b2n cut + 4 * b2n stomped + 8 * b2n discarded + 16 * b2n f.replica + 32 * b2n func
    s.tagArrive (tagBytes (f.from_.getD 0xFFFF) out f.pkt t flags reason)

/-- A packet that passed the header checks meets the tag sampler of its port (R751, R752): the packet and its track. -/
def State.tagSee (s : State) (lp : Nat) (p : Pkt) : Pkt × Option TagTrack × State :=
  let a := Reg.PMC_TAG_PORT (lp2p lp)
  let n := min 20 (s.fld a Fld.PMC_TAG_PORT_LOG2_M)
  let active := s.flag a Fld.PMC_TAG_PORT_RX_EN && bit p.cls (s.fld a Fld.PMC_TAG_PORT_CLASS_MASK)
  let x := Tbl.getD s.pmc.tagSamp SampSt.init (lp2p lp)
  let seed := s.fld Reg.PMC_CTRL Fld.PMC_CTRL_TAG_SEED
  let (hit, y) := if active then sample x n (Config.tagDraw seed s.pmc.tagDraws) else (false, x)
  let s := { s with pmc := { s.pmc with
      tagSamp := Tbl.set s.pmc.tagSamp SampSt.init (lp2p lp) y
      tagDraws := if active && x.fresh n then s.pmc.tagDraws + 1 else s.pmc.tagDraws } }
  let honoured := pflag p fTag && s.flag a Fld.PMC_TAG_PORT_HONOUR_IN
  if hit then (withHcrc (withFlag p fTag true), some ⟨pflag p fTag, s.time.now, []⟩, s.inc Cnt.PMC_TAGGED)
  else if honoured then (p, some ⟨true, s.time.now, []⟩, s.inc Cnt.PMC_TAGGED)
  else (p, none, s)

/-! ### Flights -/

def State.setFlights (s : State) (l : List Flight) : State := { s with sw := { s.sw with flights := l } }
/-- Is a flight the copy of id at a stage? -/
def Flight.isAt (f : Flight) (id : Nat) (st : Stage) : Bool := f.id == id && f.stage == st
/-- The packet being sent by cut-through on a logical port, if one is. -/
def State.sending (s : State) (lp : Nat) : Option Flight := s.sw.flights.find? fun f => f.stage == .cutting lp

/-! ### Ways over the rings (R235–R240) -/

/-- The stop of a port's tile on the rings of its quadrant. -/
def portStop (p : Nat) : Nat := p / 8 % 8 + 1
/-- The stop that a ring's link from stop k leads to: the clockwise ring runs from 0 to 8 and back to 0. -/
def nextStop (ccw : Bool) (k : Nat) : Nat := if ccw then (k + 8) % 9 else (k + 1) % 9
/-- The ring of pair k of a quadrant that reaches stop `dst` from stop `src` in fewer hops (R237). -/
def ringFor (quad k src dst : Nat) : Nat := 16 * quad + 2 * k + b2n (!decide ((dst + 9 - src) % 9 ≤ 4))
/-- A leg's key: its packet and its egress port. -/
def Leg.key (l : Leg) : Nat := 513 * l.id + (match l.out with | some p => p + 1 | none => 0)
/-- The way of a packet from its ingress port's tile to the switch stop, on pair (port mod 8) (R236); `ready` of its flits may enter. -/
def legIn (id p cls flits ready : Nat) : Leg := ⟨id, none, ringFor (p / 64) (p % 8) (portStop p) 0, portStop p, 0, cls, flits, ready, 0, 0⟩
/-- The way of a copy from the switch stop to its egress port's tile, on pair (port mod 8) (R236). -/
def legOut (id p cls flits : Nat) : Leg := ⟨id, some p, ringFor (p / 64) (p % 8) 0 (portStop p), 0, portStop p, cls, flits, 0, 0, 0⟩

def State.setLegs (s : State) (l : List Leg) : State := { s with sw := { s.sw with legs := l } }
def State.ringSt (s : State) (r : Nat) : RingSt := Tbl.getD s.sw.rings RingSt.init r
def State.setRingSt (s : State) (r : Nat) (x : RingSt) : State := { s with sw := { s.sw with rings := Tbl.set s.sw.rings RingSt.init r x } }

/-- Legs are given up: their flits leave the buffers, and the links they held are free. -/
def State.dropLegs (s : State) (which : Leg → Bool) : State :=
  let gone := (s.sw.legs.filter which).map Leg.key
  let keep := fun (k : Nat) => !gone.contains k
  { s with sw := { s.sw with
      legs := s.sw.legs.filter fun l => !which l
      rings := s.sw.rings.map fun x => (x.1, { x.2 with
        buf := x.2.buf.map fun b => (b.1, b.2.filter keep)
        hold := x.2.hold.filter fun h => keep h.2.1 }) } }

/-! ### Credits of received frames (R225, R330, R336, R669) -/

/-- Is a freeze in force (R669)? -/
def State.frozen (s : State) : Bool :=
  s.fld Reg.DEL_FROST_STATUS Fld.DEL_FROST_STATUS_STATE == 2 && s.flag Reg.DEL_FROST_STATUS Fld.DEL_FROST_STATUS_MODE

/-- Frees a received packet's credits (R330): the cumulative counts rise and a CREDIT frame tells the far end. A freeze holds those of
TC0–TC6 (R669). -/
def State.freeCredits (s : State) (lp : Nat) (shared : Bool) (c n : Nat) : State :=
  if s.frozen ∧ c ≤ 6 then { s with sw := { s.sw with credHeld := s.sw.credHeld ++ [(lp, shared, c, n)] } } else
  let l := s.link lp
  let bump := fun (x : List Nat) => x.modify c fun v => (v + n) % 65536
  let l := if shared then { l with ownShared := bump l.ownShared } else { l with ownPriv := bump l.ownPriv }
  (s.setLink lp l).control lp (creditBody l.ownPriv l.ownShared)

def State.setRx (s : State) (l : List RxFrame) : State := { s with sw := { s.sw with rx := l } }
def State.rxOf (s : State) (id : Nat) : Option RxFrame := s.sw.rx.find? fun r => r.id == id

/-- A received frame comes to a new state: its credits are freed once it is accepted and its packet has left staging (R336), and its record goes once
its tail is judged too. -/
def State.rxMod (s : State) (id : Nat) (f : RxFrame → RxFrame) : State :=
  match s.rxOf id with
  | none => s
  | some r =>
    let r := f r
    let free := r.accepted && r.left && !r.freed
    let r := { r with freed := r.freed || free }
    let s := if free then s.freeCredits r.lport r.shared r.pkt.cls (pktUnits r.pkt) else s
    s.setRx (s.sw.rx.flatMap fun x => if x.id = id then (if r.freed && r.tailed then [] else [r]) else [x])

/-- The packet of a received frame has left staging. -/
def State.leftStaging (s : State) (id : Nat) : State := s.rxMod id fun r => { r with left := true }

/-! ### Copies that are spoiled (R243, R246, R257, R266–R268) -/

/-- The stomped packet (R267): the complement of the correct PCRC. -/
def stompPkt (p : Pkt) : Pkt := { p with pcrc := 0xFFFFFFFF - pcrcOf p }

/-- A packet being sent by cut-through ends, whole or stomped (R266, R267): it is the last frame the link has sent. -/
def State.endCut (s : State) (lp : Nat) (f : Flight) (stomped : Bool) : State :=
  let p := if stomped then stompPkt f.pkt else f.pkt
  let l := s.link lp
  let q := (l.txSeq + 65535) % 65536
  let s := if stomped then
      (s.inc (Cnt.PT_STOMP_TX (lpTile lp) (lpPort lp))).setLink lp
        { l with replay := l.replay.map fun (r : Replay) => if r.lseq = q then { r with pkt := p, stomped := true } else r }
    else s
  let s := (s.emit (.tx lp (s.ownHeader lp 1 q) p true stomped)).drizzleEnd f.id (some lp) stomped false (pktLen p)
  s.tagRecord f lp true stomped false false 0

/-- One copy taken out of the device: stomped when it has begun to leave, and else discarded (R268). -/
def State.spoilOne (s : State) (reason : Nat) (f : Flight) : State :=
  match f.stage with
  | .cutting lp => s.endCut lp f true
  | .queued lp => (s.occSub lp f.pkt.cls (pktCells f.pkt)).tagRecord f 0xFFFF false false true false reason
  | _ => s.tagRecord f 0xFFFF false false true false reason

/-- Spoils the copies that `which` names; what is left at the switch of a packet with copies of its own, and a copy with no destination left, are no
copies (R753). -/
def State.spoil (s : State) (reason : Nat) (which : Flight → Bool) : State :=
  let mine := s.sw.flights.filter which
  let s := s.setFlights (s.sw.flights.filter fun f => !which f)
  let copies := mine.filter fun f => match f.stage with
    | .atSwitch => mine.length == 1
    | .toOutput _ => !f.dests.isEmpty
    | _ => true
  copies.foldl (fun s f => s.spoilOne reason f) s

/-- A whole packet is spoiled: every copy of it, and its flits on every ring. -/
def State.spoilAll (s : State) (id reason : Nat) : State :=
  ((s.drizzleMark id reason).spoil reason fun f => f.id == id).dropLegs fun l => l.id == id

/-- The logical port of a copy in its output queue or being sent. -/
def Stage.lport : Stage → Option Nat
  | .queued lp => some lp
  | .cutting lp => some lp
  | _ => none

/-- The copy that a switch output carries is lost, with those made of it. -/
def State.spoilOutput (s : State) (id output : Nat) : State :=
  let here := fun (st : Stage) => st == .toOutput output || (match st.lport with | some lp => lp / 128 == output | none => false)
  let s := (s.drizzleMark id 0).spoil 0 fun f => f.id == id && here f.stage
  let s := s.dropLegs fun l => l.id == id && (match l.out with | some p => p / 64 == output | none => false)
  s.setFlights (s.sw.flights.flatMap fun f =>
    if f.id = id ∧ f.stage = .atSwitch then
      let rest := f.dests.filter fun d => d.output != output
      if rest.isEmpty then [] else [{ f with dests := rest }]
    else [f])

/-- The copies of a packet for an egress port are lost on their way to its tile, or in it. -/
def State.spoilPort (s : State) (id p : Nat) : State :=
  let mine := fun (d : Dest) => match d with | .port lp _ _ => lp2p lp == p | .fn _ => false
  let s := (s.drizzleMark id 0).spoil 0 fun f => f.id == id && (match f.stage.lport with | some lp => lp2p lp == p | none => false)
  let s := s.dropLegs fun l => l.id == id && l.out == some p
  s.setFlights (s.sw.flights.flatMap fun f =>
    if f.id = id ∧ f.stage = .toOutput (p / 64) then
      let rest := f.dests.filter fun d => !mine d
      if rest.isEmpty ∧ f.got = pktFlits f.pkt then [] else [{ f with dests := rest }]
    else [f])

/-! ### Stale endpoints (R352–R354) -/

/-- A discard with STALE_GENERATION from an endpoint, on a leaf-facing port (R203, R352): a tracker counts it, and STALE_THRESH within 1 ms put the
endpoint on the sluice list. -/
def State.staleDiscard (s : State) (lp src : Nat) : State :=
  let key := feidKey src
  let now := s.time.ticks
  if now < s.fwt.genCommit + usTicks s.links.sluiceGrace ∧ s.fwt.genCommit ≠ 0 then s else
  let recent := fun (t : StaleTrk) => { t with at_ := t.at_.filter fun x => decide (now < x + usTicks 1000) }
  let live := (s.links.trackers.map recent).filter fun t => !t.at_.isEmpty
  let (t, rest) := match takeFirst (fun (t : StaleTrk) => t.key == key) live with
    | some (t, rest) => (some { t with at_ := t.at_ ++ [now] }, rest)
    | none => (if live.length < 64 then some ⟨key, [now]⟩ else none, live)
  match t with
  | none => { s with links := { s.links with trackers := live } }
  | some t =>
    if s.links.staleThresh ≤ t.at_.length then
      let s := { s with links := { s.links with trackers := rest } }
      if s.fwt.sluice.contains key then s
      else if 1024 ≤ s.fwt.sluice.length then s.logErr (pg 4 (lpTile lp)) 0x0104 1 (locLink lp)
      else
        let s := { s with fwt := { s.fwt with sluice := s.fwt.sluice ++ [key] } }
        let s := s.commit id id
        ((s.logErr (pg 4 (lpTile lp)) 0x0103 0 (locLink lp)).charge (objEndpoint key) 17 1).emit (.notice 0x0103 [src])
    else { s with links := { s.links with trackers := rest ++ [t] } }

/-- Counts a discard of a packet received on a logical port under a reason of R221 (R283); a stale one from an endpoint is reported to the
sluice logic (R203, R352). -/
def State.countReason (s : State) (lp reason : Nat) (p : Pkt) : State :=
  if reason = 0 then s else
  let s := s.inc (reasonCnt lp reason)
  if reason = rStale && !pflag p fSrcSpine && s.role (lp2p lp) == 1 then s.staleDiscard lp p.src else s

end Sys2Proof.Machine
end

