-- ==== Sys2Proof/Machine/Link.lean ====
section
/-! DEFINITION. Links (chapter 7): link states, retry, credits, flap damping, the sluice, and the link commands. -/
namespace Sys2Proof.Machine

/-! ### Flushing a port (R256) -/

/-- Drops every packet queued on or being sent on a logical port, and counts each in FLUSH (R256). -/
def State.flushPort (s : State) (lp : Nat) : State :=
  let mine := s.sw.flights.filter fun f => f.stage.lport == some lp
  let s := s.setFlights (s.sw.flights.filter fun f => f.stage.lport != some lp)
  mine.foldl (fun s f =>
    let s := if f.stage == .queued lp then s.occSub lp f.pkt.cls (pktCells f.pkt) else s.drizzleEnd f.id (some lp) false true (pktLen f.pkt)
    let s := (s.inc (Cnt.QM_FLUSH (lpTile lp) (lpPort lp) f.pkt.cls)).drizzleMark f.id 0
    s.tagRecord f 0xFFFF false false true false 0) s

/-- The frame being received on a link is given up: its packet's copies are stomped or discarded, and nothing is freed for it (R332, R336, R337). -/
def State.refuseOpen (s : State) (lp : Nat) : State :=
  match (s.link lp).rxOpen with
  | none => s
  | some id =>
    let n := match s.rxOf id with | some r => pktLen r.pkt | none => 0
    let s := (s.spoilAll id 0).drizzleEnd id none false true n
    (s.setRx (s.sw.rx.filter fun r => r.id != id)).setLink lp { s.link lp with rxOpen := none }

/-! ### Link states (R341–R351) -/

def LinkState.isUp : LinkState → Bool
  | .up => true
  | .sluice => true
  | _ => false

/-- The number LINK_QUERY reports for a state (R365). -/
def LinkState.code : LinkState → Nat
  | .down => 0 | .align => 1 | .hello => 2 | .up => 3 | .sluice => 4 | .holdDown => 5

/-- Moves a link to a state; a change is traced (R673), a change of UP, SLUICE or HOLD_DOWN sets PORT_STATE (R341), an entry to SLUICE is logged (R349), and
an entry to UP has its LOW_MARGIN reeds tested again (R432). -/
def State.setLinkState (s : State) (lp : Nat) (st : LinkState) : State :=
  let l := s.link lp
  let vis := fun (x : LinkState) => (x.isUp, x == .sluice, x == .holdDown)
  let s := s.setLink lp { l with st := st, since := s.time.ticks }
  let s := if l.st == st then s else s.trace 3 lp (locLink lp) 4 (lpTile lp) (leBytes 1 l.st.code ++ leBytes 1 st.code)
  let s := if vis l.st != vis st then s.irq (pg 4 (lpTile lp)) 2 else s
  let s := if st == .up && l.st != .up then { s with optics := { s.optics with upFresh := Tbl.set s.optics.upFresh false lp true } } else s
  if st == .sluice && l.st != .sluice then
    (s.logErr (pg 4 (lpTile lp)) 0x0102 0 (locLink lp)).charge (objPort lp) 5 1
  else s

/-- Do the link-layer timers of a port stand still: in a dark slot, or while the port is the far end of a calibration loop (R384, R161)? -/
def State.timersHeld (s : State) (p : Nat) : Bool := s.dark p || (Tbl.find s.time.calFar p).isSome

/-- The device's own HELLO (R326, R328, R342). -/
def State.sendHello (s : State) (lp : Nat) : State :=
  let l := s.link lp
  let half := s.isSplit (lp2p lp)
  s.control lp (helloBody ⟨1, l.gen, l.seen, bitsOf (s.liveReeds lp), s.spineAddr 0, if half then 72 else 128, if half then 960 else 2048,
    if half then 720 else 1536⟩)

/-- A training failure (R341, R343, R347): DOWN, waiting H, logged. -/
def State.trainingFails (s : State) (lp : Nat) : State :=
  let s := s.setLinkState lp .down
  let s := s.setLink lp { s.link lp with waitFrom := some s.time.ticks, seen := false, farId := none }
  (s.logErr (pg 4 (lpTile lp)) 0x0105 0 (locLink lp)).charge (objPort lp) 4 1

/-- A link leaves UP or SLUICE for HOLD_DOWN as a flap (R344, R346): GOODBYE three times while the PCS is aligned, replay store and
queues dropped, H doubled. The frame being received is lost, and no credits of the session are freed any more (R331). -/
def State.flap (s : State) (lp reason : Nat) : State :=
  let bye := goodbyeBody reason
  let s := if (s.link lp).aligned then ((s.control lp bye).control lp bye).control lp bye else s
  let s := (s.flushPort lp).refuseOpen lp
  let s := { s with sw := { s.sw with
      rx := (s.sw.rx.map fun (r : RxFrame) => if r.lport = lp then { r with freed := true } else r).filter fun r => !(r.freed && r.tailed)
      credHeld := s.sw.credHeld.filter fun x => x.1 != lp } }
  let s := s.setLinkState lp .holdDown
  let l := s.link lp
  let s := s.setLink lp { l with
    holdFor := l.h, h := min (2 * l.h) 1000, flaps := min (l.flaps + 1) 0xFFFFFFFF, replay := [], resent := 0
    seen := false, farId := none, nakFor := none, quietFrom := s.time.ticks, ackDue := false, creditDue := false, nakDue := false, resendFrom := none }
  (s.charge (objPort lp) 3 1).hallLost lp

/-- Leaves UP or SLUICE as a flap; in any other state nothing. -/
def State.leaveUp (s : State) (lp reason : Nat) : State := if (s.link lp).st.isUp then s.flap lp reason else s

/-- Enters UP or SLUICE from HELLO: credits reset to the advertised limits (R331, R342). -/
def State.enterUp (s : State) (lp : Nat) (h : Hello) (st : LinkState) : State :=
  let s := s.setLinkState lp st
  let l := s.link lp
  s.setLink lp { l with
    privLimit := h.privLimit, sharedLimit := h.sharedLimit, sharedCap := h.sharedCap, farId := some h.id, farGen := h.gen
    privTaken := List.replicate 8 0, privFreed := List.replicate 8 0, sharedTaken := List.replicate 8 0, sharedFreed := List.replicate 8 0
    ownPriv := List.replicate 8 0, ownShared := List.replicate 8 0, txSeq := 0, rxSeq := 0, replay := [], resent := 0, nakFor := none
    rxOpen := none, ackDue := false, creditDue := false, nakDue := false, resendFrom := none
    quietFrom := s.time.ticks }

/-- The ROLE a far end must give: 2 (leaf) on a leaf-facing port, 1 (spine) on a cascade port (R342). -/
def State.wantRole (s : State) (lp : Nat) : Nat := if s.role (lp2p lp) = 2 then 1 else 2

/-- The state a HELLO with the right ROLE and ID moves a link to (R342, R350, R351). -/
def helloState (gen far : Nat) : LinkState := if far = gen ∧ gen ≠ 0 then .up else .sluice

/-! ### Retry (R332–R337) and credits (R328–R331) -/

/-- Is sequence a at or after b, modulo 2^16 (within half the space)? -/
def seqGe (a b : Nat) : Bool := (a + 65536 - b) % 65536 < 32768

/-- An acknowledgement of everything before ackSeq frees the frames it covers from the replay store (R251, R333). -/
def State.acked (s : State) (lp ackSeq : Nat) : State :=
  let l := s.link lp
  let rest := l.replay.filter fun r => seqGe r.lseq ackSeq
  if rest.length = l.replay.length then s else s.setLink lp { l with replay := rest, resent := 0 }

/-- The frames of a resend, less those before them that may start one after another from t hundredths of a nanosecond on without meeting a dark slot or
a launch (R372, R402), and those frames. -/
def State.resendFits (s : State) (lp : Nat) : Nat → List Replay → List Replay × List Replay
  | _, [] => ([], [])
  | t, r :: rs =>
    let e := t + s.lineTime lp r.pkt
    if s.lightFor lp e && s.launchAllows lp e then
      let x := State.resendFits s lp e rs
      (r :: x.1, x.2)
    else ([], r :: rs)

/-- Resends the unacknowledged frames from LSEQ q onward, in order (R334, R336, R372); RETRY_LIMIT resends of one oldest frame without
progress take the link down (R335). While a frame is in progress, a dark slot is in the way or a launch holds the port, the resend waits; of two that
wait, the lower LSEQ governs (R334, R367, R402). -/
def State.resendFrom (s : State) (lp q : Nat) : State :=
  let l := s.link lp
  let (fs, later) := s.resendFits lp 0 (l.replay.filter fun r => seqGe r.lseq q)
  match l.replay with
  | [] => s.setLink lp { l with resendFrom := none }
  | oldest :: _ =>
    if (s.sending lp).isSome || (fs.isEmpty && !later.isEmpty) then
      s.setLink lp { l with resendFrom := some (match l.resendFrom with | some x => if seqGe q x then x else q | none => q) }
    else
    let n := if fs.any fun r => r.lseq == oldest.lseq then l.resent + 1 else l.resent
    if s.links.retryLimit < n then (s.logErr (pg 4 (lpTile lp)) 0x0101 1 (locLink lp)).flap lp 2
    else
      let s := s.setLink lp { l with
        resent := n, resendFrom := later.head?.map (·.lseq), retryTx := min (l.retryTx + fs.length) 0xFFFFFFFF
        replay := l.replay.map fun r => if fs.any fun x => x.lseq == r.lseq then { r with sentAt := s.time.ticks } else r }
      fs.foldl (fun s r =>
        let closed := s.tideState (lp2p lp) == 2 && !(match s.gateAt (lp2p lp) s.nowC with | some (w, _) => bit r.pkt.cls (entGates w) | none => true)
        let s := if closed then s.inc (Cnt.TIDE_RESEND_IN_CLOSED (lpTile lp) (lpPort lp)) else s
        s.emit (.resend lp (s.ownHeader lp 1 r.lseq) r.pkt r.stomped)) s

/-- A resend that has waited is made, before any new frame (R334). -/
def State.resendDue (s : State) (lp : Nat) : State :=
  match (s.link lp).resendFrom with | some q => s.resendFrom lp q | none => s

/-- Takes the credits of a packet. -/
def LinkSt.take (l : LinkSt) (shared : Bool) (c n : Nat) : LinkSt :=
  let bump := fun (x : List Nat) => x.modify c fun v => (v + n) % 65536
  if shared then { l with sharedTaken := bump l.sharedTaken } else { l with privTaken := bump l.privTaken }

/-- The cells a logical port's replay reservation holds (R338). -/
def State.replayCells (s : State) (lp : Nat) : Nat := if s.isSplit (lp2p lp) then 256 else 512
def LinkSt.replayUsed (l : LinkSt) : Nat := (l.replay.map (·.cells)).foldl (· + ·) 0

/-! ### Received frames (R325, R326, R332, R333) -/

/-- A bad frame (R325): an uncorrectable codeword is counted, and the frame is answered with a NAK in UP and SLUICE. -/
def State.badFrame (s : State) (lp : Nat) (fecBad : Bool) : State :=
  let l := s.link lp
  let s := if fecBad then s.setLink lp { l with fecUncorr := min (l.fecUncorr + 1) 0xFFFFFFFF } else s
  if l.st.isUp then s.nak lp else s

/-- Does a link take frames: in HELLO, UP and SLUICE (R341), and while its port's light is not ignored (R448)? -/
def State.takesFrames (s : State) (lp : Nat) : Bool :=
  ((s.link lp).st.isUp || (s.link lp).st == .hello) && !s.ignoresLight (lp2p lp)

/-- A CONTROL frame arrives (R326): a bad one is answered, its ACK_SEQ is applied first (R367), and `f` acts on one of KIND `kind`. In HELLO only a HELLO
is accepted (R341). -/
def State.controlRx (s : State) (lp kind : Nat) (header body : List Byte) (fecBad : Bool) (f : State → State) : State :=
  if !s.takesFrames lp then s
  else if fecBad || !hdrGood header then s.badFrame lp fecBad
  else
    let up := (s.link lp).st.isUp
    let s := if hdrAckValid header && up then s.acked lp (hdrAck header) else s
    if hdrType header == 2 && ctlKind body == kind && (up || kind == 4) then f s else s

/-! ### The commands of the family -/

/-- LINK_DATA_FRAME_RX (R325, R332, R333, R336, R337): a DATA frame ends, with its link header as received and the FEC verdict over it. Its packet, if
one came (PACKET_RX), is the link's open frame. -/
def execLinkDataFrameRx (lport : Nat) (header : List Byte) (fecBad : Bool) (s : State) : Result :=
  if !(s.link lport).st.isUp || s.ignoresLight (lp2p lport) then .next s
  else if fecBad || !hdrGood header then .next ((s.refuseOpen lport).badFrame lport fecBad)
  else
    let s := if hdrAckValid header then s.acked lport (hdrAck header) else s
    let l := s.link lport
    if hdrType header ≠ 1 then .next s
    else if hdrSeq header ≠ l.rxSeq then .next ((s.refuseOpen lport).nak lport)
    else
      let q := (l.rxSeq + 1) % 65536
      let s := (s.setLink lport { l with rxSeq := q, nakFor := none, nakDue := false, rxOpen := none }).control lport (ackBody q)
      .next (match l.rxOpen with | some id => s.rxMod id fun r => { r with accepted := true } | none => s)

/-- ACK_RX (R333, R251). -/
def execAckRx (lport : Nat) (header body : List Byte) (fecBad : Bool) (s : State) : Result :=
  .next (s.controlRx lport 1 header body fecBad fun s => s.acked lport (beAt 4 2 body))

/-- NAK_RX (R334, R335). -/
def execNakRx (lport : Nat) (header body : List Byte) (fecBad : Bool) (s : State) : Result :=
  .next (s.controlRx lport 2 header body fecBad fun s =>
    let l := s.link lport
    (s.setLink lport { l with nakRx := min (l.nakRx + 1) 0xFFFFFFFF }).resendFrom lport (beAt 4 2 body))

/-- CREDIT_RX (R330). -/
def execCreditRx (lport : Nat) (header body : List Byte) (fecBad : Bool) (s : State) : Result :=
  .next (s.controlRx lport 3 header body fecBad fun s =>
    (s.setLink lport { s.link lport with
      privFreed := (List.range 8).map fun c => beAt (4 + 2 * c) 2 body
      sharedFreed := (List.range 8).map fun c => beAt (20 + 2 * c) 2 body }).blockCheck lport)

/-- What a HELLO does to a link (R342–R344, R349–R351). -/
def State.hello (s : State) (lport : Nat) (hello : Hello) : State :=
  let l := s.link lport
  match l.st with
  | .hello =>
    if hello.role ≠ s.wantRole lport then s.logErr (pg 4 (lpTile lport)) 0x0106 0 (locLink lport)
    else
      let s := s.setLink lport { l with seen := true, farGen := hello.gen, farId := some hello.id }
      if hello.seen then s.enterUp lport hello (helloState l.gen hello.gen) else s
  | .up =>
    if l.farId ≠ some hello.id then s.flap lport 4
    else
      let s := s.setLink lport { l with farGen := hello.gen }
      if hello.gen = l.gen then s else s.setLinkState lport .sluice
  | .sluice =>
    if l.farId ≠ some hello.id then s.flap lport 4
    else
      let s := s.setLink lport { l with farGen := hello.gen }
      if hello.gen = l.gen ∧ l.gen ≠ 0 then s.setLinkState lport .up else s
  | _ => s

/-- HELLO_RX (R342–R344, R349–R351). -/
def execHelloRx (lport : Nat) (header body : List Byte) (fecBad : Bool) (s : State) : Result :=
  .next (s.controlRx lport 4 header body fecBad fun s => s.hello lport (helloOf body))

/-- GOODBYE_RX (R344): a flap, whatever REASON it carries. -/
def execGoodbyeRx (lport : Nat) (header body : List Byte) (fecBad : Bool) (s : State) : Result :=
  .next (s.controlRx lport 5 header body fecBad fun s => s.leaveUp lport 4)

/-- REPLAY_TIMEOUT (R334, R335): the oldest unacknowledged frame has gone REPLAY_TIMEOUT unacknowledged; the clock of a dark port
stands still (R384). -/
def execReplayTimeout (lport : Nat) (s : State) : Result :=
  let l := s.link lport
  match l.replay with
  | r :: _ =>
    if l.st.isUp && !s.timersHeld (lp2p lport) then
      let s := s.elapseToTick (r.sentAt + nsTicks s.links.replayTimeout)
      let l := s.link lport
      .next ((s.setLink lport { l with replayTimeouts := min (l.replayTimeouts + 1) 0xFFFFFFFF }).resendFrom lport r.lseq)
    else .next s
  | [] => .next s

/-- HELLO_TIMER (R341): every 10 µs in HELLO and 100 µs in SLUICE. -/
def execHelloTimer (lport : Nat) (s : State) : Result :=
  match (s.link lport).st with
  | .hello => .next ((s.elapse (usTicks 10)).sendHello lport)
  | .sluice => .next ((s.elapse (usTicks 100)).sendHello lport)
  | _ => .next s

/-- Is a reed LOCKED or in SLIP in both directions (R341, R431)? -/
def State.reedLocked (s : State) (p r : Nat) : Bool :=
  let ok := fun x => x == 2 || x == 3
  ok (s.fld (reedReg p r) Fld.OE_REED_TX_STATE) && ok (s.fld (reedReg p r) Fld.OE_REED_RX_STATE)

/-- May the links of an engine's port leave DOWN: its role is in use, its fibre record valid or overridden (R409, R421), the device neither in reset
nor in recovery (R784, R832, R834)? -/
def State.opticsAllowed (s : State) (p : Nat) : Bool :=
  let n := p / 32
  !s.pwr.held && !s.flag Reg.CFG_STATUS Fld.CFG_STATUS_RECOVERY &&
  s.role p != 0 && (s.flag (Reg.OE_STATUS n) Fld.OE_STATUS_ID_OK || s.flag (Reg.OE_CTRL n) Fld.OE_CTRL_ID_OVERRIDE)

/-- A port's live set has changed: PORT_STATE of its tile and REED_CHANGE of its engine (R341, R345). -/
def State.reedsChanged (s : State) (p : Nat) : State := (s.irq (pg 4 (p / 8)) 2).irq (pg 9 (p / 32)) 2

/-- Opens or closes a reed's own carrier gate (R409, R437). -/
def State.setGate (s : State) (p r : Nat) (open_ : Bool) : State :=
  let rest := s.optics.shut.filter (· != 4 * p + r)
  { s with optics := { s.optics with shut := if open_ then rest else rest ++ [4 * p + r] } }

/-- Does a reed's carrier gate admit its comb line: not closed with the reed, by an unused role, by an invalid fibre record, or by a causeway on its port
(R409, R421, R437, R443)? -/
def State.carrierOpen (s : State) (p r : Nat) : Bool := s.opticsAllowed p && !s.occupied p && !s.optics.shut.contains (4 * p + r)

/-- Puts a reed into or out of the live set (R409); its carrier gate opens or closes with that (R437). -/
def State.setLive (s : State) (p r : Nat) (live : Bool) : State :=
  if s.flag (reedReg p r) Fld.OE_REED_LIVE = live then s
  else ((s.setFlag (reedReg p r) Fld.OE_REED_LIVE live).setGate p r live).reedsChanged p

/-- The optics report a port's reeds locked: the reeds locked now become live as PROVISIONAL, and the link moves from DOWN to ALIGN
unless it waits out a training failure (R341, R347, R431). Of a link that has left DOWN with its reeds reported, further reeds join by a margin test
alone (R432). -/
def State.reportLocked (s : State) (lp : Nat) : State :=
  let p := lp2p lp
  if (s.link lp).st ≠ .down ∧ (s.link lp).locked = true then s else
  let rs := (s.reedsOf lp).filter fun r => s.reedLocked p r
  let s := rs.foldl (fun s r =>
    if s.flag (reedReg p r) Fld.OE_REED_LIVE then s else (s.setFld (reedReg p r) Fld.OE_REED_PROVISIONAL 1).setLive p r true) s
  let l := s.link lp
  let s := s.setLink lp { l with locked := true }
  if l.st == .down && l.waitFrom.isNone then s.setLinkState lp .align else s

/-- The optics report that no reed of a port stays locked: none is live, and the PCS has no alignment to keep (R341). -/
def State.reportUnlocked (s : State) (lp : Nat) : State :=
  let s := (s.reedsOf lp).foldl (fun s r => s.setLive (lp2p lp) r false) s
  let s := s.setLink lp { s.link lp with locked := false, aligned := false }
  { s with optics := { s.optics with firstLock := Tbl.set s.optics.firstLock 0 lp 0 } }

/-- REEDS_LOCKED (R431, R341): two reeds are locked in both directions, or one of a half. -/
def execReedsLocked (lport : Nat) (s : State) : Result :=
  let p := lp2p lport
  let n := ((s.reedsOf lport).filter fun r => s.reedLocked p r).length
  .next (if s.opticsAllowed p && decide ((if s.isSplit p then 1 else 2) ≤ n) then s.reportLocked lport else s)

/-- PROVISIONAL_TIMER (R431): 50 ms after the first reed locked, one locked reed suffices. -/
def execProvisionalTimer (lport : Nat) (s : State) : Result :=
  let p := lp2p lport
  let n := ((s.reedsOf lport).filter fun r => s.reedLocked p r).length
  match Tbl.getD s.optics.firstLock 0 lport with
  | 0 => .next s
  | t + 1 =>
    if s.opticsAllowed p && decide (1 ≤ n) then .next ((s.elapseToTick (t + usTicks 50000)).reportLocked lport) else .next s

/-- REEDS_UNLOCKED (R341): no reed of the port, or of the half, is LOCKED or in SLIP in both directions; while one is, nothing happens. In ALIGN and HELLO the link
returns to DOWN without a training failure; in UP and SLUICE the loss of the reeds is a loss of PCS alignment (R344). -/
def execReedsUnlocked (lport : Nat) (s : State) : Result :=
  let p := lp2p lport
  if (Tbl.find s.time.calFar p).isSome || (s.reedsOf lport).any (s.reedLocked p) then .next s else
  let s := s.reportUnlocked lport
  match (s.link lport).st with
  | .align => .next (s.setLinkState lport .down)
  | .hello => .next (s.setLinkState lport .down)
  | .up => .next (s.flap lport 3)
  | .sluice => .next (s.flap lport 3)
  | _ => .next s

/-- Do the optics still report a link's reeds locked, and is one (R341)? -/
def State.stillLocked (s : State) (lp : Nat) : Bool := (s.link lp).locked && (s.reedsOf lp).any (s.reedLocked (lp2p lp))

/-- PCS_ALIGNED (R341). With no reed locked there is no light to align to (R28). -/
def execPcsAligned (lport : Nat) (s : State) : Result :=
  let l := s.link lport
  if !s.stillLocked lport then .next s else
  let s := s.setLink lport { l with aligned := true }
  .next (if l.st == .align then (s.setLinkState lport .hello).sendHello lport else s)

/-- ALIGN_TIMEOUT (R341): 5 ms in ALIGN. -/
def execAlignTimeout (lport : Nat) (s : State) : Result :=
  let l := s.link lport
  .next (if l.st == .align then (s.elapseToTick (l.since + usTicks 5000)).trainingFails lport else s)

/-- HELLO_TIMEOUT (R341, R343): 2 ms in HELLO. -/
def execHelloTimeout (lport : Nat) (s : State) : Result :=
  let l := s.link lport
  .next (if l.st == .hello then (s.elapseToTick (l.since + usTicks 2000)).trainingFails lport else s)

/-- PCS_ALIGN_LOSS (R341, R344): alignment lost for more than 10 µs. -/
def execPcsAlignLoss (lport : Nat) (s : State) : Result :=
  if s.timersHeld (lp2p lport) then .next s else
  let s := s.elapse (usTicks 10)
  let s := s.setLink lport { s.link lport with aligned := false }
  match (s.link lport).st with
  | .hello => .next (s.trainingFails lport)
  | .up => .next (s.flap lport 3)
  | .sluice => .next (s.flap lport 3)
  | _ => .next s

/-- HOLD_DOWN_END (R341, R346): the link returns to DOWN, and on to ALIGN while its reeds are locked. -/
def execHoldDownEnd (lport : Nat) (s : State) : Result :=
  let l := s.link lport
  if l.st == .holdDown then
    let s := (s.elapseToTick (l.since + usTicks (1000 * l.holdFor))).setLinkState lport .down
    .next (if s.stillLocked lport then s.setLinkState lport .align else s)
  else .next s

/-- TRAINING_WAIT_END (R347): the wait of H in DOWN ends. -/
def execTrainingWaitEnd (lport : Nat) (s : State) : Result :=
  let l := s.link lport
  match l.st, l.waitFrom with
  | .down, some t =>
    let s := s.elapseToTick (t + usTicks (1000 * l.h))
    let s := s.setLink lport { s.link lport with waitFrom := none }
    .next (if s.stillLocked lport then s.setLinkState lport .align else s)
  | _, _ => .next s

/-- DAMPING_DECAY (R346): a full 60 s in UP or SLUICE without a flap halves H, to no less than 1 ms. -/
def execDampingDecay (lport : Nat) (s : State) : Result :=
  let l := s.link lport
  if l.st.isUp then
    let s := s.elapseToTick (l.quietFrom + usTicks 60000000)
    .next (s.setLink lport { s.link lport with h := max (l.h / 2) 1, quietFrom := s.time.ticks })
  else .next s

/-- Is a logical port in use (R366): its physical port has a role, and a second half exists only when the port is split? -/
def State.inUse (s : State) (lp : Nat) : Bool := decide (lp < 1024) && s.role (lp2p lp) != 0 && (lp % 2 == 0 || s.isSplit (lp2p lp))

/-- Takes a link down for ACTION 1 (R861). -/
def State.takeDown (s : State) (lp : Nat) : State :=
  match (s.link lp).st with
  | .up => s.flap lp 1
  | .sluice => s.flap lp 1
  | .align => let s := s.setLinkState lp .down; s.setLink lp { s.link lp with waitFrom := some s.time.ticks, seen := false }
  | .hello => let s := s.setLinkState lp .down; s.setLink lp { s.link lp with waitFrom := some s.time.ticks, seen := false }
  | _ => s

/-- Clears damping for ACTION 2 (R347): H is 1 ms and a hold-down in progress ends. -/
def State.clearDamping (s : State) (lp : Nat) : State :=
  let s := s.setLink lp { s.link lp with h := 1 }
  if (s.link lp).st == .holdDown then
    let s := s.setLinkState lp .down
    if s.stillLocked lp then s.setLinkState lp .align else s
  else s

/-- LINK_PROVISION (R363, R861, R366). -/
def execLinkProvision (h : CmdHdr) (gen action : Nat) (s : State) : Result :=
  .next (s.runCmd h 0x0401 true fun s =>
    if !s.inUse h.target then fail s 0x0100
    else if 2 < action then fail s 0x0101
    else
      let s := s.setLink h.target { s.link h.target with gen := gen }
      ok (if action = 1 then s.takeDown h.target else if action = 2 then s.clearDamping h.target else s))

/-- SLUICE_EP (R355, R363, R366). -/
def execSluiceEp (h : CmdHdr) (feid action : Nat) (s : State) : Result :=
  .next (s.runCmd h 0x0402 true fun s =>
    let key := feidKey feid
    if 1 < action then fail s 0x0101
    else if action = 0 then ok ({ s with fwt := { s.fwt with sluice := s.fwt.sluice.filter (· != key) } }.commit id id)
    else if s.fwt.sluice.contains key then ok (s.commit id id)
    else if 1024 ≤ s.fwt.sluice.length then fail s 0x0102
    else ok ((({ s with fwt := { s.fwt with sluice := s.fwt.sluice ++ [key] } }.commit id id)).charge (objEndpoint key) 17 1))

/-- LINK_QUERY (R365). -/
def execLinkQuery (h : CmdHdr) (clear : Nat) (s : State) : Result :=
  .next (s.runCmd h 0x0403 true fun s =>
    if !s.inUse h.target then fail s 0x0100
    else
      let l := s.link h.target
      let r := l.st.code + l.gen % 256 * 2 ^ 8 + l.farGen % 256 * 2 ^ 16 + l.h % 1024 * 2 ^ 24
      let ex := [l.retryTx, l.nakTx, l.nakRx, l.replayTimeouts, l.fecUncorr, l.replayStall, l.flaps].flatMap (leBytes 4)
      let s := if clear = 1 then
          s.setLink h.target { l with retryTx := 0, nakTx := 0, nakRx := 0, replayTimeouts := 0, fecUncorr := 0, replayStall := 0, flaps := 0 }
        else s
      (s, some ⟨0, r, 0, ex⟩))

/-- LINK_PARAMS (R364, R366). -/
def execLinkParams (h : CmdHdr) (grace thresh retry timeout : Nat) (s : State) : Result :=
  .next (s.runCmd h 0x0404 true fun s =>
    if timeout < 1000 ∨ 16000 < timeout ∨ retry < 2 ∨ 255 < retry ∨ thresh < 1 ∨ 65535 < thresh then fail s 0x0101
    else ok { s with links := { s.links with sluiceGrace := grace, staleThresh := thresh, retryLimit := retry, replayTimeout := timeout } })

end Sys2Proof.Machine
end

