-- ==== Sys2Proof/Machine/DelCore.lean ====
section
/-! DEFINITION. Delsia's windows (R639–R642, R651, R654, R264, R616): their ends, openings and closes. -/
namespace Sys2Proof.Machine

def State.setDel (s : State) (f : DelSt → DelSt) : State := { s with del := f s.del }
/-- DEL pages 0 and 1. -/
def delPg : Nat := pg 0x10 0
def delPg1 : Nat := pg 0x10 1

/-- The window index of R639 at a network time in whole nanoseconds. -/
def winIndex (us ns : Nat) : Nat := (ns / 1000000000 * (1000000 / us) + ns % 1000000000 / (1000 * us)) % 2 ^ 32

/-- GRACE in nanoseconds (R642). -/
def State.graceNs (s : State) : Nat := 1000 * min (10 * s.fld Reg.DEL_WINDOW Fld.DEL_WINDOW_GRACE) (3 * s.del.winUs)

/-- The time at which a window closes (R642, R669), in its own measure. -/
def State.closeTime (s : State) (w : Win) : Nat :=
  match w.moved with
  | some t => t
  | none => w.fin + (if w.aligned then s.graceNs else nsTicks s.graceNs)

/-- The running window. -/
def State.running (s : State) : Option Win :=
  match s.del.wins.getLast? with
  | some w => if w.ended then none else some w
  | none => none

/-- Stores the running window anew. -/
def State.setRunning (s : State) (w : Win) : State := s.setDel fun d => { d with wins := d.wins.dropLast ++ [w] }

/-! ### Results and closes (R648–R651) -/

/-- The bucket of a value in a sketch (R649). -/
def bucket (v : Nat) : Nat := if v < 8 then v else let e := log2 v; 4 * (e - 1) + bits (e - 1) (e - 2) v
/-- The lower bound of a bucket. -/
def bucketLow (b : Nat) : Nat := if b < 8 then b else let e := b / 4 + 1; 2 ^ e + b % 4 * 2 ^ (e - 2)
/-- The numerator of a quantile in thousandths (R647). -/
def quantMil (q : Nat) : Nat := [500, 900, 990, 999].getD q 500

/-- The reduction function of counter k: 0 SUM, 1 MIN, 2 MAX, 3 SKETCH. -/
def DDesc.op (d : DDesc) (k : Nat) : Nat := bits (2 * k + 1) (2 * k) d.ops
/-- The count of bucket b of counter k. -/
def DAcc.count (a : DAcc) (k b : Nat) : Nat := Tbl.getD a.sketch 0 (128 * k + b)

/-- The quantile of a counter's sketch (R649): the lower bound of the least bucket at which the cumulative count reaches ⌈q × n⌉. -/
def DAcc.quantile (a : DAcc) (k q : Nat) : Nat :=
  let need := ceilDiv (quantMil q * a.contrib) 1000
  let cum := fun b => ((List.range (b + 1)).map (a.count k)).foldl (· + ·) 0
  match (List.range 124).find? fun b => decide (need ≤ cum b) with
  | some b => if a.contrib = 0 then 0 else bucketLow b
  | none => 0

/-- The result of counter k. -/
def DAcc.result (a : DAcc) (d : DDesc) (k : Nat) : Nat := if d.op k = 3 then a.quantile k d.quant else a.vals.getD k 0

/-- A RESULT entry (R651). A record is refused as LATE only after its window has closed, so LATE is zero in the entry. -/
def resultEntry (w : Win) (d : DDesc) (a : DAcc) : List Byte :=
  let flags := b2n (!w.aligned || decide (0 < a.unaligned)) + 2 * b2n (decide (a.contrib < d.expect)) + 4 * b2n w.cutShort + 8 * b2n w.frozen
  leBytes 4 d.rgroup ++ leBytes 4 w.index ++ leBytes 2 d.set ++ leBytes 1 flags ++ leBytes 1 0 ++ leBytes 4 a.contrib ++ leBytes 4 a.unaligned ++
  leBytes 4 0 ++ leBytes 8 0 ++ (List.range 12).flatMap fun k => leBytes 8 (a.result d k)

/-- A SKETCH entry (R651). -/
def sketchEntry (w : Win) (d : DDesc) (a : DAcc) (k : Nat) : List Byte :=
  leBytes 4 d.rgroup ++ leBytes 4 w.index ++ leBytes 1 k ++ leBytes 7 0 ++ (List.range 124).flatMap fun b => leBytes 4 (a.count k b)

/-- The results of a window, in ascending descriptor index (R651). -/
def State.winResults (s : State) (w : Win) : State :=
  w.descs.foldl (fun s x =>
    let d := x.2
    let a := Tbl.getD w.acc DAcc.init x.1
    if a.contrib = 0 ∧ d.expect = 0 then s
    else
      let s := (s.archive 2 (resultEntry w d a) w.index (!w.aligned)).inc Cnt.DEL_RESULTS
      if d.keep then
        ((List.range 12).filter fun k => d.op k == 3).foldl (fun s k => s.archive 3 (sketchEntry w d a k) w.index (!w.aligned)) s
      else s) s

/-- Open window k closes: its results are written, and Barometer is given what has been charged up to now (R651, R687). -/
def State.closeWin (s : State) (k : Nat) : State :=
  match s.del.wins[k]? with
  | none => s
  | some w =>
    let s := s.winResults w
    let c : Closed := ⟨w.index, s.charges, s.baro.late, s.baro.levels, w.deltas⟩
    let s := s.setDel fun d => { d with wins := d.wins.eraseIdx k }
    { s with charges := [], baro := { s.baro with late := [], levels := [], closed := s.baro.closed ++ [c] } }

/-! ### A window's end (R654, R264, R616) -/

/-- The counters of a logical port that its deltas come from: C0 to C9 of R654 but C6, C11, and 12: STOMP_RX. -/
def State.portCounts (s : State) (lp : Nat) : List (Nat × Nat) :=
  let t := lpTile lp; let j := lpPort lp
  let l := s.link lp
  let sum := fun (f : Nat → Nat) => ((List.range 8).map fun c => s.cnt (f c)).foldl (· + ·) 0
  [(0, s.cnt (Cnt.PT_RX_PACKETS t j)), (1, s.cnt (Cnt.PT_TX_PACKETS t j)),
   (2, ((List.range 12).map fun r => s.cnt (reasonCnt lp (r + 1))).foldl (· + ·) 0), (3, s.cnt (Cnt.PT_STOMP_TX t j)),
   (4, sum (Cnt.QM_MARKED t j)), (5, sum (Cnt.QM_DROP_LIMIT t j) + sum (Cnt.QM_DROP_EARLY t j) + sum (Cnt.QM_FLUSH t j)),
   (7, l.fecUncorr), (8, l.retryTx), (9, l.nakRx), (12, s.cnt (Cnt.PT_STOMP_RX t j))]

/-- The logical ports whose role is not unused. -/
def State.portsInUse (s : State) : List Nat := (List.range 1024).filter s.inUse

/-- The counters as they stand, by 16 × logical port + counter, and the bridge resends of each quadrant (input 22 of R688) at 16 × 1024 + quadrant. -/
def State.winCounts (s : State) : Tbl Nat :=
  let t := s.portsInUse.foldl (fun t lp => (s.portCounts lp).foldl (fun t x => Tbl.set t 0 (16 * lp + x.1) x.2) t) ([] : Tbl Nat)
  (List.range 8).foldl (fun t q => Tbl.set t 0 (16384 + q) (s.cnt (Cnt.RING_XB_RETRY q))) t

/-- The delta of a counter since the last boundary; one that a clear has set back counts from zero. -/
def deltaOf (base now : Tbl Nat) (k : Nat) : Nat :=
  let b := Tbl.getD base 0 k; let n := Tbl.getD now 0 k
  if b ≤ n then n - b else n

/-- The deltas over the window that ends (R654): `fec` gives the codewords corrected on each logical port. -/
def State.winDeltas (s : State) (fec : List FecCount) : Tbl Nat :=
  let now := s.winCounts
  let t := now.foldl (fun t x => Tbl.set t 0 x.1 (deltaOf s.del.base now x.1)) ([] : Tbl Nat)
  fec.foldl (fun t f => if s.inUse f.lport then Tbl.set t 0 (16 * f.lport + 6) f.corrected else t) t

/-- The RAW entry of a logical port's own record (R654, R653). -/
def State.spineRecord (s : State) (w : Win) (deltas : Tbl Nat) (lp : Nat) : List Byte :=
  let l := s.link lp
  let c := fun k =>
    if k = 10 then bitsOf (s.liveReeds lp) + 256 * l.st.code
    else if k = 11 then max (Tbl.getD s.sw.peak 0 lp) (((List.range 8).map (s.occ lp)).foldl max 0)
    else Tbl.getD deltas 0 (16 * lp + k)
  leBytes 4 (s.spineAddr lp) ++ leBytes 4 w.index ++ leBytes 2 0xFF01 ++ leBytes 1 (2 + b2n (!w.aligned)) ++ leBytes 1 0 ++ leBytes 4 0 ++
  (List.range 12).flatMap fun k => leBytes 4 (min (c k) 0xFFFFFFFF)

/-- The saturation reports of a window of n ticks: queues (R264), Peat's channels and partitions (R616). -/
def State.winReports (s : State) (n : Nat) : State :=
  let now := s.time.ticks
  let hot := (List.range 8192).filter fun k =>
    let x := s.satOf (k / 8) (k % 8)
    (k / 8 % 2 == 0 || s.isSplit (k / 16)) && decide (9 * n ≤ 10 * (x.1 + (if x.2 = 0 then 0 else now + 1 - x.2)))
  let s := if n = 0 then s else hot.foldl (fun s k => s.levelReport 1 k) s
  let s := (s.peat.chan.filter fun x => decide (x.1 < 8) && decide (9 * x.2.peatReq < 10 * x.2.peatLoss)).foldl (fun s x => s.levelReport 3 x.1) s
  let above := (List.range 64).filter fun p => s.partOn p && s.aboveHigh p && !s.peat.below.contains p
  if s.running.isSome then above.foldl (fun s p => s.levelReport 3 p) s else s

/-- What is measured over a window starts again at its boundary. -/
def State.winStart (s : State) : State :=
  let now := s.time.ticks
  let base := s.winCounts
  let peak := s.sw.peak.foldl (fun t x => Tbl.set t 0 x.1 (((List.range 8).map (s.occ x.1)).foldl max 0)) ([] : Tbl Nat)
  let sat := s.sw.sat.filterMap fun x => if x.2.2 = 0 || s.satLevel (x.1 / 8) (x.1 % 8) = 0 then none else some (x.1, (0, now + 1))
  let chan := s.peat.chan.map fun x => (x.1, { x.2 with peatReq := 0, peatLoss := 0 })
  let below := (List.range 64).filter fun p => !s.aboveHigh p
  let s := { s with sw := { s.sw with peak := peak, sat := sat } }
  let s := s.setPeat fun q => { q with below := below, chan := chan.filter fun x => x.2 != ChanSt.init }
  s.setDel fun d => { d with from_ := now, base := base }

/-- The running window ends: the ports' records, the reports, the deltas that Barometer takes; `cut`: it ends before its time (R640, R641). -/
def State.endWindow (s : State) (fec : List FecCount) (cut : Bool) : State :=
  match s.running with
  | none => s
  | some w =>
    let deltas := s.winDeltas fec
    let s := if s.flag Reg.DEL_CTRL Fld.DEL_CTRL_SPINE_REC then
        s.portsInUse.foldl (fun s lp => s.archive 1 (s.spineRecord w deltas lp) w.index (!w.aligned)) s
      else s
    let s := s.winReports (s.time.ticks - s.del.from_)
    s.setRunning { w with ended := true, cutShort := w.cutShort || cut, deltas := deltas }

/-- The next window opens (R639, R641, R642): with four open the oldest closes. -/
def State.openWindow (s : State) : State :=
  let s := if 4 ≤ s.del.wins.length then
      (s.setDel fun d => { d with wins := d.wins.modify 0 fun w => { w with frozen := w.frozen || s.frozen } }).closeWin 0
    else s
  let al := s.timeLocked
  let us := s.del.winUs
  let idx := if al then winIndex us s.nowNs else match s.del.lastIndex with | some i => (i + 1) % 2 ^ 32 | none => 0
  let fin := if al then (s.nowNs / (1000 * us) + 1) * (1000 * us) else s.time.ticks + nsTicks (1000 * us)
  let tt := s.rdWide Reg.DEL_THAW_TIME 2
  let fz := s.frozen && !(tt != 0 && decide (fromShort tt ≤ s.time.now))
  let w : Win := ⟨idx, fin, al, false, none, false, fz, s.del.descs.filter (·.2.enable), [], [], []⟩
  let was := s.flag Reg.DEL_STATUS Fld.DEL_STATUS_UNALIGNED
  let s := s.setFlag Reg.DEL_STATUS Fld.DEL_STATUS_UNALIGNED (!al)
  let s := if !al && !was then s.irq delPg 4 else s
  (s.setDel fun d => { d with wins := d.wins ++ [w], lastIndex := some idx }).winStart

/-- On entry to LOCKED a running window that is not aligned closes with CUT_SHORT, and the aligned one opens (R641). The codewords corrected since
the last boundary go with the next window's end. -/
def State.alignWindows (s : State) : State :=
  match s.running with
  | some w => if w.aligned then s else let s := s.endWindow [] true; (s.closeWin (s.del.wins.length - 1)).openWindow
  | none => s

end Sys2Proof.Machine
end

