-- ==== Sys2Proof/Machine/Time.lean ====
section
/-! DEFINITION. Network time (chapter 3): disciplining the clock, the time states, messages and stamps, fibre asymmetry, pulse outputs and
capture inputs. -/
namespace Sys2Proof.Machine

/-! ### Time messages (R145–R148, R852) -/

def kSync : Nat := 0x00
def kDelayReq : Nat := 0x01
def kFollowUp : Nat := 0x08
def kDelayResp : Nat := 0x09
def kPdelayRespFollowUp : Nat := 0x0A
def kPdelayReq : Nat := 0x02
def kPdelayResp : Nat := 0x03
def kNotice : Nat := 0x10
def kCalStart : Nat := 0x11
def kCalReport : Nat := 0x12

/-- The KIND codes of a time message (R145). -/
def timeKinds : List Nat := [0, 1, 2, 3, 8, 9, 0x0A, 0x10, 0x11, 0x12]

/-- A TIMESTAMP field: 48-bit seconds and 32-bit nanoseconds of a time in units of 2^-32 ns. -/
def tsBytes (t : Nat) : List Byte := beBytes 6 (t / secUnits) ++ beBytes 4 (t / 2 ^ 32 % 1000000000)
/-- The time in units of 2^-32 ns that a TIMESTAMP field spells. -/
def tsOf (i : Nat) (p : List Byte) : Nat := (beAt i 6 p * 1000000000 + beAt (i + 6) 4 p) * 2 ^ 32

/-- The DOMAIN of the device. -/
def State.domain (s : State) : Nat := s.fld Reg.TIME_ROLE Fld.TIME_ROLE_DOMAIN
/-- Is DOMAIN one that the device supports: 0–127 (R143)? -/
def State.domainOk (s : State) : Bool := decide (s.domain < 128)
/-- FABRIC_ROLE: 0 boundary clock, 1 plane time master, 2 hall grandmaster (R150). -/
def State.fabricRole (s : State) : Nat := s.fld Reg.TIME_ROLE Fld.TIME_ROLE_FABRIC_ROLE
/-- REF, the reference of a grandmaster or plane time master (R151). -/
def State.timeRef (s : State) : Nat := s.fld Reg.TIME_ROLE Fld.TIME_ROLE_REF

/-- Does the device take time as a boundary clock: its role is one, or it is the grandmaster or plane time master whose reference is the cascade
port of SRC0 (R150, R151, R155)? -/
def State.usesSources (s : State) : Bool := s.fabricRole == 0 || ((s.fabricRole == 1 || s.fabricRole == 2) && s.timeRef == 3)

/-- STEPS that the device's own messages carry (R145): 0 where it takes no time from a source, else one more than its source's. -/
def State.stepsNow (s : State) : Nat := if s.usesSources then s.time.steps else 0

/-- The 64 payload bytes of a time message (R145). -/
def State.timePayload (s : State) (kind flags seq ts corr ts2 : Nat) : List Byte :=
  beBytes 1 kind ++ beBytes 1 flags ++ beBytes 1 s.domain ++ beBytes 1 s.stepsNow ++ beBytes 2 seq ++ beBytes 2 0 ++ tsBytes ts ++ beBytes 6 0 ++
  beBytes 8 corr ++ tsBytes ts2 ++ beBytes 22 0

/-- FLAGS [3:1] for a time state: LOCKED, HOLDOVER, LOST (R145, R148). R148 and R852 state them for Sync and STATE_NOTICE; the other messages of
the device carry them too, but for CAL_START and CAL_REPORT, whose FLAGS and SEQ are 0 (DESIGN CHOICE). -/
def stateFlags (st : Nat) : Nat := if st = 2 then 2 else if st = 3 then 4 else if st = 4 then 8 else 0

/-- Sends a time message on a logical port to the far end that its HELLO named (R852); a port whose link has no far end sends nothing. Whether TIME_EN
holds back CAL_START and CAL_REPORT the spec does not say (R174): they leave whatever it is, as a STATE_NOTICE does (DESIGN CHOICE). -/
def State.sendTime (s : State) (lp : Nat) (payload : List Byte) (stampId : Option Nat) : State :=
  match (s.link lp).farId with
  | none => s
  | some id =>
    let casc := s.role (lp2p lp) == 2
    s.originateMarked lp {
      cls := 7, typ := 0x30, flags := 2 ^ fSrcSpine + (if casc then 2 ^ fDstSpine else 0)
      dst := if casc then id / 4096 * 4096 + 4 else id, src := s.spineAddr 4, plen := 64, payload := payload } stampId

/-- The logical ports that carry a link in UP or SLUICE on leaf-facing and cascade ports. -/
def State.upPorts (s : State) : List Nat := (s.links.link.filter fun x => x.2.st.isUp && s.inUse x.1).map (·.1)

/-- Sends a STATE_NOTICE on every leaf-facing and cascade port whose link is up (R129, R133, R852). -/
def State.notices (s : State) (st t : Nat) : State :=
  s.upPorts.foldl (fun s lp =>
    let q := Tbl.getD s.time.noticeSeq 0 lp
    let s := s.sendTime lp (s.timePayload kNotice (stateFlags st) q t 0 0) none
    { s with time := { s.time with noticeSeq := Tbl.set s.time.noticeSeq 0 lp ((q + 1) % 65536) } }) s

/-! ### Time states (R125–R134) -/

/-- The time core's page. -/
def pgTime : Nat := pg 3 0

/-- Traces a time state change or a step (R673). -/
def State.traceTime (s : State) : State :=
  s.trace 4 s.timeState (locBlock 3) 3 0 (leBytes 1 (s.fld Reg.TIME_STATUS Fld.TIME_STATUS_EPOCH))

/-- Moves to a time state; a change sets STATE_CHANGE (R128), and on entry to LOCKED the windows align (R641). -/
def State.setTimeState (s : State) (st : Nat) : State :=
  if s.timeState = st then s
  else
    let s := ((s.setFld Reg.TIME_STATUS Fld.TIME_STATUS_STATE st).irq pgTime 2).traceTime
    if st = 2 then { s with time := { s.time with unlocked := false } }.alignWindows
    else if st = 4 then { s with time := { s.time with unlocked := true } } else s

/-- Entry to LOST (R128, R129, R134): at tick 0 the state changes, the entry is logged and a pending resumption is cancelled; at tick 1 the lists are
held and launches released; then the notices are sent with the time of tick 0. -/
def State.enterLost (s : State) : State :=
  if s.timeState = 4 then s else
  let s := (s.setTimeState 4).logErr pgTime 0x0100 1 (locBlock 3)
  let s := { s with time := { s.time with lostFrom := some s.time.ticks, lostDev := s.time.now, resuming := false } }
  (s.elapse 1).tideLost.notices 4 s.time.lostDev

/-- Entry to LOCKED (R126, R132, R133): the hold window begins; from ACQUIRE or LOST the resume time is set, the tide engines resume from
it and notices are sent. -/
def State.enterLocked (s : State) : State :=
  let st := s.timeState
  let s := s.setTimeState 2
  let s := { s with time := { s.time with holdFrom := s.time.ticks } }
  if st = 1 ∨ st = 4 then
    let r := s.time.now + (s.rd Reg.TIME_RESUME_GAP).toNat * 1000 * 2 ^ 32
    let s := s.wrWide Reg.TIME_RESUME_TIME (shortForm r) 2
    let s := { s with time := { s.time with resuming := true } }
    s.tideLocked.notices 2 (fromShort (shortForm r))
  else s

/-- Entry to ACQUIRE. -/
def State.enterAcquire (s : State) : State := s.setTimeState 1

/-- A step of device time (R124): EPOCH rises and STEP_DONE is set. -/
def State.applyStep (s : State) (d : Int) : State :=
  let s := { s with time := { s.time with now := (((s.time.now : Int) + d) % ((2 ^ 48 * secUnits : Nat) : Int)).toNat } }
  (s.setFld Reg.TIME_STATUS Fld.TIME_STATUS_EPOCH (s.fld Reg.TIME_STATUS Fld.TIME_STATUS_EPOCH + 1)).irq pgTime 5 |>.traceTime

/-! ### Disciplining the clock (R115–R124) -/

/-- A committed TIME_INCR value (R115). -/
def State.commitIncr (s : State) (v : Nat) : State :=
  if bits 35 32 v = 1 ∧ 0x46AE147B ≤ v % 2 ^ 32 ∧ v % 2 ^ 32 ≤ 0x48AE147B then s.wrWide Reg.TIME_INCR (v % 2 ^ 36) 2
  else ((s.setFld Reg.TIME_STATUS Fld.TIME_STATUS_INCR_REFUSED 1).irq pgTime 4).logErr pgTime 0x0103 0 (locBlock 3)

/-- TIME_JUMP_LIMIT in units of 2^-32 ns. -/
def State.jumpLimit (s : State) : Nat := (s.rd Reg.TIME_JUMP_LIMIT).toNat * 2 ^ 32

/-- A committed TIME_ADJ value (R118–R120, R122): an offset in units of 2^-16 ns, signed. In UNSET and LOST it is a step on the next tick, which the
write carries with it; else it is slewed when neither it nor its sum with the slew in progress exceeds the limit. -/
def State.commitAdj (s : State) (v : Nat) : State :=
  let s := s.wrWide Reg.TIME_ADJ v 2
  let d : Int := toSigned 64 v * 65536
  let st := s.timeState
  let s := { s with time := { s.time with pending := none } }
  if st = 0 ∨ st = 4 then
    let s := (s.elapse 1).applyStep d
    if st = 0 then s.enterAcquire else s
  else
    let sum := d + s.time.slew
    if d.natAbs ≤ s.jumpLimit ∧ sum.natAbs ≤ s.jumpLimit then { s with time := { s.time with slew := sum } }
    else
      let s := { s with time := { s.time with pending := some d } }
      ((s.setFld Reg.TIME_STATUS Fld.TIME_STATUS_ADJ_REFUSED 1).irq pgTime 3).logErr pgTime 0x0101 0 (locBlock 3)

/-- TIME_ADJ as it reads: the pending offset, else what is left of a slew, else zero; in units of 2^-16 ns, what lies below them dropped. -/
def State.adjReg (s : State) : Nat :=
  ofSigned 64 (match s.time.pending with
    | some d => d / 65536
    | none => s.time.slew / 65536)

/-- Words held under R117 at the addresses given are used up by a commit. -/
def State.dropHeld (s : State) (as : List Nat) : State :=
  { s with time := { s.time with held := s.time.held.filter fun x => !as.contains x.1 } }

/-- A write of TIME_STEP_KEY (R121); the write that completes the sequence carries with it the tick after it, on which the step is made. -/
def State.stepKeyWrite (s : State) (v : Nat) : State :=
  let inTime := match s.time.stepKey with
    | some t => decide ((s.time.ticks - t) * 128 ≤ 100000)
    | none => false
  if v = 0xC3C3 then { s with time := { s.time with stepKey := some s.time.ticks } }
  else
    let s := { s with time := { s.time with stepKey := none } }
    if v = 0x3C3C ∧ inTime = true then
      match s.time.pending with
      | none => s
      | some d =>
        let st := s.timeState
        let s := { s with time := { s.time with pending := none } }
        let s := (s.elapse 1).applyStep d
        if st = 2 ∨ st = 3 then s.enterLost else if st = 0 then s.enterAcquire else s
    else s

/-- A committed TIME_SET (R123, R124): the load is made on the first tick after the write, which it carries with it. -/
def State.commitSet (s : State) (sec ns : Nat) : State :=
  let st := s.timeState
  if (st = 0 ∨ st = 4) ∧ ns < 1000000000 then
    let s := s.wrWide Reg.TIME_SET (sec % 2 ^ 48 * 2 ^ 64 + ns % 2 ^ 30 * 2 ^ 32) 4
    let t : Nat := (sec % 2 ^ 48 * 1000000000 + ns) * 2 ^ 32
    let s := { s.elapse 1 with time := { (s.elapse 1).time with slew := 0, pending := none } }
    let s := s.applyStep ((t : Int) - s.time.now)
    if st = 0 then s.enterAcquire else s
  else (s.setFld Reg.TIME_STATUS Fld.TIME_STATUS_ADJ_REFUSED 1).irq pgTime 3

/-- DECLARE_LOST: LOST from any state but UNSET (R125). -/
def State.declareLost (s : State) : State := if s.timeState = 0 then s else s.enterLost
/-- DECLARE_LOCK: LOCKED from ACQUIRE, HOLDOVER or LOST (R125, R127). -/
def State.declareLock (s : State) : State :=
  if s.timeState = 1 ∨ s.timeState = 3 ∨ s.timeState = 4 then s.enterLocked else s

/-- A heartbeat (R126). -/
def State.heartbeat (s : State) : State :=
  match s.timeState with
  | 2 => { s with time := { s.time with holdFrom := s.time.ticks } }
  | 3 => s.enterLocked
  | 4 => s.enterAcquire
  | _ => s

/-- TIME_INCR_WRITE (R115, R116): an 8-byte write of TIME_INCR, or the one that commits it. -/
def execTimeIncrWrite (value : Nat) (s : State) : Result :=
  .next (s.onPage pgTime fun s => (s.commitIncr value).dropHeld [Reg.TIME_INCR + 4])

/-- TIME_ADJ_WRITE (R117–R120, R122). -/
def execTimeAdjWrite (value : Nat) (s : State) : Result :=
  .next (s.onPage pgTime fun s => (s.commitAdj value).dropHeld [Reg.TIME_ADJ + 4])

/-- SLEW_DONE (R118): time passes until the slew in progress has ended. -/
def execSlewDone (s : State) : Result := .next (s.elapse (ceilDiv s.time.slew.natAbs s.slewRate))

/-- TIME_STEP_KEY (R121). -/
def execTimeStepKey (value : Nat) (s : State) : Result := .next (s.onPage pgTime fun s => s.stepKeyWrite value)

/-- TIME_SET (R117, R123). -/
def execTimeSet (sec ns : Nat) (s : State) : Result :=
  .next (s.onPage pgTime fun s => (s.commitSet sec ns).dropHeld [Reg.TIME_SET + 8, Reg.TIME_SET + 4, Reg.TIME_SET])

/-- DECLARE_LOCK (R125, R127). -/
def execDeclareLock (s : State) : Result := .next (s.onPage pgTime State.declareLock)

/-- DECLARE_LOST (R125). -/
def execDeclareLost (s : State) : Result := .next (s.onPage pgTime State.declareLost)

/-- TIME_HEARTBEAT (R126). -/
def execTimeHeartbeat (s : State) : Result := .next (s.onPage pgTime State.heartbeat)

/-- Is the command that follows a heartbeat: one that falls in the tick of the command before it (R127)? DEDUCED: the queue gives no other sign of
what falls in one tick. -/
def State.heartbeatNext (s : State) : Bool :=
  match s.pending with
  | .timeHeartbeat :: _ => true
  | .registerWrite a 4 _ _ :: _ => a == Reg.TIME_HEARTBEAT
  | _ => false

/-- HOLD_WINDOW_EXPIRY (R125, R127): TIME_HOLD_WIN without a heartbeat in LOCKED; a heartbeat in its tick governs. -/
def execHoldWindowExpiry (s : State) : Result :=
  if s.timeState = 2 then
    let s := s.elapseToTick (s.time.holdFrom + usTicks (s.rd Reg.TIME_HOLD_WIN).toNat)
    if s.heartbeatNext then .next s
    else if s.flag Reg.TIME_CTRL Fld.TIME_CTRL_HOLDOVER_EN then
      let s := s.setTimeState 3
      .next { s with time := { s.time with holdoverFrom := s.time.ticks } }
    else .next s.enterLost
  else .next s

/-- HOLDOVER_EXPIRY (R125, R127): TIME_HOLDOVER_MAX spent in HOLDOVER; a heartbeat in its tick governs. -/
def execHoldoverExpiry (s : State) : Result :=
  if s.timeState = 3 then
    let s := s.elapseToTick (s.time.holdoverFrom + usTicks (s.rd Reg.TIME_HOLDOVER_MAX).toNat)
    .next (if s.heartbeatNext then s else s.enterLost)
  else .next s

/-- PARK_MAX_EXPIRY (R129, R455): TIME_PARK_MAX ticks after entry to LOST every crosspoint that has not parked since parks, cutting its slot, whatever
the time state has become. -/
def execParkMaxExpiry (s : State) : Result :=
  match s.time.lostFrom with
  | none => .next s
  | some t =>
    let s := s.elapseToTick (t + (s.rd Reg.TIME_PARK_MAX).toNat)
    let s := { s with time := { s.time with lostFrom := none } }
    .next (s.optics.parkDue.foldl (fun s n => s.park n s.nowC true) s)

/-! ### Reads that latch (R109, R140, R171) -/

/-- TIME_NOW as a 128-bit value. -/
def State.nowReg (s : State) : Nat :=
  let t := s.time.now
  t / secUnits % 2 ^ 48 * 2 ^ 64 + t / 2 ^ 32 % 1000000000 * 2 ^ 32 + t % 2 ^ 32

/-- Latches TIME_NOW. -/
def State.latchNow (s : State) : State := { s with time := { s.time with nowLatch := s.nowReg } }

/-- Takes the head of the transmit timestamp queue into its latch: the top word and the state after it. -/
def State.popStamp (s : State) : Nat × State :=
  match s.time.txq with
  | [] => (0, s)
  | x :: rest =>
    (x.id % 65536 * 65536 + 32768 + x.port % 2048, { s with time := { s.time with txq := rest, txqLatch := x.stamp } })

/-- Puts a stamp in the transmit timestamp queue (R140, R141). -/
def State.pushStamp (s : State) (id port stamp : Nat) : State :=
  if 64 ≤ s.time.txq.length then
    ((s.addFld Reg.TIME_TXQ_STATUS Fld.TIME_TXQ_STATUS_LOST 1).setFld Reg.TIME_TXQ_STATUS Fld.TIME_TXQ_STATUS_OVERFLOW 1).irq pgTime 6
  else { s with time := { s.time with txq := s.time.txq ++ [⟨id, port, stamp⟩] } }

/-- Latches the capture of input k and clears CAPTURED. -/
def State.latchCapt (s : State) (k : Nat) : State :=
  let v := s.rdWide (Reg.TPI_CAPT k) 3
  ({ s with time := { s.time with captLatch := Tbl.set s.time.captLatch 0 k v } }).setFld (Reg.TPI_STATUS k) Fld.TPI_STATUS_CAPTURED 0

/-- TIME_NOW_READ (R109 and the TIME_NOW register): the whole is latched; the read of 4 or 8 bytes answers. -/
def execTimeNowRead (wide : Bool) (s : State) : Result :=
  if s.pageBusy pgTime then .next (s.emit (.readData Reg.TIME_NOW 0))
  else .next (s.latchNow.emit (.readData Reg.TIME_NOW (s.nowReg % (if wide then 2 ^ 64 else 2 ^ 32))))

/-- TIME_TXQ_ENTRY_READ (R140 and the TIME_TXQ_ENTRY register). -/
def execTimeTxqEntryRead (s : State) : Result :=
  if s.pageBusy pgTime then .next (s.emit (.readData (Reg.TIME_TXQ_ENTRY + 12) 0))
  else
    let (w, s) := s.popStamp
    .next (s.emit (.readData (Reg.TIME_TXQ_ENTRY + 12) w))

/-- TPI_CAPT_READ (R171 and the TPI_CAPT registers). -/
def execTpiCaptRead (k : Nat) (s : State) : Result :=
  if s.pageBusy (pg 3 2) then .next (s.emit (.readData (Reg.TPI_CAPT k) 0))
  else .next ((s.latchCapt k).emit (.readData (Reg.TPI_CAPT k) (s.rdWide (Reg.TPI_CAPT k) 3 % 2 ^ 32)))

/-! ### Fibre asymmetry (R157–R161) -/

/-- Starts the thermal build or clearance of a hairpin at a port (R157, R458). -/
def State.hairpin (s : State) (p : Nat) (set : Bool) : State :=
  let n := p / 32; let l := p % 32
  let e := s.eng n
  let rest := e.builds.filter fun b => !(b.src == l && b.dst == l)
  let stands := bit (8 * l + 5) e.standing && bits (8 * l + 4) (8 * l) e.standing == l
  s.setEng n { e with builds := if set || stands then rest ++ [⟨l, l, set, none, s.time.ticks⟩] else rest }

/-- The ASYM_CAL under way on a port, and the list without it. -/
def State.calOf (s : State) (p : Nat) : Option (CalSt × List CalSt) := takeFirst (fun (c : CalSt) => c.port == p) s.time.cal
def State.setCal (s : State) (l : List CalSt) : State := { s with time := { s.time with cal := l } }

/-- The fibre lengths in centimetres for a port: the operands, or the identity memory's record where both are zero (R159, R419). -/
def State.fibreLengths (s : State) (p u d : Nat) : Option (Nat × Nat) :=
  if u = 0 ∧ d = 0 then
    let w := (s.rd (Reg.OE_ID_DATA (p / 32) (8 + p % 32))).toNat
    let uc := w % 65536; let dc := w / 65536
    if s.flag (Reg.OE_STATUS (p / 32)) Fld.OE_STATUS_ID_OK ∧ uc ≠ 0 ∧ dc ≠ 0 then some (uc, dc) else none
  else some (u, d)

/-- Does a port carry traffic other than TC7 (R160): its link is in UP or SLUICE, and it is not drained: DRAIN is 0, or TC0–TC6 still have a packet
queued on it or being sent? -/
def State.carriesTraffic (s : State) (p : Nat) : Bool :=
  let queued := s.sw.flights.any fun f => decide (f.pkt.cls ≤ 6) && (match f.stage with
    | .queued lp => lp2p lp == p
    | .cutting lp => lp2p lp == p
    | _ => false)
  (!s.flag (Reg.PT_PORT_CFG (p / 8) (p % 8)) Fld.PT_PORT_CFG_DRAIN || queued) && ((s.link (2 * p)).st.isUp || (s.link (2 * p + 1)).st.isUp)

/-- ASYM_CAL (R157, R159, R160): the loop window opens 100 µs ahead. DESIGN CHOICE, where the spec is silent: a TARGET that R157 does not allow ends
with a free status; a port that is being calibrated already is PORT_BUSY; PORT_BUSY is judged before NO_LENGTH; on a split port CAL_START and
CAL_REPORT go over half 2p. -/
def execAsymCal (h : CmdHdr) (u d : Nat) (s : State) : Result :=
  .next (s.runCmd h 0x0301 true fun s =>
    let p := h.target
    if 512 ≤ p ∨ s.role p = 0 then (let (v, s) := s.draw; fail s (v % 65536))
    else if s.carriesTraffic p ∨ (s.calOf p).isSome then fail s 0x0100
    else match s.fibreLengths p u d with
      | none => fail s 0x0102
      | some (u, d) =>
        let w := s.time.now + 100000 * 2 ^ 32
        let s := s.sendTime (2 * p) (s.timePayload kCalStart 0 0 w 0 (w + 20000 * 2 ^ 32)) none
        ((s.setCal (s.time.cal ++ [⟨p, h, w, u, d, false⟩])).hairpin p true, none))

/-- CAL_WINDOW_END (R157): the hairpin is released at W + 20 µs. -/
def execCalWindowEnd (port : Nat) (s : State) : Result :=
  match s.calOf port with
  | none => .next s
  | some (c, rest) =>
    if c.released then .next s
    else
      let s := s.elapseToDev (c.w + 20000 * 2 ^ 32)
      .next ((s.setCal (rest ++ [{ c with released := true }])).hairpin port false)

/-- The asymmetry A in units of 2^-16 ns (R158): L as nanoseconds and 2^-16 ns, c in picoseconds, u and d in centimetres. -/
def asymmetry (ns : Nat) (corr : Int) (c u d : Nat) : Int :=
  let total := ((ns : Int) * 65536 + corr) * 1000 - (c : Int) * 65536
  roundDivEven (total * ((u : Int) - d)) (1000 * (u + d))

/-- A CAL_REPORT of a port ends its ASYM_CAL (R158, R160). -/
def State.calReport (s : State) (p : Nat) (payload : List Byte) : State :=
  match s.calOf p with
  | none => s
  | some (c, rest) =>
    if !c.released then s else
    let s := s.setCal rest
    let ns := beAt 8 6 payload * 1000000000 + beAt 14 4 payload
    let corr := beAt 24 8 payload
    if ns = 0 ∧ corr = 0 then s.complete c.hdr 3 ⟨0x0103, 0, 0, []⟩
    else
      let a := asymmetry ns (toSigned 64 corr) (s.rd (Reg.CW_DELAY (p / 32))).toNat c.up c.down
      let s := s.wr (Reg.PT_TS_ASYM (p / 8) (p % 8)) (BitVec.ofNat 32 (ofSigned 32 a))
      s.complete c.hdr 3 ⟨0, ofSigned 64 a, 0, []⟩

/-- CAL_REPORT_TIMEOUT (R160): 1 ms after the hairpin's release. -/
def execCalReportTimeout (port : Nat) (s : State) : Result :=
  match s.calOf port with
  | none => .next s
  | some (c, rest) =>
    if c.released then
      let s := s.elapseToDev (c.w + 20000 * 2 ^ 32 + 1000000 * 2 ^ 32)
      .next ((s.setCal rest).complete c.hdr 3 ⟨0x0101, 0, 0, []⟩)
    else .next s

/-- A CAL_START on a cascade port makes the device the far end of the loop (R161). -/
def State.calStart (s : State) (p : Nat) (payload : List Byte) : State :=
  if s.role p = 2 then { s with time := { s.time with calFar := Tbl.put s.time.calFar p ⟨p, tsOf 8 payload, none, none⟩ } } else s

/-- CAL_BURST (R161): between W and W + 10 µs the far end sends its burst; `moment` is the chosen moment after W, in 2^-16 ns. -/
def execCalBurst (port moment : Nat) (s : State) : Result :=
  match Tbl.find s.time.calFar port with
  | none => .next s
  | some c =>
    let at_ := c.w / 65536 + min moment (10000 * 65536)
    let s := s.elapseToDev (at_ * 65536)
    let s := { s with time := { s.time with calFar := Tbl.put s.time.calFar port { c with sentAt := some at_ } } }
    .next (s.emit (.calBurst port ((s.stampReed (2 * port)).getD 0) at_))

/-- CAL_BURST_RETURN (R161): the burst returns; `stamp` is t_rx in 2^-16 ns. -/
def execCalBurstReturn (port stamp : Nat) (s : State) : Result :=
  match Tbl.find s.time.calFar port with
  | none => .next s
  | some c =>
    if c.sentAt.isSome then
      .next { s with time := { s.time with calFar := Tbl.put s.time.calFar port { c with backAt := some stamp } } }
    else .next s

/-- CAL_LOOP_END (R161): at W + 70 µs the far end reacquires the spine's stream, and CAL_REPORT is sent. -/
def execCalLoopEnd (port : Nat) (s : State) : Result :=
  match Tbl.find s.time.calFar port with
  | none => .next s
  | some c =>
    let s := s.elapseToDev (c.w + 70000 * 2 ^ 32)
    let l := match c.sentAt, c.backAt with
      | some a, some b => b - a
      | _, _ => 0
    let s := s.sendTime (2 * port) (s.timePayload kCalReport 0 0 (l / 65536 * 2 ^ 32) (l % 65536) 0) none
    let restart := fun (s : State) (lp : Nat) =>
      let l := s.link lp
      s.setLink lp { l with replay := l.replay.map fun r => { r with sentAt := s.time.ticks } }
    .next (restart (restart { s with time := { s.time with calFar := Tbl.del s.time.calFar port } } (2 * port)) (2 * port + 1))

/-! ### Messages received and sent (R139–R154) -/

/-- Is a received time message well formed (R146)? -/
def State.timeMsgOk (s : State) (p : List Byte) : Bool :=
  s.domainOk && p.length == 64 && timeKinds.contains (beAt 0 1 p) && decide (beAt 1 1 p < 16) && beAt 2 1 p == s.domain && beAt 6 2 p == 0 && beAt 18 6 p == 0 &&
  allZero (slice 42 22 p)

/-- May a port exchange time messages: TIME_EN of its physical port; the management port always? -/
def State.timeEn (s : State) (port : Nat) : Bool :=
  port == 0x7FF || s.flag (Reg.PT_TS_CFG (lpTile port) (lpPort port)) Fld.PT_TS_CFG_TIME_EN

/-- The register field of source candidate n: VALID in bit 11 and the port. -/
def State.srcField (s : State) (n : Nat) : Nat := s.rdWide Reg.TIME_SRC_PORT 2 / 4096 ^ n % 4096

/-- Is source n valid: named, its port live, its Sync not showing LOST nor missing (R153)? -/
def State.srcValid (s : State) (n : Nat) : Bool :=
  let f := s.srcField n
  let port := f % 2048
  decide (2048 ≤ f) && (port == 0x7FF || (s.link port).st.isUp) && !Tbl.getD s.time.srcLost false port

/-- The index of the source in use. -/
def State.activeSrc (s : State) : Nat := s.fld Reg.TIME_SRC_PORT Fld.TIME_SRC_PORT_ACTIVE

/-- Moves to the source of index n, with SRC_SWITCH (R153). -/
def State.moveSource (s : State) (n : Nat) : State := (s.setFld Reg.TIME_SRC_PORT Fld.TIME_SRC_PORT_ACTIVE n).irq pgTime 7

/-- Moves to the next valid source in order; with none the index stays (R153, R154). -/
def State.switchSource (s : State) : State :=
  match (List.range 4).find? fun n => n != s.activeSrc && s.srcValid n with
  | some n => s.moveSource n
  | none => s

/-- A Sync of a source port: its LOST flag is noted. A device that takes time from sources goes back to SRC0 while that is valid, and on from a source
that is not (R153); only the Sync of a valid source in use is a sample, whose STEPS plus one is the device's own (R145, R154). -/
def State.syncSeen (s : State) (port steps : Nat) (lost : Bool) : State :=
  let s := { s with time := { s.time with
    srcLost := Tbl.set s.time.srcLost false port lost, srcAt := Tbl.set s.time.srcAt 0 port (s.time.ticks + 1) } }
  if !s.usesSources then s else
  let s := if s.activeSrc ≠ 0 ∧ s.srcValid 0 then s.moveSource 0 else if s.srcValid s.activeSrc then s else s.switchSource
  if s.srcField s.activeSrc == 2048 + port && s.srcValid s.activeSrc then { s with time := { s.time with steps := (steps + 1) % 256 } } else s

/-- The time in units of 2^-32 ns that a stamp in timestamp form spells (R114). -/
def fromStamp (x : Nat) : Nat := fromShort (x / 65536) + x % 65536 * 65536

/-- Sends a message of IEEE 1588 on the management port (R142–R144): two-step when it is marked for a stamp, and then followed by its Follow_Up; else
one-step, with its departure time, or the turnaround of a Pdelay_Resp in its correction. The destination goes by the delay mechanism. -/
def State.ptpSend (s : State) (msg seq time turn : Nat) (mark : Option Nat) : State :=
  let dest := if s.fld Reg.TIME_ROLE Fld.TIME_ROLE_MGMT_DELAY = 1 then 0x0180C200000E else 0x011B19000000
  let two := mark.isSome && (msg == 0 || msg == 3)
  let s := s.emit (.ptp dest msg s.domain two seq time (if two then 0 else turn))
  let s := match mark with | some i => s.pushStamp i 0x7FF (stampForm s.time.now) | none => s
  if two then s.emit (.ptp dest (if msg = 0 then 8 else 0x0A) s.domain false seq s.short 0) else s

/-- Is the management port a slave port: the source in use, or the reference (R150, R151)? -/
def State.mgmtSlave (s : State) : Bool :=
  (s.usesSources && s.srcField s.activeSrc == 0xFFF) || (s.fabricRole != 0 && (s.timeRef == 1 || s.timeRef == 2))

/-- The device's own part in a message of IEEE 1588 on the management port (R143, R151, R152): a sample from a Sync of one step or a Follow_Up, a Delay_Req
for a Sync, an answer to a Delay_Req and, with peer-to-peer delay, to a Pdelay_Req. The fields lie where IEEE 1588-2019 has them. -/
def State.ptpSeen (s : State) (r : TimeRx) : State :=
  let k := beAt 0 1 r.payload % 16
  let seq := beAt 30 2 r.payload
  let origin := (beAt 34 6 r.payload * 1000000000 + beAt 40 4 r.payload) * 2 ^ 32
  let p2p := s.fld Reg.TIME_ROLE Fld.TIME_ROLE_MGMT_DELAY == 1
  let take := fun (s : State) => if s.mgmtSlave then { s with time := { s.time with sample := some (origin, s.time.ticks) } } else s
  if !s.domainOk || beAt 4 1 r.payload != s.domain then s
  else if k = 0 then
    let s := s.syncSeen 0x7FF (s.time.steps + 255) false
    let s := if bit 1 (beAt 6 1 r.payload) then s else take s
    if s.mgmtSlave && !p2p then s.ptpSend 1 seq s.short 0 r.mark else s
  else if k = 8 then take s
  else if k = 1 ∧ s.fabricRole = 2 ∧ p2p = false then s.ptpSend 9 seq (r.stamp / 65536) 0 none
  else if k = 2 ∧ p2p = true then s.ptpSend 3 seq (r.stamp / 65536) ((s.time.now - fromStamp r.stamp) / 65536) r.mark
  else s

/-- The answer that a time message on a fabric port calls for (R143, R145): a Delay_Req for the Sync of the source in use on a port with end-to-end
delay, a Delay_Resp with the receipt time on one that sends Sync, a Pdelay_Resp on one with peer-to-peer delay. The sequence identifier is that
of the message answered. -/
def State.timeReply (s : State) (r : TimeRx) : State :=
  let a := Reg.PT_TS_CFG (lpTile r.port) (lpPort r.port)
  let p2p := s.flag a Fld.PT_TS_CFG_PDELAY
  let k := beAt 0 1 r.payload
  let seq := beAt 4 2 r.payload
  let fl := stateFlags s.timeState
  if k = kSync ∧ s.usesSources = true ∧ s.srcField s.activeSrc = 2048 + r.port ∧ s.srcValid s.activeSrc = true ∧ p2p = false then
    s.sendTime r.port (s.timePayload kDelayReq fl seq s.time.now 0 0) r.mark
  else if k = kDelayReq ∧ s.flag a Fld.PT_TS_CFG_SYNC_OUT = true ∧ p2p = false then
    s.sendTime r.port (s.timePayload kDelayResp fl seq (fromStamp r.stamp) 0 0) r.mark
  else if k = kPdelayReq ∧ p2p = true then
    s.sendTime r.port (s.timePayload kPdelayResp (b2n (!s.flag a Fld.PT_TS_CFG_ONE_STEP) + fl) seq s.time.now 0 (fromStamp r.stamp)) r.mark
  else s

/-- A received time message is stamped and delivered to firmware, or discarded and counted (R139, R146); `act` is what the device itself
does with it. -/
def State.timeMessage (s : State) (r : TimeRx) (act : State → State) : State :=
  if !s.timeEn r.port then s
  else if r.port = 0x7FF ∧ r.is1588 then (s.emit (.timeToFw r.port r.stamp r.payload)).ptpSeen r
  else if !s.timeMsgOk r.payload then s.addFld Reg.TIME_MSG_DROP Fld.TIME_MSG_DROP_COUNT 1
  else act (s.emit (.timeToFw r.port r.stamp r.payload))

/-- TIME_MESSAGE_RX (R139, R143, R146, R147). -/
def execTimeMessageRx (rx : TimeRx) (s : State) : Result :=
  .next (s.timeMessage rx fun s =>
    let k := beAt 0 1 rx.payload
    if k = kSync then (s.syncSeen rx.port (beAt 3 1 rx.payload) (bit 3 (beAt 1 1 rx.payload))).timeReply rx
    else if k = kCalStart then s.calStart (lp2p rx.port) rx.payload
    else if k = kCalReport then s.calReport (lp2p rx.port) rx.payload
    else s.timeReply rx)

/-- CAL_REPORT_RX (R158). -/
def execCalReportRx (rx : TimeRx) (s : State) : Result :=
  .next (s.timeMessage rx fun s => if beAt 0 1 rx.payload = kCalReport then s.calReport (lp2p rx.port) rx.payload else s)

/-- CAL_START_RX (R161). -/
def execCalStartRx (rx : TimeRx) (s : State) : Result :=
  .next (s.timeMessage rx fun s => if beAt 0 1 rx.payload = kCalStart then s.calStart (lp2p rx.port) rx.payload else s)

/-- The next sequence identifier of a kind on a port, and the state after it is taken. -/
def State.nextSeq (s : State) (port kind : Nat) : Nat × State :=
  let k := 16 * port + kind
  let q := Tbl.getD s.time.syncSeq 0 k
  (q, { s with time := { s.time with syncSeq := Tbl.set s.time.syncSeq 0 k ((q + 1) % 65536) } })

/-- A message of a kind that is sent on a port every 2^-log s goes no earlier than that after the last (R143): time passes until then. -/
def State.paced (s : State) (port kind log : Nat) : State :=
  let k := 16 * port + kind
  let s := match Tbl.getD s.time.sentAt 0 k with
    | 0 => s
    | t + 1 => s.elapseToTick (t + ceilDiv 781250000 (2 ^ log))
  { s with time := { s.time with sentAt := Tbl.set s.time.sentAt 0 k (s.time.ticks + 1) } }

/-- The exponents of the Sync and peer delay intervals, kept within what the device supports (R143): 2^-10 s and 2^-8 s at the least. -/
def State.logSync (s : State) : Nat := min 10 (s.fld Reg.TIME_ROLE Fld.TIME_ROLE_LOG_SYNC)
def State.logPdelay (s : State) : Nat := min 8 (s.fld Reg.TIME_ROLE Fld.TIME_ROLE_LOG_PDELAY)

/-- SYNC_TX (R143, R145, R148, R150): a grandmaster or plane time master sends Sync, with its time state, on a port with TIME_EN and SYNC_OUT, two-step
unless ONE_STEP; a grandmaster on the management port too, two-step when it is marked for a stamp. -/
def execSyncTx (port : Nat) (stampId : Option Nat) (s : State) : Result :=
  if !s.domainOk then .next s
  else if port = 0x7FF then
    if s.fabricRole = 2 then
      let (q, s) := (s.paced port 0 s.logSync).nextSeq port 0
      .next (s.ptpSend 0 q s.short 0 stampId)
    else .next s
  else
    let a := Reg.PT_TS_CFG (lpTile port) (lpPort port)
    if (s.fabricRole == 1 || s.fabricRole == 2) && s.flag a Fld.PT_TS_CFG_TIME_EN && s.flag a Fld.PT_TS_CFG_SYNC_OUT && (s.link port).st.isUp then
      let (q, s) := (s.paced port 0 s.logSync).nextSeq port 0
      let two := b2n (!s.flag a Fld.PT_TS_CFG_ONE_STEP)
      .next (s.sendTime port (s.timePayload kSync (two + stateFlags s.timeState) q s.time.now 0 0) stampId)
    else .next s

/-- PDELAY_REQ_TX (R143): on a port with peer-to-peer delay. -/
def execPdelayReqTx (port : Nat) (stampId : Option Nat) (s : State) : Result :=
  if !s.domainOk then .next s
  else if port = 0x7FF then
    if s.fld Reg.TIME_ROLE Fld.TIME_ROLE_MGMT_DELAY = 1 then
      let (q, s) := (s.paced port 2 s.logPdelay).nextSeq port 2
      .next (s.ptpSend 2 q s.short 0 stampId)
    else .next s
  else
    let a := Reg.PT_TS_CFG (lpTile port) (lpPort port)
    if s.flag a Fld.PT_TS_CFG_TIME_EN && s.flag a Fld.PT_TS_CFG_PDELAY && (s.link port).st.isUp then
      let (q, s) := (s.paced port 2 s.logPdelay).nextSeq port 2
      .next (s.sendTime port (s.timePayload kPdelayReq (stateFlags s.timeState) q s.time.now 0 0) stampId)
    else .next s

/-- ANNOUNCE_TX (R144): while the device is the hall grandmaster. -/
def execAnnounceTx (s : State) : Result :=
  if s.fabricRole = 2 ∧ s.domainOk = true then
    let (q, s) := s.nextSeq 0x7FF 11
    .next (s.ptpSend 11 q s.short 0 none)
  else .next s

/-- SOURCE_SWITCH (R153, R154): the source in use has sent no Sync for TIME_HOLD_WIN: time passes until that long after its last. -/
def execSourceSwitch (s : State) : Result :=
  if s.usesSources then
    let port := s.srcField s.activeSrc % 2048
    let s := match Tbl.getD s.time.srcAt 0 port with
      | 0 => s
      | t + 1 => s.elapseToTick (t + usTicks (s.rd Reg.TIME_HOLD_WIN).toNat)
    .next ({ s with time := { s.time with srcLost := Tbl.set s.time.srcLost false port true } }).switchSource
  else .next s

/-! ### Pulse outputs (R162–R167) -/

def State.tpo (s : State) (k : Nat) : TpoSt := Tbl.getD s.time.tpo ⟨0, none⟩ k
def State.setTpo (s : State) (k : Nat) (t : TpoSt) : State := { s with time := { s.time with tpo := Tbl.set s.time.tpo ⟨0, none⟩ k t } }

/-- A write of TPO_CTRL: REFUSED is W1C, FINE only while ENABLE is 0 (R165), a rise of ENABLE is judged (R164). -/
def State.tpoCtrlWrite (s : State) (k v : Nat) : State :=
  let a := Reg.TPO_CTRL k
  let was := s.flag a Fld.TPO_CTRL_ENABLE
  let s := (s.setFld a Fld.TPO_CTRL_PERIODIC (bits 30 30 v)).setFld a Fld.TPO_CTRL_SQUELCH_ON_LOST (bits 29 29 v)
  let s := s.setFld a Fld.TPO_CTRL_POLARITY (bits 28 28 v)
  let s := if bit 27 v then s.setFld a Fld.TPO_CTRL_REFUSED 0 else s
  let s := if was then s else s.setFld a Fld.TPO_CTRL_FINE (bits 4 0 v)
  if !bit 31 v then s.setFld a Fld.TPO_CTRL_ENABLE 0
  else if was then s
  else
    let per := (s.rd (Reg.TPO_PERIOD k)).toNat
    let wid := s.fld (Reg.TPO_WIDTH k) ⟨15, 0⟩
    let late := decide (fromShort (s.rdWide (Reg.TPO_START k) 2) < s.time.now + 128 * s.incr)
    if late || (bit 30 v && (decide (per < 1000) || decide (per * 100 ≤ wid * 128))) then
      (s.setFld a Fld.TPO_CTRL_REFUSED 1).irq (pg 3 1) (2 + k)
    else (s.setFld a Fld.TPO_CTRL_ENABLE 1).setTpo k { s.tpo k with next := 0 }

/-- TPO_ENABLE (R164): a write of ENABLE = 1 with the other fields as they are. -/
def execTpoEnable (k : Nat) (s : State) : Result :=
  .next (s.onPage (pg 3 1) fun s => s.tpoCtrlWrite k (withBits 31 31 1 (withBits 27 27 0 (s.rd (Reg.TPO_CTRL k)).toNat)))

/-- The device time of edge n of output k (R162): FINE delays the first edge. -/
def State.tpoTime (s : State) (k n : Nat) : Nat :=
  let start := fromShort (s.rdWide (Reg.TPO_START k) 2)
  if n = 0 then start + s.fld (Reg.TPO_CTRL k) Fld.TPO_CTRL_FINE * 40 * 2 ^ 32 / 1000
  else start + n * ((s.rd (Reg.TPO_PERIOD k)).toNat * 2 ^ 32)

/-- The number of the next edge of output k: the first not made whose time has not passed; one that a step skips is not made (R162, R167). DESIGN
CHOICE: an edge that has been made is not made again after a step back. -/
def State.tpoNext (s : State) (k : Nat) : Nat :=
  let t := s.tpo k
  if s.flag (Reg.TPO_CTRL k) Fld.TPO_CTRL_PERIODIC then
    if t.next = 0 ∧ s.time.now ≤ s.tpoTime k 0 then 0
    else max (max 1 t.next)
      (ceilDiv (s.time.now - fromShort (s.rdWide (Reg.TPO_START k) 2)) (max 1 ((s.rd (Reg.TPO_PERIOD k)).toNat * 2 ^ 32)))
  else t.next

/-- TPO_EDGE (R162, R166, R167): the edge is made at its device time, within the tick that reaches it; under SQUELCH_ON_LOST none is made from LOST
until LOCKED. -/
def execTpoEdge (k : Nat) (s : State) : Result :=
  let a := Reg.TPO_CTRL k
  let n := s.tpoNext k
  let t := s.tpoTime k n
  let past := !s.flag a Fld.TPO_CTRL_PERIODIC && (decide (0 < n) || decide (t < s.time.now))
  if !s.flag a Fld.TPO_CTRL_ENABLE || past then .next s
  else
    let s := s.elapseToDev t
    if s.flag a Fld.TPO_CTRL_SQUELCH_ON_LOST && s.time.unlocked then .next (s.setTpo k { s.tpo k with next := n + 1 })
    else
      let s := s.setTpo k ⟨n + 1, some (s.time.ticks + s.fld (Reg.TPO_WIDTH k) ⟨15, 0⟩, s.time.now - t)⟩
      .next (s.emit (.pulse k (!s.flag a Fld.TPO_CTRL_POLARITY) t))

/-- TPO_PULSE_END (R163): WIDTH ticks after its edge the pulse ends. -/
def execTpoPulseEnd (k : Nat) (s : State) : Result :=
  match (s.tpo k).highUntil with
  | none => .next s
  | some (t, lead) =>
    let s := s.elapseToTick t
    let s := s.setTpo k { s.tpo k with highUntil := none }
    .next (s.emit (.pulse k (s.flag (Reg.TPO_CTRL k) Fld.TPO_CTRL_POLARITY) (s.time.now - lead)))

/-! ### Capture inputs (R168–R171, R152) -/

def TpiSt.init : TpiSt := ⟨false, none, 0⟩
def State.tpi (s : State) (k : Nat) : TpiSt := Tbl.getD s.time.tpi TpiSt.init k
def State.setTpi (s : State) (k : Nat) (t : TpiSt) : State := { s with time := { s.time with tpi := Tbl.set s.time.tpi TpiSt.init k t } }

/-- Does a pulse on input k mark each second: TPI0 of a grandmaster or plane time master with REF 0b01 (R151)? -/
def State.marksSecond (s : State) (k : Nat) : Bool := k == 0 && s.timeRef == 1 && (s.fabricRole == 1 || s.fabricRole == 2)

/-- Is a pulse that marks the second more than 100 µs from a second boundary (R152)? DESIGN CHOICE: judged on the capture, the cable delay taken off. -/
def State.farFromSecond (s : State) (k t : Nat) : Bool :=
  let r := t % secUnits
  s.marksSecond k && decide (100000 * 2 ^ 32 < r) && decide (r + 100000 * 2 ^ 32 < secUnits)

/-- A capture at time t (2^-32 ns) marks a second (R152): the second boundary is brought onto it, by the offset that TIME_ADJ would be given (R118–R122).
Which second it is the last 1588 sample says, brought forward by the ticks since; without one it is the nearest of the device's own time. -/
def State.alignSecond (s : State) (t : Nat) : State :=
  let est := match s.time.sample with
    | some (x, at_) => x + (s.time.ticks - at_) * 128 * 2 ^ 32 / 100
    | none => t
  let sec := (est + secUnits / 2) / secUnits * secUnits
  s.commitAdj (ofSigned 64 (((sec : Int) - t) / 65536))

/-- TPI_EDGE (R152, R168, R169): a level held 20 ns; `edge` is the device time of the edge that began it, in 2^-16 ns, as the unit reads it. -/
def execTpiEdge (k : Nat) (level : Bool) (edge : Nat) (s : State) : Result :=
  let c := Reg.TPI_CTRL k; let st := Reg.TPI_STATUS k
  let s := s.elapseToDev (edge * 65536 + 20 * 2 ^ 32)
  let act := level != s.flag c Fld.TPI_CTRL_POLARITY
  let t := s.tpi k
  if t.active = act then .next s
  else if !act then
    .next ((s.setTpi k { t with active := false }).setFld st Fld.TPI_STATUS_STUCK 0)
  else
    let s := s.setTpi k { t with active := true, since := s.time.ticks - nsTicks 20 }
    if !s.flag c Fld.TPI_CTRL_ENABLE || s.flag st Fld.TPI_STATUS_STUCK then .next s
    else
      let quiet := match t.lastEvent with | some e => decide (s.time.ticks < e + usTicks 100) | none => false
      let x := edge - s.fld c Fld.TPI_CTRL_CABLE_DELAY * 65536 / 1000
      if quiet || s.farFromSecond k (x * 65536) then .next (s.addFld st Fld.TPI_STATUS_IGNORED 1)
      else
        let s := s.setTpi k { s.tpi k with lastEvent := some s.time.ticks }
        let s := (s.wrWide (Reg.TPI_CAPT k) (stampForm (x * 65536)) 3).setFld st Fld.TPI_STATUS_CAPTURED 1
        let s := s.irq (pg 3 2) (2 + k)
        .next (if s.marksSecond k then s.alignSecond (x * 65536) else s)

/-- TPI_STUCK (R170): active for more than 10 ms. -/
def execTpiStuck (k : Nat) (s : State) : Result :=
  let t := s.tpi k
  if t.active && s.flag (Reg.TPI_CTRL k) Fld.TPI_CTRL_ENABLE && !s.flag (Reg.TPI_STATUS k) Fld.TPI_STATUS_STUCK then
    let s := s.elapseToTick (t.since + usTicks 10000)
    .next (((s.setFld (Reg.TPI_STATUS k) Fld.TPI_STATUS_STUCK 1).irq (pg 3 2) (6 + k)).logErr (pg 3 2) 0x0102 0 (locBlock 3))
  else .next s

end Sys2Proof.Machine
end

