-- ==== Sys2Proof/Machine/Flights.lean ====
section
/-! DEFINITION. Discards of received packets, delivery to a function, and policing. -/
namespace Sys2Proof.Machine

/-! ### Discards and deliveries -/

/-- The packet of a received frame is discarded in its port tile or its pipeline, for a reason of R221 or none of them (0): it has left staging, and no
later check of it counts (R227). -/
def State.discardRx (s : State) (id lp reason : Nat) (p : Pkt) : State :=
  ((s.countReason lp reason p).drizzleMark id reason).rxMod id fun r => { r with left := true, counted := true }

/-- The same for a flight, whose records are made. -/
def State.discard (s : State) (f : Flight) (reason : Nat) : State :=
  (match f.from_ with | some lp => s.discardRx f.id lp reason f.pkt | none => s).tagRecord f 0xFFFF false false true false reason

/-- A copy is lost at its output (R243, R252, R256, R257, R259). -/
def State.loseCopy (s : State) (f : Flight) : State := (s.drizzleMark f.id 0).tagRecord f 0xFFFF false false true false 0

/-- Hands a packet to the function port of a die (R228, R199): what a function's own command then takes. -/
def State.deliverFn (s : State) (f : Flight) (die : Nat) : State :=
  let s := s.tagRecord f 0xFFFE false false false true 0
  { s with sw := { s.sw with fnq := Tbl.upd s.sw.fnq [] (8 * die + f.pkt.cls) (· ++ [(f.from_.getD 1024, f.pkt)]) } }

/-! ### Policing (R230–R234) -/

def polKey (lp c : Nat) : Nat := 64 * lpTile lp + 8 * lpPort lp + c
def polCfg (lp c : Nat) : Nat := Reg.PT_POL_CIR (lpTile lp) (lpPort lp) c
/-- The four settings of a policer: CIR, PIR, CBS, PBS. -/
def State.polSet (s : State) (lp c : Nat) : Nat × Nat × Nat × Nat :=
  let a := polCfg lp c
  (s.fld a Fld.PT_POL_CIR_CIR, s.fld (a + 4) Fld.PT_POL_PIR_PIR, s.fld (a + 8) Fld.PT_POL_CBS_CBS, s.fld (a + 12) Fld.PT_POL_PBS_PBS)

/-- A policer's tokens now: Tc and Tp; a bucket never written is full. -/
def State.polTokens (s : State) (lp c : Nat) : Nat × Nat :=
  let (cir, pir, cbs, pbs) := s.polSet lp c
  match Tbl.find s.sw.pol (polKey lp c) with
  | some x => (fillBucket x.tc x.at_ s.time.ticks cir cbs, fillBucket x.tp x.at_ s.time.ticks pir pbs)
  | none => (cbs * 6250, pbs * 6250)

def State.setPolTokens (s : State) (lp c tc tp : Nat) : State :=
  { s with sw := { s.sw with pol := Tbl.put s.sw.pol (polKey lp c) ⟨tc, tp, s.time.ticks⟩ } }

/-- The colour of a packet of length b (R231, R232): 0 green, 1 yellow, 2 red; and the buckets after it. -/
def State.police (s : State) (lp c pre b : Nat) : Nat × State :=
  let a := polCfg lp c
  let aware := s.flag a Fld.PT_POL_CIR_AWARE
  if pre = 3 then (2, s)
  else if !s.flag a Fld.PT_POL_CIR_ENABLE then (if aware then pre else 0, s)
  else
    let (tc, tp) := s.polTokens lp c
    let n := b * 6250
    if aware ∧ pre = 2 then (2, s)
    else if tp < n then (2, s)
    else if (aware ∧ pre = 1) ∨ tc < n then (1, s.setPolTokens lp c tc (tp - n))
    else (0, s.setPolTokens lp c (tc - n) (tp - n))

/-- A write of a policer's rate or depth fills the bucket it names (R282): word 0 CIR, 1 PIR, 2 CBS, 3 PBS. -/
def State.polWrite (s : State) (lp c word v : Nat) : State :=
  let (tc, tp) := s.polTokens lp c
  let a := polCfg lp c + 4 * word
  let mask := if word = 0 then 0xE00FFFFF else if word = 1 then 0xFFFFF else 0xFFFFFF
  let s := s.wr a (BitVec.ofNat 32 v &&& BitVec.ofNat 32 mask)
  let (_, _, cbs, pbs) := s.polSet lp c
  if word % 2 = 0 then s.setPolTokens lp c (cbs * 6250) tp else s.setPolTokens lp c tc (pbs * 6250)

end Sys2Proof.Machine
end

