-- ==== Sys2Proof/Machine/Scheduler.lean ====
section
/-! DEFINITION. The output scheduler (R368–R376, R381): eligibility, the round robin, and sending the head packet of a queue. -/
namespace Sys2Proof.Machine

/-! ### Shapers (R374–R376) -/

def shpReg (lp c : Nat) : Nat := Reg.TIDE_SHP (lpTile lp) (lpPort lp) c
def State.shpRate (s : State) (lp c : Nat) : Nat := s.fld (shpReg lp c) Fld.TIDE_SHP_RATE
def State.shpBurst (s : State) (lp c : Nat) : Nat := s.fld (shpReg lp c) Fld.TIDE_SHP_BURST

/-- A shaper's tokens now, in units of 1/6,250 byte; one never used holds BURST when RESET_FULL is 1 and none when it is 0 (R375, R376). -/
def State.shpTokens (s : State) (lp c : Nat) : Int :=
  let cap : Int := (s.shpBurst lp c : Int) * 6250
  match Tbl.find s.tide.shp (8 * lp + c) with
  | some x => min (x.tok + ((s.time.ticks - x.at_) * s.shpRate lp c : Nat)) cap
  | none => if s.flag (shpReg lp c) Fld.TIDE_SHP_RESET_FULL then cap else min ((s.time.ticks * s.shpRate lp c : Nat) : Int) cap

def State.setShp (s : State) (lp c : Nat) (t : Int) : State :=
  { s with tide := { s.tide with shp := Tbl.put s.tide.shp (8 * lp + c) ⟨t, s.time.ticks⟩ } }

/-- Does the shaper let its class send (R374)? -/
def State.shpAllows (s : State) (lp c : Nat) : Bool := !s.flag (shpReg lp c) Fld.TIDE_SHP_ENABLE || decide (0 ≤ s.shpTokens lp c)

/-- Sending a packet of b bytes takes its tokens. -/
def State.shpTake (s : State) (lp c b : Nat) : State := s.setShp lp c (s.shpTokens lp c - (b * 6250 : Nat))

/-! ### Eligibility (R369) -/

/-- The head packet of the queue of a logical port and class. -/
def State.headOf (s : State) (lp c : Nat) : Option Flight := s.sw.flights.find? fun f => f.stage == .queued lp && f.pkt.cls == c

/-- Does the link state let a class leave (R341, R349)? -/
def State.linkAllows (s : State) (lp c : Nat) : Bool := (s.link lp).st == .up || ((s.link lp).st == .sluice && c == 7)

/-- May a packet whose tail has not arrived start by cut-through (R265)? -/
def State.cutAllows (s : State) (lp : Nat) (f : Flight) : Bool :=
  match f.from_ with
  | none => false
  | some i =>
    s.flag (Reg.PT_PORT_CFG (lpTile lp) (lpPort lp)) Fld.PT_PORT_CFG_CT_EN && decide (s.rate lp ≤ s.rate i) &&
    ((s.sw.flights.filter fun g => g.stage == .queued lp && g.pkt.cls == f.pkt.cls).length == 1)

/-- Everything of R369 but the gate: a packet whose tail has arrived or may cut through, shaper, credits, replay room, link state, light,
launches, no freeze (R669). -/
def State.eligibleButGate (s : State) (lp c : Nat) : Bool :=
  match s.headOf lp c with
  | none => false
  | some f =>
    (f.whole || s.cutAllows lp f) && s.shpAllows lp c && ((s.link lp).pool c (pktUnits f.pkt)).isSome &&
    decide ((s.link lp).replayUsed + pktCells f.pkt ≤ s.replayCells lp) && s.linkAllows lp c && !s.dark (lp2p lp) && s.launchAllows lp (s.lineTime lp f.pkt) &&
    !(s.frozen && decide (c ≤ 6)) && !s.calSilent (lp2p lp) && (s.link lp).resendFrom.isNone

/-- Is a class eligible (R369)? -/
def State.eligible (s : State) (lp c : Nat) : Bool :=
  s.eligibleButGate lp c && (match s.headOf lp c with | some f => s.gateOpen lp f.pkt | none => false)

/-- Notes the classes that only their gate holds: each is counted once in GUARD_HOLD until the gate next allows it (R381). -/
def State.guardHolds (s : State) (lp : Nat) : State :=
  if s.tideState (lp2p lp) ≠ 2 then s else
  (List.range 8).foldl (fun s c =>
    let k := 8 * lp + c
    match s.headOf lp c with
    | none => s
    | some f =>
      if s.gateOpen lp f.pkt then { s with tide := { s.tide with held := Tbl.set s.tide.held false k false } }
      else if s.eligibleButGate lp c && !Tbl.getD s.tide.held false k then
        ({ s with tide := { s.tide with held := Tbl.set s.tide.held false k true } }).inc (Cnt.TIDE_GUARD_HOLD (lpTile lp) (lpPort lp))
      else s) s

/-- A head packet that waits for replay cells counts one REPLAY_STALL for its wait (R338). -/
def State.replayStalls (s : State) (lp : Nat) : State :=
  let l := s.link lp
  let waits := (List.range 8).any fun c =>
    match s.headOf lp c with
    | some f => decide (s.replayCells lp < l.replayUsed + pktCells f.pkt)
    | none => false
  if waits && !l.stalled then s.setLink lp { l with stalled := true, replayStall := min (l.replayStall + 1) 0xFFFFFFFF }
  else if !waits && l.stalled then s.setLink lp { l with stalled := false }
  else s

/-! ### The round robin (R368, R370, R371) -/

def State.quantum (s : State) (lp c : Nat) : Nat := 64 * max 1 (s.fld (Reg.TIDE_DRR (lpTile lp) (lpPort lp) c) Fld.TIDE_DRR_QUANTUM)

/-- The class after c in the rotation TC6, TC5, … TC0. -/
def rrNext (c : Nat) : Nat := if c = 0 then 6 else c - 1

def State.setRr (s : State) (lp c : Nat) : State := { s with tide := { s.tide with rr := Tbl.set s.tide.rr 0 lp (6 - c) } }
def State.setDeficit (s : State) (lp c d : Nat) (fresh : Bool) : State :=
  { s with tide := { s.tide with
      deficit := Tbl.set s.tide.deficit 0 (8 * lp + c) d
      fresh := Tbl.set s.tide.fresh false (8 * lp + c) fresh } }

/-- The round robin of R370 over the eligible classes given, from class c: the class that sends, and the deficits after it. -/
def State.rrPick (s : State) (lp : Nat) (elig : List Nat) : Nat → Nat → Option Nat × State
  | 0, _ => (none, s)
  | fuel + 1, c =>
    if !elig.contains c then State.rrPick s lp elig fuel (rrNext c)
    else
      let k := 8 * lp + c
      let d := Tbl.getD s.tide.deficit 0 k + (if Tbl.getD s.tide.fresh false k then 0 else s.quantum lp c)
      match s.headOf lp c with
      | none => (none, s)
      | some f =>
        let b := pktLen f.pkt
        if b ≤ d then
          let alone := (s.sw.flights.filter fun g => g.stage == .queued lp && g.pkt.cls == c).length == 1
          (some c, if alone then (s.setDeficit lp c 0 false).setRr lp (rrNext c) else (s.setDeficit lp c (d - b) true).setRr lp c)
        else State.rrPick ((s.setDeficit lp c d false).setRr lp (rrNext c)) lp elig fuel (rrNext c)

/-- The class a free transmitter serves (R368). In LOST TC6 is served by the round robin whatever TC6_MODE is (R130). -/
def State.pickClass (s : State) (lp : Nat) : Option Nat × State :=
  let q := lp2p lp
  let run := s.tideState q == 2
  let tc6rr := !run && (!s.flag (Reg.TIDE_PORT_CFG (q / 8) (q % 8)) Fld.TIDE_PORT_CFG_TC6_MODE || s.tideState q == 3 || s.timeState == 4)
  if s.eligible lp 7 then (some 7, s)
  else if run && s.eligible lp 6 then (some 6, s)
  else
    let el := (List.range 7).filter fun c => (c != 6 || tc6rr) && s.eligible lp c
    if el.isEmpty then (none, s) else s.rrPick lp el 700 (6 - Tbl.getD s.tide.rr 0 lp)

/-! ### Sending (R142, R191, R251, R262, R265–R267, R283, R332, R338) -/

/-- A one-step Sync carries its departure time, and a one-step Pdelay_Resp its turnaround (R142). -/
def State.oneStep (s : State) (lp : Nat) (p : Pkt) : Pkt :=
  let isTime := p.typ == 0x30 && p.payload.length == 64 && s.flag (Reg.PT_TS_CFG (lpTile lp) (lpPort lp)) Fld.PT_TS_CFG_ONE_STEP &&
    !bit 0 (beAt 1 1 p.payload)
  if !isTime then p
  else if beAt 0 1 p.payload = kSync then
    let pl := p.payload.take 8 ++ tsBytes s.time.now ++ p.payload.drop 18
    { p with payload := pl, pcrc := crc32c (beBytes 4 p.offset ++ pl) }
  else if beAt 0 1 p.payload = kPdelayResp then
    let corr := beAt 24 8 p.payload + (s.time.now - tsOf 32 p.payload) / 65536
    let pl := p.payload.take 24 ++ beBytes 8 corr ++ p.payload.drop 32
    { p with payload := pl, pcrc := crc32c (beBytes 4 p.offset ++ pl) }
  else p

/-- The packet as it leaves: a time message of the device's own with its departure in it (R142), HOP raised, CMARK set where it is marked, HCRC
recomputed (R191, R198, R262). -/
def State.leaving (s : State) (lp : Nat) (f : Flight) : Pkt :=
  let p := if f.from_.isNone then s.oneStep lp f.pkt else f.pkt
  withHcrc { p with hop := (p.hop + 1) % 16, cmark := if f.marked then 1 else p.cmark }

/-- A two-step Sync or Pdelay_Resp of the device has left: its Follow_Up carries the time it left at (R143, R145). -/
def State.followUp (s : State) (lp : Nat) (f : Flight) : State :=
  let k := beAt 0 1 f.pkt.payload
  if f.from_.isNone && f.pkt.typ == 0x30 && bit 0 (beAt 1 1 f.pkt.payload) && (k == kSync || k == kPdelayResp) then
    s.sendTime lp (s.timePayload (if k = kSync then kFollowUp else kPdelayRespFollowUp) (stateFlags s.timeState) (beAt 4 2 f.pkt.payload)
      s.time.now 0 0) none
  else s

/-- Starts the head packet f of a logical port's class queue: at once as a whole when all of it is there, else by cut-through. -/
def State.sendHead (s : State) (lp : Nat) (f : Flight) : State :=
  let c := f.pkt.cls
  let p := s.leaving lp f
  let l := s.link lp
  let q := l.txSeq
  let shared := (l.pool c (pktUnits p)).getD false
  let rest := (takeFirst (fun (h : Flight) => h.isAt f.id (.queued lp)) s.sw.flights).elim s.sw.flights (·.2)
  let s := (s.inc (Cnt.PT_TX_PACKETS (lpTile lp) (lpPort lp))).pmcEvent 2 c lp 1
  let s := ((s.pmcEvent 3 c lp (pktUnits p)).setFlights rest).occSub lp c (pktCells p)
  let s := if s.flag (shpReg lp c) Fld.TIDE_SHP_ENABLE then s.shpTake lp c (pktLen p) else s
  let l := (l.take shared c (pktUnits p))
  let s := s.setLink lp { l with txSeq := (q + 1) % 65536, replay := l.replay ++ [⟨q, p, pktCells p, s.time.ticks, false⟩] }
  let g := s.stageAt (s.stageAt { f with pkt := p } 5) 6
  let s := s.drizzleSee lp true p (some f.id)
  let s := match f.stampId with | some i => s.pushStamp i lp (stampForm s.time.now) | none => s
  if f.whole then
    let s := (s.emit (.tx lp (s.ownHeader lp 1 q) p false false)).drizzleEnd f.id (some lp) false false (pktLen p)
    (s.tagRecord g lp false false false false 0).followUp lp f
  else s.setFlights (s.sw.flights ++ [{ g with stage := .cutting lp }])

end Sys2Proof.Machine
end

