-- ==== Sys2Proof/Machine/Switch.lean ====
section
/-! DEFINITION. The switch core (chapter 5): a packet's way from its receive face to its transmit face, and the PT, QM and RING registers
that act on a write. -/
namespace Sys2Proof.Machine

/-! ### Ingress (R225–R234) -/

/-- The reason a packet is discarded at its header: the checks of R227, the sluice of its port (R349), and, for a packet addressed to a function, its
reserved fields (R179), unless its generation gives the lower reason (R221). -/
def State.rxReason (s : State) (lp : Nat) (p : Pkt) : Option Nat :=
  let r := s.headerReason (s.role (lp2p lp) == 2) p
  if (s.link lp).st == .sluice && decide (p.cls ≤ 6) then
    some (min (r.getD rStale) (if !pflag p fDstSpine && s.badAddr p.dst then rUnroutable else rStale))
  else if r.isNone && reservedSet p then some (if s.fnStale (lp / 64) p then rStale else rReserved)
  else r

/-- The frame of a packet that a link receives is open, and its packet, where the HCRC is right, is counted and met by the samplers (R276, R283, R332). -/
def State.openRx (s : State) (lp : Nat) (p : Pkt) (shared : Bool) : State :=
  let id := s.sw.nextId
  let l := s.link lp
  let s := { s with sw := { s.sw with nextId := id + 1, rx := s.sw.rx ++ [(⟨id, lp, p, shared, false, false, false, false, false⟩ : RxFrame)] } }
  let s := s.setLink lp { l with rxOpen := some id }
  if p.hcrc = hcrcOf p then ((s.inc (Cnt.PT_RX_PACKETS (lpTile lp) (lpPort lp))).pmcEvent 1 p.cls lp 1).drizzleSee lp false p (some id) else s

/-- PACKET_RX (R227, R228, R332): a DATA frame's link header and packet arrive: header checks in the order of R221, samplers, policing, staging. Nothing of
a frame whose header is bad, or whose LSEQ is not the one expected, is used; nor of one while another is still being received. `shared`: its credits came
from the shared pool. -/
def execPacketRx (lport : Nat) (header : List Byte) (pkt : Pkt) (shared : Bool) (s : State) : Result :=
  let l := s.link lport
  if !l.st.isUp || s.ignoresLight (lp2p lport) || l.rxOpen.isSome || !hdrGood header || hdrType header != 1 || hdrSeq header != l.rxSeq then .next s else
  let t := lpTile lport; let j := lpPort lport
  let id := s.sw.nextId
  let s := s.openRx lport pkt shared
  match s.rxReason lport pkt with
  | some r => .next (s.discardRx id lport r pkt)
  | none =>
    let (p, track, s) := s.tagSee lport pkt
    let (col, s) := s.police lport p.cls (colour p) (pktLen p)
    let p := withHcrc (withColour p col)
    let s := s.inc (if col = 0 then Cnt.PT_GREEN t j else if col = 1 then Cnt.PT_YELLOW t j else Cnt.PT_RED t j)
    let f : Flight := ⟨id, p, some lport, .staged, [], false, false, none, 0, s.time.ticks, track, none, lport / 128, 0, false⟩
    if col = 2 && s.flag (polCfg lport p.cls) Fld.PT_POL_CIR_RED_DROP then .next ((s.inc (Cnt.PT_POL_DROP t j)).discard f 0)
    else .next (s.setFlights (s.sw.flights ++ [f]))

/-- The reason that the tail of an accepted frame's packet is bad for: none when it is whole; 0 for a verdict that R221 does not name (R199, R200, R266,
R269). A stale packet for a function has the lower reason (R221). -/
def State.tailReason (s : State) (r : RxFrame) (frameLen : Nat) (stomped late : Bool) : Option Nat :=
  if frameLen ≠ pktLen r.pkt then some rLength
  else if r.pkt.pcrc ≠ pcrcOf r.pkt || stomped then some (if pflag r.pkt fDstSpine && s.fnStale (r.lport / 64) r.pkt then rStale else rPcrc)
  else if late && s.sw.flights.any fun f => f.id == r.id && (match f.stage with | .cutting _ => true | _ => false) then some 0
  else none

/-- The tail has come and is whole: the packet's last flit may follow the others. -/
def State.tailGood (s : State) (id frameLen : Nat) : State :=
  let s := (s.drizzleEnd id none false false frameLen).rxMod id fun r => { r with tailed := true }
  s.setLegs (s.sw.legs.map fun l => if l.id = id ∧ l.out = none then { l with ready := l.flits } else l)

/-- PACKET_TAIL (R199, R200, R266–R269, R332): the frame's length, the FEC verdict, the stomp indication, and whether the tail reaches the egress too
late. An uncorrectable codeword spoils the copies at once; the packet of a frame is judged once the link layer has accepted the frame, even where every
copy of it is gone. -/
def execPacketTail (id frameLen : Nat) (fecBad stomped late : Bool) (s : State) : Result :=
  let done := fun (r : RxFrame) => { r with left := true, tailed := true, counted := true }
  match s.sw.rx.find? fun r => r.id == id && !r.tailed with
  | none => .next s
  | some r =>
    if fecBad then .next (((s.spoilAll id 0).drizzleEnd id none stomped true frameLen).rxMod id done)
    else if !r.accepted then .next s
    else
      let s := if stomped then s.inc (Cnt.PT_STOMP_RX (lpTile r.lport) (lpPort r.lport)) else s
      match s.tailReason r frameLen stomped late with
      | some e =>
        let s := if r.counted then s else s.countReason r.lport e r.pkt
        .next (((s.spoilAll id e).drizzleEnd id none stomped true frameLen).rxMod id done)
      | none => .next (s.tailGood id frameLen)

/-! ### The lookup slot (R228, R229, R287–R291, R314, R320, R353) -/

/-- The first number at or after ptr, wrapping below n, that satisfies p. -/
def rotate (n ptr : Nat) (p : Nat → Bool) : Option Nat := ((List.range n).map fun i => (ptr + i) % n).find? p

/-- The staged packet that pipeline n looks up next (R229), and the rotation pointers after it: tiles in turn, then ports, then the oldest. -/
def State.nextStaged (s : State) (n : Nat) : Option (Flight × State) :=
  let staged := s.sw.flights.filter fun f => f.stage == .staged
  let at_ := fun (t j : Nat) (f : Flight) => match f.from_ with | some lp => lpTile lp == t && lpPort lp == j | none => false
  match rotate 4 (Tbl.getD s.sw.tileRot 0 n) fun i => (List.range 8).any fun j => staged.any (at_ (4 * n + i) j) with
  | none => none
  | some i =>
    let t := 4 * n + i
    match rotate 8 (Tbl.getD s.sw.portRot 0 t) fun j => staged.any (at_ t j) with
    | none => none
    | some j =>
      match staged.find? (at_ t j) with
      | none => none
      | some f => some (f, { s with sw := { s.sw with
          tileRot := Tbl.set s.sw.tileRot 0 n ((i + 1) % 4)
          portRot := Tbl.set s.sw.portRot 0 t ((j + 1) % 8) } })

/-- Move detection (R314). -/
def State.moveDetect (s : State) (n lp : Nat) (p : Pkt) : State :=
  let q := s.pipe n
  match rowOfPort q lp with
  | none => s
  | some x =>
    let named := match ovrLookup q (feidKey p.src) with
      | some h => ovrKindOf h.2.2 == 0 && ovrTarget h.2.2 == x
      | none => false
    if s.flag (Reg.FWT_CTRL 0) Fld.FWT_CTRL_MOVE_DETECT && !pflag p fSrcSpine && feidLeaf p.src != x && !named then
      let s := (s.inc (Cnt.FWT_MOVE_SEEN n)).irq (pg 6 n) 5
      let last := Tbl.getD s.fwt.moveAt 0 n
      if last = 0 ∨ last - 1 + usTicks 1 ≤ s.time.ticks then
        ({ s with fwt := { s.fwt with moveAt := Tbl.set s.fwt.moveAt 0 n (s.time.ticks + 1) } }).emit (.notice 0x0314 [lp, p.src])
      else s
    else s

/-- The lookup of a packet addressed to a function: the sluice list (R353) and, for TELEM, its source's generation (R202). -/
def State.fnReason (s : State) (n : Nat) (p : Pkt) : Option (Nat × List Nat) :=
  if p.cls ≤ 6 ∧ s.sluiced (feidKey p.src) then some (rStale, [Cnt.FWT_STALE_SRC n])
  else if p.typ = 0x28 then
    if genPass p ((s.pipe n).srcGen p.src) then none else some (rStale, [Cnt.FWT_STALE_SRC n])
  else none

/-- A packet leaves its lookup for the destinations given: its flits may enter the ring toward the switch, the last one once its tail is known to be
good (R235–R238). -/
def State.forward (s : State) (f : Flight) (ds : List Dest) : State :=
  let n := pktFlits f.pkt
  let whole := match s.rxOf f.id with | some r => r.tailed | none => true
  (s.setFlights (s.sw.flights ++ [{ f with stage := .routed, dests := ds, replica := decide (1 < ds.length), at_ := s.time.ticks }])).setLegs
    (s.sw.legs ++ [legIn f.id (lp2p (f.from_.getD 0)) f.pkt.cls n (if whole then n else n - 1)])

/-- PIPELINE_LOOKUP (R287–R291): `ue` names a table word that reads with an uncorrectable error (R320). A time message is never forwarded: whatever its
DST, the time core of the die takes it (R139, R147). -/
def execPipelineLookup (n : Nat) (ue : Option Nat) (s : State) : Result :=
  match s.nextStaged n with
  | none => .next s
  | some (f, s) =>
    let lp := f.from_.getD 0
    let s := s.setFlights (s.sw.flights.filter (· != f))
    let f := s.stageAt f 1
    match ue with
    | some w =>
      let s := ((s.inc (Cnt.FWT_TABLE_UE n)).logErr (pg 6 n) 0x0101 2 (locTile (4 * n) 31)).irq (pg 6 n) 4
      let s := s.discard f rUnroutable
      .next { s with fwt := { s.fwt with cmpUrgent := Tbl.set s.fwt.cmpUrgent 0 n (w + 1) } }
    | none =>
      if pflag f.pkt fDstSpine || f.pkt.typ == 0x30 then
        match s.fnReason n f.pkt with
        | some (r, cs) => .next ((cs.foldl State.inc s).discard f r)
        | none => .next (s.forward f [.fn (tileDie (lpTile lp))])
      else
        match s.lookupDecide n (s.role (lp2p lp) == 1) f.pkt with
        | (.discard r cs, s) => .next ((cs.foldl State.inc s).discard f r)
        | (.forward r cnt, s) =>
          let s := s.moveDetect n lp f.pkt
          let mode := s.fld (Reg.PT_PORT_CFG (lpTile lp) (lpPort lp)) Fld.PT_PORT_CFG_SPRAY_MODE
          let (ps, s) := (s.inc cnt).resolve n (if mode = 3 then 0 else mode) f.pkt r
          if ps.isEmpty ∧ r ≠ .flood then .next ((s.inc (Cnt.PT_NO_PATH (lpTile lp) (lpPort lp))).discard f 0)
          else if ps.isEmpty then .next (s.discard f 0)
          else .next (s.forward f (ps.map fun lp => .port lp f.pkt.dst f.pkt.seq))

/-! ### Rings (R235–R243, R357) -/

/-- The flits of a class that have a place in the queue of a switch input for an output, taken as their heads enter the ring (R357): those not yet
through the switch. -/
def State.switchHeld (s : State) (inp o c : Nat) : Nat :=
  let mine := s.sw.flights.filter fun f => f.inp == inp && f.pkt.cls == c && (f.dests.any fun d => d.output == o) &&
    (f.stage == .atSwitch || (f.stage == .routed && s.sw.legs.any fun l => l.id == f.id && l.out.isNone && decide (0 < l.sent)))
  (mine.map fun f => pktFlits f.pkt - (match s.sw.flights.find? fun g => g.isAt f.id (.toOutput o) with | some g => g.got | none => 0)).foldl (· + ·) 0

/-- Are switch credits held for every flit of a packet, at each output it goes to (R357)? -/
def State.switchCredits (s : State) (id : Nat) : Bool :=
  match s.sw.flights.find? fun f => f.isAt id .routed with
  | some f => f.dests.all fun d => decide (s.switchHeld f.inp d.output f.pkt.cls + pktFlits f.pkt ≤ 17 + Config.switchSpare)
  | none => true

/-- The next flit of class c in transit over the link of ring r from a stop: the oldest in the stop's buffer, which moves on while the next stop has a
free flit buffer and no other packet of its class holds the link (R239, R240). -/
def State.ringTransit (s : State) (r stop c : Nat) : Option Leg :=
  let x := s.ringSt r
  match Tbl.getD x.buf [] (8 * stop + c) with
  | [] => none
  | k :: _ =>
    let held := match Tbl.find x.hold (8 * stop + c) with | some h => h.1 != k | none => false
    if held || decide (4 ≤ (Tbl.getD x.buf [] (8 * nextStop (r % 2 == 1) stop + c)).length) then none
    else s.sw.legs.find? fun l => l.key == k

/-- The next flit of class c that enters the link: of the packet that came first, its head only into a buffer with two free places and with its switch
credits held, any other flit into one free place (R239, R240, R357). -/
def State.ringEntry (s : State) (r stop c : Nat) : Option Leg :=
  let x := s.ringSt r
  let room := 4 - (Tbl.getD x.buf [] (8 * nextStop (r % 2 == 1) stop + c)).length
  match s.sw.legs.find? fun l => l.ring == r && l.src == stop && l.cls == c && decide (l.sent < l.flits) with
  | none => none
  | some l =>
    let free := match Tbl.find x.hold (8 * stop + c) with | some h => h.1 == l.key | none => true
    let fits := if l.sent = 0 then decide (2 ≤ room) && (l.out.isSome || s.switchCredits l.id) else decide (1 ≤ room)
    if free && decide (l.sent < l.ready) && fits then some l else none

/-- The class that a ring link serves (R241): TC7, TC6, then TC5 to TC0 in turn; and the rotation after it. -/
def classPick (rot : Nat) (ok : Nat → Bool) : Option (Nat × Nat) :=
  if ok 7 then some (7, rot)
  else if ok 6 then some (6, rot)
  else (rotate 6 rot fun i => ok (5 - i)).map fun i => (5 - i, (i + 1) % 6)

/-- The flit that a ring link moves in this cycle (R241): one in transit before one that enters. The leg, whether it enters, the rotation after it. -/
def State.ringPick (s : State) (r stop : Nat) : Option (Leg × Bool × Nat) :=
  let rot := Tbl.getD (s.ringSt r).rot 0 stop
  match classPick rot fun c => (s.ringTransit r stop c).isSome with
  | some (c, k) => (s.ringTransit r stop c).map fun l => (l, false, k)
  | none => match classPick rot fun c => (s.ringEntry r stop c).isSome with
    | some (c, k) => (s.ringEntry r stop c).map fun l => (l, true, k)
    | none => none

/-- Does a copy still wait at its output tile for an egress port? -/
def State.waitsAt (s : State) (id p : Nat) : Bool :=
  s.sw.flights.any fun f => f.isAt id (.toOutput (p / 64)) && f.dests.any fun d => match d with | .port lp _ _ => lp2p lp == p | .fn _ => false

/-- A way that has ended goes once no copy at its end waits for it. -/
def State.legTidy (s : State) (id p : Nat) : State :=
  if s.waitsAt id p then s else s.setLegs (s.sw.legs.filter fun l => !(l.id == id && l.out == some p && l.got == l.flits))

/-- All of a packet is at the tile of an egress port: its copies may leave whole, and one being sent by cut-through ends (R265). -/
def State.legDone (s : State) (id p : Nat) : State :=
  let here := fun (f : Flight) => f.id == id && (match f.stage.lport with | some lp => lp2p lp == p | none => false)
  let s := s.setFlights (s.sw.flights.map fun f => if here f then { f with whole := true } else f)
  let cut := s.sw.flights.filter fun f => here f && (match f.stage with | .cutting _ => true | _ => false)
  let s := s.setFlights (s.sw.flights.filter fun f => !cut.contains f)
  (cut.foldl (fun s f => s.endCut (f.stage.lport.getD 0) f false) s).legTidy id p

/-- A flit leaves its ring at the stop it goes to (R242, R357): its switch input queue, or its output tile. -/
def State.flitArrives (s : State) (l : Leg) : State :=
  match l.out with
  | none =>
    let s := s.setFlights (s.sw.flights.map fun f =>
      if f.isAt l.id .routed then { f with stage := .atSwitch, got := 1, at_ := s.time.ticks } else if f.isAt l.id .atSwitch then { f with got := f.got + 1 } else f)
    if l.got = l.flits then s.setLegs (s.sw.legs.filter fun x => x.key != l.key) else s
  | some p => if l.got = l.flits then s.legDone l.id p else s

/-- A flit of a leg moves over the link of ring r from a stop (R239, R242); the last flit of a received packet to enter leaves staging empty of it. -/
def State.moveFlit (s : State) (r stop : Nat) (l : Leg) (enters : Bool) : State :=
  let x := s.ringSt r
  let n := nextStop (r % 2 == 1) stop
  let here := 8 * stop + l.cls
  let buf := if enters then x.buf else Tbl.upd x.buf [] here (·.drop 1)
  let buf := if n = l.dst then buf else Tbl.upd buf [] (8 * n + l.cls) (· ++ [l.key])
  let passed := (match Tbl.find x.hold here with | some h => h.2 | none => 0) + 1
  let hold := if passed = l.flits then Tbl.del x.hold here else Tbl.put x.hold here (l.key, passed)
  let m : Leg := { l with sent := l.sent + b2n enters, got := l.got + b2n (n == l.dst) }
  let s := (s.setRingSt r { x with buf := buf, hold := hold }).setLegs (s.sw.legs.map fun y => if y.key = l.key then m else y)
  let s := if enters && l.out.isNone then
      let s := if l.sent = 0 then s.setFlights (s.sw.flights.map fun f => if f.isAt l.id .routed then s.stageAt f 2 else f) else s
      if m.sent = l.flits then s.leftStaging l.id else s
    else s
  if n = l.dst then s.flitArrives m else s

/-- RING_FLIT_ENTRY (R237–R243, R281, R357): one cycle of the link of a ring from a stop. One flit moves, if one may; `err` is the ECC verdict over it. -/
def execRingFlitEntry (quad pair : Nat) (ccw : Bool) (stop : Nat) (err : FlitErr) (s : State) : Result :=
  let r := 16 * quad + 2 * pair + b2n ccw
  match s.ringPick r stop with
  | none => .next s
  | some (l, enters, k) =>
    let s := s.setRingSt r { s.ringSt r with rot := Tbl.set (s.ringSt r).rot 0 stop k }
    let lose := fun (s : State) => match l.out with
      | some p => s.spoilPort l.id p
      | none => (s.spoilAll l.id 0).leftStaging l.id
    match err with
    | .none => .next (s.moveFlit r stop l enters)
    | .corrected => .next ((s.inc (Cnt.RING_PAIR_CE quad pair)).moveFlit r stop l enters)
    | .uncorrectable =>
      let s := s.inc (Cnt.RING_PAIR_UE quad pair)
      .next (lose ((s.logErr (pg 7 quad) 0x0100 2 (locQuad quad)).irq (pg 7 quad) 2))
    | .staging =>
      if enters && l.out.isNone then
        let t := 8 * quad + stop - 1
        .next (lose (s.logErr (pg 4 t) 0x0100 2 (locTile t 31)))
      else .next (s.moveFlit r stop l enters)

/-! ### The quadrant switch and the bridge (R244–R249) -/

/-- The copy that a switch output carries of a packet, and the flits of it that have passed. -/
def State.carried (s : State) (id o : Nat) : Option Flight := s.sw.flights.find? fun g => g.isAt id (.toOutput o)
def State.passed (s : State) (id o : Nat) : Nat := match s.carried id o with | some g => g.got | none => 0

/-- The first packet in the queue of a switch input for an output and class. -/
def State.firstFor (s : State) (inp o c : Nat) : Option Flight :=
  s.sw.flights.find? fun f => f.stage == .atSwitch && f.inp == inp && f.pkt.cls == c && f.dests.any fun d => d.output == o

/-- May the first packet of a switch input's queue pass a flit: one of it is there, and no other packet keeps the output within its class (R244)? -/
def State.grantable (s : State) (inp o c : Nat) : Option Flight :=
  match s.firstFor inp o c with
  | none => none
  | some f =>
    let kept := s.sw.flights.any fun g => g.stage == .toOutput o && g.pkt.cls == c && g.id != f.id && decide (g.got < pktFlits g.pkt)
    if !kept && decide (s.passed f.id o < f.got) then some f else none

/-- What an output grants (R244): TC7 first, TC6 second, each to the input that has waited longest, then rotation over the (input, class) pairs; with the
pair for the pointer. -/
def State.grantPick (s : State) (o : Nat) : Option (Flight × Option Nat) :=
  let oldest := fun (c : Nat) => s.sw.flights.find? fun f => f.stage == .atSwitch && f.pkt.cls == c && s.grantable f.inp o c == some f
  match oldest 7 with
  | some f => some (f, none)
  | none =>
    match oldest 6 with
    | some f => some (f, none)
    | none =>
      match rotate 80 (Tbl.getD s.sw.swRot 0 o) fun k => decide (k % 8 ≤ 5) && (s.grantable (k / 8) o (k % 8)).isSome with
      | none => none
      | some k => (s.grantable (k / 8) o (k % 8)).map fun f => (f, some k)

/-- A flit of a packet passes a switch output. The first one makes the output's copy, which goes on by a way to the tile of each egress port it serves
(R236, R249); the last one ends it at the switch, and a packet for a function is handed over. -/
def State.passFlit (s : State) (f : Flight) (o : Nat) : State :=
  let n := pktFlits f.pkt
  let got := s.passed f.id o + 1
  let mine := f.dests.filter fun d => d.output == o
  let s := match s.carried f.id o with
    | some _ =>
      (s.setFlights (s.sw.flights.map fun g => if g.isAt f.id (.toOutput o) then { g with got := got, resends := 0 } else g)).setLegs
        (s.sw.legs.map fun l => if l.id == f.id && (match l.out with | some p => p / 64 == o | none => false) then { l with ready := got } else l)
    | none =>
      let ports := (mine.filterMap fun d => match d with | .port lp _ _ => some (lp2p lp) | .fn _ => none).eraseDups
      let g := { s.stageAt f 3 with stage := .toOutput o, dests := mine, at_ := s.time.ticks, got := 1, resends := 0, whole := false }
      (s.setFlights (s.sw.flights ++ [g])).setLegs (s.sw.legs ++ ports.map fun p => { legOut f.id p f.pkt.cls n with ready := 1 })
  if got < n then s
  else
    let rest := f.dests.filter fun d => d.output != o
    let s := s.setFlights (s.sw.flights.flatMap fun h =>
      if h.isAt f.id .atSwitch then (if rest.isEmpty then [] else [{ h with dests := rest }])
      else if h.isAt f.id (.toOutput o) && (decide (8 ≤ o) || h.dests.isEmpty) then [] else [h])
    if 8 ≤ o then s.deliverFn (s.stageAt f 3) (o - 8) else s

/-- SWITCH_GRANT (R244, R245, R249): an output takes one flit of one packet. -/
def execSwitchGrant (output : Nat) (s : State) : Result :=
  match s.grantPick output with
  | none => .next s
  | some (f, k) =>
    let s := match k with
      | some k => { s with sw := { s.sw with swRot := Tbl.set s.sw.swRot 0 output ((k + 1) % 80) } }
      | none => s
    .next (s.passFlit f output)

/-- The die of a switch input, and the quadrant whose RING page counts what crosses the bridge from it. -/
def inputDie (inp : Nat) : Nat := if inp < 8 then inp / 4 else inp - 8
def inputQuad (inp : Nat) : Nat := if inp < 8 then inp else 4 * (inp - 8)

/-- BRIDGE_FLIT_RETRY (R246): a flit of the copy for an output of the other die fails its CRC on the SC0–SC1 bridge. -/
def execBridgeFlitRetry (id output : Nat) (s : State) : Result :=
  match s.carried id output with
  | none => .next s
  | some f =>
    let q := inputQuad f.inp
    if inputDie f.inp = output / 4 then .next s
    else if f.resends < 16 then
      let s := s.setFlights (s.sw.flights.map fun g => if g.isAt id (.toOutput output) then { g with resends := g.resends + 1 } else g)
      .next (s.inc (Cnt.RING_XB_RETRY q))
    else .next (((s.logErr (pg 7 q) 0x0101 2 (locQuad q)).irq (pg 7 q) 3).spoilOutput id output)

/-! ### Output queues (R249–R263) -/

/-- The LFSR of a tile; a tile never drawn from or loaded holds the reset seed. -/
def State.lfsr (s : State) (t : Nat) : Nat := Tbl.getD s.sw.lfsr 0xACE1 t

/-- The limit of a queue (R252, R255). -/
def State.qLimit (s : State) (lp c : Nat) : Nat :=
  let v := s.fld (Reg.QM_LIMIT (lpTile lp) (lpPort lp) c) Fld.QM_LIMIT_LIMIT
  if s.isSplit (lp2p lp) then v / 2 else v

/-- What early drop decides (R259): drop, mark or neither, and the state with the draw taken. -/
inductive EarlyDrop where
  | drop | mark | none
  deriving DecidableEq, Repr

def State.earlyDrop (s : State) (lp : Nat) (p : Pkt) (occ limit : Nat) : EarlyDrop × State :=
  let a := Reg.QM_PROF (lpTile lp) p.cls (min 2 (colour p))
  let mn := s.fld a Fld.QM_PROF_MIN; let mx := s.fld a Fld.QM_PROF_MAX
  let lo := mn * limit / 16; let hi := mx * limit / 16
  let act : EarlyDrop := if s.fld a Fld.QM_PROF_ACTION = 0 then .drop else .mark
  if mx ≤ mn ∨ occ < lo then (.none, s)
  else if hi ≤ occ then (act, s)
  else
    let thr := (s.fld a Fld.QM_PROF_MAXP + 1) * 256 * (occ - lo) / (hi - lo)
    let x := lfsr16Next (s.lfsr (lpTile lp))
    let s := { s with sw := { s.sw with lfsr := Tbl.set s.sw.lfsr 0xACE1 (lpTile lp) x } }
    (if x < thr then act else .none, s)

/-- A copy's destination on a logical port. -/
def Flight.destOn (f : Flight) (lp : Nat) : Option (Nat × Nat) :=
  f.dests.findSome? fun d => match d with | .port q feid seq => if q = lp then some (feid, seq) else none | .fn _ => none

/-- Takes one destination from the copy of a packet at its output tile. -/
def State.dropDest (s : State) (f : Flight) (lp : Nat) : State :=
  let rest := f.dests.filter fun d => match d with | .port q _ _ => q != lp | .fn _ => true
  (s.setFlights (s.sw.flights.flatMap fun h =>
    if h = f then (if rest.isEmpty ∧ f.got = pktFlits f.pkt then [] else [{ f with dests := rest }]) else [h])).legTidy f.id (lp2p lp)

/-- The copy that comes next to the queue of a logical port and class: the first, in the order in which they came over the ring, whose head flit is at the
tile, and its way. -/
def State.arrived (s : State) (lp c : Nat) : Option (Flight × Leg) :=
  s.sw.legs.findSome? fun l =>
    if l.out == some (lp2p lp) && l.cls == c && decide (0 < l.got) then
      (s.carried l.id (lp / 128)).bind fun f => if (f.destOn lp).isSome then some (f, l) else none
    else none

/-- A fenced member's copy is not made (R307): it is reported to the function that sent the packet, with the fence epoch (notice 0x0307: FEID, epoch). A
receiver of a collective result that is skipped is excused, and ends a REDUCE whose root it is (R554). -/
def State.fenSkip (s : State) (p : Pkt) (group feid : Nat) : State :=
  let s := s.emit (.notice 0x0307 [feid, s.fenceEpoch])
  if p.typ ≠ 0x11 then s
  else (s.fen.rounds.filter fun r => r.group == group && r.gen == p.gen && !r.pass).foldl (fun s r =>
    match (List.range r.m).find? fun i => r.feids.getD i 0 == feid with
    | none => s
    | some i =>
      let (r, s) := s.excuse { r with fenced := if r.fenced.contains i then r.fenced else r.fenced ++ [i] } [i]
      if dKind r.desc = 1 ∧ dRoot r.desc = i then s.fenAbort r 3 else s.setRound r) s

/-- OUTPUT_ENQUEUE (R249, R252–R262, R307): the head flit of a packet is at its output tile, and the copy for a logical port is made. Copies of one class
reach a port's queue in the order in which they came over the ring. -/
def execOutputEnqueue (id lport : Nat) (s : State) : Result :=
  match ((s.carried id (lport / 128)).filter fun f => (f.destOn lport).isSome).bind fun f => s.arrived lport f.pkt.cls with
  | none => .next s
  | some (f, l) =>
    let t := lpTile lport; let j := lpPort lport
    let (feid, seq) := (f.destOn lport).getD (0, 0)
    let p := if feid = f.pkt.dst ∧ seq = f.pkt.seq then f.pkt else withHcrc { f.pkt with dst := feid, seq := seq }
    let c := p.cls
    let s := s.dropDest f lport
    let g := { f with pkt := p, dests := [], whole := l.got == l.flits }
    if f.group.isSome && s.fencedEp feid then
      .next ((s.inc (Cnt.FWT_FENCE_SKIP (lport / 64))).fenSkip p (f.group.getD 0) feid)
    else if !(s.link lport).st.isUp then .next ((s.inc (Cnt.QM_FLUSH t j c)).loseCopy g)
    else
      let limit := s.qLimit lport c
      let occ := s.qCells lport c
      if limit < occ + pktCells p then .next ((s.inc (Cnt.QM_DROP_LIMIT t j c)).loseCopy g)
      else
        let (d, s) := s.earlyDrop lport p occ limit
        if d == .drop then .next ((s.inc (Cnt.QM_DROP_EARLY t j c)).loseCopy g)
        else
          let s := if d == .mark then s.inc (Cnt.QM_MARKED t j c) else s
          let g := { s.stageAt g 4 with stage := .queued lport, marked := d == .mark, at_ := s.time.ticks }
          let s := (s.setFlights (s.sw.flights ++ [g])).occAdd lport c (pktCells p)
          .next (s.inc (Cnt.QM_ENQ t j c))

/-- A cell of a packet of a tile reads with an uncorrectable error (R257). -/
def State.cellError (s : State) (t : Nat) : State := (s.logErr (pg 5 t) 0x0101 2 (locTile t 31)).irq (pg 5 t) 3

/-- TRANSMIT_START (R257, R265, R334, R368–R373): a free transmitter makes a resend that waits, and else starts the packet the scheduler picks; `cellUe`:
a cell of the packet reads with an uncorrectable error, which stomps the one being sent by cut-through, if one is, and discards the one picked. -/
def execTransmitStart (lport : Nat) (cellUe : Bool) (s : State) : Result :=
  match s.sending lport with
  | some f =>
    .next (if cellUe then ((s.cellError (lpTile lport)).setFlights (s.sw.flights.filter (· != f))).endCut lport f true else s)
  | none =>
  if (s.link lport).resendFrom.isSome then .next (s.resendDue lport) else
  let s := (s.guardHolds lport).replayStalls lport
  match s.pickClass lport with
  | (none, s) => .next s
  | (some c, s) =>
    match s.headOf lport c with
    | none => .next s
    | some f =>
      if cellUe then
        let rest := s.sw.flights.filter fun g => !g.isAt f.id (.queued lport)
        .next ((((s.cellError (lpTile lport)).setFlights rest).occSub lport c (pktCells f.pkt)).loseCopy f)
      else .next (s.sendHead lport f)

/-- OCC_PUBLISH (R272): every queue manager publishes its occupancies, rounded down to a multiple of 64 cells, at the next cycle whose count since reset
is a multiple of 16: that is the next tick whose count is a multiple of 8 (R12). -/
def execOccPublish (s : State) : Result :=
  let s := s.elapse (8 - s.time.ticks % 8)
  let occs := s.regs.filter fun r => r.1 / 0x100000 == 5 && decide (0x300 ≤ r.1 % 4096) && decide (r.1 % 4096 < 0x400)
  .next { s with sw := { s.sw with
    published := occs.foldl (fun acc r =>
      Tbl.set acc 0 (64 * (r.1 / 4096 % 256) + (r.1 % 4096 - 0x300) / 4) (r.2.toNat % 16384 / 64 * 64)) [] } }

/-! ### Drizzle records (R278, R279) -/

/-- The 288 bytes of a Drizzle record. -/
def drzBytes (d : DrzFrame) : List Byte :=
  leBytes 2 d.lport ++ leBytes 1 (b2n d.tx + 2 * b2n d.stomped + 4 * b2n d.discarded) ++ leBytes 1 d.reason ++ leBytes 2 d.length ++
  leBytes 1 d.log2n ++ leBytes 1 0 ++ leBytes 8 d.time ++ leBytes 4 d.seq ++ leBytes 12 0 ++ d.bytes

/-- The sampled frame of a quadrant whose record is made next: the one that ended first, of two the one of the lower logical port (R280). -/
def State.nextDrizzle (s : State) (quad : Nat) : Option DrzFrame :=
  (s.sw.drz.filter fun d => d.flight.isNone && d.lport / 128 == quad).foldl (fun (acc : Option DrzFrame) d =>
    match acc with
    | none => some d
    | some e => if d.endAt < e.endAt ∨ d.endAt = e.endAt ∧ d.lport < e.lport then some d else some e) none

/-- DRIZZLE_RECORD (R278–R280): the record of a sampled frame of a quadrant that has ended goes through the quadrant's bucket. -/
def execDrizzleRecord (quad : Nat) (s : State) : Result :=
  match s.nextDrizzle quad with
  | none => .next s
  | some d =>
    let s := { s with sw := { s.sw with drz := (takeFirst (· == d) s.sw.drz).elim s.sw.drz (·.2) } }
    let a := Reg.RING_DRZ_CAP quad
    let rate := 100 * min 256 (s.fld a Fld.RING_DRZ_CAP_RATE)
    let depth := 1024 * min 1024 (max 1 (s.fld a Fld.RING_DRZ_CAP_BURST))
    let have_ := match Tbl.find s.sw.drzTok quad with
      | some x => fillBucket x.tc x.at_ s.time.ticks rate depth
      | none => depth * 6250
    let enough := decide (288 * 6250 ≤ have_)
    let s := { s with sw := { s.sw with drzTok := Tbl.put s.sw.drzTok quad ⟨if enough then have_ - 288 * 6250 else have_, 0, s.time.ticks⟩ } }
    if enough then .next ((s.inc (Cnt.RING_DRZ_SENT quad)).emit (.drizzle (drzBytes d)))
    else .next ((s.inc (Cnt.RING_DRZ_DROP quad)).irq (pg 7 quad) 4)

/-! ### Registers that act on a write (R253, R261, R276, R281, R282) -/

/-- A change of an RWL field of a locked page is discarded and logged (R64, R848); else f acts. -/
def State.rwl (s : State) (p : Nat) (changed : Bool) (f : State → State) : State :=
  if changed && s.pageLocked p then s.logErr p 0x0002 0 (locPage p) else f s

/-- A write of QM_LIMIT (R253, R254). -/
def State.limitWrite (s : State) (t j c v : Nat) : State :=
  let a := Reg.QM_LIMIT t j c
  let old := s.fld a Fld.QM_LIMIT_LIMIT
  let new := v % 16384
  let sum := (List.range 64).foldl (fun n k => n + s.fld (Reg.QM_LIMIT t (k / 8) (k % 8)) Fld.QM_LIMIT_LIMIT) 0
  s.rwl (pg 5 t) (old != new) fun s =>
    if 12288 < sum - old + new then (s.irq (pg 5 t) 2).logErr (pg 5 t) 0x0100 0 (locTile t 31)
    else ((s.satJudge t [c]).setFld a Fld.QM_LIMIT_LIMIT new).satJudge t [c]

/-- A write of PT_CTRL (R276, R281): the seed is loaded by every write, CNT_CLEAR clears. -/
def State.ptCtrlWrite (s : State) (t v : Nat) : State :=
  let s := s.setFld (Reg.PT_CTRL t) Fld.PT_CTRL_DRZ_SEED (v % 65536)
  let s := { s with sw := { s.sw with drzGen := Tbl.set s.sw.drzGen 0 t 0 } }
  if bit 16 v then s.clearCnts (pg 4 t) else s

/-- A write of QM_CTRL (R261, R281): the seed is loaded by every write, zero as 0xACE1; CNT_CLEAR clears and restarts HIGH_WATER. -/
def State.qmCtrlWrite (s : State) (t v : Nat) : State :=
  let seed := bits 31 16 v
  let s := s.setFld (Reg.QM_CTRL t) Fld.QM_CTRL_LFSR_SEED seed
  let s := { s with sw := { s.sw with lfsr := Tbl.set s.sw.lfsr 0xACE1 t (if seed = 0 then 0xACE1 else seed) } }
  if bit 0 v then
    let a := Reg.QM_POOL_STATUS t
    (s.clearCnts (pg 5 t)).setFld a Fld.QM_POOL_STATUS_HIGH_WATER (s.fld a Fld.QM_POOL_STATUS_USED)
  else s

/-- QM_LIMIT_WRITE (R253). -/
def execQmLimitWrite (tile port cls value : Nat) (s : State) : Result :=
  .next (s.onPage (pg 5 tile) fun s => s.limitWrite tile port cls value)

/-- POLICER_WRITE (R282): a write of PT_POL_CIR, PIR, CBS or PBS. -/
def execPolicerWrite (tile port cls word value : Nat) (s : State) : Result :=
  .next (s.onPage (pg 4 tile) fun s => s.polWrite (16 * tile + 2 * port) cls word value)

/-- DRZ_SEED_LOAD (R276): a write of PT_CTRL. -/
def execDrzSeedLoad (tile value : Nat) (s : State) : Result := .next (s.onPage (pg 4 tile) fun s => s.ptCtrlWrite tile value)

/-- PT_CNT_CLEAR (R281): a write of PT_CTRL with CNT_CLEAR and the seed it carries. -/
def execPtCntClear (tile seed : Nat) (s : State) : Result := .next (s.onPage (pg 4 tile) fun s => s.ptCtrlWrite tile (65536 + seed % 65536))

/-- LFSR_SEED_LOAD (R261): a write of QM_CTRL. -/
def execLfsrSeedLoad (tile value : Nat) (s : State) : Result := .next (s.onPage (pg 5 tile) fun s => s.qmCtrlWrite tile value)

/-- QM_CNT_CLEAR (R281): a write of QM_CTRL with CNT_CLEAR and the seed it carries. -/
def execQmCntClear (tile seed : Nat) (s : State) : Result := .next (s.onPage (pg 5 tile) fun s => s.qmCtrlWrite tile (65536 * (seed % 65536) + 1))

/-- RING_CNT_CLEAR (R281). -/
def execRingCntClear (quad : Nat) (s : State) : Result := .next (s.onPage (pg 7 quad) fun s => s.clearCnts (pg 7 quad))

end Sys2Proof.Machine
end

