-- ==== Sys2Proof/Machine/Fen.lean ====
section
/-! DEFINITION. The commands of Fen (chapter 11): opening, contributions, release, verdicts, halls, memory errors, FADM commands. -/
namespace Sys2Proof.Machine

/-! ### Packets that reach Fen (R202, R203, R521, R534) -/

/-- The Fen descriptor that a group names; one never written reads as zero. -/
def State.descOf (s : State) (e : Nat) : Nat := Tbl.getD s.fen.descs 0 (grpDesc e)
/-- The collective group of a packet: its entry and descriptor, none where it is absent or of another KIND (R509). -/
def State.collGroup (s : State) (g : Nat) : Option (Nat × Nat) :=
  match s.group 0 g with
  | some e => if grpKindOf e = 0 then some (e, s.descOf e) else none
  | none => none

/-- A stale packet is discarded and counted at its port, and an endpoint's goes to the sluice logic (R202, R203). -/
def State.staleIn (s : State) (lp : Nat) (p : Pkt) : State := s.countReason lp rStale p

/-- Is a packet's GEN stale against a group's (R201, R202)? -/
def staleGen (p : Pkt) (gen : Nat) : Bool := !genPass p gen

/-- Answers the sender of a COLL_CTRL alone: back over its cascade port when it is a spine, else by the function-port lookup (R522, R555). -/
def State.answerFen (s : State) (die lp : Nat) (opn p : Pkt) : State :=
  if pflag opn fSrcSpine then s.fenToPort die lp p else s.fnSend die { p with dst := opn.src }

/-- Answers with an OP and STATUS for the packet's ROUND. -/
def State.replyFen (s : State) (die lp : Nat) (opn : Pkt) (gen m op status chunk : Nat) : State :=
  s.answerFen die lp opn (s.ctrlPkt (opn.msgId / 4096) gen (beAt 2 2 opn.payload) m op status chunk 0 0)

/-- A COLL_CTRL packet arrives for the row of OP `op` (R521): a stale one is discarded first (R202, R221), unknown operations and lengths are BAD_SHAPE,
then the reserved bytes are checked; the payload of a POISON packet is not used (R183); a packet of another row's OP is left to that row. `body` takes
the home die, the group entry, its descriptor and ROUND. -/
def State.collCtrl (s : State) (lp : Nat) (p : Pkt) (op : Nat) (body : Nat → Nat → Nat → Nat → State → State) : State :=
  let here := lp / 512 % 2
  let g := p.msgId / 4096
  let grp := s.collGroup g
  let home := match grp with | some x => dHome x.2 | none => here
  let o := beAt 0 1 p.payload
  let known := if pflag p fSrcSpine then [1, 2, 3, 4, 5, 9] else [1, 6, 8]
  if p.typ ≠ 0x13 then s
  else if (match grp with | some x => staleGen p (grpGen x.1) | none => false) then (s.takeFn lp p).staleIn lp p
  else if pflag p fPoison then s.takeFn lp p
  else if p.payload.length ≠ 64 ∨ !known.contains o then (s.takeFn lp p).inc (Cnt.FADM_BAD_SHAPE home)
  else if o ≠ op then s
  else if op = 1 ∧ s.frozen then s
  else
    let s := s.takeFn lp p
    match grp with
    | none =>
      if op = 1 then (s.inc (Cnt.FADM_OPENS here)).replyFen here lp p p.gen 0 3 7 0 else s.inc (Cnt.FADM_NO_GROUP here)
    | some (e, d) =>
      if !allZero (p.payload.drop 20) then s.inc (reasonCnt lp rReserved)
      else body home e d (beAt 2 2 p.payload) s

/-! ### Opening and admission (R518–R533) -/

/-- The round after r (R518): 0 is skipped. -/
def nextRound (r : Nat) : Nat := if r = 0xFFFF then 1 else r + 1

/-- Does tier 1 serve a die's Fen (FADM_STATUS.T1_READY)? -/
def State.fenT1Ready (s : State) (die : Nat) : Bool := s.flag (Reg.FADM_CTRL die) Fld.FADM_CTRL_T1_EN && s.tierReady 0

/-- Free slots of a partition in SRAM, and in tier 1 (R530). -/
def State.freeSram (s : State) (die p : Nat) : Nat :=
  bits 25 16 (s.rd (Reg.FADM_PART_SRAM die p)).toNat - s.fld (Reg.FADM_PART_STATUS die p) Fld.FADM_PART_STATUS_SRAM_USED
def State.freeT1 (s : State) (die p : Nat) : Nat := s.fld (Reg.FADM_PART_T1_COUNT die p) ⟨23, 0⟩ - s.fld (Reg.FADM_PART_T1_USED die p) ⟨23, 0⟩

/-- Admission (R523, R528–R532): the status (0 admitted), placed in tier 1, the slots, and CHECK in force. -/
def State.admission (s : State) (die d : Nat) (feids : List Nat) : Nat × Bool × Nat × Nat :=
  let m := feids.length
  let chk := if feids.any fun f => s.isHeld (objEndpoint (feidKey f)) then 1 else dCheck d
  let need := dSlots d m s.leaves chk
  let p := dPart d
  let full := decide (1024 ≤ (s.fen.rounds.filter fun r => r.die == die).length)
  if full then (5, false, 0, chk)
  else if !descOk d || (dKind d != 0 && decide (m ≤ dRoot d)) then (2, false, 0, chk)
  else if !s.flag (Reg.FADM_CTRL die) Fld.FADM_CTRL_OPEN_EN then (1, false, 0, chk)
  else if !s.flag (Reg.FADM_STATUS die) Fld.FADM_STATUS_FORMATS_OK && !(dIn d == 1 && dOut d == 1) then (3, false, 0, chk)
  else if !s.flag (Reg.FADM_STATUS die) Fld.FADM_STATUS_EXACT_OK && dExact d then (4, false, 0, chk)
  else if !s.flag (Reg.FADM_PART_CFG die p) Fld.FADM_PART_CFG_ENABLE then (1, false, 0, chk)
  else if need ≤ s.freeSram die p then (0, false, need, chk)
  else if dTier1 d && s.fenT1Ready die && decide (need ≤ s.freeT1 die p) then (0, true, need, chk)
  else (1, false, 0, chk)

/-- A SALT (R557). -/
def State.drawSalt (s : State) (die : Nat) : Nat × State :=
  let n := Tbl.getD s.fen.salts 0 die
  (Config.salt (s.rd (Reg.FADM_SALT_SEED die)).toNat n % 4096, { s with fen := { s.fen with salts := Tbl.set s.fen.salts 0 die (n + 1) } })

/-- Counts a refusal, which a FEN_FULL also raises and reports to Barometer (R533, R581). -/
def State.countRefusal (s : State) (die d status : Nat) : State :=
  if status = 1 then ((s.inc (Cnt.FADM_REFUSED_FULL die)).irq (pg 0x0D die) 3).levelReport 2 (2048 * die + dPart d)
  else s.inc (Cnt.FADM_REFUSED_OTHER die)

/-- A round refused to its members: REFUSED, and a pass-through entry for the statuses of R525. -/
def State.refuseRound (s : State) (r : Round) (status : Nat) : State :=
  let s := s.setHist r.die r.group { s.fenHist r.die r.group with status := status }
  let r := { r with pass := true, waiting := false, chunks := [], slots := 0, tier1 := false }
  let s := s.sendCtrl r 3 none status
  if status = 5 then s else s.passCheck r

/-- A round that its members are told of as ADMITTED; members fenced already are excused from the start (R539). -/
def State.startRound (s : State) (r : Round) : State :=
  let r := { r with waiting := false }
  let s := (s.setRound r).sendCtrl r 2 none 0
  if dKind r.desc = 2 ∧ r.fenced.contains (dRoot r.desc) then s.fenAbort r 3
  else
    let (r, s) := s.sweep r
    s.fenProgress r

/-- The root answers once it holds every hall's OPEN (R570). -/
def State.rootReady (s : State) (r : Round) : State :=
  if r.hallList.all r.halls.contains then (s.sendHalls r r.hallList 2 0).startRound r else s.setRound r

/-- The root refuses a cross-hall round (R570): HALL_REFUSED to every hall that sent OPEN, its reservation returned, its own members refused with `status`. -/
def State.rootRefuse (s : State) (r : Round) (status : Nat) : State :=
  ((s.sendHalls r r.halls 3 8).dropRound r).refuseRound r status

/-- A new round is decided (R522, R569, R570). `hall`: the hall whose OPEN it is, at the root. -/
def State.openRound (s : State) (die g e d rnd : Nat) (hall : Option Nat) : State :=
  let feids := s.members die e
  let (status, t1, slots, chk) := s.admission die d feids
  let s := s.setHist die g ⟨rnd, status, none⟩
  let (salt, s) := if status = 0 then s.drawSalt die else (0, s)
  let fenced := (List.range feids.length).filter fun i => s.fencedEp (feids.getD i 0)
  let r : Round := { die := die, group := g, gen := grpGen e, round := rnd, desc := d, feids := feids, pass := status != 0, tier1 := t1, slots := slots, chk := chk, salt := salt, fenced := fenced, excused := [], done := [], chunks := [], kept := [], recalled := false, unchecked := false, provSent := false, epoch := s.fenceEpoch, halls := hall.toList, waiting := false, openedAt := s.time.ticks }
  if status ≠ 0 then
    let s := s.countRefusal die d status
    if descOk d && isRoot d then s.rootRefuse r status
    else (if descOk d && isHall d then s.sendHall r (dXport d) 3 status else s).refuseRound r status
  else
    let (r, s) := s.excuse r fenced
    let s := (s.inc (Cnt.FADM_ADMITS die)).partUse r true
    if isRoot d then s.rootReady { r with waiting := true }
    else if isHall d then
      let r := { r with waiting := true }
      (s.setRound r).sendHall r (dXport d) 1 0
    else s.startRound r

/-- The hall whose spine a packet comes from, at the root (R535). -/
def hallOf (d lp : Nat) : Option Nat := if isRoot d ∧ dXport d ≤ lp ∧ lp + 1 < dXport d + dHalls d then some (lp - dXport d + 1) else none

/-- FEN_OPEN (R522). -/
def execFenOpen (lport : Nat) (pkt : Pkt) (s : State) : Result :=
  .next (s.collCtrl lport pkt 1 fun die e d rnd s =>
    let g := pkt.msgId / 4096
    let s := s.inc (Cnt.FADM_OPENS die)
    let h := s.fenHist die g
    let hall := if pflag pkt fSrcSpine then hallOf d lport else none
    let reply := fun (s : State) op status => s.replyFen die lport pkt (grpGen e) (grpCount e) op status 0
    if rnd = h.round then
      match s.fenRound die g with
      | some r =>
        if r.waiting then
          match hall with
          | some k => if r.halls.contains k then s else s.rootReady { r with halls := r.halls ++ [k] }
          | none => s
        else reply s 2 0
      | none => reply s 3 h.status
    else if rnd ≠ nextRound h.round then s.inc (Cnt.FADM_NOT_OPEN die)
    else if (s.fenRound die g).isSome then reply (s.inc (Cnt.FADM_REFUSED_OTHER die)) 3 6
    else s.openRound die g e d rnd hall)

/-! ### Contributions (R534–R541) -/

/-- The spare that would shadow a chunk whose first region is accepted now (R727). -/
def State.pickSpare (s : State) (die : Nat) : Option Nat :=
  if s.spareState die = 0 then some die
  else if s.flag Reg.CHK_CTRL Fld.CHK_CTRL_XDIE_SHADOW && s.spareState (1 - die) == 0 then some (1 - die)
  else none

/-- Is chunk c chosen for a check (R557, R561), and is a shadow set free for it? A re-execution finds one. -/
def Round.chosen (r : Round) (c : Nat) (ch : Chunk) : Bool :=
  decide (0 < ch.recalls) || (r.chk != 0 && (c + r.salt) % 2 ^ (r.chk - 1) == 0)
def Round.setFree (r : Round) (ch : Chunk) : Bool :=
  decide (0 < ch.recalls) || decide ((r.chunks.filter fun x => x.2.checked && !x.2.finished).length < dSH r.desc r.chk)

/-- The regions waiting in a spare's input queue (R728). -/
def State.spareDepth (s : State) (d : Nat) : Nat := ((Tbl.getD s.fen.spareQ [] d).filter fun t => decide (s.time.ticks < t)).length
/-- A region joins a spare's queue: the spare takes one in two ticks, in four for an FP32 or T19 exact SUM (R576). -/
def State.spareTake (s : State) (d : Nat) (desc : Nat) : State :=
  let q := (Tbl.getD s.fen.spareQ [] d).filter fun t => decide (s.time.ticks < t)
  let last := q.foldl max s.time.ticks
  let n := if dExactSum desc ∧ dWidth desc = 4 then 4 else 2
  { s with fen := { s.fen with spareQ := Tbl.set s.fen.spareQ [] d (q ++ [last + n]) } }

/-- The first region of a chunk settles whether it is checked and where it is reduced (R557, R563, R721, R727). -/
def State.placeChunk (s : State) (r : Round) (c : Nat) : Round × State :=
  let ch := r.chunk c
  let ch := { ch with placed := true, first := some s.time.ticks, opened := s.short, phys := s.physOf r.die (logicalOf c ch) }
  let skip := fun (s : State) => ({ r.setChunk c ch with unchecked := true }, s.inc (Cnt.FADM_CHECK_SKIPPED r.die))
  if !r.chosen c ch then (r.setChunk c ch, s)
  else if !r.setFree ch then skip s
  else
    match s.pickSpare r.die with
    | some d =>
      let s := (s.inc Cnt.CHK_CHECKS).pmcEvent 0x13 0 r.pmcUnit 1
      (r.setChunk c { ch with checked := true, spare := s.spareInst d }, if d = r.die then s else s.inc Cnt.CHK_CHECKS_XDIE)
    | none =>
      let s := (s.inc Cnt.CHK_CHECKS_UNSPARED).irq (pg 0x12 0) 4
      let due := match s.fen.noSpareLog with | some t => decide (t + usTicks 1000000 ≤ s.time.ticks) | none => true
      skip (if due then { s.logErr (pg 0x12 0) 0x0102 1 (locBlock 0x12) with fen := { s.fen with noSpareLog := some s.time.ticks } } else s)

/-- Is the queue of the spare that shadows a chunk, or would, full (R728)? -/
def State.shadowFull (s : State) (r : Round) (c : Nat) : Bool :=
  let ch := r.chunk c
  if ch.placed then ch.checked && decide (64 ≤ s.spareDepth (ch.spare / 17))
  else r.chosen c ch && r.setFree ch && (match s.pickSpare r.die with | some d => decide (64 ≤ s.spareDepth d) | none => false)

/-- Is a chunk within the window (R536)? -/
def Round.inWindow (r : Round) (c : Nat) : Bool :=
  decide ((r.stripe.filter fun x => decide (x < c) && !(r.chunk x).finished).length < dWindow r.desc)

/-- Does the hold rule take member i's region (R547)? -/
def Round.holdOk (r : Round) (c i rg : Nat) : Bool :=
  if !dTree r.desc || dKind r.desc == 2 then true
  else
    let cont := ((r.chunk c).got.filter fun x => x.region == rg && decide (x.who < 2 ^ 20)).map (·.who)
    let done := cont ++ r.fenced.filter fun k => !cont.contains k
    if lowestMissing done r.m = i then true
    else decide (heldCount (i :: done) (i :: cont) (lowestMissing (i :: done) r.m) 20 0 r.m ≤ dHold r.desc)

/-- FADM_CTRL.BACKOFF_NS, where 0 acts as 256 (R537). -/
def State.backoffNs (s : State) (die : Nat) : Nat :=
  let n := s.fld (Reg.FADM_CTRL die) Fld.FADM_CTRL_BACKOFF_NS
  if n = 0 then 256 else n

/-- A region is refused under row 9 (R534, R537): at most one BACKOFF per chunk and contributor in each BACKOFF_NS, naming every region not received.
`num` is the chunk number the contributor used, `limb` the hall's limb. -/
def State.backoff (s : State) (r : Round) (c who num limb : Nat) (hall : Option Nat) : State :=
  let s := s.inc (Cnt.FADM_BACKOFFS r.die)
  let ns := s.backoffNs r.die
  let ch := r.chunk c
  let k := 64 * who + limb
  let last := Tbl.getD ch.backoffs 0 k
  if last ≠ 0 ∧ s.time.ticks + 1 < last + nsTicks ns then s
  else
    let missing := bitsOf ((List.range (dRegions r.desc c)).filter fun x => !ch.has who (16 * limb + x))
    let s := s.pmcEvent 0x11 0 r.pmcUnit 1
    let s := match hall with
      | some h => s.sendHall r (r.hallPort h) 4 0 num missing ns
      | none => s.sendCtrl r 4 (some [who]) 0 num missing ns
    s.setRound (r.setChunk c { ch with backoffs := Tbl.set ch.backoffs 0 k (s.time.ticks + 1) })

/-- A chunk restarts as if no region had arrived; what counts its failures and recalls stays. Members already fenced cannot send it again and are
excused (R538, R561). -/
def State.restartChunk (s : State) (r : Round) (c : Nat) (f : Chunk → Chunk) : Round × State :=
  let ch := f (r.chunk c)
  let fresh := { Chunk.init with fails := ch.fails, vfails := ch.vfails, recalls := ch.recalls, backoffs := ch.backoffs, firstRun := ch.firstRun }
  let r := { r.setChunk c fresh with kept := r.kept.filter fun x => x.1 != c }
  s.excuse r (r.fenced.filter (contributes r.desc))

/-- RESEND of a chunk to every unfenced contributor, the hall spines included (R538). -/
def State.sendResend (s : State) (r : Round) (c : Nat) : State :=
  (s.sendCtrl r 5 (some r.contributors) 0 c).sendHalls r r.hallList 5 0 c

/-- A chunk whose accumulation is lost before release starts again (R538, R575). -/
def State.resendChunk (s : State) (r : Round) (c : Nat) : State :=
  let s := s.sendResend r c
  let (r, s) := s.restartChunk r c id
  let (r, s) := s.sweep r
  s.fenProgress r

/-- A member's or hall's contribution fails its chunk check (R538): its endpoint is charged, and the third failure of the chunk ends the round. -/
def State.checkFails (s : State) (r : Round) (c who : Nat) : State :=
  let s := s.inc (Cnt.FADM_CHUNK_FAIL r.die)
  let s := if who < 2 ^ 20 then s.charge (objEndpoint (feidKey (r.feids.getD who 0))) 16 1 else s
  if 3 ≤ (r.chunk c).fails + 1 then s.fenAbort r 1
  else s.resendChunk (r.setChunk c { r.chunk c with fails := (r.chunk c).fails + 1 }) c

/-- Does a contribution pass its chunk check (R215)? One with a POISON packet, whose payload must not be used, counts as failing it (R183); DESIGN CHOICE:
the spec does not say how Fen goes on without the payload. Unsafe. -/
def chunkCheckOk (l : List Contrib) : Bool :=
  match l with
  | [] => true
  | x :: _ => (l.all fun y => y.cchk == x.cchk && !y.poison) && l.foldl (fun a y => a ^^^ y.pcrc) 0 == x.cchk

/-- A region is accepted and reduced (row 10 of R534). -/
def State.acceptRegion (s : State) (r : Round) (c who rg limb : Nat) (hall : Bool) (p : Pkt) (wrong : Option RunOut) : State :=
  let (r, s) := if (r.chunk c).placed then (r, s) else s.placeChunk r c
  let ch := r.chunk c
  let s := (s.addCnt (Cnt.FEN_IN_BYTES ch.phys) p.plen).pmcEvent 0x10 0 r.pmcUnit 1
  let s := if ch.checked then s.spareTake (ch.spare / 17) r.desc else s
  let ch := { ch with got := ch.got ++ [⟨who, rg, p.pcrc, p.cchk, p.payload, pflag p fPoison⟩] }
  let r := r.setChunk c ch
  let msg := (regionKeys r.desc c false).map (16 * limb + ·)
  if msg.all (ch.has who) && !chunkCheckOk (ch.got.filter fun x => x.who == who && msg.contains x.region) then s.checkFails r c who
  else
    let full := (regionKeys r.desc c hall).all (ch.has who)
    let r := if full then r.setChunk c { ch with arrived := ch.arrived ++ [(who, s.nowNs)] } else r
    let (r, s) := s.tryFinish r c wrong
    s.fenProgress r

/-- COLL_IN (R534, R535). `wrong` is what a primary that is wrong gives when this region completes its chunk; none where it gives what
R472 says. -/
def execCollIn (lport : Nat) (pkt : Pkt) (wrong : Option RunOut) (s : State) : Result :=
  let g := pkt.msgId / 4096
  let num := pkt.msgId % 4096
  if pkt.typ ≠ 0x10 then .next s else
  let s := s.takeFn lport pkt
  match s.collGroup g with
  | none => .next (s.inc (Cnt.FADM_NO_GROUP (lport / 512 % 2)))
  | some (e, d) =>
    let die := dHome d
    if staleGen pkt (grpGen e) then .next (s.staleIn lport pkt) else
    match s.fenRound die g with
    | none => .next (s.inc (Cnt.FADM_NOT_OPEN die))
    | some r =>
      if r.pass then .next (s.inc (Cnt.FADM_NOT_OPEN die)) else
      let d := r.desc
      let spine := pflag pkt fSrcSpine
      let hall := if spine then hallOf d lport else none
      let i := lowestMissing ((List.range r.m).filter fun k => feidKey (r.feids.getD k 0) != feidKey pkt.src) r.m
      if (if spine then hall.isNone else decide (r.m ≤ i) || !contributes d i) then .next (s.inc (Cnt.FADM_NOT_MEMBER die)) else
      let who := match hall with | some h => hallWho h | none => i
      let limb := if hall.isSome then num % max 1 (dU d) else 0
      let c := if hall.isSome then dFirst d + num / max 1 (dU d) else num
      let rg := 16 * limb + pkt.offset / 4096
      let got := pkt.offset % 4096 == 0 && (r.chunk c).has who rg
      if hall.isNone && r.fenced.contains i && !got then .next (s.inc (Cnt.FADM_FENCED_IN die))
      else if c < dFirst d ∨ dFirst d + dCount d ≤ c then .next (s.inc (Cnt.FADM_MISSTRIPED die))
      else if pkt.offset % 4096 ≠ 0 ∨ dChunkLen d c ≤ pkt.offset ∨ pkt.plen ≠ dRegionLen d c (pkt.offset / 4096) then
        .next (s.inc (Cnt.FADM_BAD_SHAPE die))
      else if got then .next (s.inc (Cnt.FADM_DUP die))
      else if !r.inWindow c || (hall.isNone && !r.holdOk c i rg) then .next (s.backoff r c who num limb hall)
      else if s.shadowFull r c then .next ((s.inc Cnt.CHK_SHADOW_BACKOFFS).backoff r c who num limb hall)
      else .next (s.acceptRegion r c who rg limb hall.isSome pkt wrong)

/-! ### Release and verdict (R552–R562) -/

/-- The packets of a chunk's bytes as one message: offset, bytes, PCRC, LAST, with the chunk check (R212, R214). -/
def chunkPackets (bs : List Byte) : List (Nat × List Byte × Bool) :=
  (List.range (ceilDiv bs.length 4096)).map fun k => (4096 * k, (bs.drop (4096 * k)).take 4096, decide (bs.length ≤ 4096 * (k + 1)))
def chunkCheck (bs : List Byte) : Nat :=
  (chunkPackets bs).foldl (fun x k => x ^^^ crc32c (beBytes 4 k.1 ++ k.2.1)) 0

/-- The COLL_OUT packets of a release (R552). -/
def State.outPkts (s : State) (r : Round) (c : Nat) (bs : List Byte) (spec : Bool) : List Pkt :=
  let x := chunkCheck bs
  (chunkPackets bs).map fun k =>
    { s.fenPkt (dTc r.desc) 0x11 (b2n spec * 2 ^ fSpec + b2n k.2.2 * 2 ^ fLast) r.gen (r.group * 4096 + c) k.1 k.2.1 with cchk := x }

/-- The receivers of a result chunk, all members or those the kind names (R510, R553). -/
def Round.receivers (r : Round) : Option (List Nat) := if dKind r.desc = 0 then none else some ((List.range r.m).filter (receives r.desc))

/-- Sends packets of the group stream, each with the next SEQ, to members and, from a root, to every hall spine (R205, R572). -/
def State.sendStream (s : State) (r : Round) (who : Option (List Nat)) (halls : Bool) (ps : List Pkt) : State :=
  ps.foldl (fun s p =>
    let (p, s) := s.fenSeq r.group p
    let s := s.fenSend r who p
    if halls then r.hallList.foldl (fun s h => s.fenToPort r.die (r.hallPort h) p) s else s) s

/-- The COLL_IN packets of a hall partial (R571): limb k holds the k-th run of bytes as long as the chunk. -/
def State.hallPkts (s : State) (r : Round) (c : Nat) (bs : List Byte) : List Pkt :=
  let d := r.desc
  let n := dChunkLen d c
  (List.range (dU d)).flatMap fun k =>
    let limb := (bs.drop (n * k)).take n
    let x := chunkCheck limb
    (chunkPackets limb).map fun q =>
      { s.fenPkt (dTc d) 0x10 (b2n q.2.2 * 2 ^ fLast) r.gen (r.group * 4096 + (dU d * (c - dFirst d) + k) % 4096) q.1 q.2.1 with cchk := x }

/-- A chunk whose result has left, and whose check, if it has one, has passed, is finished (R536). -/
def State.settleChunk (s : State) (r : Round) (c : Nat) : State :=
  let ch := r.chunk c
  let (r, s) := if ch.released && (!ch.checked || ch.verdict == 2) then s.finishChunk r c else (r, s)
  s.fenProgress r

/-- CHUNK_RELEASE (R553, R558, R571): the first result leaves, or waits for its verdict where SPEC_EN is 0 and always at a hall spine. -/
def execChunkRelease (die group chunk : Nat) (s : State) : Result :=
  match s.fenRound die group with
  | none => .next s
  | some r =>
    let ch := r.chunk chunk
    let d := r.desc
    let held := ch.verdict == 1 && (!dSpec d || isHall d)
    match ch.result with
    | none => .next s
    | some (out, _) =>
      let bs := out.bytes
      if ch.released || ch.sent || held || s.frozen || r.pass then .next s
      else if isHall d then
        let s := (s.hallPkts r chunk bs).foldl (fun s p => s.fenToPort r.die (dXport d) p) s
        .next (s.setRound (r.setChunk chunk { ch with sent := true }))
      else if dKind d = 1 ∧ r.fenced.contains (dRoot d) then .next (s.fenAbort r 3)
      else
        let s := s.sendStream r r.receivers true (s.outPkts r chunk bs (ch.verdict == 1))
        let s := s.pmcEvent 0x12 0 r.pmcUnit (ceilDiv bs.length 64)
        let kept := (r.kept ++ [(chunk, bs)]).drop (r.kept.length + 1 - dRetain d)
        let r := { r.setChunk chunk { ch with released := true, check := chunkCheck bs } with kept := kept }
        .next (s.settleChunk r chunk)

/-- COLL_RECALL to every unfenced receiver and contributor (R560), and the chunk starts again on another logical reducer (R561). FROM_SEQ is the SEQ
after the recall's own. -/
def State.recall (s : State) (r : Round) (c reason : Nat) (f : Chunk → Chunk) : State :=
  let ch := r.chunk c
  let from_ := (Tbl.getD s.fen.seq 0 r.group + 1) % 2 ^ 24
  let body := beBytes 1 reason ++ beBytes 1 (ch.recalls + 1) ++ beBytes 2 r.round ++ beBytes 4 from_ ++ beBytes 56 0
  let who := (List.range r.m).filter fun i => contributes r.desc i || receives r.desc i
  let s := s.sendStream r (some who) true [s.fenPkt 7 0x12 (2 ^ fLast) r.gen (r.group * 4096 + c) 0 body]
  let s := ((s.inc (Cnt.FADM_RECALLS r.die)).irq (pg 0x0D r.die) 5).fenTrace r 0x80 c
  let (r, s) := s.restartChunk { r with recalled := true } c fun ch => let ch := f ch; { ch with recalls := ch.recalls + 1 }
  let (r, s) := s.sweep r
  s.fenProgress r

/-- Charges Barometer input 21 to a reducer (R729, R688). -/
def State.chargeVerdict (s : State) (n : Nat) : State := s.charge (objFen n) 21 1

/-- VERDICT (R557, R560–R562, R729): results and flags are compared bit for bit. `shadow` is what a spare that is wrong gives; none where it gives what
R472 says. -/
def execVerdict (die group chunk : Nat) (shadow : Option RunOut) (s : State) : Result :=
  match s.fenRound die group with
  | none => .next s
  | some r =>
    let ch := r.chunk chunk
    match ch.result with
    | none => .next s
    | some (out, right) =>
      if ch.verdict ≠ 1 then .next s else
      let sh := shadow.getD right
      let sp := ch.spare
      let s := s.inc (Cnt.FEN_SHADOWS sp)
      if sh = out then
        let s := s.inc (Cnt.FEN_VERDICT_PASS ch.phys)
        let s := match ch.firstRun with
          | some (n, pb, k, sb) =>
            let s := if pb = out then s else s.chargeVerdict n
            if sb = out then s else s.chargeVerdict k
          | none => s
        .next (s.settleChunk (r.setChunk chunk { ch with verdict := 2 }) chunk)
      else
        let s := ((s.inc (Cnt.FEN_VERDICT_FAIL ch.phys)).irq (pg 0x0C ch.phys) 3).logErr (pg 0x0C ch.phys) 0x0101 1 (locFen ch.phys)
        match ch.firstRun with
        | some (n, _, k, _) => .next (((s.chargeVerdict n).chargeVerdict k).fenAbort r 2)
        | none =>
          .next (s.recall r chunk 1 fun ch => { ch with vfails := ch.vfails + 1, firstRun := some (ch.phys, out, sp, sh) })

/-! ### Stalls, repeats, DONE (R543, R555, R525) -/

/-- The unexcused members that have not completed their contribution to a chunk. -/
def Round.missing (r : Round) (c : Nat) : List Nat :=
  r.contributors.filter fun i => !r.fenced.contains i && !((r.chunk c).arrived.any fun a => a.1 == i)

/-- FEN_STALL (R543): the next STALL_US of a chunk that waits has passed. -/
def execFenStall (die group chunk : Nat) (s : State) : Result :=
  match s.fenRound die group with
  | none => .next s
  | some r =>
    let ch := r.chunk chunk
    match ch.first with
    | none => .next s
    | some t =>
      if s.frozen || (r.missing chunk).isEmpty || ch.result.isSome then .next s
      else
        let s := s.elapseToTick (t + (ch.noticed + 1) * usTicks (dStall r.desc))
        let ids := (r.missing chunk).take 16
        let s := (((s.emit (.notice 0x0543 ([group, r.round, chunk] ++ ids))).inc (Cnt.FADM_STALLS die)).irq (pg 0x0D die) 4).logErr
          (pg 0x0D die) 0x0102 0 (locPage (pg 0x0D die))
        let s := ids.foldl (fun s i => s.charge (objEndpoint (feidKey (r.feids.getD i 0))) 15 1) s
        .next (s.setRound (r.setChunk chunk { ch with noticed := ch.noticed + 1, named := ids }))

/-- FEN_REPEAT (R555). -/
def execFenRepeat (lport : Nat) (pkt : Pkt) (s : State) : Result :=
  .next (s.collCtrl lport pkt 6 fun die e d rnd s =>
    let g := pkt.msgId / 4096
    let c := beAt 4 2 pkt.payload
    let gone := fun (s : State) => (s.inc (Cnt.FADM_GONE die)).replyFen die lport pkt (grpGen e) 0 7 0 c
    let feids := s.members die e
    let i := lowestMissing ((List.range feids.length).filter fun k => feidKey (feids.getD k 0) != feidKey pkt.src) feids.length
    if feids.length ≤ i then s.inc (Cnt.FADM_NOT_MEMBER die)
    else if c = 0xFFFF then
      let h := s.fenHist die g
      match h.record with
      | some body =>
        if rnd = h.round then
          let p := s.fenPkt (if descOk d then dTc d else 5) 0x04 (2 ^ fLast) (grpGen e) (beAt 4 4 body) 0 body
          let (p, s) := s.fenSeq g p
          s.fnSend die { p with dst := feids.getD i 0 }
        else gone s
      | none => gone s
    else
      match s.fenRound die g with
      | some r =>
        if r.round = rnd then
          match r.kept.find? fun x => x.1 == c with
          | some (_, bs) => s.sendStream r (some [i]) false (s.outPkts r c bs ((r.chunk c).verdict == 1))
          | none => gone s
        else gone s
      | none => gone s)

/-- FEN_DONE (R525). -/
def execFenDone (lport : Nat) (pkt : Pkt) (s : State) : Result :=
  .next (s.collCtrl lport pkt 8 fun die _ _ rnd s =>
    match s.fenRound die (pkt.msgId / 4096) with
    | none => s.inc (Cnt.FADM_NOT_OPEN die)
    | some r =>
      if !r.pass || r.round != rnd then s.inc (Cnt.FADM_NOT_OPEN die)
      else
        let i := lowestMissing ((List.range r.m).filter fun k => feidKey (r.feids.getD k 0) != feidKey pkt.src) r.m
        if r.m ≤ i then s.inc (Cnt.FADM_NOT_MEMBER die)
        else s.passCheck { r with done := if r.done.contains i then r.done else r.done ++ [i] })

/-! ### Across halls (R569–R573) -/

/-- The open round that a packet from another hall is for. -/
def State.hallRound (s : State) (die : Nat) (p : Pkt) (rnd : Nat) : Option Round :=
  match s.fenRound die (p.msgId / 4096) with
  | some r => if r.round = rnd ∧ !r.pass ∧ dXhall r.desc then some r else none
  | none => none

/-- A hall spine sends parts of a partial again at the root's word (R535, R537, R538): those of the packets that `keep` names by chunk number and region. -/
def State.hallAgain (s : State) (r : Round) (c : Nat) (keep : Nat → Nat → Bool) : State :=
  match (r.chunk c).result with
  | some (out, _) =>
    if (r.chunk c).sent then
      ((s.hallPkts r c out.bytes).filter fun p => keep (p.msgId % 4096) (p.offset / 4096)).foldl (fun s p => s.fenToPort r.die (dXport r.desc) p) s
    else s
  | none => s

/-- HALL_ADMITTED_RX (R569): a hall spine answers its members once the root has. The row also takes the root's BACKOFF and RESEND of a partial, which a
hall spine obeys as a contributor (R535). -/
def execHallAdmittedRx (lport : Nat) (pkt : Pkt) (s : State) : Result :=
  let mine := fun (die rnd : Nat) (s : State) => match s.hallRound die pkt rnd with
    | some r => if isHall r.desc ∧ lport = dXport r.desc then some r else none
    | none => none
  let c := beAt 4 2 pkt.payload
  match beAt 0 1 pkt.payload with
  | 4 => .next (s.collCtrl lport pkt 4 fun die _ _ rnd s =>
      match mine die rnd s with
      | some r => s.hallAgain r (dFirst r.desc + c / max 1 (dU r.desc)) fun num rg => num == c && bit rg (beAt 6 2 pkt.payload)
      | none => s)
  | 5 => .next (s.collCtrl lport pkt 5 fun die _ _ rnd s =>
      match mine die rnd s with
      | some r => s.hallAgain r c fun _ _ => true
      | none => s)
  | _ => .next (s.collCtrl lport pkt 2 fun die _ _ rnd s =>
      match mine die rnd s with
      | some r => if r.waiting then s.startRound r else s
      | none => s)

/-- HALL_REFUSED_RX (R570): a hall spine returns its reservation and refuses its members; at the root a hall's refusal refuses the round. -/
def execHallRefusedRx (lport : Nat) (pkt : Pkt) (s : State) : Result :=
  .next (s.collCtrl lport pkt 3 fun die e d rnd s =>
    match s.hallRound die pkt rnd with
    | some r =>
      if !r.waiting then s
      else if isHall r.desc then (if lport = dXport r.desc then ((s.dropRound r).countRefusal die r.desc 8).refuseRound r 8 else s)
      else if (hallOf r.desc lport).isSome then (s.countRefusal die r.desc 8).rootRefuse r 8
      else s
    | none =>
      let g := pkt.msgId / 4096
      if (hallOf d lport).isSome ∧ rnd = nextRound (s.fenHist die g).round ∧ (s.fenRound die g).isNone then
        let feids := s.members die e
        let s := (s.setHist die g ⟨rnd, 8, none⟩).countRefusal die d 8
        s.refuseRound { die := die, group := g, gen := grpGen e, round := rnd, desc := d, feids := feids, pass := true, tier1 := false, slots := 0, chk := 0, salt := 0, fenced := [], excused := [], done := [], chunks := [], kept := [], recalled := false, unchecked := false, provSent := false, epoch := s.fenceEpoch, halls := [], waiting := false, openedAt := s.time.ticks } 8
      else s)

/-- HALL_OPEN_TIMEOUT (R570): 1 ms has passed at the root without every hall's OPEN. -/
def execHallOpenTimeout (die group : Nat) (s : State) : Result :=
  match s.fenRound die group with
  | some r =>
    if r.waiting && isRoot r.desc && !s.frozen then
      .next (((s.elapseToTick (r.openedAt + usTicks 1000)).countRefusal die r.desc 8).rootRefuse r 8)
    else .next s
  | none => .next s

/-- The admitted round of a hall spine that a packet of the root's is for: of its group and generation, on its cascade port. -/
def State.rootPacket (s : State) (lp : Nat) (p : Pkt) : Option Round :=
  match s.collGroup (p.msgId / 4096) with
  | some (e, d) =>
    (match s.fenRound (dHome d) (p.msgId / 4096) with
    | some r => if !r.pass ∧ isHall r.desc ∧ lp = dXport r.desc ∧ p.gen = grpGen e ∧ !r.waiting then some r else none
    | none => none)
  | none => none

/-- The packets of a release gathered at a hall spine pass the chunk check (R215). -/
def relayedOk (l : List Relayed) : Bool :=
  match l with
  | [] => true
  | x :: _ => (l.all fun y => y.cchk == x.cchk) && l.foldl (fun a y => a ^^^ y.pcrc) 0 == x.cchk

/-- The packets that take a gathered release on to the hall's members (R573): the same bytes, SPEC and POISON flags, with PCRC and the chunk check formed
afresh from the bytes (R183, R216). -/
def State.relayPkts (s : State) (r : Round) (cls c : Nat) (l : List Relayed) (bs : List Byte) : List Pkt :=
  let x := chunkCheck bs
  (chunkPackets bs).map fun k =>
    let m := l.find? fun y => 4096 * y.region == k.1
    { s.fenPkt cls 0x11 (b2n (m.any (·.spec)) * 2 ^ fSpec + b2n (m.any (·.poison)) * 2 ^ fPoison + b2n k.2.2 * 2 ^ fLast) r.gen (r.group * 4096 + c)
      k.1 k.2.1 with cchk := x }

/-- HALL_RELEASE_RX (R573): the same bytes and SPEC flag go to the hall's own members. A repeat of a packet is discarded (R210). The chunk leaves once the
hall holds all of it, because its chunk check is formed from its bytes (R216); DESIGN CHOICE: where the root's packets fail their chunk check (R215), the
hall discards them and sends nothing. Unsafe. -/
def execHallReleaseRx (lport : Nat) (pkt : Pkt) (s : State) : Result :=
  if pkt.typ ≠ 0x11 then .next s else
  let s := s.takeFn lport pkt
  match s.rootPacket lport pkt with
  | none => .next s
  | some r =>
    let c := pkt.msgId % 4096
    let ch := r.chunk c
    if !r.stripe.contains c || ch.finished || decide (16 ≤ pkt.offset / 4096) || ch.relayed.any (fun y => y.region == pkt.offset / 4096) then .next s else
    let d := r.desc
    let got := ch.relayed ++ [⟨pkt.offset / 4096, pflag pkt fSpec, pflag pkt fPoison, pkt.pcrc, pkt.cchk, pkt.payload⟩]
    let ch := { ch with relayed := got }
    if !((List.range (dRegions d c)).all fun k => got.any fun y => y.region == k) then .next (s.setRound (r.setChunk c ch))
    else if !relayedOk got then .next (s.setRound (r.setChunk c { ch with relayed := [] }))
    else
      let bs := (List.range (dRegions d c)).flatMap fun k => ((got.find? fun y => y.region == k).map (·.data)).getD []
      let s := s.sendStream r r.receivers false (s.relayPkts r pkt.cls c got bs)
      let s := s.pmcEvent 0x12 0 r.pmcUnit (ceilDiv bs.length 64)
      let kept := (r.kept ++ [(c, bs)]).drop (r.kept.length + 1 - dRetain d)
      let r := { r.setChunk c { ch with released := true, check := chunkCheck bs } with kept := kept }
      .next (s.settleChunk r c)

/-- HALL_RECALL_RX (R573): the root's recall goes to the members as the hall's own, and their contributions are gathered again. -/
def execHallRecallRx (lport : Nat) (pkt : Pkt) (s : State) : Result :=
  if pkt.typ ≠ 0x12 then .next s else
  let s := s.takeFn lport pkt
  match s.rootPacket lport pkt with
  | none => .next s
  | some r =>
    let c := pkt.msgId % 4096
    if r.stripe.contains c ∧ beAt 2 2 pkt.payload = r.round then .next (s.recall r c (beAt 0 1 pkt.payload) id) else .next s

/-- HALL_RECORD_RX (R573): the root's record goes to the members with the hall's own MEMBERS, CONTRIBUTED and EXCUSED; the final one ends the round. -/
def execHallRecordRx (lport : Nat) (pkt : Pkt) (s : State) : Result :=
  if pkt.typ ≠ 0x04 ∨ beAt 0 2 pkt.payload ≠ 1 then .next s else
  let s := s.takeFn lport pkt
  match s.rootPacket lport pkt with
  | none => .next s
  | some r =>
    let b := slice 0 64 pkt.payload
    let ex := r.excused.length
    let body := b.take 10 ++ beBytes 1 r.gen ++ slice 11 1 b ++ beBytes 4 r.m ++ beBytes 4 (r.m - ex) ++ beBytes 4 ex ++ b.drop 24
    let s := s.sendRecord r body
    if bit 0 (beAt 2 1 body) then .next (s.endRound r (beAt 2 1 body)) else .next (s.setRound { r with provSent := true })

/-- HALL_ABORT_RX (R573): the round ends here, at a root with HALL_LOST and at a hall spine with the root's reason. -/
def execHallAbortRx (lport : Nat) (pkt : Pkt) (s : State) : Result :=
  .next (s.collCtrl lport pkt 9 fun die _ _ rnd s =>
    match s.hallRound die pkt rnd with
    | some r =>
      if isHall r.desc then (if lport = dXport r.desc then s.fenAbort r (beAt 1 1 pkt.payload) else s)
      else if (hallOf r.desc lport).isSome then s.fenAbort r 6
      else s
    | none => s)

/-! ### Memory and datapath errors (R574, R575, R721) -/

/-- The commands not yet started that touch partition p of a die complete with ABORTED (R74): those that name it, and those that name a group whose
descriptor lies in it. -/
def State.abortFenPart (s : State) (die p : Nat) : State :=
  s.abortListed fun t => !t.running && t.target == die && match t.opcode with
    | 0x0D03 | 0x0D04 => leAt 0 1 t.operands == p
    | 0x0D05 | 0x0D06 => (match s.collGroup (leAt 0 4 t.operands) with | some (_, d) => dPart d == p | none => false)
    | _ => false

/-- A partition resets (R574): its rounds end with MEM_ERROR and its GEN rises. -/
def State.fenPartReset (s : State) (die p : Nat) (log : Bool) : State :=
  let s := s.abortFenPart die p
  let s := (s.fen.rounds.filter fun r => r.die == die && !r.pass && dPart r.desc == p).foldl (fun s r => s.fenAbort r 4 log) s
  let a := Reg.FADM_PART_STATUS die p
  let g := s.fld a Fld.FADM_PART_STATUS_GEN
  let s := s.setFld a Fld.FADM_PART_STATUS_GEN (if g = 255 then 1 else g + 1)
  let s := if log then s.logErr (pg 0x0D die) 0x0100 2 (locPage (pg 0x0D die)) else s
  (s.irq (pg 0x0D die) 2).inc (Cnt.FADM_PART_RESETS die)

/-- The partition that owns a slot of SRAM or of the tier-1 region (R527). -/
def State.slotOwner (s : State) (die : Nat) (tier1 : Bool) (slot : Nat) : Option Nat :=
  (List.range 64).find? fun p =>
    let f := if tier1 then s.fld (Reg.FADM_PART_T1_FIRST die p) ⟨23, 0⟩ else bits 9 0 (s.rd (Reg.FADM_PART_SRAM die p)).toNat
    let n := if tier1 then s.fld (Reg.FADM_PART_T1_COUNT die p) ⟨23, 0⟩ else bits 25 16 (s.rd (Reg.FADM_PART_SRAM die p)).toNat
    decide (f ≤ slot) && decide (slot < f + n)

/-- FEN_MEM_ERROR (R574): an uncorrectable error in a slot, in its `beat`-th 64 bytes; in tier 1 the beat's channel counts and logs it (R587). -/
def execFenMemError (die : Nat) (tier1 : Bool) (slot beat : Nat) (s : State) : Result :=
  let s := if tier1 then s.beatSeen ⟨s.chanOf 0 (s.rdWide (Reg.FADM_T1_BASE die) 2 / 2097152 * 2097152 + 65536 * slot + 64 * beat), true⟩ else s
  match s.slotOwner die tier1 slot with
  | some p => .next (s.fenPartReset die p true)
  | none => .next s

/-- Chunks open on an instance, as primary or as shadow. -/
def State.chunksOn (s : State) (n : Nat) : List (Nat × Nat × Nat) :=
  s.fen.rounds.flatMap fun r => if r.pass then [] else
    (r.chunks.filter fun c => c.2.first.isSome && !c.2.finished && (c.2.phys == n || (c.2.checked && c.2.verdict != 2 && c.2.spare == n))).map
      fun c => (r.die, r.group, c.1)

/-- REDUCER_UE (R721, R575): the instance is retired; its open chunks restart, by RESEND before they have left and by recall after. -/
def execReducerUe (n : Nat) (s : State) : Result :=
  let s := ((s.inc (Cnt.FEN_ACC_UE n)).irq (pg 0x0C n) 2).logErr (pg 0x0C n) 0x0100 2 (locFen n)
  let chunks := s.chunksOn n
  let s := (s.charge (objFen n) 20 1).retireFen n true
  let s := chunks.foldl (fun s x => match s.fenRound x.1 x.2.1 with
    | some r =>
      let ch := r.chunk x.2.2
      if ch.first.isNone then s
      else if ch.released then s.recall r x.2.2 2 id
      else s.resendChunk r x.2.2
    | none => s) s
  .next (s.leaveWork n)

/-! ### Commands (R578, R579) -/

/-- A FADM command: operator only. -/
def State.fadm (s : State) (h : CmdHdr) (opcode : Nat) (body : State → State × Option Cmpl) : State := s.runCmd h opcode true body

/-- FEN_DESC_SET (R515, R517). -/
def execFenDescSet (h : CmdHdr) (index desc : Nat) (s : State) : Result :=
  .next (s.fadm h 0x0D01 fun s =>
    if h.target ≠ 0 then fail s 0x0104
    else if 4095 < index ∨ !descOk desc then fail s 0x0100
    else ok { s with fen := { s.fen with descs := Tbl.set s.fen.descs 0 index desc } })

/-- FEN_DESC_READ (R578). -/
def execFenDescRead (h : CmdHdr) (index word : Nat) (s : State) : Result :=
  .next (s.fadm h 0x0D02 fun s =>
    if 1 < h.target then fail s 0x0104
    else if 4095 < index ∨ 3 < word then fail s 0x0100
    else ok s (Tbl.getD s.fen.descs 0 index / 2 ^ (64 * word) % 2 ^ 64))

/-- Do the ranges first, count overlap? -/
def overlap (f n f' n' : Nat) : Bool := decide (0 < n) && decide (0 < n') && decide (f < f' + n') && decide (f' < f + n)

/-- FEN_PART_SET (R527, R579): a range overlapping another partition's or outside the memory is BAD_PART; one that would shrink, move or rebind a
partition that holds a reservation is PART_BUSY. -/
def execFenPartSet (h : CmdHdr) (part ring tenant sfirst scount tfirst tcount enable : Nat) (s : State) : Result :=
  .next (s.fadm h 0x0D03 fun s =>
    let die := h.target
    if 1 < die then fail s 0x0104 else
    let sram := fun p => (s.rd (Reg.FADM_PART_SRAM die p)).toNat
    let tf := fun p => s.fld (Reg.FADM_PART_T1_FIRST die p) ⟨23, 0⟩
    let tc := fun p => s.fld (Reg.FADM_PART_T1_COUNT die p) ⟨23, 0⟩
    let slots := s.fld (Reg.FADM_T1_SLOTS die) Fld.FADM_T1_SLOTS_SLOTS
    if 63 < part ∨ 768 < sfirst + scount ∨ slots < tfirst + tcount ∨ (List.range 64).any fun p => p != part &&
        (overlap sfirst scount (bits 9 0 (sram p)) (bits 25 16 (sram p)) || overlap tfirst tcount (tf p) (tc p)) then fail s 0x0101
    else
      let busy := s.fld (Reg.FADM_PART_STATUS die part) Fld.FADM_PART_STATUS_SRAM_USED != 0 || s.fld (Reg.FADM_PART_T1_USED die part) ⟨23, 0⟩ != 0
      let less := s.fld (Reg.FADM_PART_CFG die part) Fld.FADM_PART_CFG_TENANT != tenant || bits 9 0 (sram part) != sfirst ||
        decide (scount < bits 25 16 (sram part)) || tf part != tfirst || decide (tcount < tc part)
      if busy && less then fail s 0x0102
      else
        let s := s.wr (Reg.FADM_PART_CFG die part) (BitVec.ofNat 32 (b2n (enable != 0) * 2 ^ 31 + ring % 256 * 2 ^ 16 + tenant % 2 ^ 16))
        let s := s.wr (Reg.FADM_PART_SRAM die part) (BitVec.ofNat 32 (scount * 2 ^ 16 + sfirst))
        ok ((s.wr (Reg.FADM_PART_T1_FIRST die part) (BitVec.ofNat 32 tfirst)).wr (Reg.FADM_PART_T1_COUNT die part) (BitVec.ofNat 32 tcount)).slotOpenClear)

/-- FEN_PART_RESET (R574, R578): no error is logged. -/
def execFenPartReset (h : CmdHdr) (part : Nat) (s : State) : Result :=
  .next (s.fadm h 0x0D04 fun s =>
    if 1 < h.target then fail s 0x0104
    else if 63 < part then fail s 0x0101
    else ok (s.fenPartReset h.target part false))

/-- FEN_ABORT (R567, R578). -/
def execFenAbort (h : CmdHdr) (group rnd : Nat) (s : State) : Result :=
  .next (s.fadm h 0x0D05 fun s =>
    if 1 < h.target then fail s 0x0104
    else
      match s.fenRound h.target group with
      | some r => if r.round = rnd then ok (s.fenAbort r 5) else fail s 0x0103
      | none => fail s 0x0103)

/-- FEN_QUERY (R578). -/
def execFenQuery (h : CmdHdr) (group : Nat) (s : State) : Result :=
  .next (s.fadm h 0x0D06 fun s =>
    if 1 < h.target then fail s 0x0104
    else
      let k := s.fenHist h.target group
      let base := k.round + k.status * 2 ^ 16
      match s.fenRound h.target group with
      | some r => ok s (base + 2 ^ 24 + b2n r.pass * 2 ^ 25 + b2n r.tier1 * 2 ^ 26 + r.slots * 2 ^ 32)
      | none => ok s base)

/-! ### Registers -/

/-- A write of FADM_SALT_SEED loads the generator (R557). -/
def State.saltSeedWrite (s : State) (die v : Nat) : State :=
  let s := s.wr (Reg.FADM_SALT_SEED die) (BitVec.ofNat 32 v)
  { s with fen := { s.fen with salts := Tbl.set s.fen.salts 0 die 0 } }

/-- SALT_SEED_LOAD (R557). -/
def execSaltSeedLoad (die value : Nat) (s : State) : Result := .next (s.onPage (pg 0x0D die) fun s => s.saltSeedWrite die value)
/-- FEN_CNT_CLEAR (R580). -/
def execFenCntClear (n : Nat) (s : State) : Result := .next (s.onPage (pg 0x0C n) fun s => s.clearCnts (pg 0x0C n))
/-- FADM_CNT_CLEAR (R581): a write of FADM_CTRL with CNT_CLEAR and the other fields as they are. -/
def execFadmCntClear (die : Nat) (s : State) : Result := .next (s.onPage (pg 0x0D die) fun s => s.clearCnts (pg 0x0D die))

end Sys2Proof.Machine
end

