-- ==== Sys2Proof/Machine/Peat.lean ====
section
/-! DEFINITION. Peat (R595–R637): partitions, the directory, requests and responses, moves, resets, snapshots, power. -/
namespace Sys2Proof.Machine

/-- The page of Peat, and its location. -/
def peatPg : Nat := pg 0x0E 0
def peatLoc : Nat := locBlock 0x0E

/-! ### Partitions, pools and slots (R589, R595–R598) -/

/-- The region of a kind in one tier: base and size in bytes (R589). -/
def State.regionIn (s : State) (kind tier : Nat) : Option (Nat × Nat) :=
  (List.range 16).findSome? fun r =>
    if s.fld (Reg.TIER_REGION_CFG r) Fld.TIER_REGION_CFG_KIND = kind ∧ s.fld (Reg.TIER_REGION_CFG r) Fld.TIER_REGION_CFG_TIER = tier then
      some (s.fld (Reg.TIER_REGION_BASE r) Fld.TIER_REGION_BASE_BASE * 2097152, s.fld (Reg.TIER_REGION_SIZE r) Fld.TIER_REGION_SIZE_SIZE * 2097152)
    else none

/-- Does a slot lie in its pool? -/
def State.slotIn (s : State) (tier slot : Nat) : Bool :=
  match s.regionIn 5 tier with | some (_, n) => decide (65536 * (slot + 1) ≤ n) | none => false
/-- A block of a pool: a slot outside the pool reads as zero, and the refusal is counted (R590). -/
def State.slotRead (s : State) (tier slot : Nat) : List Byte × State :=
  match s.regionIn 5 tier with
  | some (b, n) => if 65536 * (slot + 1) ≤ n then (memRead (s.tier tier) (b + 65536 * slot) 65536, s) else (List.replicate 65536 0, s.regionViolation)
  | none => (List.replicate 65536 0, s.regionViolation)
/-- Writes a block into a slot. -/
def State.slotWrite (s : State) (tier slot : Nat) (bs : List Byte) : State :=
  match s.regionIn 5 tier with
  | some (b, n) => if 65536 * (slot + 1) ≤ n then s.tierWrite tier (b + 65536 * slot) bs else s.regionViolation
  | none => s.regionViolation

def State.partRing (s : State) (p : Nat) : Nat := s.fld (Reg.PEAT_PART_CFG p) Fld.PEAT_PART_CFG_EVENT_RING
/-- Is an endpoint in a partition's access group (R597)? -/
def State.partMember (s : State) (p src : Nat) : Bool :=
  match s.group 0 (s.fld (Reg.PEAT_PART_ACCESS p) Fld.PEAT_PART_ACCESS_GROUP) with
  | some e => (s.members 0 e).any fun f => feidKey f == feidKey src
  | none => false

/-- The lowest free slot of a range (R598). -/
def State.slotFree (s : State) (tier : Nat) (r : Nat × Nat) : Option Nat :=
  let c := s.peat.owner.foldl (fun c o => if o.1 = slotKey tier c then c + 1 else c) r.1
  if c < r.1 + r.2 then some c else none
def State.slotOwn (s : State) (tier slot p idx : Nat) : State :=
  s.setPeat fun q => { q with owner := Tbl.put q.owner (slotKey tier slot) (1 + 2 ^ 32 * p + idx) }
def State.slotRelease (s : State) (tier slot : Nat) : State := s.setPeat fun q => { q with owner := Tbl.del q.owner (slotKey tier slot) }

/-! ### Directory entries (R600–R603) -/

def eValid (e : Nat) : Bool := bit 255 e
def ePin (e : Nat) : Bool := bit 254 e
def eTier (e : Nat) : Nat := bits 253 253 e
def eGen (e : Nat) : Nat := bits 247 240 e
def eFmt (e : Nat) : Nat := bits 239 232 e
def eUse (e : Nat) : Nat := bits 223 200 e
def eTokens (e : Nat) : Nat := bits 191 176 e
def eLoc (e : Nat) : Nat := bits 152 128 e
def eKey (e : Nat) : Nat := bits 95 0 e
/-- A directory entry (R600). -/
def mkEntry (pin : Bool) (tier gen fmt use tokens slot key : Nat) : Nat :=
  2 ^ 255 + b2n pin * 2 ^ 254 + tier % 2 * 2 ^ 253 + gen % 256 * 2 ^ 240 + fmt % 256 * 2 ^ 232 + use % 2 ^ 24 * 2 ^ 200 + tokens % 65536 * 2 ^ 176 +
  slot % 2 ^ 25 * 2 ^ 128 + key % 2 ^ 96
/-- LAST_USE now (R600). -/
def State.useNow (s : State) : Nat := s.nowNs / 2 ^ 20 % 2 ^ 24
/-- The key of a block (R600). -/
def blockKey (tenant session layer block : Nat) : Nat := tenant % 2 ^ 16 * 2 ^ 80 + session % 2 ^ 48 * 2 ^ 32 + layer % 4096 * 2 ^ 20 + block % 2 ^ 20

/-- The number of a stash entry among directory entry indices. -/
def stashIdx (k : Nat) : Nat := 2 ^ 30 + k
def State.dirLog2 (s : State) (p : Nat) : Nat := s.fld (Reg.PEAT_PART_DIR p) Fld.PEAT_PART_DIR_DIR_LOG2
/-- The offset in PEAT_DIR of a directory entry (R601). -/
def State.dirOff (s : State) (p idx : Nat) : Nat := 65536 * s.fld (Reg.PEAT_PART_DIR p) Fld.PEAT_PART_DIR_BASE + 32 * idx
/-- The directory entry at an index, of a bucket or of the stash. -/
def State.dirEnt (s : State) (p idx : Nat) : Nat :=
  if 2 ^ 30 ≤ idx then Tbl.getD s.peat.stash 0 (4 * p + (idx - 2 ^ 30)) else leNat (s.regionRead 4 (s.dirOff p idx) 32)
/-- STASH_USED follows the stash. -/
def State.stashCount (s : State) (p : Nat) : State :=
  s.setFld (Reg.PEAT_PART_STATUS p) Fld.PEAT_PART_STATUS_STASH_USED ((List.range 4).filter fun k => eValid (Tbl.getD s.peat.stash 0 (4 * p + k))).length
/-- Stores a directory entry; its slot's owner follows. -/
def State.dirPut (s : State) (p idx e : Nat) : State :=
  let s := if 2 ^ 30 ≤ idx then (s.setPeat fun q => { q with stash := Tbl.set q.stash 0 (4 * p + (idx - 2 ^ 30)) e }).stashCount p
    else s.regionWrite 4 (s.dirOff p idx) (leBytes 32 e)
  if eValid e then s.slotOwn (eTier e) (eLoc e) p idx else s

/-- The entry index of a side, bucket and way (R601): 32 bytes an entry, 128 a bucket. -/
def peatIdx (l side bucket way : Nat) : Nat := 4 * (2 ^ l * side + bucket) + way
/-- h1 (side 0) or h2 (side 1) of a key (R601). -/
def peatHash (l side key : Nat) : Nat := crc32c (beBytes 12 key ++ (if side = 0 then [] else [0xA5])) % 2 ^ l
/-- The ways where a key may stand, in the order of a lookup (R602). -/
def State.keyWays (s : State) (p key : Nat) : List Nat :=
  let l := s.dirLog2 p
  (List.range 2).flatMap (fun side => (List.range 4).map (peatIdx l side (peatHash l side key))) ++ (List.range 4).map stashIdx

/-- Is an entry in use and of the partition's generation? -/
def State.entLive (s : State) (p e : Nat) : Bool := eValid e && eGen e == s.partGen p
/-- An entry leaves the directory and its slot is freed, unless another entry owns the slot by now. -/
def State.dirRemove (s : State) (p idx : Nat) : State :=
  let e := s.dirEnt p idx
  let mine := Tbl.find s.peat.owner (slotKey (eTier e) (eLoc e)) == some (1 + 2 ^ 32 * p + idx)
  let s := if mine then s.slotRelease (eTier e) (eLoc e) else s
  s.dirPut p idx 0
/-- A lookup (R602): the index of the key's entry; a stale one is cleared and the key is absent. -/
def State.dirFind (s : State) (p key : Nat) : Option Nat × State :=
  match (s.keyWays p key).find? fun i => let e := s.dirEnt p i; eValid e && eKey e == key with
  | some i => if s.entLive p (s.dirEnt p i) then (some i, s) else (none, (s.dirRemove p i).inc Cnt.PEAT_STALE_HITS)
  | none => (none, s)

/-- What stands at an index once the planned writes are made (R299). -/
def State.planned (s : State) (p : Nat) (t : Tbl Nat) (i : Nat) : Nat := (Tbl.find t i).getD (s.dirEnt p i)
/-- The lowest way of a bucket that is free or holds a stale entry (R603). -/
def State.peatWay (s : State) (p : Nat) (t : Tbl Nat) (side bucket : Nat) : Option Nat :=
  ((List.range 4).map (peatIdx (s.dirLog2 p) side bucket)).find? fun i => !s.entLive p (s.planned p t i)
/-- The path of R298 over the planned contents. -/
def State.peatPath (s : State) (p : Nat) : Nat → Nat → Tbl Nat → Nat → Nat → Nat → Option (Tbl Nat)
  | 0, _, _, _, _, _ => none
  | fuel + 1, step, t, side, bucket, e =>
    let i := peatIdx (s.dirLog2 p) side bucket (step % 4)
    let y := s.planned p t i
    let t := Tbl.put t i e
    let o := 1 - side
    let ob := peatHash (s.dirLog2 p) o (eKey y)
    match s.peatWay p t o ob with
    | some f => some (Tbl.put t f y)
    | none => State.peatPath s p fuel (step + 1) t o ob y
/-- The writes that insert a new entry in the buckets (R603). -/
def State.peatPlan (s : State) (p e : Nat) : Option (Tbl Nat) :=
  let l := s.dirLog2 p
  let a := peatHash l 0 (eKey e)
  match s.peatWay p [] 0 a with
  | some i => some [(i, e)]
  | none =>
    match s.peatWay p [] 1 (peatHash l 1 (eKey e)) with
    | some i => some [(i, e)]
    | none => s.peatPath p 32 0 [] 0 a e
/-- Inserts a new entry (R603): in the buckets or in the stash; none is DIR_FULL. -/
def State.peatInsert (s : State) (p e : Nat) : Option State :=
  match s.peatPlan p e with
  | some t => some (t.foldl (fun s w => s.dirPut p w.1 w.2) s)
  | none =>
    ((List.range 4).find? fun k => !eValid (Tbl.getD s.peat.stash 0 (4 * p + k))).map fun k =>
      (((s.dirPut p (stashIdx k) e).inc Cnt.PEAT_STASHED).irq peatPg 3).logErr peatPg 0x0101 0 peatLoc

/-! ### Resets (R630, R631) -/

/-- The commands not yet started that name partition p complete with ABORTED (R74). -/
def State.abortPeatPart (s : State) (p : Nat) : State :=
  s.abortListed fun t => !t.running && t.opcode / 256 == 0x0E && leAt 0 1 t.operands == p

/-- A reset of partition p (R630): its GEN rises, its slots and stash are free, commands that name it are aborted, and the background sweep begins. -/
def State.peatResetNow (s : State) (p : Nat) (log : Bool) : State :=
  let s := s.abortPeatPart p
  let a := Reg.PEAT_PART_STATUS p
  let g := s.partGen p
  let s := (s.setFld a Fld.PEAT_PART_STATUS_GEN (if g = 255 then 1 else g + 1)).setFlag a Fld.PEAT_PART_STATUS_RESETTING true
  let mine := fun (o : Nat × Nat) => o.2 / 2 ^ 32 == p
  let s := (s.setPeat fun q => { q with owner := q.owner.filter fun o => !mine o, stash := q.stash.filter fun x => x.1 / 4 != p }).stashCount p
  let s := if log then s.logErr peatPg 0x0100 2 peatLoc else s
  let s := ((s.inc Cnt.PEAT_PART_RESETS).irq peatPg 2).genChanged
  s.post (s.partRing p) ⟨1, 0x0E, p, 0x0104, 0, 0, none, s.short, 0, leBytes 36 0⟩

/-- Resets partition p, or waits for the sweep of the reset before (R631). A command's completion goes with its reset. -/
def State.peatReset (s : State) (p : Nat) (h : Option CmdHdr) : State :=
  if s.flag (Reg.PEAT_PART_STATUS p) Fld.PEAT_PART_STATUS_RESETTING then s.setPeat fun q => { q with resetWait := q.resetWait ++ [(p, h)] }
  else
    let s := s.peatResetNow p h.isNone
    match h with | some h => s.complete h 0x0E ⟨0, 0, 0, []⟩ | none => s
/-- Does a reset of p wait (R631)? -/
def State.peatResetting (s : State) (p : Nat) : Bool := s.peat.resetWait.any fun x => x.1 == p

/-- The background sweep clears p's stale entries (R631). -/
def State.peatSweep (s : State) (p : Nat) : State :=
  match s.regionOf 4 with
  | none => s
  | some (t, b, _) =>
    let lo := b + s.dirOff p 0
    let hi := lo + 256 * 2 ^ s.dirLog2 p
    let idxs := (((s.tier t).filter fun c => decide (lo ≤ c.1) && decide (c.1 < hi)).map fun c => (c.1 - lo) / 32).eraseDups
    idxs.foldl (fun s i => if s.entLive p (s.dirEnt p i) then s else s.dirPut p i 0) s

/-- PEAT_PART_UE (R587, R630): an uncorrectable error in a beat of the partitions listed, several when the beat is of the slot table. `chan`: the
channel that read it; none: a stash entry, which no tier holds. -/
def execPeatPartUe (chan : Option Nat) (parts : List Nat) (s : State) : Result :=
  let s := match chan with | some c => s.beatSeen ⟨c, true⟩ | none => s
  .next ((parts.filter (decide <| · < 64)).foldl (fun s p => s.peatReset p none) s)

/-- STALE_SWEEP_DONE (R631): the sweep of p is through, and the reset that waited for it takes place. -/
def execStaleSweepDone (p : Nat) (s : State) : Result :=
  if !s.flag (Reg.PEAT_PART_STATUS p) Fld.PEAT_PART_STATUS_RESETTING then .next s else
  let s := (s.peatSweep p).setFlag (Reg.PEAT_PART_STATUS p) Fld.PEAT_PART_STATUS_RESETTING false
  match takeFirst (fun x => x.1 == p) s.peat.resetWait with
  | some (x, rest) => .next ((s.setPeat fun q => { q with resetWait := rest }).peatReset p x.2)
  | none => .next s

/-! ### Moves between tiers (R613–R615) -/

/-- Moves the block of an entry to a tier (R614): false when the tier has no free slot. -/
def State.peatMove (s : State) (p idx tier : Nat) : Bool × State :=
  let e := s.dirEnt p idx
  match s.slotFree tier (s.slotRange p tier) with
  | none => (false, s)
  | some slot =>
    let (bs, s) := s.slotRead (eTier e) (eLoc e)
    let s := s.slotWrite tier slot bs
    (true, (s.dirPut p idx (withBits 152 128 slot (withBits 253 253 tier e))).slotRelease (eTier e) (eLoc e))

/-- Is it at or below LOW (R615)? -/
def State.atLow (s : State) (p : Nat) : Bool :=
  decide (16 * s.partUsed p 0 ≤ s.fld Reg.PEAT_DEMOTE Fld.PEAT_DEMOTE_LOW * (s.slotRange p 0).2)

/-- A partition below HIGH has not stayed above it for the window (R616). -/
def State.noteLevel (s : State) (p : Nat) : State :=
  if s.aboveHigh p || s.peat.below.contains p then s else s.setPeat fun q => { q with below := q.below ++ [p] }

/-- AUTO_DEMOTE (R615): one scan of 64 slots of a partition above HIGH, or not yet back at LOW; the victim is demoted, or an imbalance reported until
the next millisecond. The copies keep to RATE. -/
def execAutoDemote (p : Nat) (s : State) : Result :=
  let rate := s.fld Reg.PEAT_DEMOTE Fld.PEAT_DEMOTE_RATE
  let run := s.partOn p && (s.aboveHigh p || (s.peat.demoting.contains p && !s.atLow p))
  if !run || s.frozen || rate == 0 then .next (s.setPeat fun q => { q with demoting := q.demoting.filter fun x => x != p || run })
  else
    let s := s.elapseToTick (max s.peat.demoteAt (Tbl.getD s.peat.stopUntil 0 p))
    let (first, count) := s.slotRange p 0
    let hand := Tbl.getD s.peat.hand 0 p
    let offs := (List.range (min 64 count)).map fun i => (hand + i) % count
    let cand := offs.filterMap fun o =>
      (Tbl.find s.peat.owner (slotKey 0 (first + o))).bind fun w =>
        let idx := (w - 1) % 2 ^ 32
        if ePin (s.dirEnt p idx) then none else some (first + o, idx)
    let s := s.setPeat fun q => { q with demoting := if q.demoting.contains p then q.demoting else q.demoting ++ [p] }
    if cand.isEmpty || (s.slotFree 1 (s.slotRange p 1)).isNone then
      let s := (s.irq peatPg 4).levelReport 3 p
      .next (s.setPeat fun q => { q with stopUntil := Tbl.put q.stopUntil p ((s.time.ticks / 781250 + 1) * 781250) })
    else
      let age := fun (idx : Nat) => (s.useNow + 2 ^ 24 - eUse (s.dirEnt p idx)) % 2 ^ 24
      let best := cand.foldl (fun (b : Option (Nat × Nat)) c => match b with
        | some v => if age v.2 < age c.2 ∨ (age v.2 = age c.2 ∧ c.1 < v.1) then some c else b
        | none => some c) none
      let s := match best with | some v => ((s.peatMove p v.2 1).2).inc Cnt.PEAT_AUTO_DEMOTES | none => s
      let s := s.setPeat fun q => { q with
        hand := Tbl.put q.hand p ((hand + min 64 count) % count), demoteAt := s.time.ticks + nsTicks (ceilDiv 655360 rate) }
      let s := if s.atLow p then s.setPeat fun q => { q with demoting := q.demoting.filter (· != p) } else s
      .next (s.noteLevel p)

/-! ### Requests (R605–R612) -/

/-- A request's fields (R607, R608). -/
structure PeatReq where
  op : Nat
  flags : Nat
  fmt : Nat
  rnd : Nat
  tenant : Nat
  session : Nat
  layer : Nat
  count : Nat
  tokens : Nat
  g : Nat
  qh : Nat
  dh : Nat
  nq : Nat
  scale : Nat
  goff : Nat
  glen : Nat
  blocks : List Nat
  dataAt : Nat      -- where the data begins

/-- Reads the header and the list of a request message. -/
def readReq (m : List Byte) : PeatReq :=
  let n := beAt 14 2 m
  ⟨beAt 0 1 m, beAt 1 1 m, beAt 2 1 m, beAt 3 1 m, beAt 4 2 m, beAt 6 6 m, beAt 12 2 m, n, beAt 16 2 m, beAt 18 1 m, beAt 19 1 m, beAt 20 2 m, beAt 22 1 m,
    beAt 24 4 m, beAt 28 4 m, beAt 32 4 m, (List.range n).map fun i => beAt (64 + 4 * i) 4 m, 64 + 64 * ceilDiv (4 * n) 64⟩

/-- Bytes of data that come with a request (R608, R626). -/
def PeatReq.dataIn (r : PeatReq) : Nat :=
  if r.op = 1 then r.count * 65536 else if r.op = 4 then r.nq * r.g * r.qh * r.dh * (elemBits (fmtCode r.fmt) / 8) else 0
/-- Bytes of data out (R609, R628). -/
def PeatReq.dataOut (r : PeatReq) : Nat :=
  if r.op = 2 then r.count * 65536 else if r.op = 3 then r.count * r.glen else if r.op = 4 then r.nq * r.g * r.qh * (r.dh + 2) * 4 else 0

/-- Does a request keep to R607–R609 and R625? -/
def PeatReq.ok (r : PeatReq) (m : List Byte) : Bool :=
  let isAtt := r.op == 4
  decide (1 ≤ r.op) && decide (r.op ≤ 8) &&
  (if r.op = 1 then decide (r.flags < 4) else if r.op = 5 then r.flags == 0 || r.flags == 4 else r.flags == 0) &&
  (if r.op = 1 then fmtOk r.fmt else if isAtt then queryFmtOk r.fmt else r.fmt == 0) &&
  (if isAtt then decide (r.rnd < 8) else r.rnd == 0) && decide (r.layer < 4096) && (r.op == 1 || r.tokens == 0) &&
  (if isAtt then decide (1 ≤ r.g) && decide (r.g ≤ 32) && decide (1 ≤ r.qh) && decide (r.qh ≤ 32) && decide (32 ≤ r.dh) && decide (r.dh ≤ 256) &&
      r.dh % 32 == 0 && decide (1 ≤ r.nq) && decide (r.nq ≤ 16) && decide (r.nq * r.g * r.qh ≤ 512)
    else r.g == 0 && r.qh == 0 && r.dh == 0 && r.nq == 0 && r.scale == 0) &&
  beAt 23 1 m == 0 &&
  (if r.op = 3 then r.goff % 64 == 0 && r.glen % 64 == 0 && decide (64 ≤ r.glen) && decide (r.goff + r.glen ≤ 65536) && decide (r.count * r.glen ≤ 16777216)
    else r.goff == 0 && r.glen == 0) &&
  allZero (slice 36 28 m) && decide (1 ≤ r.count) && decide (r.count ≤ (if r.op = 1 ∨ r.op = 2 then 16 else 1024)) &&
  r.blocks.all (decide <| · < 2 ^ 20) && allZero (slice (64 + 4 * r.count) (r.dataAt - 64 - 4 * r.count) m) && m.length == r.dataAt + r.dataIn

/-- Sends a response message (R605, R610): its parts in packets of at most 4,096 bytes; with `poison` the packets that hold data carry POISON. -/
def State.peatRespond (s : State) (lp : Nat) (req : Pkt) (gen op status sum : Nat) (sts : List Nat) (t2 : Nat) (data : List Byte) (poison : Bool) : State :=
  let okc := (sts.filter (· == 0)).length
  let hdr := beBytes 1 op ++ beBytes 1 status ++ beBytes 1 (sum % 16) ++ beBytes 1 0 ++ beBytes 2 sts.length ++ beBytes 2 okc ++ beBytes 2 t2 ++ beBytes 54 0
  let front := 64 + 64 * ceilDiv sts.length 64
  let body := slice 0 front (hdr ++ sts.map (BitVec.ofNat 8 ·)) ++ data
  let n := ceilDiv body.length 4096
  (List.range n).foldl (fun s k =>
    let part := (body.drop (4096 * k)).take 4096
    let fl := 2 ^ fSrcSpine + b2n (k + 1 == n) * 2 ^ fLast + b2n (poison && decide (front < 4096 * k + part.length)) * 2 ^ fPoison
    s.fnSend (lp / 512 % 2) { cls := if req.cls = 6 then 6 else 4, typ := 0x21, flags := fl, dst := req.src, src := s.spineAddr 2, gen := gen, msgId := req.msgId, offset := 4096 * k, plen := part.length, payload := part }) s

/-- What a request has done so far: the state, block statuses, blocks served from tier 2, data out, blocks for ATTEND. -/
structure PeatRun where
  st : State
  sts : List Nat
  t2 : Nat
  data : List Byte
  att : List AttBlock

/-- A block's outcome: its status, from tier 2, its data. -/
def PeatRun.add (x : PeatRun) (s : State) (status : Nat) (t2 : Bool) (data : List Byte) : PeatRun :=
  { x with st := s, sts := x.sts ++ [status], t2 := x.t2 + b2n t2, data := x.data ++ data }

/-- PUT of one block (R613): `poison` when its payload must not be used (R183, R612). -/
def putBlock (p : Nat) (r : PeatReq) (key : Nat) (bs : List Byte) (poison : Bool) (x : PeatRun) : PeatRun :=
  let (i, s) := x.st.dirFind p key
  let put := fun (s : State) tier slot => (s.slotWrite tier slot bs).inc Cnt.PEAT_PUTS
  match i with
  | some i =>
    let e := s.dirEnt p i
    if bit 0 r.flags then x.add s 2 false []
    else if poison then x.add s 7 false []
    else x.add ((put s (eTier e) (eLoc e)).dirPut p i (mkEntry (ePin e) (eTier e) (s.partGen p) r.fmt s.useNow r.tokens (eLoc e) key)) 0 false []
  | none =>
    if poison then x.add s 7 false []
    else
      let f := fun t => (s.slotFree t (s.slotRange p t)).map fun k => (t, k)
      match (if bit 1 r.flags then (f 1).orElse fun _ => f 0 else (f 0).orElse fun _ => f 1) with
      | none => x.add s 3 false []
      | some (tier, slot) =>
        match s.peatInsert p (mkEntry false tier (s.partGen p) r.fmt s.useNow r.tokens slot key) with
        | some s => x.add (put s tier slot) 0 false []
        | none => x.add (s.inc Cnt.PEAT_DIR_FULL) 4 false []

/-- GET, GATHER and ATTEND of one block (R613, R623, R624). A read refused outside the pool comes back poisoned (R590): the block is POISONED. -/
def readBlock (p : Nat) (r : PeatReq) (key : Nat) (x : PeatRun) : PeatRun :=
  let len := if r.op = 2 then 65536 else if r.op = 3 then r.glen else 0
  let none_ := List.replicate len (0 : Byte)
  let (i, s) := x.st.dirFind p key
  match i with
  | none => x.add (s.inc Cnt.PEAT_ABSENT) 1 false none_
  | some i =>
    let e := s.dirEnt p i
    let fits := match halfCap (eFmt e) with | some n => eTokens e != 0 && decide (eTokens e * r.g * r.dh ≤ n) | none => false
    if r.op = 4 ∧ !fits then x.add s 6 false []
    else
      let s := s.dirPut p i (withBits 223 200 s.useNow e)
      let inPool := s.slotIn (eTier e) (eLoc e)
      let (bs, s) := s.slotRead (eTier e) (eLoc e)
      let t2 := eTier e == 1
      if !inPool then x.add s 7 false none_ else
      if r.op = 4 then { x.add s 0 t2 [] with att := x.att ++ [⟨eTokens e, eFmt e, bs⟩] }
      else x.add (s.inc Cnt.PEAT_GETS) 0 t2 (slice r.goff len bs)

/-- PIN, EVICT, PROMOTE and DEMOTE of one block (R613). -/
def mindBlock (p : Nat) (r : PeatReq) (key : Nat) (x : PeatRun) : PeatRun :=
  let (i, s) := x.st.dirFind p key
  match i with
  | none => x.add (s.inc Cnt.PEAT_ABSENT) 1 false []
  | some i =>
    let e := s.dirEnt p i
    if r.op = 5 then x.add (s.dirPut p i (withBits 254 254 (b2n (!bit 2 r.flags)) e)) 0 false []
    else if ePin e then x.add s 5 false []
    else if r.op = 6 then x.add (s.dirRemove p i) 0 false []
    else
      let tier := if r.op = 7 then 0 else 1
      let used := fun (s : State) => if r.op = 7 then s.dirPut p i (withBits 223 200 s.useNow (s.dirEnt p i)) else s
      if eTier e = tier then x.add (used s) 0 false []
      else
        match s.peatMove p i tier with
        | (true, s) => x.add (used (s.inc Cnt.PEAT_MOVES)) 0 false []
        | (false, s) => x.add s 3 false []

/-- Is Peat online (R620)? -/
def State.peatOnline (s : State) : Bool := s.tierReady 0 && s.flag Reg.PEAT_CTRL Fld.PEAT_CTRL_ACCEPT

/-- Counts the multiply-accumulates of an ATTEND, in units of 2^20 (R637, R745). -/
def State.countMacs (s : State) (p n : Nat) : State :=
  let k := s.peat.macRem + n
  let s := s.setPeat fun q => { q with macRem := k % 2 ^ 20 }
  (s.addCnt Cnt.PEAT_MACS (k / 2 ^ 20)).pmcEvent 0x22 0 p (k / 2 ^ 20)

/-- Runs an accepted request of partition p, block by block in list order (R613, R614). `poisoned` says which PUT blocks are poisoned. -/
def State.peatWork (s : State) (p : Nat) (r : PeatReq) (m : List Byte) (poisoned : Nat → Bool) : PeatRun :=
  (List.range r.count).foldl (fun x k =>
    let key := blockKey r.tenant r.session r.layer (r.blocks.getD k 0)
    if r.op = 1 then putBlock p r key ((m.drop (r.dataAt + 65536 * k)).take 65536) (poisoned k) x
    else if r.op ≤ 4 then readBlock p r key x
    else mindBlock p r key x) ⟨s, [], 0, [], []⟩

/-- The statuses and T2_COUNT of a request that its partition's reset ends are not stated: free values. -/
def State.drawStatuses (s : State) (n : Nat) : List Nat × State :=
  ((List.range n).map fun k => Config.freeNat (s.free + k) % 8, { s with free := s.free + n })

/-- A request to a partition that resets (R630, R631): its data goes as zero bytes with POISON. -/
def State.peatLost (s : State) (lp : Nat) (pkt : Pkt) (p : Nat) (r : PeatReq) : State :=
  let (sts, s) := s.drawStatuses r.count
  let (v, s) := s.draw
  s.peatRespond lp pkt (s.partGen p) r.op 0x13 0 sts (v % (r.count + 1)) (List.replicate r.dataOut 0) true

/-- Serves a complete request message (R597, R604, R610–R614). `errs`: the errors in the beats that serving it reads; an
uncorrectable one resets the partition (R587, R630). -/
def State.peatServe (s : State) (lp : Nat) (pkt : Pkt) (m : List Byte) (badLen : Bool) (poison : List (Nat × Nat)) (errs : List BeatErr) : State :=
  let r := readReq m
  let part := s.partOf r.tenant
  let s := s.inc Cnt.PEAT_REQUESTS
  let s := match part with | some p => s.pmcEvent 0x20 0 p 1 | none => s
  let refuse := fun (s : State) status =>
    let (g, s) := match part with | some p => (s.partGen p, s) | none => let (v, s) := s.draw; (v % 256, s)
    s.peatRespond lp pkt g r.op status 0 [] 0 [] false
  let inData := fun (q : Nat × Nat) => r.op == 1 && decide (r.dataAt ≤ q.1)
  if !s.peatOnline || (r.op == 4 && !s.flag Reg.PEAT_STATUS Fld.PEAT_STATUS_ATTEND_OK) then refuse s 0x10
  else if poison.any fun q => decide (q.1 < 64) then refuse s 0x12
  else
    match part with
    | none => refuse (s.inc Cnt.PEAT_DENIED) 0x11
    | some p =>
      if !s.partMember p pkt.src then refuse (s.inc Cnt.PEAT_DENIED) 0x11
      else if badLen || !r.ok m || poison.any fun q => !inData q then refuse s 0x12
      else if s.peatResetting p then s.peatLost lp pkt p r
      else if errs.any (·.ue) then ((s.beatsSeen errs).peatReset p none).peatLost lp pkt p r
      else
        let x := (s.beatsSeen errs).peatWork p r m fun k => poison.any fun q => decide (q.1 < r.dataAt + 65536 * (k + 1)) && decide (r.dataAt + 65536 * k < q.2)
        let s := (x.st.pmcEvent 0x21 0 p x.t2).pmcEvent 0x23 0 p (x.sts.filter (· == 1)).length
        let s := s.noteLevel p
        let status := if x.sts.all (· == 0) then 0 else 1
        if r.op = 4 then
          let shape : AttShape := ⟨r.rnd % 4, bit 2 r.rnd, r.g, r.qh, r.dh, r.nq, f32.decode r.scale⟩
          let (data, fl) := attend shape r.fmt (m.drop r.dataAt) x.att
          let macs := (x.att.map (·.tokens)).foldl (· + ·) 0 * r.nq * r.g * r.qh * 2 * r.dh
          let s := ((s.inc Cnt.PEAT_ATTENDS).countMacs p macs).wr Reg.PEAT_STICKY (s.rd Reg.PEAT_STICKY ||| BitVec.ofNat 32 fl)
          s.peatRespond lp pkt (s.partGen p) r.op status fl x.sts x.t2 data false
        else s.peatRespond lp pkt (s.partGen p) r.op status 0 x.sts x.t2 x.data false

/-- The bytes of a message as gathered: distinct bytes, the end of the last, the bytes in place (R209). -/
def gather (segs : List PeatSeg) : Nat × Nat × List Byte :=
  (segs.mergeSort (fun a b => decide (a.offset ≤ b.offset))).foldl (fun acc g =>
    let stop := g.offset + g.data.length
    let new := stop - max acc.2.1 g.offset
    if new = 0 then acc
    else (acc.1 + new, stop, acc.2.2 ++ List.replicate (g.offset - acc.2.1) 0 ++ g.data.drop (g.data.length - new))) (0, 0, [])

/-- A PEAT_REQ packet arrives (R605, R209, R210); the message it completes is served by the row of its OP. An unknown OP is refused in any row. -/
def State.peatRow (s : State) (op lp : Nat) (pkt : Pkt) (errs : List BeatErr) : State :=
  if pkt.typ ≠ 0x20 ∨ s.frozen then s else
  let mine := fun (q : Reasm) => q.src == pkt.src && q.msgId == pkt.msgId && q.gen == pkt.gen
  let q : Reasm := (s.peat.reasm.find? mine).getD ⟨pkt.src, pkt.msgId, pkt.gen, s.time.ticks, [], none⟩
  if q.segs.any fun g => g.offset == pkt.offset then s.takeFn lp pkt
  else if s.peatStale pkt then
    let s := ((s.takeFn lp pkt).setPeat fun x => { x with reasm := x.reasm.filter fun y => !mine y }).staleIn lp pkt
    q.segs.foldl (fun s g => s.staleIn g.lport pkt) s
  else
    let g : PeatSeg := ⟨lp, pkt.offset, pkt.payload, pflag pkt fPoison⟩
    let total := if pflag pkt fLast then some (pkt.offset + pkt.payload.length) else q.total
    let q : Reasm := { q with segs := q.segs ++ [g], total := total }
    let (n, stop, m) := gather q.segs
    let rest := s.peat.reasm.filter fun x => !mine x
    match q.total with
    | some t =>
      if n ≠ t then (s.takeFn lp pkt).setPeat fun x => { x with reasm := rest ++ [q] }
      else
        let o := beAt 0 1 m
        if 1 ≤ o ∧ o ≤ 8 ∧ o ≠ op then s
        else
          let s := (s.takeFn lp pkt).setPeat fun x => { x with reasm := rest }
          let poison := (q.segs.filter (·.poison)).map fun g => (g.offset, g.offset + g.data.length)
          s.peatServe lp pkt (m.take t) (stop != t) poison errs
    | none => (s.takeFn lp pkt).setPeat fun x => { x with reasm := rest ++ [q] }

/-- PEAT_PUT (R613). -/
def execPeatPut (lport : Nat) (pkt : Pkt) (errs : List BeatErr) (s : State) : Result := .next (s.peatRow 1 lport pkt errs)
/-- PEAT_GET (R613). -/
def execPeatGet (lport : Nat) (pkt : Pkt) (errs : List BeatErr) (s : State) : Result := .next (s.peatRow 2 lport pkt errs)
/-- PEAT_GATHER (R609, R613). -/
def execPeatGather (lport : Nat) (pkt : Pkt) (errs : List BeatErr) (s : State) : Result := .next (s.peatRow 3 lport pkt errs)
/-- PEAT_ATTEND (R623–R629). -/
def execPeatAttend (lport : Nat) (pkt : Pkt) (errs : List BeatErr) (s : State) : Result := .next (s.peatRow 4 lport pkt errs)
/-- PEAT_PIN (R613). -/
def execPeatPin (lport : Nat) (pkt : Pkt) (errs : List BeatErr) (s : State) : Result := .next (s.peatRow 5 lport pkt errs)
/-- PEAT_EVICT (R613). -/
def execPeatEvict (lport : Nat) (pkt : Pkt) (errs : List BeatErr) (s : State) : Result := .next (s.peatRow 6 lport pkt errs)
/-- PEAT_PROMOTE (R613). -/
def execPeatPromote (lport : Nat) (pkt : Pkt) (errs : List BeatErr) (s : State) : Result := .next (s.peatRow 7 lport pkt errs)
/-- PEAT_DEMOTE (R613). -/
def execPeatDemote (lport : Nat) (pkt : Pkt) (errs : List BeatErr) (s : State) : Result := .next (s.peatRow 8 lport pkt errs)

/-- PEAT_REASM_TIMEOUT (R606): an incomplete request is discarded; no response goes out. -/
def execPeatReasmTimeout (src msgId gen : Nat) (s : State) : Result :=
  let mine := fun (q : Reasm) => q.src == src && q.msgId == msgId && q.gen == gen
  match s.peat.reasm.find? mine with
  | none => .next s
  | some q =>
    if s.frozen then .next s else
    let s := s.elapseToTick (q.since + usTicks (max 1 (s.fld Reg.PEAT_REASM Fld.PEAT_REASM_US)))
    let s := (s.inc Cnt.PEAT_REASM_DROP).logErr peatPg 0x0102 0 peatLoc
    .next (s.setPeat fun x => { x with reasm := x.reasm.filter fun y => !mine y })

/-! ### Power (R621, R622) -/

/-- Does the throttle of CX act on the array: sensor 2's THROTTLE threshold in force, and THROTTLE_EN (R841)? -/
def State.peatThrottled (s : State) : Bool := s.pwr.throttle.contains 2 && s.flag Reg.PWR_CTRL Fld.PWR_CTRL_THROTTLE_EN

/-- PEAT_POWER_INTERVAL: an interval of 10 µs ends in which the array had work for want / 65,536 of its tile-cycles. Under throttle the power it allows
falls by RAMP.DOWN, and the lower allowance governs (R845). -/
def execPeatPowerInterval (want : Nat) (s : State) : Result :=
  let s := s.nextSample 2
  let idle := 100 * s.fld Reg.PEAT_PMODEL Fld.PEAT_PMODEL_IDLE
  let full := 100 * s.fld Reg.PEAT_PMODEL Fld.PEAT_PMODEL_FULL
  let prev := max idle s.peat.power
  let up := s.fld Reg.PEAT_RAMP Fld.PEAT_RAMP_UP
  let down := s.fld Reg.PEAT_RAMP Fld.PEAT_RAMP_DOWN
  let asked := idle + full * want / 65536
  let limit := fun (p a : Nat) => if s.peatThrottled then min (p + up) (max idle (a - down)) else p + up
  let allow := limit prev s.peat.allow
  let p1 := min asked allow
  let fill := s.flag Reg.PEAT_CTRL Fld.PEAT_CTRL_FILL_EN && decide (p1 + down < prev)
  let p2 := if fill then prev - down else p1
  let s := if prev + up < asked then s.inc Cnt.PEAT_RAMP_HOLD else s
  let s := if fill then s.inc Cnt.PEAT_FILL_INTERVALS else s
  let s := (s.setFld Reg.PEAT_POWER Fld.PEAT_POWER_EST (min 65535 (p2 / 100))).setFld Reg.PEAT_POWER Fld.PEAT_POWER_ALLOW
    (min 65535 (min (idle + full) (limit p2 allow) / 100))
  .next (s.setPeat fun q => { q with power := p2, allow := allow })

/-! ### Commands (R632, R633, R635, R636) -/

/-- A PEAT command: operator only, TARGET 0 (R635). -/
def State.peatCmd (s : State) (h : CmdHdr) (opcode : Nat) (body : State → State × Option Cmpl) : State :=
  s.runCmd h opcode true fun s => if h.target ≠ 0 then failOpen s else body s

/-- The bytes of a directory with DIR_LOG2 = l (R601). -/
def dirBytes (l : Nat) : Nat := 256 * 2 ^ l

/-- Are the ranges of PEAT_PART_SET within their pools and PEAT_DIR, and apart from every other partition's (R596, R636)? -/
def State.partFits (s : State) (part t1First t1Count t2First t2Count dirBase dirLog2 : Nat) : Bool :=
  let pool := fun t => match s.regionIn 5 t with | some x => x.2 / 65536 | none => 0
  let dir := match s.regionOf 4 with | some (_, _, n) => n | none => 0
  decide (part < 64) && decide (8 ≤ dirLog2) && decide (dirLog2 ≤ 22) && (t1Count == 0 || decide (t1First + t1Count ≤ pool 0)) &&
  (t2Count == 0 || (s.tierReady 1 && decide (t2First + t2Count ≤ pool 1))) && decide (65536 * dirBase + dirBytes dirLog2 ≤ dir) &&
  (List.range 64).all fun q => q == part ||
    (let r1 := s.slotRange q 0
     let r2 := s.slotRange q 1
     let l := s.dirLog2 q
     !overlap t1First t1Count r1.1 r1.2 && !overlap t2First t2Count r2.1 r2.2 &&
     (l == 0 || !overlap (65536 * dirBase) (dirBytes dirLog2) (s.dirOff q 0) (dirBytes l)))

/-- PEAT_PART_SET (R596, R635, R636): a new or newly enabled directory is empty. -/
def execPeatPartSet (h : CmdHdr) (part ring tenant group t1First t1Count t2First t2Count dirBase dirLog2 enable : Nat) (s : State) : Result :=
  .next (s.peatCmd h 0x0E01 fun s =>
    if !s.tierReady 0 then fail s 0x0102
    else if !s.partFits part t1First t1Count t2First t2Count dirBase dirLog2 then fail s 0x0100
    else
      let same := s.slotRange part 0 == (t1First, t1Count) && s.slotRange part 1 == (t2First, t2Count)
      let holds := s.peat.owner.any fun o => o.2 / 2 ^ 32 == part
      let bound := s.partTenant part == tenant
      if s.partOn part && holds && (!same || !bound) then fail s 0x0101
      else
        let newDir := !s.partOn part || s.dirOff part 0 != 65536 * dirBase || s.dirLog2 part != dirLog2
        let s := s.wr (Reg.PEAT_PART_CFG part) (BitVec.ofNat 32 (b2n (bit 0 enable) * 2 ^ 31 + ring % 256 * 2 ^ 16 + tenant % 2 ^ 16))
        let s := s.wr (Reg.PEAT_PART_ACCESS part) (BitVec.ofNat 32 (group % 2 ^ 20))
        let s := (s.wr (Reg.PEAT_PART_T1_FIRST part) (BitVec.ofNat 32 (t1First % 2 ^ 25))).wr (Reg.PEAT_PART_T1_COUNT part) (BitVec.ofNat 32 (t1Count % 2 ^ 25))
        let s := (s.wr (Reg.PEAT_PART_T2_FIRST part) (BitVec.ofNat 32 (t2First % 2 ^ 25))).wr (Reg.PEAT_PART_T2_COUNT part) (BitVec.ofNat 32 (t2Count % 2 ^ 25))
        let s := s.wr (Reg.PEAT_PART_DIR part) (BitVec.ofNat 32 (dirLog2 * 2 ^ 24 + dirBase % 2 ^ 24))
        let s := if newDir then
            let s := (s.setPeat fun q => { q with owner := q.owner.filter fun o => o.2 / 2 ^ 32 != part, stash := q.stash.filter fun x => x.1 / 4 != part }).stashCount part
            match s.regionOf 4 with
            | some (t, b, _) => s.tierZero t (b + s.dirOff part 0) (dirBytes dirLog2)
            | none => s
          else s
        ok s.slotOpenClear)

/-- PEAT_PART_RESET (R630, R635): no error is logged. -/
def execPeatPartReset (h : CmdHdr) (part : Nat) (s : State) : Result :=
  .next (s.peatCmd h 0x0E02 fun s => if 63 < part then fail s 0x0100 else (s.peatReset part (some h), none))

/-- PEAT_LOOKUP (R602, R635). -/
def execPeatLookup (h : CmdHdr) (part key : Nat) (s : State) : Result :=
  .next (s.peatCmd h 0x0E03 fun s =>
    if 63 < part then fail s 0x0100
    else if !s.tierReady 0 then fail s 0x0102
    else
      match s.dirFind part key with
      | (some i, s) =>
        let e := s.dirEnt part i
        ok s (2 ^ 63 + b2n (ePin e) * 2 ^ 62 + eTier e * 2 ^ 61 + eFmt e * 2 ^ 48 + eGen e * 2 ^ 40 + eLoc e)
      | (none, s) => ok s 0)

/-- A partition's live entries in ascending directory entry index, the stash after them (R632). -/
def State.liveEntries (s : State) (p : Nat) : List Nat :=
  match s.regionOf 4 with
  | none => []
  | some (t, b, _) =>
    let lo := b + s.dirOff p 0
    let idxs := (((s.tier t).filter fun c => decide (lo ≤ c.1) && decide (c.1 < lo + dirBytes (s.dirLog2 p))).map fun c => (c.1 - lo) / 32).eraseDups
    ((idxs ++ (List.range 4).map stashIdx).map (s.dirEnt p)).filter (s.entLive p)

/-- PEAT_SNAPSHOT (R632, R633). -/
def execPeatSnapshot (h : CmdHdr) (part off : Nat) (s : State) : Result :=
  .next (s.peatCmd h 0x0E04 fun s =>
    if 63 < part then fail s 0x0100
    else if !s.tierReady 0 then fail s 0x0102
    else
      let body := (s.liveEntries part).flatMap (leBytes 32)
      let len := 64 + body.length
      match s.regionOf 6 with
      | none => fail s 0x0100
      | some (_, _, size) =>
        if off % 64 ≠ 0 ∨ size < off + len then fail s 0x0100
        else
          let hdr := leBytes 4 0x54414550 ++ leBytes 2 1 ++ leBytes 1 part ++ leBytes 1 (s.partGen part) ++ leBytes 4 (body.length / 32) ++ leBytes 4 0 ++
            leBytes 8 s.short ++ leBytes 4 (crc32c body) ++ leBytes 36 0
          let s := (s.regionWrite 6 off (hdr ++ body)).irq peatPg 5
          ok (s.post (s.fld Reg.DEL_CTRL Fld.DEL_CTRL_EVENT_RING) ⟨5, 0x0E, 0, 0, 0, 0, none, s.short, 0, leBytes 8 off ++ leBytes 8 len ++ leBytes 20 0⟩))

/-- PEAT_USAGE (R635). -/
def execPeatUsage (h : CmdHdr) (part : Nat) (s : State) : Result :=
  .next (s.peatCmd h 0x0E05 fun s => if 63 < part then fail s 0x0100 else ok s (s.partUsed part 1 * 2 ^ 32 + s.partUsed part 0))

/-- PEAT_CNT_CLEAR (R637). -/
def execPeatCntClear (s : State) : Result := .next (s.onPage peatPg fun s => s.clearCnts peatPg)

end Sys2Proof.Machine
end

