-- ==== Sys2Proof/Machine/Tier.lean ====
section
/-! DEFINITION. The memory tiers (R582–R594, R638): training, the arbiter of each channel, the patrol scrubber. -/
namespace Sys2Proof.Machine

/-! ### Training (R584–R586) -/

/-- TIER1_TRAINED (R585): training of the stacks ends; bit h of `mask`: HBMh has trained. Tier 1 serves only with all eight. Training
takes place once after a cold or warm reset (R586). -/
def execTier1Trained (mask : Nat) (s : State) : Result :=
  if s.peat.trained.1 then .next s else
  let s := s.setPeat fun q => { q with trained := (true, q.trained.2) }
  let all := mask % 256 == 255
  let s := (s.setFld Reg.TIER_STATUS Fld.TIER_STATUS_T1_TRAINED (mask % 256)).setFlag Reg.TIER_STATUS Fld.TIER_STATUS_T1_READY all
  let s := (List.range 8).foldl (fun s c =>
    if bit c mask then s.setFlag (Reg.TIER_CH_STATUS (c + 1)) Fld.TIER_CH_STATUS_TRAINED true
    else s.logErr (chPg c) 0x0101 1 (locPage (chPg c))) s
  .next ((if all then s.stageDone.setFlag Reg.CFG_STATUS Fld.CFG_STATUS_TIER1 true else s).irq (pg 0x0F 0) 3)

/-- n of R584: the largest of 1, 2, 4 and 8 for which sockets 0 to n − 1 are all good; 0 when there is none. -/
def usedModules (good : Nat) : Nat := ([8, 4, 2, 1].find? fun n => decide (good % 2 ^ n = 2 ^ n - 1)).getD 0

/-- TIER2_TRAINED (R584, R585): training of the modules ends. Bit s of `present`: a module is seated in socket s; of `accepted`: its SPD is as R584
asks; of `trained`: it has trained. A module seated and not used is logged. -/
def execTier2Trained (present accepted trained : Nat) (s : State) : Result :=
  if s.peat.trained.2 then .next s else
  let s := s.setPeat fun q => { q with trained := (q.trained.1, true) }
  let acc := present &&& accepted
  let good := acc &&& trained
  let n := usedModules good
  let s := (s.setFld Reg.TIER_STATUS Fld.TIER_STATUS_T2_ACCEPTED acc).setFld Reg.TIER_STATUS Fld.TIER_STATUS_T2_TRAINED good
  let s := (s.setFld Reg.TIER_STATUS Fld.TIER_STATUS_T2_MODULES n).setFlag Reg.TIER_STATUS Fld.TIER_STATUS_T2_READY (decide (0 < n))
  let s := (List.range 8).foldl (fun s c =>
    let a := Reg.TIER_CH_STATUS (c + 9)
    let s := (s.setFlag a Fld.TIER_CH_STATUS_PRESENT (bit c present)).setFlag a Fld.TIER_CH_STATUS_TRAINED (bit c good)
    if bit c present && decide (n ≤ c) then s.logErr (chPg (c + 8)) 0x0102 1 (locPage (chPg (c + 8))) else s) s
  .next ((if 0 < n then s.stageDone.setFlag Reg.CFG_STATUS Fld.CFG_STATUS_TIER2 true else s).irq (pg 0x0F 0) 3)

/-! ### The arbiter (R591–R594) -/

def State.chan (s : State) (c : Nat) : ChanSt := Tbl.getD s.peat.chan ChanSt.init c
def State.setChan (s : State) (c : Nat) (x : ChanSt) : State := s.setPeat fun q => { q with chan := Tbl.set q.chan ChanSt.init c x }
/-- A client's credit, a signed count of beats (R593). -/
def State.credit (s : State) (c k : Nat) : Int := toSigned 24 (s.fld (Reg.TIER_ARB_CREDIT (c + 1) k) Fld.TIER_ARB_CREDIT_CREDIT)
/-- Stores a credit, which saturates at −8,388,608. -/
def State.setCredit (s : State) (c k : Nat) (v : Int) : State :=
  s.setFld (Reg.TIER_ARB_CREDIT (c + 1) k) Fld.TIER_ARB_CREDIT_CREDIT (ofSigned 24 (max (-8388608) v))
/-- U of R593. -/
def chanU (c : Nat) : Nat := if c < 8 then 96 else 7
def State.chOffset (s : State) (c : Nat) : Nat := s.fld (Reg.TIER_CH_STATUS (c + 1)) Fld.TIER_CH_STATUS_OFFSET
def State.chLocked (s : State) (c : Nat) : Bool := s.flag (Reg.TIER_CH_STATUS (c + 1)) Fld.TIER_CH_STATUS_LOCKED
def State.chOwner (s : State) (c : Nat) : Nat := s.fld (Reg.TIER_CH_STATUS (c + 1)) Fld.TIER_CH_STATUS_LOCK_OWNER

/-- Grants a request: its credit pays for the beats, and a LOCK opens or goes on for at most 64 beats (R593, R594). -/
def State.grantTier (s : State) (c : Nat) (r : TierReq) : State :=
  let s := (s.setCredit c r.client (s.credit c r.client - r.beats)).inc (Cnt.TIER_CLIENT_GRANTS (c + 1) r.client)
  let s := (s.addCnt (Cnt.TIER_CLIENT_BEATS (c + 1) r.client) r.beats).pmcEvent 0x30 0 (16 * c + r.client) r.beats
  let x := s.chan c
  let beats := (if s.chLocked c then x.beats else 0) + r.beats
  let keep := r.lock && decide (beats < 64)
  let s := s.setChan c { x with beats := if keep then beats else 0, losses := if s.chLocked c then x.losses else Tbl.set x.losses 0 r.client 0 }
  let a := Reg.TIER_CH_STATUS (c + 1)
  (s.setFlag a Fld.TIER_CH_STATUS_LOCKED keep).setFld a Fld.TIER_CH_STATUS_LOCK_OWNER (if keep then r.client else 0)

/-- A client loses: it backs off (R593). -/
def State.loseTier (s : State) (c k : Nat) : State :=
  let x := s.chan c
  let n := Tbl.getD x.losses 0 k + 1
  let b := min (2 ^ (n - 1)) 256
  let s := s.setChan c { x with losses := Tbl.set x.losses 0 k n, until_ := Tbl.set x.until_ 0 k (x.cyc + b + 1), peatLoss := x.peatLoss + b2n (k == 2) }
  ((s.inc (Cnt.TIER_CLIENT_LOSSES (c + 1) k)).addCnt (Cnt.TIER_CLIENT_BACKOFF_CYCLES (c + 1) k) b).pmcEvent 0x31 0 (16 * c + k) 1

/-- TIER_GRANT (R592, R593): a cycle of channel ch, `idle` cycles after the last one given, with the clients that have a request and whether the
command queue has room. -/
def execTierGrant (ch idle : Nat) (reqs : List TierReq) (room : Bool) (s : State) : Result :=
  let x := s.chan ch
  let s := s.setChan ch { x with cyc := x.cyc + idle + 1 }
  let x := s.chan ch
  if !room then .next (s.inc (Cnt.TIER_CHAN_QUEUE_FULL (ch + 1)))
  else
    let cand := reqs.filter fun r => decide (Tbl.getD x.until_ 0 r.client ≤ x.cyc)
    let s := if cand.any fun r => r.client == 2 then s.setChan ch { x with peatReq := x.peatReq + 1 } else s
    if s.chLocked ch then
      match cand.find? fun r => r.client == s.chOwner ch with
      | some r => .next (s.grantTier ch r)
      | none => .next s
    else
      let o := s.chOffset ch
      let better := fun (r q : TierReq) => decide (s.credit ch q.client < s.credit ch r.client) ||
        (s.credit ch r.client == s.credit ch q.client && decide ((r.client + 8 - o) % 8 < (q.client + 8 - o) % 8))
      match cand with
      | [] => .next s
      | r :: rest =>
        let w := rest.foldl (fun w q => if better q w then q else w) r
        let s := s.grantTier ch w
        .next ((cand.filter fun r => r.client != w.client).foldl (fun s r => s.loseTier ch r.client) s)

/-- ARB_WINDOW (R593): the window of 1,024 cycles starts: credits refill and OFFSET advances. -/
def execArbWindow (ch : Nat) (s : State) : Result :=
  let s := s.elapseToTick ((s.time.ticks / 512 + 1) * 512)
  let s := (List.range 8).foldl (fun s k =>
    let q : Int := (s.fld (Reg.TIER_ARB_WEIGHT (ch + 1) k) Fld.TIER_ARB_WEIGHT_WEIGHT * chanU ch : Nat)
    s.setCredit ch k (min (s.credit ch k + q) (2 * q))) s
  .next (s.setFld (Reg.TIER_CH_STATUS (ch + 1)) Fld.TIER_CH_STATUS_OFFSET ((s.chOffset ch + 1) % 8))

/-- LOCK_BREAK (R594): the lock's owner has presented no request for 32 cycles. -/
def execLockBreak (ch : Nat) (s : State) : Result :=
  if !s.chLocked ch then .next s else
  let s := s.elapse 16
  let x := s.chan ch
  let s := s.setChan ch { x with cyc := x.cyc + 32, beats := 0 }
  let a := Reg.TIER_CH_STATUS (ch + 1)
  let s := (s.setFlag a Fld.TIER_CH_STATUS_LOCKED false).setFld a Fld.TIER_CH_STATUS_LOCK_OWNER 0
  .next (((s.inc (Cnt.TIER_CHAN_LOCK_BREAKS (ch + 1))).irq (chPg ch) 3).logErr (chPg ch) 0x0104 0 (locPage (chPg ch)))

/-! ### Scrubbing and check codes (R587, R588) -/

/-- Bytes of tier 1, and of tier 2 with its n modules, while they serve (R582, R583). -/
def State.tierBytes (s : State) (t : Nat) : Nat :=
  if !s.tierReady t then 0
  else if t = 0 then 512000000000 else 192000000000 * s.fld Reg.TIER_STATUS Fld.TIER_STATUS_T2_MODULES
/-- The kind of the region that holds an address and its offset there, if any (R589). -/
def State.regionAt (s : State) (t a : Nat) : Option (Nat × Nat) :=
  (List.range 16).findSome? fun r =>
    let k := s.fld (Reg.TIER_REGION_CFG r) Fld.TIER_REGION_CFG_KIND
    let b := s.fld (Reg.TIER_REGION_BASE r) Fld.TIER_REGION_BASE_BASE * 2097152
    let n := s.fld (Reg.TIER_REGION_SIZE r) Fld.TIER_REGION_SIZE_SIZE * 2097152
    if 0 < k ∧ k < 9 ∧ s.fld (Reg.TIER_REGION_CFG r) Fld.TIER_REGION_CFG_TIER = t ∧ b ≤ a ∧ a < b + n then some (k, a - b) else none

/-- An uncorrectable error in a beat: what the client that owns its region does (R574, R588, R630). `parts`: the partitions with a slot in a beat of
the slot table. -/
def State.beatUe (s : State) (t a : Nat) (parts : List Nat) : State :=
  let fen := fun (s : State) die =>
    let slot := (a - s.rdWide (Reg.FADM_T1_BASE die) 2 / 2097152 * 2097152) / 65536
    match s.slotOwner die true slot with | some p => s.fenPartReset die p true | none => s
  let all := fun (s : State) (l : List Nat) => l.foldl (fun s p => s.peatReset p none) s
  match s.regionAt t a with
  | some (2, _) => fen s 0
  | some (3, _) => fen s 1
  | some (4, off) =>
    (match (List.range 64).find? fun p => s.dirLog2 p != 0 && decide (s.dirOff p 0 ≤ off) && decide (off < s.dirOff p 0 + dirBytes (s.dirLog2 p)) with
    | some p => s.peatReset p none
    | none => all s (parts.filter (decide <| · < 64)))
  | some (5, off) => all s ((List.range 64).filter fun p => let r := s.slotRange p t; decide (r.1 ≤ off / 65536) && decide (off / 65536 < r.1 + r.2))
  | _ => s

/-- SCRUB (R588): the patrol scrubber reads the next beat. -/
def execScrub (res : EccRes) (parts : List Nat) (s : State) : Result :=
  let n1 := s.tierBytes 0
  let n := n1 + s.tierBytes 1
  if !s.flag Reg.TIER_CTRL Fld.TIER_CTRL_SCRUB_EN || n == 0 then .next s
  else
    let at_ := s.peat.scrub % n
    let (t, a) := if at_ < n1 then (0, at_) else (1, at_ - n1)
    let c := s.chanOf t a
    let wrap := decide (n ≤ at_ + 64)
    let s := s.setPeat fun q => { q with scrub := if wrap then 0 else at_ + 64 }
    let s := if wrap then s.inc Cnt.TIER_SCRUB_PASSES else s
    match res with
    | .ok => .next s
    | .corrected => .next (s.beatSeen ⟨c, false⟩)
    | .uncorrectable => .next ((s.beatSeen ⟨c, true⟩).beatUe t a parts)

/-! ### Counters (R638) -/

/-- TIER_CNT_CLEAR. -/
def execTierCntClear (s : State) : Result := .next (s.onPage (pg 0x0F 0) fun s => s.clearCnts (pg 0x0F 0))
/-- TIER_CH_CNT_CLEAR. -/
def execTierChCntClear (ch : Nat) (s : State) : Result := .next (s.onPage (chPg ch) fun s => s.clearCnts (chPg ch))

end Sys2Proof.Machine
end

