-- ==== Sys2Proof/Machine/Delsia.lean ====
section
/-! DEFINITION. The commands of Delsia (chapter 13): windows, records, the archive, Frost and Thaw, the trace. -/
namespace Sys2Proof.Machine

/-! ### Windows (R639–R642) -/

/-- WINDOW_OPEN (R639, R641, R642): the running window reaches its end and the next opens. -/
def execWindowOpen (fec : List FecCount) (s : State) : Result :=
  match s.running with
  | none => .next s.openWindow
  | some w =>
    let s := if w.aligned then s.elapseToDev (w.fin * 2 ^ 32) else s.elapseToTick w.fin
    .next (s.endWindow fec false).openWindow

/-- WINDOW_CLOSE (R642, R669): the oldest window, its end past, closes at its end plus GRACE; a freeze holds closes. -/
def execWindowClose (s : State) : Result :=
  match s.del.wins with
  | [] => .next s
  | w :: _ =>
    if !w.ended || s.frozen then .next s
    else
      let t := s.closeTime w
      .next ((if w.aligned then s.elapseToDev (t * 2 ^ 32) else s.elapseToTick t).closeWin 0)

/-- Is WIN_US as R639 asks? -/
def winUsOk (us : Nat) : Bool := decide (100 ≤ us) && decide (us ≤ 1000000) && 1000000 % us == 0

/-- A write of DEL_WINDOW (R639, R640): GRACE is taken; a WIN_US that breaks R639 is discarded and logged, and one accepted waits for the next
second boundary. -/
def State.windowWrite (s : State) (v : Nat) : State :=
  let us := bits 31 12 v
  let s := s.setFld Reg.DEL_WINDOW Fld.DEL_WINDOW_GRACE (bits 11 0 v)
  if !winUsOk us then s.logErr delPg 0x0102 0 (locBlock 0x10)
  else
    let s := s.setFld Reg.DEL_WINDOW Fld.DEL_WINDOW_WIN_US us
    s.setDel fun d => { d with winPending := if us = d.winUs then none else some (us, s.time.now / secUnits + 1) }

/-- WIN_US_WRITE (R640): a write of DEL_WINDOW; a locked page refuses it (R64). -/
def execWinUsWrite (value : Nat) (s : State) : Result :=
  .next (s.onPage delPg fun s => s.rwl delPg (value != (s.rd Reg.DEL_WINDOW).toNat) fun s => s.windowWrite value)

/-- WINDOW_RECONFIG (R640): at the second boundary every open window closes with CUT_SHORT and the new WIN_US applies. -/
def execWindowReconfig (fec : List FecCount) (s : State) : Result :=
  match s.del.winPending with
  | none => .next s
  | some (us, sec) =>
    let s := s.elapseToDev (sec * secUnits)
    let s := s.endWindow fec true
    let some_ := !s.del.wins.isEmpty
    let s := s.setDel fun d => { d with wins := d.wins.map fun w => { w with cutShort := true } }
    let s := s.del.wins.foldl (fun s _ => s.closeWin 0) s
    let s := s.setDel fun d => { d with winUs := us, winPending := none }
    .next (if some_ then s.openWindow else s)

/-! ### Telemetry records (R643–R653) -/

/-- A telemetry record (R643). -/
structure DRec where
  feid : Nat
  window : Nat
  set : Nat
  flags : Nat
  rgroup : Nat
  c : List Nat
  deriving DecidableEq, Repr

/-- Reads a record's 64 bytes. -/
def readRec (b : List Byte) : DRec :=
  ⟨beAt 0 4 b, beAt 4 4 b, beAt 8 2 b, beAt 10 1 b, beAt 12 4 b, (List.range 12).map fun k => beAt (16 + 4 * k) 4 b⟩

/-- Does a record hold a non-zero reserved field or a reserved SET (R644)? -/
def recReserved (b : List Byte) : Bool :=
  let r := readRec b
  decide (8 ≤ r.flags) || beAt 11 1 b != 0 || decide (2 ^ 20 ≤ r.rgroup) || decide (0xFF00 ≤ r.set)

/-- The RAW entry of a record (R653): every field at its offset, little-endian. -/
def DRec.raw (r : DRec) : List Byte :=
  leBytes 4 r.feid ++ leBytes 4 r.window ++ leBytes 2 r.set ++ leBytes 1 r.flags ++ leBytes 1 0 ++ leBytes 4 r.rgroup ++ r.c.flatMap (leBytes 4)

/-- A counter's reduction takes a value in (R648); `first`: no contributor before it. -/
def reduceVal (op : Nat) (first : Bool) (acc v : Nat) : Nat :=
  if op = 0 then (acc + v) % 2 ^ 64 else if first then v else if op = 1 then min acc v else if op = 2 then max acc v else 0

/-- A record enters its descriptor's reduction (R648). -/
def DAcc.add (a : DAcc) (d : DDesc) (r : DRec) : DAcc :=
  { contrib := a.contrib + 1
    unaligned := a.unaligned + r.flags % 2
    vals := (List.range 12).map fun k => reduceVal (d.op k) (decide (a.contrib = 0)) (a.vals.getD k 0) (r.c.getD k 0)
    sketch := ((List.range 12).filter fun k => d.op k == 3).foldl (fun t k => Tbl.upd t 0 (128 * k + bucket (r.c.getD k 0)) (· + 1)) a.sketch }

/-- The most records accepted in a second (R645): 256 M. -/
def recLimit : Nat := 256000000

/-- Window a is older than window b: indices go on modulo 2^32. -/
def winOlder (a b : Nat) : Bool := a != b && decide ((b + 2 ^ 32 - a) % 2 ^ 32 < 2 ^ 31)

/-- The descriptor of a record (R645): by the descriptors in force in the window it names, or, where that is not open, in the latest window. -/
def State.recDesc (s : State) (r : DRec) : Option (Nat × DDesc) :=
  let ds := match s.del.wins.find? fun w => w.index == r.window with
    | some w => w.descs
    | none => match s.del.wins.getLast? with | some w => w.descs | none => s.del.descs
  ds.find? fun x => x.2.enable && x.2.rgroup == r.rgroup && x.2.set == r.set

/-- Judges one record (R645): the first row that applies; an accepted record is reduced and sampled. -/
def State.judgeRec (s : State) (b : List Byte) : State :=
  let r := readRec b
  match s.recDesc r with
  | none => s.inc Cnt.DEL_NO_GROUP
  | some (i, d) =>
    let sec := s.time.now / secUnits
    let got := if s.del.second = sec then s.del.accepted else 0
    let newest := match s.del.wins.getLast? with | some w => w.index | none => s.del.lastIndex.getD 0
    match s.del.wins.find? fun w => w.index == r.window with
    | none => if winOlder newest r.window then s.inc Cnt.DEL_EARLY else s.inc Cnt.DEL_LATE
    | some w =>
      if w.seen.contains (r.feid, r.set, r.rgroup) then s.inc Cnt.DEL_DUP
      else if recLimit ≤ got then ((s.inc Cnt.DEL_OVERRUN).irq delPg 3).logErr delPg 0x0101 0 (locBlock 0x10)
      else
        let w' : Win := { w with
          acc := Tbl.put w.acc i ((Tbl.getD w.acc DAcc.init i).add d r)
          seen := (r.feid, r.set, r.rgroup) :: w.seen }
        let s := s.setDel fun q => { q with second := sec, accepted := got + 1, wins := q.wins.map fun x => if x.index = r.window then w' else x }
        let s := s.inc Cnt.DEL_RECORDS
        let s := if r.flags % 2 = 1 then s.inc Cnt.DEL_UNALIGNED_REC else s
        if d.rawLog2 ≠ 0xFF ∧ crc32c (slice 0 8 b) % 2 ^ d.rawLog2 = 0 then (s.archive 1 r.raw r.window (r.flags % 2 == 1)).inc Cnt.DEL_RAW_KEPT else s

/-- The 64-byte records of a payload. -/
def recsOf (p : List Byte) : List (List Byte) := (List.range (p.length / 64)).map fun k => slice (64 * k) 64 p

/-- TELEM (R643–R645): a packet handed to Delsia; the payload of a POISON packet is not used (R183). -/
def execTelem (lport : Nat) (pkt : Pkt) (s : State) : Result :=
  if pkt.typ ≠ 0x28 then .next s else
  let s := s.takeFn lport pkt
  match s.fnReason (lport / 64 % 16) pkt with
  | some (r, cs) => .next ((cs.foldl State.inc s).countReason lport r pkt)
  | none =>
    if pflag pkt fPoison then .next s
    else if pkt.payload.length = 0 ∨ pkt.payload.length % 64 ≠ 0 then .next (s.inc Cnt.DEL_BAD_RECORD)
    else if (recsOf pkt.payload).any recReserved then .next (s.countReason lport rReserved pkt)
    else .next ((recsOf pkt.payload).foldl State.judgeRec s)

/-! ### Archive segments (R656–R658) -/

/-- SEGMENT_TIMEOUT (R656): SEG_MAX_MS after its first entry the open segment of a kind closes. -/
def execSegmentTimeout (kind : Nat) (s : State) : Result :=
  match Tbl.find s.del.segs kind with
  | none => .next s
  | some g =>
    let ms := max 1 (s.fld Reg.DEL_ARCH_SEG Fld.DEL_ARCH_SEG_SEG_MAX_MS)
    .next ((s.elapseToTick (g.openedAt + usTicks (1000 * ms))).segClose kind)

/-- SEGMENT_COMPLETE (R656–R658): the open segment of a kind closes because its next entry, of `next` bytes, would not fit. -/
def execSegmentComplete (kind next : Nat) (s : State) : Result :=
  match Tbl.find s.del.segs kind with
  | none => .next s
  | some g => .next (if g.size < g.used + next then s.segClose kind else s)

/-! ### Descriptors (R647, R680, R681) -/

/-- Does a descriptor use SKETCH for any counter? -/
def DDesc.sketches (d : DDesc) : Bool := (List.range 12).any fun k => d.op k == 3

/-- DEL_GROUP_SET (R647, R681). -/
def execDelGroupSet (h : CmdHdr) (index set rgroup ops flags rawLog2 expect : Nat) (s : State) : Result :=
  .next (s.runCmd h 0x1001 true fun s =>
    let d : DDesc := ⟨set, rgroup, ops, flags % 4, bit 2 flags, bit 7 flags, rawLog2, expect⟩
    let others := s.del.descs.filter fun x => x.1 != index && x.2.enable
    if 4096 ≤ index ∨ 2 ^ 20 ≤ rgroup ∨ (20 < rawLog2 ∧ rawLog2 ≠ 0xFF) ∨ bits 6 3 flags ≠ 0 ∨ h.target ≠ 0 then fail s 0x0100
    else if d.enable ∧ others.any fun x => x.2.rgroup == rgroup && x.2.set == set then fail s 0x0101
    else if d.enable ∧ d.sketches ∧ 256 ≤ (others.filter (·.2.sketches)).length then fail s 0x0102
    else ok (s.setDel fun q => { q with descs := Tbl.put q.descs index d }))

/-! ### Frost and Thaw (R662–R672) -/

def frostSt : Nat := Reg.DEL_FROST_STATUS
def State.frostState (s : State) : Nat := s.fld frostSt Fld.DEL_FROST_STATUS_STATE
def State.setFrostState (s : State) (v : Nat) : State := s.setFld frostSt Fld.DEL_FROST_STATUS_STATE v
/-- T of the armed or last Frost, and TT, in short form. -/
def State.frostT (s : State) : Nat := s.rdWide Reg.DEL_FROST_TIME 2
def State.thawT (s : State) : Nat := s.rdWide Reg.DEL_THAW_TIME 2
/-- The count of device-time steps (R124). -/
def State.stepCount (s : State) : Nat := s.fld Reg.TIME_STATUS Fld.TIME_STATUS_EPOCH

/-- A Frost is armed (R662, R663): no Thaw time is set yet. -/
def State.armFrost (s : State) (t mode src : Nat) : State :=
  let s := (s.setFrostState 1).setFld frostSt Fld.DEL_FROST_STATUS_MODE mode
  let s := (s.wrWide Reg.DEL_FROST_TIME t 2).wrWide Reg.DEL_THAW_TIME 0 2
  s.setDel fun d => { d with frostSrc := src, epochAt := s.stepCount }

/-- FROST_ARM (R662). The spec states no status for a MODE above 1: a free value. -/
def execFrostArm (h : CmdHdr) (t mode : Nat) (s : State) : Result :=
  .next (s.runCmd h 0x1002 true fun s =>
    if 1 < mode then failOpen s
    else if fromShort t < s.time.now + 10000 * 2 ^ 32 then fail s 0x0103
    else if s.frostState ≠ 0 then fail s 0x0104
    else if s.timeState = 0 ∨ s.timeState = 1 then fail s 0x0105
    else ok (s.armFrost t mode 0))

/-- THAW (R670). -/
def execThaw (h : CmdHdr) (tt : Nat) (s : State) : Result :=
  .next (s.runCmd h 0x1003 true fun s =>
    if fromShort tt < s.time.now + 2000 * 2 ^ 32 ∨ fromShort tt ≤ fromShort s.frostT then fail s 0x0106
    else if s.frostState = 0 ∨ !s.flag frostSt Fld.DEL_FROST_STATUS_MODE then fail s 0x0107
    else ok (s.wrWide Reg.DEL_THAW_TIME tt 2))

/-- FROST_CANCEL (R662). -/
def execFrostCancel (h : CmdHdr) (s : State) : Result :=
  .next (s.runCmd h 0x1004 true fun s => ok (if s.frostState = 1 then (s.setFrostState 0).wrWide Reg.DEL_THAW_TIME 0 2 else s))

/-- SNAPSHOT (R672). The spec states no status for a T that is too early: a free value. -/
def execSnapshot (h : CmdHdr) (t : Nat) (s : State) : Result :=
  .next (s.runCmd h 0x1005 true fun s =>
    if s.del.snapAt.isSome then fail s 0x0108
    else if fromShort t < s.time.now + 2000 * 2 ^ 32 then failOpen s
    else ok (s.setDel fun d => { d with snapAt := some t, epochAt := if s.frostState = 1 then d.epochAt else s.stepCount }))

/-- Is the BAR0 offset that of a register with a snapshot: a counter of R281 or a QM_OCC register (R666)? -/
def hasSnap (a : Nat) : Bool := counterAt a == some a || (a / 0x100000 == 5 && decide (a / 4096 % 256 < 64) && decide (0x300 ≤ a % 4096) && decide (a % 4096 < 0x400) && a % 4 == 0)

/-- Does a page hold a valid snapshot (PAGE_STATUS)? -/
def State.snapValid (s : State) (p : Nat) : Bool := s.flag (Reg.PAGE_STATUS p) Fld.PAGE_STATUS_SNAP_VALID

/-- DEL_SNAP_READ (R680, R681). The spec states no status for a SEL above 1: a free value. -/
def execDelSnapRead (h : CmdHdr) (off sel : Nat) (s : State) : Result :=
  .next (s.runCmd h 0x1006 true fun s =>
    let lp := off % 65536
    if 1 < sel then failOpen s
    else if sel = 1 then
      if 1024 ≤ lp ∨ !s.snapValid (pg 4 (lpTile lp)) then fail s 0x0109 else ok s (Tbl.getD s.del.snapLinks 0 lp)
    else if !hasSnap off ∨ !s.snapValid (off / 4096) then fail s 0x0109
    else ok s (Tbl.getD s.del.snaps 0 off))

/-- FROST_IN_EDGE (R663, R168, R169): a level held 20 ns; `edge` is the device time of the edge that began it, in 2^-16 ns. -/
def execFrostInEdge (level : Bool) (edge : Nat) (s : State) : Result :=
  let c := Reg.DEL_FIN_CTRL; let st := Reg.DEL_FIN_STATUS
  let s := s.elapseToDev (edge * 65536 + 20 * 2 ^ 32)
  let act := level != s.flag c Fld.DEL_FIN_CTRL_POLARITY
  let t := s.del.fin
  let setFin := fun (s : State) (x : TpiSt) => s.setDel fun d => { d with fin := x }
  if t.active = act then .next s
  else if !act then .next ((setFin s { t with active := false }).setFld st Fld.DEL_FIN_STATUS_STUCK 0)
  else
    let s := setFin s { t with active := true, since := s.time.ticks - nsTicks 20 }
    if !s.flag c Fld.DEL_FIN_CTRL_ENABLE || s.flag st Fld.DEL_FIN_STATUS_STUCK then .next s
    else
      let quiet := match t.lastEvent with | some e => decide (s.time.ticks < e + usTicks 100) | none => false
      if quiet || s.frostState != 0 || s.timeState == 0 || s.timeState == 1 then .next (s.addFld st Fld.DEL_FIN_STATUS_IGNORED 1)
      else
        let s := setFin s { s.del.fin with lastEvent := some s.time.ticks }
        let s := (s.wrWide Reg.DEL_FIN_CAPT (shortForm (edge * 65536)) 2).setFld st Fld.DEL_FIN_STATUS_CAPTURED 1
        let e := edge + max 2 (s.fld c Fld.DEL_FIN_CTRL_DELAY_US) * 1000 * 65536
        let al := s.fld c Fld.DEL_FIN_CTRL_ALIGN_US * 1000 * 65536
        let t := if al = 0 then e else ceilDiv e al * al
        .next (s.armFrost (shortForm (t * 65536)) (s.fld Reg.DEL_FROST_CTRL Fld.DEL_FROST_CTRL_IN_MODE) 1)

/-- FROST_IN_STUCK (R663, R170): active for more than 10 ms. -/
def execFrostInStuck (s : State) : Result :=
  let t := s.del.fin
  if t.active && s.flag Reg.DEL_FIN_CTRL Fld.DEL_FIN_CTRL_ENABLE && !s.flag Reg.DEL_FIN_STATUS Fld.DEL_FIN_STATUS_STUCK then
    let s := s.elapseToTick (t.since + usTicks 10000)
    .next (((s.setFld Reg.DEL_FIN_STATUS Fld.DEL_FIN_STATUS_STUCK 1).irq delPg1 4).logErr delPg1 0x0100 0 (locBlock 0x10))
  else .next s

/-- The snapshot registers of a page, in ascending offset (R666). -/
def snapRegs (p : Nat) : List Nat := ((List.range 1024).map fun k => p * 4096 + 4 * k).filter hasSnap

/-- The live value of a register with a snapshot. -/
def State.liveValue (s : State) (a : Nat) : Nat := if a / 0x100000 = 5 ∧ a % 4096 < 0x400 ∧ 0x300 ≤ a % 4096 then (s.rd a).toNat else s.cnt a

/-- The link snapshot of a logical port (R667). -/
def State.linkSnap (s : State) (lp : Nat) : Nat :=
  let l := s.link lp
  let oldest := match l.replay with | r :: _ => r.lseq | [] => l.txSeq
  l.txSeq * 2 ^ 48 + oldest * 2 ^ 32 + l.rxSeq * 2 ^ 16 + l.st.code

/-- The logical ports of a PT page. -/
def pagePorts (p : Nat) : List Nat := if p / 256 = 4 then (List.range 16).map (16 * (p % 256) + ·) else []

/-- The pages that latch (R665, R672), by ascending address: armed, with a SOURCE that takes a Frost or a SNAPSHOT. -/
def State.snapPages (s : State) (frost snap : Bool) : List Nat :=
  (s.regs.filter fun r => r.1 % 4096 == 8).filterMap fun r =>
    let p := r.1 / 4096
    let src := s.fld (Reg.PAGE_SNAP_CTRL p) Fld.PAGE_SNAP_CTRL_SOURCE
    if s.flag (Reg.PAGE_CTRL p) Fld.PAGE_CTRL_SNAP_ARM && ((frost && bit 0 src) || (snap && bit 1 src)) then some p else none

/-- A page latches (R665): its snapshot registers take the live values, PAGE_SNAP_TIME takes T, SNAP_VALID and SNAP_DONE are set. -/
def State.latchPage (s : State) (t p : Nat) : State :=
  let s := s.setDel fun d => { d with
    snaps := (snapRegs p).foldl (fun m a => Tbl.set m 0 a (s.liveValue a)) d.snaps
    snapLinks := (pagePorts p).foldl (fun m lp => Tbl.set m 0 lp (s.linkSnap lp)) d.snapLinks }
  ((s.wrWide (Reg.PAGE_SNAP_TIME p) t 2).setFlag (Reg.PAGE_STATUS p) Fld.PAGE_STATUS_SNAP_VALID true).irq p 1

/-- The block of a latched page in a Frost image (R671). -/
def State.pageBlock (s : State) (p : Nat) : List Byte :=
  let vs := (snapRegs p).map (Tbl.getD s.del.snaps 0) ++ (pagePorts p).map (Tbl.getD s.del.snapLinks 0)
  leBytes 2 (p / 256) ++ leBytes 2 (p % 256) ++ leBytes 4 vs.length ++ vs.flatMap (leBytes 8)

/-- Packets inside the core on the die they came in at (R666): past lookup, with a copy not yet enqueued, discarded or handed over. -/
def State.transit (s : State) (die : Nat) : Nat :=
  ((s.sw.flights.filter fun f => !f.dests.isEmpty && inputDie f.inp == die).map (·.id)).eraseDups.length

/-- A Frost image (R671). -/
def State.frostImage (s : State) (t mode src : Nat) (stepped : Bool) (pages : List Nat) : List Byte :=
  let flags := b2n (!s.timeLocked) + 2 * b2n stepped + 4 * b2n (src == 2)
  leBytes 8 t ++ leBytes 1 mode ++ leBytes 1 src ++ leBytes 1 flags ++ leBytes 1 s.timeState ++
  leBytes 4 (s.fld frostSt Fld.DEL_FROST_STATUS_FROST_SEQ) ++ leBytes 4 pages.length ++ leBytes 4 (s.transit 0) ++ leBytes 4 (s.transit 1) ++
  leBytes 4 (s.spineAddr 0) ++ leBytes 32 0 ++ pages.flatMap s.pageBlock

/-- Traces a Frost event, and fires an armed trigger that ON_FROST ties to a latch (R673, R675). With no entry of its own the trigger's KIND and
CODE are not stated: free values. -/
def State.traceFrost (s : State) (code t : Nat) : State :=
  let traced := bit 7 (s.fld Reg.DEL_TRACE_FILTER Fld.DEL_TRACE_FILTER_KINDS)
  if code = 1 ∧ s.traceState = 1 ∧ s.flag Reg.DEL_TRACE_TRIG Fld.DEL_TRACE_TRIG_ON_FROST ∧ !traced then
    let (k, s) := s.draw
    let (c, s) := s.draw
    s.traceFire (k % 256) (c % 65536) none
  else s.trace 8 code (locBlock 0x10) 0x10 1 (leBytes 8 t)

/-- The start of a freeze (R669): the windows open at T overlap it. -/
def State.freeze (s : State) : State :=
  (s.setFrostState 2).setDel fun d => { d with
    freezeAt := s.time.ticks, wins := d.wins.map fun w => { w with frozen := w.frozen || !w.ended } }

/-- FROST_OUT rises (R664). -/
def State.frostOut (s : State) : State :=
  if s.flag Reg.DEL_FROST_CTRL Fld.DEL_FROST_CTRL_OUT_EN then
    (s.emit (.pin 8 true)).setDel fun d => { d with
      outUntil := some (s.time.ticks + nsTicks (100 * max 1 (s.fld Reg.DEL_FROST_CTRL Fld.DEL_FROST_CTRL_OUT_WIDTH))) }
  else s

/-- The latch of a Frost or a SNAPSHOT, or of both in one tick (R664–R666, R669–R672). -/
def State.latch (s : State) (t : Nat) (frost snap stepped : Bool) : State :=
  let pages := s.snapPages frost snap
  let s := pages.foldl (fun s p => s.latchPage t p) s
  let s := if snap then (s.setDel fun d => { d with snapAt := none }).inc Cnt.DEL_FROST_SNAPSHOTS else s
  let s := s.setFlag frostSt Fld.DEL_FROST_STATUS_STEPPED stepped
  if frost then
    let mode := s.fld frostSt Fld.DEL_FROST_STATUS_MODE
    let s := s.setFld frostSt Fld.DEL_FROST_STATUS_FROST_SEQ (s.fld frostSt Fld.DEL_FROST_STATUS_FROST_SEQ + 1)
    let im := s.frostImage t mode s.del.frostSrc stepped pages
    let s := ((s.setDel fun d => { d with images := d.images ++ [im] }).inc Cnt.DEL_FROST_FROSTS).irq delPg1 2
    let s := (if mode = 1 then s.freeze else s.setFrostState 0).frostOut
    s.traceFrost 1 t
  else
    let im := s.frostImage t 0 2 stepped pages
    s.setDel fun d => { d with images := d.images ++ [im] }

/-- FROST_LATCH (R665, R672): the tick that holds the earliest T of an armed Frost and a pending SNAPSHOT ends, or, where a step has skipped it, the
first tick after. -/
def execFrostLatch (s : State) : Result :=
  let armed : Option Nat := if s.frostState = 1 then some s.frostT else none
  let first : Option Nat := match armed, s.del.snapAt with
    | some a, some b => some (if fromShort a ≤ fromShort b then a else b)
    | some a, none => some a
    | none, b => b
  match first with
  | none => .next s
  | some t =>
    let stepped := s.stepCount != s.del.epochAt && decide (fromShort t < s.time.now)
    let s := s.elapseToDev (fromShort t + 1)
    let due := fun (x : Option Nat) => match x with | some u => decide (fromShort u < s.time.now) | none => false
    let frost := due armed
    .next (s.latch (if frost then s.frostT else t) frost (due s.del.snapAt) stepped)

/-- FROST_OUT_END (R664). -/
def execFrostOutEnd (s : State) : Result :=
  match s.del.outUntil with
  | none => .next s
  | some t => .next (((s.elapseToTick t).emit (.pin 8 false)).setDel fun d => { d with outUntil := none })

/-- The timers of R543, R570 and R606 have stood still for n ticks (R669). -/
def State.shiftTimers (s : State) (n : Nat) : State :=
  let ch := fun (c : Chunk) => { c with first := c.first.map (· + n) }
  let rd := fun (r : Round) => { r with openedAt := r.openedAt + n, chunks := r.chunks.map fun x => (x.1, ch x.2) }
  let s := { s with fen := { s.fen with rounds := s.fen.rounds.map rd } }
  s.setPeat fun q => { q with reasm := q.reasm.map fun x => { x with since := x.since + n } }

/-- The freeze ends (R669, R670): held credits go out, launches resume, closes that fell in the freeze come GRACE after it. -/
def State.thaw (s : State) (code : Nat) : State :=
  let t := s.frostT
  let n := s.time.ticks - s.del.freezeAt
  let s := s.setFrostState 0
  let held := s.sw.credHeld
  let s := { s with sw := { s.sw with credHeld := [] } }
  let s := held.foldl (fun s x => s.freeCredits x.1 x.2.1 x.2.2.1 x.2.2.2) s
  let now : Win → Nat := fun w => if w.aligned then s.nowNs else s.time.ticks
  let mv := fun (w : Win) =>
    if w.ended && decide (s.closeTime w ≤ now w) then
      { w with moved := some (now w + (if w.aligned then s.graceNs else nsTicks s.graceNs)), frozen := true }
    else w
  let s := s.setDel fun d => { d with wins := d.wins.map mv }
  ((s.shiftTimers n).irq delPg1 3).traceFrost code t

/-- The device time of the automatic Thaw: T plus FROST_MAX (R670). -/
def State.autoThawAt (s : State) : Nat :=
  fromShort s.frostT + max 1 (s.fld Reg.DEL_FROST_CTRL Fld.DEL_FROST_CTRL_FROST_MAX) * 1000000 * 2 ^ 32

/-- THAW_TIME (R670, R679): TT comes in a freeze. -/
def execThawTime (s : State) : Result :=
  if s.frozen ∧ s.thawT ≠ 0 ∧ fromShort s.thawT ≤ s.autoThawAt then
    .next (((s.elapseToDev (fromShort s.thawT)).inc Cnt.DEL_FROST_THAWS).thaw 2)
  else .next s

/-- AUTO_THAW (R670, R679): T plus FROST_MAX comes in a freeze, with no TT before it. -/
def execAutoThaw (s : State) : Result :=
  if s.frozen ∧ ¬(s.thawT ≠ 0 ∧ fromShort s.thawT ≤ s.autoThawAt) then
    let s := (s.elapseToDev s.autoThawAt).inc Cnt.DEL_FROST_AUTO_THAWS
    .next ((s.logErr delPg1 0x0101 0 (locBlock 0x10)).thaw 3)
  else .next s

/-- FROST_IMAGE (R671): the oldest image latched is written as a segment by itself. -/
def execFrostImage (s : State) : Result :=
  match s.del.images with
  | [] => .next s
  | im :: rest =>
    let s := s.setDel fun d => { d with images := rest }
    .next ((s.archive 5 im 0 (leAt 10 1 im % 2 == 1)).segClose 5)

/-! ### The trace (R673–R678) -/

/-- A write of 1 to ARM (R678). -/
def State.traceArm (s : State) : State :=
  if s.traceState = 0 ∨ s.traceState = 3 then
    ((s.setTrace { s.del.trace with ring := [], post := 0, pre := 0, spilled := false, dropped := false, due := false }).setFld trSt
      Fld.DEL_TRACE_STATUS_STATE 1).setFld trSt Fld.DEL_TRACE_STATUS_FULL 0
  else s

/-- A write of 1 to TRIGGER (R675, R678). No entry triggers, so KIND and CODE of the header are not stated: free values. -/
def State.traceTrigger (s : State) : State :=
  if s.traceState = 1 then
    let (k, s) := s.draw
    let (c, s) := s.draw
    s.traceFire (k % 256) (c % 65536) none
  else s

/-- A mark (R673). -/
def State.traceMark (s : State) (mark : Nat) : State := s.trace 7 (mark % 65536) 0 0x10 1 (leBytes 14 (mark / 65536))

/-- A write of DEL_TRACE_CTRL: its fields are stored, TRIGGER and ARM act (R675, R678). -/
def State.traceCtrlWrite (s : State) (v : Nat) : State :=
  let s := s.wr Reg.DEL_TRACE_CTRL (BitVec.ofNat 32 v &&& 0xFFFFFF04)
  let s := if bit 1 v then s.traceTrigger else s
  if bit 0 v then s.traceArm else s

/-- TRACE_ARM (R678). -/
def execTraceArm (s : State) : Result := .next (s.onPage delPg1 State.traceArm)

/-- TRACE_TRIGGER (R675). -/
def execTraceTrigger (s : State) : Result := .next (s.onPage delPg1 State.traceTrigger)

/-- TRACE_MARK (R673): the word at 0x16C completes a mark. -/
def execTraceMark (mark : Nat) (s : State) : Result := .next (s.onPage delPg1 fun s => s.traceMark mark)

/-- TRACE_CAPTURE_END (R677, R679): the post-trigger count is reached, or the capture area has filled under stop-on-full. -/
def execTraceCaptureEnd (s : State) : Result :=
  if s.capturing ∧ (s.tracePosts ≤ s.del.trace.post ∨ s.traceFull) then .next (s.traceEnd (decide (s.del.trace.post < s.tracePosts))) else .next s

/-- DEL_CNT_CLEAR (R682). -/
def execDelCntClear (s : State) : Result := .next (s.onPage delPg fun s => s.clearCnts delPg)

/-- DEL_FROST_CNT_CLEAR (R683). -/
def execDelFrostCntClear (s : State) : Result := .next (s.onPage delPg1 fun s => s.clearCnts delPg1)

end Sys2Proof.Machine
end

