-- ==== Sys2Proof/Machine/BcastCore.lean ====
section
/-! DEFINITION. The job-start broadcast (R805–R810): its packets, its answers, its end. -/
namespace Sys2Proof.Machine

def State.setCfg (s : State) (f : CfgSt → CfgSt) : State := { s with cfg := f s.cfg }

/-- Blocks of a broadcast (R806). -/
def Bcast.blocks (b : Bcast) : Nat := ceilDiv b.data.length 65536
def Bcast.block (b : Bcast) (i : Nat) : List Byte := (b.data.drop (65536 * i)).take 65536

/-- The packets of one block (R806), with SEQ rising from seq; those of the broadcast's pieces that `bad` lists have POISON (R183). -/
def blockPkts (src group gen block seq : Nat) (bytes : List Byte) (bad : List Nat) : List Pkt :=
  let n := ceilDiv bytes.length 4096
  (List.range n).map fun k =>
    let body := (bytes.drop (4096 * k)).take 4096
    { cls := 2, typ := 0x18, flags := 2 ^ fSrcSpine + 2 ^ fAckReq + (if k + 1 = n then 2 ^ fLast else 0) + b2n (bad.contains (16 * block + k)) * 2 ^ fPoison, dst := 0, src := src,
      seq := (seq + k) % 2 ^ 24, gen := gen, msgId := group % 2 ^ 20 * 4096 + block, offset := 4096 * k, plen := body.length, payload := body }

/-- The packets of block i of a broadcast of this spine. -/
def State.bcastPkts (s : State) (b : Bcast) (i : Nat) : List Pkt := blockPkts (s.spineAddr 0) b.group b.gen i (b.seqs.getD i 0) (b.block i) b.bad

/-- Stores a broadcast under way in place of the one of its group and generation (R805). -/
def State.setBcast (s : State) (b : Bcast) : State :=
  s.setCfg fun c => { c with bcasts := c.bcasts.map fun (x : Bcast) => if x.group == b.group && x.gen == b.gen then b else x }
/-- A group's broadcast under way, the latest where one of an earlier generation has not ended. -/
def State.bcastOf (s : State) (group : Nat) : Option Bcast := s.cfg.bcasts.reverse.find? fun b => b.group == group % 2 ^ 20
def State.dropBcast (s : State) (b : Bcast) : State := s.setCfg fun c => { c with bcasts := c.bcasts.filter fun (x : Bcast) => !(x.group == b.group && x.gen == b.gen) }

/-- Has member i acknowledged block k; has it acknowledged every block? -/
def Bcast.has (b : Bcast) (i k : Nat) : Bool := (Tbl.getD b.acked 0 i).testBit k
def Bcast.done (b : Bcast) (i : Nat) : Bool := (List.range b.blocks).all (b.has i)

/-- The completion record of a broadcast (R217, R810). -/
def State.bcastRecord (s : State) (b : Bcast) : List Byte :=
  let ex := b.excused.length
  let ns := s.nowNs
  beBytes 2 2 ++ beBytes 1 1 ++ beBytes 1 0 ++ beBytes 4 (b.group * 4096) ++ beBytes 2 b.blocks ++ beBytes 1 b.gen ++ beBytes 1 0 ++
  beBytes 4 b.feids.length ++ beBytes 4 (b.feids.length - ex) ++ beBytes 4 ex ++ beBytes 4 s.fenceEpoch ++ beBytes 6 (ns / 1000000000) ++
  beBytes 4 (ns % 1000000000) ++ beBytes 26 0

/-- Members fenced by now are excused unless they had acknowledged every block; when every other member has, the record goes out and BCAST_START
completes (R810). -/
def State.bcastSettle (s : State) (b : Bcast) : State :=
  let ex := (List.range b.feids.length).filter fun i => b.excused.contains i || (s.fencedEp (b.feids.getD i 0) && !b.done i)
  let b : Bcast := { b with excused := ex }
  if (List.range b.feids.length).all fun i => ex.contains i || b.done i then
    let body := s.bcastRecord b
    let p : Pkt :=
      { cls := 4, typ := 0x04, flags := 2 ^ fSrcSpine + 2 ^ fLast, dst := 0, src := s.spineAddr 0, gen := b.gen, msgId := b.group * 4096
        plen := 64, payload := body }
    let s := s.replicate 0 b.group b.gen p fun _ => true
    (s.dropBcast b).complete b.hdr 1 ⟨0, (b.feids.length - ex.length) + 2 ^ 32 * ex.length, 0, []⟩
  else s.setBcast b

/-- A change of the fence list is read by every broadcast (R810). -/
def State.bcastFences (s : State) : State := s.cfg.bcasts.foldl (fun s b => s.bcastSettle b) s

end Sys2Proof.Machine
end

