-- ==== Sys2Proof/Machine/Baro.lean ====
section
/-! DEFINITION. Barometer (chapter 14): scores and their inputs, watch, blame, fences and their notices, suspect-hold, Squalls. -/
namespace Sys2Proof.Machine

def State.setBaro (s : State) (f : BaroSt → BaroSt) : State := { s with baro := f s.baro }
/-- BARO page 0. -/
def baroPg : Nat := pg 0x11 0

/-! ### Objects and scores (R684–R690) -/

def objKind (o : Nat) : Nat := o / 2 ^ 28
def State.score (s : State) (o : Nat) : Nat := Tbl.getD s.baro.score 0 o
/-- The largest score (R686). -/
def scoreMax : Nat := 2 ^ 48 - 1
/-- The thresholds of an object's kind, in fractions of a point, and its DECAY (R689). -/
def State.watchAt (s : State) (o : Nat) : Nat := 65536 * (s.rd (Reg.BARO_KIND_WATCH (objKind o))).toNat
def State.fenceAt (s : State) (o : Nat) : Nat := 65536 * (s.rd (Reg.BARO_KIND_FENCE (objKind o))).toNat
def State.decayOf (s : State) (o : Nat) : Nat := max 8 (min 24 (s.fld (Reg.BARO_KIND_CFG (objKind o)) Fld.BARO_KIND_CFG_DECAY))
def State.inWatch (s : State) (o : Nat) : Bool := (Tbl.find s.baro.watch o).isSome
def State.isShielded (s : State) (o : Nat) : Bool := (Tbl.find s.baro.shield o).isSome

/-- The KIND and KEY of the fence entry of an object, for the kinds that can be fenced (R697). -/
def fenceKey (o : Nat) : Option (Nat × Nat) := if objKind o = 0 then some (0, o % 2 ^ 20) else if objKind o = 2 then some (1, o % 2048) else none
def State.isFenced (s : State) (o : Nat) : Bool := match fenceKey o with | some k => s.fencedObj k.1 k.2 | none => false

/-- Is a 32-bit number the ID of an object (R684): no reserved KIND or bit, within the plane? -/
def State.objOk (s : State) (o : Nat) : Bool :=
  let f := o % 2 ^ 28
  match objKind o with
  | 0 => decide (f < 2 ^ 20) && f / 2 ^ 17 == s.plane && decide (f / 256 % 512 < s.leaves)
  | 1 => decide (f < s.leaves)
  | 2 => decide (f < 1024)
  | 3 => decide (f < 2048)
  | 4 => decide (f < 128)
  | 5 => decide (f < 65536)
  | 6 => decide (f < 8)
  | 7 => decide (1 ≤ f) && decide (f ≤ 3)
  | _ => false

/-- The parents of an object (R685), LINE first. -/
def State.parents (s : State) (o : Nat) : List Nat :=
  match objKind o with
  | 0 => [objLeaf (o / 256 % 512)]
  | 2 => (match rowOfPort (s.pipe 0) (o % 2048) with | some x => if s.role (lp2p (o % 2048)) = 1 then [objLeaf x] else [] | none => [])
  | 3 =>
    let p := o / 4 % 512; let r := o % 4
    [objLine (p / 64) (4 * (p % 4) + r), objPort (2 * p + (if s.isSplit p then r / 2 else 0))]
  | 5 => (match unitOfLoc (o % 65536) with | some u => if u < 64 then [objQuad (u / 8)] else [] | none => [])
  | _ => []

/-- The location code a Squall gives an object of the device, 0 for another (R713). -/
def objLoc (o : Nat) : Nat :=
  match objKind o with
  | 2 => locLink (o % 2048)
  | 3 => locReed (o / 4 % 512) (o % 4)
  | 4 => locEls (o / 16 % 8) (o % 16)
  | 5 => o % 65536
  | 6 => locQuad (o % 8)
  | _ => 0

/-- An object's score is set to 0: it is in neither WATCH nor past FENCE, and has no tracker (R690, R693, R702). -/
def State.scoreZero (s : State) (o : Nat) : State :=
  s.setBaro fun b => { b with score := Tbl.del b.score o, watch := Tbl.del b.watch o, crossed := Tbl.del b.crossed o, track := Tbl.del b.track o }

/-! ### Squalls (R713–R715) -/

/-- Posts a Squall, unless one of its code and object was posted within HOLD_MS (R714). -/
def State.squall (s : State) (src code o score aux1 aux2 : Nat) : State :=
  let k := 2 ^ 32 * code + o
  let hold := s.fld Reg.BARO_SQUALL Fld.BARO_SQUALL_HOLD_MS
  let free : Bool := code == 3 || code == 5 || code == 6 || code == 0xB || hold == 0
  let held := match Tbl.find s.baro.squallAt k with | some t => decide (s.time.ticks < t - 1 + usTicks (1000 * hold)) | none => false
  if !free && held then s.inc Cnt.BARO_SQUALLS_SUPPRESSED
  else
    let s := s.setBaro fun b => { b with squallAt := Tbl.put b.squallAt k (s.time.ticks + 1) }
    let loc := objLoc o
    let e : Ev := ⟨2, src, 0, code, loc, 0, none, s.short, 0,
      leBytes 4 o ++ leBytes 4 (min (score / 65536) 0xFFFFFFFF) ++ leBytes 4 s.baro.lastWin ++ leBytes 4 s.fenceEpoch ++ leBytes 4 aux1 ++
      leBytes 4 aux2 ++ leBytes 12 0⟩
    let j := s.fld Reg.BARO_CTRL Fld.BARO_CTRL_EVENT_RING
    let out := s.erOn j || s.mpTakes j
    let s := s.post j e
    let s := if out then s.emit (.firmware e) else s
    (s.trace 5 code loc src 0 []).inc Cnt.BARO_SQUALLS

/-- A Squall of Barometer's own about an object, at its score now. -/
def State.squallOf (s : State) (code o aux1 aux2 : Nat) : State := s.squall 0x11 code o (s.score o) aux1 aux2

/-! ### Commits to the fence list (R697–R703, R707–R709) -/

/-- The payload of a FENCE packet (R707). -/
def fenceBytes (kind reason obj key epoch seq origin group t : Nat) : List Byte :=
  beBytes 1 kind ++ beBytes 1 reason ++ beBytes 1 obj ++ beBytes 1 0 ++ beBytes 4 key ++ beBytes 4 epoch ++ beBytes 4 seq ++ beBytes 4 origin ++
  beBytes 4 group ++ beBytes 6 (t / secUnits) ++ beBytes 4 (t / 2 ^ 32 % 1000000000) ++ beBytes 30 0

/-- A FENCE packet from this spine. -/
def State.fencePkt (s : State) (dst flags : Nat) (payload : List Byte) : Pkt :=
  { cls := 7, typ := 0x32, flags := 2 ^ fSrcSpine + flags, dst := dst, src := s.spineAddr 0, plen := 64, payload := payload }

/-- The KEY of a FENCE packet for an object: a FEID with [11:0] zero, or a logical port. -/
def packetKey (o : Nat) : Nat := if objKind o = 0 then o % 2 ^ 20 * 4096 else o % 2048

/-- FENCED or UNFENCED goes to the endpoint and to the notify group, which must be of KIND 0b10 (R708). -/
def State.fenceNotice (s : State) (kind reason o group : Nat) : State :=
  if objKind o ≠ 0 then s
  else
    let g := if group = 0 then s.fld Reg.BARO_NOTIFY Fld.BARO_NOTIFY_GROUP else group % 2 ^ 20
    let p := s.fencePkt (packetKey o) 0 (fenceBytes kind reason 0 (packetKey o) s.fenceEpoch s.baro.seq (s.spineAddr 0) g s.time.now)
    let s := s.fnSend 0 p
    match (if g = 0 then none else s.group 0 g) with
    | some e => if grpKindOf e = 2 then s.replicate 0 g (grpGen e) p (fun _ => true) else s
    | none => s

/-- The live leaf-facing ports, any of which can relay a packet to another spine (R194). -/
def State.relays (s : State) : List Nat := s.upPorts.filter fun lp => s.live lp && s.role (lp2p lp) == 1

/-- Sends a control packet to another spine through a leaf; which leaf relays it the spec leaves open: a free choice. -/
def State.sendRelayed (s : State) (p : Pkt) : State :=
  match s.relays with
  | [] => s
  | l =>
    let (v, s) := s.draw
    s.originate (l.getD (v % l.length) 0) p

/-- Sends a PEER message to a spine. -/
def State.sendPeer (s : State) (m : PeerMsg) : State :=
  s.sendRelayed (s.fencePkt (s.plane * 2 ^ 29 + m.dst * 4096) (2 ^ fDstSpine) m.payload)

/-- PEER_FENCE or PEER_UNFENCE to every other spine of the plane (R709), with PEER_SYNC. -/
def State.tellPeers (s : State) (kind reason o : Nat) : State :=
  if !s.flag Reg.BARO_CTRL Fld.BARO_CTRL_PEER_SYNC then s
  else
    let q := (s.baro.seq + 1) % 2 ^ 32
    let s := s.setBaro fun b => { b with seq := q }
    let body := fenceBytes kind reason (if objKind o = 0 then 0 else 1) (packetKey o) s.fenceEpoch q (s.spineAddr 0) 0 s.time.now
    ((List.range s.spines).filter (· != s.spine)).foldl (fun s d =>
      let m : PeerMsg := ⟨d, q, body, s.time.ticks, 0⟩
      (s.setBaro fun b => { b with peers := b.peers ++ [m] }).sendPeer m) s

/-- The lowest free index of the fence list. -/
def State.freeFence (s : State) : Option Nat :=
  let k := s.fences.foldl (fun k e => if e.1 = k then k + 1 else k) 0
  if k < 4096 then some k else none

/-- The port of a fenced logical port is drained, or no longer (R699). -/
def State.drainPort (s : State) (lp : Nat) (b : Bool) : State :=
  if lp < 1024 then s.setFlag (Reg.PT_PORT_CFG (lpTile lp) (lpPort lp)) Fld.PT_PORT_CFG_DRAIN b else s

/-- The fence list changes, once a copy under repair is whole again (R703): its epoch rises, and Fen and the job-start broadcasts read it (R539,
R698, R810). -/
def State.fenceCommit (s : State) (f : Tbl Nat → Tbl Nat) : State :=
  let s := s.elapseToTick (max s.time.ticks s.baro.repairAt)
  let s := { s with fences := f s.fences }
  (s.setFld Reg.BARO_FENCE_EPOCH Fld.BARO_FENCE_EPOCH_EPOCH (s.fenceEpoch + 1)).fenFences.bcastFences

/-- Adds an entry for an object at index k (R697–R699): FENCED is posted, notices go out (R708). -/
def State.addFence (s : State) (k o reason : Nat) (origin : Option Nat) (group : Nat) : State :=
  let (kind, key) := (fenceKey o).getD (0, 0)
  let e := 2 ^ 63 + kind * 2 ^ 62 + (if origin.isSome then 2 ^ 61 else 0) + reason % 32 * 2 ^ 56 + (s.fenceEpoch + 1) % 2 ^ 32 * 2 ^ 24 + key
  let s := if kind = 1 then s.drainPort key true else s
  let s := s.fenceCommit fun t => Tbl.put t k e
  let s := s.setBaro fun b => { b with
    held := b.held.filter (· != o)
    origin := match origin with | some x => Tbl.put b.origin k x | none => Tbl.del b.origin k }
  let s := (s.inc Cnt.BARO_FENCES_APPLIED).squallOf 3 o 0 0
  s.fenceNotice 1 reason o group

/-- The index and entry of an object in the fence list. -/
def State.fenceOf (s : State) (o : Nat) : Option (Nat × Nat) :=
  match fenceKey o with
  | some k => s.fences.find? fun e => bits 62 62 e.2 == k.1 && bits 19 0 e.2 == k.2
  | none => none

/-- Removes the entry at index k of an object (R698, R699): UNFENCED is posted, notices go out. -/
def State.removeFence (s : State) (k o reason group : Nat) : State :=
  let s := s.fenceCommit fun t => Tbl.del t k
  let other := objKind o == 2 && s.fences.any fun e => bit 62 e.2 && bits 19 0 e.2 / 2 == o % 2048 / 2
  let s := if objKind o = 2 ∧ !other then s.drainPort (o % 2048) false else s
  let s := s.setBaro fun b => { b with origin := Tbl.del b.origin k }
  ((s.inc Cnt.BARO_UNFENCES).squallOf 0xB o 0 0).fenceNotice 2 reason o group

/-- A recommendation finds the list full (R718). -/
def State.listFull (s : State) : State := ((s.inc Cnt.BARO_LIST_FULL).logErr baroPg 0x0101 1 (locBlock 0x11)).irq baroPg 4

/-! ### Recommendations, the budget and suspect-hold (R704–R706) -/

def State.budgetS (s : State) : Nat := max 1 (s.fld Reg.BARO_BUDGET Fld.BARO_BUDGET_BUDGET_S)
/-- Budgeted fences applied in the last BUDGET_S seconds. -/
def State.budgetUsed (s : State) : Nat := (s.baro.budget.filter fun t => decide (s.time.ticks < t + usTicks (1000000 * s.budgetS))).length
/-- Is there room in the budget, with what has been decided? -/
def State.budgetRoom (s : State) : Bool := decide (s.budgetUsed + s.baro.decided.length < s.fld Reg.BARO_BUDGET Fld.BARO_BUDGET_BUDGET_N)

/-- Posts FENCE_STORM. -/
def State.storm (s : State) (o : Nat) : State :=
  ((s.setBaro fun b => { b with stormAt := some s.time.ticks }).squallOf 5 o 0 0).inc Cnt.BARO_STORMS |>.irq baroPg 3

/-- Has FENCE_STORM been posted in the last BUDGET_S seconds? -/
def State.stormy (s : State) : Bool := match s.baro.stormAt with | some t => decide (s.time.ticks < t + usTicks (1000000 * s.budgetS)) | none => false

/-- Puts an object in suspect-hold: false where it is full, which is counted and posts FENCE_STORM (R706). -/
def State.holdObj (s : State) (o : Nat) : Bool × State :=
  if s.isHeld o then (true, s)
  else if 256 ≤ s.baro.held.length then (false, (s.inc Cnt.BARO_HOLD_FULL).storm o)
  else (true, (s.setBaro fun b => { b with held := b.held ++ [o] }).inc Cnt.BARO_HOLDS)

/-- A recommendation for an ENDPOINT or PORT (R704, R718). -/
def State.recommend (s : State) (o reason : Nat) : State :=
  let s := (s.inc Cnt.BARO_RECOMMENDATIONS).irq baroPg 2
  if s.isFenced o || s.isShielded o || s.baro.decided.any (·.1 == o) then s
  else if !s.flag Reg.BARO_CTRL Fld.BARO_CTRL_AUTO_FENCE then
    ((s.holdObj o).2).squallOf 2 o 0 0
  else if s.budgetRoom then
    if s.freeFence.isNone then (s.holdObj o).2.listFull
    else s.setBaro fun b => { b with decided := b.decided ++ [(o, reason)] }
  else
    let (b, s) := s.holdObj o
    let s := if b then s.squallOf 4 o 0 0 else s
    if b && !s.stormy then s.storm o else s

/-- FENCE_COMMIT (R698, R705): the fence decided first is committed; an object fenced meanwhile needs none. -/
def execFenceCommit (s : State) : Result :=
  match s.baro.decided with
  | [] => .next s
  | (o, reason) :: rest =>
    let s := s.setBaro fun b => { b with decided := rest }
    if s.isFenced o then .next s
    else match s.freeFence with
      | none => .next ((s.holdObj o).2.listFull)
      | some k =>
        let s := s.setBaro fun b => { b with budget := s.time.ticks :: b.budget.take 255 }
        .next ((s.addFence k o reason none 0).tellPeers 3 reason o)

/-! ### Evaluation (R687–R696, R711, R712) -/

/-- The inputs of a window by 32 × object + input: what was charged, and the ports' and quadrants' deltas (R688). -/
def winInputs (c : Closed) : Tbl Nat :=
  c.deltas.foldl (fun t x =>
    let add := fun (o i n : Nat) => Tbl.upd t 0 (32 * o + i) (· + n)
    if 16384 ≤ x.1 then add (objQuad (x.1 - 16384)) 22 (x.2 / 1024)
    else
      let o := objPort (x.1 / 16)
      match x.1 % 16 with
      | 6 => add o 0 (x.2 / 65536)
      | 7 => add o 1 x.2
      | 9 => add o 2 x.2
      | 12 => add o 6 x.2
      | _ => t) c.charges

/-- The stragglers of a window (R692): FEID[31:12], listings, the group of the last. -/
def State.stragglers (s : State) (c : Closed) : List (Nat × Nat × Nat) :=
  let need := max 1 (s.fld Reg.BARO_STRAG Fld.BARO_STRAG_STRAG_MIN)
  ((c.late.map (·.1)).eraseDups).filterMap fun k =>
    let mine := c.late.filter (·.1 == k)
    if need ≤ mine.length then some (k, mine.length, (mine.getLast?.map (·.2)).getD 0) else none

/-- The points charged to an object (R687): WEIGHT × count over its inputs. -/
def State.points (s : State) (t : Tbl Nat) (o : Nat) : Nat :=
  ((List.range 32).map fun i => s.fld (Reg.BARO_WEIGHT i) Fld.BARO_WEIGHT_WEIGHT * Tbl.getD t 0 (32 * o + i)).foldl (· + ·) 0

/-- D of R693: x is the latest first. -/
def driftD (x : List Nat) : Int := ((List.range 32).map fun (k : Nat) => (31 - 2 * (k : Int)) * ((x.getD k 0 : Nat) : Int)).foldl (· + ·) 0

/-- One object's score over one window (R686, R687, R693), with its drift tracker; the drift found, if any. -/
def State.scoreStep (s : State) (t : Tbl Nat) (o : Nat) : Option Int × State :=
  let x := s.points t o
  let old := s.score o
  let dec := old - old / 2 ^ s.decayOf o
  let mid := min scoreMax (dec + 65536 * x)
  let had := Tbl.find s.baro.track o
  let tr := match had with
    | some l => some ((x :: l).take 32)
    | none => if s.watchAt o ≤ 8 * mid ∧ 8 * old < s.watchAt o ∧ s.baro.track.length < 4096 then some [x] else none
  let slope := s.fld Reg.BARO_DRIFT Fld.BARO_DRIFT_SLOPE
  let q := Tbl.getD s.baro.quiet 0 o
  let w18 := s.fld (Reg.BARO_WEIGHT 18) Fld.BARO_WEIGHT_WEIGHT
  let found : Option Int := match tr with
    | some l => if slope ≠ 0 ∧ q = 0 ∧ (5456 * slope : Nat) ≤ driftD l ∧ 0 < l.getD 0 0 then some (driftD l) else none
    | none => none
  let fin := if found.isSome then min scoreMax (mid + 65536 * w18) else mid
  let tr := match tr with
    | some (a :: l) => if 16 * fin < s.watchAt o then none else some ((if found.isSome then a + w18 else a) :: l)
    | r => r
  (found, s.setBaro fun b => { b with
    score := Tbl.set b.score 0 o fin
    track := match tr with | some l => Tbl.put b.track o l | none => Tbl.del b.track o
    quiet := Tbl.set b.quiet 0 o (if found.isSome then 1000 else q - 1) })

/-- WATCH after an evaluation (R690): objects entering it, and leaving it below half. -/
def State.watchStep (s : State) (o : Nat) : Bool × State :=
  let sc := s.score o
  let s := if sc < s.watchAt o then s.setBaro fun b => { b with crossed := Tbl.del b.crossed o } else s
  if s.inWatch o then
    (false, if 2 * sc < s.watchAt o then s.setBaro fun b => { b with watch := Tbl.del b.watch o } else s)
  else if s.watchAt o ≤ sc ∧ 0 < sc then
    let s := s.setBaro fun b => { b with watch := Tbl.put b.watch o (s.time.ticks + 1) }
    (true, if s.isFenced o then s else s.squallOf 1 o 0 0)
  else (false, s)

/-- The scores of all objects, and the drifts found. -/
def State.scoreAll (s : State) (t : Tbl Nat) (objs : List Nat) : List (Nat × Int) × State :=
  objs.foldl (fun (acc : List (Nat × Int) × State) o =>
    let (d, s) := acc.2.scoreStep t o
    (match d with | some d => acc.1 ++ [(o, d)] | none => acc.1, s)) ([], s)

/-- WATCH of all objects, and those that have entered it. -/
def State.watchAll (s : State) (objs : List Nat) : List Nat × State :=
  objs.foldl (fun (acc : List Nat × State) o =>
    let (b, s) := acc.2.watchStep o
    (if b then acc.1 ++ [o] else acc.1, s)) ([], s)

/-- The action of R689 when an object reaches FENCE (R690, R704, R711). -/
def State.fenceAction (s : State) (o reason : Nat) : State :=
  match objKind o with
  | 0 => s.recommend o reason
  | 2 => s.recommend o reason
  | 5 =>
    if !s.flag Reg.BARO_CTRL Fld.BARO_CTRL_TILE_MARGIN then s.squallOf 2 o 0 0
    else
      let sc := s.score o
      match (match unitOfLoc (o % 65536) with | some u => s.baroStep u | none => (none, s)) with
      | (some st, s) => (s.scoreZero o).squall 0x11 0xA o sc st 0
      | (none, s) => s.squallOf 2 o 0 0
  | _ => s.squallOf 2 o 0 0

/-- Blames a parent, of which `fresh` children have entered WATCH in this evaluation and `out` are judged elsewhere (R694–R696). The score of a fenced
child causes no action (R690). -/
def State.blame (s : State) (parent : Nat) (fresh out : List Nat) : Bool × State :=
  let win := usTicks (1000 * s.fld Reg.BARO_PARENT Fld.BARO_PARENT_PARENT_WIN_MS)
  let kids := (s.baro.watch.filter fun w => (s.parents w.1).contains parent && !out.contains w.1 && !s.isFenced w.1)
  let close := kids.filter fun w => decide (s.time.ticks + 1 ≤ w.2 + win)
  if !(kids.any fun w => fresh.contains w.1) || close.length < max 2 (s.fld Reg.BARO_PARENT Fld.BARO_PARENT_PARENT_MIN) then (false, s)
  else
    let stop := s.time.ticks + usTicks (1000000 * max 1 (s.fld Reg.BARO_PARENT Fld.BARO_PARENT_SHIELD_S))
    let shields := (s.baro.score.filter fun x => (s.parents x.1).contains parent && decide (s.watchAt x.1 ≤ x.2)).map (·.1)
    let s := s.setBaro fun b => { b with
      score := Tbl.set b.score 0 parent (max (s.score parent) (min scoreMax (s.fenceAt parent)))
      shield := shields.foldl (fun t o => Tbl.put t o (stop, parent)) b.shield
      shielded := Tbl.put b.shielded parent shields }
    let s := (s.inc Cnt.BARO_PARENT_BLAMES).squallOf 6 parent kids.length 0
    let (_, s) := s.watchStep parent
    let done := (Tbl.find s.baro.crossed parent).isSome || s.isFenced parent || s.isShielded parent
    let s := if s.isShielded parent then s else s.setBaro fun b => { b with crossed := Tbl.put b.crossed parent true }
    (true, if done then s else s.fenceAction parent 2)

/-- Blames the parents of one kind, in ascending object ID; answers the children that the blamed ones have (R694, R696). -/
def State.blameKind (s : State) (kind : Nat) (fresh out : List Nat) : List Nat × State :=
  let ps := ((fresh.flatMap s.parents).filter fun p => objKind p == kind).eraseDups.mergeSort (fun a b => decide (a ≤ b))
  ps.foldl (fun (acc : List Nat × State) p =>
    let (b, s) := acc.2.blame p fresh out
    (if b then acc.1 ++ (s.baro.watch.map (·.1)).filter (fun o => (s.parents o).contains p) else acc.1, s)) ([], s)

/-- Higher score first, then lower object ID (R705). -/
def State.before (s : State) (a b : Nat) : Bool := decide (s.score b < s.score a) || (s.score a == s.score b && decide (a ≤ b))

/-- The objects that have risen to FENCE take their action, unless fenced or shielded (R690, R695, R705). -/
def State.crossings (s : State) (objs : List Nat) : State :=
  let due := (objs.filter fun o => decide (s.fenceAt o ≤ s.score o) && decide (0 < s.score o) && (Tbl.find s.baro.crossed o).isNone && !s.isShielded o).mergeSort s.before
  due.foldl (fun s o =>
    let s := s.setBaro fun b => { b with crossed := Tbl.put b.crossed o true }
    if s.isFenced o then s else s.fenceAction o 1) s

/-- Held objects that have fallen below WATCH leave suspect-hold; one held object is fenced where the budget has room (R706). -/
def State.heldStep (s : State) : State :=
  let gone := s.baro.held.filter fun o => decide (s.score o < s.watchAt o)
  let s := gone.foldl (fun s o => (s.setBaro fun b => { b with held := b.held.filter (· != o) }).squallOf 0xC o 0 0) s
  if s.flag Reg.BARO_CTRL Fld.BARO_CTRL_AUTO_FENCE && s.budgetRoom && s.freeFence.isSome then
    match (s.baro.held.filter fun o => decide (s.fenceAt o ≤ s.score o) && !s.isShielded o && !s.baro.decided.any (·.1 == o)).mergeSort s.before with
    | o :: _ => s.setBaro fun b => { b with decided := b.decided ++ [(o, 1)] }
    | [] => s
  else s

/-- Level imbalance (R712): posted at every window that is the third of three in a row. -/
def State.levelStep (s : State) (c : Closed) : State :=
  [1, 2, 3].foldl (fun s l =>
    match Tbl.find c.levels l with
    | none => s.setBaro fun b => { b with streak := Tbl.del b.streak l }
    | some (n, aux) =>
      let k := Tbl.getD s.baro.streak 0 l + 1
      let s := s.setBaro fun b => { b with streak := Tbl.set b.streak 0 l k }
      if 3 ≤ k then s.squall 0x11 9 (7 * 2 ^ 28 + l) 0 aux n else s) s

/-- BARO_EVALUATION (R687–R696, R704–R706, R711, R712): the oldest window closed and not yet evaluated. -/
def execBaroEvaluation (s : State) : Result :=
  match s.baro.closed with
  | [] => .next s
  | c :: rest =>
    let s := (s.setBaro fun b => { b with closed := rest, lastWin := c.index }).inc Cnt.BARO_EVALUATIONS
    let late := s.stragglers c
    let t : Tbl Nat := late.foldl (fun t x => Tbl.upd t 0 (32 * objEndpoint x.1 + 14) (· + 1)) (winInputs c)
    let objs := ((s.baro.score.map fun (x : Nat × Nat) => x.1) ++ (t.map fun (x : Nat × Nat) => x.1 / 32)).eraseDups.mergeSort (fun a b => decide (a ≤ b))
    let (found, s) := s.scoreAll t objs
    let s := late.foldl (fun s x => s.squall 0x10 7 (objEndpoint x.1) (s.score (objEndpoint x.1)) x.2.1 x.2.2) s
    let s := found.foldl (fun s x => s.squall (if objKind x.1 = 0 then 0x10 else 0x11) 8 x.1 (s.score x.1) (ofSigned 32 x.2) 0) s
    let (fresh, s) := s.watchAll objs
    let (lines, s) := s.blameKind 4 fresh []
    let (ports, s) := s.blameKind 2 fresh lines
    let fresh2 := if ports.isEmpty then fresh else (s.baro.watch.filter fun (w : Nat × Nat) => w.2 == s.time.ticks + 1).map (·.1)
    let (_, s) := s.blameKind 1 fresh2 []
    let (_, s) := s.blameKind 6 fresh2 []
    .next (((s.crossings objs).heldStep).levelStep c)

/-- SHIELD_END (R695): a shield ends, and the child is judged as though its score had just risen. -/
def execShieldEnd (obj : Nat) (s : State) : Result :=
  match Tbl.find s.baro.shield obj with
  | none => .next s
  | some (stop, _) =>
    let s := s.elapseToTick stop
    let s := s.setBaro fun b => { b with shield := Tbl.del b.shield obj, watch := Tbl.del b.watch obj, crossed := Tbl.del b.crossed obj }
    let (_, s) := s.watchStep obj
    .next (s.crossings [obj])

/-! ### Peers (R709, R710) -/

/-- PEER_FENCE_RESEND (R709): 2 ms without an ACK; after three resends the message is given up. -/
def execPeerFenceResend (dst seq : Nat) (s : State) : Result :=
  match takeFirst (fun (m : PeerMsg) => m.dst == dst && m.seq == seq) s.baro.peers with
  | none => .next s
  | some (m, rest) =>
    let s := s.elapseToTick (m.sentAt + usTicks 2000)
    if m.tries < 3 then
      let m : PeerMsg := { m with tries := m.tries + 1, sentAt := s.time.ticks }
      .next ((s.setBaro fun b => { b with peers := rest ++ [m] }).sendPeer m)
    else .next (((s.setBaro fun b => { b with peers := rest }).logErr baroPg 0x0102 0 (locBlock 0x11)).irq baroPg 5)

/-- Takes a FENCE packet of a KIND from another spine (R179, R710); a POISON payload is not used (R183); `f` takes its ORIGIN and SEQ. -/
def State.fenceRx (s : State) (lp : Nat) (p : Pkt) (kind : Nat) (f : Nat → Nat → State → State) : State :=
  let b := p.payload
  if p.typ ≠ 0x32 ∨ beAt 0 1 b ≠ kind then s
  else
    let s := s.takeFn lp p
    let origin := beAt 16 4 b
    if pflag p fPoison then s
    else if !pflag p fSrcSpine || feidPlane origin != s.plane || spineIdx origin == s.spine then s.inc Cnt.BARO_BAD_FENCE
    else if b.length ≠ 64 ∨ beAt 3 1 b ≠ 0 ∨ !allZero (b.drop 34) then s.inc (reasonCnt lp rReserved)
    else f origin (beAt 12 4 b) s

/-- The object a FENCE packet names, if it is one. -/
def State.packetObj (s : State) (b : List Byte) : Option Nat :=
  let key := beAt 4 4 b
  let o := if beAt 2 1 b = 0 then objEndpoint (key / 4096) else objPort key
  if 1 < beAt 2 1 b ∨ (beAt 2 1 b = 1 ∧ 2048 ≤ key) ∨ !s.objOk o then none else some o

/-- Answers a PEER message with an ACK of the same SEQ, whose ORIGIN is this spine (R709, R710). -/
def State.fenceAck (s : State) (lp : Nat) (p : Pkt) (seq : Nat) : State :=
  let b := p.payload
  s.originate lp (s.fencePkt (p.src / 4096 * 4096) (2 ^ fDstSpine)
    (fenceBytes 5 (beAt 1 1 b) (beAt 2 1 b) (beAt 4 4 b) s.fenceEpoch seq (s.spineAddr 0) 0 s.time.now))

/-- Applies a PEER message once per ORIGIN and SEQ, and answers it (R709). -/
def State.peerRx (s : State) (lp : Nat) (p : Pkt) (kind : Nat) (act : Nat → Nat → State → State) : State :=
  s.fenceRx lp p kind fun origin seq s =>
    let k := origin / 4096
    let new := Tbl.getD s.baro.applied 0 k ≤ seq
    let s := if new then
        let s := s.setBaro fun b => { b with applied := Tbl.put b.applied k (seq + 1) }
        match s.packetObj p.payload with
        | some o => act o origin s
        | none => s
      else s
    s.fenceAck lp p seq

/-- PEER_FENCE_RX (R709): an entry with PEER and REASON 0x04, outside the budget. -/
def execPeerFenceRx (lport : Nat) (pkt : Pkt) (s : State) : Result :=
  .next (s.peerRx lport pkt 3 fun o origin s =>
    if s.isFenced o then s
    else match s.freeFence with
      | some k => (s.inc Cnt.BARO_PEER_FENCES).addFence k o 4 (some origin) 0
      | none => s.listFull)

/-- PEER_UNFENCE_RX (R709): only a PEER entry of the same ORIGIN is removed. -/
def execPeerUnfenceRx (lport : Nat) (pkt : Pkt) (s : State) : Result :=
  .next (s.peerRx lport pkt 4 fun o origin s =>
    match s.fenceOf o with
    | some (k, e) => if bit 61 e && Tbl.find s.baro.origin k == some origin then s.removeFence k o 4 0 else s
    | none => s)

/-- FENCE_ACK_RX (R709): the peer message is confirmed. -/
def execFenceAckRx (lport : Nat) (pkt : Pkt) (s : State) : Result :=
  .next (s.fenceRx lport pkt 5 fun origin seq s =>
    s.setBaro fun b => { b with peers := b.peers.filter fun m => !(m.dst == spineIdx origin && m.seq == seq) })

/-- FENCE_COPY_UE (R703): a copy of the list is repaired from another within 10 µs, the exact time open: a free value. A commit waits for it; until
then the list stands as the last commit left it. -/
def execFenceCopyUe (s : State) : Result :=
  let (v, s) := s.draw
  .next ((s.logErr baroPg 0x0100 1 (locBlock 0x11)).setBaro fun b => { b with repairAt := s.time.ticks + v % (usTicks 10 + 1) })

/-! ### Commands (R717, R718) -/

/-- The object that OBJ and KEY of a command name (R717), if they are in range. -/
def State.cmdObj (s : State) (obj key : Nat) : Option Nat :=
  let o := if obj = 0 then objEndpoint (key / 4096) else objPort key
  if 1 < obj ∨ (obj = 1 ∧ 2048 ≤ key) ∨ !s.objOk o then none else some o

/-- FENCE_ADD (R717). -/
def execFenceAdd (h : CmdHdr) (obj key prop group : Nat) (s : State) : Result :=
  .next (s.runCmd h 0x1101 true fun s =>
    match s.cmdObj obj key with
    | none => fail s 0x0102
    | some o =>
      if s.isFenced o then ok s s.fenceEpoch
      else match s.freeFence with
        | none => fail s 0x0100
        | some k =>
          let s := s.addFence k o 3 none group
          let s := if prop = 1 then s.tellPeers 3 3 o else s
          ok s s.fenceEpoch)

/-- FENCE_CLEAR (R701, R702, R717): a fence decided for the object and not yet committed goes with it (R716). -/
def execFenceClear (h : CmdHdr) (obj key prop : Nat) (s : State) : Result :=
  .next (s.runCmd h 0x1102 true fun s =>
    match s.cmdObj obj key with
    | none => fail s 0x0102
    | some o =>
      match s.fenceOf o with
      | none => fail s 0x0101
      | some (k, _) =>
        let s := s.removeFence k o 3 0
        let kids := Tbl.getD s.baro.shielded [] o
        let s := (o :: kids).foldl (fun s x => s.scoreZero x) s
        let s := s.setBaro fun b => { b with held := b.held.filter (· != o), shielded := Tbl.del b.shielded o, decided := b.decided.filter (·.1 != o) }
        let s := if prop = 1 then s.tellPeers 4 3 o else s
        ok s s.fenceEpoch)

/-- FENCE_READ (R717). -/
def execFenceRead (h : CmdHdr) (index : Nat) (s : State) : Result :=
  .next (s.runCmd h 0x1103 true fun s => if 4096 ≤ index then fail s 0x0102 else ok s (Tbl.getD s.fences 0 index))

/-- HOLD_CLEAR (R717). -/
def execHoldClear (h : CmdHdr) (obj : Nat) (s : State) : Result :=
  .next (s.runCmd h 0x1104 true fun s =>
    if !s.objOk obj then fail s 0x0102
    else
      let s := if s.isHeld obj then (s.setBaro fun b => { b with held := b.held.filter (· != obj) }).squallOf 0xC obj 0 0 else s
      ok (s.scoreZero obj))

/-- SCORE_READ (R717). -/
def execScoreRead (h : CmdHdr) (obj : Nat) (s : State) : Result :=
  .next (s.runCmd h 0x1105 true fun s =>
    if !s.objOk obj then fail s 0x0102
    else ok s (b2n (s.inWatch obj) * 2 ^ 63 + b2n (s.isHeld obj) * 2 ^ 62 + b2n (s.isShielded obj) * 2 ^ 61 + b2n (s.isFenced obj) * 2 ^ 60 + s.score obj))

/-- SCORE_RESET (R717). -/
def execScoreReset (h : CmdHdr) (obj : Nat) (s : State) : Result :=
  .next (s.runCmd h 0x1106 true fun s => if !s.objOk obj then fail s 0x0102 else ok (s.scoreZero obj))

/-- BARO_CNT_CLEAR (R719). -/
def execBaroCntClear (s : State) : Result := .next (s.onPage baroPg fun s => s.clearCnts baroPg)

end Sys2Proof.Machine
end

