-- ==== Sys2Proof/Machine/Chk.lean ====
section
/-! DEFINITION. The commands of the silent-error checker (chapter 15): in-field tests, substitutions, margin steps, memory errors. -/
namespace Sys2Proof.Machine

/-- CHK page 0. -/
def chkPg : Nat := pg 0x12 0

/-! ### In-field tests (R733–R737) -/

/-- Is there a test of a unit under way or waiting? -/
def State.iftOf (s : State) (u : Nat) : Option IftTest := s.chk.tests.find? fun t => t.unit == u
def State.dropTest (s : State) (u : Nat) : State := { s with chk := { s.chk with tests := s.chk.tests.filter fun t => t.unit != u } }
/-- The half that is active (R45). -/
def State.activeHalf (s : State) : Nat := s.fld Reg.CFG_STATUS Fld.CFG_STATUS_ACTIVE_HALF

/-- Is a unit in service, so that its work must move before a test (R735)? -/
def State.inService (s : State) (u : Nat) : Bool :=
  match unitKind u with
  | some .fen => (s.servedBy (u - 64)).isSome
  | some .mac =>
    let r := macRow u
    !((s.rowSpared r || s.rowTesting r) && s.rowSkip r == macCol u) && (s.rowSpared r || s.rowTesting r || macCol u != 16)
  | some .core => (s.coreServes (coreHalf u) (coreNum u)).isSome && coreHalf u == s.activeHalf
  | _ => false

/-- Is the stand-in of a unit free (R735)? -/
def State.standInFree (s : State) (u : Nat) : Bool :=
  match unitKind u with
  | some .fen => s.spareState ((u - 64) / 17) == 0 && !s.isSpare (u - 64)
  | some .mac => !s.rowSpared (macRow u) && !s.rowTesting (macRow u)
  | some .core => s.coreFree (coreHalf u) && (s.iftOf (370 + 9 * coreHalf u + s.spareCore (coreHalf u))).isNone
  | _ => false

/-- The stand-in takes a unit's work (R735). -/
def State.standIn (s : State) (u : Nat) : State :=
  match unitKind u with
  | some .fen =>
    let n := u - 64
    (match s.servedBy n with
     | some (d, l) => (s.setSpare d 2).handover d l (s.spareInst d)
     | none => s)
  | some .mac => s.setRow (macRow u) false true (macCol u)
  | some .core =>
    let h := coreHalf u
    (match s.coreServes h (coreNum u) with
     | some l => (s.setCore h l (s.spareCore h)).setSpareFor h l
     | none => s)
  | _ => s

/-- A Fen instance that has its chunks still to finish drains before its test (R735). -/
def State.mustDrain (s : State) (u : Nat) : Bool := unitKind u == some .fen && s.holdsChunk (u - 64)

/-- Puts a test on the list in place of the unit's earlier one. -/
def State.putTest (s : State) (t : IftTest) : State :=
  let s := s.dropTest t.unit
  { s with chk := { s.chk with tests := s.chk.tests ++ [t] } }

/-- A test of a unit starts, or waits for its stand-in (R733, R735, R736). -/
def State.startIft (s : State) (u : Nat) (h : Option CmdHdr) (ret : Bool) : State :=
  let now := s.time.ticks
  let n := u - 64
  if !s.inService u then
    let s := if unitKind u == some .fen && s.isSpare n && s.spareState (n / 17) == 0 then s.setSpare (n / 17) 2 else s
    (s.putTest ⟨u, h, ret, now, true, false, false, s.mustDrain u⟩).inc Cnt.CHK_IFT_RUN
  else if s.standInFree u then
    let s := s.standIn u
    (s.putTest ⟨u, h, ret, now, true, true, false, s.mustDrain u⟩).inc Cnt.CHK_IFT_RUN
  else s.putTest ⟨u, h, ret, (match s.iftOf u with | some t => t.since | none => now), false, false, false, false⟩

/-- Can a unit be tested: a Fen instance, MAC tile or Ergan core (R742)? -/
def testable (u : Nat) : Bool := decide (64 ≤ u) && decide (u < 388)

/-- IFT_RUN (R741). -/
def execIftRun (h : CmdHdr) (unit : Nat) (s : State) : Result :=
  .next (s.runCmd h 0x1203 true fun s =>
    if !testable unit then fail s 0x0100
    else if (match s.iftOf unit with | some t => t.running || t.hdr.isSome | none => false) then fail s 0x0104
    else (s.startIft unit (some h) false, none))

/-- CHK_RETURN (R732, R741): tests a retired unit. The spec states no status for a unit that is not retired: a free value. -/
def execChkReturn (h : CmdHdr) (unit : Nat) (s : State) : Result :=
  .next (s.runCmd h 0x1202 true fun s =>
    if !testable unit then fail s 0x0100
    else if (match s.iftOf unit with | some t => t.running | none => false) then fail s 0x0104
    else if s.marginStep unit ≠ 5 ∧ !s.chk.macOut.contains unit then failOpen s
    else (((s.putTest ⟨unit, some h, true, s.time.ticks, true, false, false, false⟩).inc Cnt.CHK_IFT_RUN), none))

/-- IFT_SCHEDULE (R733, R735): a unit's scheduled test falls due, or one that waits finds its stand-in free. A retired unit is not tested, and one unit
of each kind is tested at a time. -/
def execIftSchedule (unit : Nat) (s : State) : Result :=
  let k := unitKind unit
  let waits := match s.iftOf unit with | some t => !t.running | none => false
  let other := s.chk.tests.any fun t => t.unit != unit && unitKind t.unit == k
  if !testable unit || !s.flag Reg.CHK_CTRL Fld.CHK_CTRL_IFT_EN && !waits then .next s
  else match s.iftOf unit with
    | some t => .next (if t.running || !s.standInFree unit then s else s.startIft unit t.hdr t.isReturn)
    | none => .next (if other || s.marginStep unit == 5 then s else s.startIft unit none false)

/-- IFT_WAIT_EXPIRY (R736): WAIT_MIN without a free stand-in: the test runs with the unit's work throttled. -/
def execIftWaitExpiry (unit : Nat) (s : State) : Result :=
  match s.iftOf unit with
  | none => .next s
  | some t =>
    if t.running then .next s
    else
      let s := s.elapseToTick (t.since + usTicks (60000000 * max 1 (s.fld Reg.CHK_IFT_CFG Fld.CHK_IFT_CFG_WAIT_MIN)))
      let s := match unitKind unit with
        | some .fen => (match s.servedBy (unit - 64) with | some (d, l) => s.timeShare d l | none => s)
        | _ => s
      let t : IftTest := { t with since := s.time.ticks, running := true, standIn := false, throttled := true, drain := s.mustDrain unit }
      let s := ((s.putTest t).inc Cnt.CHK_IFT_RUN).inc Cnt.CHK_IFT_THROTTLED
      .next (s.logErr chkPg 0x0103 0 (unitLoc unit))

/-- How long a test lasts, in microseconds (R734). -/
def testUs (u : Nat) : Nat := match unitKind u with | some .fen => 4000 | some .mac => 2000 | _ => 20000

/-- A test that passes gives a unit in service its work back (R735, R736). -/
def State.testPassed (s : State) (t : IftTest) : State :=
  let u := t.unit
  match unitKind u with
  | some .fen =>
    let n := u - 64; let d := n / 17
    if t.standIn then
      (match s.servedBy (s.spareInst d) with | some (d, l) => s.handover d l n | none => s)
    else if t.throttled then
      (match s.rider d with | some l => s.handover d l n | none => s)
    else if s.isSpare n && s.spareState d == 2 then s.setSpare d 0 else s
  | some .mac => if t.standIn then s.setRow (macRow u) false false 0 else s
  | some .core =>
    let h := coreHalf u
    if t.standIn then (s.setCore h (s.spareFor h) (coreNum u)).setSpareFor h 15 else s
  | _ => s

/-- A unit that fails a test is retired (R737); its stand-in keeps the work. A MAC tile that its spared row keeps stays at its step (R724). -/
def State.testFailed (s : State) (t : IftTest) : State :=
  let u := t.unit
  let s := ((s.inc Cnt.CHK_IFT_FAIL).irq chkPg 3).logErr chkPg 0x0100 1 (unitLoc u)
  let s := s.charge (objUnit u) 20 1
  let out := fun (s : State) => (s.setStep u 5).setPending u false
  match unitKind u with
  | some .fen =>
    let n := u - 64; let d := n / 17
    if t.standIn then ((out s).setSpare d 1).substituted (unitLoc u)
    else if s.isSpare n && (s.servedBy n).isNone then (out s).setSpare d 3
    else out s
  | some .mac =>
    let r := macRow u
    if t.standIn then ((out s).setRow r true false (macCol u)).substituted (unitLoc u)
    else if s.rowSpared r && s.rowSkip r == macCol u then out s
    else if !s.rowSpared r && !s.rowTesting r then (out s).setRow r true false (macCol u)
    else (s.setPending u true).squallOf 2 (objUnit u) 0 0
  | some .core =>
    let h := coreHalf u; let k := coreNum u
    if t.standIn then ((out s).setFailed h k true).substituted (unitLoc u)
    else s.retireCore u true
  | _ => s

/-- CHK_RETURN's unit has passed: it is in service as its kind's spare at step 0 (R732, R741). A logical unit that waits for an instance takes it
(R722, R726). -/
def State.returned (s : State) (u : Nat) : State :=
  let s := (s.setStep u 0).setPending u false
  match unitKind u with
  | some .fen =>
    let n := u - 64; let d := n / 17
    let s := { s with chk := { s.chk with spareAt := Tbl.put s.chk.spareAt d (n + 1) } }
    ((s.setSpare d 0).outOfWork n).endSharing d
  | some .mac =>
    let r := macRow u
    let s := if s.rowSpared r && s.rowSkip r == macCol u then s.setRow r false false 0 else s
    let s := { s with chk := { s.chk with macOut := s.chk.macOut.filter (· != u) } }
    let bad := s.chk.macOut.filter fun v => macRow v == r
    let s := match bad with | v :: _ => if s.rowSpared r then s else s.retireMac v | [] => s
    let s := { s with chk := { s.chk with macOut := s.chk.macOut.filter fun v => s.marginStep v != 5 } }
    if s.chk.macOut.isEmpty then s.setFlag Reg.PEAT_STATUS Fld.PEAT_STATUS_ATTEND_OK true else s
  | some .core =>
    let h := coreHalf u; let k := coreNum u
    let s := (s.setFailed h k false).setFlag (Reg.CHK_ERGAN h) Fld.CHK_ERGAN_DEGRADED false
    let s := { s with chk := { s.chk with spareCore := Tbl.put s.chk.spareCore h (k + 1) } }
    (match (List.range 8).find? fun l => s.coreOf h l == 19 with
     | some l => (s.setCore h l k).setSpareFor h l
     | none => s.setSpareFor h 15)
  | _ => s

/-- IFT_COMPLETE (R734, R735, R737): a test ends. -/
def execIftComplete (unit : Nat) (pass : Bool) (s : State) : Result :=
  match s.iftOf unit with
  | none => .next s
  | some t =>
    if !t.running || t.drain then .next s
    else
      let s := (s.elapseToTick (t.since + usTicks (testUs unit))).dropTest unit
      let s := s.iftResult unit (if pass then 1 else 2)
      let s := if pass then (if t.isReturn then s.returned unit else s.testPassed t) else s.testFailed t
      let s := if unitKind unit == some .fen then s.endSharing ((unit - 64) / 17) else s
      match t.hdr with
      | none => .next s
      | some h =>
        if t.isReturn then .next (s.complete h 0x12 ⟨if pass then 0 else 0x0103, 0, 0, []⟩)
        else .next (s.complete h 0x12 ⟨0, b2n pass, 0, []⟩)

/-- HANDOVER_DRAINED (R721, R722, R735): an instance that no logical reducer names holds no open chunk; time-sharing ends where the die's spare is free
again, and a test that waits for the instance begins. -/
def execHandoverDrained (n : Nat) (s : State) : Result :=
  if s.holdsChunk n then .next s
  else
    let s := (s.leaveWork n).endSharing (n / 17)
    match s.iftOf (unitFen n) with
    | some t =>
      let t2 : IftTest := { t with drain := false, since := s.time.ticks }
      .next (if t.running && t.drain then s.setTest t2 else s)
    | none => .next s

/-! ### Margining and substitution (R730–R732) -/

/-- Does a kind of unit have a step (R730)? -/
def hasStep (k : UnitKind) (st : Nat) : Bool := decide (st ≤ 3) || (st == 4 && (k == .fen || k == .core))

/-- CHK_MARGIN (R732, R741). -/
def execChkMargin (h : CmdHdr) (unit step : Nat) (s : State) : Result :=
  .next (s.runCmd h 0x1201 true fun s =>
    match unitKind unit with
    | none => fail s 0x0100
    | some k =>
      if !hasStep k step then fail s 0x0101
      else if s.marginStep unit = 5 then fail s 0x0102
      else ok (((s.setStep unit step).setPending unit false).inc Cnt.CHK_MARGIN_STEPS))

/-- Is a spare free for the substitution of a unit? -/
def State.spareFree (s : State) (u : Nat) : Bool :=
  match unitKind u with
  | some .fen => s.spareState ((u - 64) / 17) == 0
  | some .mac => !s.rowSpared (macRow u)
  | some .core => s.coreFree (coreHalf u)
  | _ => false

/-- Units that compete for one spare: the instances of a die, the tiles of a row, the cores of a half. -/
def spareGroup (u : Nat) : Nat := if u < 98 then (u - 64) / 17 else if u < 370 then 2 + macRow u else 18 + coreHalf u

/-- Does no other unit with PENDING come before this one: higher score, then lower unit index (R740)? -/
def State.pendingFirst (s : State) (u : Nat) : Bool :=
  (List.range 324).all fun k =>
    let v := 64 + k
    v == u || spareGroup v != spareGroup u || !s.flag (Reg.CHK_MARGIN v) Fld.CHK_MARGIN_PENDING ||
      decide (s.score (objUnit v) < s.score (objUnit u)) || (s.score (objUnit v) == s.score (objUnit u) && decide (u < v))

/-- PENDING_SUBSTITUTION (R731, R740): a spare has become free. -/
def execPendingSubstitution (unit : Nat) (s : State) : Result :=
  if testable unit && s.flag (Reg.CHK_MARGIN unit) Fld.CHK_MARGIN_PENDING && s.spareFree unit && s.pendingFirst unit then .next (s.retireUnit unit)
  else .next s

/-! ### Errors (R724, R739) -/

/-- MAC_TILE_UE (R724): an uncorrectable datapath error in a MAC tile: the tile leaves its row, or, where the row is spared for another tile, ATTEND goes
offline. -/
def execMacTileUe (row col : Nat) (s : State) : Result :=
  let u := unitMac row col
  let s := s.charge (objUnit u) 20 1
  if !s.inService u then .next s
  else if s.rowFree u then .next (s.retireMac u)
  else
    let s := { s with chk := { s.chk with macOut := if s.chk.macOut.contains u then s.chk.macOut else s.chk.macOut ++ [u] } }
    .next (s.setFlag Reg.PEAT_STATUS Fld.PEAT_STATUS_ATTEND_OK false)

/-- The reload of the service of the ERGAN region is done at tick t (R739). -/
def State.setReload (s : State) (t : Nat) : State := { s with chk := { s.chk with reloadTo := t } }

/-- ERGAN_MEM_ERROR (R739): an uncorrectable error in a core's local memory moves the core to step 5; one in the ERGAN region makes its service reload.
The location of the region's beat is a code of the CX (R37); which of them is not stated: GROUP, UNIT and LANE are a free value. The
reload lasts a free number of ticks within 10 ms. `chan`: the channel that read the beat of the region (R587). -/
def execErganMemError (core : Option Nat) (chan : Nat) (s : State) : Result :=
  match core with
  | some k =>
    let u := unitCore k
    let s := (s.logErr chkPg 0x0104 2 (unitLoc u)).charge (objUnit u) 20 1
    .next (s.retireCore u true)
  | none =>
    let s := s.beatSeen ⟨chan, true⟩
    let (v, s) := s.draw
    let (r, s) := s.draw
    let s := s.setReload (s.time.ticks + r % (usTicks 10000 + 1))
    .next (s.logErr chkPg 0x0104 2 (2 * 2 ^ 14 + v % 2 ^ 14))

/-- CHK_CNT_CLEAR (R743). -/
def execChkCntClear (s : State) : Result := .next (s.onPage chkPg fun s => s.clearCnts chkPg)

end Sys2Proof.Machine
end

