-- ==== Sys2Proof/Machine/Pmc.lean ====
section
/-! DEFINITION. PMC (R744–R766): counter slots, tag records, the waits and rounds of the Mire map. -/
namespace Sys2Proof.Machine

def pmcPg : Nat := pg 0x13 0
def pmcLoc : Nat := locBlock 0x13
def State.setPmc (s : State) (f : PmcSt → PmcSt) : State := { s with pmc := f s.pmc }

/-! ### Counter slots (R744–R750) -/

/-- Does a slot have OPEN = 1 for window w? -/
def State.slotOpenFor (s : State) (k w : Nat) : Bool :=
  s.flag (Reg.PMC_SLOT_CFG k) Fld.PMC_SLOT_CFG_OPEN && s.fld (Reg.PMC_SLOT_CFG k) Fld.PMC_SLOT_CFG_WIN == w

/-- Does R748 allow a configuration in slot k? -/
def State.slotAllowed (s : State) (k v : Nat) : Bool :=
  !bit 62 v || (s.slotMeets v && decide (((List.range 64).filter fun j => j != k && s.slotOpenFor j (bits 61 56 v)).length ≤ 15))

/-- A write of PMC_SLOT_CFG (R746, R748). -/
def State.slotCfgWrite (s : State) (k v : Nat) : State :=
  if s.slotAllowed k v then
    let s := { s with cnts := Tbl.del s.cnts (Cnt.PMC_SLOT_CNT k) }
    s.wrWide (Reg.PMC_SLOT_CFG k) (withBits 27 0 0 v % 2 ^ 64) 2
  else ((s.setFlag Reg.PMC_STATUS Fld.PMC_STATUS_SLOT_REFUSED true).irq pmcPg 4).logErr pmcPg 0x0101 0 pmcLoc

/-- PMC_SLOT_CFG_WRITE (R746, R748). -/
def execPmcSlotCfgWrite (slot value : Nat) (s : State) : Result := .next (s.onPage (pg 0x13 1) fun s => s.slotCfgWrite slot value)

/-- Entry e of window w's counter mirror (R749). -/
def State.slotMirror (s : State) (w e : Nat) : Nat :=
  match ((List.range 64).filter fun k => s.slotOpenFor k w)[e]? with
  | some k => s.cnt (Cnt.PMC_SLOT_CNT k)
  | none => 0

/-! ### Tagging (R751–R756) -/

/-- A write of PMC_CTRL: the seed is loaded by every write; CNT_CLEAR clears the page's counters. -/
def State.pmcCtrlWrite (s : State) (v : Nat) : State :=
  let s := (s.setFld Reg.PMC_CTRL Fld.PMC_CTRL_TAG_SEED (bits 31 16 v)).setPmc fun p => { p with tagDraws := 0 }
  if bit 0 v then s.clearCnts pmcPg else s

/-- TAG_SEED_LOAD (R751): a write of PMC_CTRL. -/
def execTagSeedLoad (value : Nat) (s : State) : Result := .next (s.onPage pmcPg fun s => s.pmcCtrlWrite value)

/-- PMC_CNT_CLEAR (R766): a write of PMC_CTRL with CNT_CLEAR and the seed it carries. -/
def execPmcCntClear (seed : Nat) (s : State) : Result := .next (s.onPage pmcPg fun s => s.pmcCtrlWrite (65536 * (seed % 65536) + 1))

/-- PMC_TAG_COPY (R756, R764): the spec states no status for an offset that is not 64-byte aligned: a free value. -/
def execPmcTagCopy (h : CmdHdr) (off count : Nat) (s : State) : Result :=
  .next (s.runCmd h 0x1301 true fun s =>
    if off % 64 ≠ 0 then failOpen s
    else
      let r := s.pmc.tags.take count
      ok ((s.setPmc fun p => { p with tags := p.tags.drop count }).regionWrite 1 off r.flatten) r.length)

/-! ### The Mire map (R757–R762) -/

/-- The nodes of the Mire map (R757). -/
def nodeEndpoint (feid : Nat) : Nat := feidKey feid % 2 ^ 20
def nodeLeaf (leaf c : Nat) : Nat := 2 ^ 60 + c % 8 * 2 ^ 24 + leaf % 512
def nodeQueue (spine c lp : Nat) : Nat := 2 * 2 ^ 60 + spine % 256 * 2 ^ 52 + c % 8 * 2 ^ 24 + lp % 2048
def nodeRound (spine round group : Nat) : Nat := 3 * 2 ^ 60 + spine % 256 * 2 ^ 52 + round % 65536 * 2 ^ 32 + group % 2 ^ 20

/-- Is a 64-bit word a node, with its reserved bits zero (R757)? -/
def nodeOk (n : Nat) : Bool :=
  match bits 63 60 n with
  | 0 => n == bits 19 0 n
  | 1 => n == nodeLeaf n (bits 26 24 n)
  | 2 => n == nodeQueue (bits 59 52 n) (bits 26 24 n) n
  | 3 => n == nodeRound (bits 59 52 n) (bits 47 32 n) n
  | _ => false

/-- The waits of the device's queues (R758): a class shown blocked, to the leaf of its port; a wait behind a closed gate or a dark slot is no edge. -/
def State.queueEdges (s : State) : List (Nat × Nat × Nat) :=
  s.heads.filterMap fun x =>
    match Tbl.find s.pmc.blocked (8 * x.1 + x.2.cls), rowOfPort (s.pipe 0) x.1 with
    | some (_, since, true), some leaf =>
      if s.creditBlocked x && s.gateOpen x.1 x.2 then some (nodeQueue s.spine x.2.cls x.1, nodeLeaf leaf x.2.cls, since) else none
    | _, _ => none

/-- The waits of the device's Fen rounds (R758): to each member that a stall notice names, since its chunk opened. -/
def State.roundEdges (s : State) : List (Nat × Nat × Nat) :=
  s.fen.rounds.flatMap fun r => r.chunks.flatMap fun c =>
    if c.2.result.isSome then []
    else (c.2.named.filter fun i => (r.missing c.1).contains i).map fun i =>
      (nodeRound s.spine r.round r.group, nodeEndpoint (r.feids.getD i 0), c.2.opened)

/-- The device's own edges. -/
def State.ownEdges (s : State) : List (Nat × Nat × Nat) := s.queueEdges ++ s.roundEdges

/-- The plane's collector (PMC_MIRE_CFG.COLLECTOR). -/
def State.collector (s : State) : Nat := s.fld Reg.PMC_MIRE_CFG Fld.PMC_MIRE_CFG_COLLECTOR
def State.collects (s : State) : Bool := s.collector == s.spine
def State.mireOn (s : State) : Bool := s.flag Reg.PMC_MIRE_CFG Fld.PMC_MIRE_CFG_MIRE_EN
/-- The round period in ms (PERIOD_MS: a value not dividing 1,000 acts as 100). -/
def State.mirePeriod (s : State) : Nat :=
  let p := s.fld Reg.PMC_MIRE_CFG Fld.PMC_MIRE_CFG_PERIOD_MS
  if p ≠ 0 ∧ 1000 % p = 0 then p else 100

/-- The 24 bytes of an edge, most significant byte first (R759). -/
def edgeBytes (e : Nat × Nat × Nat) : List Byte := beBytes 8 e.1 ++ beBytes 8 e.2.1 ++ beBytes 8 e.2.2

/-- A report's packets (R759): at most 169 edges each, one at least. -/
def mireParts (fuel : Nat) (es : List (Nat × Nat × Nat)) : List (List (Nat × Nat × Nat)) :=
  match fuel with
  | 0 => [es.take 169]
  | f + 1 => if es.length ≤ 169 then [es] else es.take 169 :: mireParts f (es.drop 169)

/-- The payload of one MIRE packet (R759). -/
def mireBytes (es : List (Nat × Nat × Nat)) (round origin part : Nat) (last : Bool) : List Byte :=
  beBytes 1 0x10 ++ beBytes 1 1 ++ beBytes 2 es.length ++ beBytes 4 round ++ beBytes 4 origin ++ beBytes 2 part ++ beBytes 1 (b2n last) ++
  beBytes 17 0 ++ (es.map edgeBytes).flatten

/-- Edges join the collector's current round; one edge reported twice is one edge. -/
def State.addEdges (s : State) (es : List (Nat × Nat × Nat)) : State :=
  s.setPmc fun p => { p with edges := es.foldl (fun l e => if l.contains e then l else l ++ [e]) p.edges }

/-- A MGMT packet of TC7 to another spine of the plane (R194). -/
def State.mgmtPkt (s : State) (dst : Nat) (body : List Byte) : Pkt :=
  { cls := 7, typ := 0x33, flags := 2 ^ fDstSpine + 2 ^ fSrcSpine, dst := dst, src := s.spineAddr 0, plen := body.length, payload := body }

/-- The spine reports its edges for its current round (R759): the collector takes its own at once. -/
def State.mireReport (s : State) : State :=
  let es := s.ownEdges
  if s.collects then s.addEdges es
  else
    let ps := mireParts es.length es
    ps.zipIdx.foldl (fun s x =>
      let body := mireBytes x.1 s.pmc.round (s.spineAddr 0) x.2 (x.2 + 1 == ps.length)
      s.sendRelayed (s.mgmtPkt (s.plane * 2 ^ 29 + s.collector * 4096) body)) s

/-- The cycles that a path of edges can close, each node passed once, no edge of a lower index than the first. -/
def cyclesFrom (es : List (Nat × Nat × Nat)) : Nat → List Nat → List (List Nat)
  | 0, _ => []
  | fuel + 1, path =>
    let node := fun k => (es.getD k (0, 0, 0))
    let first := path.headD 0
    let at_ := (node (path.getLastD 0)).2.1
    if at_ = (node first).1 then [path]
    else if (path.map fun k => (node k).1).contains at_ then []
    else ((List.range es.length).filter fun j => decide (first < j) && (node j).1 == at_).flatMap fun j => cyclesFrom es fuel (path ++ [j])

/-- Every cycle among the edges of a round, in wait order (R761). -/
def allCycles (es : List (Nat × Nat × Nat)) : List (List Nat) := (List.range es.length).flatMap fun k => cyclesFrom es (es.length + 1) [k]

/-- The edges of a cycle. -/
def cycleEdges (es : List (Nat × Nat × Nat)) (c : List Nat) : List (Nat × Nat × Nat) := c.map fun k => es.getD k (0, 0, 0)
/-- Do two cycles have the same edges, with the same SINCE values? -/
def sameCycle (a b : List (Nat × Nat × Nat)) : Bool := a.length == b.length && a.all b.contains

/-- The collector closes its round (R761): a cycle that stood in the round before with the same edges is reported once while its edges persist. -/
def State.mireClose (s : State) : State :=
  let es := s.pmc.edges
  let cs := allCycles es
  let prior := match s.pmc.last with | some r => r.cycles.map (cycleEdges r.edges) | none => []
  let kept := s.pmc.reported.filter fun c => c.all es.contains
  let fresh := (cs.map (cycleEdges es)).filter fun c => prior.any (sameCycle c) && !kept.any (sameCycle c)
  let r : MireRound := ⟨s.pmc.round, s.short, es, cs⟩
  let s := (s.setPmc fun p => { p with edges := [], last := some r, reported := kept ++ fresh }).inc Cnt.PMC_MIRE_ROUNDS
  fresh.foldl (fun s _ => ((s.irq pmcPg 2).logErr pmcPg 0x0100 1 0).inc Cnt.PMC_MIRE_CYCLES) s

/-- A period ends and the next begins, as round k (R759, R760): the collector closes its round, and a spine with MIRE_EN reports. -/
def State.mireNext (s : State) (k : Nat) : State :=
  let s := if s.collects then s.mireClose else s
  let s := s.setPmc fun p => { p with round := k % 2 ^ 32 }
  if s.mireOn then s.mireReport else s

/-- MIRE_PERIOD (R759): the next boundary of PERIOD_MS of network time. With MIRE_EN = 0, or without network time, no period runs. -/
def execMirePeriod (s : State) : Result :=
  if !s.mireOn || !s.timeLocked then .next s
  else
    let p := s.mirePeriod * 1000000
    let k := s.nowNs / p + 1
    .next ((s.elapseToDev (k * p * 2 ^ 32)).mireNext k)

/-- MIRE_ROUND (R764): the period ends at once and the next begins. -/
def execMireRound (h : CmdHdr) (s : State) : Result := .next (s.runCmd h 0x1303 true fun s => ok (s.mireNext (s.pmc.round + 1)))

/-- MIRE_EDGES_RX (R759, R760): an EDGES report joins the collector's current round; a POISON payload is not used (R183). -/
def execMireEdgesRx (lport : Nat) (pkt : Pkt) (s : State) : Result :=
  let b := pkt.payload
  let n := beAt 2 2 b
  let es := (List.range n).map fun i => (beAt (32 + 24 * i) 8 b, beAt (40 + 24 * i) 8 b, beAt (48 + 24 * i) 8 b)
  if pkt.typ ≠ 0x33 ∨ beAt 0 1 b ≠ 0x10 then .next s
  else
    let s := s.takeFn lport pkt
    if pflag pkt fPoison then .next s
    else if beAt 1 1 b ≠ 1 || decide (169 < n) || b.length != 32 + 24 * n || decide (1 < beAt 14 1 b) || !allZero (slice 15 17 b) ||
        !(es.all fun e => nodeOk e.1 && nodeOk e.2.1) then .next (s.inc (reasonCnt lport rReserved))
    else .next (if s.collects then s.addEdges es else s)

/-- MIRE_READ (R762, R764, R765). Where no round has been completed, and for an offset that is not 4 KiB aligned, the spec states no status: a free
value. -/
def execMireRead (h : CmdHdr) (off maxLen : Nat) (s : State) : Result :=
  .next (s.runCmd h 0x1302 true fun s =>
    if !s.collects then fail s 0x0101
    else match s.pmc.last with
      | none => failOpen s
      | some r =>
        let edges := r.edges.flatMap fun e => leBytes 8 e.1 ++ leBytes 8 e.2.1 ++ leBytes 8 e.2.2
        let cycles := r.cycles.flatMap fun c => leBytes 4 c.length ++ c.flatMap (leBytes 4)
        let bs := leBytes 4 0x4552494D ++ leBytes 4 r.round ++ leBytes 4 r.edges.length ++ leBytes 4 r.cycles.length ++ leBytes 8 r.time ++ leBytes 40 0 ++
          edges ++ cycles
        if off % 4096 ≠ 0 then failOpen s
        else if maxLen < bs.length then fail s 0x0100
        else ok (s.regionWrite 1 off bs) bs.length)

/-- WAIT_US, where 0 acts as 1. -/
def State.waitUs (s : State) : Nat := max 1 (s.fld Reg.PMC_MIRE_CFG Fld.PMC_MIRE_CFG_WAIT_US)

/-- The word PMC_WAIT_p reads as: the classes either half of a port has been blocked in for WAIT_US (R758). -/
def State.pmcWait (s : State) (p : Nat) : Nat :=
  ((s.heads.filter fun x => lp2p x.1 == p && s.creditBlocked x &&
    (match Tbl.find s.pmc.blocked (8 * x.1 + x.2.cls) with | some b => b.2.2 | none => false)).map fun x => x.2.cls) |> bitsOf

/-- CREDIT_BLOCK_TIMER (R758): a class of a logical port has been blocked for credits for WAIT_US. -/
def execCreditBlockTimer (lport cls : Nat) (s : State) : Result :=
  let s := s.blockNote
  match Tbl.find s.pmc.blocked (8 * lport + cls) with
  | none => .next s
  | some b =>
    let s := s.elapseToTick (b.1 + usTicks s.waitUs)
    .next (s.setPmc fun p => { p with blocked := Tbl.put p.blocked (8 * lport + cls) (b.1, b.2.1, true) })

end Sys2Proof.Machine
end

