-- ==== Sys2Proof/Machine/Bcast.lean ====
section
/-! DEFINITION. The commands and messages of the job-start broadcast (R805–R810, R813). -/
namespace Sys2Proof.Machine

def mgmtPg : Nat := pg 1 0

/-! ### The 32-byte header of SERVICE 0x20 and 0x21 (R800, R809) -/

/-- The header of an UPDATE packet or a relayed block: bytes 20 to 31 as given. -/
def updHeader (service kind status xfer off total origin : Nat) (rest : List Byte) : List Byte :=
  beBytes 1 service ++ beBytes 1 kind ++ beBytes 2 status ++ beBytes 4 xfer ++ beBytes 4 off ++ beBytes 4 total ++ beBytes 4 origin ++ slice 0 12 rest

/-- The pieces of at most 4,064 bytes of some data, each with its offset. -/
def pieces (data : List Byte) : List (Nat × List Byte) :=
  (List.range (ceilDiv data.length 4064)).map fun k => (4064 * k, (data.drop (4064 * k)).take 4064)

/-- Adds a piece to those held. -/
def addPiece (segs : List (Nat × List Byte)) (off : Nat) (d : List Byte) : List (Nat × List Byte) :=
  if segs.any fun x => x.1 == off then segs else segs ++ [(off, d)]

/-- The bytes held from offset 0 on without a gap. -/
def contiguous : Nat → List (Nat × List Byte) → List Byte → List Byte
  | 0, _, acc => acc
  | fuel + 1, segs, acc =>
    match segs.find? fun x => decide (x.1 ≤ acc.length) && decide (acc.length < x.1 + x.2.length) with
    | some x => contiguous fuel segs (acc ++ x.2.drop (acc.length - x.1))
    | none => acc
def heldBytes (segs : List (Nat × List Byte)) : List Byte := contiguous segs.length segs []

/-! ### BCAST_START, BCAST_ABORT (R805, R806, R810) -/

/-- Releases block i to every member and notes the SEQ of its first packet (R806). -/
def State.releaseBlock (s : State) (group gen i : Nat) (bytes : List Byte) (bad : List Nat) : Nat × State :=
  let first := Tbl.getD s.fen.seq 0 group
  (first, (blockPkts (s.spineAddr 0) group gen i 0 bytes bad).foldl (fun s p =>
    let (p, s) := s.fenSeq group p
    s.replicate 0 group gen p fun _ => true) s)

/-- BCAST_START (R805, R806, R813). The spec states no status for a group that is absent or not of KIND 0b01, nor for a length out of range: a
free one. `ue` lists the pieces of 4,096 bytes that memory gives with an uncorrectable error. -/
def execBcastStart (h : CmdHdr) (off len group : Nat) (alts ue : List Nat) (s : State) : Result :=
  .next (s.runCmd h 0x0101 true fun s =>
    let g := group % 2 ^ 20
    match s.group 0 g with
    | none => failOpen s
    | some e =>
      if grpKindOf e ≠ 1 ∨ len = 0 ∨ 2 ^ 28 < len then failOpen s
      else if Tbl.getD s.cfg.used 0 g = grpGen e + 1 then fail s 0x010C
      else
        let data := s.staging off len
        let b : Bcast := ⟨h, g, grpGen e, data, ue, (alts.take 4).filter (· != 0xFF), s.members 0 e, [], [], [], [], [], s.time.ticks, 0⟩
        let (seqs, s) := (List.range b.blocks).foldl (fun (acc : List Nat × State) i =>
          let (q, s) := acc.2.releaseBlock g b.gen i (b.block i) ue
          (acc.1 ++ [q], s)) ([], s)
        let b : Bcast := { b with seqs := seqs }
        let s := s.setCfg fun c => { c with bcasts := c.bcasts.filter (fun (x : Bcast) => !(x.group == g && x.gen == b.gen)) ++ [b], used := Tbl.put c.used g (b.gen + 1) }
        (s.bcastSettle b, none))

/-- BCAST_ABORT (R810). The spec states no status where the group has no broadcast under way: a free one. -/
def execBcastAbort (h : CmdHdr) (group : Nat) (s : State) : Result :=
  .next (s.runCmd h 0x0102 true fun s =>
    match s.bcastOf group with
    | none => failOpen s
    | some b => ok ((s.dropBcast b).complete b.hdr 1 ⟨0x010D, 0, 0, []⟩))

/-! ### Answers and deadlines (R807–R809) -/

/-- The mask of blocks that an answer shows complete (R807). -/
def ackMask (b : List Byte) : Nat :=
  let base := beAt 6 2 b
  2 ^ base - 1 + 2 ^ (base + 1) * leAt 8 32 b

/-- BCAST_ACK (R807, R808, R810). -/
def execBcastAck (lport : Nat) (pkt : Pkt) (s : State) : Result :=
  let p := pkt.payload
  if pkt.typ ≠ 0x19 then .next s
  else
    let s := s.takeFn lport pkt
    if pflag pkt fPoison then .next s
    else if p.length != 64 || decide (2 ^ 20 ≤ beAt 0 4 p) || beAt 5 1 p != 0 || !allZero (p.drop 40) then .next (s.inc (reasonCnt lport rReserved))
    else match s.cfg.bcasts.find? fun b => b.group == beAt 0 4 p && b.gen == beAt 4 1 p with
      | none => .next s
      | some b =>
        match b.feids.findIdx? fun f => feidKey f == feidKey pkt.src with
        | none => .next s
        | some i =>
          let last := Tbl.find b.lastSeq i
          let newer := match last with | none => true | some q => (pkt.seq + 2 ^ 24 - q) % 2 ^ 24 != 0 && decide ((pkt.seq + 2 ^ 24 - q) % 2 ^ 24 < 2 ^ 23)
          if !newer ∨ b.excused.contains i ∨ s.fencedEp (b.feids.getD i 0) then .next s
          else
            let m := (Tbl.getD b.acked 0 i ||| ackMask p) % 2 ^ b.blocks
            .next (s.bcastSettle { b with acked := Tbl.put b.acked i m, lastSeq := Tbl.put b.lastSeq i (pkt.seq % 2 ^ 24) })

/-- Sends block k of a broadcast to an alternate for one member (R809); a packet with bytes of a bad piece carries POISON (R183). -/
def State.relayBlock (s : State) (b : Bcast) (member k alt : Nat) : State :=
  let bytes := b.block k
  let rest := beBytes 4 (b.feids.getD member 0) ++ beBytes 3 (b.seqs.getD k 0)
  (pieces bytes).foldl (fun s x =>
    let bad := (List.range 16).any fun j => b.bad.contains (16 * k + j) && decide (4096 * j < x.1 + x.2.length) && decide (x.1 < 4096 * (j + 1))
    s.sendRelayed (withFlag (s.mgmtPkt (s.plane * 2 ^ 29 + alt % 256 * 4096)
      (updHeader 0x21 1 0 (b.group * 4096 + k) x.1 bytes.length (s.spineAddr 0) rest ++ x.2)) fPoison bad)) s

/-- Sends packets of a block to one member alone, unless it is fenced (R307). -/
def State.sendAlone (s : State) (feid : Nat) (ps : List Pkt) : State :=
  if s.fencedEp feid then s else ps.foldl (fun s p => s.fnSend 0 { p with dst := feid }) s

/-- BCAST_BLOCK_DEADLINE (R809): a member has not acknowledged a block in 4 ms, or in 8 ms after the last attempt: the next alternate takes it, and
after the last alternate the source itself, whereupon the alternates begin anew. -/
def execBcastBlockDeadline (group member block : Nat) (s : State) : Result :=
  match s.bcastOf group with
  | none => .next s
  | some b =>
    if b.feids.length ≤ member ∨ b.blocks ≤ block ∨ b.has member block ∨ b.excused.contains member then .next s
    else
      let (t, used) := Tbl.getD b.due (b.startedAt + usTicks 4000, 0) (4096 * member + block)
      let s := s.elapseToTick t
      let next := t + usTicks 8000
      match b.alts[used]? with
      | some alt =>
        let s := (s.relayBlock b member block alt).inc Cnt.CFG_BCAST_RESENDS
        .next (s.setBcast { b with due := Tbl.put b.due (4096 * member + block) (next, used + 1) })
      | none =>
        let s := s.sendAlone (b.feids.getD member 0) (s.bcastPkts b block)
        .next (s.setBcast { b with due := Tbl.put b.due (4096 * member + block) (next, 0) })

/-- BCAST_RELAY_RX (R809): a piece of a block for one member; the whole block goes to the member alone, in the source's own packets. -/
def execBcastRelayRx (lport : Nat) (pkt : Pkt) (s : State) : Result :=
  let p := pkt.payload
  if pkt.typ ≠ 0x33 ∨ beAt 0 1 p ≠ 0x21 then .next s
  else
    let s := s.takeFn lport pkt
    let x := beAt 4 4 p
    if pflag pkt fPoison then .next s
    else if beAt 1 1 p != 1 || beAt 2 2 p != 0 || !allZero (slice 27 5 p) || decide (p.length ≤ 32) || decide (beAt 12 4 p < beAt 8 4 p + (p.length - 32)) then
      .next (s.inc (reasonCnt lport rReserved))
    else
      let key := fun (r : RelayRx) => r.src == beAt 16 4 p && r.xfer == x && r.member == beAt 20 4 p
      let r : RelayRx := (s.cfg.relays.find? key).getD ⟨beAt 16 4 p, x, beAt 20 4 p, beAt 24 3 p, beAt 12 4 p, []⟩
      let r : RelayRx := { r with segs := addPiece r.segs (beAt 8 4 p) (p.drop 32) }
      let others := s.cfg.relays.filter fun r => !key r
      let bytes := heldBytes r.segs
      if bytes.length < r.total then .next (s.setCfg fun c => { c with relays := others ++ [r] })
      else
        let s := s.setCfg fun c => { c with relays := others }
        match s.group 0 (x / 4096) with
        | some e => .next (s.sendAlone r.member (blockPkts r.src (x / 4096) (grpGen e) (x % 4096) r.seq (bytes.take r.total) []))
        | none => .next s

/-- BCAST_STALL_NOTICE (R809): every 100 ms while a block is missing. -/
def execBcastStallNotice (group : Nat) (s : State) : Result :=
  match s.bcastOf group with
  | none => .next s
  | some b =>
    let s := s.elapseToTick (b.startedAt + (b.notices + 1) * usTicks 100000)
    let missing := (List.range b.feids.length).filter fun i => !b.excused.contains i && !b.done i
    let s := (s.setBcast { b with notices := b.notices + 1 }).emit (.notice 0x0809 (b.group :: missing))
    .next (s.logErr mgmtPg 0x0101 0 (locBlock 1))

end Sys2Proof.Machine
end

