-- ==== Sys2Proof/Machine/Tide.lean ====
section
/-! DEFINITION. Tide engines (chapter 8): boundaries, takeovers, launches, packages, and the registers that act on a write. -/
namespace Sys2Proof.Machine

/-! ### Boundaries (R379, R383, R388, R392, R464) -/

/-- An uncorrectable error in the active or the shadow bank of a port (R392). -/
def State.listError (s : State) (p : Nat) (active : Bool) : State :=
  if active then
    let s := (s.setFld (tideSt p) Fld.TIDE_PORT_STATUS_LIST_UE 1).listEnds p s.nowC true
    (s.irq (pg 8 (p / 8)) 3).logErr (pg 8 (p / 8)) 0x0100 2 (locTile (p / 8) 31)
  else
    let t := s.portTide p
    let s := s.setPortTide p (t.setBank (1 - s.activeIdx p) TideBank.init)
    (s.setFld (tideSt p) Fld.TIDE_PORT_STATUS_SHADOW_VALID 0).setFld (tideSt p) Fld.TIDE_PORT_STATUS_TAKEOVER_PENDING 0

/-- TIDE_SLOT_BOUNDARY: device time reaches the port's next boundary. `listUe`: the list memory of its active (true) or shadow bank reads
with an uncorrectable error before that; `elemFail`: a crosspoint element of its engine fails to switch. -/
def execTideSlotBoundary (port : Nat) (listUe : Option Bool) (elemFail : Option Nat) (s : State) : Result :=
  match listUe with
  | some a => .next (s.listError port a)
  | none =>
    let s := match elemFail with | some e => s.elementFault (port / 32) (e % 1024) | none => s
    .next (s.boundary port)

/-- CW_TAKEOVER (R464): at TAKEOVER itself when port 32n is not RUNNING and no tide takeover of the same time is pending on it. -/
def execCwTakeover (n : Nat) (s : State) : Result :=
  match s.cwTakeover n with
  | none => .next s
  | some t =>
    if s.tideState (32 * n) = 2 ∨ s.sameTakeover n = true then .next s
    else .next ((s.elapseToDev (cToDev t)).cwSwap n)

/-! ### Launches (R393–R396) -/

/-- The launch entry of a port whose time comes first; the lower entry of two at one time (R402). -/
def firstLaunch : List (Nat × Launch) → Option (Nat × Launch)
  | [] => none
  | x :: xs => match firstLaunch xs with
    | some y => if y.2.t < x.2.t then some y else some x
    | none => some x

/-- After its time a periodic entry moves on by its period and a one-time entry clears (R394). -/
def State.launchDone (s : State) (p e : Nat) (l : Launch) : State :=
  let t := s.portTide p
  s.setPortTide p { t with launches := if l.period = 0 then Tbl.del t.launches e else Tbl.put t.launches e { l with t := l.t + 128 * l.period } }

/-- May a launch act on a port (R393, R669)? -/
def State.launchActs (s : State) (p : Nat) : Bool :=
  s.flag (Reg.TIDE_PORT_CFG (p / 8) (p % 8)) Fld.TIDE_PORT_CFG_TC6_MODE && (s.tideState p == 0 || s.tideState p == 1) && s.timeLocked && !s.frozen

/-- Can the head of a logical port's TC6 queue start at a launch: light, link, credits, replay room, the transmitter free, all of it there or
cut-through? -/
def State.launchable (s : State) (lp : Nat) (f : Flight) : Bool :=
  (f.whole || s.cutAllows lp f) && ((s.link lp).pool 6 (pktUnits f.pkt)).isSome &&
  decide ((s.link lp).replayUsed + pktCells f.pkt ≤ s.replayCells lp) && s.linkAllows lp 6 && !s.dark (lp2p lp) &&
  (s.sending lp).isNone && (s.link lp).resendFrom.isNone

/-- Starts the head of a half's TC6 queue when it can start. -/
def State.launchHalf (s : State) (lp : Nat) : Bool × State :=
  match s.headOf lp 6 with
  | some f => if s.launchable lp f then (true, s.sendHead lp f) else (false, s)
  | none => (false, s)

/-- LAUNCH (R393–R395, R402): the time of the port's first launch entry comes. On a split port both halves follow it (R373); the launch
counts once. While the frame of an earlier launch is being sent, the entry waits for its end (R402). -/
def execLaunch (port : Nat) (s : State) : Result :=
  match firstLaunch (s.portTide port).launches with
  | none => .next s
  | some (e, l) =>
    let s := s.elapseToDev (cToDev l.t)
    let t := port / 8; let j := port % 8
    if !s.launchActs port then .next ((s.inc (Cnt.TIDE_LAUNCH_SKIPPED t j)).launchDone port e l)
    else
      let halves := if s.isSplit port then [2 * port, 2 * port + 1] else [2 * port]
      let full := halves.filter fun lp => (s.headOf lp 6).isSome
      if full.any fun lp => (s.sending lp).isSome then .next s
      else
        let (sent, s) := full.foldl (fun (x : Bool × State) lp => let y := x.2.launchHalf lp; (x.1 || y.1, y.2)) (false, s)
        let s := if full.isEmpty then s.inc (Cnt.TIDE_LAUNCH_EMPTY t j) else if sent then s.inc (Cnt.TIDE_LAUNCH_SENT t j) else s
        .next (s.launchDone port e l)

/-! ### The tide package (R397–R399) -/

/-- A list as a package gives it. -/
structure PkgList where
  port : Nat
  bank : TideBank
  deriving DecidableEq, Repr

/-- Is a descriptor of a package broken in the sense of BAD_PACKAGE? -/
def badDesc (total : Nat) (img d : List Byte) : Bool :=
  let n := leAt 2 2 d; let o := leAt 4 4 d
  n == 0 || decide (1024 < n) || o % 8 != 0 || decide (total < o + 8 * n) || decide (2 ^ 40 ≤ leAt 16 8 d) || !allZero (slice 24 8 d) ||
  (List.range n).any fun i => let e := leAt (o + 8 * i) 8 img; bit 55 e || bits 47 24 e != 0

/-- The list of a descriptor. -/
def pkgList (gen : Nat) (img d : List Byte) : PkgList :=
  ⟨leAt 0 2 d, ⟨true, fromShort (leAt 8 8 d) / 2 ^ 32, leAt 16 8 d % 2 ^ 40, gen,
    (List.range (leAt 2 2 d)).map fun i => leAt (leAt 4 4 d + 8 * i) 8 img⟩⟩

/-- Does a list break R378 or R380? -/
def badCycle (b : TideBank) : Bool :=
  (b.entries.any fun e => decide (entDur e < 8) || (decide (0x40 ≤ entMap e) && entMap e != 0x7F)) ||
  (b.entries.map entDur).foldl (· + ·) 0 != b.cycle

/-- The image with bytes 24 to 27 zero, over which CHECK is taken (R397, R461). -/
def sansCheck (img : List Byte) : List Byte := img.take 24 ++ List.replicate 4 0 ++ img.drop 28

/-- Is a package header wrong: its magic, version, count, reserved bytes, or a length too short for its header? -/
def badHeader (img : List Byte) (magic lim len : Nat) : Bool :=
  leAt 0 4 img != magic || leAt 4 2 img != 1 || leAt 6 2 img == 0 || decide (lim < leAt 6 2 img) || !allZero (slice 17 3 img) ||
  !allZero (slice 28 36 img) || decide (leAt 20 4 img < len)

/-- The first check of R399 that a package at a staging offset fails, or its lists, TAKEOVER and CHECK. -/
def State.tidePackage (s : State) (off : Nat) : Except Nat (List PkgList × Nat × Nat) :=
  let hd := s.staging off 64
  let n := leAt 6 2 hd; let total := leAt 20 4 hd
  if off % 4096 ≠ 0 ∨ badHeader hd 0x45444954 512 (64 + 32 * n) then .error 0x0100 else
  let img := s.staging off total
  let ds := (List.range n).map fun i => slice (64 + 32 * i) 32 img
  if ds.any (badDesc total img) then .error 0x0100
  else if crc32c (sansCheck img) ≠ leAt 24 4 img then .error 0x0101
  else
    let ls := ds.map (pkgList (leAt 16 1 img) img)
    let ps := ls.map (·.port)
    if ls.any fun l => badCycle l.bank then .error 0x0102
    else if ps.eraseDups.length ≠ ps.length ∨ ps.any (fun p => decide (511 < p) || s.role p == 0) then .error 0x0104
    else if fromShort (leAt 8 8 img) < s.time.now + 2000 * 2 ^ 32 then .error 0x0103
    else .ok (ls, leAt 8 8 img, leAt 24 4 img)

/-- A list commits into its port's shadow bank with a pending takeover (R391, R399); a takeover whose moment has come goes first (R402). -/
def State.commitList (s : State) (takeover check : Nat) (l : PkgList) : State :=
  let p := l.port
  let s := match s.takeoverAt p with | some k => if k ≤ s.nowC then s.takeover p k else s | none => s
  let s := { s with tide := { s.tide with checks := Tbl.set s.tide.checks 0 (2 * p + (1 - s.activeIdx p)) check } }
  let s := s.setPortTide p ((s.portTide p).setBank (1 - s.activeIdx p) l.bank)
  let s := (s.setFld (tideSt p) Fld.TIDE_PORT_STATUS_SHADOW_VALID 1).setFld (tideSt p) Fld.TIDE_PORT_STATUS_TAKEOVER_PENDING 1
  s.wrWide (Reg.TIDE_TAKEOVER (p / 8) (p % 8)) takeover 2

/-- TIDE_LOAD (R389, R391, R397–R399). -/
def execTideLoad (h : CmdHdr) (off : Nat) (s : State) : Result :=
  .next (s.runCmd h 0x0801 true fun s =>
    if h.target ≠ 0 then fail s 0x0104
    else match s.tidePackage off with
      | .error st => fail s st
      | .ok (ls, t, c) => ok (ls.foldl (fun s l => s.commitList t c l) s))

/-- TIDE_CANCEL (R391): the shadow bank keeps its contents. -/
def execTideCancel (h : CmdHdr) (s : State) : Result :=
  .next (s.runCmd h 0x0802 true fun s =>
    if 511 < h.target then fail s 0x0104
    else ok (s.setFld (tideSt h.target) Fld.TIDE_PORT_STATUS_TAKEOVER_PENDING 0))

/-- TIDE_STOP (R400). -/
def execTideStop (h : CmdHdr) (time : Nat) (s : State) : Result :=
  .next (s.runCmd h 0x0803 true fun s =>
    if 511 < h.target then fail s 0x0104
    else
      let t := s.portTide h.target
      ok (if t.hasActive then s.setPortTide h.target { t with stop := some (max (fromShort time / 2 ^ 32) (ceilDiv s.time.now (2 ^ 32))) } else s))

/-- LAUNCH_SET (R393, R396). The spec states no status for an entry above 15 or another ACTION: a free one. -/
def execLaunchSet (h : CmdHdr) (entry action time period : Nat) (s : State) : Result :=
  .next (s.runCmd h 0x0804 true fun s =>
    if 511 < h.target then fail s 0x0104
    else if 15 < entry ∨ 1 < action then failOpen s
    else
      let t := s.portTide h.target
      if action = 0 then ok (s.setPortTide h.target { t with launches := Tbl.del t.launches entry })
      else if fromShort time < s.time.now + 2000 * 2 ^ 32 then fail s 0x0105
      else ok (s.setPortTide h.target { t with launches := Tbl.put t.launches entry ⟨shortToC time, period⟩ }))

/-- TIDE_READ (R400). The spec states no result for a bank above 1 or an entry past the list: a free value. -/
def execTideRead (h : CmdHdr) (bank entry : Nat) (s : State) : Result :=
  .next (s.runCmd h 0x0805 true fun s =>
    if 511 < h.target then fail s 0x0104
    else
      match if bank < 2 then (((s.portTide h.target).bank bank).entries)[entry]? else none with
      | some e => ok s e
      | none =>
        let (v, s) := s.draw
        ok s (v % 2 ^ 64))

/-! ### Registers that act on a write (R375, R376, R386) -/

/-- A write of TIDE_PORT_CFG: LIST_EN falling makes the port IDLE with its banks kept; rising lets it take up its active bank again at the
next cycle start (R386). -/
def State.portCfgWrite (s : State) (p v : Nat) : State :=
  let a := Reg.TIDE_PORT_CFG (p / 8) (p % 8)
  let was := s.flag a Fld.TIDE_PORT_CFG_LIST_EN
  let s := s.wr a (BitVec.ofNat 32 (v % 4))
  if was && !bit 0 v then
    let s := s.setTideState p 0
    if p % 32 = 0 then s.park (p / 32) s.nowC true else s
  else if !was && bit 0 v && (s.portTide p).hasActive then
    (s.setTideState p 1).setCycle p ((s.activeBank p).cycleFrom (max s.nowC s.resumeC))
  else s

/-- TIDE_LIST_DISABLE (R386): a write of LIST_EN = 0 with TC6_MODE as it is. -/
def execTideListDisable (port : Nat) (s : State) : Result :=
  .next (s.onPage (pg 8 (port / 8)) fun s => s.portCfgWrite port (withBits 0 0 0 (s.rd (Reg.TIDE_PORT_CFG (port / 8) (port % 8))).toNat))

/-- TIDE_LIST_ENABLE (R386): a write of LIST_EN = 1 with TC6_MODE as it is. -/
def execTideListEnable (port : Nat) (s : State) : Result :=
  .next (s.onPage (pg 8 (port / 8)) fun s => s.portCfgWrite port (withBits 0 0 1 (s.rd (Reg.TIDE_PORT_CFG (port / 8) (port % 8))).toNat))

/-- A write of a shaper's register fills the bucket to BURST or empties it, on both halves of the port (R373, R375). -/
def State.shpWrite (s : State) (p c v : Nat) : State :=
  let mask := 0xC00FFFFF * 2 ^ 32 + 0xFFFFFF
  let s := s.wrWide (shpReg (2 * p) c) (v &&& mask) 2
  let t : Int := if bit 62 v then (s.shpBurst (2 * p) c : Int) * 6250 else 0
  (s.setShp (2 * p) c t).setShp (2 * p + 1) c t

/-- SHAPER_WRITE (R375). -/
def execShaperWrite (port cls value : Nat) (s : State) : Result := .next (s.onPage (pg 8 (port / 8)) fun s => s.shpWrite port cls value)

/-- TIDE_CNT_CLEAR (R403): a write of TIDE_CTRL with CNT_CLEAR and GUARD_NS as it is. -/
def execTideCntClear (tile : Nat) (s : State) : Result := .next (s.onPage (pg 8 tile) fun s => s.clearCnts (pg 8 tile))

end Sys2Proof.Machine
end

