-- ==== Sys2Proof/Machine/Optics.lean ====
section
/-! DEFINITION. Laser modules, identity memories, rings and reeds (chapter 9, R404–R437). -/
namespace Sys2Proof.Machine

/-! ### Reeds (R405, R409, R425) -/

/-- The OE page of a physical port. -/
def pgOe (p : Nat) : Nat := pg 9 (p / 32)
/-- The location code of a reed's ring (R37, R405). -/
def locRing (p r : Nat) (tx : Bool) : Nat := locOe (p / 32) (p % 32 / 4) (b2n (!tx)) (4 * (p % 4) + r)
def ringFld (tx : Bool) : Fld := if tx then Fld.OE_REED_TX_STATE else Fld.OE_REED_RX_STATE
/-- The state of a reed's modulator or receive ring: 0 OFF, 1 SWEEP, 2 LOCKED, 3 SLIP, 4 PARKED, 5 DISABLED. -/
def State.ring (s : State) (p r : Nat) (tx : Bool) : Nat := s.fld (reedReg p r) (ringFld tx)
def State.setRing (s : State) (p r : Nat) (tx : Bool) (v : Nat) : State := s.setFld (reedReg p r) (ringFld tx) v
/-- Is a reed out of service for lack of its comb line? -/
def State.causeLaser (s : State) (p r : Nat) : Bool := s.flag (reedReg p r) Fld.OE_REED_CAUSE_LASER
/-- Is a ring of the reed DISABLED? -/
def State.disabled (s : State) (p r : Nat) : Bool := s.ring p r true == 5 || s.ring p r false == 5
/-- Charges an input to a reed, unless it lacks its comb line (R688). -/
def State.chargeReed (s : State) (p r input : Nat) : State := if s.causeLaser p r then s else s.charge (objReed p r) input 1

/-- The logical port that carries reed r of port p. -/
def State.reedPort (s : State) (p r : Nat) : Nat := 2 * p + (if s.isSplit p then r / 2 else 0)
/-- The logical ports of a physical port. -/
def State.halves (s : State) (p : Nat) : List Nat := if s.isSplit p then [2 * p, 2 * p + 1] else [2 * p]

/-- A relock attempt of a reed begins: the ring goes to its park point and sweeps from there (R425); the attempt is counted and charged. -/
def State.relockBegins (s : State) (p r : Nat) (tx : Bool) : State :=
  ((s.setRing p r tx 1).inc (Cnt.OE_RELOCKS (p / 32))).chargeReed p r 8

/-- The REED_RETRY commands whose reeds are all live, LOW_MARGIN or DISABLED complete (R466). -/
def State.settleReeds (s : State) : State :=
  let done := fun (c : CmdHdr × Nat × Nat) => (bitList 4 c.2.2).all fun r =>
    s.flag (reedReg c.2.1 r) Fld.OE_REED_LIVE || s.flag (reedReg c.2.1 r) Fld.OE_REED_LOW_MARGIN || s.disabled c.2.1 r
  let (fin, rest) := s.optics.reedCmds.partition done
  fin.foldl (fun s c => s.complete c.1 9 ⟨0, 0, 0, []⟩) { s with optics := { s.optics with reedCmds := rest } }

/-! ### Light and lines (R410–R416) -/

/-- Signed hundredths of a dBm. -/
def dbm (v : Nat) : Int := toSigned 16 v
def feedReg (m feed k : Nat) : Nat := Reg.OE_FEED_PWR (2 * m + feed / 2) (feed % 2) k
/-- Stores a measured power of line k on feed `feed` of module m. -/
def State.setFeed (s : State) (m feed k v : Nat) : State := s.setFld (feedReg m feed k) Fld.OE_FEED_PWR_POWER v
/-- Does line k measure below a threshold on a feed? A line without a reading does not. -/
def State.below (s : State) (m feed k : Nat) (x : Int) : Bool :=
  let v := s.fld (feedReg m feed k) Fld.OE_FEED_PWR_POWER
  v != 0x8000 && decide (dbm v < x)
def State.warnAt (s : State) (m : Nat) : Int := dbm (s.fld (Reg.ELS_THRESH m) Fld.ELS_THRESH_WARN)
def State.failAt (s : State) (m : Nat) : Int := dbm (s.fld (Reg.ELS_THRESH m) Fld.ELS_THRESH_FAIL)
/-- Is line k low: below WARN in some feed (R411)? -/
def State.lineLow (s : State) (m k : Nat) : Bool := (List.range 4).any fun f => s.below m f k (s.warnAt m)

/-- LINE_WARN follows the readings of module m; LINE_FAIL's own bits stand apart. -/
def State.lineWarn (s : State) (m : Nat) : State :=
  s.setFlag (Reg.ELS_STATUS m) Fld.ELS_STATUS_LINE_WARN ((List.range 16).any fun k => s.lineLow m k)

/-- FEED_LOW of an engine's feed follows the readings: a line below FAIL in it but not in every feed of the module (R411). -/
def State.feedLow (s : State) (m feed : Nat) : State :=
  let n := 2 * m + feed / 2
  let lo := (List.range 16).any fun k => s.below m feed k (s.failAt m) && !((List.range 4).all fun f => s.below m f k (s.failAt m))
  let v := s.fld (Reg.OE_STATUS n) Fld.OE_STATUS_FEED_LOW
  s.setFld (Reg.OE_STATUS n) Fld.OE_STATUS_FEED_LOW (withBits (feed % 2) (feed % 2) (b2n lo) v)

/-- The reeds of line k on the fibres f to f + n − 1 of an engine: port and reed (R405, R412). -/
def lineReeds (e f n k : Nat) : List (Nat × Nat) := (List.range n).map fun i => (32 * e + 4 * (f + i) + k / 4, k % 4)

/-- A reed goes out of service in both directions for lack of its comb line (R412). -/
def State.reedDark (s : State) (x : Nat × Nat) : State :=
  let s := (s.setLive x.1 x.2 false).setFld (reedReg x.1 x.2) Fld.OE_REED_CAUSE_LASER 1
  if s.disabled x.1 x.2 then s else (s.setRing x.1 x.2 true 0).setRing x.1 x.2 false 0

/-- A reed's comb line is back: it returns to lock, but for the rings of an unused port (R28, R409, R412). -/
def State.reedLit (s : State) (x : Nat × Nat) : State :=
  if s.causeLaser x.1 x.2 then
    let s := s.setFld (reedReg x.1 x.2) Fld.OE_REED_CAUSE_LASER 0
    if s.disabled x.1 x.2 then s else (s.setRing x.1 x.2 true (if s.role x.1 = 0 then 0 else 1)).setRing x.1 x.2 false (if s.role x.1 = 0 then 4 else 1)
  else s

/-- Is a feed dark: below −20 dBm on every line (R413)? -/
def State.feedDark (s : State) (m feed : Nat) : Bool := (List.range 16).all fun k => s.below m feed k (-2000)

/-- A feed is dark: FEED_DARK, its ports lose all their transmit reeds, and their links leave UP (R413). -/
def State.darken (s : State) (m feed : Nat) : State :=
  let e := 2 * m + feed / 2
  let a := Reg.OE_STATUS e
  let s := s.setFld a Fld.OE_STATUS_FEED_DARK (withBits (feed % 2) (feed % 2) 1 (s.fld a Fld.OE_STATUS_FEED_DARK))
  let f := 4 * (feed % 2)
  let s := ((List.range 16).flatMap fun k => lineReeds e f 4 k).foldl State.reedDark s
  ((List.range 16).map fun i => 32 * e + 4 * f + i).foldl (fun s p => (s.halves p).foldl (fun s lp => s.leaveUp lp 3) s) s

/-- The module's light goes out: LASING 0, and all four feeds are dark. -/
def State.lightsOut (s : State) (m : Nat) : State :=
  if s.flag (Reg.ELS_STATUS m) Fld.ELS_STATUS_LASING then
    (List.range 4).foldl (fun s f => s.darken m f) (s.setFld (Reg.ELS_STATUS m) Fld.ELS_STATUS_LASING 0)
  else s

/-- Line k is judged by its readings: below FAIL in every feed it fails, and takes its reeds on both engines with it (R411, R412). -/
def State.judgeLine (s : State) (m k : Nat) : State :=
  let a := Reg.ELS_STATUS m
  if bit k (s.fld a Fld.ELS_STATUS_LINE_FAIL) || !((List.range 4).all fun f => s.below m f k (s.failAt m)) then s
  else
    let s := s.setFld a Fld.ELS_STATUS_LINE_FAIL (s.fld a Fld.ELS_STATUS_LINE_FAIL + 2 ^ k)
    let s := (s.inc (Cnt.ELS_LINE_FAILS m)).irq (pg 11 m) 3
    let s := (s.logErr (pg 11 m) 0x0101 1 (locEls m k)).charge (objLine m k) 12 1
    (lineReeds (2 * m) 0 8 k ++ lineReeds (2 * m + 1) 0 8 k).foldl State.reedDark s

/-- A feed is judged by its readings (R411, R413): lines below FAIL in it but not in every feed lose their reeds on the fibres it lights, and a dark feed all
of them. What has been found before is not found again. -/
def State.judgeFeed (s : State) (m feed : Nat) : State :=
  let s := s.feedLow m feed
  let e := 2 * m + feed / 2
  if s.feedDark m feed then
    if bit (feed % 2) (s.fld (Reg.OE_STATUS e) Fld.OE_STATUS_FEED_DARK) then s
    else ((s.logErr (pg 9 e) 0x0102 1 (locOeAll e)).irq (pg 9 e) 5).darken m feed
  else
    let bad := (List.range 16).filter fun k =>
      s.below m feed k (s.failAt m) && !((List.range 4).all fun f => s.below m f k (s.failAt m)) &&
      (lineReeds e (4 * (feed % 2)) 4 k).any fun x => !s.causeLaser x.1 x.2
    match bad with
    | [] => s
    | k :: _ => (bad.flatMap fun k => lineReeds e (4 * (feed % 2)) 4 k).foldl State.reedDark ((s.logErr (pg 9 e) 0x0102 1 (locOeWl e k)).irq (pg 9 e) 5)

/-- Every feed of a module is judged. -/
def State.judgeFeeds (s : State) (m : Nat) : State := (List.range 4).foldl (fun s f => s.judgeFeed m f) s

/-- LINE_LOW (R411): one feed's reading of a line. -/
def execLineLow (m line feed power : Nat) (s : State) : Result := .next ((((s.setFeed m feed line power).lineWarn m).judgeLine m line).judgeFeeds m)

/-- Stores the readings of a line on the four feeds. -/
def State.setLine (s : State) (m line : Nat) (powers : List Nat) : State :=
  (List.range 4).foldl (fun s f => s.setFeed m f line (powers.getD f 0x8000 % 65536)) s

/-- LINE_FAIL (R411–R413): the readings of a line on the four feeds. -/
def execLineFail (m line : Nat) (powers : List Nat) (s : State) : Result :=
  .next ((((s.setLine m line powers).lineWarn m).judgeLine m line).judgeFeeds m)

/-- LINE_RESTORE (R412, R413): a line at or above WARN in every feed for 1 s. -/
def execLineRestore (m line : Nat) (powers : List Nat) (s : State) : Result :=
  let s := (s.elapse (usTicks 1000000)).setLine m line powers
  let s := s.lineWarn m
  let s := (List.range 4).foldl (fun s f =>
    let s := s.feedLow m f
    let a := Reg.OE_STATUS (2 * m + f / 2)
    if s.feedDark m f then s else s.setFld a Fld.OE_STATUS_FEED_DARK (withBits (f % 2) (f % 2) 0 (s.fld a Fld.OE_STATUS_FEED_DARK))) s
  if (List.range 4).any fun f => let v := s.fld (feedReg m f line) Fld.OE_FEED_PWR_POWER; v == 0x8000 || decide (dbm v < s.warnAt m) then .next s
  else
    let a := Reg.ELS_STATUS m
    let s := s.setFld a Fld.ELS_STATUS_LINE_FAIL (withBits line line 0 (s.fld a Fld.ELS_STATUS_LINE_FAIL))
    .next ((lineReeds (2 * m) 0 8 line ++ lineReeds (2 * m + 1) 0 8 line).foldl State.reedLit s)

/-- FEED_FAULT (R411–R413): the readings of a feed's sixteen lines. -/
def execFeedFault (m feed : Nat) (powers : List Nat) (s : State) : Result :=
  let s := (List.range 16).foldl (fun s k => s.setFeed m feed k (powers.getD k 0x8000 % 65536)) s
  .next (((List.range 16).foldl (fun s k => s.judgeLine m k) (s.lineWarn m)).judgeFeeds m)

/-- FEED_DARK_INTERLOCK (R414): every line of a feed below −20 dBm for 1 ms while the module lases. -/
def execFeedDarkInterlock (m feed : Nat) (s : State) : Result :=
  let a := Reg.ELS_STATUS m
  if s.flag a Fld.ELS_STATUS_LASING then
    let s := s.elapse (usTicks 1000)
    let s := (s.setFld (Reg.ELS_CTRL m) Fld.ELS_CTRL_LASER_EN 0).setFld a Fld.ELS_STATUS_INTERLOCK 1
    let s := (s.inc (Cnt.ELS_INTERLOCKS m)).irq (pg 11 m) 4
    let s := s.logErr (pg 11 m) 0x0103 1 (locElsAll m)
    .next ((s.darken m feed).lightsOut m)
  else .next s

/-- ELS_REMOVAL (R415). -/
def execElsRemoval (m : Nat) (s : State) : Result :=
  let a := Reg.ELS_STATUS m
  if s.flag a Fld.ELS_STATUS_PRESENT then
    let lasing := s.flag a Fld.ELS_STATUS_LASING
    let s := (s.setFld (Reg.ELS_CTRL m) Fld.ELS_CTRL_LASER_EN 0).lightsOut m
    let s := (s.setFld a Fld.ELS_STATUS_PRESENT 0).setFld a Fld.ELS_STATUS_ID_OK 0
    let s := (s.inc (Cnt.ELS_REMOVALS m)).irq (pg 11 m) 2
    .next (if lasing then s.logErr (pg 11 m) 0x0102 1 (locElsAll m) else s)
  else .next s

/-- ELS_INSERTION (R415): the module's identity memory is then read, which IDENTITY_READ_DONE ends. -/
def execElsInsertion (m : Nat) (s : State) : Result :=
  let a := Reg.ELS_STATUS m
  if s.flag a Fld.ELS_STATUS_PRESENT then .next s
  else .next (((s.setFld a Fld.ELS_STATUS_PRESENT 1).inc (Cnt.ELS_INSERTIONS m)).irq (pg 11 m) 2)

/-- LASER_EN becomes 1 unless R416 refuses it. -/
def State.laserOn (s : State) (m : Nat) : State :=
  let a := Reg.ELS_STATUS m
  if s.flag a Fld.ELS_STATUS_PRESENT && s.flag a Fld.ELS_STATUS_ID_OK && !s.flag a Fld.ELS_STATUS_INTERLOCK then
    s.setFld (Reg.ELS_CTRL m) Fld.ELS_CTRL_LASER_EN 1
  else s

/-- A write of ELS_CTRL (R415, R416, R471). -/
def State.elsCtrlWrite (s : State) (m v : Nat) : State :=
  let a := Reg.ELS_CTRL m
  let s := s.rwl (pg 11 m) (s.fld a Fld.ELS_CTRL_AUTO_ON != bits 1 1 v) fun s => s.setFld a Fld.ELS_CTRL_AUTO_ON (bits 1 1 v)
  let s := if bit 2 v then s.clearCnts (pg 11 m) else s
  if bit 0 v then (if s.flag a Fld.ELS_CTRL_LASER_EN then s else s.laserOn m)
  else (s.setFld a Fld.ELS_CTRL_LASER_EN 0).lightsOut m

/-- LASER_ENABLE (R416): a write of LASER_EN = 1 with AUTO_ON as it is. -/
def execLaserEnable (m : Nat) (s : State) : Result :=
  .next (s.onPage (pg 11 m) fun s => s.elsCtrlWrite m (withBits 2 2 0 (withBits 0 0 1 (s.rd (Reg.ELS_CTRL m)).toNat)))

/-- A ring that is off starts to sweep when its port is in use; the receive rings of an unused port park (R409, R425). -/
def State.ringStart (s : State) (p r : Nat) : State :=
  if s.role p = 0 then s.setRing p r false 4
  else
    let s := if s.ring p r true = 0 then s.setRing p r true 1 else s
    if s.ring p r false = 0 ∨ s.ring p r false = 4 then s.setRing p r false 1 else s

/-- LASER_LIGHT_ON (R415): light reaches the engines within 50 ms of LASER_EN; the reeds of dark feeds return to lock. -/
def execLaserLightOn (m : Nat) (s : State) : Result :=
  let a := Reg.ELS_STATUS m
  if s.flag (Reg.ELS_CTRL m) Fld.ELS_CTRL_LASER_EN && !s.flag a Fld.ELS_STATUS_LASING then
    let s := s.setFld a Fld.ELS_STATUS_LASING 1
    let failed := s.fld a Fld.ELS_STATUS_LINE_FAIL
    .next ([2 * m, 2 * m + 1].foldl (fun s e =>
      let s := s.setFld (Reg.OE_STATUS e) Fld.OE_STATUS_FEED_DARK 0
      (List.range 32).foldl (fun s l => (List.range 4).foldl (fun s r =>
        if bit (4 * (l % 4) + r) failed then s else (s.reedLit (32 * e + l, r)).ringStart (32 * e + l) r) s) s) s)
  else .next s

/-! ### Identity memories (R417–R421) -/

/-- Is a 256-byte record valid: its MAGIC, FORMAT and CRC (R418)? -/
def recordOk (magic : Nat) (r : List Byte) : Bool :=
  r.length == 256 && leAt 0 4 r == magic && leAt 4 2 r == 1 && leAt 252 4 r == crc32c (r.take 252)

/-- Stores a raw record in the 64 words from address a (R418). -/
def State.storeRecord (s : State) (a : Nat) (r : List Byte) : State :=
  (List.range 64).foldl (fun s w => s.wr (a + 4 * w) (BitVec.ofNat 32 (leAt (4 * w) 4 r))) s

/-- An engine's gates close: its reeds leave service and its links leave for DOWN or HOLD_DOWN (R421). -/
def State.closeEngine (s : State) (n : Nat) : State :=
  (List.range 32).foldl (fun s l =>
    let p := 32 * n + l
    let s := (List.range 4).foldl (fun s r => s.setLive p r false) s
    (s.halves p).foldl (fun s lp => (match (s.link lp).st with
      | .align => s.setLinkState lp .down
      | .hello => s.setLinkState lp .down
      | _ => s.leaveUp lp 3).reportUnlocked lp) s) s

/-- An identity memory read completes: the record is stored and judged; ID_READ commands that wait for it complete (R418–R421, R466). -/
def State.identityRead (s : State) (which : Nat) (r : List Byte) : State :=
  if which < 16 then
    let a := Reg.OE_STATUS which
    let good := recordOk 0x41464E54 r
    let s := (s.storeRecord (Reg.OE_ID_DATA which 0) r).setFlag a Fld.OE_STATUS_ID_OK good
    if good then s
    else
      let s := (s.irq (pg 9 which) 6).logErr (pg 9 which) 0x0103 1 (locOeAll which)
      if s.flag (Reg.OE_CTRL which) Fld.OE_CTRL_ID_OVERRIDE then s else s.closeEngine which
  else
    let m := which - 16
    let a := Reg.ELS_STATUS m
    let good := recordOk 0x534C4554 r && leAt 6 2 r == 0x0010 && leAt 32 2 r == 23400
    let was := s.flag a Fld.ELS_STATUS_ID_OK
    let s := (s.storeRecord (Reg.ELS_ID_DATA m 0) r).setFlag a Fld.ELS_STATUS_ID_OK good
    if good then (if !was && s.flag (Reg.ELS_CTRL m) Fld.ELS_CTRL_AUTO_ON then s.laserOn m else s)
    else (s.irq (pg 11 m) 5).logErr (pg 11 m) 0x0100 1 (locElsAll m)

/-- IDENTITY_READ_DONE: 0–15 an engine, 16–23 a module. -/
def execIdentityReadDone (which : Nat) (record : List Byte) (s : State) : Result :=
  let s := s.identityRead which record
  let good := if which < 16 then s.flag (Reg.OE_STATUS which) Fld.OE_STATUS_ID_OK else s.flag (Reg.ELS_STATUS (which - 16)) Fld.ELS_STATUS_ID_OK
  let (fin, rest) := s.optics.idReads.partition fun h => h.target == which
  .next (fin.foldl (fun s h => s.complete h 9 ⟨0, b2n good, 0, []⟩) { s with optics := { s.optics with idReads := rest } })

/-- ID_READ (R418, R466). The spec states no status for a TARGET above 23: a free one. -/
def execIdRead (h : CmdHdr) (s : State) : Result :=
  .next (s.runCmd h 0x0903 true fun s =>
    if 23 < h.target then failOpen s
    else ({ s with optics := { s.optics with idReads := s.optics.idReads ++ [h] } }, none))

/-! ### Rings (R422–R430) -/

/-- RING_IDENTITY_FAIL (R423–R425, R430): the ring parks to relock. `tone`: what the receive ring detected. -/
def execRingIdentityFail (port reed : Nat) (tx : Bool) (tone : Option Nat) (s : State) : Result :=
  let st := s.ring port reed tx
  let n := port / 32
  if (st ≠ 2 ∧ st ≠ 3) ∨ (!tx && (s.occupied port || !s.flag (Reg.OE_CTRL n) Fld.OE_CTRL_TONE_CHECK)) = true then .next s
  else
    let s := match tone with
      | some t => if tx then s else s.setFld (reedReg port reed) Fld.OE_REED_RX_TONE (t % 16)
      | none => s
    let s := (s.inc (Cnt.OE_ID_MISMATCH n)).logErr (pgOe port) 0x0101 0 (locRing port reed tx)
    .next ((s.relockBegins port reed tx).setLive port reed false)

/-- RELOCK_DONE (R425, R426, R468): a sweep ends locked, or counts a failure; three failures disable the reed in both directions. A reed
that lacks its comb line counts no failure. Only a ring that sweeps can end a sweep: not one that is OFF, the parked receive ring of an unused
port (R28, R409), or the receive ring of an occupied port, which holds (R430). -/
def execRelockDone (port reed : Nat) (tx locked : Bool) (tone : Nat) (s : State) : Result :=
  let st := s.ring port reed tx
  let a := reedReg port reed
  let n := port / 32
  if st != 1 || (!tx && s.occupied port) then .next s
  else if s.causeLaser port reed then .next (s.setRing port reed tx 0)
  else if locked then
    let s := s.setRing port reed tx 2
    let s := if tx then s else s.setFld a Fld.OE_REED_RX_TONE tone
    let s := { s with optics := { s.optics with lockAt := Tbl.set s.optics.lockAt 0 (4 * port + reed) (s.time.ticks + 1) } }
    let lp := s.reedPort port reed
    if s.reedLocked port reed && Tbl.getD s.optics.firstLock 0 lp == 0 then
      .next { s with optics := { s.optics with firstLock := Tbl.set s.optics.firstLock 0 lp (s.time.ticks + 1) } }
    else .next s
  else
    let f := s.fld a Fld.OE_REED_FAILS + 1
    let s := s.setFld a Fld.OE_REED_FAILS f
    if f < 3 then .next (s.relockBegins port reed tx)
    else
      let s := (s.setLive port reed false).chargeReed port reed 10
      let s := ((s.setRing port reed true 5).setRing port reed false 5).inc (Cnt.OE_REEDS_DISABLED n)
      .next ((s.irq (pgOe port) 3).logErr (pgOe port) 0x0100 1 (locRing port reed tx)).settleReeds

/-- RING_SLIP (R429): detuning over THRESH for longer than DWELL. -/
def execRingSlip (port reed : Nat) (tx : Bool) (s : State) : Result :=
  let n := port / 32
  if s.ring port reed tx ≠ 2 ∨ (!tx && s.occupied port) = true then .next s
  else
    let s := s.elapse (nsTicks (100 * s.fld (Reg.OE_SLIP n) Fld.OE_SLIP_DWELL))
    .next ((((s.setRing port reed tx 3).inc (Cnt.OE_SLIPS n)).irq (pgOe port) 4).chargeReed port reed 7)

/-- SLIP_END (R429, R430): 10 µs within THRESH; the receive ring of an occupied port keeps its state. -/
def execSlipEnd (port reed : Nat) (tx : Bool) (s : State) : Result :=
  if s.ring port reed tx = 3 ∧ (tx || !s.occupied port) = true then .next ((s.elapse (usTicks 10)).setRing port reed tx 2) else .next s

/-- FAILS_RESET (R426): 1 s in LOCKED or SLIP. -/
def execFailsReset (port reed : Nat) (s : State) : Result :=
  match Tbl.getD s.optics.lockAt 0 (4 * port + reed) with
  | 0 => .next s
  | t + 1 =>
    if s.reedLocked port reed then
      .next ((s.elapseToTick (t + usTicks 1000000)).setFld (reedReg port reed) Fld.OE_REED_FAILS 0)
    else .next s

/-- The margin test of a reed aborts, if one runs: the reed is not admitted (R468). -/
def State.abortReed (s : State) (p r : Nat) : State :=
  let f := fun (t : MarginTest) =>
    if lp2p t.lport == p && bit r t.reeds then
      { t with stepping := bitsOf ((bitList 4 t.stepping).filter (· != r)), aborted := bitsOf ((bitList 4 t.aborted).filter (· != r) ++ [r]) }
    else t
  { s with optics := { s.optics with tests := s.optics.tests.map f } }

/-- REED_LIGHT_LOSS (R437): received light lost for 10 µs, except while the port is occupied or, as the far end of a calibration loop, awaits no light
(R161). A test of the reed aborts (R468). -/
def execReedLightLoss (port reed : Nat) (s : State) : Result :=
  if s.timersHeld port then .next s else .next ((((s.elapse (usTicks 10)).setLive port reed false).setGate port reed false).abortReed port reed)

/-- CX_POWER_PUBLISH (R428, R840): every 10 µs the power is published, and each heater loop with FF_EN takes its feed-forward, in units of
0.1 µW; `settled`: the loops take this as their settled sample. -/
def execCxPowerPublish (power : Nat) (settled : Bool) (s : State) : Result :=
  let s := (s.nextSample 1).setFld Reg.PWR_CX_POWER Fld.PWR_CX_POWER_POWER power
  let term := fun (n : Nat) =>
    if s.flag (Reg.OE_CTRL n) Fld.OE_CTRL_FF_EN then
      toSigned 16 (s.fld (Reg.OE_FF_COEF n) Fld.OE_FF_COEF_COEF) * ((power : Int) - s.optics.pref)
    else 0
  .next { s with optics := { s.optics with
    heater := (List.range 16).foldl (fun t n => Tbl.set t 0 n (term n)) s.optics.heater
    pref := if settled then power else s.optics.pref } }

/-! ### Margin tests (R432–R437) -/

/-- A MARGIN frame (R433): OP, REEDS, ATTEN, the four ERRORS, the four MARGINS. -/
def State.sendMargin (s : State) (lp op reeds atten : Nat) (errors margins : List Nat) : State :=
  s.control lp (marginBody op reeds atten errors margins)

/-- A MARGIN frame of one OP arrives (R433): `f` acts with its REEDS and ATTEN; of its body the errors and the margins are read where they count. -/
def State.marginRx (s : State) (lp op : Nat) (header body : List Byte) (fecBad : Bool) (f : Nat → Nat → State → State) : State :=
  s.controlRx lp 6 header body fecBad fun s => if beAt 4 1 body = op then f (beAt 5 1 body % 16) (beAt 6 1 body) s else s

/-- Applies attenuation to the reeds of a mask. -/
def State.attenuate (s : State) (p mask v : Nat) : State :=
  (bitList 4 mask).foldl (fun s r => s.setFld (reedReg p r) Fld.OE_REED_ATTEN v) s

/-- The test of a logical port, and the tests without it. -/
def State.testOf (s : State) (lp : Nat) : Option (MarginTest × List MarginTest) := takeFirst (fun (t : MarginTest) => t.lport == lp) s.optics.tests
def State.setTests (s : State) (l : List MarginTest) : State := { s with optics := { s.optics with tests := l } }

/-- Starts a margin test of the reeds of a mask: they leave the live set, attenuation 0, STEP (R434). -/
def State.startTest (s : State) (lp mask : Nat) : State :=
  let p := lp2p lp
  let s := (bitList 4 mask).foldl (fun s r => (s.setLive p r false).setGate p r true) s
  let s := (s.attenuate p mask 0).inc (Cnt.OE_MARGIN_RUNS (p / 32))
  let s := s.setTests (s.optics.tests ++ [⟨lp, mask, mask, 0, List.replicate 4 0xFF, 0, s.time.ticks⟩])
  s.sendMargin lp 1 mask 0 [] []

/-- Judges reed r by its margin (R432): it joins the live set, or is marked LOW_MARGIN. -/
def State.judgeReed (s : State) (p r m : Nat) : State :=
  let a := reedReg p r
  let n := p / 32
  let s := ((s.setFld a Fld.OE_REED_MARGIN m).setFld a Fld.OE_REED_PROVISIONAL 0).setFld a Fld.OE_REED_ATTEN 0
  if s.fld (Reg.OE_MARGIN_MIN n) Fld.OE_MARGIN_MIN_MIN ≤ m then (s.setFld a Fld.OE_REED_LOW_MARGIN 0).setLive p r true
  else
    let s := (s.setFld a Fld.OE_REED_LOW_MARGIN 1).setLive p r false
    ((s.inc (Cnt.OE_MARGIN_LOW n)).logErr (pg 9 n) 0x0104 0 (locRing p r true)).chargeReed p r 9

/-- The MARGIN_RUN commands with no test left on their port complete, RESULT holding the margins of the reeds tested (R466). -/
def State.settleRuns (s : State) : State :=
  let busy := fun (c : CmdHdr × Nat × Nat) => s.optics.tests.any fun t => lp2p t.lport == c.2.1
  let (rest, fin) := s.optics.runCmds.partition busy
  let result := fun (c : CmdHdr × Nat × Nat) =>
    leNat ((List.range 4).map fun r => if bit r c.2.2 then BitVec.ofNat 8 (s.fld (reedReg c.2.1 r) Fld.OE_REED_MARGIN) else 0xFF)
  fin.foldl (fun s c => s.complete c.1 9 ⟨0, result c, 0, []⟩) { s with optics := { s.optics with runCmds := rest } }

/-- The reeds of a logical port that are locked, neither DISABLED nor lacking their line. -/
def State.testable (s : State) (lp : Nat) : List Nat :=
  let p := lp2p lp
  (s.reedsOf lp).filter fun r => s.reedLocked p r && !s.disabled p r && !s.causeLaser p r

/-- MARGIN_TEST_START (R432): once the link is up, every locked reed that is not live is tested; then each PROVISIONAL reed while another
stays live. A LOW_MARGIN reed is tested again once each time the link has entered UP. -/
def execMarginTestStart (lport : Nat) (s : State) : Result :=
  let p := lp2p lport
  if (s.link lport).st ≠ .up ∨ (s.testOf lport).isSome = true then .next s else
  let again := Tbl.getD s.optics.upFresh false lport
  let low := fun r => s.flag (reedReg p r) Fld.OE_REED_LOW_MARGIN
  let waiting := fun r => s.optics.retries.any fun x => x.1 == lport && bit r x.2.1
  let m := (s.testable lport).filter fun r => !s.flag (reedReg p r) Fld.OE_REED_LIVE && (again || !low r) && !waiting r
  let s := { s with optics := { s.optics with upFresh := Tbl.set s.optics.upFresh false lport false } }
  if !m.isEmpty then .next (s.startTest lport (bitsOf m))
  else
    match (s.liveReeds lport).find? fun r => s.flag (reedReg p r) Fld.OE_REED_PROVISIONAL with
    | some r => if 1 < (s.liveReeds lport).length then .next (s.startTest lport (2 ^ r)) else .next s
    | none => .next s

/-- MARGIN_STEP_RX (R435): the checkers clear and the dwell begins. -/
def execMarginStepRx (lport : Nat) (header body : List Byte) (fecBad : Bool) (s : State) : Result :=
  .next (s.marginRx lport 1 header body fecBad fun reeds atten s =>
    { s with optics := { s.optics with farTests := Tbl.put s.optics.farTests lport (256 * reeds + atten + 1) } })

/-- MARGIN_DWELL_END (R435): 20 µs, then the REPORT. -/
def execMarginDwellEnd (lport : Nat) (errors : List Nat) (s : State) : Result :=
  match Tbl.getD s.optics.farTests 0 lport with
  | 0 => .next s
  | x + 1 =>
    let s := s.elapse (usTicks 20)
    let m := x / 256
    let es := (List.range 4).map fun r => if bit r m then errors.getD r 0 % 2 ^ 32 else 0
    .next (({ s with optics := { s.optics with farTests := Tbl.del s.optics.farTests lport } }).sendMargin lport 2 m (x % 256) es [])

/-- The far end's report of a step (R434): reeds with 510 errors, or at attenuation 48, stop at their margin; the test ends or goes a step up. -/
def State.marginReport (s : State) (lport reeds atten : Nat) (errors : List Nat) : State :=
  match s.testOf lport with
  | none => s
  | some (t, rest) =>
    if t.reeds ≠ reeds ∨ t.s ≠ atten then s
    else
      let p := lp2p lport
      let stops := (bitList 4 t.stepping).filter fun r => decide (510 ≤ errors.getD r 0) || t.s == 48
      let margins := (List.range 4).map fun r => if stops.contains r then t.s - 1 else t.margins.getD r 0xFF
      let left := (bitList 4 t.stepping).filter fun r => !stops.contains r
      if left.isEmpty then
        let s := s.sendMargin lport 3 t.reeds 0 [] ((List.range 4).map fun r => if bit r t.reeds && !bit r t.aborted then margins.getD r 0 else 0)
        let s := (bitList 4 t.reeds).foldl (fun s r => if bit r t.aborted then s.setFld (reedReg p r) Fld.OE_REED_ATTEN 0 else s.judgeReed p r (margins.getD r 0))
          (s.setTests rest)
        s.settleRuns.settleReeds
      else
        let s := (s.attenuate p (bitsOf stops) 0).attenuate p (bitsOf left) (t.s + 1)
        let s := s.setTests (rest ++ [{ t with stepping := bitsOf left, s := t.s + 1, margins := margins, sentAt := s.time.ticks }])
        s.sendMargin lport 1 t.reeds (t.s + 1) [] []

/-- MARGIN_REPORT_RX (R434). -/
def execMarginReportRx (lport : Nat) (header body : List Byte) (fecBad : Bool) (s : State) : Result :=
  .next (s.marginRx lport 2 header body fecBad fun reeds atten s =>
    s.marginReport lport reeds atten ((List.range 4).map fun r => beAt (8 + 4 * r) 4 body))

/-- MARGIN_DONE_RX (R434): the far end's margins. -/
def execMarginDoneRx (lport : Nat) (header body : List Byte) (fecBad : Bool) (s : State) : Result :=
  .next (s.marginRx lport 3 header body fecBad fun reeds _ s =>
    let v := leNat ((List.range 4).map fun r => if bit r reeds then BitVec.ofNat 8 (beAt (24 + r) 1 body) else 0)
    { s with optics := { s.optics with farMargins := Tbl.put s.optics.farMargins lport v } })

/-- MARGIN_REPORT_TIMEOUT (R434, R467): no REPORT within 100 µs of the STEP; a MARGIN_RUN that needs it ends with NO_REPORT. -/
def execMarginReportTimeout (lport : Nat) (s : State) : Result :=
  match s.testOf lport with
  | none => .next s
  | some (t, rest) =>
    let p := lp2p lport
    let s := s.elapseToTick (t.sentAt + usTicks 100)
    let s := (s.setTests rest).attenuate p t.reeds 0
    let s := { s with optics := { s.optics with retries := s.optics.retries ++ [(lport, t.reeds, s.time.ticks)] } }
    let (fin, keep) := s.optics.runCmds.partition fun c => c.2.1 == p
    .next (fin.foldl (fun s c => s.complete c.1 9 ⟨0x0102, 0, 0, []⟩) { s with optics := { s.optics with runCmds := keep } })

/-- MARGIN_RETRY (R434): 1 s after an abort. -/
def execMarginRetry (lport : Nat) (s : State) : Result :=
  match takeFirst (fun (x : Nat × Nat × Nat) => x.1 == lport) s.optics.retries with
  | none => .next s
  | some ((_, m, t), rest) =>
    let s := { s with optics := { s.optics with retries := rest } }.elapseToTick (t + usTicks 1000000)
    let again := bitsOf ((bitList 4 m).filter fun r => (s.testable lport).contains r)
    if (s.link lport).st == .up && (s.testOf lport).isNone && again != 0 then .next (s.startTest lport again) else .next s

/-- Does a port have the unused role or not exist (R467 NO_LINK)? -/
def State.noLink (s : State) (p : Nat) : Bool := decide (511 < p) || s.role p == 0
/-- The live reeds of a physical port. -/
def State.livePort (s : State) (p : Nat) : List Nat := (List.range 4).filter fun r => s.flag (reedReg p r) Fld.OE_REED_LIVE

/-- REED_RETRY (R425, R432, R466, R467): the named reeds relock, and complete the command when each is live, LOW_MARGIN or DISABLED. -/
def execReedRetry (h : CmdHdr) (mask : Nat) (s : State) : Result :=
  .next (s.runCmd h 0x0901 true fun s =>
    let p := h.target
    let rs := bitList 4 mask
    let live := s.livePort p
    if s.noLink p then fail s 0x0100
    else if !live.isEmpty && live.all (rs.contains ·) then fail s 0x0101
    else
      let s := rs.foldl (fun s r =>
        let a := reedReg p r
        let s := (s.setFld a Fld.OE_REED_FAILS 0).setFld a Fld.OE_REED_LOW_MARGIN 0
        let s := s.setLive p r false
        ((s.relockBegins p r true).setRing p r false 1).setGate p r true) s
      if rs.isEmpty then ok s
      else ({ s with optics := { s.optics with reedCmds := s.optics.reedCmds ++ [(h, p, mask % 16)] } }, none))

/-- MARGIN_RUN (R434, R466, R467): tests the named reeds that are locked; on a split port each half runs its own test. -/
def execMarginRun (h : CmdHdr) (mask : Nat) (s : State) : Result :=
  .next (s.runCmd h 0x0902 true fun s =>
    let p := h.target
    if s.noLink p then fail s 0x0100
    else
      let named := fun lp => (s.testable lp).filter fun r => bit r mask
      let lps := (s.halves p).filter fun lp => !(named lp).isEmpty && (s.testOf lp).isNone
      let all := lps.flatMap named
      let live := s.livePort p
      if !live.isEmpty && live.all (all.contains ·) then fail s 0x0101
      else if all.isEmpty then ok s 0xFFFFFFFF
      else
        let s := lps.foldl (fun s lp => s.startTest lp (bitsOf (named lp))) s
        ({ s with optics := { s.optics with runCmds := s.optics.runCmds ++ [(h, p, bitsOf all)] } }, none))

/-- OE_CNT_CLEAR (R469): a write of OE_CTRL with CNT_CLEAR and the other fields as they are. -/
def execOeCntClear (n : Nat) (s : State) : Result := .next (s.onPage (pg 9 n) fun s => s.clearCnts (pg 9 n))

/-- ELS_CNT_CLEAR (R471): a write of ELS_CTRL with CNT_CLEAR and the other fields as they are. -/
def execElsCntClear (m : Nat) (s : State) : Result := .next (s.onPage (pg 11 m) fun s => s.clearCnts (pg 11 m))

end Sys2Proof.Machine
end

