-- ==== Sys2Proof/Machine/Causeway.lean ====
section
/-! DEFINITION. Causeway packages and standing causeways (chapter 9, R439–R467). -/
namespace Sys2Proof.Machine

/-! ### Legality (R440–R442, R460) -/

/-- May a pair of local ports of engine n be joined: one wavelength group (R440), both ports leaf-facing (R442)? -/
def State.pairOk (s : State) (n : Nat) (x : Nat × Nat) : Bool :=
  decide (x.1 < 32) && decide (x.2 < 32) && x.1 % 4 == x.2 % 4 && s.role (32 * n + x.1) == 1 && s.role (32 * n + x.2) == 1

/-- Is a map legal on engine n (R440–R442): each port at most one destination? -/
def State.mapOk (s : State) (n m : Nat) : Bool :=
  let ps := mapPairs m
  ps.all (s.pairOk n) && (ps.map (·.2)).eraseDups.length == ps.length

/-- The elements a list of maps uses. -/
def mapsElements (ms : List Nat) : List Nat := (ms.flatMap fun m => (mapPairs m).flatMap pairElements).eraseDups

/-- The standing causeways of an engine, those being built among them, as map bytes. -/
def EngSt.standingAll (e : EngSt) : List Nat := e.standing :: (e.builds.filter (·.set)).map fun b => (32 + b.dst) * 2 ^ (8 * b.src)
/-- The local ports of standing causeways. -/
def EngSt.standingPorts (e : EngSt) : List Nat := e.standingAll.flatMap mapPorts

/-- The elements armed: those of the active bank, of the shadow bank from its load until the banks change, and of the standing causeways (R460, R463,
R464). -/
def State.armed (s : State) (n : Nat) : List Nat :=
  mapsElements (((s.cwActive n).maps ++ if (s.eng n).shadowArmed then (s.cwShadow n).maps else []).map (·.2) ++ (s.eng n).standingAll)

/-! ### The causeway package (R461–R463) -/

/-- An engine block: engine and its maps; none where the blocks do not fit the package or hold a non-zero reserved field. -/
def cwBlocks (img : List Byte) : Nat → Nat → Option (List (Nat × List Nat))
  | 0, off => if off = img.length then some [] else none
  | n + 1, off =>
    let m := leAt (off + 1) 1 img
    if m = 0 ∨ 64 < m ∨ !allZero (slice (off + 2) 6 img) ∨ img.length < off + 8 + 32 * m then none
    else
      let maps := (List.range m).map fun i => leAt (off + 8 + 32 * i) 32 img
      let clean := (List.range (32 * m)).all fun i => decide (leAt (off + 8 + i) 1 img < 64)
      if !clean then none
      else (cwBlocks img n (off + 8 + 32 * m)).map fun r => (leAt off 1 img, maps) :: r

/-- The bank a block loads. -/
def cwBankOf (gen : Nat) (maps : List Nat) : CwBank := ⟨gen, maps.zipIdx.map fun x => (x.2, x.1)⟩

/-- The first check of R463 that a package at a staging offset fails, or its blocks, GEN, TAKEOVER and CHECK. -/
def State.cwPackage (s : State) (off : Nat) : Except Nat (List (Nat × List Nat) × Nat × Nat × Nat) :=
  let hd := s.staging off 64
  if off % 4096 ≠ 0 ∨ badHeader hd 0x4B505743 16 64 then .error 0x0100 else
  let img := s.staging off (leAt 20 4 hd)
  match cwBlocks img (leAt 6 2 hd) 64 with
  | none => .error 0x0100
  | some bs =>
    let es := bs.map (·.1)
    if crc32c (sansCheck img) ≠ leAt 24 4 img then .error 0x0101
    else if es.eraseDups.length ≠ es.length ∨ es.any (fun e => decide (15 < e)) then .error 0x0107
    else if bs.any fun b => b.2.any fun m => !s.mapOk b.1 m then .error 0x0102
    else if bs.any fun b => b.2.any fun m => (mapPorts m).any fun l => (s.eng b.1).standingPorts.contains l then .error 0x0105
    else if bs.any (fun b =>
        decide (768 < (mapsElements ((s.cwActive b.1).maps.map (·.2) ++ b.2 ++ (s.eng b.1).standingAll)).length)) then .error 0x0103
    else if fromShort (leAt 8 8 img) < s.time.now + 100000 * 2 ^ 32 then .error 0x0104
    else .ok (bs, leAt 16 1 img, leAt 8 8 img, leAt 24 4 img)

/-- An engine block commits into the engine's shadow bank with a pending takeover; elements found faulty are tried again. -/
def State.commitMaps (s : State) (gen takeover check : Nat) (b : Nat × List Nat) : State :=
  let a := Reg.CW_STATUS b.1
  let k := 1 - s.fld a Fld.CW_STATUS_ACTIVE_BANK
  let s := { s with optics := { s.optics with checks := Tbl.set s.optics.checks 0 (2 * b.1 + k) check } }
  let s := s.setEng b.1 { (s.eng b.1).setBank k (cwBankOf gen b.2) with faulty := [], shadowArmed := true }
  let s := (s.setFld a Fld.CW_STATUS_SHADOW_VALID 1).setFld a Fld.CW_STATUS_TAKEOVER_PENDING 1
  s.wrWide (Reg.CW_TAKEOVER b.1) takeover 2

/-- CW_LOAD (R461–R464). -/
def execCwLoad (h : CmdHdr) (off : Nat) (s : State) : Result :=
  .next (s.runCmd h 0x0A01 true fun s =>
    if h.target ≠ 0 then fail s 0x0107
    else match s.cwPackage off with
      | .error st => fail s st
      | .ok (bs, g, t, c) => ok (bs.foldl (fun s b => s.commitMaps g t c b) s))

/-! ### Standing causeways (R458–R460) -/

/-- Is a port in UP or SLUICE, and not drained with its queues of TC0–TC6 empty (R459)? -/
def State.portBusy (s : State) (p : Nat) : Bool :=
  let up := (s.link (2 * p)).st.isUp || (s.link (2 * p + 1)).st.isUp
  let queued := s.sw.flights.any fun f => decide (f.pkt.cls ≤ 6) && (f.stage == .queued (2 * p) || f.stage == .queued (2 * p + 1))
  up && !(s.flag (Reg.PT_PORT_CFG (p / 8) (p % 8)) Fld.PT_PORT_CFG_DRAIN && !queued)

/-- The status that refuses a standing causeway, if one does (R459, R460). -/
def State.standingRefused (s : State) (n src dst : Nat) : Option Nat :=
  let e := s.eng n
  let inMaps := fun l => (e.bank0.maps ++ e.bank1.maps).any fun m => (mapPorts m.2).contains l
  let hairpin := src == dst && decide (src < 32) && s.role (32 * n + src) == 2
  if 31 < src ∨ 31 < dst then some 0x0102
  else if s.portBusy (32 * n + src) ∨ s.portBusy (32 * n + dst) then some 0x0106
  else if inMaps src ∨ inMaps dst ∨ e.standingPorts.contains src ∨ e.standingPorts.contains dst then some 0x0105
  else if !(s.pairOk n (src, dst) || hairpin) then some 0x0102
  else if 768 < (s.armed n ++ pairElements (src, dst)).eraseDups.length then some 0x0103
  else none

/-- CW_STANDING (R458–R460, R466): a thermal build or clearance starts, and STANDING_BUILD_DONE ends it. Clearing what does not stand
completes at once. The spec states no status for another ACTION: a free one. -/
def execCwStanding (h : CmdHdr) (src dst action : Nat) (s : State) : Result :=
  .next (s.runCmd h 0x0A02 true fun s =>
    let n := h.target
    let build := fun (set : Bool) => (s.setEng n { s.eng n with builds := (s.eng n).builds ++ [⟨src, dst, set, some h, s.time.ticks⟩] }, (none : Option Cmpl))
    if 15 < n then fail s 0x0107
    else if action = 1 then
      match s.standingRefused n src dst with
      | some st => fail s st
      | none => build true
    else if action = 0 then
      if (mapPairs (s.eng n).standing).contains (src, dst) then build false else ok s
    else failOpen s)

/-- STANDING_BUILD_DONE (R458): the oldest build or clearance of an engine is through, 40 µs after its start. -/
def execStandingBuildDone (n : Nat) (s : State) : Result :=
  match (s.eng n).builds with
  | [] => .next s
  | b :: rest =>
    let s := s.elapseToTick (b.startedAt + usTicks 40)
    let e := s.eng n
    let st := withBits (8 * b.src + 7) (8 * b.src) (if b.set then 32 + b.dst else 0) e.standing
    let s := s.setEng n { e with standing := st, builds := rest }
    let s := if b.set then s.beginDark n [b.src, b.dst] else s.endDark n s.nowC [b.src, b.dst]
    let s := (s.inc (Cnt.CW_BUILDS n)).irq (pg 10 n) 4
    .next (match b.hdr with | some h => s.complete h 0x0A ⟨0, 0, 0, []⟩ | none => s)

/-- CW_CANCEL (R465). -/
def execCwCancel (h : CmdHdr) (s : State) : Result :=
  .next (s.runCmd h 0x0A03 true fun s =>
    if 15 < h.target then fail s 0x0107 else ok (s.setFld (Reg.CW_STATUS h.target) Fld.CW_STATUS_TAKEOVER_PENDING 0))

/-- CW_CNT_CLEAR (R470): a write of CW_CTRL with CNT_CLEAR and SUPPRESS_EN as it is. -/
def execCwCntClear (n : Nat) (s : State) : Result := .next (s.onPage (pg 10 n) fun s => s.clearCnts (pg 10 n))

end Sys2Proof.Machine
end

