-- ==== Sys2Proof/Machine/Fwt.lean ====
section
/-! DEFINITION. The commands of the forwarding tables (chapter 6): updates, reads, learned moves and the shadow comparison. -/
namespace Sys2Proof.Machine

/-! ### Updates (R309–R313, R858) -/

/-- An update command with TARGET 0: refused with BAD_TARGET else, and otherwise its own effect (R312, R313). -/
def State.update (s : State) (h : CmdHdr) (opcode : Nat) (body : State → State × Option Cmpl) : State :=
  s.runCmd h opcode true fun s => if h.target ≠ 0 then fail s 0x0105 else body s

/-- The status that R858 gives the members of a LEAF_SET, the first that fails deciding: none when all pass. -/
def State.leafCheck (s : State) (leaf : Nat) : List Nat → List Nat → Option Nat
  | _, [] => none
  | before, m :: ms =>
    if 1023 < m ∨ s.role (lp2p m) ≠ 1 ∨ (m % 2 = 1 ∧ !s.isSplit (lp2p m)) then some 0x0101
    else if before.contains m ∨ (rowOfPort { s.pipe 0 with row := Tbl.del (s.pipe 0).row leaf } m).isSome then
      some 0x0100
    else State.leafCheck s leaf (before ++ [m]) ms

/-- LEAF_SET (R293, R294, R858). -/
def execLeafSet (h : CmdHdr) (leaf count : Nat) (members : List Nat) (s : State) : Result :=
  .next (s.update h 0x0601 fun s =>
    if s.leaves ≤ leaf ∨ 512 / s.leaves < count then fail s 0x0104
    else
      let ms := (List.range count).map fun k => members.getD k 0
      match s.leafCheck leaf [] ms with
      | some st => fail s st
      | none => ok (s.commit (fun p => { p with row := Tbl.set p.row 0 leaf (mkRow ms) }) id))

/-- Sets n generation bytes of a leaf from endpoint a. -/
def Pipe.setGens (leaf a n g : Nat) (p : Pipe) : Pipe :=
  { p with epgen := (List.range n).foldl (fun t i => Tbl.set t 0 (256 * leaf + a + i) g) p.epgen }

/-- EPGEN_SET (R312, R858): a count of 0 means 256. -/
def execEpgenSet (h : CmdHdr) (leaf first count gen : Nat) (s : State) : Result :=
  .next (s.update h 0x0602 fun s =>
    let n := if count = 0 then 256 else count
    if s.leaves ≤ leaf ∨ 256 < first + n then fail s 0x0104
    else
      let changed := (List.range n).any fun i => (s.pipe 0).gen leaf (first + i) != gen
      let s := s.commit (Pipe.setGens leaf first n gen) id
      ok (if changed then s.genChanged else s))

/-- The generation an override names for a key, if there is one. -/
def Pipe.ovrGenOf (p : Pipe) (key : Nat) : Option Nat := (ovrLookup p key).map fun h => ovrGen h.2.2

/-- Inserts an override in every pipeline (R298–R300, R859): the status, was it stashed. -/
def State.ovrInsert (s : State) (key kind gen target : Nat) : Nat × Bool × State :=
  let e := mkOvr kind gen target key
  let old := (s.pipe 0).ovrGenOf key
  let done := fun (s : State) => let s := s.commit (insertOvrPipe e) id; if old = some gen then s else s.genChanged
  let failed := fun (s : State) => (s.inc (Cnt.FWT_INSERT_FAIL 0)).irq (pg 6 0) 3
  match insertOvr (s.pipe 0) e with
  | .bucket _ => (0, false, done s)
  | .stashed _ i =>
    let s := failed (done s)
    let s := { s with fwt := { s.fwt with stashAge := s.fwt.stashAge ++ [i] } }
    (0, true, s.logErr (pg 6 0) 0x0102 0 (locTile 0 31))
  | .full => (0x0102, false, failed s)

/-- Is an OVR_INSERT out of bounds (R858)? -/
def State.ovrBad (s : State) (kind target : Nat) : Bool :=
  decide (3 ≤ kind) || (kind == 0 && decide (s.leaves ≤ target)) || (kind == 1 && decide (1023 < target)) || (kind == 2 && target != 0)

/-- OVR_INSERT (R298–R300). -/
def execOvrInsert (h : CmdHdr) (feid kind gen target : Nat) (s : State) : Result :=
  .next (s.update h 0x0603 fun s =>
    if s.ovrBad kind target then fail s 0x0104
    else
      let (st, stashed, s) := s.ovrInsert (feidKey feid) kind gen target
      (s, some ⟨st, b2n stashed, 0, []⟩))

/-- Removes an override in every pipeline; where that frees a bucket way, the oldest stash entry is retried in the same commit (R301):
was it found. -/
def State.ovrDelete (s : State) (key : Nat) : Bool × State :=
  let (_, freed, st) := deleteOvr key (s.pipe 0)
  let found := freed || st.isSome
  let del := fun (p : Pipe) => (deleteOvr key p).1
  let oldest := if freed then s.fwt.stashAge.head? else none
  let moved := match oldest with | some i => (retryStash i (del (s.pipe 0))).isSome | none => false
  let f := fun (p : Pipe) => match oldest with | some i => (retryStash i (del p)).getD (del p) | none => del p
  let s := s.commit f id
  let age := s.fwt.stashAge.filter fun i => some i != st && !(moved && some i == oldest)
  let s := { s with fwt := { s.fwt with stashAge := age } }
  (found, if found then s.genChanged else s)

/-- OVR_DELETE (R301, R312). -/
def execOvrDelete (h : CmdHdr) (feid : Nat) (s : State) : Result :=
  .next (s.update h 0x0604 fun s =>
    let (found, s) := s.ovrDelete (feidKey feid)
    ok s (b2n found))

/-- Clears HIT of 64 override entries. -/
def Pipe.clearHits (first : Nat) (p : Pipe) : Pipe :=
  { p with ovr := (List.range 64).foldl (fun t e => Tbl.set t 0 (first + e) (withBits 62 62 0 (entryAt t (first + e)))) p.ovr }

/-- OVR_AGE (R302, R858). -/
def execOvrAge (h : CmdHdr) (first : Nat) (s : State) : Result :=
  .next (s.update h 0x0605 fun s =>
    if first % 64 ≠ 0 ∨ 32704 < first then fail s 0x0104
    else
      let hit := fun e => s.fwt.pipes.any fun p => bit 62 (entryAt p.ovr (first + e))
      let r := bitsOf ((List.range 64).filter hit)
      ok (s.commit (Pipe.clearHits first) id) r)

/-- The generation and kind of a group in the tables, if it is there. -/
def State.groupGen (s : State) (g : Nat) : Option Nat := (s.group 0 g).map grpGen

/-- GRP_SET (R303, R304, R858): an insertion that finds no path counts INSERT_FAIL (R298). -/
def execGrpSet (h : CmdHdr) (group kind gen desc base count : Nat) (s : State) : Result :=
  .next (s.update h 0x0606 fun s =>
    let g := group % 2 ^ 20
    if 3 ≤ kind ∨ count = 0 ∨ 131072 < count ∨ 262144 < base + count then fail s 0x0104
    else
      let e := mkGrp kind gen g base count (if kind = 0 then desc else 0)
      match insertEntry grpKind (s.dieTbl 0).grp e with
      | none => fail ((s.inc (Cnt.FWT_INSERT_FAIL 0)).irq (pg 6 0) 3) 0x0102
      | some _ =>
        let old := s.groupGen g
        let s := s.commit id fun d => { d with grp := (insertEntry grpKind d.grp e).getD d.grp }
        ok (if old = some gen then s else (s.groupChanged g).genChanged))

/-- GRP_DELETE (R312). -/
def execGrpDelete (h : CmdHdr) (group : Nat) (s : State) : Result :=
  .next (s.update h 0x0607 fun s =>
    let g := group % 2 ^ 20
    let had := (s.groupGen g).isSome
    let s := s.commit id fun d => match findKey grpKind d.grp g with | some i => { d with grp := Tbl.del d.grp i } | none => d
    ok (if had then (s.groupChanged g).genChanged else s))

/-- Do n member slots from a overlap the slots of a valid group entry (R309)? -/
def State.slotsUsed (s : State) (a n : Nat) : Bool :=
  (s.dieTbl 0).grp.any fun x => grpKind.used x.2 && decide (grpBase x.2 < a + n) && decide (a < grpBase x.2 + grpCount x.2) && decide (0 < n)

/-- MEMBER_LOAD (R309, R312). -/
def execMemberLoad (h : CmdHdr) (off first count : Nat) (s : State) : Result :=
  .next (s.update h 0x0608 fun s =>
    if 262144 < first + count ∨ s.slotsUsed first count then fail s 0x0104
    else
      let feid := fun i => leAt 0 4 (s.staging (off + 4 * i) 4)
      ok (s.commit id fun d => { d with member := (List.range count).foldl (fun t i => Tbl.set t 0 (first + i) (feid i)) d.member }))

/-! ### Images (R317) -/

/-- The values f gives for the numbers below n, those that are not 0. -/
def tblOf (n : Nat) (f : Nat → Nat) : Tbl Nat := (List.range n).filterMap fun i => if f i = 0 then none else some (i, f i)

/-- A pipeline's tables as an image gives them, HIT zero; the spray pointers stay. -/
def Pipe.ofImage (rd : Nat → Nat → Nat) (p : Pipe) : Pipe :=
  { p with
    row := tblOf 512 fun l => rd (512 * l) 16
    epgen := tblOf 131072 fun n => rd (512 * (n / 256) + 16 + n % 256) 1
    ovr := tblOf 32768 fun n => withBits 62 62 0 (rd (0x40000 + 8 * n) 8)
    stash := tblOf 16 fun n => withBits 62 62 0 (rd (0x80000 + 8 * n) 8) }

/-- A die's tables as an image gives them. -/
def DieTbl.ofImage (rd : Nat → Nat → Nat) (d : DieTbl) : DieTbl :=
  { d with
    grp := tblOf 16384 fun n => rd (0x90000 + 16 * n) 16
    member := tblOf 262144 fun n => rd (0x100000 + 4 * n) 4 }

/-- TABLE_LOAD (R312, R317): every table from the image, in one commit. An offset that is not 2 MiB aligned is out of bounds. -/
def execTableLoad (h : CmdHdr) (off crc : Nat) (s : State) : Result :=
  .next (s.update h 0x0609 fun s =>
    let img := s.staging off 0x200000
    if off % 0x200000 ≠ 0 then fail s 0x0104
    else if crc32c img ≠ crc then fail s 0x0103
    else
      let rd := fun a n => leAt a n img
      let gens := fun (s : State) => (s.dieTbl 0).grp.map fun x => (grpKind.key x.2, grpGen x.2)
      let before := gens s
      let s := s.commit (Pipe.ofImage rd) (DieTbl.ofImage rd)
      let s := { s with fwt := { s.fwt with stashAge := (s.pipe 0).stash.map (·.1) } }
      let after := gens s
      let changed := (before.filter fun x => !after.contains x) ++ (after.filter fun x => !before.contains x)
      ok ((changed.foldl (fun s x => s.groupChanged x.1) s).genChanged))

/-- The 8 bytes that a table and index name, none where the index is out of range (R854). -/
def State.tableWord (s : State) (table index target : Nat) : Option Nat :=
  let p := s.pipe target
  let d := s.dieTbl target
  let within := fun (n v : Nat) => if index < n then some v else none
  match table with
  | 0 => within 512 (p.leafRow index % 2 ^ 64)
  | 1 => within 512 (p.leafRow index / 2 ^ 64)
  | 2 => within 16384 (leNat ((List.range 8).map fun k => BitVec.ofNat 8 (p.gen (index / 32) (8 * (index % 32) + k))))
  | 3 => within 32768 (entryAt p.ovr index)
  | 4 => within 16384 (entryAt d.grp index % 2 ^ 64)
  | 5 => within 16384 (entryAt d.grp index / 2 ^ 64)
  | 6 => within 262144 (entryAt d.member index)
  | 7 => within 16 (entryAt p.stash index)
  | _ => none

/-- TABLE_READ (R312, R854, R858): TARGET names the pipeline, or the die for tables 4–6. -/
def execTableRead (h : CmdHdr) (table index : Nat) (s : State) : Result :=
  .next (s.runCmd h 0x060A true fun s =>
    let lim := if 4 ≤ table ∧ table ≤ 6 then 2 else 16
    if lim ≤ h.target then fail s 0x0105
    else match s.tableWord table index h.target with
      | some v => ok s v
      | none => fail s 0x0104)

/-! ### Shadow comparison (R317–R320) -/

/-- The words of a pipeline's own tables: rows with their generations, overrides, stash. -/
def ownWords : Nat := 512 * 34 + 32768 + 16

/-- Word w of the sweep of pipeline n: its offset in the image, and its contents with HIT ignored; words past the pipeline's own are the
group and member words of its die. -/
def State.sweepWord (s : State) (n w : Nat) : Nat × Nat :=
  let p := s.pipe n
  let d := s.dieTbl (n / 8)
  if w < 17408 then
    let l := w / 34; let k := w % 34
    (512 * l + 8 * k, if k = 0 then p.leafRow l % 2 ^ 64 else if k = 1 then p.leafRow l / 2 ^ 64 else (s.tableWord 2 (32 * l + (k - 2)) n).getD 0)
  else if w < 17408 + 32768 then (0x40000 + 8 * (w - 17408), withBits 62 62 0 (entryAt p.ovr (w - 17408)))
  else if w < ownWords then (0x80000 + 8 * (w - 50176), withBits 62 62 0 (entryAt p.stash (w - 50176)))
  else if w < ownWords + 32768 then
    let i := w - ownWords
    (0x90000 + 8 * i, entryAt d.grp (i / 2) / 2 ^ (64 * (i % 2)) % 2 ^ 64)
  else
    let i := w - ownWords - 32768
    (0x100000 + 8 * i, entryAt d.member (2 * i) + 2 ^ 32 * entryAt d.member (2 * i + 1))

/-- Rewrites word w of the sweep of pipeline n (R319). -/
def State.sweepRepair (s : State) (n w v : Nat) : State :=
  if w < 17408 then
    let l := w / 34; let k := w % 34
    s.modPipe n fun p =>
      if k = 0 then { p with row := Tbl.set p.row 0 l (withBits 63 0 v (p.leafRow l)) }
      else if k = 1 then { p with row := Tbl.set p.row 0 l (withBits 127 64 v (p.leafRow l)) }
      else { p with epgen := (List.range 8).foldl (fun t i => Tbl.set t 0 (256 * l + 8 * (k - 2) + i) (v / 256 ^ i % 256)) p.epgen }
  else if w < 17408 + 32768 then s.modPipe n fun p => { p with ovr := Tbl.set p.ovr 0 (w - 17408) v }
  else if w < ownWords then s.modPipe n fun p => { p with stash := Tbl.set p.stash 0 (w - 50176) v }
  else if w < ownWords + 32768 then
    let i := w - ownWords
    s.modDie (n / 8) fun d => { d with grp := Tbl.set d.grp 0 (i / 2) (withBits (64 * (i % 2) + 63) (64 * (i % 2)) v (entryAt d.grp (i / 2))) }
  else
    let i := w - ownWords - 32768
    s.modDie (n / 8) fun d => { d with member := Tbl.set (Tbl.set d.member 0 (2 * i) (v % 2 ^ 32)) 0 (2 * i + 1) (v / 2 ^ 32) }

/-- The words in the sweep of pipeline n (R318). -/
def sweepLen (n : Nat) : Nat := if n % 8 = 0 then ownWords + 32768 + 131072 else ownWords

/-- Are the comparators paused: while the two sequence values differ (R318), and while a reload after an error in the ERGAN region lasts (R739)? -/
def State.cmpPaused (s : State) : Bool :=
  decide (s.time.ticks < s.chk.reloadTo) || s.rd (Reg.FWT_CMP_SHADOW_SEQ 0) != s.rd (Reg.FWT_UPDATE_SEQ 0)

/-- Pipeline n's comparator checks one word: the one marked as failing, else the next of its sweep (R318–R320). -/
def State.compareWord (s : State) (n : Nat) : State :=
  let u := Tbl.getD s.fwt.cmpUrgent 0 n
  let w := if u = 0 then Tbl.getD s.fwt.cmpAt 0 n else u - 1
  let s := if u = 0 then { s with fwt := { s.fwt with cmpAt := Tbl.set s.fwt.cmpAt 0 n ((w + 1) % sweepLen n) } }
    else { s with fwt := { s.fwt with cmpUrgent := Tbl.del s.fwt.cmpUrgent n } }
  let (off, v) := s.sweepWord n w
  let img := leAt 0 8 (memRead s.mem1 (s.rdWide (Reg.FWT_CMP_BASE 0) 2 + off) 8)
  let img := if 17408 ≤ w ∧ w < ownWords then withBits 62 62 0 img else img
  if v = img then s
  else
    let repair := s.flag (Reg.FWT_CMP_CTRL 0) Fld.FWT_CMP_CTRL_REPAIR
    let s := (s.inc (Cnt.FWT_CMP_MISMATCH n)).logErr (pg 6 n) 0x0100 (if repair then 1 else 2) (locTile (4 * n) 31)
    let s := s.irq (pg 6 n) 2
    if repair then s.sweepRepair n w img else s

/-- CMP_WORD_COMPARE (R318–R320): 16 MGMT_CLK cycles (16 ticks) pass, and each pipeline's comparator checks one word, unless it is
off, paused, or tier 1 has not trained. -/
def execCmpWordCompare (s : State) : Result :=
  let s := s.elapse 16
  if s.flag (Reg.FWT_CMP_CTRL 0) Fld.FWT_CMP_CTRL_ENABLE && !s.cmpPaused && s.tierReady 0 then
    .next ((List.range 16).foldl State.compareWord s)
  else .next s

/-- FWT_CNT_CLEAR (R281, R322): a write of FWT_CTRL with CNT_CLEAR and the other fields as they are. -/
def execFwtCntClear (n : Nat) (s : State) : Result := .next (s.onPage (pg 6 n) fun s => s.clearCnts (pg 6 n))

/-! ### Learned moves (R315, R316) -/

/-- A LEARN payload (R315). -/
def learnBytes (kind feid leaf gen seq origin : Nat) : List Byte :=
  beBytes 1 kind ++ beBytes 3 0 ++ beBytes 4 feid ++ beBytes 2 leaf ++ beBytes 1 gen ++ beBytes 1 0 ++ beBytes 4 seq ++ beBytes 4 origin ++ beBytes 44 0

/-- Does a LEARN payload hold a non-zero reserved byte (R179, R315)? -/
def learnReserved (b : List Byte) : Bool := beAt 1 3 b != 0 || beAt 11 1 b != 0 || !allZero (b.drop 20)

/-- Takes a LEARN packet of a KIND: a POISON payload is not used (R183), a reserved byte that is not zero discards the packet (R179); `f` goes on with it. -/
def State.learnRx (s : State) (lp : Nat) (p : Pkt) (kind : Nat) (f : State → State) : State :=
  if p.typ ≠ 0x31 ∨ beAt 0 1 p.payload ≠ kind then s
  else
    let s := s.takeFn lp p
    if pflag p fPoison || p.payload.length != 64 then s
    else if learnReserved p.payload then s.countReason lp rReserved p
    else f s

/-- Applies a LEARN MOVE or UNMOVE from another spine of the plane once per origin and sequence, and answers with an ACK on the port it came by (R316).
`f` applies it and says whether it was applied; one that was refused is neither recorded nor answered. -/
def State.learn (s : State) (lp : Nat) (p : Pkt) (kind : Nat) (f : State → Bool × State) : State :=
  s.learnRx lp p kind fun s =>
  let o := beAt 16 4 p.payload
  let seq := beAt 12 4 p.payload
  if feidPlane o != s.plane || spineIdx o == s.spine || decide (seq < Tbl.getD s.fwt.learnSeq 0 o) then s
  else
    let (applied, s) := f s
    if !applied then s
    else
      let s := { s with fwt := { s.fwt with learnSeq := Tbl.set s.fwt.learnSeq 0 o (seq + 1) } }
      s.originate lp {
        cls := 7, typ := 0x31, flags := 2 ^ fSrcSpine + 2 ^ fDstSpine, dst := o / 4096 * 4096, src := s.spineAddr 0, plen := 64
        payload := learnBytes 3 (beAt 4 4 p.payload) 0 0 seq o }

/-- LEARN_MOVE_RX (R316): applied as OVR_INSERT of KIND LEAF. -/
def execLearnMoveRx (lport : Nat) (pkt : Pkt) (s : State) : Result :=
  .next (s.learn lport pkt 1 fun s =>
    let leaf := beAt 8 2 pkt.payload % 512
    if s.ovrBad 0 leaf then (false, s)
    else
      let (st, _, s) := s.ovrInsert (feidKey (beAt 4 4 pkt.payload)) 0 (beAt 10 1 pkt.payload) leaf
      (st == 0, s))

/-- LEARN_UNMOVE_RX (R316): applied as OVR_DELETE. -/
def execLearnUnmoveRx (lport : Nat) (pkt : Pkt) (s : State) : Result :=
  .next (s.learn lport pkt 2 fun s => (true, (s.ovrDelete (feidKey (beAt 4 4 pkt.payload))).2))

/-- LEARN_ACK_RX (R316): an acknowledgement of one of the device's own notices goes to firmware. -/
def execLearnAckRx (lport : Nat) (pkt : Pkt) (s : State) : Result :=
  .next (s.learnRx lport pkt 3 fun s =>
    let seq := beAt 12 4 pkt.payload
    if beAt 16 4 pkt.payload / 4096 = s.spineAddr 0 / 4096 then
      let s := { s with fwt := { s.fwt with learnAcked := Tbl.set s.fwt.learnAcked 0 pkt.src (seq + 1) } }
      s.emit (.notice 0x0316 [lport, pkt.src, seq])
    else s)

end Sys2Proof.Machine
end

