-- ==== Sys2Proof/Machine/Cfg.lean ====
section
/-! DEFINITION. Signed objects, firmware update, chains, configuration records, attestation, unlock and job reuse (R767–R804, R813–R815). -/
namespace Sys2Proof.Machine

def cfgPg : Nat := pg 0x15 0
def cfgLoc : Nat := locBlock 0x15
def secPg : Nat := pg 0x14 0
def secLoc : Nat := locBlock 0x14

/-! ### Recovery and the board flash (R768, R784) -/

/-- Enters recovery, for the reason given where R784 has a code for it: every carrier gate closes, RECOVERY is an alert source (R844). -/
def State.enterRecovery (s : State) (why : Nat) : State :=
  let s := s.setFlag Reg.CFG_STATUS Fld.CFG_STATUS_RECOVERY true
  let s := if why = 0 then s else s.setFld Reg.CFG_RESET_CAUSE Fld.CFG_RESET_CAUSE_WHY why
  ((List.range 16).foldl (fun s n => s.closeEngine n) s).alertSource 4

/-- A flash failure (R768): logged; a counter's also puts the device in recovery. -/
def State.flashFails (s : State) (r : FlashRes) : State :=
  match r with
  | .good => s
  | .writeFails => s.logErr cfgPg 0x0101 2 cfgLoc
  | .counterFails => (s.logErr cfgPg 0x0101 2 cfgLoc).enterRecovery 0

/-- A flash counter, and the same raised to at least v: SEC_COUNTER_k shows it as last read. -/
def State.ctr (s : State) (k : Nat) : Nat := Tbl.getD s.cfg.ctrs 0 k
def State.setCtr (s : State) (k v : Nat) : State :=
  let v := max (s.ctr k) v
  (s.setCfg fun c => { c with ctrs := Tbl.set c.ctrs 0 k v }).wr (Reg.SEC_COUNTER k) (BitVec.ofNat 32 v)

/-! ### Signed objects (R773–R776) -/

def objSvn (o : List Byte) : Nat := leAt 32 4 o
def objVersion (o : List Byte) : Nat := leAt 36 4 o
def objBodyLen (o : List Byte) : Nat := leAt 40 4 o
def objKindOf (o : List Byte) : Nat := leAt 6 2 o
def objEnc (o : List Byte) : Bool := bit 0 (leAt 12 4 o)
def objBound (o : List Byte) : Bool := bit 1 (leAt 12 4 o)
/-- The bytes that an object's signature covers. -/
def objSigned (o : List Byte) : Nat := 64 + objBodyLen o + (if objEnc o then 16 else 0)

/-- The counter that holds a kind's SVN floor (R776). -/
def kindCtr (k : Nat) : Option Nat := match k with | 1 => some 0 | 2 => some 1 | 4 => some 2 | _ => none

/-- The first condition of R776 that an object fails, for a command that takes the kinds given; 0 when it is accepted. -/
def State.objStatus (s : State) (kinds : List Nat) (o : List Byte) : Nat :=
  let k := objKindOf o
  let sig := leAt 44 4 o
  if leAt 0 4 o ≠ 0x4A424F53 ∨ leAt 4 2 o ≠ 1 ∨ !kinds.contains k ∨ leAt 12 4 o / 4 ≠ 0 ∨ leAt 60 4 o ≠ 0 ∨ sig = 0 ∨ 20480 < sig ∨
      o.length < objSigned o + sig then 0x0100
  else if leAt 8 4 o ≠ 0x9512 then 0x0101
  else if objEnc o ≠ (k == 1) ∨ (objBound o ≠ (k == 3 || k == 4) ∧ k ≠ 2) ∨ (objBound o ∧ leAt 16 16 o ≠ Config.unitId % 2 ^ 128) then 0x0102
  else if (match kindCtr k with | some c => decide (objSvn o < s.ctr c) | none => false) then 0x0103
  else
    let role := Config.hssRole (o.take (objSigned o)) ((o.drop (objSigned o)).take sig)
    if role ≠ some 1 ∧ ¬(k = 2 ∧ role = some 2) then 0x0104
    else if objEnc o && !Config.gcmGood (o.take (objSigned o)) then 0x0105
    else 0

/-! ### Staging an image (R794) -/

/-- The slot that is not the boot slot. -/
def State.otherSlot (s : State) : Nat := 1 - s.cfg.boot

/-- Verifies an image and writes it to the slot that is not the boot slot: the status. An image larger than a slot has none that the spec states. -/
def State.stageImage (s : State) (o : List Byte) (flash : FlashRes) : Nat × State :=
  let st := s.objStatus [1] o
  let k := s.otherSlot
  if st ≠ 0 then (st, s.logErr cfgPg 0x0100 0 cfgLoc)
  else if 28 * 1048576 < o.length then
    let (v, s) := s.draw
    (v % 65536, s)
  else if flash = .good then
    (0, s.setCfg fun c => { c with slots := Tbl.put c.slots k o, images := Tbl.put c.images k (objVersion o, objSvn o) })
  else (0x0106, (s.flashFails flash).setCfg fun c => { c with slots := Tbl.put c.slots k (Config.flashBad k), images := Tbl.del c.images k })

/-- FW_STAGE (R794). -/
def execFwStage (h : CmdHdr) (off len : Nat) (flash : FlashRes) (s : State) : Result :=
  .next (s.runCmd h 0x1501 true fun s =>
    let (st, s) := s.stageImage (s.staging off len) flash
    fail s st)

/-! ### The settings record (R790–R792) -/

/-- The image of a VERSION starts: it uses the current slot's record where it knows its SET_VER, and else the previous slot's on the same terms (R791);
where its own SET_VER is higher than that record's, it migrates the record (R792). With neither, SETTINGS_OK is 0, and defaults are used. -/
def State.startSettings (s : State) (version : Nat) : State :=
  let knows := fun (r : SetRec) => r.setVer == Config.setVer version || Config.knowsSet version r.setVer
  match (s.cfg.current.filter knows).orElse fun _ => s.cfg.previous.filter knows with
  | some r =>
    let s := (s.setCfg fun c => { c with settings := r }).setFlag Reg.CFG_STATUS Fld.CFG_STATUS_SETTINGS_OK true
    if r.setVer < Config.setVer version then s.writeSettings id else s
  | none =>
    ((s.setCfg fun c => { c with settings := setDefaults }).setFlag Reg.CFG_STATUS Fld.CFG_STATUS_SETTINGS_OK false).logErr cfgPg 0x0102 1 cfgLoc

/-! ### Takeovers (R795–R798) -/

/-- The halves exchange roles: ACTIVE_HALF changes, the settings record keeps it (TAKEOVER_DONE, HALF_CHANGE). -/
def State.exchange (s : State) : State :=
  let h := 1 - s.activeHalf
  let s := (s.setFld Reg.CFG_STATUS Fld.CFG_STATUS_ACTIVE_HALF h).setFlag Reg.CFG_STATUS Fld.CFG_STATUS_STANDBY_READY true
  let s := s.writeSettings fun r => { r with half := h }
  ((s.inc Cnt.CFG_TAKEOVERS).irq cfgPg 2).irq mgmtPg 3

/-- No takeover is pending any more. -/
def State.takeoverEnds (s : State) : State :=
  (s.setCfg fun c => { c with takeover := none }).setFlag Reg.CFG_STATUS Fld.CFG_STATUS_TAKEOVER_PENDING false

/-- Is a half degraded (R726)? -/
def State.degraded (s : State) (h : Nat) : Bool := s.flag (Reg.CHK_ERGAN h) Fld.CHK_ERGAN_DEGRADED

/-- A takeover time is set (R795); the standby half boots and mirrors until then. -/
def State.setTakeover (s : State) (t : Takeover) : State :=
  let s := (s.setCfg fun c => { c with takeover := some t }).wrWide Reg.CFG_TAKEOVER_TIME t.time 2
  (s.setFlag Reg.CFG_STATUS Fld.CFG_STATUS_TAKEOVER_PENDING true).setFlag Reg.CFG_STATUS Fld.CFG_STATUS_STANDBY_READY t.back

/-- The checks that FW_ACTIVATE and FW_ROLLBACK make alike: BUSY while a takeover is pending (R812), a degraded half cannot become active (R726: the
spec states no status), T at least 2 s ahead. -/
def State.takeoverAllowed (s : State) (time : Nat) (go : State → State × Option Cmpl) : State × Option Cmpl :=
  if s.cfg.takeover.isSome then fail s 4
  else if s.degraded (1 - s.activeHalf) then failOpen s
  else if fromShort time < s.time.now + 2 * secUnits then fail s 0x0108
  else go s

/-- The status of the image in a slot, verified again (R795): BAD_OBJECT where the slot holds none. -/
def State.slotStatus (s : State) (k : Nat) : Nat :=
  match Tbl.find s.cfg.slots k, Tbl.find s.cfg.images k with
  | some o, _ => s.objStatus [1] o
  | none, some i => if i.2 < s.ctr 0 then 0x0103 else 0
  | none, none => 0x0100

/-- FW_ACTIVATE (R795): completes at the takeover. -/
def execFwActivate (h : CmdHdr) (time : Nat) (s : State) : Result :=
  .next (s.runCmd h 0x1502 true fun s => s.takeoverAllowed time fun s =>
    let st := s.slotStatus s.otherSlot
    if st ≠ 0 then fail (s.logErr cfgPg 0x0100 0 cfgLoc) st
    else (s.setTakeover ⟨h, time, s.otherSlot, false⟩, none))

/-- FW_ROLLBACK (R797): with no image on trial, ROLLBACK. -/
def execFwRollback (h : CmdHdr) (time : Nat) (s : State) : Result :=
  .next (s.runCmd h 0x1504 true fun s =>
    if !s.flag Reg.CFG_STATUS Fld.CFG_STATUS_TRIAL then fail s 0x0103
    else s.takeoverAllowed time fun s => (s.setTakeover ⟨h, time, s.cfg.boot, true⟩, none))

/-- FW_TAKEOVER (R795, R797): T has come and the standby half is ready. -/
def execFwTakeover (s : State) : Result :=
  match s.cfg.takeover with
  | none => .next s
  | some t =>
    let s := (s.elapseToDev (fromShort t.time)).takeoverEnds
    if t.back && !s.flag Reg.CFG_STATUS Fld.CFG_STATUS_TRIAL then .next (s.complete t.hdr 0x15 ⟨0x0103, 0, 0, []⟩)
    else if s.degraded (1 - s.activeHalf) then
      let (s, c) := failOpen s
      .next (match c with | some c => s.complete t.hdr 0x15 c | none => s)
    else
      let v := (Tbl.getD s.cfg.images (0, 0) t.slot).1
      let s := ((s.wr Reg.CFG_IMAGE (BitVec.ofNat 32 v)).startSettings (v % 2 ^ 32)).exchange
      let s := (s.setFld Reg.CFG_STATUS Fld.CFG_STATUS_RUN_SLOT t.slot).setFlag Reg.CFG_STATUS Fld.CFG_STATUS_TRIAL (!t.back)
      let s := if t.back then s.inc Cnt.CFG_ROLLBACKS else s
      .next (s.complete t.hdr 0x15 ⟨0, 0, 0, []⟩)

/-- A pending takeover is late (R796, R812). -/
def State.takeoverLate (s : State) (t : Takeover) : State :=
  let s := s.takeoverEnds.setFlag Reg.CFG_STATUS Fld.CFG_STATUS_STANDBY_READY true
  (s.logErr cfgPg 0x0103 1 cfgLoc).complete t.hdr 0x15 ⟨0x0109, 0, 0, []⟩

/-- TAKEOVER_LATE (R796): at T − 10 ms the standby half has not finished mirroring. -/
def execTakeoverLate (s : State) : Result :=
  match s.cfg.takeover with
  | none => .next s
  | some t => .next ((s.elapseToDev (fromShort t.time - 10 * 1000000 * 2 ^ 32)).takeoverLate t)

/-- FW_COMMIT (R797): the running slot is the boot slot, and counter 0 is raised to the image's SVN. -/
def execFwCommit (h : CmdHdr) (flash : FlashRes) (s : State) : Result :=
  .next (s.runCmd h 0x1503 true fun s =>
    if flash ≠ .good then fail (s.flashFails flash) 0x0106
    else
      let k := s.fld Reg.CFG_STATUS Fld.CFG_STATUS_RUN_SLOT
      let s := (s.setCfg fun c => { c with boot := k }).setFld Reg.CFG_STATUS Fld.CFG_STATUS_BOOT_SLOT k
      let s := s.setFlag Reg.CFG_STATUS Fld.CFG_STATUS_TRIAL false
      ok (s.setCtr 0 (Tbl.getD s.cfg.images (0, 0) k).2))

/-- DEGRADED_TAKEOVER (R726, R798, R812): the active half is degraded and the other is not: control passes at the next millisecond boundary of network
time, unless a pending takeover comes first; a later one is late. -/
def execDegradedTakeover (s : State) : Result :=
  let h := s.activeHalf
  if !s.degraded h || s.degraded (1 - h) then .next s
  else
    let t := (s.nowNs / 1000000 + 1) * 1000000
    let first := match s.cfg.takeover with | some x => decide (fromShort x.time ≤ t * 2 ^ 32) | none => false
    if first then .next s
    else
      let s := s.elapseToDev (t * 2 ^ 32)
      let s := match s.cfg.takeover with | some x => s.takeoverLate x | none => s
      .next (s.exchange.wrWide Reg.CFG_TAKEOVER_TIME (shortForm (t * 2 ^ 32)) 2)

/-! ### Distribution along a chain (R799–R802) -/

/-- The entries of a chain descriptor, none where R799 does not hold of it. -/
def chainEntries (d : List Byte) : Option (List Nat) :=
  let n := leAt 6 2 d
  let es := (d.drop 64).take (4 * n)
  if leAt 0 4 d = 0x4E494843 ∧ leAt 4 2 d = 1 ∧ n ≠ 0 ∧ n ≤ 256 ∧ es.length = 4 * n ∧ crc32c es = leAt 8 4 d ∧ allZero (slice 12 52 d) then
    some ((List.range n).map fun i => leAt (4 * i) 4 es)
  else none

def State.setTx (s : State) (x : ChainTx) : State :=
  s.setCfg fun c => { c with chainTx := c.chainTx.filter (fun (y : ChainTx) => !(y.origin == x.origin && y.xfer == x.xfer)) ++ [x] }
def State.dropTx (s : State) (origin xfer : Nat) : State :=
  s.setCfg fun c => { c with chainTx := c.chainTx.filter fun (y : ChainTx) => !(y.origin == origin && y.xfer == xfer) }
def State.txOf (s : State) (origin xfer : Nat) : Option ChainTx := s.cfg.chainTx.find? fun y => y.origin == origin && y.xfer == xfer

/-- Sends what 256 KiB unacknowledged allow (R801). -/
def State.chainSend (s : State) (x : ChainTx) : State :=
  match x.targets with
  | [] => s
  | d :: _ =>
    let ps := (pieces x.data).filter fun y => decide (x.sent ≤ y.1) && decide (y.1 + y.2.length ≤ x.acked + 262144)
    let s := ps.foldl (fun s y => 
      s.sendRelayed (withFlag (s.mgmtPkt d (updHeader 0x20 1 0 x.xfer y.1 x.data.length x.origin [] ++ y.2)) fPoison (x.bad.contains (y.1 / 4064)))) s
    s.setTx { x with sent := ps.foldl (fun m y => max m (y.1 + y.2.length)) x.sent }

/-- FW_CHAIN completes when every entry has sent DONE or has been skipped (R802). -/
def State.chainEnds (s : State) (x : ChainHead) : State :=
  let good := (x.done.filter fun d => d.2 == 0).length
  (s.setCfg fun c => { c with chainHead := c.chainHead.filter fun (y : ChainHead) => y.xfer != x.xfer }).complete x.hdr 0x15
    ⟨0, good * 65536 + x.skipped.length, 0, []⟩
def State.chainSettle (s : State) (x : ChainHead) : State :=
  if x.entries.all fun e => (Tbl.find x.done e).isSome || x.skipped.contains e then s.chainEnds x
  else s.setCfg fun c => { c with chainHead := c.chainHead.map fun (y : ChainHead) => if y.xfer == x.xfer then x else y }

/-- Begins to send a transfer to the first of the targets. -/
def State.chainTo (s : State) (origin xfer : Nat) (data : List Byte) (bad targets : List Nat) : State :=
  if targets.isEmpty then s else s.chainSend ⟨origin, xfer, data, bad, targets, 0, 0, s.time.ticks, 0⟩

/-- FW_CHAIN (R799–R802). The spec states no status for a descriptor that breaks R799, nor for an image that FW_STAGE has not staged: a free one. The
executing spine holds the image, so its own entry counts as OK. XFER is a free choice. `ue` lists the pieces of 4,064 bytes that memory gives with an
uncorrectable error (R183). -/
def execFwChain (h : CmdHdr) (off : Nat) (ue : List Nat) (s : State) : Result :=
  .next (s.runCmd h 0x1505 true fun s =>
    let d := s.staging off (64 + 4 * leAt 6 2 (s.staging off 64))
    match chainEntries d, Tbl.find s.cfg.slots s.otherSlot, (Tbl.find s.cfg.images s.otherSlot).isSome with
    | some (e :: es), some img, true =>
      if e ≠ s.spineAddr 0 then failOpen s
      else
        let (v, s) := s.draw
        let x := v % 2 ^ 32
        let head : ChainHead := ⟨h, x, e :: es, [(e, 0)], [], s.time.ticks⟩
        let s := s.setCfg fun c => { c with chainHead := c.chainHead ++ [head] }
        ((s.chainTo (s.spineAddr 0) x (d ++ img) ue es).chainSettle head, none)
    | _, _, _ => failOpen s)

/-- Takes an UPDATE packet of a KIND (R800); a POISON payload is not used (R183). -/
def State.updRx (s : State) (lp : Nat) (p : Pkt) (kind : Nat) (f : State → State) : State :=
  let b := p.payload
  if p.typ ≠ 0x33 ∨ beAt 0 1 b ≠ 0x20 ∨ beAt 1 1 b ≠ kind then s
  else
    let s := s.takeFn lp p
    if pflag p fPoison then s
    else if b.length < 32 ∨ !allZero (slice 20 12 b) ∨ (kind ≠ 1 ∧ b.length ≠ 32) then s.inc (reasonCnt lp rReserved) else f s

/-- CHAIN_DATA_RX (R801): acknowledged as far as it is contiguous; the whole transfer is checked and staged, DONE goes to the head, and a good one goes
on to the next entry. `flash`: how the write of its slot ends. -/
def execChainDataRx (lport : Nat) (pkt : Pkt) (flash : FlashRes) (s : State) : Result :=
  .next (s.updRx lport pkt 1 fun s =>
    let b := pkt.payload
    let x := beAt 4 4 b; let origin := beAt 16 4 b; let total := beAt 12 4 b
    let mine := fun (r : ChainRx) => r.origin == origin && r.xfer == x
    let r : ChainRx := (s.cfg.chainRx.find? mine).getD ⟨origin, x, total, [], false⟩
    let r : ChainRx := if r.checked then r else { r with segs := addPiece r.segs (beAt 8 4 b) (b.drop 32) }
    let data := heldBytes r.segs
    let whole := decide (r.total ≤ data.length)
    let keep := fun (s : State) (r : ChainRx) => s.setCfg fun c => { c with chainRx := c.chainRx.filter (fun q => !mine q) ++ [r] }
    let ack := fun (s : State) => s.sendRelayed (s.mgmtPkt (pkt.src / 4096 * 4096) (updHeader 0x20 2 0 x (min r.total data.length) r.total origin []))
    if !whole || r.checked then ack (keep s r)
    else
      let s := ack (keep s { r with checked := true })
      let data := data.take r.total
      let (st, next, s) := match chainEntries data with
        | none => let (v, s) := s.draw; (1 + v % 65535, [], s)
        | some es =>
          let (st, s) := s.stageImage (data.drop (64 + 4 * es.length)) flash
          (st, if st = 0 then (es.dropWhile (· != s.spineAddr 0)).drop 1 else [], s)
      let s := s.sendRelayed (s.mgmtPkt (origin / 4096 * 4096) (updHeader 0x20 3 st x 0 r.total origin []))
      s.chainTo origin x data [] next)

/-- CHAIN_ACK_RX (R801): the window moves on; the next spine holds all when all is acknowledged. -/
def execChainAckRx (lport : Nat) (pkt : Pkt) (s : State) : Result :=
  .next (s.updRx lport pkt 2 fun s =>
    let b := pkt.payload
    match s.txOf (beAt 16 4 b) (beAt 4 4 b) with
    | none => s
    | some t =>
      let a := beAt 8 4 b
      if t.targets.headD 0 / 4096 ≠ pkt.src / 4096 ∨ a ≤ t.acked then s
      else if t.data.length ≤ a then s.dropTx t.origin t.xfer
      else s.chainSend { t with acked := a, sent := max t.sent a, at_ := s.time.ticks, tries := 0 })

/-- CHAIN_DONE_RX (R802). -/
def execChainDoneRx (lport : Nat) (pkt : Pkt) (s : State) : Result :=
  .next (s.updRx lport pkt 3 fun s =>
    let b := pkt.payload
    match s.cfg.chainHead.find? fun x => x.xfer == beAt 4 4 b && s.spineAddr 0 == beAt 16 4 b with
    | none => s
    | some x =>
      let e := pkt.src / 4096 * 4096
      if !x.entries.contains e then s
      else s.chainSettle { x with done := Tbl.put x.done e (beAt 2 2 b), skipped := x.skipped.filter (· != e) })

/-- CHAIN_ABORT_RX (R800): the transfer ends here; at its head FW_CHAIN ends with it, with a status that the spec does not state. -/
def execChainAbortRx (lport : Nat) (pkt : Pkt) (s : State) : Result :=
  .next (s.updRx lport pkt 4 fun s =>
    let b := pkt.payload
    let x := beAt 4 4 b; let origin := beAt 16 4 b
    let s := (s.dropTx origin x).setCfg fun c => { c with chainRx := c.chainRx.filter fun (r : ChainRx) => !(r.origin == origin && r.xfer == x) }
    match s.cfg.chainHead.find? fun y => y.xfer == x && s.spineAddr 0 == origin with
    | none => s
    | some y =>
      let s := s.setCfg fun c => { c with chainHead := c.chainHead.filter fun (z : ChainHead) => z.xfer != x }
      match failOpen s with
      | (s, some c) => s.complete y.hdr 0x15 c
      | (s, none) => s)

/-- CHAIN_RESEND (R801): 2 ms without progress; the fourth time the next entry is skipped. -/
def execChainResend (origin xfer : Nat) (s : State) : Result :=
  match s.txOf origin xfer with
  | none => .next s
  | some t =>
    let s := s.elapseToTick (t.at_ + usTicks 2000)
    if t.tries < 3 then .next (s.chainSend { t with sent := t.acked, at_ := s.time.ticks, tries := t.tries + 1 })
    else
      let s := ((s.dropTx origin xfer).inc Cnt.CFG_CHAIN_SKIPS).logErr cfgPg 0x0104 1 cfgLoc
      let s := s.chainTo origin xfer t.data t.bad (t.targets.drop 1)
      .next (match s.cfg.chainHead.find? fun x => x.xfer == xfer && s.spineAddr 0 == origin with
        | some x => s.chainSettle { x with skipped := x.skipped ++ t.targets.take 1 }
        | none => s)

/-- CHAIN_TIMEOUT (R802): 10 minutes after it began, FW_CHAIN completes. -/
def execChainTimeout (xfer : Nat) (s : State) : Result :=
  match s.cfg.chainHead.find? fun x => x.xfer == xfer with
  | none => .next s
  | some x => .next ((s.elapseToTick (x.startedAt + usTicks 600000000)).chainEnds x)

/-! ### Records, attestation, unlock (R779, R787–R793) -/

/-- CFG_WRITE (R779): stores a record, which takes effect at the next warm or cold reset, and raises its SVN counter. -/
def execCfgWrite (h : CmdHdr) (off len : Nat) (flash : FlashRes) (s : State) : Result :=
  .next (s.runCmd h 0x1506 true fun s =>
    let o := s.staging off len
    let st := s.objStatus [2, 4] o
    if st ≠ 0 then fail (s.logErr cfgPg 0x0100 0 cfgLoc) st
    else if 1048576 < len then failOpen s
    else if flash ≠ .good then
      let held := if flash = .writeFails then Config.flashBad (objKindOf o) else o
      fail ((s.flashFails flash).setCfg fun c => { c with recs := Tbl.put c.recs (objKindOf o) held }) 0x0106
    else
      let s := s.setCfg fun c => { c with recs := Tbl.put c.recs (objKindOf o) o }
      ok (match kindCtr (objKindOf o) with | some c => s.setCtr c (objSvn o) | none => s))

/-- The SHA-256 of the object in an image slot. -/
def State.imageHash (s : State) (k : Nat) : List Byte :=
  slice 0 32 (match Tbl.find s.cfg.slots k with | some o => Config.sha256 o | none => Config.boardHash k)

/-- The attestation report (R788). -/
def State.attReport (s : State) (nonce index : Nat) : List Byte :=
  let st := fun f => s.flag Reg.CFG_STATUS f
  let site := if st Fld.CFG_STATUS_SITE_REC_OK then (match Tbl.find s.cfg.recs 2 with | some o => Config.sha256 o | none => Config.boardHash 2) else []
  leBytes 4 0x54414B54 ++ leBytes 2 1 ++ leBytes 1 0xB0 ++
  leBytes 1 (b2n (st Fld.CFG_STATUS_TRIAL) + 2 * b2n (s.flag Reg.SEC_STATUS Fld.SEC_STATUS_UNLOCKED) + 4 * b2n (st Fld.CFG_STATUS_RECOVERY)) ++
  leBytes 16 Config.unitId ++ leBytes 32 nonce ++ s.imageHash (s.fld Reg.CFG_STATUS Fld.CFG_STATUS_RUN_SLOT) ++ slice 0 32 site ++
  leBytes 4 (s.ctr 0) ++ leBytes 4 index ++ leBytes 8 s.short ++ leBytes 8 0

/-- ATTEST (R787, R788). Without a unit secret the spec states no status: a free one. -/
def execAttest (h : CmdHdr) (nonce off : Nat) (flash : FlashRes) (s : State) : Result :=
  .next (s.runCmd h 0x1401 true fun s =>
    if !s.flag Reg.CFG_STATUS Fld.CFG_STATUS_PUF_OK then failOpen s
    else if 1048576 ≤ s.ctr 3 then fail s 0x010B
    else if flash ≠ .good then fail (s.flashFails flash) 0x0106
    else
      let i := s.ctr 3
      let s := s.setCtr 3 (i + 1)
      let r := s.attReport nonce i
      ok (s.regionWrite 1 off (r ++ slice 0 2964 (Config.attSign i r))) 3108)

/-- UNLOCK_CHALLENGE (R789). -/
def execUnlockChallenge (h : CmdHdr) (flash : FlashRes) (s : State) : Result :=
  .next (s.runCmd h 0x1402 true fun s =>
    if flash ≠ .good then fail (s.flashFails flash) 0x0106
    else
      let v := (s.ctr 4 + 1) % 2 ^ 32
      ok ((s.setCtr 4 v).wr Reg.SEC_CHALLENGE (BitVec.ofNat 32 v)) v)

/-- UNLOCK (R789): a token's body is the challenge, SCOPE and zeros. -/
def execUnlock (h : CmdHdr) (off len : Nat) (s : State) : Result :=
  .next (s.runCmd h 0x1403 true fun s =>
    let o := s.staging off len
    let st := s.objStatus [3] o
    let body := slice 64 8 o
    let st := if st ≠ 0 then st
      else if objBodyLen o ≠ 8 ∨ !allZero (body.drop 5) ∨ 8 ≤ leAt 4 1 body then 0x0100
      else if (s.rd Reg.SEC_CHALLENGE).toNat = 0 ∨ leAt 0 4 body ≠ (s.rd Reg.SEC_CHALLENGE).toNat then 0x0104
      else 0
    if st ≠ 0 then fail (s.logErr secPg 0x0101 0 secLoc) st
    else
      let s := (s.setFlag Reg.SEC_STATUS Fld.SEC_STATUS_UNLOCKED true).setFld Reg.SEC_STATUS Fld.SEC_STATUS_SCOPE (leAt 4 1 body)
      ok (s.irq secPg 2))

/-- PUF_REFRESH (R793): only while an unlock whose SCOPE has bit 2 set is in force. -/
def execPufRefresh (h : CmdHdr) (flash : FlashRes) (s : State) : Result :=
  .next (s.runCmd h 0x1404 true fun s =>
    if !(s.flag Reg.SEC_STATUS Fld.SEC_STATUS_UNLOCKED && bit 2 (s.fld Reg.SEC_STATUS Fld.SEC_STATUS_SCOPE)) then fail s 3
    else if flash ≠ .good then fail (s.flashFails flash) 0x0106
    else ok ((s.writeSettings fun r => { r with refresh := true }).setFlag Reg.SEC_STATUS Fld.SEC_STATUS_REFRESH_ARMED true))

/-! ### Reusing the previous job's set-up (R803, R804) -/

/-- The live tables in the image layout of R317, with every HIT zero. -/
def State.tableImage (s : State) : List Byte :=
  let p := s.pipe 0
  let d := s.dieTbl 0
  let rows := (List.range 512).flatMap fun l =>
    leBytes 16 (p.leafRow l) ++ ((List.range 256).map fun e => BitVec.ofNat 8 (p.gen l e)) ++ List.replicate 240 0
  let noHit := fun e => withBits 62 62 0 e
  rows ++ (List.range 32768).flatMap (fun n => leBytes 8 (noHit (entryAt p.ovr n))) ++
  (List.range 16).flatMap (fun n => leBytes 8 (noHit (entryAt p.stash n))) ++ List.replicate (0x10000 - 128) 0 ++
  (List.range 16384).flatMap (fun n => leBytes 16 (entryAt d.grp n)) ++ List.replicate (0x30000) 0 ++
  (List.range 262144).flatMap (fun n => leBytes 4 (entryAt d.member n))

/-- Ports whose tide engine has an active bank, and engines whose active bank holds maps. -/
def State.tideActive (s : State) : List Nat := (List.range 512).filter fun p => (s.portTide p).hasActive
def State.cwLoaded (s : State) : List Nat := (List.range 16).filter fun n => !(s.cwActive n).maps.isEmpty

/-- Do the conditions of R803 hold? -/
def State.reuseOk (s : State) (old new c1 c2 c3 : Nat) : Bool :=
  decide (new ≠ 0) && decide (new ≠ old) && crc32c s.tableImage == c1 &&
  s.tideActive.all (fun p => Tbl.getD s.tide.checks 0 (2 * p + s.activeIdx p) == c2) &&
  s.cwLoaded.all (fun n => Tbl.getD s.optics.checks 0 (2 * n + s.fld (Reg.CW_STATUS n) Fld.CW_STATUS_ACTIVE_BANK) == c3) &&
  (List.range 512).all (fun p => !s.flag (tideSt p) Fld.TIDE_PORT_STATUS_TAKEOVER_PENDING) &&
  (List.range 16).all (fun n => !s.flag (Reg.CW_STATUS n) Fld.CW_STATUS_TAKEOVER_PENDING)

/-- Replaces a generation in a field of the entries in use. -/
def regen (used : Nat) (hi lo old new : Nat) (t : Tbl Nat) : Tbl Nat :=
  t.map fun e => if bit used e.2 && bits hi lo e.2 == old then (e.1, withBits hi lo new e.2) else e

/-- One pipeline with OLD_GEN replaced by NEW_GEN (R804). -/
def Pipe.reuse (old new : Nat) (p : Pipe) : Pipe :=
  { p with
    epgen := if old = 0 then tblOf 131072 fun n => let g := entryAt p.epgen n; if g = 0 then new else g
      else p.epgen.map fun e => if e.2 == old then (e.1, new) else e
    ovr := regen 63 59 52 old new p.ovr
    stash := regen 63 59 52 old new p.stash }

/-- JOB_REUSE (R803, R804). -/
def execJobReuse (h : CmdHdr) (oldGen newGen c1 c2 c3 : Nat) (s : State) : Result :=
  .next (s.runCmd h 0x1507 true fun s =>
    if !s.reuseOk oldGen newGen c1 c2 c3 then fail s 0x010A
    else
      let gs := ((s.dieTbl 0).grp.filter fun e => grpKind.used e.2 && grpGen e.2 == oldGen).map fun e => grpKind.key e.2
      let s := s.commit (Pipe.reuse oldGen newGen) fun d => { d with grp := regen 127 119 112 oldGen newGen d.grp }
      let s := (gs.foldl (fun s g => s.groupChanged g) s).genChanged
      let s := s.tideActive.foldl (fun s p =>
        let b := s.activeBank p
        if b.gen = oldGen then
          (s.setPortTide p ((s.portTide p).setBank (s.activeIdx p) { b with gen := newGen })).setFld (tideSt p) Fld.TIDE_PORT_STATUS_GEN newGen
        else s) s
      let s := s.cwLoaded.foldl (fun s n =>
        let b := s.cwActive n
        let a := Reg.CW_STATUS n
        if b.gen = oldGen then
          (s.setEng n ((s.eng n).setBank (s.fld a Fld.CW_STATUS_ACTIVE_BANK) { b with gen := newGen })).setFld a Fld.CW_STATUS_GEN newGen
        else s) s
      ok (s.inc Cnt.CFG_REUSES))

end Sys2Proof.Machine
end

