-- ==== Sys2Proof/Machine/Reset.lean ====
section
/-! DEFINITION. Cold and warm reset of the device (R68, R74). -/
namespace Sys2Proof.Machine

/-- The register words after a warm reset: sticky fields keep their values, every other field has its Reset value (R68, R74). -/
def warmRegs (t : Tbl Word) : Tbl Word :=
  t.filterMap fun e =>
    let keep := BitVec.ofNat 32 (stickyMask e.1)
    let w := e.2 &&& keep ||| resetWord e.1 &&& ~~~keep
    if w = resetWord e.1 then none else some (e.1, w)

/-- What chapter 17's state keeps over a reset: what lies in the board flash, and over a warm reset the derived keys (R771). -/
def CfgSt.afterReset (c : CfgSt) (cold : Bool) : CfgSt :=
  { CfgSt.init with
    keysHeld := !cold && c.keysHeld
    slots := c.slots
    images := c.images
    recs := c.recs
    ctrs := c.ctrs
    boot := c.boot
    current := c.current
    previous := c.previous }

/-- The device resets (R74): every register to its Reset value, sticky fields kept by a warm reset; rings disabled, work in flight lost without
completions, memories and tables emptied, time UNSET from zero (R125), a new session number (R103). What stands outside the reset stays: the
board flash, the power and reset pins, what has left the package. ALERT_OUT falls when nothing asserts it any more (R844). -/
def State.resetTo (s : State) (cold : Bool) (cause : Nat) : State :=
  let alert := s.flag Reg.PWR_STATUS Fld.PWR_STATUS_ALERT
  let t : State :=
    { State.reset with
      regs := if cold then [] else warmRegs s.regs
      logLast := if cold then [] else s.logLast
      host := { HostSt.init with sessions := s.host.sessions + 1 }
      cfg := s.cfg.afterReset cold
      pwr := { s.pwr with warn := [], throttle := [], samples := [] }
      pending := s.pending
      free := s.free
      out := s.out }
  let t := t.setFld Reg.CFG_RESET_CAUSE Fld.CFG_RESET_CAUSE_CAUSE cause
  if !alert then t.alertUpdate
  else if t.alertOn then t.setFlag Reg.PWR_STATUS Fld.PWR_STATUS_ALERT true
  else t.emit (.pin 9 false)

end Sys2Proof.Machine
end

