-- ==== Sys2Proof/Machine/RegAccess.lean ====
section
/-! DEFINITION. Register access over BAR0: where an access lands, what each word reads as, and what a read or a write of it does (R52–R54, R60–R72,
R78–R83, R847–R849, R853). -/
namespace Sys2Proof.Machine

/-! ### Where an access lands (R53, R54, R78, R749) -/

def hostPg : Nat := pg 2 0
def hostLoc : Nat := locBlock 2

/-- Is an address in the block pages, in the tenant windows, in the vendor service window (R53)? -/
def inBlocks (a : Nat) : Bool := decide (0x100000 ≤ a) && decide (a < 0x1700000)
def inWindows (a : Nat) : Bool := decide (0x8000000 ≤ a) && decide (a < 0xC000000)
def inVendor (a : Nat) : Bool := decide (0xC000000 ≤ a) && decide (a < 0x10000000)
/-- The tenant window of an address, and the offset in it. -/
def winOf (a : Nat) : Nat := (a - 0x8000000) / 0x100000
def winOff (a : Nat) : Nat := a % 0x100000

/-- Is an unlock of the vendor service window in force (R80, R789)? -/
def State.vendorOpen (s : State) : Bool :=
  s.flag Reg.SEC_STATUS Fld.SEC_STATUS_UNLOCKED && bit 0 (s.fld Reg.SEC_STATUS Fld.SEC_STATUS_SCOPE)

/-- Does an address lie outside what R54 discards: in an implemented page, in the described part of a tenant window (R749), or in the vendor service
window under an unlock? -/
def State.mapped (s : State) (a : Nat) : Bool :=
  (inBlocks a && pageImplemented (a / 4096)) || (inWindows a && decide (winOff a < 0x1080)) || (inVendor a && s.vendorOpen)

/-- Does a page reset in progress discard an access to this address (R75)? -/
def State.discards (s : State) (a : Nat) : Bool :=
  inBlocks a && s.pageBusy (a / 4096) && !(hasHeader (a / 0x100000) (a / 4096 % 256) && decide (a % 4096 < 0x100))

/-- Is an access refused by R60: a size other than 4 or 8 bytes, or not naturally aligned? -/
def misaligned (a n : Nat) : Bool := (n != 4 && n != 8) || a % n != 0

/-- Is the word at an address of a block page specific to its block, and not of the common header (R66)? -/
def blockSpecific (a : Nat) : Bool := !(hasHeader (a / 0x100000) (a / 4096 % 256) && decide (a % 4096 < 0x100))

/-! ### What the words read as -/

/-- The status words of the rings bound to a tenant window, which its first page mirrors (R78). -/
def State.ringWords (s : State) (w : Nat) : List Nat :=
  (List.range 256).flatMap (fun i =>
    if s.crCfg i Fld.HOST_CR_CFG_OPERATOR = 0 ∧ s.crCfg i Fld.HOST_CR_CFG_TENANT_WIN = w then
      [(s.cr i).state * 2 ^ 30 + (s.cr i).error, (s.cr i).head] else []) ++
  (List.range 256).flatMap (fun j =>
    if s.erCfg j Fld.HOST_ER_CFG_OPERATOR = 0 ∧ s.erCfg j Fld.HOST_ER_CFG_TENANT_WIN = w then
      [(s.er j).prod, (s.er j).overflowed * 2 ^ 31 + (s.er j).dropped] else [])

/-- A word of a tenant window; a window that is not live reads as zero (R78, R749). -/
def State.winWord (s : State) (a : Nat) : Nat :=
  let w := winOf a; let o := winOff a
  if (s.winTenant w).isNone then 0
  else if o < 0x1000 then (s.ringWords w).getD (Config.mirrorOf (o / 4)) 0
  else s.slotMirror w ((o - 0x1000) / 8) >>> (32 * (o / 4 % 2)) % 2 ^ 32

/-- Replaces a field of a word. -/
def putFld (f : Fld) (v w : Nat) : Nat := withBits f.hi f.lo v w

/-- The running physical cores of an Ergan half, a bit each (R46, R725). -/
def State.coresUp (s : State) (h : Nat) : Nat :=
  if s.stageReached 1 then bitsOf ((List.range 9).filter fun k => (s.coreServes h k).isSome) else 0

/-- PAGE_STATUS of a page (R75, R782): the copies it shows. -/
def State.pageStatus (s : State) (p w : Nat) : Nat :=
  let lockPage := if p / 256 = 6 then pg 6 0 else p
  let part := p == pg 0x0E 0 && (List.range 64).any fun k => s.flag (Reg.PEAT_PART_STATUS k) Fld.PEAT_PART_STATUS_RESETTING
  let w := putFld Fld.PAGE_STATUS_BLOCK (Config.pageBlock p) w
  let w := putFld Fld.PAGE_STATUS_PART_RESET_BUSY (b2n part) w
  let w := putFld Fld.PAGE_STATUS_LOCKED (b2n (s.pageLocked lockPage)) w
  let w := putFld Fld.PAGE_STATUS_RESET_BUSY (b2n (s.pageBusy p)) w
  putFld Fld.PAGE_STATUS_ENABLED (b2n (s.stageReached (p / 256))) w

/-- Does a Fen instance run a checker shadow (FEN_STATUS)? -/
def State.shadows (s : State) (n : Nat) : Bool :=
  s.fen.rounds.any fun r => r.chunks.any fun c => c.2.checked && c.2.spare == n && decide (c.2.verdict < 2) && !c.2.finished

/-- PT_PORT_STATUS of a physical port (R341). -/
def State.portStatus (s : State) (p : Nat) : Nat :=
  let hs := s.halves p
  let any := fun (f : Nat → Bool) => b2n (hs.any f)
  bitsOf (s.livePort p) * 256 + any (fun lp => (s.link lp).st.isUp) * 128 + any (fun lp => s.live lp) * 64 +
    any (fun lp => (s.link lp).st == .sluice) * 32 + any (fun lp => (s.link lp).st == .holdDown) * 16

/-- Does a leaf-facing port have a live reed that is PROVISIONAL (OPTICS_FULL)? -/
def State.provisionalLeft (s : State) : Bool :=
  (List.range 512).any fun p => s.role p == 1 && (s.livePort p).any fun r => s.flag (reedReg p r) Fld.OE_REED_PROVISIONAL

/-- A block-specific word whose value follows the block's state: w is what the register table holds. DESIGN CHOICE: STAMP_REED reads 0 while no reed of
the port is live (R136 names none), and on a split port shows the half that has the lowest live reed. -/
def State.liveWord (s : State) (r : RegAt) (w : Nat) : Nat :=
  let n := r.inst
  match r.typ, r.desc.off with
  | 0x01, 0x104 =>
    putFld Fld.MGMT_STATUS_ACTIVE_HALF s.activeHalf
      (b2n (s.flag Reg.CFG_STATUS Fld.CFG_STATUS_STANDBY_READY) * 2 ^ 30 + b2n (s.stageReached 1) * 2 ^ 29 + s.coresUp 1 * 512 + s.coresUp 0)
  | 0x01, 0x10C => s.mpSession
  | 0x01, 0x120 => bitsOf (s.host.keys.map (·.1))
  | 0x02, 0x114 => if n ≤ 4 then let c := s.cr (64 * (n - 1) + r.i); c.state * 2 ^ 30 + c.error else w
  | 0x02, 0x118 => if n ≤ 4 then (s.cr (64 * (n - 1) + r.i)).head else (s.er (64 * (n - 5) + r.i)).prod
  | 0x02, 0x11C => let e := s.er (64 * (n - 5) + r.i); e.overflowed * 2 ^ 31 + e.dropped
  | 0x03, 0x104 =>
    if n = 0 then putFld Fld.TIME_STATUS_SLEWING (b2n (s.time.slew != 0)) (putFld Fld.TIME_STATUS_ADJ_PENDING (b2n s.time.pending.isSome) w) else w
  | 0x03, 0x108 => if n = 2 then (Tbl.getD s.time.captLatch 0 r.i >>> (32 * r.w)) % 2 ^ 32 else w
  | 0x03, 0x110 => if n = 0 then (s.time.nowLatch >>> (32 * r.w)) % 2 ^ 32 else w
  | 0x03, 0x128 => if n = 0 then (s.adjReg >>> (32 * r.w)) % 2 ^ 32 else w
  | 0x03, 0x168 => if n = 0 then putFld Fld.TIME_TXQ_STATUS_DEPTH s.time.txq.length w else w
  | 0x03, 0x170 => if n = 0 then (s.time.txqLatch >>> (32 * r.w)) % 2 ^ 32 else w
  | 0x04, 0x104 => bitsOf ((List.range 8).filter fun j => (s.halves (8 * n + j)).any fun lp => (s.link lp).st.isUp)
  | 0x04, 0x130 => s.portStatus (8 * n + r.i)
  | 0x04, 0xC00 =>
    let q := 2 * (8 * n + r.i)
    putFld Fld.PT_TS_CFG_STAMP_REED (((s.stampReed q).orElse fun _ => if s.isSplit (lp2p q) then s.stampReed (q + 1) else none).getD 0) w
  | 0x06, 0x108 => b2n s.cmpPaused * 128 + (s.pipe n).stash.length
  | 0x08, 0x104 => bitsOf ((List.range 8).filter fun j => s.tideState (8 * n + j) == 2)
  | 0x0A, 0x104 => putFld Fld.CW_STATUS_BUILD_BUSY (b2n (!(s.eng n).builds.isEmpty)) w
  | 0x0A, 0x10C => (s.armed n).length
  | 0x0A, 0x118 => bitsOf ((List.range 32).filter fun l => s.occupied (32 * n + l))
  | 0x0A, 0x200 => (Tbl.getD (s.cwActive n).maps 0 r.i >>> (32 * r.c)) % 2 ^ 32
  | 0x0A, 0xA00 => ((s.eng n).standing >>> (32 * r.i)) % 2 ^ 32
  | 0x0C, 0x104 => putFld Fld.FEN_STATUS_SHADOW (b2n (s.shadows n)) w
  | 0x0D, 0x104 =>
    let t1 := s.flag (Reg.FADM_CTRL n) Fld.FADM_CTRL_T1_EN && s.tierReady 0
    putFld Fld.FADM_STATUS_OPEN_COLLS (s.fen.rounds.filter (·.die == n)).length (putFld Fld.FADM_STATUS_T1_READY (b2n t1) w)
  | 0x0E, 0x104 =>
    if n = 0 then
      putFld Fld.PEAT_STATUS_SPARE_ACTIVE (b2n ((List.range 16).any s.rowSpared)) (putFld Fld.PEAT_STATUS_T2_READY (b2n (s.tierReady 1))
        (putFld Fld.PEAT_STATUS_T1_READY (b2n (s.tierReady 0)) (putFld Fld.PEAT_STATUS_ONLINE (b2n s.peatOnline) w)))
    else w
  | 0x10, 0x104 =>
    if n = 0 then
      putFld Fld.DEL_STATUS_ARCH_READY (b2n s.delRegion.isSome) (putFld Fld.DEL_STATUS_OPEN_WINDOWS s.del.wins.length w)
    else w
  | 0x11, 0x104 =>
    if n = 0 then
      let spent := decide (s.fld Reg.BARO_BUDGET Fld.BARO_BUDGET_BUDGET_N ≤ s.budgetUsed) && !s.baro.held.isEmpty
      b2n spent * 2 ^ 31 + s.fences.length * 65536 + s.baro.held.length
    else w
  | 0x11, 0x108 => if n = 0 then putFld Fld.BARO_BUDGET_USED (min 15 s.budgetUsed) w else w
  | 0x12, 0x104 =>
    if n = 0 then putFld Fld.CHK_STATUS_QDEPTH1 (min 255 (s.spareDepth 1)) (putFld Fld.CHK_STATUS_QDEPTH0 (min 255 (s.spareDepth 0)) w) else w
  | 0x13, 0x104 => if n = 0 then putFld Fld.PMC_STATUS_TAG_UNREAD s.pmc.tags.length w else w
  | 0x13, 0x100 => if n = 3 then s.pmcWait r.i else w
  | 0x15, 0x104 => putFld Fld.CFG_STATUS_OPTICS_FULL (b2n (s.flag Reg.CFG_STATUS Fld.CFG_STATUS_OPTICS_FULL && !s.provisionalLeft)) w
  | _, _ => w

/-- Where a word of a page lives: the global words of the FWT pages have one home, in page 0 (R847, "FWT pages"). -/
def wordHome (r : RegAt) (a : Nat) : Nat :=
  if r.typ = 6 ∧ 0x100 ≤ a % 4096 ∧ a % 4096 ≠ 0x108 then 0x600000 + a % 4096 else a

/-- The word that a register shows, without what reading it does. -/
def State.regWord (s : State) (r : RegAt) (a : Nat) : Nat :=
  let w := (s.rd (wordHome r a)).toNat
  if !blockSpecific a then
    if r.desc.off = 0x00C then s.pageStatus (a / 4096) w
    else if r.desc.off = 0x008 ∧ r.typ = 6 then putFld Fld.PAGE_CTRL_LOCK (b2n (s.pageLocked (pg 6 0))) w
    else w
  else s.liveWord r w

/-- The word at an address, without what reading it does; a word that no register covers reads as zero (R15). -/
def State.wordNow (s : State) (a : Nat) : Nat :=
  if inWindows a then s.winWord a
  else if inVendor a then Config.vendorWord a
  else if s.pageBusy (a / 4096) && blockSpecific a then 0
  else match counterAt a with
    | some c => if a = c then s.cnt c % 2 ^ 32 else s.cnt c / 2 ^ 32
    | none => match regAt a with
      | some r => s.regWord r a
      | none => 0

/-! ### What a read does (R61, R65, R109, R140, R171, R281) -/

/-- What reading the word at an address does to the registers: RC fields and a counter read by its low word clear, a capture or the time is latched. -/
def State.readEffect (s : State) (a : Nat) : State :=
  if !inBlocks a || (s.pageBusy (a / 4096) && blockSpecific a) then s
  else match counterAt a with
    | some c => if a = c then { s with cnts := Tbl.del s.cnts c } else s
    | none => match regAt a with
      | none => s
      | some r =>
        match r.typ, r.inst, r.desc.off, r.w with
        | 3, 0, 0x110, 0 => s.latchNow
        | 3, 2, 0x108, 0 => s.latchCapt r.i
        | 2, n, 0x11C, _ =>
          let j := 64 * (n - 5) + r.i
          s.setEr j { s.er j with dropped := 0 }
        | _, _, _, _ =>
          let m := r.mask (·.acc == .rc)
          if m = 0 then s else s.wr a (s.rd a &&& ~~~(BitVec.ofNat 32 m))

/-- Is the word at an address the low word of a 64-bit register: of a block page, or of a counter mirror of a tenant window (R749)? -/
def lowOfWide (a : Nat) : Bool :=
  if inWindows a then decide (0x1000 ≤ winOff a) && decide (winOff a < 0x1080) && a % 8 == 0
  else if !inBlocks a then false
  else match counterAt a with
  | some c => a == c
  | none => match regAt a with
    | some r => r.desc.bytes == 8 && r.w == 0
    | none => false

/-- Reads one word: a high word latched by the read of its low word is returned once (R61); the read of the top word of TIME_TXQ_ENTRY takes the head
of the queue (R140). A block-specific register of a page in reset answers nothing, not even a word latched before (R75). -/
def State.wordRead (s : State) (a : Nat) : Nat × State :=
  if s.discards a then (0, s)
  else match Tbl.find s.host.latch a with
  | some v => (v.toNat, { s with host := { s.host with latch := Tbl.del s.host.latch a } })
  | none =>
    if a = Reg.TIME_TXQ_ENTRY + 12 ∧ s.pageBusy pgTime = false then s.popStamp
    else
      let v := if a = Reg.TIME_NOW ∧ s.pageBusy pgTime = false then s.nowReg % 2 ^ 32
        else match regAt a with
          | some r => if r.typ = 3 ∧ r.inst = 2 ∧ r.desc.off = 0x108 ∧ r.w = 0 ∧ s.pageBusy (pg 3 2) = false then (s.latchCapt r.i).wordNow a else s.wordNow a
          | none => s.wordNow a
      let t := s.readEffect a
      (v, if lowOfWide a then { t with host := { t.host with latch := Tbl.put t.host.latch (a + 4) (BitVec.ofNat 32 (s.wordNow (a + 4))) } } else t)

/-- Reads eight bytes at once (R61). -/
def State.wideRead (s : State) (a : Nat) : Nat × State :=
  if s.discards a then (0, s) else
  let s := { s with host := { s.host with latch := Tbl.del s.host.latch (a + 4) } }
  if a = Reg.TIME_TXQ_ENTRY + 8 then
    let (hi, s) := s.wordRead (a + 4)
    (s.wordNow a + 2 ^ 32 * hi, s)
  else if lowOfWide a then
    let hi := s.wordNow (a + 4)
    (s.wordNow a + 2 ^ 32 * hi, s.readEffect a)
  else
    let (lo, s) := s.wordRead a
    let (hi, s) := s.wordRead (a + 4)
    (lo + 2 ^ 32 * hi, s)

/-- A register read of n bytes (R54, R60): whether it was discarded, the value, the state after it. A device held in reset answers nothing. -/
def State.readAcc (s : State) (a n : Nat) : Bool × Nat × State :=
  if s.pwr.held then (true, 0, s)
  else if misaligned a n then (true, 0, s.logErr hostPg 0x0001 0 hostLoc)
  else if !s.mapped a then (true, 0, s)
  else if n = 8 then (false, s.wideRead a)
  else (false, s.wordRead a)

/-! ### Rings, vectors and windows (R81, R83, R89, R101, R849) -/

/-- Ring i takes an enable: the tail line is read, and held shared from then on (R86); the count it held is `tail` (R83, R89). -/
def State.crEnable (s : State) (i tail : Nat) : State :=
  let s := s.emit (.rdShared false i (s.crLine i))
  let n := s.crCfg i Fld.HOST_CR_CFG_LOG2_SIZE
  if 6 ≤ n ∧ n ≤ 16 then s.setCr i ⟨tail % 2 ^ 32, 1, 0, false, tail % 2 ^ 32, tail % 2 ^ 32⟩
  else (s.setCr i ⟨(s.cr i).head, 2, 2, false, 0, 0⟩).ringError i 2

/-- A write of HOST_CR_CFG (R83): fields other than ENABLE only while ENABLE is 0; a rise of ENABLE loads the tail count, a fall stops the ring. -/
def State.crCfgWrite (s : State) (i v tail : Nat) : State :=
  let a := Reg.HOST_CR_CFG (crPage i) (i % 64)
  let was := s.flag a Fld.HOST_CR_CFG_ENABLE
  if was then
    if bit 31 v then s else (s.setFld a Fld.HOST_CR_CFG_ENABLE 0).setCr i { CrSt.init with head := (s.cr i).head }
  else
    let s := s.wr a (BitVec.ofNat 32 v &&& 0x80FFBF1F)
    if bit 31 v then s.crEnable i tail else s

/-- May command ring i fetch: it runs, its tenant window is live (R81), and its event ring holds no completion back (R98)? -/
def State.crMayFetch (s : State) (i : Nat) : Bool :=
  let live := match s.ringWindow i with
    | none => true
    | some w => (s.winTenant w).isSome
  (s.cr i).state == 1 && live && (s.er (s.crCfg i Fld.HOST_CR_CFG_EVENT_RING)).waitingOf true == 0

/-- Fetches with RdCurr the entries up to the tail count last read (R86). -/
def State.crFetch (s : State) (i : Nat) : State :=
  let c := s.cr i
  if s.crMayFetch i ∧ c.tail ≠ c.fetchTo then (s.setCr i { c with fetchTo := c.tail }).emit (.rdCurr i c.fetchTo c.tail
    ((List.range ((c.tail + 2 ^ 32 - c.fetchTo) % 2 ^ 32)).map fun k => s.crAddr i ((c.fetchTo + k) % 2 ^ 32))) else s

/-- The command rings of which p holds take up fetching again. -/
def State.crResume (s : State) (p : State → Nat → Bool) : State :=
  (List.range 256).foldl (fun s i => if p s i then s.crFetch i else s) s

/-- Does command ring i send its completions to event ring j? -/
def State.crOfEr (j : Nat) (s : State) (i : Nat) : Bool := s.crCfg i Fld.HOST_CR_CFG_EVENT_RING == j

/-- What is held back or queued for event ring j goes to firmware, in the order in which it arose, and its command rings fetch again (R849). -/
def State.erRelease (s : State) (j : Nat) : State :=
  ((s.er j).waiting.foldl (fun s e => s.emit (.firmware e)) (s.setEr j { s.er j with waiting := [] })).crResume (State.crOfEr j)

/-- A write of HOST_ER_CFG (R89, R849): a rise of ENABLE starts the ring at count 0, its consumer line read and held shared (R96) with the count given,
unless LOG2_SIZE is out of range; a fall hands what waits to firmware. -/
def State.erCfgWrite (s : State) (j v cons : Nat) : State :=
  let a := Reg.HOST_ER_CFG (erPage j) (j % 64)
  let was := s.flag a Fld.HOST_ER_CFG_ENABLE
  let s := s.wr a (BitVec.ofNat 32 v &&& 0x87FFBF1F)
  let n := v % 32
  if bit 31 v && !was then
    if 6 ≤ n ∧ n ≤ 16 then (s.setEr j { s.er j with prod := 0, cons := cons % 2 ^ 32, seq := 0 }).emit (.rdShared true j (s.erLine j))
    else (s.setFld a Fld.HOST_ER_CFG_ENABLE 0).logErr hostPg 0x0004 0 hostLoc
  else if was && !bit 31 v then s.erRelease j
  else s

/-- A vector is no longer masked: its pending message goes (R101). -/
def State.msixUnmasked (s : State) (v : Nat) : State :=
  let a := Reg.MSIX_PENDING (v / 32)
  if bit (v % 32) (s.rd a).toNat then (s.wr a (s.rd a &&& ~~~(BitVec.ofNat 32 (2 ^ (v % 32))))).sendMsix v else s

/-- A write of MSIX_CTRL of a vector. -/
def State.msixCtrlWrite (s : State) (v w : Nat) : State :=
  let s := s.setFld (Reg.MSIX_CTRL (16 + v / 256) (v % 256)) Fld.MSIX_CTRL_MASK (w % 2)
  if w % 2 = 0 then s.msixUnmasked v else s

/-- A write of HOST_TW_BIND (R81, R750): rings bound to a window that is not live fetch nothing, and fetch again once it is. -/
def State.twBindWrite (s : State) (w v : Nat) : State :=
  ((s.wr (Reg.HOST_TW_BIND w) (BitVec.ofNat 32 v &&& 0x8000FFFF)).slotOpenClear).crResume fun s i => s.ringWindow i == some w

/-- A write of HOST_RESET (R74): the key sequence, within 1 µs. -/
def State.hostKeyWrite (s : State) (v : Nat) : State :=
  let inTime := match s.host.rstKey with
    | some t => decide ((s.time.ticks - t) * 128 ≤ 100000)
    | none => false
  if v = 0xA55A then { s with host := { s.host with rstKey := some s.time.ticks } }
  else if v = 0x5AA5 ∧ inTime = true then s.resetTo false 3
  else { s with host := { s.host with rstKey := none } }

/-! ### Page resets (R75, R847, R853) -/

/-- Is a command one that acts on page p: of its block, and on the page's own unit where its TARGET names one (R41, R74)? -/
def onPageOf (p opcode target : Nat) : Bool :=
  let n := p % 256
  opcode / 256 == p / 256 && match opcode with
    | 0x0401 | 0x0403 => target / 16 == n
    | 0x0802 | 0x0803 | 0x0804 | 0x0805 => target / 8 == n
    | 0x0901 | 0x0902 => target / 32 == n
    | 0x0903 => if target < 16 then target == n else target - 16 == n / 2
    | 0x0A02 | 0x0A03 => target == n
    | 0x0D02 | 0x0D03 | 0x0D04 | 0x0D05 | 0x0D06 => target == n
    | _ => true

/-- Completes a command with ABORTED. -/
def State.abortCmd (s : State) (block : Nat) (h : Option CmdHdr) : State :=
  match h with | some h => s.complete h block ⟨6, 0, 0, []⟩ | none => s

/-- Commands on page p that run until a later event complete with ABORTED (R74); what they have set going in the block goes on without them, but for
takeovers, chains and broadcasts, which are the command's own. A page of one engine aborts that engine's commands alone (R41). -/
def State.abortRunning (s : State) (p : Nat) : State :=
  let t := p / 256
  let n := p % 256
  match t with
  | 0x01 =>
    let s := s.cfg.bcasts.foldl (fun s b => s.abortCmd t (some b.hdr)) s
    s.setCfg fun c => { c with bcasts := [] }
  | 0x03 =>
    let cs := s.time.cal
    cs.foldl (fun s c => (s.hairpin c.port false).abortCmd t (some c.hdr)) (s.setCal [])
  | 0x09 =>
    let o := s.optics
    let (rc, rc') := o.reedCmds.partition fun x => x.2.1 / 32 == n
    let (mc, mc') := o.runCmds.partition fun x => x.2.1 / 32 == n
    let (ids, ids') := o.idReads.partition fun h => onPageOf p 0x0903 h.target
    let hs := rc.map (·.1) ++ mc.map (·.1) ++ ids
    hs.foldl (fun s h => s.abortCmd t (some h)) { s with optics := { o with reedCmds := rc', runCmds := mc', idReads := ids' } }
  | 0x0A =>
    (s.optics.eng.filter fun e => e.1 == n).foldl (fun s e =>
      let hs := e.2.builds.filterMap fun (b : CwBuild) => b.hdr
      let f := fun (b : CwBuild) => { b with hdr := none }
      hs.foldl (fun s h => s.abortCmd t (some h)) (s.setEng e.1 { e.2 with builds := e.2.builds.map f })) s
  | 0x0E =>
    let f := fun (x : Nat × Option CmdHdr) => ((x.1, none) : Nat × Option CmdHdr)
    s.peat.resetWait.foldl (fun s x => s.abortCmd t x.2) (s.setPeat fun q => { q with resetWait := q.resetWait.map f })
  | 0x12 =>
    let f := fun (x : IftTest) => { x with hdr := none }
    s.chk.tests.foldl (fun s x => s.abortCmd t x.hdr) { s with chk := { s.chk with tests := s.chk.tests.map f } }
  | 0x15 =>
    let s := match s.cfg.takeover with
      | some x => s.takeoverEnds.abortCmd t (some x.hdr)
      | none => s
    let own := s.cfg.chainHead
    let s := own.foldl (fun s x => (s.dropTx (s.spineAddr 0) x.xfer).abortCmd t (some x.hdr)) s
    s.setCfg fun c => { c with chainHead := [] }
  | _ => s

/-- Commands on page p that have not completed complete with ABORTED (R74). -/
def State.abortPage (s : State) (p : Nat) : State := (s.abortRunning p).abortListed fun x => onPageOf p x.opcode x.target

/-- A page's register words with its RW, WO, W1S, W1C and RC fields at their Reset values; the common header, RWL, RO and global fields are kept
(R847). TIME_INCR returns when the reset completes (R853). -/
def resetPageRegs (p : Nat) (t : Tbl Word) : Tbl Word :=
  t.filterMap fun e =>
    if e.1 / 4096 ≠ p ∨ !blockSpecific e.1 ∨ (p = pgTime ∧ e.1 % 4096 / 8 * 8 = 0x120) then some e
    else match regAt e.1 with
      | none => some e
      | some r =>
        let keep := BitVec.ofNat 32 (r.mask fun f => f.glob || f.acc == .rwl || f.acc == .ro)
        let w := e.2 &&& keep ||| resetWord e.1 &&& ~~~keep
        if w = resetWord e.1 then none else some (e.1, w)

/-- The rings, vectors and windows of a HOST page at its reset: every ring stops as on a write of ENABLE = 0. -/
def State.resetHostPage (s : State) (n : Nat) : State :=
  if n = 0 then { s with host := { s.host with rstKey := none } }.slotOpenClear
  else if n ≤ 4 then
    (List.range 64).foldl (fun s k => let i := 64 * (n - 1) + k; s.setCr i { CrSt.init with head := (s.cr i).head }) s
  else if n ≤ 8 then
    (List.range 64).foldl (fun s k => let j := 64 * (n - 5) + k; (s.erRelease j).setEr j { (s.erRelease j).er j with overflowed := 0, dropped := 0 }) s
  else s

/-- LIST_EN returns to 1 on the ports of a tile that had it at 0: those with an active bank take it up again (R386, R847). -/
def State.listsTakenUp (s : State) (n : Nat) (off : List Nat) : State :=
  (off.filter fun j => (s.portTide (8 * n + j)).hasActive).foldl (fun s j =>
    let q := 8 * n + j
    (s.setTideState q 1).setCycle q ((s.activeBank q).cycleFrom (max s.nowC s.resumeC))) s

/-- The ports of a tile whose lists are disabled. -/
def State.listsOff (s : State) (n : Nat) : List Nat :=
  (List.range 8).filter fun j => !s.flag (Reg.TIDE_PORT_CFG n j) Fld.TIDE_PORT_CFG_LIST_EN

/-- What fields of a page that return to their Reset values do to the block's state, as a write of that value would (R847, R853); `off`: the ports of a
TIDE page whose lists were disabled. -/
def State.resetEffects (s : State) (p : Nat) (off : List Nat) : State :=
  let n := p % 256
  match p / 256 with
  | 0x02 => s.resetHostPage n
  | 0x03 =>
    if n = 0 then { s with time := { s.time with slew := 0, pending := none, held := [], stepKey := none } }
    else s
  | 0x04 =>
    { s with sw := { s.sw with drzGen := Tbl.del s.sw.drzGen n, pol := s.sw.pol.filter fun x => x.1 / 64 != n } }
  | 0x05 => ({ s with sw := { s.sw with lfsr := Tbl.del s.sw.lfsr n } }).satJudge n (List.range 8)
  | 0x08 => { s with tide := { s.tide with shp := s.tide.shp.filter fun x => x.1 / 128 != n } }.listsTakenUp n off
  | 0x0B => s.lightsOut n
  | 0x0D => { s with fen := { s.fen with salts := Tbl.set s.fen.salts 0 n 0 } }
  | 0x10 => if n = 1 then s.setTrace { s.del.trace with mark := 0 } else s
  | 0x13 => if n = 0 then s.setPmc fun q => { q with tagDraws := 0 } else s
  | 0x16 => s.alertUpdate
  | _ => s

/-- A page reset begins (R74, R75, R847): the block's commands abort, the page's fields and counters reset, its snapshots clear; it is busy until
PAGE_RESET_COMPLETE. -/
def State.pageReset (s : State) (p : Nat) : State :=
  if s.pageBusy p then s
  else
    let s := s.abortPage p
    let off := if p / 256 = 8 then s.listsOff (p % 256) else []
    let s := if p / 256 = 5 then s.satJudge (p % 256) (List.range 8) else s
    let s := (({ s with regs := resetPageRegs p s.regs }).clearCnts p).resetEffects p off
    let s := s.setDel fun d => { d with
      snaps := d.snaps.filter fun x => x.1 / 4096 != p
      snapLinks := d.snapLinks.filter fun x => !(pagePorts p).contains x.1 }
    let s := (s.setFlag (Reg.PAGE_STATUS p) Fld.PAGE_STATUS_SNAP_VALID false).wrWide (Reg.PAGE_SNAP_TIME p) 0 2
    s.setFlag (Reg.PAGE_CTRL p) Fld.PAGE_CTRL_SOFT_RESET true

/-- A page reset completes (R75, R853). -/
def State.pageResetDone (s : State) (p : Nat) : State :=
  if s.pageBusy p then
    let s := s.setFlag (Reg.PAGE_CTRL p) Fld.PAGE_CTRL_SOFT_RESET false
    if p = pgTime then
      let s := s.wrWide Reg.TIME_INCR 0x147AE147B 2
      { s with time := { s.time with holdFrom := s.time.ticks } }
    else s
  else s

/-! ### Writes (R60–R64) -/

/-- The common rules of a write of a word: RW and RWL fields take it, W1C fields clear where it is 1, other fields ignore it. -/
def State.plainWrite (s : State) (r : RegAt) (a v : Nat) : State :=
  let a := wordHome r a
  let rw := BitVec.ofNat 32 (r.mask fun f => f.acc == .rw || f.acc == .rwl)
  let w1c := BitVec.ofNat 32 (r.mask fun f => f.acc == .w1c)
  let v := BitVec.ofNat 32 v
  s.wr a ((s.rd a &&& ~~~rw ||| v &&& rw) &&& ~~~(v &&& w1c))

/-- Clears the error log of a page (R71, PAGE_ERR_CLEAR). -/
def State.errClear (s : State) (p : Nat) : State :=
  let a := Reg.PAGE_ERR_STATUS p
  let s := ((s.setFld a Fld.PAGE_ERR_STATUS_TOTAL 0).setFld a Fld.PAGE_ERR_STATUS_FIRST_VALID 0).setFld a Fld.PAGE_ERR_STATUS_NEXT 1
  { s with logLast := Tbl.del s.logLast p }

/-- Sets bits of PAGE_IRQ_STATUS by PAGE_IRQ_FORCE: one event at most (R69), and a trace of each source that becomes set (R673). -/
def State.irqForce (s : State) (p v : Nat) : State :=
  let a := Reg.PAGE_IRQ_STATUS p
  let old := (s.rd a).toNat
  let new := (List.range 32).filter fun b => bit b v && !bit b old
  new.foldl (fun s b => s.trace 2 b 0 (p / 256) (p % 256) []) (s.irqStore p a (s.rd a ||| BitVec.ofNat 32 v))

/-- A write of PAGE_CTRL (R64, R74): ENABLE and SNAP_ARM are taken, LOCK is set (in the FWT pages for all sixteen), SOFT_RESET starts a page reset. -/
def State.pageCtrlWrite (s : State) (p v : Nat) : State :=
  let a := Reg.PAGE_CTRL p
  let s := (s.setFld a Fld.PAGE_CTRL_ENABLE (v % 2)).setFld a Fld.PAGE_CTRL_SNAP_ARM (bits 2 2 v)
  let s := if bit 3 v then s.setFld (Reg.PAGE_CTRL (if p / 256 = 6 then pg 6 0 else p)) Fld.PAGE_CTRL_LOCK 1 else s
  if bit 1 v then s.pageReset p else s

/-- A write of a word of the common header (R66). -/
def State.headerWrite (s : State) (r : RegAt) (a v : Nat) : State :=
  let p := a / 4096
  match r.desc.off with
  | 0x008 => s.pageCtrlWrite p v
  | 0x010 => s.irqStore p a (s.rd a &&& ~~~(BitVec.ofNat 32 v))
  | 0x014 => s.irqStore p a (BitVec.ofNat 32 v)
  | 0x018 => s.irqForce p v
  | 0x044 => if bit 0 v then s.errClear p else s
  | _ => s.plainWrite r a v

/-- A port's role or other settings change (R28, R344, R409): set to unused, its links leave, its reeds go dark and
the device ignores the light on its receive side, so that no report of lock or alignment stands; in use again, its lit rings sweep. -/
def State.portCfgChange (s : State) (r : RegAt) (a v : Nat) : State :=
  let p := 8 * r.inst + r.i
  let was := s.role p
  let hs := s.halves p
  let split := bit 29 v != s.isSplit p
  let s := if split then s.satJudge r.inst (List.range 8) else s
  let s := s.plainWrite r a v
  let s := if split then s.satJudge r.inst (List.range 8) else s
  let now := s.role p
  if was ≠ 0 ∧ now = 0 then
    let s := hs.foldl (fun s lp => match (s.link lp).st with
      | .align => s.setLinkState lp .down
      | .hello => s.setLinkState lp .down
      | _ => s.leaveUp lp 1) s
    hs.foldl (fun s lp => s.reportUnlocked lp) ((List.range 4).foldl (fun s x => (s.setLive p x false).setRing p x false 4) s)
  else if was = 0 ∧ now ≠ 0 ∧ s.flag (Reg.ELS_STATUS (p / 64)) Fld.ELS_STATUS_LASING then
    (List.range 4).foldl (fun s x => if s.causeLaser p x then s else s.ringStart p x) s
  else s

/-- The whole of an 8-byte register with one word replaced. -/
def State.withWord (s : State) (r : RegAt) (a v : Nat) : Nat :=
  if r.w = 0 then v + (s.rd (a + 4)).toNat * 2 ^ 32 else (s.rd (a - 4)).toNat + v * 2 ^ 32

/-- The word of TIME_INCR, TIME_ADJ or TIME_SET held at an address, or else the one in force (R117). -/
def State.heldWord (s : State) (a : Nat) : Nat := ((Tbl.find s.time.held a).getD (s.rd a)).toNat

/-- A write of a word of TIME page 0 (R115–R127). -/
def State.timeWrite (s : State) (r : RegAt) (a v : Nat) : State :=
  let hold := fun (s : State) => { s with time := { s.time with held := Tbl.put s.time.held a (BitVec.ofNat 32 v) } }
  match r.desc.off with
  | 0x100 =>
    let s := s.plainWrite r a v
    if bit 1 v then s.declareLost else if bit 2 v then s.declareLock else s
  | 0x120 => if r.w = 0 then (s.commitIncr (v + s.heldWord (a + 4) * 2 ^ 32)).dropHeld [a + 4] else hold s
  | 0x128 => if r.w = 0 then (s.commitAdj (v + s.heldWord (a + 4) * 2 ^ 32)).dropHeld [a + 4] else hold s
  | 0x138 => s.stepKeyWrite v
  | 0x13C => s.heartbeat
  | 0x180 =>
    if r.w = 3 then (s.commitSet (v % 65536 * 2 ^ 32 + s.heldWord (a - 4)) (s.heldWord (a - 8) % 2 ^ 30)).dropHeld [a - 4, a - 8, a - 12]
    else hold s
  | _ => s.plainWrite r a v

/-- A write of a word of a HOST page. -/
def State.hostWrite (s : State) (r : RegAt) (a v : Nat) : State :=
  let n := r.inst
  if n = 0 then
    match r.desc.off with
    | 0x104 => s.hostKeyWrite v
    | 0x200 => s.twBindWrite r.i v
    | _ => s.plainWrite r a v
  else if n ≤ 4 then
    let i := 64 * (n - 1) + r.i
    match r.desc.off with
    | 0x110 => let (t, s) := s.draw; s.crCfgWrite i v t
    | _ => if s.crCfg i Fld.HOST_CR_CFG_ENABLE = 1 then s else s.plainWrite r a v
  else if n ≤ 8 then
    let j := 64 * (n - 5) + r.i
    match r.desc.off with
    | 0x110 => let (t, s) := s.draw; s.erCfgWrite j v t
    | 0x114 => (s.plainWrite r a v).erSignal j
    | 0x11C => if bit 31 v then s.setEr j { s.er j with overflowed := 0 } else s
    | _ => s.plainWrite r a v
  else if n ≤ 23 ∧ r.desc.off = 0x00C then s.msixCtrlWrite (256 * (n - 16) + r.i) v
  else s.plainWrite r a v

/-- The bit of a page's control register that clears its counters. -/
def cntClearBit (typ n : Nat) : Nat :=
  match typ with
  | 6 => 2 | 9 => 3 | 0x0A => 1 | 0x0D => 2 | 0x0E => 2
  | 0x0F => if n = 0 then 1 else 0
  | _ => 0

/-- Is this the control register of a page, with CNT_CLEAR among its fields? -/
def isCntCtrl (r : RegAt) : Bool :=
  if r.typ = 0x0F ∧ r.inst ≠ 0 then r.desc.off == 0x104
  else r.desc.off == 0x100 && r.w == 0 && r.desc.fields.any fun f => f.acc == .wo && f.lo == cntClearBit r.typ r.inst && f.hi == f.lo

/-- A write of a control register: its fields are taken and CNT_CLEAR clears the page's counters (R281); PWR's clears every PEAK too. -/
def State.ctrlWrite (s : State) (r : RegAt) (a v : Nat) : State :=
  let s := s.plainWrite r a v
  if bit (cntClearBit r.typ r.inst) v then
    let s := s.clearCnts (a / 4096)
    if r.typ = 0x16 then (List.range 19).foldl (fun s k => s.setFld (Reg.PWR_TEMP k) Fld.PWR_TEMP_PEAK 0x8000) s else s
  else s

/-- A write of OE_CTRL: with ID_OVERRIDE falling while the record is invalid, the engine's gates close (R421). -/
def State.oeCtrlWrite (s : State) (r : RegAt) (a v : Nat) : State :=
  let n := r.inst
  let t := s.ctrlWrite r a v
  if s.flag a Fld.OE_CTRL_ID_OVERRIDE && !t.flag a Fld.OE_CTRL_ID_OVERRIDE && !s.flag (Reg.OE_STATUS n) Fld.OE_STATUS_ID_OK then t.closeEngine n else t

/-- A write of a block-specific word; `v` has the locked fields at the values they hold. -/
def State.blockWrite (s : State) (r : RegAt) (a v : Nat) : State :=
  let n := r.inst
  match r.typ, r.desc.off with
  | 0x02, _ => s.hostWrite r a v
  | 0x03, off =>
    if n = 0 then s.timeWrite r a v
    else if n = 1 then
      if off = 0x100 then s.tpoCtrlWrite r.i v
      else if s.flag (Reg.TPO_CTRL r.i) Fld.TPO_CTRL_ENABLE then s
      else s.plainWrite r a v
    else s.plainWrite r a v
  | 0x04, 0x100 => s.ptCtrlWrite n v
  | 0x04, 0x110 => s.portCfgChange r a v
  | 0x04, 0x200 => s.polWrite (16 * n + 2 * r.i) r.c 0 v
  | 0x04, 0x204 => s.polWrite (16 * n + 2 * r.i) r.c 1 v
  | 0x04, 0x208 => s.polWrite (16 * n + 2 * r.i) r.c 2 v
  | 0x04, 0x20C => s.polWrite (16 * n + 2 * r.i) r.c 3 v
  | 0x05, 0x100 => s.qmCtrlWrite n v
  | 0x05, 0x200 => s.limitWrite n r.i r.c v
  | 0x05, 0x400 => ((s.satJudge n [r.i]).plainWrite r a v).satJudge n [r.i]
  | 0x08, 0x140 => s.portCfgWrite (8 * n + r.i) v
  | 0x08, 0x300 => s.shpWrite (8 * n + r.i) r.c (s.withWord r a v)
  | 0x09, 0x100 => s.oeCtrlWrite r a v
  | 0x0B, 0x100 => s.elsCtrlWrite n v
  | 0x0D, 0x108 => s.saltSeedWrite n v
  | 0x10, 0x108 => if n = 0 then s.windowWrite v else s.plainWrite r a v
  | 0x10, 0x140 => if n = 1 then s.traceCtrlWrite v else s.plainWrite r a v
  | 0x10, 0x160 =>
    let m := withBits (32 * r.w + 31) (32 * r.w) v s.del.trace.mark
    let s := s.setTrace { s.del.trace with mark := m }
    if r.w = 3 then s.traceMark m else s
  | 0x13, 0x100 =>
    if n = 0 then s.pmcCtrlWrite v
    else if n = 1 then s.slotCfgWrite r.i (s.withWord r a v)
    else s.plainWrite r a v
  | 0x16, 0x108 => (s.plainWrite r a v).alertUpdate
  | 0x16, 0x10C => (s.plainWrite r a v).alertUpdate
  | 0x16, 0x118 => if bit 0 v then s.alertSource 5 else s
  | _, _ => if isCntCtrl r then s.ctrlWrite r a v else s.plainWrite r a v

/-- Is the page of a register locked: in the FWT pages by the one lock they share (R64)? -/
def State.lockedFor (s : State) (r : RegAt) : Bool := s.pageLocked (if r.typ = 6 then pg 6 0 else pg r.typ r.inst)

/-- The RWL bits of a word. -/
def rwlMask (r : RegAt) : Nat := r.mask (·.acc == .rwl)

/-- Would a write of v change a locked RWL field of the word at a (R64)? -/
def State.lockHit (s : State) (a v : Nat) : Bool :=
  match regAt a with
  | none => false
  | some r => s.lockedFor r && ((s.rd (wordHome r a)).toNat ^^^ v) &&& rwlMask r != 0

/-- Writes one word: locked RWL fields keep their values (R64); during a page reset a block-specific word is discarded (R75). -/
def State.wordWrite (s : State) (a v : Nat) : State :=
  if !inBlocks a then s
  else match regAt a with
    | none => s
    | some r =>
      if blockSpecific a then
        if s.pageBusy (a / 4096) then s
        else if s.lockHit a v then
          let m := rwlMask r
          let old := (s.rd (wordHome r a)).toNat
          if m = r.mask (fun f => f.acc != .ro) then s else s.blockWrite r a ((old &&& m) ||| (v &&& (2 ^ 32 - 1 - m)))
        else s.blockWrite r a v
      else if s.lockHit a v then s
      else s.headerWrite r a v

/-- Is the address the low word of a register that an 8-byte write takes as a whole or commits by its low word (R61, R117)? -/
def takesWhole (a : Nat) : Bool :=
  match regAt a with
  | some r => r.w == 0 && ((r.typ == 8 && r.desc.off == 0x300) || (r.typ == 0x13 && r.inst == 1) || (r.typ == 3 && r.inst == 0 &&
      (r.desc.off == 0x120 || r.desc.off == 0x128)))
  | none => false

/-- Writes eight bytes at once (R61). -/
def State.wideWrite (s : State) (a v : Nat) : State :=
  let lo := v % 2 ^ 32; let hi := v / 2 ^ 32 % 2 ^ 32
  if takesWhole a then
    if s.pageBusy (a / 4096) then s
    else match regAt a with
      | none => s
      | some r =>
        if r.typ = 8 then s.shpWrite (8 * r.inst + r.i) r.c v
        else if r.typ = 0x13 then s.slotCfgWrite r.i v
        else (s.wordWrite (a + 4) hi).wordWrite a lo
  else (s.wordWrite a lo).wordWrite (a + 4) hi

/-- A register write of n bytes (R54, R60, R64): whether it was discarded, and the state after it. A change of a locked field is logged once for the
access. A device held in reset takes nothing. -/
def State.writeAcc (s : State) (a n v : Nat) : Bool × State :=
  if s.pwr.held then (true, s)
  else if misaligned a n then (true, s.logErr hostPg 0x0001 0 hostLoc)
  else if !s.mapped a then (true, s.addFld Reg.HOST_UNMAPPED_CNT Fld.HOST_UNMAPPED_CNT_COUNT 1)
  else
    let hit := s.lockHit a (v % 2 ^ 32) || (n == 8 && s.lockHit (a + 4) (v / 2 ^ 32 % 2 ^ 32))
    let busy := s.pageBusy (a / 4096) && blockSpecific a
    let t := if n = 8 then s.wideWrite a v else s.wordWrite a (v % 2 ^ 32)
    (false, if inBlocks a && hit && !busy then t.logErr (a / 4096) 0x0002 0 (locPage (a / 4096)) else t)

/-- May a requester reach an address (R53, R94): a tenant only its window? -/
def reaches (who : Requester) (a : Nat) : Bool :=
  match who with
  | .tenant w => inWindows a && winOf a == w
  | _ => true

end Sys2Proof.Machine
end

