-- ==== Sys2Proof/Machine/Host.lean ====
section
/-! DEFINITION. Chapter 2: the CXL port, register access, the rings, MSI-X, and management frames (R49–R108, R847–R851). -/
namespace Sys2Proof.Machine

/-! ### Register access and the common page header -/

/-- REGISTER_WRITE (R54, R60–R64): a write of 4 or 8 bytes, from a requester that reaches the address (R53). -/
def execRegisterWrite (addr size value : Nat) (who : Requester) (s : State) : Result :=
  .next (if reaches who addr then (s.writeAcc addr size value).2 else s)

/-- A register read answers its requester. -/
def State.hostRead (s : State) (addr size : Nat) (who : Requester) : State :=
  if reaches who addr then
    let (_, v, t) := s.readAcc addr size
    t.emit (.readData addr v)
  else s

/-- RC_FIELD_READ (R65): a read; its RC fields clear in the same access. -/
def execRcFieldRead (addr size : Nat) (who : Requester) (s : State) : Result := .next (s.hostRead addr size who)

/-- SPLIT_64BIT_READ (R61): a 4-byte read; one of a low word latches the high word for the next read of it. -/
def execSplit64bitRead (addr : Nat) (who : Requester) (s : State) : Result := .next (s.hostRead addr 4 who)

/-- Writes a common-header register of a page that has one. -/
def State.onHeader (s : State) (p : Nat) (f : State → State) : State :=
  if s.pwr.held || !pageImplemented p || !hasHeader (p / 256) (p % 256) then s else f s

/-- PAGE_CTRL with a bit set, the other fields as they are. -/
def State.pageCtrlSet (s : State) (p b : Nat) : State :=
  s.pageCtrlWrite p ((s.rd (Reg.PAGE_CTRL p)).toNat % 2 + bits 2 2 (s.rd (Reg.PAGE_CTRL p)).toNat * 4 + 2 ^ b)

/-- PAGE_LOCK (R64): PAGE_CTRL.LOCK is written to 1. -/
def execPageLock (page : Nat) (s : State) : Result := .next (s.onHeader page (·.pageCtrlSet page 3))

/-- PAGE_RESET (R74, R75, R847): PAGE_CTRL.SOFT_RESET is written to 1. -/
def execPageReset (page : Nat) (s : State) : Result := .next (s.onHeader page (·.pageCtrlSet page 1))

/-- PAGE_RESET_COMPLETE (R75): the reset under way ends. -/
def execPageResetComplete (page : Nat) (s : State) : Result := .next (s.onHeader page (·.pageResetDone page))

/-- PAGE_IRQ_FORCE (R69): sources are set as hardware would set them. -/
def execPageIrqForce (page value : Nat) (s : State) : Result := .next (s.onHeader page (·.irqForce page value))

/-- PAGE_ERR_CLEAR (R71): TOTAL and FIRST_VALID clear, NEXT is 1. -/
def execPageErrClear (page : Nat) (s : State) : Result := .next (s.onHeader page (·.errClear page))

/-! ### HOST page 0 and the CXL port -/

/-- HOST_RESET_KEY (R74): a write of HOST_RESET. -/
def execHostResetKey (value : Nat) (s : State) : Result :=
  .next (s.onPage hostPg (·.hostKeyWrite value))

/-- TENANT_WINDOW_BIND (R78, R81): a write of HOST_TW_BIND. -/
def execTenantWindowBind (win value : Nat) (s : State) : Result :=
  .next (s.onPage hostPg (·.twBindWrite win value))

/-- CXL_LINK_TRAIN (R49–R51): the link trains at x16 or x8 and 64 or 32 GT/s; through a switch it is held down. Link training begins with the
firmware stage (R781), and HOST page 0 is served in recovery too (R784). -/
def execCxlLinkTrain (wide fast switched cache mem : Bool) (s : State) : Result :=
  let a := Reg.HOST_LINK_STATUS
  if s.pwr.held || !(s.stageReached 2 || s.flag Reg.CFG_STATUS Fld.CFG_STATUS_RECOVERY) then .next s
  else if switched then
    .next ((s.setFlag a Fld.HOST_LINK_STATUS_SWITCHED true).setFlag a Fld.HOST_LINK_STATUS_UP false)
  else
    let s := (s.setFlag a Fld.HOST_LINK_STATUS_SWITCHED false).setFlag a Fld.HOST_LINK_STATUS_UP true
    let s := (s.setFld a Fld.HOST_LINK_STATUS_WIDTH (if wide then 16 else 8)).setFld a Fld.HOST_LINK_STATUS_SPEED (if fast then 3 else 2)
    .next ((s.setFlag a Fld.HOST_LINK_STATUS_CACHE_EN cache).setFlag a Fld.HOST_LINK_STATUS_MEM_EN mem)

/-- CXL_LINK_DOWN (R47): the link goes down; nothing else changes. -/
def execCxlLinkDown (s : State) : Result := .next (s.setFlag Reg.HOST_LINK_STATUS Fld.HOST_LINK_STATUS_UP false)

/-- The PCIe device ID and revision ID of the one physical function (R49). -/
def pcieDeviceId : Nat := 0x9512
def pcieRevisionId : Nat := 0xB0

/-- A host read of n bytes at an offset of a region, answered at address `at_`: outside the region it is refused, counted, and returns zero poisoned
(R590). With an uncorrectable beat the data is poisoned, its value not stated (R587). -/
def State.hostMemRead (s : State) (kind off n at_ : Nat) (errs : List BeatErr) : State :=
  let inside := match s.regionOf kind with | some (_, _, sz) => decide (off + n ≤ sz) | none => false
  if !inside then s.regionViolation.emit (.readPoison at_ 0)
  else
    let v := leNat (s.regionRead kind off n)
    let s := s.beatsSeen errs
    if errs.any (·.ue) then let (w, s) := s.draw; s.emit (.readPoison at_ (w % 2 ^ (8 * n))) else s.emit (.readData at_ v)

/-- BAR2_ACCESS (R55, R56): a read or a write at a staging offset; before tier 1 has trained zero is read and a write is discarded. -/
def execBar2Access (off : Nat) (acc : MemAcc) (s : State) : Result :=
  let trained := !s.pwr.held && s.tierReady 0
  match acc with
  | .read n errs => .next (if trained then s.hostMemRead 1 off n off errs else s.emit (.readData off 0))
  | .write bs => .next (if trained then s.regionWrite 1 off bs else s)

/-- The size that the CXL range register of an HDM range reports: the configuration record's (R57). -/
def State.hdmSize (s : State) (hdm : Nat) : Nat := if hdm = 0 then s.cfg.hdm.1 else s.cfg.hdm.2
/-- The region an HDM range exposes: HDM0 the DEL region, byte for byte, HDM1 the Peat snapshots (R57, R589, R655). -/
def hdmKind (hdm : Nat) : Nat := if hdm = 0 then 7 else 6

/-- A host read of n bytes of an HDM range over CXL.mem (R57). The spec states no data for a read while the region's tier has not trained: a free
value. -/
def State.hdmRead (s : State) (hdm off n : Nat) (errs : List BeatErr) : State :=
  let ready := match s.regionOf (hdmKind hdm) with | some (t, _, _) => s.tierReady t | none => true
  if ready then s.hostMemRead (hdmKind hdm) off n off errs
  else let (v, u) := s.draw; u.emit (.readData off (v % 2 ^ (8 * n)))

/-- HDM_WRITE (R57, R58): a CXL.mem access to an HDM range. A write is discarded and counted; the counter saturates. A read of bytes within the range
gives what the range exposes: the table has no row of its own for it. An access beyond the size the range reports does not reach the device. -/
def execHdmWrite (hdm off : Nat) (acc : MemAcc) (s : State) : Result :=
  if s.pwr.held || decide (s.hdmSize hdm ≤ off) then .next s
  else match acc with
    | .read n errs => .next (s.hdmRead hdm off n errs)
    | .write _ => .next (s.addFld Reg.HOST_HDM_WR_DROP Fld.HOST_HDM_WR_DROP_COUNT 1)

/-! ### Command rings (R82–R93) -/

/-- CMD_RING_ENABLE (R83, R89): HOST_CR_CFG is written with ENABLE = 1 while the tail line holds the count given. -/
def execCmdRingEnable (ring value tail : Nat) (s : State) : Result :=
  .next (s.onPage (pg 2 (crPage ring)) (·.crCfgWrite ring (value % 2 ^ 31 + 2 ^ 31) tail))

/-- CMD_RING_DISABLE (R88): ENABLE is written to 0. -/
def execCmdRingDisable (ring : Nat) (s : State) : Result :=
  let v := (s.rd (Reg.HOST_CR_CFG (crPage ring) (ring % 64))).toNat % 2 ^ 31
  .next (s.onPage (pg 2 (crPage ring)) (·.crCfgWrite ring v 0))

/-- TAIL_SNOOP (R86): a snoop takes the tail line of an enabled ring, running or in error, and the device reads it again. -/
def execTailSnoop (ring : Nat) (s : State) : Result :=
  let c := s.cr ring
  .next (if s.crCfg ring Fld.HOST_CR_CFG_ENABLE = 1 ∧ c.rereading = false then
    (s.setCr ring { c with rereading := true }).emit (.rdShared false ring (s.crLine ring)) else s)

/-- TAIL_REREAD (R86–R88): the line returns; only its last value counts. A tail too far ahead stops the ring with an overrun; a ring in error fetches
nothing. -/
def execTailReread (ring tail : Nat) (s : State) : Result :=
  let c := s.cr ring
  if c.rereading = false then .next s
  else
    let t := tail % 2 ^ 32
    if c.state ≠ 1 then .next (s.setCr ring { c with rereading := false, tail := t })
    else if 2 ^ s.crCfg ring Fld.HOST_CR_CFG_LOG2_SIZE < (t + 2 ^ 32 - c.head) % 2 ^ 32 then
      .next ((s.setCr ring { c with state := 2, error := 1, rereading := false }).ringError ring 1)
    else .next ((s.setCr ring { c with rereading := false, tail := t }).crFetch ring)

/-- The operations of the command set. -/
def knownOps : List Nat :=
  [0x0101, 0x0102, 0x0103, 0x0200, 0x0201, 0x0202, 0x0301, 0x0401, 0x0402, 0x0403, 0x0404, 0x0601, 0x0602, 0x0603, 0x0604, 0x0605, 0x0606, 0x0607, 0x0608,
   0x0609, 0x060A, 0x0801, 0x0802, 0x0803, 0x0804, 0x0805, 0x0901, 0x0902, 0x0903, 0x0A01, 0x0A02, 0x0A03] ++
  [0x0D01, 0x0D02, 0x0D03, 0x0D04, 0x0D05, 0x0D06, 0x0E01, 0x0E02, 0x0E03, 0x0E04, 0x0E05, 0x1001, 0x1002, 0x1003, 0x1004, 0x1005, 0x1006, 0x1101, 0x1102,
   0x1103, 0x1104, 0x1105, 0x1106, 0x1201, 0x1202, 0x1203, 0x1301, 0x1302, 0x1303, 0x1401, 0x1402, 0x1403, 0x1404] ++
  [0x1501, 0x1502, 0x1503, 0x1504, 0x1505, 0x1506, 0x1507]

/-- Takes one command entry (R91, R92): a non-zero reserved field or an unknown operation completes it at once; any other waits to execute, in the order
in which the entries came. -/
def State.takeEntry (s : State) (src : CmdSrc) (e : RawEntry) : State :=
  let h : CmdHdr := ⟨src, e.tag, e.event, e.fence, e.target⟩
  if e.rsv2 ≠ 0 ∨ e.rsv3 ≠ 0 ∨ e.rsv12 ≠ 0 then s.answer h (e.opcode / 256) ⟨2, 0, 0, []⟩
  else if !knownOps.contains e.opcode then s.answer h (e.opcode / 256) ⟨1, 0, 0, []⟩
  else { s with host := { s.host with
    started := s.host.started ++ [⟨src, e.opcode, e.tag, e.event, e.fence, e.target, e.operands, s.time.ticks, false⟩] } }

/-- ENTRY_FETCH (R86, R91): entries asked for with RdCurr arrive, HEAD advances by one for each, and they are taken in order. -/
def execEntryFetch (ring : Nat) (entries : List RawEntry) (s : State) : Result :=
  let c := s.cr ring
  if c.state ≠ 1 then .next s
  else
    let es := entries.take ((c.fetchTo + 2 ^ 32 - c.head) % 2 ^ 32)
    .next (es.foldl (fun s e => s.takeEntry (.ring ring) e) (s.setCr ring { c with head := (c.head + es.length) % 2 ^ 32 }))

/-! ### Event rings and MSI-X (R95–R101, R849) -/

/-- EVENT_RING_ENABLE (R89): HOST_ER_CFG is written with ENABLE = 1 while the consumer line holds the count given. -/
def execEventRingEnable (ring value cons : Nat) (s : State) : Result :=
  .next (s.onPage (pg 2 (erPage ring)) (·.erCfgWrite ring (value % 2 ^ 31 + 2 ^ 31) cons))

/-- EVENT_RING_DISABLE (R849): ENABLE is written to 0. -/
def execEventRingDisable (ring : Nat) (s : State) : Result :=
  let v := (s.rd (Reg.HOST_ER_CFG (erPage ring) (ring % 64))).toNat % 2 ^ 31
  .next (s.onPage (pg 2 (erPage ring)) (·.erCfgWrite ring v 0))

/-- CONS_SNOOP (R96): a snoop takes the consumer line of an enabled ring; the device reads the line again and finds the count given. -/
def execConsSnoop (ring cons : Nat) (s : State) : Result :=
  .next (if s.erOn ring then (s.setEr ring { s.er ring with cons := cons % 2 ^ 32 }).emit (.rdShared true ring (s.erLine ring)) else s)

/-- Waiting entries of an event ring go in order: over the management port while R105 takes the ring's events, else to host memory while there is
room. -/
def heldWrites (j : Nat) : List Ev → State → State
  | [], s => s
  | e :: es, s =>
    let t := s.setEr j { s.er j with waiting := es }
    if s.mpTakes j then heldWrites j es (t.mpSendEvent e)
    else if s.erFull j then s else heldWrites j es (t.erWrite j e)

/-- HELD_EVENT_WRITE (R98): what waits for room is written in the order in which it arose, and the ring's command rings fetch again. -/
def execHeldEventWrite (ring : Nat) (s : State) : Result :=
  .next ((heldWrites ring (s.er ring).waiting s).crResume (State.crOfEr ring))

/-- EVENT_WRITE_DONE (R100): the host completes the WrInv of the oldest entry not yet completed. -/
def execEventWriteDone (ring : Nat) (s : State) : Result :=
  let r := s.er ring
  .next (if r.done < r.unsig.length then (s.setEr ring { r with done := r.done + 1 }).erSignal ring else s)

/-- MSIX_DELAY_EXPIRY (R100): the oldest entry not yet signalled has waited DELAY µs. -/
def execMsixDelayExpiry (ring : Nat) (s : State) : Result :=
  match (s.er ring).unsig with
  | t :: _ =>
    let d := usTicks (s.fld (Reg.HOST_ER_MOD (erPage ring) (ring % 64)) Fld.HOST_ER_MOD_DELAY)
    .next ((s.elapseToTick (t + d)).erSignal ring)
  | [] => .next s

/-- MSIX_UNMASK (R101): a vector's mask is written to 0; a pending message goes. -/
def execMsixUnmask (vector : Nat) (s : State) : Result := .next (if s.pwr.held then s else s.msixCtrlWrite vector 0)

/-! ### The HOST block's operations (R93, R94, R851) -/

/-- NOP (0x0200): completes with OK. -/
def execNop (h : CmdHdr) (s : State) : Result := .next (s.runCmd h 0x0200 false fun s => ok s)

/-- May the sender of a REG_WRITE or REG_READ reach an offset (R94): a tenant ring only its window? -/
def State.cmdReaches (s : State) (h : CmdHdr) (a : Nat) : Bool :=
  match s.cmdWindow h with
  | some w => reaches (.tenant w) a
  | none => true

/-- REG_WRITE (0x0201): one 4-byte write; with the access discarded, BAD_ACCESS. A write that resets the device leaves no completion, and one that resets
a page of HOST has completed with ABORTED (R74): there is one completion at most. -/
def execRegWrite (h : CmdHdr) (addr value : Nat) (s : State) : Result :=
  .next (s.runCmd h 0x0201 false fun s =>
    if !s.cmdReaches h addr then fail (s.logErr hostPg 0x0003 0 hostLoc) 3
    else
      let (bad, t) := s.writeAcc addr 4 value
      if bad then fail t 0x0100 else if t.host.started.any (cmdRuns h 2) then ok t else (t, none))

/-- REG_READ (0x0202): one 4-byte read into RESULT; with the access discarded, BAD_ACCESS. -/
def execRegRead (h : CmdHdr) (addr : Nat) (s : State) : Result :=
  .next (s.runCmd h 0x0202 false fun s =>
    if !s.cmdReaches h addr then fail (s.logErr hostPg 0x0003 0 hostLoc) 3
    else
      let (bad, v, t) := s.readAcc addr 4
      if bad then fail t 0x0100 else ok t v)

/-! ### Management frames (R102–R104) -/

/-- Condition 1 of R103. -/
def State.mpWellFormed (s : State) (f : MpFrame) : Bool :=
  s.flag Reg.MGMT_MP_CFG Fld.MGMT_MP_CFG_ENABLE && f.magic == 0x4E4D && f.rsv == 0 && f.body.length == f.len &&
  (match f.op with
   | 1 => f.len == 4 || f.len == 8
   | 2 => f.len == 4 || f.len == 8
   | 3 => f.len == 64
   | _ => false)

/-- Condition 2 of R103. -/
def State.mpInSession (s : State) (f : MpFrame) : Bool :=
  f.session == s.mpSession || (f.session == 0 && f.op == 1 && f.addr == Reg.MGMT_MP_SESSION)

/-- Condition 3 of R103: the slot holds a key and the MAC verifies under it. -/
def State.mpAuthentic (s : State) (f : MpFrame) : Bool :=
  match Tbl.find s.host.keys (s.fld Reg.MGMT_MP_CFG Fld.MGMT_MP_CFG_KEY_SLOT) with
  | none => false
  | some k => f.mac == Config.hmac k (mpBytes f.op f.status f.session f.seq f.addr f.body)

/-- A frame fails authentication: counted, the interrupt, and the log at most once a second. -/
def State.mpAuthFail (s : State) : State :=
  let s := (s.inc Cnt.MGMT_MP_AUTH_FAIL).irq mgmtPg 2
  let due := match s.host.authLog with
    | none => true
    | some t => decide (t + usTicks 1000000 ≤ s.time.ticks)
  if due then { s.logErr mgmtPg 0x0100 0 (locBlock 1) with host := { s.host with authLog := some s.time.ticks } } else s

/-- Answers a register request (R104). -/
def State.mpAnswer (s : State) (f : MpFrame) (op status : Nat) (body : List Byte) : State :=
  (s.inc Cnt.MGMT_MP_ANSWERS).mpSend f.srcMac op status f.seq body

/-- Is a frame a management frame for the device: addressed to MGMT_MP_MAC, with the EtherType of R102? Any other is none of its business. -/
def State.mpOurs (s : State) (f : MpFrame) : Bool := f.dest == s.mpOwn && f.etherType == 0x88B5

/-- A frame of the kind `op` arrives: the conditions of R103 in their order, and the request that meets them acts by `f`. -/
def State.mpTake (s : State) (op : Nat) (f : MpFrame) (act : State → State) : State :=
  if s.pwr.held || !s.mpOurs f then s
  else if !(s.mpWellFormed f && f.op == op) || !s.mpInSession f then s.inc Cnt.MGMT_MP_BAD_FRAME
  else if !s.mpAuthentic f then s.mpAuthFail
  else if (s.host.mpSeq.any fun q => decide (f.seq ≤ q)) then s.inc Cnt.MGMT_MP_REPLAY
  else act ({ s with host := { s.host with mpSeq := some f.seq } }.inc Cnt.MGMT_MP_ACCEPTED)

/-- MP_REG_READ (R104): a register read, answered with READ_RESP. -/
def execMpRegRead (frame : MpFrame) (s : State) : Result :=
  .next (s.mpTake 1 frame fun s =>
    let (bad, v, t) := s.readAcc frame.addr frame.len
    t.mpAnswer frame 0x81 (b2n bad) (leBytes frame.len v))

/-- MP_REG_WRITE (R104): a register write, answered with WRITE_RESP, unless it resets the device. -/
def execMpRegWrite (frame : MpFrame) (s : State) : Result :=
  .next (s.mpTake 2 frame fun s =>
    let (bad, t) := s.writeAcc frame.addr frame.len (leNat frame.body)
    if t.host.sessions = s.host.sessions then t.mpAnswer frame 0x82 (b2n bad) [] else t)

/-- The command entry that 64 bytes spell. -/
def rawEntry (bs : List Byte) : RawEntry :=
  let fl := leAt 2 1 bs
  ⟨leAt 0 2 bs, bit 0 fl, bit 1 fl, fl / 4, leAt 3 1 bs, leAt 4 4 bs, leAt 8 4 bs, leAt 12 4 bs, bs.drop 16⟩

/-- MP_COMMAND (R104): the entry is taken as one of an operator command ring; its completion is the answer. -/
def execMpCommand (frame : MpFrame) (s : State) : Result :=
  .next (s.mpTake 3 frame fun s => s.takeEntry (.mgmt frame.srcMac frame.seq) (rawEntry frame.body))

/-- MP_KEY_SET (R106, 0x0103): a key slot is written, or emptied with OPERANDS byte 17 = 1; the settings record takes it too. -/
def execMpKeySet (h : CmdHdr) (slot empty key : Nat) (s : State) : Result :=
  .next (s.runCmd h 0x0103 true fun s =>
    if h.target ≠ 0 then failOpen s
    else if 3 < slot then fail s 0x0100
    else
      let put := fun (t : Tbl Nat) => if empty = 1 then Tbl.del t slot else Tbl.put t slot key
      let t := { s with host := { s.host with keys := put s.host.keys } }
      ok (t.writeSettings fun r => { r with keys := put r.keys }))

/-- MGMT_CNT_CLEAR (R107): MGMT_CTRL.CNT_CLEAR is written to 1. -/
def execMgmtCntClear (s : State) : Result := .next (s.onPage mgmtPg (·.clearCnts mgmtPg))

end Sys2Proof.Machine
end

