-- ==== Sys2Proof/Machine/Pwr.lean ====
section
/-! DEFINITION. Power, temperature and the reset pins (R828–R846). -/
namespace Sys2Proof.Machine

def pwrPg : Nat := pg 0x16 0
def pwrLoc : Nat := locBlock 0x16

/-- Every carrier gate closes. -/
def State.closeCarriers (s : State) : State := (List.range 16).foldl (fun s n => s.closeEngine n) s

/-- Changes the power state. -/
def State.setPwr (s : State) (f : PwrSt → PwrSt) : State := { s with pwr := f s.pwr }

/-! ### The reset pins and the clock (R832–R834) -/

/-- PWR_GOOD_RISE (R832): the power-on event; the next release of RESET_N begins a cold reset. -/
def execPwrGoodRise (s : State) : Result :=
  .next (if s.pwr.good then s else s.setPwr fun p => { p with good := true, cold := true })

/-- PWR_GOOD_FALL (R832, R842): reset, with the carrier gates closed; THERM_TRIP_N is released. -/
def execPwrGoodFall (s : State) : Result :=
  if !s.pwr.good then .next s
  else
    let trip := s.pwr.therm
    let s := s.closeCarriers.setPwr fun p => { p with good := false, cold := true, therm := false, clockLost := false }
    let s := s.resetTo false 1
    .next (if trip then s.emit (.pin 10 true) else s)

/-- RESET_N_ASSERT (R833): RESET_N has been low for ns nanoseconds: below 100 ns ignored, from 1 µs a warm reset, and in between taken or ignored. -/
def execResetNAssert (ns : Nat) (s : State) : Result :=
  let (v, t) := s.draw
  let takes := decide (1000 ≤ ns) || (decide (100 ≤ ns) && bit 0 v)
  let s := if 100 ≤ ns ∧ ns < 1000 then t else s
  if !takes then .next s
  else if !s.pwr.good then .next (s.setPwr fun p => { p with low := true })
  else .next ((s.setPwr fun p => { p with low := true }).resetTo false 2)

/-- RESET_N_RELEASE (R781, R832): start-up begins; after a power-on event the reset is a cold one. -/
def execResetNRelease (s : State) : Result :=
  if s.pwr.good && s.pwr.cold then .next ((s.setPwr fun p => { p with low := false, cold := false }).resetTo true 1)
  else .next (s.setPwr fun p => { p with low := false })

/-- REFCLK_LOSS (R834): in service: gates close, ALERT_OUT, the log, and a warm reset that lasts until the clock is good. -/
def execRefclkLoss (s : State) : Result :=
  if s.pwr.held then .next s
  else
    let s := (s.closeCarriers.setPwr fun p => { p with clockLost := true }).alertUpdate
    .next ((s.logErr pwrPg 0x0104 3 pwrLoc).resetTo false 0)

/-- CLOCK_RESTORED (R834): the device starts again; time runs from zero (R125), ALERT_OUT is released. -/
def execClockRestored (s : State) : Result :=
  if !s.pwr.clockLost then .next s
  else
    let s := { s with time := TimeSt.init }.setPwr fun p => { p with clockLost := false }
    .next ((s.setFld Reg.CFG_RESET_CAUSE Fld.CFG_RESET_CAUSE_CAUSE 0).alertUpdate)

/-! ### Temperatures (R840–R842) -/

/-- The thresholds of a sensor in °C: WARN, THROTTLE for a die, TRIP. -/
def State.tempWarnAt (s : State) (k : Nat) : Nat :=
  if k < 3 then s.fld Reg.PWR_THRESH_DIE Fld.PWR_THRESH_DIE_WARN else s.fld Reg.PWR_THRESH_OE Fld.PWR_THRESH_OE_WARN
def State.throttleAt (s : State) : Nat := s.fld Reg.PWR_THRESH_DIE Fld.PWR_THRESH_DIE_THROTTLE
def State.tripAt (s : State) (k : Nat) : Nat :=
  if k < 3 then min 110 (s.fld Reg.PWR_THRESH_DIE Fld.PWR_THRESH_DIE_TRIP) else min 95 (s.fld Reg.PWR_THRESH_OE Fld.PWR_THRESH_OE_TRIP)

/-- Is a threshold of T °C in force at a reading in 1/16 °C, given whether it was: from T, until the reading has fallen 5 °C below it? -/
def inForce (was : Bool) (t : Nat) (x : Int) : Bool := if was then decide (16 * ((t : Int) - 5) < x) else decide (16 * (t : Int) ≤ x)

/-- The location an error of a sensor carries: its engine, or PWR for a die. -/
def sensorLoc (k : Nat) : Nat := if k < 3 then pwrLoc else locOeAll (k - 3)

/-- One sensor's reading: TEMP and PEAK, and the WARN and THROTTLE thresholds. -/
def State.sensor (s : State) (k raw : Nat) : State :=
  let x := toSigned 16 raw
  let a := Reg.PWR_TEMP k
  let s := if toSigned 16 (s.fld a Fld.PWR_TEMP_PEAK) < x then s.setFld a Fld.PWR_TEMP_PEAK raw else s
  let s := s.setFld a Fld.PWR_TEMP_TEMP raw
  let was := s.pwr.warn.contains k
  let now := inForce was (s.tempWarnAt k) x
  let s := if now && !was then
      ((((s.setPwr fun p => { p with warn := p.warn ++ [k] }).irq pwrPg 2).logErr pwrPg 0x0100 0 (sensorLoc k)).inc Cnt.PWR_WARN_EVENTS)
    else if was && !now then s.setPwr fun p => { p with warn := p.warn.filter (· != k) }
    else s
  if 3 ≤ k then s
  else
    let was := s.pwr.throttle.contains k
    let now := inForce was s.throttleAt x
    if now && !was then
      ((s.setPwr fun p => { p with throttle := p.throttle ++ [k] }).irq pwrPg 3).logErr pwrPg 0x0103 0 (sensorLoc k)
    else if was && !now then s.setPwr fun p => { p with throttle := p.throttle.filter (· != k) }
    else s

/-- Sets a source of ALERT_OUT while its condition holds (R844). -/
def State.alertWhile (s : State) (k : Nat) (b : Bool) : State := if b then s.alertSource k else s

/-- TRIP (R842): gates close, THERM_TRIP_N and ALERT_OUT are asserted, TRIPPED is set and logged, and the device enters reset. -/
def State.trip (s : State) (k : Nat) : State :=
  let s := ((s.closeCarriers.setPwr fun p => { p with therm := true }).emit (.pin 10 false)).alertUpdate
  let s := (s.logErr pwrPg 0x0102 3 (sensorLoc k)).resetTo false 1
  s.setFlag Reg.PWR_STATUS Fld.PWR_STATUS_TRIPPED true

/-- SENSOR_READ (R840–R842, R844): the evaluation of every 10 µs; a TRIP governs every other threshold (R845). -/
def execSensorRead (sample : SensorSample) (s : State) : Result :=
  if s.pwr.held then .next s
  else
    let s := s.nextSample 0
    match (List.range 19).find? fun k => decide (16 * (s.tripAt k : Int) ≤ toSigned 16 (sample.temps.getD k 0x8000)) with
    | some k => .next (s.trip k)
    | none =>
      let s := (List.range 19).foldl (fun s k => s.sensor k (sample.temps.getD k 0x8000 % 2 ^ 16)) s
      let s := s.setFld Reg.PWR_PKG_POWER Fld.PWR_PKG_POWER_POWER sample.pkg
      let hot := !s.pwr.throttle.isEmpty
      let s := s.setFlag Reg.PWR_STATUS Fld.PWR_STATUS_THROTTLING hot
      let s := if hot then s.inc Cnt.PWR_THROTTLE_INTERVALS else s
      let s := (s.alertWhile 0 (!s.pwr.warn.isEmpty)).alertWhile 1 hot
      let s := s.alertWhile 2 (s.fld Reg.PWR_STATUS Fld.PWR_STATUS_RAIL_FAULT != 0)
      .next (s.alertWhile 4 (s.flag Reg.CFG_STATUS Fld.CFG_STATUS_RECOVERY))

/-! ### Rails, and the commands (R843, R844, R846) -/

/-- The nominal voltage of rail k in mV, and its tolerance in percent (R828). -/
def railNominal (k : Nat) : Nat × Nat :=
  ([(3300, 3), (800, 2), (800, 2), (800, 2), (850, 2), (1050, 3), (750, 3), (500, 3), (900, 3), (1800, 5)] : List (Nat × Nat)).getD k (0, 0)

/-- Is a voltage outside the tolerance of rail k? -/
def railOut (k mv : Nat) : Bool :=
  let (n, p) := railNominal k
  decide (100 * mv + p * n < 100 * n) || decide (100 * n + p * n < 100 * mv)

/-- RAIL_MONITOR (R843): a rail has read as given for 10 µs. -/
def execRailMonitor (rail voltage current : Nat) (s : State) : Result :=
  if s.pwr.held then .next s
  else
    let a := Reg.PWR_RAIL rail
    let s := (s.setFld a Fld.PWR_RAIL_VOLTAGE voltage).setFld a Fld.PWR_RAIL_CURRENT current
    let f := s.fld Reg.PWR_STATUS Fld.PWR_STATUS_RAIL_FAULT
    let out := railOut rail voltage
    let s := s.setFld Reg.PWR_STATUS Fld.PWR_STATUS_RAIL_FAULT (withBits rail rail (b2n out) f)
    if out && !bit rail f then
      .next ((((s.logErr pwrPg 0x0101 1 pwrLoc).inc Cnt.PWR_RAIL_FAULTS).irq pwrPg 4).alertSource 2)
    else .next s

/-- PWR_ALERT_FORCE (R844): FORCE is written to 1. -/
def execPwrAlertForce (s : State) : Result := .next (s.onPage pwrPg (·.alertSource 5))

/-- PWR_CNT_CLEAR (R846): the counters and every PEAK clear. -/
def execPwrCntClear (s : State) : Result :=
  .next (s.onPage pwrPg fun s =>
    (List.range 19).foldl (fun s k => s.setFld (Reg.PWR_TEMP k) Fld.PWR_TEMP_PEAK 0x8000) (s.clearCnts pwrPg))

end Sys2Proof.Machine
end

