-- ==== Sys2Proof/Machine/Startup.lean ====
section
/-! DEFINITION. The stages of start-up (R738, R767–R793). -/
namespace Sys2Proof.Machine

/-- A configuration record sets a register word (R778, R779): its RW and RWL fields, as a write of them would. -/
def State.applyValue (s : State) (x : RegSet) : State :=
  match if inBlocks x.addr then regAt x.addr else none with
  | none => s
  | some r => s.wordWrite x.addr (x.value &&& r.mask fun f => f.acc == .rw || f.acc == .rwl)

/-- Is a record of a kind good: what CFG_WRITE put in the flash is judged by R776, and what the flash held before by the security root's finding. -/
def State.recordGood (s : State) (kind : Nat) (found : Bool) : Bool :=
  match Tbl.find s.cfg.recs kind with
  | some o => s.objStatus [kind] o == 0
  | none => found

/-- The PUF (R769, R771, R772, R793): at cold reset a helper copy recovers the unit secret, whereupon a helper refresh that is armed takes place; one
copy that fails is repaired. A warm reset keeps the keys. -/
def State.recoverKeys (s : State) (helperA helperB : Bool) : State :=
  if s.cfg.keysHeld then s
  else if helperA || helperB then
    let s := if helperA && helperB then s else s.logErr secPg 0x0100 0 secLoc
    s.setCfg fun c => { c with keysHeld := true, current := c.current.map fun r => { r with refresh := false } }
  else
    let (sev, s) := s.draw
    s.logErr secPg 0x0100 (sev % 4) secLoc

/-- The identity stage (R769–R772, R780, R784): the unit secret, the type-key blob, the counters and the records. -/
def State.identityStage (s : State) (helperA helperB blob counters unitRec : Bool) (site : Option SiteRec) (values : List RegSet) : State :=
  let s := s.recoverKeys helperA helperB
  if !s.cfg.keysHeld then s.enterRecovery 1
  else
    let s := s.setFlag Reg.CFG_STATUS Fld.CFG_STATUS_PUF_OK true
    let s := (s.wrWide Reg.SEC_UNIT_ID Config.unitId 4).wrWide Reg.SEC_ATT_PUB (Config.attPub % 2 ^ 448) 16
    if !blob then s.enterRecovery 2
    else if !counters then s.flashFails .counterFails
    else
      let s := (List.range 5).foldl (fun s k => s.wr (Reg.SEC_COUNTER k) (BitVec.ofNat 32 (s.ctr k))) s
      if !s.recordGood 4 unitRec then s.enterRecovery 3
      else
        let s := s.setFlag Reg.CFG_STATUS Fld.CFG_STATUS_UNIT_REC_OK true
        let s := match site with
          | some r =>
            if s.recordGood 2 true then
              ({ s with spine := r.spine % 256 }.setCfg fun c => { c with hdm := (r.hdm0, r.hdm1) }).setFlag Reg.CFG_STATUS Fld.CFG_STATUS_SITE_REC_OK true
            else s
          | none => s
        (values.foldl State.applyValue s).stageDone

/-- The image that a slot holds, where it is valid (R776, R777): VERSION and SVN. -/
def State.bootable (s : State) (k : Nat) (found : Option ImageInfo) : Option (Nat × Nat) :=
  match Tbl.find s.cfg.slots k with
  | some o => if s.objStatus [1] o = 0 then some (objVersion o, objSvn o) else none
  | none => match found with
    | some i => if s.ctr 0 ≤ i.svn then some (i.version, i.svn) else none
    | none => none

/-- A unit whose stored step is 5 is retired (R783). -/
def State.restoreUnit (s : State) (u step : Nat) : State :=
  let s := s.setStep u step
  if step ≠ 5 then s
  else match unitKind u with
    | some .fen => s.retireFen (u - 64) true
    | some .core => s.retireCore u true
    | some .mac => if s.rowSpared (macRow u) then s else s.retireMac u
    | _ => s

/-- The settings record is read (R106, R783, R791): a slot whose MAC passes holds what the device has written there, or what the flash held before; the
record's keys, active half and margin section are restored. -/
def State.readSettings (s : State) (version : Nat) (current previous : Option SetRec) : State :=
  let s := (s.setCfg fun c => { c with
    current := current.map fun r => c.current.getD r, previous := previous.map fun r => c.previous.getD r }).startSettings version
  let r := s.cfg.settings
  let s := { s with host := { s.host with keys := r.keys } }
  let s := s.setFlag Reg.SEC_STATUS Fld.SEC_STATUS_REFRESH_ARMED r.refresh
  let s := s.setFld Reg.CFG_STATUS Fld.CFG_STATUS_ACTIVE_HALF r.half
  r.margin.foldl (fun s e => s.restoreUnit e.1 e.2) s

/-- The firmware stage (R781, R784, R791): the image of the boot slot runs on both halves, or the other slot's where that is not valid. -/
def State.firmwareStage (s : State) (image0 image1 : Option ImageInfo) (current previous : Option SetRec) : State :=
  let img := fun (k : Nat) => s.bootable k (if k = 0 then image0 else image1)
  let k := if (img s.cfg.boot).isSome then s.cfg.boot else s.otherSlot
  match img k with
  | none => s.enterRecovery 4
  | some x =>
    let t := (List.range 2).foldl (fun t j => match img j with | some y => Tbl.put t j y | none => Tbl.del t j) s.cfg.images
    let s := ((s.setCfg fun c => { c with images := t }).wr Reg.CFG_IMAGE (BitVec.ofNat 32 x.1)).readSettings (x.1 % 2 ^ 32) current previous
    let a := Reg.CFG_STATUS
    let s := (s.setFld a Fld.CFG_STATUS_BOOT_SLOT k).setFld a Fld.CFG_STATUS_RUN_SLOT k
    ((s.setFlag a Fld.CFG_STATUS_FW_RUNNING true).setFlag a Fld.CFG_STATUS_STANDBY_READY true).stageDone

/-- Retires the Fen instances that failed a start-up test; those at step 5 are not tested (R738, R783). -/
def State.retireFailed (s : State) (failed : List Nat) : State :=
  failed.foldl (fun s n => if s.marginStep (unitFen n) = 5 then s else s.retireFen n true) s

/-- Are all logical reducers served by instances that passed? -/
def State.allPassed (s : State) (failed : List Nat) : Bool := failed.all fun n => (s.servedBy n).isNone

/-- A Fen test sets its flag on both dies when all reducers passed, and the stage is reached (R738, R781). -/
def State.fenStage (s : State) (failed : List Nat) (f stage : Fld) : State :=
  let s := s.retireFailed failed
  let ok := s.allPassed failed
  let s := (List.range 2).foldl (fun s d => s.setFlag (Reg.FADM_STATUS d) f ok) s
  (s.setFlag Reg.CFG_STATUS stage true).stageDone

/-- A MAC tile failed its start-up test: it leaves its row, or where the row is spared for another tile it keeps the array from serving. -/
def State.macFailed (s : State) (i : Nat) : State :=
  let u := 98 + i
  if s.marginStep u = 5 then s
  else if s.rowFree u then s.retireMac u
  else { s with chk := { s.chk with macOut := if s.chk.macOut.contains u then s.chk.macOut else s.chk.macOut ++ [u] } }

/-- The stages that the device itself comes to, from the root to full optics (R781); tiers 1 and 2 train by rows of their own. -/
def State.startStage (s : State) (x : StartStage) : State :=
  let st := fun f => s.flag Reg.CFG_STATUS f
  let stop := s.pwr.held || st Fld.CFG_STATUS_RECOVERY
  match x with
  | .root => if stop || s.cfg.keysHeld then s else s.stageDone
  | .identity a b blob counters unitRec site values =>
    if stop || st Fld.CFG_STATUS_PUF_OK then s else s.identityStage a b blob counters unitRec site values
  | .firmware i0 i1 current previous =>
    if stop || !st Fld.CFG_STATUS_UNIT_REC_OK || st Fld.CFG_STATUS_FW_RUNNING then s else s.firmwareStage i0 i1 current previous
  | .formats failed =>
    if stop || !st Fld.CFG_STATUS_FW_RUNNING || st Fld.CFG_STATUS_FEN_FP32 then s
    else s.fenStage failed Fld.FADM_STATUS_FORMATS_OK Fld.CFG_STATUS_FEN_FP32
  | .exact failed =>
    if stop || !st Fld.CFG_STATUS_FEN_FP32 || st Fld.CFG_STATUS_FEN_EXACT then s
    else s.fenStage failed Fld.FADM_STATUS_EXACT_OK Fld.CFG_STATUS_FEN_EXACT
  | .attend failed =>
    if stop || !st Fld.CFG_STATUS_FW_RUNNING || st Fld.CFG_STATUS_PEAT_ATTEND then s
    else
      let s := failed.foldl State.macFailed s
      let s := if s.chk.macOut.isEmpty then s else s.logErr peatPg 0x0103 1 peatLoc
      ((s.setFlag Reg.PEAT_STATUS Fld.PEAT_STATUS_ATTEND_OK s.chk.macOut.isEmpty).setFlag Reg.CFG_STATUS Fld.CFG_STATUS_PEAT_ATTEND true).stageDone
  | .fullOptics =>
    if stop || !st Fld.CFG_STATUS_FW_RUNNING || st Fld.CFG_STATUS_OPTICS_FULL || s.provisionalLeft then s
    else (s.setFlag Reg.CFG_STATUS Fld.CFG_STATUS_OPTICS_FULL true).stageDone

/-- CFG_STARTUP_STAGE (R781): a stage completes. -/
def execCfgStartupStage (stage : StartStage) (s : State) : Result := .next (s.startStage stage)

end Sys2Proof.Machine
end

