-- ==== Sys2Proof/Machine/Dispatch.lean ====
section
/-! DEFINITION. One arm per command: exec gives a command's effect on everything but the queue. -/
namespace Sys2Proof.Machine

/-- The effect of a command. -/
def exec (i : Instr) (s : State) : Host.Outcome State Fault Refusal :=
  match i with
  | .registerWrite addr size value who => Sys2Proof.Machine.execRegisterWrite addr size value who s
  | .rcFieldRead addr size who => Sys2Proof.Machine.execRcFieldRead addr size who s
  | .split64bitRead addr who => Sys2Proof.Machine.execSplit64bitRead addr who s
  | .pageLock page => Sys2Proof.Machine.execPageLock page s
  | .pageReset page => Sys2Proof.Machine.execPageReset page s
  | .pageResetComplete page => Sys2Proof.Machine.execPageResetComplete page s
  | .pageIrqForce page value => Sys2Proof.Machine.execPageIrqForce page value s
  | .pageErrClear page => Sys2Proof.Machine.execPageErrClear page s
  | .hostResetKey value => Sys2Proof.Machine.execHostResetKey value s
  | .tenantWindowBind win value => Sys2Proof.Machine.execTenantWindowBind win value s
  | .cxlLinkTrain wide fast switched cache mem => Sys2Proof.Machine.execCxlLinkTrain wide fast switched cache mem s
  | .bar2Access off acc => Sys2Proof.Machine.execBar2Access off acc s
  | .hdmWrite hdm off acc => Sys2Proof.Machine.execHdmWrite hdm off acc s
  | .cmdRingEnable ring value tail => Sys2Proof.Machine.execCmdRingEnable ring value tail s
  | .cmdRingDisable ring => Sys2Proof.Machine.execCmdRingDisable ring s
  | .tailSnoop ring => Sys2Proof.Machine.execTailSnoop ring s
  | .tailReread ring tail => Sys2Proof.Machine.execTailReread ring tail s
  | .entryFetch ring entries => Sys2Proof.Machine.execEntryFetch ring entries s
  | .eventRingEnable ring value cons => Sys2Proof.Machine.execEventRingEnable ring value cons s
  | .eventRingDisable ring => Sys2Proof.Machine.execEventRingDisable ring s
  | .consSnoop ring cons => Sys2Proof.Machine.execConsSnoop ring cons s
  | .heldEventWrite ring => Sys2Proof.Machine.execHeldEventWrite ring s
  | .eventWriteDone ring => Sys2Proof.Machine.execEventWriteDone ring s
  | .msixDelayExpiry ring => Sys2Proof.Machine.execMsixDelayExpiry ring s
  | .msixUnmask vector => Sys2Proof.Machine.execMsixUnmask vector s
  | .nop h => Sys2Proof.Machine.execNop h s
  | .regWrite h addr value => Sys2Proof.Machine.execRegWrite h addr value s
  | .regRead h addr => Sys2Proof.Machine.execRegRead h addr s
  | .mpRegRead frame => Sys2Proof.Machine.execMpRegRead frame s
  | .mpRegWrite frame => Sys2Proof.Machine.execMpRegWrite frame s
  | .mpCommand frame => Sys2Proof.Machine.execMpCommand frame s
  | .mpKeySet h slot empty key => Sys2Proof.Machine.execMpKeySet h slot empty key s
  | .mgmtCntClear => Sys2Proof.Machine.execMgmtCntClear s
  | .timeIncrWrite value => Sys2Proof.Machine.execTimeIncrWrite value s
  | .timeAdjWrite value => Sys2Proof.Machine.execTimeAdjWrite value s
  | .slewDone => Sys2Proof.Machine.execSlewDone s
  | .timeStepKey value => Sys2Proof.Machine.execTimeStepKey value s
  | .timeSet sec ns => Sys2Proof.Machine.execTimeSet sec ns s
  | .declareLock => Sys2Proof.Machine.execDeclareLock s
  | .declareLost => Sys2Proof.Machine.execDeclareLost s
  | .timeHeartbeat => Sys2Proof.Machine.execTimeHeartbeat s
  | .holdWindowExpiry => Sys2Proof.Machine.execHoldWindowExpiry s
  | .holdoverExpiry => Sys2Proof.Machine.execHoldoverExpiry s
  | .parkMaxExpiry => Sys2Proof.Machine.execParkMaxExpiry s
  | .timeNowRead wide => Sys2Proof.Machine.execTimeNowRead wide s
  | .timeMessageRx rx => Sys2Proof.Machine.execTimeMessageRx rx s
  | .syncTx port stampId => Sys2Proof.Machine.execSyncTx port stampId s
  | .sourceSwitch => Sys2Proof.Machine.execSourceSwitch s
  | .timeTxqEntryRead => Sys2Proof.Machine.execTimeTxqEntryRead s
  | .tpoEnable k => Sys2Proof.Machine.execTpoEnable k s
  | .tpoEdge k => Sys2Proof.Machine.execTpoEdge k s
  | .tpoPulseEnd k => Sys2Proof.Machine.execTpoPulseEnd k s
  | .tpiEdge k level edge => Sys2Proof.Machine.execTpiEdge k level edge s
  | .tpiStuck k => Sys2Proof.Machine.execTpiStuck k s
  | .tpiCaptRead k => Sys2Proof.Machine.execTpiCaptRead k s
  | .asymCal h u d => Sys2Proof.Machine.execAsymCal h u d s
  | .calWindowEnd port => Sys2Proof.Machine.execCalWindowEnd port s
  | .calReportRx rx => Sys2Proof.Machine.execCalReportRx rx s
  | .calReportTimeout port => Sys2Proof.Machine.execCalReportTimeout port s
  | .calStartRx rx => Sys2Proof.Machine.execCalStartRx rx s
  | .calBurst port moment => Sys2Proof.Machine.execCalBurst port moment s
  | .packetRx lport header pkt shared => Sys2Proof.Machine.execPacketRx lport header pkt shared s
  | .packetTail id frameLen fecBad stomped late => Sys2Proof.Machine.execPacketTail id frameLen fecBad stomped late s
  | .pipelineLookup n ue => Sys2Proof.Machine.execPipelineLookup n ue s
  | .ringFlitEntry quad pair ccw stop err => Sys2Proof.Machine.execRingFlitEntry quad pair ccw stop err s
  | .switchGrant output => Sys2Proof.Machine.execSwitchGrant output s
  | .bridgeFlitRetry id output => Sys2Proof.Machine.execBridgeFlitRetry id output s
  | .outputEnqueue id lport => Sys2Proof.Machine.execOutputEnqueue id lport s
  | .transmitStart lport cellUe => Sys2Proof.Machine.execTransmitStart lport cellUe s
  | .occPublish => Sys2Proof.Machine.execOccPublish s
  | .drizzleRecord quad => Sys2Proof.Machine.execDrizzleRecord quad s
  | .qmLimitWrite tile port cls value => Sys2Proof.Machine.execQmLimitWrite tile port cls value s
  | .policerWrite tile port cls word value => Sys2Proof.Machine.execPolicerWrite tile port cls word value s
  | .drzSeedLoad tile value => Sys2Proof.Machine.execDrzSeedLoad tile value s
  | .ptCntClear tile seed => Sys2Proof.Machine.execPtCntClear tile seed s
  | .lfsrSeedLoad tile value => Sys2Proof.Machine.execLfsrSeedLoad tile value s
  | .qmCntClear tile seed => Sys2Proof.Machine.execQmCntClear tile seed s
  | .ringCntClear quad => Sys2Proof.Machine.execRingCntClear quad s
  | .leafSet h leaf count members => Sys2Proof.Machine.execLeafSet h leaf count members s
  | .epgenSet h leaf first count gen => Sys2Proof.Machine.execEpgenSet h leaf first count gen s
  | .ovrInsert h feid kind gen target => Sys2Proof.Machine.execOvrInsert h feid kind gen target s
  | .ovrDelete h feid => Sys2Proof.Machine.execOvrDelete h feid s
  | .ovrAge h first => Sys2Proof.Machine.execOvrAge h first s
  | .grpSet h group kind gen desc base count => Sys2Proof.Machine.execGrpSet h group kind gen desc base count s
  | .grpDelete h group => Sys2Proof.Machine.execGrpDelete h group s
  | .memberLoad h off first count => Sys2Proof.Machine.execMemberLoad h off first count s
  | .tableLoad h off crc => Sys2Proof.Machine.execTableLoad h off crc s
  | .tableRead h table index => Sys2Proof.Machine.execTableRead h table index s
  | .cmpWordCompare => Sys2Proof.Machine.execCmpWordCompare s
  | .fwtCntClear n => Sys2Proof.Machine.execFwtCntClear n s
  | .learnMoveRx lport pkt => Sys2Proof.Machine.execLearnMoveRx lport pkt s
  | .learnUnmoveRx lport pkt => Sys2Proof.Machine.execLearnUnmoveRx lport pkt s
  | .learnAckRx lport pkt => Sys2Proof.Machine.execLearnAckRx lport pkt s
  | .linkDataFrameRx lport header fecBad => Sys2Proof.Machine.execLinkDataFrameRx lport header fecBad s
  | .ackRx lport header body fecBad => Sys2Proof.Machine.execAckRx lport header body fecBad s
  | .nakRx lport header body fecBad => Sys2Proof.Machine.execNakRx lport header body fecBad s
  | .creditRx lport header body fecBad => Sys2Proof.Machine.execCreditRx lport header body fecBad s
  | .helloRx lport header body fecBad => Sys2Proof.Machine.execHelloRx lport header body fecBad s
  | .goodbyeRx lport header body fecBad => Sys2Proof.Machine.execGoodbyeRx lport header body fecBad s
  | .replayTimeout lport => Sys2Proof.Machine.execReplayTimeout lport s
  | .helloTimer lport => Sys2Proof.Machine.execHelloTimer lport s
  | .reedsLocked lport => Sys2Proof.Machine.execReedsLocked lport s
  | .provisionalTimer lport => Sys2Proof.Machine.execProvisionalTimer lport s
  | .reedsUnlocked lport => Sys2Proof.Machine.execReedsUnlocked lport s
  | .pcsAligned lport => Sys2Proof.Machine.execPcsAligned lport s
  | .alignTimeout lport => Sys2Proof.Machine.execAlignTimeout lport s
  | .helloTimeout lport => Sys2Proof.Machine.execHelloTimeout lport s
  | .pcsAlignLoss lport => Sys2Proof.Machine.execPcsAlignLoss lport s
  | .holdDownEnd lport => Sys2Proof.Machine.execHoldDownEnd lport s
  | .trainingWaitEnd lport => Sys2Proof.Machine.execTrainingWaitEnd lport s
  | .dampingDecay lport => Sys2Proof.Machine.execDampingDecay lport s
  | .linkProvision h gen action => Sys2Proof.Machine.execLinkProvision h gen action s
  | .sluiceEp h feid action => Sys2Proof.Machine.execSluiceEp h feid action s
  | .linkQuery h clear => Sys2Proof.Machine.execLinkQuery h clear s
  | .linkParams h grace thresh retry timeout => Sys2Proof.Machine.execLinkParams h grace thresh retry timeout s
  | .tideSlotBoundary port listUe elemFail => Sys2Proof.Machine.execTideSlotBoundary port listUe elemFail s
  | .cwTakeover n => Sys2Proof.Machine.execCwTakeover n s
  | .launch port => Sys2Proof.Machine.execLaunch port s
  | .tideLoad h off => Sys2Proof.Machine.execTideLoad h off s
  | .tideCancel h => Sys2Proof.Machine.execTideCancel h s
  | .tideStop h time => Sys2Proof.Machine.execTideStop h time s
  | .launchSet h entry action time period => Sys2Proof.Machine.execLaunchSet h entry action time period s
  | .tideRead h bank entry => Sys2Proof.Machine.execTideRead h bank entry s
  | .tideListDisable port => Sys2Proof.Machine.execTideListDisable port s
  | .shaperWrite port cls value => Sys2Proof.Machine.execShaperWrite port cls value s
  | .tideCntClear tile => Sys2Proof.Machine.execTideCntClear tile s
  | .lineLow m line feed power => Sys2Proof.Machine.execLineLow m line feed power s
  | .lineFail m line powers => Sys2Proof.Machine.execLineFail m line powers s
  | .lineRestore m line powers => Sys2Proof.Machine.execLineRestore m line powers s
  | .feedFault m feed powers => Sys2Proof.Machine.execFeedFault m feed powers s
  | .feedDarkInterlock m feed => Sys2Proof.Machine.execFeedDarkInterlock m feed s
  | .elsRemoval m => Sys2Proof.Machine.execElsRemoval m s
  | .elsInsertion m => Sys2Proof.Machine.execElsInsertion m s
  | .identityReadDone which record => Sys2Proof.Machine.execIdentityReadDone which record s
  | .laserEnable m => Sys2Proof.Machine.execLaserEnable m s
  | .ringIdentityFail port reed tx tone => Sys2Proof.Machine.execRingIdentityFail port reed tx tone s
  | .relockDone port reed tx locked tone => Sys2Proof.Machine.execRelockDone port reed tx locked tone s
  | .ringSlip port reed tx => Sys2Proof.Machine.execRingSlip port reed tx s
  | .slipEnd port reed tx => Sys2Proof.Machine.execSlipEnd port reed tx s
  | .failsReset port reed => Sys2Proof.Machine.execFailsReset port reed s
  | .reedLightLoss port reed => Sys2Proof.Machine.execReedLightLoss port reed s
  | .cxPowerPublish power settled => Sys2Proof.Machine.execCxPowerPublish power settled s
  | .marginTestStart lport => Sys2Proof.Machine.execMarginTestStart lport s
  | .marginStepRx lport header body fecBad => Sys2Proof.Machine.execMarginStepRx lport header body fecBad s
  | .marginDwellEnd lport errors => Sys2Proof.Machine.execMarginDwellEnd lport errors s
  | .marginReportRx lport header body fecBad => Sys2Proof.Machine.execMarginReportRx lport header body fecBad s
  | .marginDoneRx lport header body fecBad => Sys2Proof.Machine.execMarginDoneRx lport header body fecBad s
  | .marginReportTimeout lport => Sys2Proof.Machine.execMarginReportTimeout lport s
  | .marginRetry lport => Sys2Proof.Machine.execMarginRetry lport s
  | .reedRetry h mask => Sys2Proof.Machine.execReedRetry h mask s
  | .marginRun h mask => Sys2Proof.Machine.execMarginRun h mask s
  | .idRead h => Sys2Proof.Machine.execIdRead h s
  | .cwLoad h off => Sys2Proof.Machine.execCwLoad h off s
  | .cwStanding h src dst action => Sys2Proof.Machine.execCwStanding h src dst action s
  | .standingBuildDone n => Sys2Proof.Machine.execStandingBuildDone n s
  | .cwCancel h => Sys2Proof.Machine.execCwCancel h s
  | .oeCntClear n => Sys2Proof.Machine.execOeCntClear n s
  | .cwCntClear n => Sys2Proof.Machine.execCwCntClear n s
  | .elsCntClear m => Sys2Proof.Machine.execElsCntClear m s
  | .fenOpen lport pkt => Sys2Proof.Machine.execFenOpen lport pkt s
  | .collIn lport pkt wrong => Sys2Proof.Machine.execCollIn lport pkt wrong s
  | .chunkRelease die group chunk => Sys2Proof.Machine.execChunkRelease die group chunk s
  | .verdict die group chunk shadow => Sys2Proof.Machine.execVerdict die group chunk shadow s
  | .fenStall die group chunk => Sys2Proof.Machine.execFenStall die group chunk s
  | .fenRepeat lport pkt => Sys2Proof.Machine.execFenRepeat lport pkt s
  | .fenDone lport pkt => Sys2Proof.Machine.execFenDone lport pkt s
  | .hallAdmittedRx lport pkt => Sys2Proof.Machine.execHallAdmittedRx lport pkt s
  | .hallRefusedRx lport pkt => Sys2Proof.Machine.execHallRefusedRx lport pkt s
  | .hallOpenTimeout die group => Sys2Proof.Machine.execHallOpenTimeout die group s
  | .hallReleaseRx lport pkt => Sys2Proof.Machine.execHallReleaseRx lport pkt s
  | .hallRecallRx lport pkt => Sys2Proof.Machine.execHallRecallRx lport pkt s
  | .hallRecordRx lport pkt => Sys2Proof.Machine.execHallRecordRx lport pkt s
  | .fenMemError die tier1 slot beat => Sys2Proof.Machine.execFenMemError die tier1 slot beat s
  | .reducerUe n => Sys2Proof.Machine.execReducerUe n s
  | .fenDescSet h index desc => Sys2Proof.Machine.execFenDescSet h index desc s
  | .fenDescRead h index word => Sys2Proof.Machine.execFenDescRead h index word s
  | .fenPartSet h part ring tenant sfirst scount tfirst tcount enable => Sys2Proof.Machine.execFenPartSet h part ring tenant sfirst scount tfirst tcount enable s
  | .fenPartReset h part => Sys2Proof.Machine.execFenPartReset h part s
  | .fenAbort h group rnd => Sys2Proof.Machine.execFenAbort h group rnd s
  | .fenQuery h group => Sys2Proof.Machine.execFenQuery h group s
  | .saltSeedLoad die value => Sys2Proof.Machine.execSaltSeedLoad die value s
  | .fenCntClear n => Sys2Proof.Machine.execFenCntClear n s
  | .fadmCntClear die => Sys2Proof.Machine.execFadmCntClear die s
  | .tierGrant ch idle reqs room => Sys2Proof.Machine.execTierGrant ch idle reqs room s
  | .arbWindow ch => Sys2Proof.Machine.execArbWindow ch s
  | .lockBreak ch => Sys2Proof.Machine.execLockBreak ch s
  | .scrub res parts => Sys2Proof.Machine.execScrub res parts s
  | .tier1Trained mask => Sys2Proof.Machine.execTier1Trained mask s
  | .tier2Trained present accepted trained => Sys2Proof.Machine.execTier2Trained present accepted trained s
  | .peatPut lport pkt errs => Sys2Proof.Machine.execPeatPut lport pkt errs s
  | .peatGet lport pkt errs => Sys2Proof.Machine.execPeatGet lport pkt errs s
  | .peatGather lport pkt errs => Sys2Proof.Machine.execPeatGather lport pkt errs s
  | .peatAttend lport pkt errs => Sys2Proof.Machine.execPeatAttend lport pkt errs s
  | .peatPin lport pkt errs => Sys2Proof.Machine.execPeatPin lport pkt errs s
  | .peatEvict lport pkt errs => Sys2Proof.Machine.execPeatEvict lport pkt errs s
  | .peatPromote lport pkt errs => Sys2Proof.Machine.execPeatPromote lport pkt errs s
  | .peatDemote lport pkt errs => Sys2Proof.Machine.execPeatDemote lport pkt errs s
  | .peatReasmTimeout src msgId gen => Sys2Proof.Machine.execPeatReasmTimeout src msgId gen s
  | .autoDemote p => Sys2Proof.Machine.execAutoDemote p s
  | .peatPowerInterval want => Sys2Proof.Machine.execPeatPowerInterval want s
  | .peatPartUe chan parts => Sys2Proof.Machine.execPeatPartUe chan parts s
  | .staleSweepDone p => Sys2Proof.Machine.execStaleSweepDone p s
  | .peatPartSet h part ring tenant group t1First t1Count t2First t2Count dirBase dirLog2 enable => Sys2Proof.Machine.execPeatPartSet h part ring tenant group t1First t1Count t2First t2Count dirBase dirLog2 enable s
  | .peatPartReset h part => Sys2Proof.Machine.execPeatPartReset h part s
  | .peatLookup h part key => Sys2Proof.Machine.execPeatLookup h part key s
  | .peatSnapshot h part off => Sys2Proof.Machine.execPeatSnapshot h part off s
  | .peatUsage h part => Sys2Proof.Machine.execPeatUsage h part s
  | .peatCntClear => Sys2Proof.Machine.execPeatCntClear s
  | .tierCntClear => Sys2Proof.Machine.execTierCntClear s
  | .tierChCntClear ch => Sys2Proof.Machine.execTierChCntClear ch s
  | .windowOpen fec => Sys2Proof.Machine.execWindowOpen fec s
  | .windowClose => Sys2Proof.Machine.execWindowClose s
  | .winUsWrite value => Sys2Proof.Machine.execWinUsWrite value s
  | .windowReconfig fec => Sys2Proof.Machine.execWindowReconfig fec s
  | .telem lport pkt => Sys2Proof.Machine.execTelem lport pkt s
  | .segmentTimeout kind => Sys2Proof.Machine.execSegmentTimeout kind s
  | .segmentComplete kind next => Sys2Proof.Machine.execSegmentComplete kind next s
  | .delGroupSet h index set rgroup ops flags rawLog2 expect => Sys2Proof.Machine.execDelGroupSet h index set rgroup ops flags rawLog2 expect s
  | .frostArm h t mode => Sys2Proof.Machine.execFrostArm h t mode s
  | .thaw h tt => Sys2Proof.Machine.execThaw h tt s
  | .frostCancel h => Sys2Proof.Machine.execFrostCancel h s
  | .snapshot h t => Sys2Proof.Machine.execSnapshot h t s
  | .delSnapRead h off sel => Sys2Proof.Machine.execDelSnapRead h off sel s
  | .frostInEdge level edge => Sys2Proof.Machine.execFrostInEdge level edge s
  | .frostInStuck => Sys2Proof.Machine.execFrostInStuck s
  | .frostLatch => Sys2Proof.Machine.execFrostLatch s
  | .frostOutEnd => Sys2Proof.Machine.execFrostOutEnd s
  | .thawTime => Sys2Proof.Machine.execThawTime s
  | .autoThaw => Sys2Proof.Machine.execAutoThaw s
  | .frostImage => Sys2Proof.Machine.execFrostImage s
  | .traceArm => Sys2Proof.Machine.execTraceArm s
  | .traceTrigger => Sys2Proof.Machine.execTraceTrigger s
  | .traceMark mark => Sys2Proof.Machine.execTraceMark mark s
  | .traceCaptureEnd => Sys2Proof.Machine.execTraceCaptureEnd s
  | .delCntClear => Sys2Proof.Machine.execDelCntClear s
  | .delFrostCntClear => Sys2Proof.Machine.execDelFrostCntClear s
  | .baroEvaluation => Sys2Proof.Machine.execBaroEvaluation s
  | .fenceCommit => Sys2Proof.Machine.execFenceCommit s
  | .peerFenceResend dst seq => Sys2Proof.Machine.execPeerFenceResend dst seq s
  | .peerFenceRx lport pkt => Sys2Proof.Machine.execPeerFenceRx lport pkt s
  | .peerUnfenceRx lport pkt => Sys2Proof.Machine.execPeerUnfenceRx lport pkt s
  | .fenceAckRx lport pkt => Sys2Proof.Machine.execFenceAckRx lport pkt s
  | .shieldEnd obj => Sys2Proof.Machine.execShieldEnd obj s
  | .fenceCopyUe => Sys2Proof.Machine.execFenceCopyUe s
  | .fenceAdd h obj key prop group => Sys2Proof.Machine.execFenceAdd h obj key prop group s
  | .fenceClear h obj key prop => Sys2Proof.Machine.execFenceClear h obj key prop s
  | .fenceRead h index => Sys2Proof.Machine.execFenceRead h index s
  | .holdClear h obj => Sys2Proof.Machine.execHoldClear h obj s
  | .scoreRead h obj => Sys2Proof.Machine.execScoreRead h obj s
  | .scoreReset h obj => Sys2Proof.Machine.execScoreReset h obj s
  | .baroCntClear => Sys2Proof.Machine.execBaroCntClear s
  | .chkMargin h unit step => Sys2Proof.Machine.execChkMargin h unit step s
  | .chkReturn h unit => Sys2Proof.Machine.execChkReturn h unit s
  | .iftRun h unit => Sys2Proof.Machine.execIftRun h unit s
  | .iftSchedule unit => Sys2Proof.Machine.execIftSchedule unit s
  | .iftWaitExpiry unit => Sys2Proof.Machine.execIftWaitExpiry unit s
  | .iftComplete unit pass => Sys2Proof.Machine.execIftComplete unit pass s
  | .handoverDrained n => Sys2Proof.Machine.execHandoverDrained n s
  | .pendingSubstitution unit => Sys2Proof.Machine.execPendingSubstitution unit s
  | .macTileUe row col => Sys2Proof.Machine.execMacTileUe row col s
  | .erganMemError core chan => Sys2Proof.Machine.execErganMemError core chan s
  | .degradedTakeover => Sys2Proof.Machine.execDegradedTakeover s
  | .chkCntClear => Sys2Proof.Machine.execChkCntClear s
  | .pmcSlotCfgWrite slot value => Sys2Proof.Machine.execPmcSlotCfgWrite slot value s
  | .tagSeedLoad value => Sys2Proof.Machine.execTagSeedLoad value s
  | .pmcCntClear seed => Sys2Proof.Machine.execPmcCntClear seed s
  | .pmcTagCopy h off count => Sys2Proof.Machine.execPmcTagCopy h off count s
  | .mireRead h off maxLen => Sys2Proof.Machine.execMireRead h off maxLen s
  | .mireRound h => Sys2Proof.Machine.execMireRound h s
  | .mirePeriod => Sys2Proof.Machine.execMirePeriod s
  | .mireEdgesRx lport pkt => Sys2Proof.Machine.execMireEdgesRx lport pkt s
  | .creditBlockTimer lport cls => Sys2Proof.Machine.execCreditBlockTimer lport cls s
  | .fwStage h off len flash => Sys2Proof.Machine.execFwStage h off len flash s
  | .fwActivate h time => Sys2Proof.Machine.execFwActivate h time s
  | .fwTakeover => Sys2Proof.Machine.execFwTakeover s
  | .takeoverLate => Sys2Proof.Machine.execTakeoverLate s
  | .fwCommit h flash => Sys2Proof.Machine.execFwCommit h flash s
  | .fwRollback h time => Sys2Proof.Machine.execFwRollback h time s
  | .fwChain h off ue => Sys2Proof.Machine.execFwChain h off ue s
  | .chainDataRx lport pkt flash => Sys2Proof.Machine.execChainDataRx lport pkt flash s
  | .chainAckRx lport pkt => Sys2Proof.Machine.execChainAckRx lport pkt s
  | .chainDoneRx lport pkt => Sys2Proof.Machine.execChainDoneRx lport pkt s
  | .chainAbortRx lport pkt => Sys2Proof.Machine.execChainAbortRx lport pkt s
  | .chainResend origin xfer => Sys2Proof.Machine.execChainResend origin xfer s
  | .chainTimeout xfer => Sys2Proof.Machine.execChainTimeout xfer s
  | .cfgWrite h off len flash => Sys2Proof.Machine.execCfgWrite h off len flash s
  | .jobReuse h oldGen newGen c1 c2 c3 => Sys2Proof.Machine.execJobReuse h oldGen newGen c1 c2 c3 s
  | .attest h nonce off flash => Sys2Proof.Machine.execAttest h nonce off flash s
  | .unlockChallenge h flash => Sys2Proof.Machine.execUnlockChallenge h flash s
  | .unlock h off len => Sys2Proof.Machine.execUnlock h off len s
  | .pufRefresh h flash => Sys2Proof.Machine.execPufRefresh h flash s
  | .bcastStart h off len group alts ue => Sys2Proof.Machine.execBcastStart h off len group alts ue s
  | .bcastAbort h group => Sys2Proof.Machine.execBcastAbort h group s
  | .bcastAck lport pkt => Sys2Proof.Machine.execBcastAck lport pkt s
  | .bcastBlockDeadline group member block => Sys2Proof.Machine.execBcastBlockDeadline group member block s
  | .bcastRelayRx lport pkt => Sys2Proof.Machine.execBcastRelayRx lport pkt s
  | .bcastStallNotice group => Sys2Proof.Machine.execBcastStallNotice group s
  | .cfgStartupStage stage => Sys2Proof.Machine.execCfgStartupStage stage s
  | .pwrGoodRise => Sys2Proof.Machine.execPwrGoodRise s
  | .pwrGoodFall => Sys2Proof.Machine.execPwrGoodFall s
  | .resetNAssert ns => Sys2Proof.Machine.execResetNAssert ns s
  | .resetNRelease => Sys2Proof.Machine.execResetNRelease s
  | .refclkLoss => Sys2Proof.Machine.execRefclkLoss s
  | .clockRestored => Sys2Proof.Machine.execClockRestored s
  | .sensorRead sample => Sys2Proof.Machine.execSensorRead sample s
  | .railMonitor rail voltage current => Sys2Proof.Machine.execRailMonitor rail voltage current s
  | .pwrAlertForce => Sys2Proof.Machine.execPwrAlertForce s
  | .pwrCntClear => Sys2Proof.Machine.execPwrCntClear s
  | .tideListEnable port => Sys2Proof.Machine.execTideListEnable port s
  | .calBurstReturn port stamp => Sys2Proof.Machine.execCalBurstReturn port stamp s
  | .calLoopEnd port => Sys2Proof.Machine.execCalLoopEnd port s
  | .pdelayReqTx port stampId => Sys2Proof.Machine.execPdelayReqTx port stampId s
  | .announceTx => Sys2Proof.Machine.execAnnounceTx s
  | .hallAbortRx lport pkt => Sys2Proof.Machine.execHallAbortRx lport pkt s
  | .cxlLinkDown => Sys2Proof.Machine.execCxlLinkDown s
  | .laserLightOn m => Sys2Proof.Machine.execLaserLightOn m s

end Sys2Proof.Machine
end

