-- ==== Sys2Proof/Safety.lean ====
section
/-! DEFINITION. What a well-kept state is: the register words, the counters and the two memories are in the one form in which equal contents are
equal data. -/
namespace Sys2Proof.Machine

/-- Are the keys of a table strictly rising? -/
def rising {α : Type} (t : Tbl α) : Bool := decide (t.Pairwise fun x y => x.1 < y.1)

/-- Is a table in canonical form, where an unlisted key k reads as d k: keys strictly rising, and no entry equal to what an unlisted key reads as? -/
def Tbl.wf {α : Type} [DecidableEq α] (d : Nat → α) (t : Tbl α) : Bool := rising t && t.all fun e => decide (e.2 ≠ d e.1)

/-- Is a memory in canonical form: addresses strictly rising, and no byte listed that reads as an unlisted one does? -/
def Memory.wf (m : List Host.Cell) : Bool := Tbl.wf (fun _ => 0) m

/-- Is the table of counters in canonical form, and no counter beyond the value at which R281 saturates? -/
def countersWf (t : Tbl Nat) : Bool := Tbl.wf (fun _ => 0) t && t.all fun e => decide (e.2 ≤ 0xFFFFFFFFFFFF)

/-- Are register words, counters and the two memories canonical? -/
def Kept (regs : Tbl Word) (cnts : Tbl Nat) (m1 m2 : List Host.Cell) : Prop :=
  Tbl.wf resetWord regs = true ∧ countersWf cnts = true ∧ Memory.wf m1 = true ∧ Memory.wf m2 = true

/-- The invariant of the block: its register words, counters and both tiers' memories are canonical. Every step keeps it, from any state. -/
def State.Inv (s : State) : Prop := Kept s.regs s.cnts s.mem1 s.mem2

/-! ### What a command entry needs before its own effect -/

/-- Does a command come to its own effect: it may start (R91, R311), its block's start-up stage is reached (R782) or, in recovery, it is one that runs
there (R784), and its sender has the privilege it needs (R79)? -/
def State.takes (s : State) (h : CmdHdr) (opcode : Nat) (operOnly : Bool) : Bool :=
  s.mayStart h opcode && (if s.flag Reg.CFG_STATUS Fld.CFG_STATUS_RECOVERY then inRecovery opcode else s.stageReached (opcode / 256)) &&
    (!operOnly || s.isOperator h)

/-- The outcome of a command that ends with OK and a RESULT (R93, R94). -/
def State.okFor (t : State) (h : CmdHdr) (block : Nat) (result : Nat := 0) : Result := .next (t.complete h block ⟨0, result, 0, []⟩)

/-- The rows that are command entries of a ring, of the management port or of firmware: the header, the OPCODE, and whether only the operator may give it
(R79, R94 and the command tables of the chapters). -/
def commandOf : Instr → Option (CmdHdr × Nat × Bool)
  | .bcastStart h _ _ _ _ _ => some (h, 0x0101, true)
  | .bcastAbort h _ => some (h, 0x0102, true)
  | .mpKeySet h _ _ _ => some (h, 0x0103, true)
  | .nop h => some (h, 0x0200, false)
  | .regWrite h _ _ => some (h, 0x0201, false)
  | .regRead h _ => some (h, 0x0202, false)
  | .asymCal h _ _ => some (h, 0x0301, true)
  | .linkProvision h _ _ => some (h, 0x0401, true)
  | .sluiceEp h _ _ => some (h, 0x0402, true)
  | .linkQuery h _ => some (h, 0x0403, true)
  | .linkParams h _ _ _ _ => some (h, 0x0404, true)
  | .leafSet h _ _ _ => some (h, 0x0601, true)
  | .epgenSet h _ _ _ _ => some (h, 0x0602, true)
  | .ovrInsert h _ _ _ _ => some (h, 0x0603, true)
  | .ovrDelete h _ => some (h, 0x0604, true)
  | .ovrAge h _ => some (h, 0x0605, true)
  | .grpSet h _ _ _ _ _ _ => some (h, 0x0606, true)
  | .grpDelete h _ => some (h, 0x0607, true)
  | .memberLoad h _ _ _ => some (h, 0x0608, true)
  | .tableLoad h _ _ => some (h, 0x0609, true)
  | .tableRead h _ _ => some (h, 0x060A, true)
  | .tideLoad h _ => some (h, 0x0801, true)
  | .tideCancel h => some (h, 0x0802, true)
  | .tideStop h _ => some (h, 0x0803, true)
  | .launchSet h _ _ _ _ => some (h, 0x0804, true)
  | .tideRead h _ _ => some (h, 0x0805, true)
  | .reedRetry h _ => some (h, 0x0901, true)
  | .marginRun h _ => some (h, 0x0902, true)
  | .idRead h => some (h, 0x0903, true)
  | .cwLoad h _ => some (h, 0x0A01, true)
  | .cwStanding h _ _ _ => some (h, 0x0A02, true)
  | .cwCancel h => some (h, 0x0A03, true)
  | .fenDescSet h _ _ => some (h, 0x0D01, true)
  | .fenDescRead h _ _ => some (h, 0x0D02, true)
  | .fenPartSet h _ _ _ _ _ _ _ _ => some (h, 0x0D03, true)
  | .fenPartReset h _ => some (h, 0x0D04, true)
  | .fenAbort h _ _ => some (h, 0x0D05, true)
  | .fenQuery h _ => some (h, 0x0D06, true)
  | .peatPartSet h _ _ _ _ _ _ _ _ _ _ _ => some (h, 0x0E01, true)
  | .peatPartReset h _ => some (h, 0x0E02, true)
  | .peatLookup h _ _ => some (h, 0x0E03, true)
  | .peatSnapshot h _ _ => some (h, 0x0E04, true)
  | .peatUsage h _ => some (h, 0x0E05, true)
  | .delGroupSet h _ _ _ _ _ _ _ => some (h, 0x1001, true)
  | .frostArm h _ _ => some (h, 0x1002, true)
  | .thaw h _ => some (h, 0x1003, true)
  | .frostCancel h => some (h, 0x1004, true)
  | .snapshot h _ => some (h, 0x1005, true)
  | .delSnapRead h _ _ => some (h, 0x1006, true)
  | .fenceAdd h _ _ _ _ => some (h, 0x1101, true)
  | .fenceClear h _ _ _ => some (h, 0x1102, true)
  | .fenceRead h _ => some (h, 0x1103, true)
  | .holdClear h _ => some (h, 0x1104, true)
  | .scoreRead h _ => some (h, 0x1105, true)
  | .scoreReset h _ => some (h, 0x1106, true)
  | .chkMargin h _ _ => some (h, 0x1201, true)
  | .chkReturn h _ => some (h, 0x1202, true)
  | .iftRun h _ => some (h, 0x1203, true)
  | .pmcTagCopy h _ _ => some (h, 0x1301, true)
  | .mireRead h _ _ => some (h, 0x1302, true)
  | .mireRound h => some (h, 0x1303, true)
  | .attest h _ _ _ => some (h, 0x1401, true)
  | .unlockChallenge h _ => some (h, 0x1402, true)
  | .unlock h _ _ => some (h, 0x1403, true)
  | .pufRefresh h _ => some (h, 0x1404, true)
  | .fwStage h _ _ _ => some (h, 0x1501, true)
  | .fwActivate h _ => some (h, 0x1502, true)
  | .fwCommit h _ => some (h, 0x1503, true)
  | .fwRollback h _ => some (h, 0x1504, true)
  | .fwChain h _ _ => some (h, 0x1505, true)
  | .cfgWrite h _ _ _ => some (h, 0x1506, true)
  | .jobReuse h _ _ _ _ _ => some (h, 0x1507, true)
  | _ => none

/-- What reporting leaves alone: the state of the blocks beside the register words, counters, logs, rings, memories, Delsia's buffers and the record of
what has left the package. -/
def State.rest (s : State) : State :=
  { s with regs := [], cnts := [], logLast := [], host := HostSt.init, mem1 := [], mem2 := [], del := DelSt.init, out := [], free := 0 }

/-- A COLL_CTRL packet that the row of OP `op` acts on (R183, R202, R519, R521): 64 bytes with an OP its kind of source may send, not poisoned, for the
collective group of entry e and descriptor d, of the group's generation and with its reserved bytes zero; an OPEN does not pass a freeze. -/
def State.ctrlTakes (s : State) (p : Pkt) (op e d : Nat) : Bool :=
  p.typ == 0x13 && p.payload.length == 64 && beAt 0 1 p.payload == op && (if pflag p fSrcSpine then [1, 2, 3, 4, 5, 9] else [1, 6, 8]).contains op &&
    !(op == 1 && s.frozen) && s.collGroup (p.msgId / 4096) == some (e, d) &&
    !staleGen p (grpGen e) && !pflag p fPoison && allZero (p.payload.drop 20)

/-- The reassembly of a PEAT_REQ message with a packet that arrives (R209, R605). -/
def State.peatReasm (s : State) (lp : Nat) (pkt : Pkt) : Reasm :=
  let q : Reasm := (s.peat.reasm.find? fun q => q.src == pkt.src && q.msgId == pkt.msgId && q.gen == pkt.gen).getD
    ⟨pkt.src, pkt.msgId, pkt.gen, s.time.ticks, [], none⟩
  { q with segs := q.segs ++ [⟨lp, pkt.offset, pkt.payload, pflag pkt fPoison⟩], total := if pflag pkt fLast then some (pkt.offset + pkt.payload.length) else q.total }

/-- An UPDATE packet of a KIND that the chain acts on (R800): its header whole and its reserved bytes zero. -/
def updTakes (p : Pkt) (kind : Nat) : Bool :=
  let b := p.payload
  p.typ == 0x33 && beAt 0 1 b == 0x20 && beAt 1 1 b == kind && !pflag p fPoison && decide (32 ≤ b.length) && allZero (slice 20 12 b) && (kind == 1 || b.length == 32)

end Sys2Proof.Machine
end

