-- ==== Sys2Proof/Certificates/Slice0/Obligations.lean ====
section
/-! DEFINITION. The statements about the model: the completion of every command, the rules of the whole block, its frames and its invariant. -/
open Sys2Proof Sys2Proof.Machine

def Obligations.RegisterAccessCompletes : Prop :=
  (∀ (s : State) (a v : Nat) (who : Requester), reaches who a = true → s.pwr.held = false → s.mapped a = true →
    (misaligned a 4 = false → exec (.registerWrite a 4 v who) s = .next (
      if inBlocks a && s.lockHit a (v % 2 ^ 32) && !(s.pageBusy (a / 4096) && blockSpecific a)
      then (s.wordWrite a (v % 2 ^ 32)).logErr (a / 4096) 0x0002 0 (locPage (a / 4096))
      else s.wordWrite a (v % 2 ^ 32))) ∧
    (misaligned a 8 = false → exec (.registerWrite a 8 v who) s = .next (
      if inBlocks a && (s.lockHit a (v % 2 ^ 32) || s.lockHit (a + 4) (v / 2 ^ 32 % 2 ^ 32)) && !(s.pageBusy (a / 4096) && blockSpecific a)
      then (s.wideWrite a v).logErr (a / 4096) 0x0002 0 (locPage (a / 4096))
      else s.wideWrite a v))) ∧
  (∀ (s : State) (a : Nat) (who : Requester), reaches who a = true → s.pwr.held = false → s.mapped a = true →
    (misaligned a 4 = false → exec (.rcFieldRead a 4 who) s = .next ((s.wordRead a).2.emit (.readData a (s.wordRead a).1)) ∧
      exec (.split64bitRead a who) s = .next ((s.wordRead a).2.emit (.readData a (s.wordRead a).1))) ∧
    (misaligned a 8 = false → exec (.rcFieldRead a 8 who) s = .next ((s.wideRead a).2.emit (.readData a (s.wideRead a).1)))) ∧
  (∀ (s : State) (a : Nat) (who : Requester), reaches who a = true → s.pwr.held = false → misaligned a 4 = false → s.mapped a = true →
    s.discards a = false → Tbl.find s.host.latch a = none → a ≠ Reg.TIME_TXQ_ENTRY + 12 → lowOfWide a = true →
    ∃ t, exec (.split64bitRead a who) s = .next t ∧ Tbl.find t.host.latch (a + 4) = some (BitVec.ofNat 32 (s.wordNow (a + 4)))) ∧
  (∀ (s : State) (p : Nat), s.Inv → s.pwr.held = false → pageImplemented p = true → hasHeader (p / 256) (p % 256) = true →
    ∃ t, exec (.pageLock p) s = .next t ∧ t.flag (Reg.PAGE_CTRL (if p / 256 = 6 then pg 6 0 else p)) Fld.PAGE_CTRL_LOCK = true ∧
      t.rest = s.rest ∧ t.cnts = s.cnts ∧ t.mem1 = s.mem1 ∧ t.mem2 = s.mem2 ∧ t.host = s.host) ∧
  (∀ (s : State) (p : Nat), s.Inv → s.pwr.held = false → pageImplemented p = true → hasHeader (p / 256) (p % 256) = true → s.pageBusy p = false →
    ∃ t, exec (.pageReset p) s = .next t ∧ t.pageBusy p = true) ∧
  (∀ (s : State) (p : Nat), s.Inv → s.pwr.held = false → pageImplemented p = true → hasHeader (p / 256) (p % 256) = true → s.pageBusy p = true →
    ∃ t, exec (.pageResetComplete p) s = .next t ∧ t.pageBusy p = false ∧ (p = pgTime → t.rdWide Reg.TIME_INCR 2 = 0x147AE147B) ∧
      t.cnts = s.cnts ∧ t.mem1 = s.mem1 ∧ t.mem2 = s.mem2 ∧ t.host = s.host) ∧
  (∀ (s : State) (p v : Nat), s.pwr.held = false → pageImplemented p = true → hasHeader (p / 256) (p % 256) = true →
    exec (.pageIrqForce p v) s = .next (((List.range 32).filter fun b => bit b v && !bit b (s.rd (Reg.PAGE_IRQ_STATUS p)).toNat).foldl
      (fun s b => s.trace 2 b 0 (p / 256) (p % 256) []) (s.irqStore p (Reg.PAGE_IRQ_STATUS p) (s.rd (Reg.PAGE_IRQ_STATUS p) ||| BitVec.ofNat 32 v)))) ∧
  (∀ (s : State) (p : Nat), s.Inv → s.pwr.held = false → pageImplemented p = true → hasHeader (p / 256) (p % 256) = true →
    ∃ t, exec (.pageErrClear p) s = .next t ∧ t.fld (Reg.PAGE_ERR_STATUS p) Fld.PAGE_ERR_STATUS_TOTAL = 0 ∧
      t.fld (Reg.PAGE_ERR_STATUS p) Fld.PAGE_ERR_STATUS_FIRST_VALID = 0 ∧ t.fld (Reg.PAGE_ERR_STATUS p) Fld.PAGE_ERR_STATUS_NEXT = 1 ∧
      t.rest = s.rest ∧ t.cnts = s.cnts ∧ t.mem1 = s.mem1 ∧ t.mem2 = s.mem2 ∧ t.host = s.host)

def Obligations.HostPortCompletes : Prop :=
  (∀ (s : State), s.pwr.held = false → s.pageBusy hostPg = false →
    exec (.hostResetKey 0xA55A) s = .next { s with host := { s.host with rstKey := some s.time.ticks } }) ∧
  (∀ (s : State) (t : Nat), s.pwr.held = false → s.pageBusy hostPg = false → s.host.rstKey = some t → (s.time.ticks - t) * 128 ≤ 100000 →
    exec (.hostResetKey 0x5AA5) s = .next (s.resetTo false 3)) ∧
  (∀ (s : State) (v : Nat), s.pwr.held = false → s.pageBusy hostPg = false → v ≠ 0xA55A →
    (∀ t, s.host.rstKey = some t → 100000 < (s.time.ticks - t) * 128 ∨ v ≠ 0x5AA5) →
    exec (.hostResetKey v) s = .next { s with host := { s.host with rstKey := none } }) ∧
  (∀ (s : State) (w v : Nat), s.pwr.held = false → s.pageBusy hostPg = false →
    exec (.tenantWindowBind w v) s = .next (((s.wr (Reg.HOST_TW_BIND w) (BitVec.ofNat 32 v &&& 0x8000FFFF)).slotOpenClear).crResume
      fun s i => s.ringWindow i == some w)) ∧
  (∀ (s : State) (wide fast cache mem : Bool), s.Inv → s.pwr.held = false →
    (s.stageReached 2 || s.flag Reg.CFG_STATUS Fld.CFG_STATUS_RECOVERY) = true →
    ∃ t, exec (.cxlLinkTrain wide fast false cache mem) s = .next t ∧ t.flag Reg.HOST_LINK_STATUS Fld.HOST_LINK_STATUS_UP = true ∧
      t.flag Reg.HOST_LINK_STATUS Fld.HOST_LINK_STATUS_SWITCHED = false ∧
      t.fld Reg.HOST_LINK_STATUS Fld.HOST_LINK_STATUS_WIDTH = (if wide then 16 else 8) ∧
      t.fld Reg.HOST_LINK_STATUS Fld.HOST_LINK_STATUS_SPEED = (if fast then 3 else 2) ∧
      t.flag Reg.HOST_LINK_STATUS Fld.HOST_LINK_STATUS_CACHE_EN = cache ∧ t.flag Reg.HOST_LINK_STATUS Fld.HOST_LINK_STATUS_MEM_EN = mem ∧
      t.rest = s.rest ∧ t.cnts = s.cnts ∧ (∀ b, b ≠ Reg.HOST_LINK_STATUS → t.rd b = s.rd b)) ∧
  (∀ (s : State) (wide fast cache mem : Bool), s.Inv → s.pwr.held = false →
    (s.stageReached 2 || s.flag Reg.CFG_STATUS Fld.CFG_STATUS_RECOVERY) = true →
    ∃ t, exec (.cxlLinkTrain wide fast true cache mem) s = .next t ∧ t.flag Reg.HOST_LINK_STATUS Fld.HOST_LINK_STATUS_UP = false ∧
      t.flag Reg.HOST_LINK_STATUS Fld.HOST_LINK_STATUS_SWITCHED = true ∧ t.rest = s.rest ∧ t.cnts = s.cnts ∧
      (∀ b, b ≠ Reg.HOST_LINK_STATUS → t.rd b = s.rd b)) ∧
  (∀ (s : State), s.Inv → ∃ t, exec .cxlLinkDown s = .next t ∧ t.flag Reg.HOST_LINK_STATUS Fld.HOST_LINK_STATUS_UP = false ∧
      t.rest = s.rest ∧ t.cnts = s.cnts ∧ (∀ b, b ≠ Reg.HOST_LINK_STATUS → t.rd b = s.rd b)) ∧
  (∀ (s : State) (off n t b sz : Nat), s.pwr.held = false → s.tierReady 0 = true → s.regionOf 1 = some (t, b, sz) → off + n ≤ sz →
    exec (.bar2Access off (.read n [])) s = .next (s.emit (.readData off (leNat (s.regionRead 1 off n))))) ∧
  (∀ (s : State) (off : Nat) (bs : List Byte), s.pwr.held = false → s.tierReady 0 = true →
    exec (.bar2Access off (.write bs)) s = .next (s.regionWrite 1 off bs)) ∧
  (∀ (s : State) (off n : Nat) (errs : List BeatErr) (bs : List Byte), s.tierReady 0 = false →
    exec (.bar2Access off (.read n errs)) s = .next (s.emit (.readData off 0)) ∧ exec (.bar2Access off (.write bs)) s = .next s) ∧
  (∀ (s : State) (hdm off n t b sz : Nat), s.pwr.held = false → off < s.hdmSize hdm → s.regionOf (hdmKind hdm) = some (t, b, sz) → s.tierReady t = true →
    off + n ≤ sz → exec (.hdmWrite hdm off (.read n [])) s = .next (s.emit (.readData off (leNat (s.regionRead (hdmKind hdm) off n))))) ∧
  (∀ (s : State) (hdm off : Nat) (bs : List Byte), s.Inv → s.pwr.held = false → off < s.hdmSize hdm → ∃ t, exec (.hdmWrite hdm off (.write bs)) s = .next t ∧
      t.fld Reg.HOST_HDM_WR_DROP Fld.HOST_HDM_WR_DROP_COUNT = min (s.fld Reg.HOST_HDM_WR_DROP Fld.HOST_HDM_WR_DROP_COUNT + 1) 0xFFFFFFFF ∧
      t.rest = s.rest ∧ t.cnts = s.cnts ∧ t.mem1 = s.mem1 ∧ t.mem2 = s.mem2)

def Obligations.RingsComplete : Prop :=
  (∀ (s : State) (i v tail : Nat), s.pwr.held = false → s.pageBusy (pg 2 (crPage i)) = false →
    s.flag (Reg.HOST_CR_CFG (crPage i) (i % 64)) Fld.HOST_CR_CFG_ENABLE = false →
    let u := s.wr (Reg.HOST_CR_CFG (crPage i) (i % 64)) (BitVec.ofNat 32 (v % 2 ^ 31 + 2 ^ 31) &&& 0x80FFBF1F)
    6 ≤ u.crCfg i Fld.HOST_CR_CFG_LOG2_SIZE → u.crCfg i Fld.HOST_CR_CFG_LOG2_SIZE ≤ 16 →
    exec (.cmdRingEnable i v tail) s = .next ((u.emit (.rdShared false i (u.crLine i))).setCr i
      ⟨tail % 2 ^ 32, 1, 0, false, tail % 2 ^ 32, tail % 2 ^ 32⟩)) ∧
  (∀ (s : State) (i v tail : Nat), s.pwr.held = false → s.pageBusy (pg 2 (crPage i)) = false →
    s.flag (Reg.HOST_CR_CFG (crPage i) (i % 64)) Fld.HOST_CR_CFG_ENABLE = false →
    let u := s.wr (Reg.HOST_CR_CFG (crPage i) (i % 64)) (BitVec.ofNat 32 (v % 2 ^ 31 + 2 ^ 31) &&& 0x80FFBF1F)
    (u.crCfg i Fld.HOST_CR_CFG_LOG2_SIZE < 6 ∨ 16 < u.crCfg i Fld.HOST_CR_CFG_LOG2_SIZE) →
    exec (.cmdRingEnable i v tail) s = .next (((u.emit (.rdShared false i (u.crLine i))).setCr i ⟨(u.cr i).head, 2, 2, false, 0, 0⟩).ringError i 2)) ∧
  (∀ (s : State) (i : Nat), s.pwr.held = false → s.pageBusy (pg 2 (crPage i)) = false →
    s.flag (Reg.HOST_CR_CFG (crPage i) (i % 64)) Fld.HOST_CR_CFG_ENABLE = true →
    exec (.cmdRingDisable i) s = .next ((s.setFld (Reg.HOST_CR_CFG (crPage i) (i % 64)) Fld.HOST_CR_CFG_ENABLE 0).setCr i
      { CrSt.init with head := (s.cr i).head })) ∧
  (∀ (s : State) (i : Nat), s.crCfg i Fld.HOST_CR_CFG_ENABLE = 1 → (s.cr i).rereading = false →
    exec (.tailSnoop i) s = .next ((s.setCr i { s.cr i with rereading := true }).emit (.rdShared false i (s.crLine i)))) ∧
  (∀ (s : State) (i tail : Nat), (s.cr i).state ≠ 1 → (s.cr i).rereading = true →
    exec (.tailReread i tail) s = .next (s.setCr i { s.cr i with rereading := false, tail := tail % 2 ^ 32 })) ∧
  (∀ (s : State) (i tail : Nat), (s.cr i).state = 1 → (s.cr i).rereading = true →
    (tail % 2 ^ 32 + 2 ^ 32 - (s.cr i).head) % 2 ^ 32 ≤ 2 ^ s.crCfg i Fld.HOST_CR_CFG_LOG2_SIZE →
    exec (.tailReread i tail) s = .next ((s.setCr i { s.cr i with rereading := false, tail := tail % 2 ^ 32 }).crFetch i)) ∧
  (∀ (s : State) (i tail : Nat), (s.cr i).state = 1 → (s.cr i).rereading = true →
    2 ^ s.crCfg i Fld.HOST_CR_CFG_LOG2_SIZE < (tail % 2 ^ 32 + 2 ^ 32 - (s.cr i).head) % 2 ^ 32 →
    exec (.tailReread i tail) s = .next ((s.setCr i { s.cr i with state := 2, error := 1, rereading := false }).ringError i 1)) ∧
  (∀ (s : State) (i : Nat) (es : List RawEntry), (s.cr i).state = 1 → es.length ≤ ((s.cr i).fetchTo + 2 ^ 32 - (s.cr i).head) % 2 ^ 32 →
    exec (.entryFetch i es) s = .next (es.foldl (fun s e => s.takeEntry (.ring i) e)
      (s.setCr i { s.cr i with head := ((s.cr i).head + es.length) % 2 ^ 32 }))) ∧
  (∀ (s : State) (j v cons : Nat), s.pwr.held = false → s.pageBusy (pg 2 (erPage j)) = false →
    s.flag (Reg.HOST_ER_CFG (erPage j) (j % 64)) Fld.HOST_ER_CFG_ENABLE = false → 6 ≤ v % 32 → v % 32 ≤ 16 →
    let u := s.wr (Reg.HOST_ER_CFG (erPage j) (j % 64)) (BitVec.ofNat 32 (v % 2 ^ 31 + 2 ^ 31) &&& 0x87FFBF1F)
    exec (.eventRingEnable j v cons) s = .next ((u.setEr j { s.er j with prod := 0, cons := cons % 2 ^ 32, seq := 0 }).emit
      (.rdShared true j (u.erLine j)))) ∧
  (∀ (s : State) (j : Nat), s.pwr.held = false → s.pageBusy (pg 2 (erPage j)) = false →
    s.flag (Reg.HOST_ER_CFG (erPage j) (j % 64)) Fld.HOST_ER_CFG_ENABLE = true →
    exec (.eventRingDisable j) s = .next ((s.wr (Reg.HOST_ER_CFG (erPage j) (j % 64))
      (BitVec.ofNat 32 ((s.rd (Reg.HOST_ER_CFG (erPage j) (j % 64))).toNat % 2 ^ 31) &&& 0x87FFBF1F)).erRelease j)) ∧
  (∀ (s : State) (j cons : Nat), s.erOn j = true →
    exec (.consSnoop j cons) s = .next ((s.setEr j { s.er j with cons := cons % 2 ^ 32 }).emit (.rdShared true j (s.erLine j)))) ∧
  (∀ (s : State) (j : Nat), exec (.heldEventWrite j) s = .next ((heldWrites j (s.er j).waiting s).crResume (State.crOfEr j))) ∧
  (∀ (s : State) (j : Nat), (s.er j).done < (s.er j).unsig.length →
    exec (.eventWriteDone j) s = .next ((s.setEr j { s.er j with done := (s.er j).done + 1 }).erSignal j)) ∧
  (∀ (s : State) (j t : Nat) (l : List Nat), (s.er j).unsig = t :: l →
    exec (.msixDelayExpiry j) s = .next
      ((s.elapseToTick (t + usTicks (s.fld (Reg.HOST_ER_MOD (erPage j) (j % 64)) Fld.HOST_ER_MOD_DELAY))).erSignal j)) ∧
  (∀ (s : State) (v : Nat), s.pwr.held = false →
    exec (.msixUnmask v) s = .next ((s.setFld (Reg.MSIX_CTRL (16 + v / 256) (v % 256)) Fld.MSIX_CTRL_MASK 0).msixUnmasked v))

def Obligations.HostCommandsComplete : Prop :=
  (∀ (s : State) (h : CmdHdr), s.takes h 0x0200 false = true → exec (.nop h) s = (s.start h 0x0200).okFor h 2) ∧
  (∀ (s : State) (h : CmdHdr) (a v : Nat), s.takes h 0x0201 false = true → s.cmdReaches h a = true →
    let x := (s.start h 0x0201).writeAcc a 4 v
    (x.1 = false → x.2.host.started.any (cmdRuns h 2) = true → exec (.regWrite h a v) s = x.2.okFor h 2) ∧
    (x.1 = false → x.2.host.started.any (cmdRuns h 2) = false → exec (.regWrite h a v) s = .next x.2) ∧
    (x.1 = true → exec (.regWrite h a v) s = .next (x.2.complete h 2 ⟨0x0100, 0, 0, []⟩))) ∧
  (∀ (s : State) (h : CmdHdr) (a : Nat), s.takes h 0x0202 false = true → s.cmdReaches h a = true →
    let x := (s.start h 0x0202).readAcc a 4
    (x.1 = false → exec (.regRead h a) s = x.2.2.okFor h 2 x.2.1) ∧
    (x.1 = true → exec (.regRead h a) s = .next (x.2.2.complete h 2 ⟨0x0100, 0, 0, []⟩))) ∧
  (∀ (s : State) (f : MpFrame), s.pwr.held = false → s.mpOurs f = true → s.mpWellFormed f = true → f.op = 1 → s.mpInSession f = true → s.mpAuthentic f = true →
    (s.host.mpSeq.any fun q => decide (f.seq ≤ q)) = false →
    let u := { s with host := { s.host with mpSeq := some f.seq } }.inc Cnt.MGMT_MP_ACCEPTED
    exec (.mpRegRead f) s = .next ((u.readAcc f.addr f.len).2.2.mpAnswer f 0x81 (b2n (u.readAcc f.addr f.len).1)
      (leBytes f.len (u.readAcc f.addr f.len).2.1))) ∧
  (∀ (s : State) (f : MpFrame), s.pwr.held = false → s.mpOurs f = true → s.mpWellFormed f = true → f.op = 2 → s.mpInSession f = true → s.mpAuthentic f = true →
    (s.host.mpSeq.any fun q => decide (f.seq ≤ q)) = false →
    let u := { s with host := { s.host with mpSeq := some f.seq } }.inc Cnt.MGMT_MP_ACCEPTED
    (u.writeAcc f.addr f.len (leNat f.body)).2.host.sessions = s.host.sessions →
    exec (.mpRegWrite f) s = .next ((u.writeAcc f.addr f.len (leNat f.body)).2.mpAnswer f 0x82 (b2n (u.writeAcc f.addr f.len (leNat f.body)).1) [])) ∧
  (∀ (s : State) (f : MpFrame), s.pwr.held = false → s.mpOurs f = true → s.mpWellFormed f = true → f.op = 3 → s.mpInSession f = true → s.mpAuthentic f = true →
    (s.host.mpSeq.any fun q => decide (f.seq ≤ q)) = false →
    exec (.mpCommand f) s = .next (({ s with host := { s.host with mpSeq := some f.seq } }.inc Cnt.MGMT_MP_ACCEPTED).takeEntry
      (.mgmt f.srcMac f.seq) (rawEntry f.body))) ∧
  (∀ (s : State) (h : CmdHdr) (slot key : Nat), s.takes h 0x0103 true = true → h.target = 0 → slot ≤ 3 →
    let u := s.start h 0x0103
    let put := fun (f : List (Nat × Nat) → List (Nat × Nat)) =>
      (({ u with host := { u.host with keys := f u.host.keys } } : State).writeSettings fun r => { r with keys := f r.keys }).okFor h 1
    exec (.mpKeySet h slot 0 key) s = put (fun t => Tbl.put t slot key) ∧ exec (.mpKeySet h slot 1 key) s = put (fun t => Tbl.del t slot)) ∧
  (∀ (s : State) (h : CmdHdr) (slot empty key : Nat), s.takes h 0x0103 true = true → h.target = 0 → 3 < slot →
    exec (.mpKeySet h slot empty key) s = .next ((s.start h 0x0103).complete h 1 ⟨0x0100, 0, 0, []⟩)) ∧
  (∀ (s : State), s.pwr.held = false → s.pageBusy mgmtPg = false → exec .mgmtCntClear s = .next (s.clearCnts mgmtPg))

def Obligations.ClockCommandsComplete : Prop :=
  (∀ (s : State) (v : Nat), s.pwr.held = false → s.pageBusy pgTime = false →
    (bits 35 32 v = 1 ∧ 0x46AE147B ≤ v % 2 ^ 32 ∧ v % 2 ^ 32 ≤ 0x48AE147B →
      exec (.timeIncrWrite v) s = .next ((s.wrWide Reg.TIME_INCR (v % 2 ^ 36) 2).dropHeld [Reg.TIME_INCR + 4])) ∧
    (bits 35 32 v ≠ 1 ∨ v % 2 ^ 32 < 0x46AE147B ∨ 0x48AE147B < v % 2 ^ 32 →
      exec (.timeIncrWrite v) s = .next
        ((((s.setFld Reg.TIME_STATUS Fld.TIME_STATUS_INCR_REFUSED 1).irq pgTime 4).logErr pgTime 0x0103 0 (locBlock 3)).dropHeld [Reg.TIME_INCR + 4]))) ∧
  (∀ (s : State) (v : Nat), s.pwr.held = false → s.pageBusy pgTime = false →
    let r := s.wrWide Reg.TIME_ADJ v 2
    let u : State := { r with time := { r.time with pending := none } }
    let d : Int := toSigned 64 v * 65536
    let fits : Bool := decide (d.natAbs ≤ u.jumpLimit ∧ (d + u.time.slew).natAbs ≤ u.jumpLimit)
    (u.timeState = 0 → exec (.timeAdjWrite v) s = .next (((u.elapse 1).applyStep d).enterAcquire.dropHeld [Reg.TIME_ADJ + 4])) ∧
    (u.timeState = 4 → exec (.timeAdjWrite v) s = .next (((u.elapse 1).applyStep d).dropHeld [Reg.TIME_ADJ + 4])) ∧
    (u.timeState = 1 ∨ u.timeState = 2 ∨ u.timeState = 3 → fits = true → exec (.timeAdjWrite v) s =
      .next (({ u with time := { u.time with slew := d + u.time.slew } } : State).dropHeld [Reg.TIME_ADJ + 4])) ∧
    (u.timeState = 1 ∨ u.timeState = 2 ∨ u.timeState = 3 → fits = false → exec (.timeAdjWrite v) s =
      .next ((((({ u with time := { u.time with pending := some d } } : State).setFld Reg.TIME_STATUS Fld.TIME_STATUS_ADJ_REFUSED 1).irq pgTime 3).logErr
        pgTime 0x0101 0 (locBlock 3)).dropHeld [Reg.TIME_ADJ + 4]))) ∧
  (∀ (s : State), exec .slewDone s = .next (s.elapse (ceilDiv s.time.slew.natAbs s.slewRate))) ∧
  (∀ (s : State), s.pwr.held = false → s.pageBusy pgTime = false →
    exec (.timeStepKey 0xC3C3) s = .next { s with time := { s.time with stepKey := some s.time.ticks } }) ∧
  (∀ (s : State) (t : Nat), s.pwr.held = false → s.pageBusy pgTime = false → s.time.stepKey = some t → (s.time.ticks - t) * 128 ≤ 100000 →
    (s.time.pending = none → exec (.timeStepKey 0x3C3C) s = .next { s with time := { s.time with stepKey := none } }) ∧
    (∀ d : Int, s.time.pending = some d →
      let u := (({ s with time := { s.time with stepKey := none, pending := none } } : State).elapse 1).applyStep d
      (s.timeState = 1 ∨ s.timeState = 4 → exec (.timeStepKey 0x3C3C) s = .next u) ∧
      (s.timeState = 2 ∨ s.timeState = 3 → exec (.timeStepKey 0x3C3C) s = .next u.enterLost) ∧
      (s.timeState = 0 → exec (.timeStepKey 0x3C3C) s = .next u.enterAcquire))) ∧
  (∀ (s : State) (v : Nat), s.pwr.held = false → s.pageBusy pgTime = false → v ≠ 0xC3C3 →
    (v ≠ 0x3C3C ∨ s.time.stepKey = none ∨ ∃ t, s.time.stepKey = some t ∧ 100000 < (s.time.ticks - t) * 128) →
    exec (.timeStepKey v) s = .next { s with time := { s.time with stepKey := none } }) ∧
  (∀ (s : State) (sec ns : Nat), s.pwr.held = false → s.pageBusy pgTime = false →
    let u := (s.wrWide Reg.TIME_SET (sec % 2 ^ 48 * 2 ^ 64 + ns % 2 ^ 30 * 2 ^ 32) 4).elapse 1
    let v : State := { u with time := { u.time with slew := 0, pending := none } }
    let w := v.applyStep ((((sec % 2 ^ 48 * 1000000000 + ns) * 2 ^ 32 : Nat) : Int) - v.time.now)
    let drop := fun (t : State) => t.dropHeld [Reg.TIME_SET + 8, Reg.TIME_SET + 4, Reg.TIME_SET]
    (s.timeState = 0 → ns < 1000000000 → exec (.timeSet sec ns) s = .next (drop w.enterAcquire)) ∧
    (s.timeState = 4 → ns < 1000000000 → exec (.timeSet sec ns) s = .next (drop w)) ∧
    ((s.timeState ≠ 0 ∧ s.timeState ≠ 4) ∨ 1000000000 ≤ ns →
      exec (.timeSet sec ns) s = .next (drop ((s.setFld Reg.TIME_STATUS Fld.TIME_STATUS_ADJ_REFUSED 1).irq pgTime 3)))) ∧
  (∀ (s : State), s.pwr.held = false → s.pageBusy pgTime = false →
    (s.timeState = 1 ∨ s.timeState = 3 ∨ s.timeState = 4 → exec .declareLock s = .next s.enterLocked) ∧
    (s.timeState = 0 ∨ s.timeState = 2 → exec .declareLock s = .next s) ∧
    (s.timeState ≠ 0 → exec .declareLost s = .next s.enterLost) ∧ (s.timeState = 0 → exec .declareLost s = .next s)) ∧
  (∀ (s : State), s.pwr.held = false → s.pageBusy pgTime = false →
    (s.timeState = 2 → exec .timeHeartbeat s = .next { s with time := { s.time with holdFrom := s.time.ticks } }) ∧
    (s.timeState = 3 → exec .timeHeartbeat s = .next s.enterLocked) ∧ (s.timeState = 4 → exec .timeHeartbeat s = .next s.enterAcquire) ∧
    (s.timeState = 0 ∨ s.timeState = 1 → exec .timeHeartbeat s = .next s)) ∧
  (∀ (s : State), s.timeState = 2 →
    let u := s.elapseToTick (s.time.holdFrom + usTicks (s.rd Reg.TIME_HOLD_WIN).toNat)
    let v := u.setTimeState 3
    (u.heartbeatNext = false → u.flag Reg.TIME_CTRL Fld.TIME_CTRL_HOLDOVER_EN = true →
      exec .holdWindowExpiry s = .next { v with time := { v.time with holdoverFrom := v.time.ticks } }) ∧
    (u.heartbeatNext = false → u.flag Reg.TIME_CTRL Fld.TIME_CTRL_HOLDOVER_EN = false → exec .holdWindowExpiry s = .next u.enterLost) ∧
    (u.heartbeatNext = true → exec .holdWindowExpiry s = .next u)) ∧
  (∀ (s : State), s.timeState = 3 →
    let u := s.elapseToTick (s.time.holdoverFrom + usTicks (s.rd Reg.TIME_HOLDOVER_MAX).toNat)
    (u.heartbeatNext = false → exec .holdoverExpiry s = .next u.enterLost) ∧ (u.heartbeatNext = true → exec .holdoverExpiry s = .next u)) ∧
  (∀ (s : State) (t : Nat), s.time.lostFrom = some t →
    let u := s.elapseToTick (t + (s.rd Reg.TIME_PARK_MAX).toNat)
    let v : State := { u with time := { u.time with lostFrom := none } }
    exec .parkMaxExpiry s = .next (v.optics.parkDue.foldl (fun s n => s.park n s.nowC true) v))

def Obligations.TimeMessagesComplete : Prop :=
  (∀ (s : State) (wide : Bool), s.pageBusy pgTime = false → exec (.timeNowRead wide) s =
    .next (({ s with time := { s.time with nowLatch := s.nowReg } } : State).emit (.readData Reg.TIME_NOW (s.nowReg % (if wide then 2 ^ 64 else 2 ^ 32))))) ∧
  (∀ (s : State), s.pageBusy pgTime = false → exec .timeTxqEntryRead s =
    .next (s.popStamp.2.emit (.readData (Reg.TIME_TXQ_ENTRY + 12) s.popStamp.1))) ∧
  (∀ (s : State) (k : Nat), s.pageBusy (pg 3 2) = false →
    let t := ({ s with time := { s.time with captLatch := Tbl.set s.time.captLatch 0 k (s.rdWide (Reg.TPI_CAPT k) 3) } } : State).setFld
      (Reg.TPI_STATUS k) Fld.TPI_STATUS_CAPTURED 0
    exec (.tpiCaptRead k) s = .next (t.emit (.readData (Reg.TPI_CAPT k) (s.rdWide (Reg.TPI_CAPT k) 3 % 2 ^ 32)))) ∧
  (∀ (s : State) (h : CmdHdr) (u d : Nat), s.takes h 0x0301 true = true → h.target < 512 → s.role h.target ≠ 0 →
    let a := s.start h 0x0301
    (a.carriesTraffic h.target = true ∨ (a.calOf h.target).isSome = true → exec (.asymCal h u d) s = .next (a.complete h 3 ⟨0x0100, 0, 0, []⟩)) ∧
    (a.carriesTraffic h.target = false → a.calOf h.target = none → a.fibreLengths h.target u d = none →
      exec (.asymCal h u d) s = .next (a.complete h 3 ⟨0x0102, 0, 0, []⟩)) ∧
    (∀ x y, a.carriesTraffic h.target = false → a.calOf h.target = none → a.fibreLengths h.target u d = some (x, y) →
      let w := a.time.now + 100000 * 2 ^ 32
      let v := a.sendTime (2 * h.target) (a.timePayload kCalStart 0 0 w 0 (w + 20000 * 2 ^ 32)) none
      exec (.asymCal h u d) s = .next ((v.setCal (v.time.cal ++ [⟨h.target, h, w, x, y, false⟩])).hairpin h.target true))) ∧
  (∀ (s : State) (p : Nat) (c : CalSt) (rest : List CalSt), s.calOf p = some (c, rest) → c.released = false →
    exec (.calWindowEnd p) s = .next (((s.elapseToDev (c.w + 20000 * 2 ^ 32)).setCal (rest ++ [{ c with released := true }])).hairpin p false)) ∧
  (∀ (s : State) (p : Nat) (c : CalSt) (rest : List CalSt), s.calOf p = some (c, rest) → c.released = true →
    exec (.calReportTimeout p) s = .next (((s.elapseToDev (c.w + 20000 * 2 ^ 32 + 1000000 * 2 ^ 32)).setCal rest).complete c.hdr 3 ⟨0x0101, 0, 0, []⟩)) ∧
  (∀ (s : State) (p m : Nat) (c : CalFar), Tbl.find s.time.calFar p = some c →
    let at_ := c.w / 65536 + min m (10000 * 65536)
    let u := s.elapseToDev (at_ * 65536)
    let v : State := { u with time := { u.time with calFar := Tbl.put u.time.calFar p { c with sentAt := some at_ } } }
    exec (.calBurst p m) s = .next (v.emit (.calBurst p ((v.stampReed (2 * p)).getD 0) at_))) ∧
  (∀ (s : State) (p st : Nat) (c : CalFar), Tbl.find s.time.calFar p = some c → c.sentAt.isSome = true →
    exec (.calBurstReturn p st) s = .next { s with time := { s.time with calFar := Tbl.put s.time.calFar p { c with backAt := some st } } }) ∧
  (∀ (s : State) (p a b : Nat) (c : CalFar), Tbl.find s.time.calFar p = some c → c.sentAt = some a → c.backAt = some b →
    let u := s.elapseToDev (c.w + 70000 * 2 ^ 32)
    let v := u.sendTime (2 * p) (u.timePayload kCalReport 0 0 ((b - a) / 65536 * 2 ^ 32) ((b - a) % 65536) 0) none
    let restart := fun (s : State) (lp : Nat) =>
      s.setLink lp { s.link lp with replay := (s.link lp).replay.map fun r => { r with sentAt := s.time.ticks } }
    exec (.calLoopEnd p) s = .next (restart (restart ({ v with time := { v.time with calFar := Tbl.del v.time.calFar p } } : State) (2 * p)) (2 * p + 1))) ∧
  (∀ (s : State) (rx : TimeRx), s.timeEn rx.port = true → rx.port = 0x7FF → rx.is1588 = true →
    exec (.timeMessageRx rx) s = .next ((s.emit (.timeToFw rx.port rx.stamp rx.payload)).ptpSeen rx)) ∧
  (∀ (s : State) (rx : TimeRx), s.timeEn rx.port = true → ¬(rx.port = 0x7FF ∧ rx.is1588 = true) →
    let u := s.emit (.timeToFw rx.port rx.stamp rx.payload)
    let k := beAt 0 1 rx.payload
    (s.timeMsgOk rx.payload = false → exec (.timeMessageRx rx) s = .next (s.addFld Reg.TIME_MSG_DROP Fld.TIME_MSG_DROP_COUNT 1)) ∧
    (s.timeMsgOk rx.payload = true → k = kSync →
      exec (.timeMessageRx rx) s = .next ((u.syncSeen rx.port (beAt 3 1 rx.payload) (bit 3 (beAt 1 1 rx.payload))).timeReply rx)) ∧
    (s.timeMsgOk rx.payload = true → k = kCalReport → exec (.calReportRx rx) s = .next (u.calReport (lp2p rx.port) rx.payload) ∧
      exec (.timeMessageRx rx) s = .next (u.calReport (lp2p rx.port) rx.payload)) ∧
    (s.timeMsgOk rx.payload = true → k = kCalStart → exec (.calStartRx rx) s = .next (u.calStart (lp2p rx.port) rx.payload) ∧
      exec (.timeMessageRx rx) s = .next (u.calStart (lp2p rx.port) rx.payload)) ∧
    (s.timeMsgOk rx.payload = true → k ≠ kSync → k ≠ kCalStart → k ≠ kCalReport → exec (.timeMessageRx rx) s = .next (u.timeReply rx))) ∧
  (∀ (s : State) (port : Nat) (id : Option Nat), s.domainOk = true → port ≠ 0x7FF →
    s.flag (Reg.PT_TS_CFG (lpTile port) (lpPort port)) Fld.PT_TS_CFG_TIME_EN = true → (s.link port).st.isUp = true →
    (s.fabricRole = 1 ∨ s.fabricRole = 2 → s.flag (Reg.PT_TS_CFG (lpTile port) (lpPort port)) Fld.PT_TS_CFG_SYNC_OUT = true →
      let x := (s.paced port 0 s.logSync).nextSeq port 0
      exec (.syncTx port id) s = .next (x.2.sendTime port (x.2.timePayload kSync
        (b2n (!x.2.flag (Reg.PT_TS_CFG (lpTile port) (lpPort port)) Fld.PT_TS_CFG_ONE_STEP) + stateFlags x.2.timeState) x.1 x.2.time.now 0 0) id)) ∧
    (s.flag (Reg.PT_TS_CFG (lpTile port) (lpPort port)) Fld.PT_TS_CFG_PDELAY = true →
      let x := (s.paced port 2 s.logPdelay).nextSeq port 2
      exec (.pdelayReqTx port id) s = .next (x.2.sendTime port (x.2.timePayload kPdelayReq (stateFlags x.2.timeState) x.1 x.2.time.now 0 0) id))) ∧
  (∀ (s : State) (id : Option Nat), s.domainOk = true →
    (s.fabricRole = 2 → let x := (s.paced 0x7FF 0 s.logSync).nextSeq 0x7FF 0
      exec (.syncTx 0x7FF id) s = .next (x.2.ptpSend 0 x.1 x.2.short 0 id)) ∧
    (s.fld Reg.TIME_ROLE Fld.TIME_ROLE_MGMT_DELAY = 1 → let x := (s.paced 0x7FF 2 s.logPdelay).nextSeq 0x7FF 2
      exec (.pdelayReqTx 0x7FF id) s = .next (x.2.ptpSend 2 x.1 x.2.short 0 id)) ∧
    (s.fabricRole = 2 → let x := s.nextSeq 0x7FF 11
      exec .announceTx s = .next (x.2.ptpSend 11 x.1 x.2.short 0 none))) ∧
  (∀ (s : State), s.usesSources = true →
    let port := s.srcField s.activeSrc % 2048
    let lost := fun (u : State) => ({ u with time := { u.time with srcLost := Tbl.set u.time.srcLost false port true } } : State).switchSource
    (Tbl.getD s.time.srcAt 0 port = 0 → exec .sourceSwitch s = .next (lost s)) ∧
    (∀ t, Tbl.getD s.time.srcAt 0 port = t + 1 →
      exec .sourceSwitch s = .next (lost (s.elapseToTick (t + usTicks (s.rd Reg.TIME_HOLD_WIN).toNat)))))

def Obligations.PulsePinsComplete : Prop :=
  (∀ (s : State) (k : Nat), s.pwr.held = false → s.pageBusy (pg 3 1) = false →
    exec (.tpoEnable k) s = .next (s.tpoCtrlWrite k (withBits 31 31 1 (withBits 27 27 0 (s.rd (Reg.TPO_CTRL k)).toNat)))) ∧
  (∀ (s : State) (k : Nat), s.flag (Reg.TPO_CTRL k) Fld.TPO_CTRL_ENABLE = true →
    (s.flag (Reg.TPO_CTRL k) Fld.TPO_CTRL_PERIODIC = true ∨ (s.tpoNext k = 0 ∧ s.time.now ≤ s.tpoTime k 0)) →
    let n := s.tpoNext k
    let t := s.tpoTime k n
    let u := s.elapseToDev t
    ((u.flag (Reg.TPO_CTRL k) Fld.TPO_CTRL_SQUELCH_ON_LOST && u.time.unlocked) = false →
      exec (.tpoEdge k) s = .next ((u.setTpo k ⟨n + 1, some (u.time.ticks + u.fld (Reg.TPO_WIDTH k) ⟨15, 0⟩, u.time.now - t)⟩).emit
        (.pulse k (!u.flag (Reg.TPO_CTRL k) Fld.TPO_CTRL_POLARITY) t))) ∧
    ((u.flag (Reg.TPO_CTRL k) Fld.TPO_CTRL_SQUELCH_ON_LOST && u.time.unlocked) = true →
      exec (.tpoEdge k) s = .next (u.setTpo k { u.tpo k with next := n + 1 }))) ∧
  (∀ (s : State) (k t lead : Nat), (s.tpo k).highUntil = some (t, lead) →
    let u := s.elapseToTick t
    let v := u.setTpo k { u.tpo k with highUntil := none }
    exec (.tpoPulseEnd k) s = .next (v.emit (.pulse k (v.flag (Reg.TPO_CTRL k) Fld.TPO_CTRL_POLARITY) (v.time.now - lead)))) ∧
  (∀ (s : State) (k edge : Nat) (level : Bool),
    let u := s.elapseToDev (edge * 65536 + 20 * 2 ^ 32)
    let act := level != u.flag (Reg.TPI_CTRL k) Fld.TPI_CTRL_POLARITY
    let v := u.setTpi k { u.tpi k with active := true, since := u.time.ticks - nsTicks 20 }
    let x := edge - v.fld (Reg.TPI_CTRL k) Fld.TPI_CTRL_CABLE_DELAY * 65536 / 1000
    let quiet := (match (u.tpi k).lastEvent with | some e => decide (u.time.ticks < e + usTicks 100) | none => false) || v.farFromSecond k (x * 65536)
    let w := v.setTpi k { v.tpi k with lastEvent := some v.time.ticks }
    let c := ((w.wrWide (Reg.TPI_CAPT k) (stampForm (x * 65536)) 3).setFld (Reg.TPI_STATUS k) Fld.TPI_STATUS_CAPTURED 1).irq (pg 3 2) (2 + k)
    let open_ := v.flag (Reg.TPI_CTRL k) Fld.TPI_CTRL_ENABLE && !v.flag (Reg.TPI_STATUS k) Fld.TPI_STATUS_STUCK
    ((u.tpi k).active = act → exec (.tpiEdge k level edge) s = .next u) ∧
    (act = false → (u.tpi k).active = true →
      exec (.tpiEdge k level edge) s = .next ((u.setTpi k { u.tpi k with active := false }).setFld (Reg.TPI_STATUS k) Fld.TPI_STATUS_STUCK 0)) ∧
    (act = true → (u.tpi k).active = false → open_ = true → quiet = true →
      exec (.tpiEdge k level edge) s = .next (v.addFld (Reg.TPI_STATUS k) Fld.TPI_STATUS_IGNORED 1)) ∧
    (act = true → (u.tpi k).active = false → open_ = true → quiet = false →
      exec (.tpiEdge k level edge) s = .next (if c.marksSecond k then c.alignSecond (x * 65536) else c))) ∧
  (∀ (s : State) (k : Nat), (s.tpi k).active = true → s.flag (Reg.TPI_CTRL k) Fld.TPI_CTRL_ENABLE = true →
    s.flag (Reg.TPI_STATUS k) Fld.TPI_STATUS_STUCK = false →
    exec (.tpiStuck k) s = .next ((((s.elapseToTick ((s.tpi k).since + usTicks 10000)).setFld (Reg.TPI_STATUS k) Fld.TPI_STATUS_STUCK 1).irq
      (pg 3 2) (6 + k)).logErr (pg 3 2) 0x0102 0 (locBlock 3)))

def Obligations.PowerCompletes : Prop :=
  (∀ (s : State), (s.pwr.good = false → exec .pwrGoodRise s = .next (s.setPwr fun p => { p with good := true, cold := true })) ∧
    (s.pwr.good = true → exec .pwrGoodRise s = .next s)) ∧
  (∀ (s : State),
    let u := (s.closeCarriers.setPwr fun p => { p with good := false, cold := true, therm := false, clockLost := false }).resetTo false 1
    (s.pwr.good = true → s.pwr.therm = false → exec .pwrGoodFall s = .next u) ∧
    (s.pwr.good = true → s.pwr.therm = true → exec .pwrGoodFall s = .next (u.emit (.pin 10 true))) ∧
    (s.pwr.good = false → exec .pwrGoodFall s = .next s)) ∧
  (∀ (s : State) (ns : Nat), 1000 ≤ ns →
    (s.pwr.good = true → exec (.resetNAssert ns) s = .next ((s.setPwr fun p => { p with low := true }).resetTo false 2)) ∧
    (s.pwr.good = false → exec (.resetNAssert ns) s = .next (s.setPwr fun p => { p with low := true }))) ∧
  (∀ (s : State) (ns : Nat), 100 ≤ ns → ns < 1000 →
    let t := s.draw.2
    (bit 0 s.draw.1 = false → exec (.resetNAssert ns) s = .next t) ∧
    (bit 0 s.draw.1 = true → s.pwr.good = true → exec (.resetNAssert ns) s = .next ((t.setPwr fun p => { p with low := true }).resetTo false 2)) ∧
    (bit 0 s.draw.1 = true → s.pwr.good = false → exec (.resetNAssert ns) s = .next (t.setPwr fun p => { p with low := true }))) ∧
  (∀ (s : State) (ns : Nat), ns < 100 → exec (.resetNAssert ns) s = .next s) ∧
  (∀ (s : State), (s.pwr.good = true → s.pwr.cold = true →
      exec .resetNRelease s = .next ((s.setPwr fun p => { p with low := false, cold := false }).resetTo true 1)) ∧
    (s.pwr.good = false ∨ s.pwr.cold = false → exec .resetNRelease s = .next (s.setPwr fun p => { p with low := false }))) ∧
  (∀ (s : State), s.pwr.held = false →
    let u := (s.closeCarriers.setPwr fun p => { p with clockLost := true }).alertUpdate
    exec .refclkLoss s = .next ((u.logErr pwrPg 0x0104 3 pwrLoc).resetTo false 0)) ∧
  (∀ (s : State), s.pwr.clockLost = true →
    let u := { s with time := TimeSt.init }.setPwr fun p => { p with clockLost := false }
    exec .clockRestored s = .next ((u.setFld Reg.CFG_RESET_CAUSE Fld.CFG_RESET_CAUSE_CAUSE 0).alertUpdate)) ∧
  (∀ (s : State) (x : SensorSample) (k : Nat), s.pwr.held = false →
    ((List.range 19).find? fun k => decide (16 * ((s.nextSample 0).tripAt k : Int) ≤ toSigned 16 (x.temps.getD k 0x8000))) = some k →
    exec (.sensorRead x) s = .next ((s.nextSample 0).trip k)) ∧
  (∀ (s : State) (x : SensorSample), s.pwr.held = false →
    ((List.range 19).find? fun k => decide (16 * ((s.nextSample 0).tripAt k : Int) ≤ toSigned 16 (x.temps.getD k 0x8000))) = none →
    let u := ((List.range 19).foldl (fun s k => s.sensor k (x.temps.getD k 0x8000 % 2 ^ 16)) (s.nextSample 0)).setFld Reg.PWR_PKG_POWER Fld.PWR_PKG_POWER_POWER x.pkg
    let hot := !u.pwr.throttle.isEmpty
    let v := u.setFlag Reg.PWR_STATUS Fld.PWR_STATUS_THROTTLING hot
    let w := if hot then v.inc Cnt.PWR_THROTTLE_INTERVALS else v
    let y := (w.alertWhile 0 (!w.pwr.warn.isEmpty)).alertWhile 1 hot
    let z := y.alertWhile 2 (y.fld Reg.PWR_STATUS Fld.PWR_STATUS_RAIL_FAULT != 0)
    exec (.sensorRead x) s = .next (z.alertWhile 4 (z.flag Reg.CFG_STATUS Fld.CFG_STATUS_RECOVERY))) ∧
  (∀ (s : State) (rail v i : Nat), s.pwr.held = false →
    let u := (s.setFld (Reg.PWR_RAIL rail) Fld.PWR_RAIL_VOLTAGE v).setFld (Reg.PWR_RAIL rail) Fld.PWR_RAIL_CURRENT i
    let f := u.fld Reg.PWR_STATUS Fld.PWR_STATUS_RAIL_FAULT
    let w := fun (b : Nat) => u.setFld Reg.PWR_STATUS Fld.PWR_STATUS_RAIL_FAULT (withBits rail rail b f)
    (railOut rail v = true → bit rail f = false → exec (.railMonitor rail v i) s =
      .next (((((w 1).logErr pwrPg 0x0101 1 pwrLoc).inc Cnt.PWR_RAIL_FAULTS).irq pwrPg 4).alertSource 2)) ∧
    (railOut rail v = true → bit rail f = true → exec (.railMonitor rail v i) s = .next (w 1)) ∧
    (railOut rail v = false → exec (.railMonitor rail v i) s = .next (w 0))) ∧
  (∀ (s : State), s.pwr.held = false → s.pageBusy pwrPg = false → exec .pwrAlertForce s = .next (s.alertSource 5)) ∧
  (∀ (s : State), s.pwr.held = false → s.pageBusy pwrPg = false → exec .pwrCntClear s =
    .next ((List.range 19).foldl (fun s k => s.setFld (Reg.PWR_TEMP k) Fld.PWR_TEMP_PEAK 0x8000) (s.clearCnts pwrPg))) ∧
  (∀ (s : State), s.pwr.held = false → s.flag Reg.CFG_STATUS Fld.CFG_STATUS_RECOVERY = false →
    let reached := fun (f : Fld) => s.flag Reg.CFG_STATUS f
    (s.cfg.keysHeld = false → exec (.cfgStartupStage .root) s = .next s.stageDone) ∧
    (∀ a b blob counters unitRec site values, reached Fld.CFG_STATUS_PUF_OK = false →
      exec (.cfgStartupStage (.identity a b blob counters unitRec site values)) s = .next (s.identityStage a b blob counters unitRec site values)) ∧
    (∀ i0 i1 current previous, reached Fld.CFG_STATUS_UNIT_REC_OK = true → reached Fld.CFG_STATUS_FW_RUNNING = false →
      exec (.cfgStartupStage (.firmware i0 i1 current previous)) s = .next (s.firmwareStage i0 i1 current previous)) ∧
    (∀ failed, reached Fld.CFG_STATUS_FW_RUNNING = true → reached Fld.CFG_STATUS_FEN_FP32 = false →
      exec (.cfgStartupStage (.formats failed)) s = .next (s.fenStage failed Fld.FADM_STATUS_FORMATS_OK Fld.CFG_STATUS_FEN_FP32)) ∧
    (∀ failed, reached Fld.CFG_STATUS_FEN_FP32 = true → reached Fld.CFG_STATUS_FEN_EXACT = false →
      exec (.cfgStartupStage (.exact failed)) s = .next (s.fenStage failed Fld.FADM_STATUS_EXACT_OK Fld.CFG_STATUS_FEN_EXACT)) ∧
    (∀ failed, reached Fld.CFG_STATUS_FW_RUNNING = true → reached Fld.CFG_STATUS_PEAT_ATTEND = false →
      let t := failed.foldl State.macFailed s
      let v := if t.chk.macOut.isEmpty then t else t.logErr peatPg 0x0103 1 peatLoc
      exec (.cfgStartupStage (.attend failed)) s = .next ((v.setFlag Reg.PEAT_STATUS Fld.PEAT_STATUS_ATTEND_OK v.chk.macOut.isEmpty).setFlag
        Reg.CFG_STATUS Fld.CFG_STATUS_PEAT_ATTEND true).stageDone) ∧
    (reached Fld.CFG_STATUS_FW_RUNNING = true → reached Fld.CFG_STATUS_OPTICS_FULL = false → s.provisionalLeft = false →
      exec (.cfgStartupStage .fullOptics) s = .next (s.setFlag Reg.CFG_STATUS Fld.CFG_STATUS_OPTICS_FULL true).stageDone))

def Obligations.LinkFramesComplete : Prop :=
  (∀ (s : State) (lp : Nat) (hd : List Byte) (fec : Bool), (s.link lp).st.isUp = true → s.ignoresLight (lp2p lp) = false →
    let u := if hdrAckValid hd then s.acked lp (hdrAck hd) else s
    let l := u.link lp
    let q := (l.rxSeq + 1) % 65536
    let v := (u.setLink lp { l with rxSeq := q, nakFor := none, nakDue := false, rxOpen := none }).control lp (ackBody q)
    (fec = true ∨ hdrGood hd = false → exec (.linkDataFrameRx lp hd fec) s = .next ((s.refuseOpen lp).badFrame lp fec)) ∧
    (fec = false → hdrGood hd = true → hdrType hd ≠ 1 → exec (.linkDataFrameRx lp hd fec) s = .next u) ∧
    (fec = false → hdrGood hd = true → hdrType hd = 1 → hdrSeq hd ≠ l.rxSeq →
      exec (.linkDataFrameRx lp hd fec) s = .next ((u.refuseOpen lp).nak lp)) ∧
    (fec = false → hdrGood hd = true → hdrType hd = 1 → hdrSeq hd = l.rxSeq →
      (l.rxOpen = none → exec (.linkDataFrameRx lp hd fec) s = .next v) ∧
      (∀ id, l.rxOpen = some id → exec (.linkDataFrameRx lp hd fec) s = .next (v.rxMod id fun r => { r with accepted := true })))) ∧
  (∀ (s : State) (lp : Nat) (hd body : List Byte), (s.link lp).st.isUp = true → s.ignoresLight (lp2p lp) = false → hdrGood hd = true → hdrType hd = 2 →
    let u := if hdrAckValid hd then s.acked lp (hdrAck hd) else s
    (ctlKind body = 1 → exec (.ackRx lp hd body false) s = .next (u.acked lp (beAt 4 2 body))) ∧
    (ctlKind body = 2 → exec (.nakRx lp hd body false) s =
      .next ((u.setLink lp { u.link lp with nakRx := min ((u.link lp).nakRx + 1) 0xFFFFFFFF }).resendFrom lp (beAt 4 2 body))) ∧
    (ctlKind body = 3 → exec (.creditRx lp hd body false) s = .next ((u.setLink lp { u.link lp with
      privFreed := (List.range 8).map fun c => beAt (4 + 2 * c) 2 body
      sharedFreed := (List.range 8).map fun c => beAt (20 + 2 * c) 2 body }).blockCheck lp)) ∧
    (ctlKind body = 5 → (u.link lp).st.isUp = true → exec (.goodbyeRx lp hd body false) s = .next (u.flap lp 4)) ∧
    (ctlKind body = 4 → (u.link lp).farId ≠ some (helloOf body).id → (u.link lp).st.isUp = true →
      exec (.helloRx lp hd body false) s = .next (u.flap lp 4)) ∧
    (ctlKind body = 4 → (u.link lp).farId = some (helloOf body).id →
      let g := (helloOf body).gen
      let w := u.setLink lp { u.link lp with farGen := g }
      ((u.link lp).st = .up → g ≠ (u.link lp).gen → exec (.helloRx lp hd body false) s = .next (w.setLinkState lp .sluice)) ∧
      ((u.link lp).st = .up → g = (u.link lp).gen → exec (.helloRx lp hd body false) s = .next w) ∧
      ((u.link lp).st = .sluice → g = (u.link lp).gen → g ≠ 0 → exec (.helloRx lp hd body false) s = .next (w.setLinkState lp .up)) ∧
      ((u.link lp).st = .sluice → g ≠ (u.link lp).gen ∨ g = 0 → exec (.helloRx lp hd body false) s = .next w))) ∧
  (∀ (s : State) (lp : Nat) (hd body : List Byte), (s.link lp).st = .hello → s.ignoresLight (lp2p lp) = false → hdrGood hd = true → hdrType hd = 2 →
    ctlKind body = 4 →
    let x := helloOf body
    let u := s.setLink lp { s.link lp with seen := true, farGen := x.gen, farId := some x.id }
    (x.role ≠ s.wantRole lp → exec (.helloRx lp hd body false) s = .next (s.logErr (pg 4 (lpTile lp)) 0x0106 0 (locLink lp))) ∧
    (x.role = s.wantRole lp → x.seen = true → exec (.helloRx lp hd body false) s = .next (u.enterUp lp x (helloState (s.link lp).gen x.gen))) ∧
    (x.role = s.wantRole lp → x.seen = false → exec (.helloRx lp hd body false) s = .next u)) ∧
  (∀ (s : State) (lp : Nat) (hd body : List Byte) (fec : Bool), s.takesFrames lp = true → fec = true ∨ hdrGood hd = false →
    let u := s.badFrame lp fec
    exec (.ackRx lp hd body fec) s = .next u ∧ exec (.nakRx lp hd body fec) s = .next u ∧ exec (.creditRx lp hd body fec) s = .next u ∧
    exec (.helloRx lp hd body fec) s = .next u ∧ exec (.goodbyeRx lp hd body fec) s = .next u)

def Obligations.LinkTimersComplete : Prop :=
  (∀ (s : State) (lp : Nat) (r : Replay) (l : List Replay), (s.link lp).replay = r :: l → (s.link lp).st.isUp = true →
    s.timersHeld (lp2p lp) = false →
    let u := s.elapseToTick (r.sentAt + nsTicks s.links.replayTimeout)
    exec (.replayTimeout lp) s = .next ((u.setLink lp { u.link lp with
      replayTimeouts := min ((u.link lp).replayTimeouts + 1) 0xFFFFFFFF }).resendFrom lp r.lseq)) ∧
  (∀ (s : State) (lp : Nat), ((s.link lp).st = .hello → exec (.helloTimer lp) s = .next ((s.elapse (usTicks 10)).sendHello lp)) ∧
    ((s.link lp).st = .sluice → exec (.helloTimer lp) s = .next ((s.elapse (usTicks 100)).sendHello lp))) ∧
  (∀ (s : State) (lp : Nat), s.opticsAllowed (lp2p lp) = true → (if s.isSplit (lp2p lp) then 1 else 2) ≤
    ((s.reedsOf lp).filter fun r => s.reedLocked (lp2p lp) r).length → exec (.reedsLocked lp) s = .next (s.reportLocked lp)) ∧
  (∀ (s : State) (lp t : Nat), s.opticsAllowed (lp2p lp) = true → Tbl.getD s.optics.firstLock 0 lp = t + 1 →
    1 ≤ ((s.reedsOf lp).filter fun r => s.reedLocked (lp2p lp) r).length →
    exec (.provisionalTimer lp) s = .next ((s.elapseToTick (t + usTicks 50000)).reportLocked lp)) ∧
  (∀ (s : State) (lp : Nat), Tbl.find s.time.calFar (lp2p lp) = none → (s.reedsOf lp).any (s.reedLocked (lp2p lp)) = false →
    let u := s.reportUnlocked lp
    ((u.link lp).st = .align ∨ (u.link lp).st = .hello → exec (.reedsUnlocked lp) s = .next (u.setLinkState lp .down)) ∧
    ((u.link lp).st.isUp = true → exec (.reedsUnlocked lp) s = .next (u.flap lp 3)) ∧
    ((u.link lp).st = .down ∨ (u.link lp).st = .holdDown → exec (.reedsUnlocked lp) s = .next u)) ∧
  (∀ (s : State) (lp : Nat), s.stillLocked lp = true →
    let u := s.setLink lp { s.link lp with aligned := true }
    ((s.link lp).st = .align → exec (.pcsAligned lp) s = .next ((u.setLinkState lp .hello).sendHello lp)) ∧
    ((s.link lp).st ≠ .align → exec (.pcsAligned lp) s = .next u)) ∧
  (∀ (s : State) (lp : Nat), (s.link lp).st = .align →
    exec (.alignTimeout lp) s = .next ((s.elapseToTick ((s.link lp).since + usTicks 5000)).trainingFails lp)) ∧
  (∀ (s : State) (lp : Nat), (s.link lp).st = .hello →
    exec (.helloTimeout lp) s = .next ((s.elapseToTick ((s.link lp).since + usTicks 2000)).trainingFails lp)) ∧
  (∀ (s : State) (lp : Nat), s.timersHeld (lp2p lp) = false →
    let v := s.elapse (usTicks 10)
    let u := v.setLink lp { v.link lp with aligned := false }
    ((u.link lp).st = .hello → exec (.pcsAlignLoss lp) s = .next (u.trainingFails lp)) ∧
    ((u.link lp).st.isUp = true → exec (.pcsAlignLoss lp) s = .next (u.flap lp 3)) ∧
    ((u.link lp).st ≠ .hello → (u.link lp).st.isUp = false → exec (.pcsAlignLoss lp) s = .next u)) ∧
  (∀ (s : State) (lp : Nat), (s.link lp).st = .holdDown →
    let u := (s.elapseToTick ((s.link lp).since + usTicks (1000 * (s.link lp).holdFor))).setLinkState lp .down
    exec (.holdDownEnd lp) s = .next (if u.stillLocked lp then u.setLinkState lp .align else u)) ∧
  (∀ (s : State) (lp t : Nat), (s.link lp).st = .down → (s.link lp).waitFrom = some t →
    let v := s.elapseToTick (t + usTicks (1000 * (s.link lp).h))
    let u := v.setLink lp { v.link lp with waitFrom := none }
    exec (.trainingWaitEnd lp) s = .next (if u.stillLocked lp then u.setLinkState lp .align else u)) ∧
  (∀ (s : State) (lp : Nat), (s.link lp).st.isUp = true →
    let u := s.elapseToTick ((s.link lp).quietFrom + usTicks 60000000)
    exec (.dampingDecay lp) s = .next (u.setLink lp { u.link lp with h := max ((s.link lp).h / 2) 1, quietFrom := u.time.ticks }))

def Obligations.LinkCommandsComplete : Prop :=
  (∀ (s : State) (h : CmdHdr) (gen action : Nat), s.takes h 0x0401 true = true →
    let a := s.start h 0x0401
    let u := a.setLink h.target { a.link h.target with gen := gen }
    (a.inUse h.target = false → exec (.linkProvision h gen action) s = .next (a.complete h 4 ⟨0x0100, 0, 0, []⟩)) ∧
    (a.inUse h.target = true →
      (action = 0 → exec (.linkProvision h gen action) s = u.okFor h 4) ∧
      (action = 1 → exec (.linkProvision h gen action) s = (u.takeDown h.target).okFor h 4) ∧
      (action = 2 → exec (.linkProvision h gen action) s = (u.clearDamping h.target).okFor h 4) ∧
      (2 < action → exec (.linkProvision h gen action) s = .next (a.complete h 4 ⟨0x0101, 0, 0, []⟩)))) ∧
  (∀ (s : State) (h : CmdHdr) (feid : Nat), s.takes h 0x0402 true = true →
    let a := s.start h 0x0402
    let key := feidKey feid
    let list := fun (l : List Nat) => ({ a with fwt := { a.fwt with sluice := l } } : State).commit id id
    exec (.sluiceEp h feid 0) s = (list (a.fwt.sluice.filter (· != key))).okFor h 4 ∧
    (a.fwt.sluice.contains key = true → exec (.sluiceEp h feid 1) s = (a.commit id id).okFor h 4) ∧
    (a.fwt.sluice.contains key = false → a.fwt.sluice.length < 1024 →
      exec (.sluiceEp h feid 1) s = ((list (a.fwt.sluice ++ [key])).charge (objEndpoint key) 17 1).okFor h 4) ∧
    (a.fwt.sluice.contains key = false → 1024 ≤ a.fwt.sluice.length → exec (.sluiceEp h feid 1) s = .next (a.complete h 4 ⟨0x0102, 0, 0, []⟩)) ∧
    (∀ action, 1 < action → exec (.sluiceEp h feid action) s = .next (a.complete h 4 ⟨0x0101, 0, 0, []⟩))) ∧
  (∀ (s : State) (h : CmdHdr) (clear : Nat), s.takes h 0x0403 true = true →
    let a := s.start h 0x0403
    let l := a.link h.target
    let c : Cmpl := ⟨0, l.st.code + l.gen % 256 * 2 ^ 8 + l.farGen % 256 * 2 ^ 16 + l.h % 1024 * 2 ^ 24, 0,
      [l.retryTx, l.nakTx, l.nakRx, l.replayTimeouts, l.fecUncorr, l.replayStall, l.flaps].flatMap (leBytes 4)⟩
    (a.inUse h.target = false → exec (.linkQuery h clear) s = .next (a.complete h 4 ⟨0x0100, 0, 0, []⟩)) ∧
    (a.inUse h.target = true →
      (clear ≠ 1 → exec (.linkQuery h clear) s = .next (a.complete h 4 c)) ∧
      (clear = 1 → exec (.linkQuery h clear) s = .next ((a.setLink h.target { l with
        retryTx := 0, nakTx := 0, nakRx := 0, replayTimeouts := 0, fecUncorr := 0, replayStall := 0, flaps := 0 }).complete h 4 c)))) ∧
  (∀ (s : State) (h : CmdHdr) (grace thresh retry timeout : Nat), s.takes h 0x0404 true = true →
    let a := s.start h 0x0404
    (1000 ≤ timeout → timeout ≤ 16000 → 2 ≤ retry → retry ≤ 255 → 1 ≤ thresh → thresh ≤ 65535 →
      exec (.linkParams h grace thresh retry timeout) s = ({ a with links := { a.links with
          sluiceGrace := grace, staleThresh := thresh, retryLimit := retry, replayTimeout := timeout } } : State).okFor h 4) ∧
    (timeout < 1000 ∨ 16000 < timeout ∨ retry < 2 ∨ 255 < retry ∨ thresh < 1 ∨ 65535 < thresh →
      exec (.linkParams h grace thresh retry timeout) s = .next (a.complete h 4 ⟨0x0101, 0, 0, []⟩)))

def Obligations.SwitchCoreCompletes : Prop :=
  (∀ (s : State) (lp : Nat) (hd : List Byte) (p : Pkt) (shared : Bool), (s.link lp).st.isUp = true → s.ignoresLight (lp2p lp) = false →
    (s.link lp).rxOpen = none → hdrGood hd = true → hdrType hd = 1 → hdrSeq hd = (s.link lp).rxSeq →
    let id := s.sw.nextId
    let t := lpTile lp
    let j := lpPort lp
    let u := s.openRx lp p shared
    (∀ r, u.rxReason lp p = some r → exec (.packetRx lp hd p shared) s = .next (u.discardRx id lp r p)) ∧
    (u.rxReason lp p = none →
      let x := (u.tagSee lp p).1
      let g := (u.tagSee lp p).2.2.police lp x.cls (colour x) (pktLen x)
      let y := withHcrc (withColour x g.1)
      let v := g.2.inc (if g.1 = 0 then Cnt.PT_GREEN t j else if g.1 = 1 then Cnt.PT_YELLOW t j else Cnt.PT_RED t j)
      let f : Flight := ⟨id, y, some lp, .staged, [], false, false, none, 0, v.time.ticks, (u.tagSee lp p).2.1, none, lp / 128, 0, false⟩
      let redDrop := decide (g.1 = 2) && v.flag (polCfg lp y.cls) Fld.PT_POL_CIR_RED_DROP
      (redDrop = true → exec (.packetRx lp hd p shared) s = .next ((v.inc (Cnt.PT_POL_DROP t j)).discard f 0)) ∧
      (redDrop = false → exec (.packetRx lp hd p shared) s = .next (v.setFlights (v.sw.flights ++ [f]))))) ∧
  (∀ (s : State) (id len : Nat) (fecBad stomped late : Bool) (r : RxFrame), (s.sw.rx.find? fun r => r.id == id && !r.tailed) = some r →
    let gone := fun (s : State) => (s.drizzleEnd id none stomped true len).rxMod id fun r => { r with left := true, tailed := true, counted := true }
    let u := if stomped then s.inc (Cnt.PT_STOMP_RX (lpTile r.lport) (lpPort r.lport)) else s
    (fecBad = true → exec (.packetTail id len fecBad stomped late) s = .next (gone (s.spoilAll id 0))) ∧
    (fecBad = false → r.accepted = true →
      (∀ e, u.tailReason r len stomped late = some e → exec (.packetTail id len fecBad stomped late) s =
        .next (gone ((if r.counted then u else u.countReason r.lport e r.pkt).spoilAll id e))) ∧
      (u.tailReason r len stomped late = none → exec (.packetTail id len fecBad stomped late) s = .next (u.tailGood id len)))) ∧
  (∀ (s t : State) (n : Nat) (x : Flight), s.nextStaged n = some (x, t) →
    let lp := x.from_.getD 0
    let v := t.setFlights (t.sw.flights.filter (· != x))
    let f := v.stageAt x 1
    (∀ w, let u := ((((v.inc (Cnt.FWT_TABLE_UE n)).logErr (pg 6 n) 0x0101 2 (locTile (4 * n) 31)).irq (pg 6 n) 4)).discard f rUnroutable
      exec (.pipelineLookup n (some w)) s = .next { u with fwt := { u.fwt with cmpUrgent := Tbl.set u.fwt.cmpUrgent 0 n (w + 1) } }) ∧
    (pflag f.pkt fDstSpine = true ∨ f.pkt.typ = 0x30 →
      (∀ r cs, v.fnReason n f.pkt = some (r, cs) → exec (.pipelineLookup n none) s = .next ((cs.foldl State.inc v).discard f r)) ∧
      (v.fnReason n f.pkt = none → exec (.pipelineLookup n none) s = .next (v.forward f [.fn (tileDie (lpTile lp))]))) ∧
    (pflag f.pkt fDstSpine = false → f.pkt.typ ≠ 0x30 →
      (∀ r cs u, v.lookupDecide n (v.role (lp2p lp) == 1) f.pkt = (.discard r cs, u) →
        exec (.pipelineLookup n none) s = .next ((cs.foldl State.inc u).discard f r)) ∧
      (∀ r cnt u, v.lookupDecide n (v.role (lp2p lp) == 1) f.pkt = (.forward r cnt, u) →
        let w := u.moveDetect n lp f.pkt
        let mode := w.fld (Reg.PT_PORT_CFG (lpTile lp) (lpPort lp)) Fld.PT_PORT_CFG_SPRAY_MODE
        let g := (w.inc cnt).resolve n (if mode = 3 then 0 else mode) f.pkt r
        (g.1 = [] → r ≠ .flood → exec (.pipelineLookup n none) s = .next ((g.2.inc (Cnt.PT_NO_PATH (lpTile lp) (lpPort lp))).discard f 0)) ∧
        (g.1 = [] → r = .flood → exec (.pipelineLookup n none) s = .next (g.2.discard f 0)) ∧
        (g.1 ≠ [] → exec (.pipelineLookup n none) s = .next (g.2.forward f (g.1.map fun lp => .port lp f.pkt.dst f.pkt.seq)))))) ∧
  (∀ (s : State) (quad pair stop : Nat) (ccw : Bool) (l : Leg) (enters : Bool) (k : Nat),
    let r := 16 * quad + 2 * pair + b2n ccw
    s.ringPick r stop = some (l, enters, k) →
    let u := s.setRingSt r { s.ringSt r with rot := Tbl.set (s.ringSt r).rot 0 stop k }
    let lose := fun (s : State) => match l.out with
      | some p => s.spoilPort l.id p
      | none => (s.spoilAll l.id 0).leftStaging l.id
    exec (.ringFlitEntry quad pair ccw stop .none) s = .next (u.moveFlit r stop l enters) ∧
    exec (.ringFlitEntry quad pair ccw stop .corrected) s = .next ((u.inc (Cnt.RING_PAIR_CE quad pair)).moveFlit r stop l enters) ∧
    exec (.ringFlitEntry quad pair ccw stop .uncorrectable) s =
      .next (lose ((((u.inc (Cnt.RING_PAIR_UE quad pair)).logErr (pg 7 quad) 0x0100 2 (locQuad quad)).irq (pg 7 quad) 2))) ∧
    (enters = true → l.out = none → exec (.ringFlitEntry quad pair ccw stop .staging) s =
      .next (lose (u.logErr (pg 4 (8 * quad + stop - 1)) 0x0100 2 (locTile (8 * quad + stop - 1) 31)))) ∧
    (enters = false ∨ l.out ≠ none → exec (.ringFlitEntry quad pair ccw stop .staging) s = .next (u.moveFlit r stop l enters))) ∧
  (∀ (s : State) (o : Nat) (f : Flight),
    (s.grantPick o = some (f, none) → exec (.switchGrant o) s = .next (s.passFlit f o)) ∧
    (∀ k, s.grantPick o = some (f, some k) →
      let u : State := { s with sw := { s.sw with swRot := Tbl.set s.sw.swRot 0 o ((k + 1) % 80) } }
      exec (.switchGrant o) s = .next (u.passFlit f o))) ∧
  (∀ (s : State) (id o : Nat) (f : Flight), s.carried id o = some f → inputDie f.inp ≠ o / 4 →
    let q := inputQuad f.inp
    (f.resends < 16 → exec (.bridgeFlitRetry id o) s = .next ((s.setFlights (s.sw.flights.map fun (g : Flight) =>
      if g.isAt id (.toOutput o) then { g with resends := g.resends + 1 } else g)).inc (Cnt.RING_XB_RETRY q))) ∧
    (16 ≤ f.resends → exec (.bridgeFlitRetry id o) s =
      .next ((((s.logErr (pg 7 q) 0x0101 2 (locQuad q)).irq (pg 7 q) 3)).spoilOutput id o))) ∧
  (∀ (s : State) (id lp : Nat) (x f : Flight) (l : Leg), s.carried id (lp / 128) = some x → (x.destOn lp).isSome = true → s.arrived lp x.pkt.cls = some (f, l) →
    let t := lpTile lp
    let j := lpPort lp
    let d := (f.destOn lp).getD (0, 0)
    let p := if d.1 = f.pkt.dst ∧ d.2 = f.pkt.seq then f.pkt else withHcrc { f.pkt with dst := d.1, seq := d.2 }
    let c := p.cls
    let u := s.dropDest f lp
    let g : Flight := { f with pkt := p, dests := [], whole := l.got == l.flits }
    let e := u.earlyDrop lp p (u.qCells lp c) (u.qLimit lp c)
    let fenced := f.group.isSome && u.fencedEp d.1
    (fenced = true → exec (.outputEnqueue id lp) s = .next ((u.inc (Cnt.FWT_FENCE_SKIP (lp / 64))).fenSkip p (f.group.getD 0) d.1)) ∧
    (fenced = false → (u.link lp).st.isUp = false → exec (.outputEnqueue id lp) s = .next ((u.inc (Cnt.QM_FLUSH t j c)).loseCopy g)) ∧
    (fenced = false → (u.link lp).st.isUp = true →
      (u.qLimit lp c < u.qCells lp c + pktCells p → exec (.outputEnqueue id lp) s = .next ((u.inc (Cnt.QM_DROP_LIMIT t j c)).loseCopy g)) ∧
      (u.qCells lp c + pktCells p ≤ u.qLimit lp c →
        (e.1 = .drop → exec (.outputEnqueue id lp) s = .next ((e.2.inc (Cnt.QM_DROP_EARLY t j c)).loseCopy g)) ∧
        (e.1 ≠ .drop →
          let v := if e.1 = .mark then e.2.inc (Cnt.QM_MARKED t j c) else e.2
          exec (.outputEnqueue id lp) s = .next (((v.setFlights (v.sw.flights ++ [{ v.stageAt g 4 with
            stage := .queued lp, marked := e.1 == .mark, at_ := v.time.ticks }])).occAdd lp c (pktCells p)).inc (Cnt.QM_ENQ t j c)))))) ∧
  (∀ (s : State) (lp : Nat) (f : Flight), s.sending lp = some f →
    exec (.transmitStart lp false) s = .next s ∧
    exec (.transmitStart lp true) s = .next (((s.cellError (lpTile lp)).setFlights (s.sw.flights.filter (· != f))).endCut lp f true)) ∧
  (∀ (s : State) (lp : Nat) (ue : Bool), s.sending lp = none →
    ((s.link lp).resendFrom.isSome = true → exec (.transmitStart lp ue) s = .next (s.resendDue lp)) ∧
    ((s.link lp).resendFrom.isSome = false →
      let g := ((s.guardHolds lp).replayStalls lp).pickClass lp
      (g.1 = none → exec (.transmitStart lp ue) s = .next g.2) ∧
      (∀ c f, g.1 = some c → g.2.headOf lp c = some f →
        exec (.transmitStart lp false) s = .next (g.2.sendHead lp f) ∧
        exec (.transmitStart lp true) s = .next ((((g.2.cellError (lpTile lp)).setFlights (g.2.sw.flights.filter fun h =>
          !h.isAt f.id (.queued lp))).occSub lp c (pktCells f.pkt)).loseCopy f)))) ∧
  (∀ (s : State), let u := s.elapse (8 - s.time.ticks % 8)
    let occs := u.regs.filter fun r => r.1 / 0x100000 == 5 && decide (0x300 ≤ r.1 % 4096) && decide (r.1 % 4096 < 0x400)
    exec .occPublish s = .next { u with sw := { u.sw with published := occs.foldl (fun acc r =>
      Tbl.set acc 0 (64 * (r.1 / 4096 % 256) + (r.1 % 4096 - 0x300) / 4) (r.2.toNat % 16384 / 64 * 64)) [] } }) ∧
  (∀ (s : State) (q : Nat) (d : DrzFrame), s.nextDrizzle q = some d →
    let u : State := { s with sw := { s.sw with drz := (takeFirst (· == d) s.sw.drz).elim s.sw.drz (·.2) } }
    let a := Reg.RING_DRZ_CAP q
    let depth := 1024 * min 1024 (max 1 (u.fld a Fld.RING_DRZ_CAP_BURST))
    let tok := match Tbl.find u.sw.drzTok q with
      | some x => fillBucket x.tc x.at_ u.time.ticks (100 * min 256 (u.fld a Fld.RING_DRZ_CAP_RATE)) depth
      | none => depth * 6250
    let w := fun (n : Nat) => ({ u with sw := { u.sw with drzTok := Tbl.put u.sw.drzTok q ⟨n, 0, u.time.ticks⟩ } } : State)
    (288 * 6250 ≤ tok → exec (.drizzleRecord q) s =
      .next (((w (tok - 288 * 6250)).inc (Cnt.RING_DRZ_SENT q)).emit (.drizzle (drzBytes d)))) ∧
    (tok < 288 * 6250 → exec (.drizzleRecord q) s = .next (((w tok).inc (Cnt.RING_DRZ_DROP q)).irq (pg 7 q) 4)))

def Obligations.SwitchRegistersComplete : Prop :=
  (∀ (s : State) (t j c v : Nat), s.pwr.held = false → s.pageBusy (pg 5 t) = false →
    let a := Reg.QM_LIMIT t j c
    let old := s.fld a Fld.QM_LIMIT_LIMIT
    let new := v % 16384
    let sum := (List.range 64).foldl (fun n k => n + s.fld (Reg.QM_LIMIT t (k / 8) (k % 8)) Fld.QM_LIMIT_LIMIT) 0
    (s.pageLocked (pg 5 t) = false ∨ old = new →
      (sum - old + new ≤ 12288 → exec (.qmLimitWrite t j c v) s =
        .next (((s.satJudge t [c]).setFld a Fld.QM_LIMIT_LIMIT new).satJudge t [c])) ∧
      (12288 < sum - old + new →
        exec (.qmLimitWrite t j c v) s = .next ((s.irq (pg 5 t) 2).logErr (pg 5 t) 0x0100 0 (locTile t 31)))) ∧
    (s.pageLocked (pg 5 t) = true → old ≠ new → exec (.qmLimitWrite t j c v) s = .next (s.logErr (pg 5 t) 0x0002 0 (locPage (pg 5 t))))) ∧
  (∀ (s : State) (t j c w v : Nat), s.pwr.held = false → s.pageBusy (pg 4 t) = false →
    exec (.policerWrite t j c w v) s = .next (s.polWrite (16 * t + 2 * j) c w v)) ∧
  (∀ (s : State) (t v : Nat), s.pwr.held = false → s.pageBusy (pg 4 t) = false →
    let u := s.setFld (Reg.PT_CTRL t) Fld.PT_CTRL_DRZ_SEED (v % 65536)
    let w : State := { u with sw := { u.sw with drzGen := Tbl.set u.sw.drzGen 0 t 0 } }
    (bit 16 v = false → exec (.drzSeedLoad t v) s = .next w) ∧ (bit 16 v = true → exec (.drzSeedLoad t v) s = .next (w.clearCnts (pg 4 t))) ∧
    exec (.ptCntClear t v) s = .next (w.clearCnts (pg 4 t))) ∧
  (∀ (s : State) (t v seed : Nat), s.pwr.held = false → s.pageBusy (pg 5 t) = false → seed < 65536 →
    let load := fun (x : Nat) => (let u := s.setFld (Reg.QM_CTRL t) Fld.QM_CTRL_LFSR_SEED x
      ({ u with sw := { u.sw with lfsr := Tbl.set u.sw.lfsr 0xACE1 t (if x = 0 then 0xACE1 else x) } } : State))
    let clear := fun (u : State) => (u.clearCnts (pg 5 t)).setFld (Reg.QM_POOL_STATUS t) Fld.QM_POOL_STATUS_HIGH_WATER
      (u.fld (Reg.QM_POOL_STATUS t) Fld.QM_POOL_STATUS_USED)
    (bit 0 v = false → exec (.lfsrSeedLoad t v) s = .next (load (bits 31 16 v))) ∧
    (bit 0 v = true → exec (.lfsrSeedLoad t v) s = .next (clear (load (bits 31 16 v)))) ∧
    exec (.qmCntClear t seed) s = .next (clear (load seed))) ∧
  (∀ (s : State) (q : Nat), s.pwr.held = false → s.pageBusy (pg 7 q) = false → exec (.ringCntClear q) s = .next (s.clearCnts (pg 7 q)))

def Obligations.TideCompletes : Prop :=
  (∀ (s : State) (p : Nat), exec (.tideSlotBoundary p none none) s = .next (s.boundary p) ∧
    (∀ e, exec (.tideSlotBoundary p none (some e)) s = .next ((s.elementFault (p / 32) (e % 1024)).boundary p)) ∧
    (∀ e, exec (.tideSlotBoundary p (some true) e) s = .next ((((s.setFld (tideSt p) Fld.TIDE_PORT_STATUS_LIST_UE 1).listEnds p s.nowC true).irq
      (pg 8 (p / 8)) 3).logErr (pg 8 (p / 8)) 0x0100 2 (locTile (p / 8) 31))) ∧
    (∀ e, exec (.tideSlotBoundary p (some false) e) s = .next
      (((s.setPortTide p ((s.portTide p).setBank (1 - s.activeIdx p) TideBank.init)).setFld (tideSt p) Fld.TIDE_PORT_STATUS_SHADOW_VALID 0).setFld
        (tideSt p) Fld.TIDE_PORT_STATUS_TAKEOVER_PENDING 0))) ∧
  (∀ (s : State) (p e : Nat) (l : Launch), firstLaunch (s.portTide p).launches = some (e, l) →
    let u := s.elapseToDev (cToDev l.t)
    let full := (if u.isSplit p then [2 * p, 2 * p + 1] else [2 * p]).filter fun lp => (u.headOf lp 6).isSome
    let r := full.foldl (fun (x : Bool × State) lp => ((x.1 || (x.2.launchHalf lp).1), (x.2.launchHalf lp).2)) (false, u)
    (u.launchActs p = false → exec (.launch p) s = .next ((u.inc (Cnt.TIDE_LAUNCH_SKIPPED (p / 8) (p % 8))).launchDone p e l)) ∧
    (u.launchActs p = true →
      ((full.any fun lp => (u.sending lp).isSome) = true → exec (.launch p) s = .next u) ∧
      ((full.any fun lp => (u.sending lp).isSome) = false →
        (full = [] → exec (.launch p) s = .next ((u.inc (Cnt.TIDE_LAUNCH_EMPTY (p / 8) (p % 8))).launchDone p e l)) ∧
        (full ≠ [] → exec (.launch p) s =
          .next ((if r.1 then r.2.inc (Cnt.TIDE_LAUNCH_SENT (p / 8) (p % 8)) else r.2).launchDone p e l))))) ∧
  (∀ (s : State) (h : CmdHdr) (off : Nat), s.takes h 0x0801 true = true →
    let a := s.start h 0x0801
    (h.target = 0 → ∀ ls t c, a.tidePackage off = .ok (ls, t, c) → exec (.tideLoad h off) s = (ls.foldl (fun s l => s.commitList t c l) a).okFor h 8) ∧
    (h.target = 0 → ∀ st, a.tidePackage off = .error st → exec (.tideLoad h off) s = .next (a.complete h 8 ⟨st, 0, 0, []⟩)) ∧
    (h.target ≠ 0 → exec (.tideLoad h off) s = .next (a.complete h 8 ⟨0x0104, 0, 0, []⟩))) ∧
  (∀ (s : State) (h : CmdHdr), s.takes h 0x0802 true = true →
    let a := s.start h 0x0802
    (h.target ≤ 511 → exec (.tideCancel h) s = (a.setFld (tideSt h.target) Fld.TIDE_PORT_STATUS_TAKEOVER_PENDING 0).okFor h 8) ∧
    (511 < h.target → exec (.tideCancel h) s = .next (a.complete h 8 ⟨0x0104, 0, 0, []⟩))) ∧
  (∀ (s : State) (h : CmdHdr) (time : Nat), s.takes h 0x0803 true = true →
    let a := s.start h 0x0803
    (h.target ≤ 511 → (a.portTide h.target).hasActive = true → exec (.tideStop h time) s = (a.setPortTide h.target { a.portTide h.target with
      stop := some (max (fromShort time / 2 ^ 32) (ceilDiv a.time.now (2 ^ 32))) }).okFor h 8) ∧
    (h.target ≤ 511 → (a.portTide h.target).hasActive = false → exec (.tideStop h time) s = a.okFor h 8) ∧
    (511 < h.target → exec (.tideStop h time) s = .next (a.complete h 8 ⟨0x0104, 0, 0, []⟩))) ∧
  (∀ (s : State) (h : CmdHdr) (e act time period : Nat), s.takes h 0x0804 true = true →
    let a := s.start h 0x0804
    (511 < h.target → exec (.launchSet h e act time period) s = .next (a.complete h 8 ⟨0x0104, 0, 0, []⟩)) ∧
    (h.target ≤ 511 → 15 < e ∨ 1 < act → exec (.launchSet h e act time period) s = .next (a.draw.2.complete h 8 ⟨a.draw.1 % 65536, 0, 0, []⟩)) ∧
    (h.target ≤ 511 → e ≤ 15 → exec (.launchSet h e 0 time period) s = (a.setPortTide h.target { a.portTide h.target with
      launches := Tbl.del (a.portTide h.target).launches e }).okFor h 8) ∧
    (h.target ≤ 511 → e ≤ 15 → a.time.now + 2000 * 2 ^ 32 ≤ fromShort time → exec (.launchSet h e 1 time period) s =
      (a.setPortTide h.target { a.portTide h.target with launches := Tbl.put (a.portTide h.target).launches e ⟨shortToC time, period⟩ }).okFor h 8) ∧
    (h.target ≤ 511 → e ≤ 15 → fromShort time < a.time.now + 2000 * 2 ^ 32 → exec (.launchSet h e 1 time period) s =
      .next (a.complete h 8 ⟨0x0105, 0, 0, []⟩))) ∧
  (∀ (s : State) (h : CmdHdr) (bank i : Nat), s.takes h 0x0805 true = true →
    let a := s.start h 0x0805
    let entry := (((a.portTide h.target).bank bank).entries)[i]?
    (511 < h.target → exec (.tideRead h bank i) s = .next (a.complete h 8 ⟨0x0104, 0, 0, []⟩)) ∧
    (h.target ≤ 511 → bank < 2 → ∀ e, entry = some e → exec (.tideRead h bank i) s = a.okFor h 8 e) ∧
    (h.target ≤ 511 → 2 ≤ bank ∨ entry = none → exec (.tideRead h bank i) s = a.draw.2.okFor h 8 (a.draw.1 % 2 ^ 64))) ∧
  (∀ (s : State) (p : Nat), s.pwr.held = false → s.pageBusy (pg 8 (p / 8)) = false →
    let reg := Reg.TIDE_PORT_CFG (p / 8) (p % 8)
    let wr := fun (b : Nat) => s.wr reg (BitVec.ofNat 32 (withBits 0 0 b (s.rd reg).toNat % 4))
    (s.flag reg Fld.TIDE_PORT_CFG_LIST_EN = true →
      (p % 32 = 0 → exec (.tideListDisable p) s = .next (((wr 0).setTideState p 0).park (p / 32) ((wr 0).setTideState p 0).nowC true)) ∧
      (p % 32 ≠ 0 → exec (.tideListDisable p) s = .next ((wr 0).setTideState p 0)) ∧ exec (.tideListEnable p) s = .next (wr 1)) ∧
    (s.flag reg Fld.TIDE_PORT_CFG_LIST_EN = false →
      exec (.tideListDisable p) s = .next (wr 0) ∧
      ((s.portTide p).hasActive = true → exec (.tideListEnable p) s =
        .next (((wr 1).setTideState p 1).setCycle p (((wr 1).activeBank p).cycleFrom (max (wr 1).nowC (wr 1).resumeC)))) ∧
      ((s.portTide p).hasActive = false → exec (.tideListEnable p) s = .next (wr 1)))) ∧
  (∀ (s : State) (p c v : Nat), s.pwr.held = false → s.pageBusy (pg 8 (p / 8)) = false →
    let u := s.wrWide (shpReg (2 * p) c) (v &&& (0xC00FFFFF * 2 ^ 32 + 0xFFFFFF)) 2
    let t : Int := if bit 62 v then (u.shpBurst (2 * p) c : Int) * 6250 else 0
    exec (.shaperWrite p c v) s = .next ((u.setShp (2 * p) c t).setShp (2 * p + 1) c t)) ∧
  (∀ (s : State) (t : Nat), s.pwr.held = false → s.pageBusy (pg 8 t) = false → exec (.tideCntClear t) s = .next (s.clearCnts (pg 8 t)))

def Obligations.CausewayCompletes : Prop :=
  (∀ (s : State) (n t : Nat), s.cwTakeover n = some t → s.tideState (32 * n) ≠ 2 → s.sameTakeover n = false →
    exec (.cwTakeover n) s = .next ((s.elapseToDev (cToDev t)).cwSwap n)) ∧
  (∀ (s : State) (h : CmdHdr) (off : Nat), s.takes h 0x0A01 true = true →
    let a := s.start h 0x0A01
    (h.target = 0 → ∀ bs g t c, a.cwPackage off = .ok (bs, g, t, c) → exec (.cwLoad h off) s = (bs.foldl (fun s b => s.commitMaps g t c b) a).okFor h 0x0A) ∧
    (h.target = 0 → ∀ st, a.cwPackage off = .error st → exec (.cwLoad h off) s = .next (a.complete h 0x0A ⟨st, 0, 0, []⟩)) ∧
    (h.target ≠ 0 → exec (.cwLoad h off) s = .next (a.complete h 0x0A ⟨0x0107, 0, 0, []⟩))) ∧
  (∀ (s : State) (h : CmdHdr) (src dst act : Nat), s.takes h 0x0A02 true = true →
    let a := s.start h 0x0A02
    let n := h.target
    let build := fun (set : Bool) => a.setEng n { a.eng n with builds := (a.eng n).builds ++ [⟨src, dst, set, some h, a.time.ticks⟩] }
    (15 < n → exec (.cwStanding h src dst act) s = .next (a.complete h 0x0A ⟨0x0107, 0, 0, []⟩)) ∧
    (n ≤ 15 → 1 < act → exec (.cwStanding h src dst act) s = .next (a.draw.2.complete h 0x0A ⟨a.draw.1 % 65536, 0, 0, []⟩)) ∧
    (n ≤ 15 → a.standingRefused n src dst = none → exec (.cwStanding h src dst 1) s = .next (build true)) ∧
    (n ≤ 15 → ∀ st, a.standingRefused n src dst = some st → exec (.cwStanding h src dst 1) s = .next (a.complete h 0x0A ⟨st, 0, 0, []⟩)) ∧
    (n ≤ 15 → (mapPairs (a.eng n).standing).contains (src, dst) = false → exec (.cwStanding h src dst 0) s = a.okFor h 0x0A) ∧
    (n ≤ 15 → (mapPairs (a.eng n).standing).contains (src, dst) = true → exec (.cwStanding h src dst 0) s = .next (build false))) ∧
  (∀ (s : State) (n : Nat) (b : CwBuild) (rest : List CwBuild), (s.eng n).builds = b :: rest →
    let u := s.elapseToTick (b.startedAt + usTicks 40)
    let v := u.setEng n { u.eng n with
      standing := withBits (8 * b.src + 7) (8 * b.src) (if b.set then 32 + b.dst else 0) (u.eng n).standing, builds := rest }
    let w := ((if b.set then v.beginDark n [b.src, b.dst] else v.endDark n v.nowC [b.src, b.dst]).inc (Cnt.CW_BUILDS n)).irq (pg 10 n) 4
    (∀ h, b.hdr = some h → exec (.standingBuildDone n) s = w.okFor h 0x0A) ∧ (b.hdr = none → exec (.standingBuildDone n) s = .next w)) ∧
  (∀ (s : State) (h : CmdHdr), s.takes h 0x0A03 true = true →
    let a := s.start h 0x0A03
    (h.target ≤ 15 → exec (.cwCancel h) s = (a.setFld (Reg.CW_STATUS h.target) Fld.CW_STATUS_TAKEOVER_PENDING 0).okFor h 0x0A) ∧
    (15 < h.target → exec (.cwCancel h) s = .next (a.complete h 0x0A ⟨0x0107, 0, 0, []⟩))) ∧
  (∀ (s : State) (n : Nat), s.pwr.held = false → s.pageBusy (pg 10 n) = false → exec (.cwCntClear n) s = .next (s.clearCnts (pg 10 n)))

def Obligations.TableCommandsComplete : Prop :=
  (∀ (s : State) (h : CmdHdr) (leaf count : Nat) (ms : List Nat), s.takes h 0x0601 true = true → h.target = 0 →
    let a := s.start h 0x0601
    let xs := (List.range count).map fun k => ms.getD k 0
    (leaf < a.leaves → count ≤ 512 / a.leaves →
      (a.leafCheck leaf [] xs = none →
        exec (.leafSet h leaf count ms) s = (a.commit (fun p => { p with row := Tbl.set p.row 0 leaf (mkRow xs) }) id).okFor h 6) ∧
      (∀ st, a.leafCheck leaf [] xs = some st → exec (.leafSet h leaf count ms) s = .next (a.complete h 6 ⟨st, 0, 0, []⟩))) ∧
    (a.leaves ≤ leaf ∨ 512 / a.leaves < count → exec (.leafSet h leaf count ms) s = .next (a.complete h 6 ⟨0x0104, 0, 0, []⟩))) ∧
  (∀ (s : State) (h : CmdHdr) (leaf first count gen : Nat), s.takes h 0x0602 true = true → h.target = 0 →
    let a := s.start h 0x0602
    let n := if count = 0 then 256 else count
    let u := a.commit (Pipe.setGens leaf first n gen) id
    (leaf < a.leaves → first + n ≤ 256 → exec (.epgenSet h leaf first count gen) s =
      (if (List.range n).any fun i => (a.pipe 0).gen leaf (first + i) != gen then u.genChanged else u).okFor h 6) ∧
    (a.leaves ≤ leaf ∨ 256 < first + n → exec (.epgenSet h leaf first count gen) s = .next (a.complete h 6 ⟨0x0104, 0, 0, []⟩))) ∧
  (∀ (s : State) (h : CmdHdr) (feid kind gen target : Nat), s.takes h 0x0603 true = true → h.target = 0 →
    let a := s.start h 0x0603
    let r := a.ovrInsert (feidKey feid) kind gen target
    (a.ovrBad kind target = false → exec (.ovrInsert h feid kind gen target) s = .next (r.2.2.complete h 6 ⟨r.1, b2n r.2.1, 0, []⟩)) ∧
    (a.ovrBad kind target = true → exec (.ovrInsert h feid kind gen target) s = .next (a.complete h 6 ⟨0x0104, 0, 0, []⟩))) ∧
  (∀ (s : State) (h : CmdHdr) (feid : Nat), s.takes h 0x0604 true = true → h.target = 0 →
    let r := (s.start h 0x0604).ovrDelete (feidKey feid)
    exec (.ovrDelete h feid) s = r.2.okFor h 6 (b2n r.1)) ∧
  (∀ (s : State) (h : CmdHdr) (first : Nat), s.takes h 0x0605 true = true → h.target = 0 →
    let a := s.start h 0x0605
    (first % 64 = 0 → first ≤ 32704 → exec (.ovrAge h first) s = (a.commit (Pipe.clearHits first) id).okFor h 6
      (bitsOf ((List.range 64).filter fun e => a.fwt.pipes.any fun p => bit 62 (entryAt p.ovr (first + e))))) ∧
    (first % 64 ≠ 0 ∨ 32704 < first → exec (.ovrAge h first) s = .next (a.complete h 6 ⟨0x0104, 0, 0, []⟩))) ∧
  (∀ (s : State) (h : CmdHdr) (group kind gen desc base count : Nat), s.takes h 0x0606 true = true → h.target = 0 →
    let a := s.start h 0x0606
    let g := group % 2 ^ 20
    let e := mkGrp kind gen g base count (if kind = 0 then desc else 0)
    let u := a.commit id fun d => { d with grp := (insertEntry grpKind d.grp e).getD d.grp }
    (3 ≤ kind ∨ count = 0 ∨ 131072 < count ∨ 262144 < base + count →
      exec (.grpSet h group kind gen desc base count) s = .next (a.complete h 6 ⟨0x0104, 0, 0, []⟩)) ∧
    (kind < 3 → count ≠ 0 → count ≤ 131072 → base + count ≤ 262144 →
      (insertEntry grpKind (a.dieTbl 0).grp e = none → exec (.grpSet h group kind gen desc base count) s =
        .next (((a.inc (Cnt.FWT_INSERT_FAIL 0)).irq (pg 6 0) 3).complete h 6 ⟨0x0102, 0, 0, []⟩)) ∧
      ((insertEntry grpKind (a.dieTbl 0).grp e).isSome = true → a.groupGen g = some gen →
        exec (.grpSet h group kind gen desc base count) s = u.okFor h 6) ∧
      ((insertEntry grpKind (a.dieTbl 0).grp e).isSome = true → a.groupGen g ≠ some gen →
        exec (.grpSet h group kind gen desc base count) s = ((u.groupChanged g).genChanged).okFor h 6))) ∧
  (∀ (s : State) (h : CmdHdr) (group : Nat), s.takes h 0x0607 true = true → h.target = 0 →
    let a := s.start h 0x0607
    let g := group % 2 ^ 20
    let u := a.commit id fun d => match findKey grpKind d.grp g with | some i => { d with grp := Tbl.del d.grp i } | none => d
    exec (.grpDelete h group) s = (if (a.groupGen g).isSome then (u.groupChanged g).genChanged else u).okFor h 6) ∧
  (∀ (s : State) (h : CmdHdr) (off first count : Nat), s.takes h 0x0608 true = true → h.target = 0 →
    let a := s.start h 0x0608
    (first + count ≤ 262144 → a.slotsUsed first count = false →
      exec (.memberLoad h off first count) s = (a.commit id fun d => { d with
        member := (List.range count).foldl (fun t i => Tbl.set t 0 (first + i) (leAt 0 4 (a.staging (off + 4 * i) 4))) d.member }).okFor h 6) ∧
    (262144 < first + count ∨ a.slotsUsed first count = true →
      exec (.memberLoad h off first count) s = .next (a.complete h 6 ⟨0x0104, 0, 0, []⟩))) ∧
  (∀ (s : State) (h : CmdHdr) (off crc : Nat), s.takes h 0x0609 true = true → h.target = 0 →
    let a := s.start h 0x0609
    let img := a.staging off 0x200000
    let gens := fun (s : State) => (s.dieTbl 0).grp.map fun x => (grpKind.key x.2, grpGen x.2)
    let u := a.commit (Pipe.ofImage fun x n => leAt x n img) (DieTbl.ofImage fun x n => leAt x n img)
    let v : State := { u with fwt := { u.fwt with stashAge := (u.pipe 0).stash.map (·.1) } }
    let changed := ((gens a).filter fun x => !(gens v).contains x) ++ ((gens v).filter fun x => !(gens a).contains x)
    (off % 0x200000 ≠ 0 → exec (.tableLoad h off crc) s = .next (a.complete h 6 ⟨0x0104, 0, 0, []⟩)) ∧
    (off % 0x200000 = 0 → crc32c img ≠ crc → exec (.tableLoad h off crc) s = .next (a.complete h 6 ⟨0x0103, 0, 0, []⟩)) ∧
    (off % 0x200000 = 0 → crc32c img = crc →
      exec (.tableLoad h off crc) s = ((changed.foldl (fun s x => s.groupChanged x.1) v).genChanged).okFor h 6)) ∧
  (∀ (s : State) (h : CmdHdr) (table index : Nat), s.takes h 0x060A true = true →
    let a := s.start h 0x060A
    let lim := if 4 ≤ table ∧ table ≤ 6 then 2 else 16
    (h.target < lim → ∀ v, a.tableWord table index h.target = some v → exec (.tableRead h table index) s = a.okFor h 6 v) ∧
    (h.target < lim → a.tableWord table index h.target = none → exec (.tableRead h table index) s = .next (a.complete h 6 ⟨0x0104, 0, 0, []⟩)) ∧
    (lim ≤ h.target → exec (.tableRead h table index) s = .next (a.complete h 6 ⟨0x0105, 0, 0, []⟩))) ∧
  (∀ (s : State) (h : CmdHdr), h.target ≠ 0 →
    let bad := fun (op : Nat) => .next ((s.start h op).complete h 6 ⟨0x0105, 0, 0, []⟩)
    (∀ leaf count ms, s.takes h 0x0601 true = true → exec (.leafSet h leaf count ms) s = bad 0x0601) ∧
    (∀ leaf first count gen, s.takes h 0x0602 true = true → exec (.epgenSet h leaf first count gen) s = bad 0x0602) ∧
    (∀ feid kind gen target, s.takes h 0x0603 true = true → exec (.ovrInsert h feid kind gen target) s = bad 0x0603) ∧
    (∀ feid, s.takes h 0x0604 true = true → exec (.ovrDelete h feid) s = bad 0x0604) ∧
    (∀ first, s.takes h 0x0605 true = true → exec (.ovrAge h first) s = bad 0x0605) ∧
    (∀ group kind gen desc base count, s.takes h 0x0606 true = true → exec (.grpSet h group kind gen desc base count) s = bad 0x0606) ∧
    (∀ group, s.takes h 0x0607 true = true → exec (.grpDelete h group) s = bad 0x0607) ∧
    (∀ off first count, s.takes h 0x0608 true = true → exec (.memberLoad h off first count) s = bad 0x0608) ∧
    (∀ off crc, s.takes h 0x0609 true = true → exec (.tableLoad h off crc) s = bad 0x0609))

def Obligations.LearningCompletes : Prop :=
  (∀ (s : State), let u := s.elapse 16
    ((u.flag (Reg.FWT_CMP_CTRL 0) Fld.FWT_CMP_CTRL_ENABLE && !u.cmpPaused && u.tierReady 0) = true →
      exec .cmpWordCompare s = .next ((List.range 16).foldl State.compareWord u)) ∧
    ((u.flag (Reg.FWT_CMP_CTRL 0) Fld.FWT_CMP_CTRL_ENABLE && !u.cmpPaused && u.tierReady 0) = false → exec .cmpWordCompare s = .next u)) ∧
  (∀ (s : State) (lp : Nat) (p : Pkt) (c : Instr), p.typ = 0x31 →
    (c = .learnMoveRx lp p ∧ beAt 0 1 p.payload = 1) ∨ (c = .learnUnmoveRx lp p ∧ beAt 0 1 p.payload = 2) ∨ (c = .learnAckRx lp p ∧ beAt 0 1 p.payload = 3) →
    (pflag p fPoison = true ∨ p.payload.length ≠ 64 → exec c s = .next (s.takeFn lp p)) ∧
    (pflag p fPoison = false → p.payload.length = 64 → learnReserved p.payload = true →
      exec c s = .next ((s.takeFn lp p).countReason lp rReserved p))) ∧
  (∀ (s : State) (lp : Nat) (p : Pkt), p.typ = 0x31 → pflag p fPoison = false → p.payload.length = 64 → learnReserved p.payload = false →
    let t := s.takeFn lp p
    let o := beAt 16 4 p.payload
    let seq := beAt 12 4 p.payload
    let feid := beAt 4 4 p.payload
    let mine := feidPlane o = t.plane ∧ spineIdx o ≠ t.spine ∧ Tbl.getD t.fwt.learnSeq 0 o ≤ seq
    let done := fun (u : State) =>
      (let v : State := { u with fwt := { u.fwt with learnSeq := Tbl.set u.fwt.learnSeq 0 o (seq + 1) } }
      v.originate lp {
        cls := 7, typ := 0x31, flags := 2 ^ fSrcSpine + 2 ^ fDstSpine, dst := o / 4096 * 4096, src := v.spineAddr 0, plen := 64
        payload := learnBytes 3 feid 0 0 seq o })
    (beAt 0 1 p.payload = 1 →
      let leaf := beAt 8 2 p.payload % 512
      let r := t.ovrInsert (feidKey feid) 0 (beAt 10 1 p.payload) leaf
      (¬ mine ∨ t.ovrBad 0 leaf = true → exec (.learnMoveRx lp p) s = .next t) ∧
      (mine → t.ovrBad 0 leaf = false → r.1 ≠ 0 → exec (.learnMoveRx lp p) s = .next r.2.2) ∧
      (mine → t.ovrBad 0 leaf = false → r.1 = 0 → exec (.learnMoveRx lp p) s = .next (done r.2.2))) ∧
    (beAt 0 1 p.payload = 2 →
      (¬ mine → exec (.learnUnmoveRx lp p) s = .next t) ∧
      (mine → exec (.learnUnmoveRx lp p) s = .next (done (t.ovrDelete (feidKey feid)).2))) ∧
    (beAt 0 1 p.payload = 3 →
      (o / 4096 = t.spineAddr 0 / 4096 → exec (.learnAckRx lp p) s =
        .next (({ t with fwt := { t.fwt with learnAcked := Tbl.set t.fwt.learnAcked 0 p.src (seq + 1) } } : State).emit (.notice 0x0316 [lp, p.src, seq]))) ∧
      (o / 4096 ≠ t.spineAddr 0 / 4096 → exec (.learnAckRx lp p) s = .next t))) ∧
  (∀ (s : State) (n : Nat), s.pwr.held = false → s.pageBusy (pg 6 n) = false → exec (.fwtCntClear n) s = .next (s.clearCnts (pg 6 n)))

def Obligations.LaserModulesComplete : Prop :=
  (∀ (s : State) (m line feed power : Nat),
    exec (.lineLow m line feed power) s = .next ((((s.setFeed m feed line power).lineWarn m).judgeLine m line).judgeFeeds m)) ∧
  (∀ (s : State) (m line : Nat) (ps : List Nat),
    exec (.lineFail m line ps) s = .next ((((s.setLine m line ps).lineWarn m).judgeLine m line).judgeFeeds m)) ∧
  (∀ (s : State) (m feed : Nat) (ps : List Nat),
    let u := (List.range 16).foldl (fun s k => s.setFeed m feed k (ps.getD k 0x8000 % 65536)) s
    exec (.feedFault m feed ps) s = .next (((List.range 16).foldl (fun s k => s.judgeLine m k) (u.lineWarn m)).judgeFeeds m)) ∧
  (∀ (s : State) (m k : Nat), ((List.range 4).all fun f => s.below m f k (s.failAt m)) = true → bit k (s.fld (Reg.ELS_STATUS m) Fld.ELS_STATUS_LINE_FAIL) = false →
    let v := s.setFld (Reg.ELS_STATUS m) Fld.ELS_STATUS_LINE_FAIL (s.fld (Reg.ELS_STATUS m) Fld.ELS_STATUS_LINE_FAIL + 2 ^ k)
    s.judgeLine m k = (lineReeds (2 * m) 0 8 k ++ lineReeds (2 * m + 1) 0 8 k).foldl State.reedDark
      ((((v.inc (Cnt.ELS_LINE_FAILS m)).irq (pg 11 m) 3).logErr (pg 11 m) 0x0101 1 (locEls m k)).charge (objLine m k) 12 1)) ∧
  (∀ (s : State) (m feed : Nat), let u := s.feedLow m feed
    let e := 2 * m + feed / 2
    u.feedDark m feed = true → bit (feed % 2) (u.fld (Reg.OE_STATUS e) Fld.OE_STATUS_FEED_DARK) = false →
    s.judgeFeed m feed = ((u.logErr (pg 9 e) 0x0102 1 (locOeAll e)).irq (pg 9 e) 5).darken m feed) ∧
  (∀ (s : State) (m line : Nat) (ps : List Nat),
    let v := ((s.elapse (usTicks 1000000)).setLine m line ps).lineWarn m
    let u := (List.range 4).foldl (fun s f =>
      let x := s.feedLow m f
      if x.feedDark m f then x else x.setFld (Reg.OE_STATUS (2 * m + f / 2)) Fld.OE_STATUS_FEED_DARK
        (withBits (f % 2) (f % 2) 0 (x.fld (Reg.OE_STATUS (2 * m + f / 2)) Fld.OE_STATUS_FEED_DARK))) v
    let low := (List.range 4).any fun f => u.fld (feedReg m f line) Fld.OE_FEED_PWR_POWER == 0x8000 ||
      decide (dbm (u.fld (feedReg m f line) Fld.OE_FEED_PWR_POWER) < u.warnAt m)
    (low = true → exec (.lineRestore m line ps) s = .next u) ∧
    (low = false → exec (.lineRestore m line ps) s = .next ((lineReeds (2 * m) 0 8 line ++ lineReeds (2 * m + 1) 0 8 line).foldl State.reedLit
      (u.setFld (Reg.ELS_STATUS m) Fld.ELS_STATUS_LINE_FAIL (withBits line line 0 (u.fld (Reg.ELS_STATUS m) Fld.ELS_STATUS_LINE_FAIL)))))) ∧
  (∀ (s : State) (m feed : Nat),
    let u := ((s.elapse (usTicks 1000)).setFld (Reg.ELS_CTRL m) Fld.ELS_CTRL_LASER_EN 0).setFld (Reg.ELS_STATUS m) Fld.ELS_STATUS_INTERLOCK 1
    (s.flag (Reg.ELS_STATUS m) Fld.ELS_STATUS_LASING = true →
      exec (.feedDarkInterlock m feed) s = .next (((((u.inc (Cnt.ELS_INTERLOCKS m)).irq (pg 11 m) 4).logErr (pg 11 m) 0x0103 1
        (locElsAll m)).darken m feed).lightsOut m)) ∧
    (s.flag (Reg.ELS_STATUS m) Fld.ELS_STATUS_LASING = false → exec (.feedDarkInterlock m feed) s = .next s)) ∧
  (∀ (s : State) (m : Nat),
    let present := s.flag (Reg.ELS_STATUS m) Fld.ELS_STATUS_PRESENT
    let u := (s.setFld (Reg.ELS_CTRL m) Fld.ELS_CTRL_LASER_EN 0).lightsOut m
    let v := (((u.setFld (Reg.ELS_STATUS m) Fld.ELS_STATUS_PRESENT 0).setFld (Reg.ELS_STATUS m) Fld.ELS_STATUS_ID_OK 0).inc
      (Cnt.ELS_REMOVALS m)).irq (pg 11 m) 2
    (present = true → exec (.elsRemoval m) s =
        .next (if s.flag (Reg.ELS_STATUS m) Fld.ELS_STATUS_LASING then v.logErr (pg 11 m) 0x0102 1 (locElsAll m) else v) ∧
      exec (.elsInsertion m) s = .next s) ∧
    (present = false → exec (.elsRemoval m) s = .next s ∧
      exec (.elsInsertion m) s = .next (((s.setFld (Reg.ELS_STATUS m) Fld.ELS_STATUS_PRESENT 1).inc (Cnt.ELS_INSERTIONS m)).irq (pg 11 m) 2))) ∧
  (∀ (s : State) (m : Nat), s.pwr.held = false → s.pageBusy (pg 11 m) = false →
    exec (.laserEnable m) s = .next (s.elsCtrlWrite m (withBits 2 2 0 (withBits 0 0 1 (s.rd (Reg.ELS_CTRL m)).toNat)))) ∧
  (∀ (s : State) (m : Nat), s.flag (Reg.ELS_STATUS m) Fld.ELS_STATUS_PRESENT = true → s.flag (Reg.ELS_STATUS m) Fld.ELS_STATUS_ID_OK = true →
    s.flag (Reg.ELS_STATUS m) Fld.ELS_STATUS_INTERLOCK = false → s.laserOn m = s.setFld (Reg.ELS_CTRL m) Fld.ELS_CTRL_LASER_EN 1) ∧
  (∀ (s : State) (m : Nat), s.flag (Reg.ELS_CTRL m) Fld.ELS_CTRL_LASER_EN = true → s.flag (Reg.ELS_STATUS m) Fld.ELS_STATUS_LASING = false →
    let u := s.setFld (Reg.ELS_STATUS m) Fld.ELS_STATUS_LASING 1
    let failed := u.fld (Reg.ELS_STATUS m) Fld.ELS_STATUS_LINE_FAIL
    exec (.laserLightOn m) s = .next ([2 * m, 2 * m + 1].foldl (fun s e =>
      (List.range 32).foldl (fun s l => (List.range 4).foldl (fun s r =>
        if bit (4 * (l % 4) + r) failed then s else (s.reedLit (32 * e + l, r)).ringStart (32 * e + l) r) s)
        (s.setFld (Reg.OE_STATUS e) Fld.OE_STATUS_FEED_DARK 0)) u)) ∧
  (∀ (s : State) (w : Nat) (r : List Byte),
    let u := s.identityRead w r
    let good := if w < 16 then u.flag (Reg.OE_STATUS w) Fld.OE_STATUS_ID_OK else u.flag (Reg.ELS_STATUS (w - 16)) Fld.ELS_STATUS_ID_OK
    let v : State := { u with optics := { u.optics with idReads := (u.optics.idReads.partition fun h => h.target == w).2 } }
    exec (.identityReadDone w r) s = .next ((u.optics.idReads.partition fun h => h.target == w).1.foldl
      (fun s h => s.complete h 9 ⟨0, b2n good, 0, []⟩) v)) ∧
  (∀ (s : State) (h : CmdHdr), s.takes h 0x0903 true = true →
    let a := s.start h 0x0903
    (h.target ≤ 23 → exec (.idRead h) s = .next { a with optics := { a.optics with idReads := a.optics.idReads ++ [h] } }) ∧
    (23 < h.target → exec (.idRead h) s = .next (a.draw.2.complete h 9 ⟨a.draw.1 % 65536, 0, 0, []⟩))) ∧
  (∀ (s : State) (m : Nat), s.pwr.held = false → s.pageBusy (pg 11 m) = false → exec (.elsCntClear m) s = .next (s.clearCnts (pg 11 m)))

def Obligations.RingsAndReedsComplete : Prop :=
  (∀ (s : State) (p r : Nat) (tx : Bool) (tone : Option Nat), s.ring p r tx = 2 ∨ s.ring p r tx = 3 →
    let relock := fun (u : State) => ((((u.inc (Cnt.OE_ID_MISMATCH (p / 32))).logErr (pgOe p) 0x0101 0 (locRing p r tx)).relockBegins p r tx).setLive p r false)
    (tx = true → exec (.ringIdentityFail p r tx tone) s = .next (relock s)) ∧
    (tx = false → s.occupied p = false → s.flag (Reg.OE_CTRL (p / 32)) Fld.OE_CTRL_TONE_CHECK = true →
      (tone = none → exec (.ringIdentityFail p r tx tone) s = .next (relock s)) ∧
      (∀ t, tone = some t → exec (.ringIdentityFail p r tx tone) s = .next (relock (s.setFld (reedReg p r) Fld.OE_REED_RX_TONE (t % 16)))))) ∧
  (∀ (s : State) (p r tone : Nat) (tx : Bool), s.ring p r tx = 1 → tx = true ∨ s.occupied p = false →
    let f := s.fld (reedReg p r) Fld.OE_REED_FAILS + 1
    let u := s.setFld (reedReg p r) Fld.OE_REED_FAILS f
    let v := if tx then s.setRing p r tx 2 else (s.setRing p r tx 2).setFld (reedReg p r) Fld.OE_REED_RX_TONE tone
    let w : State := { v with optics := { v.optics with lockAt := Tbl.set v.optics.lockAt 0 (4 * p + r) (v.time.ticks + 1) } }
    let lp := w.reedPort p r
    let first := w.reedLocked p r && Tbl.getD w.optics.firstLock 0 lp == 0
    (s.causeLaser p r = true → ∀ locked, exec (.relockDone p r tx locked tone) s = .next (s.setRing p r tx 0)) ∧
    (s.causeLaser p r = false →
      (first = true → exec (.relockDone p r tx true tone) s =
        .next { w with optics := { w.optics with firstLock := Tbl.set w.optics.firstLock 0 lp (w.time.ticks + 1) } }) ∧
      (first = false → exec (.relockDone p r tx true tone) s = .next w) ∧
      (f < 3 → exec (.relockDone p r tx false tone) s = .next (u.relockBegins p r tx)) ∧
      (3 ≤ f → exec (.relockDone p r tx false tone) s = .next (((((((u.setLive p r false).chargeReed p r 10).setRing p r true 5).setRing p r false 5).inc
        (Cnt.OE_REEDS_DISABLED (p / 32))).irq (pgOe p) 3).logErr (pgOe p) 0x0100 1 (locRing p r tx)).settleReeds))) ∧
  (∀ (s : State) (p r : Nat) (tx : Bool), tx = true ∨ s.occupied p = false →
    let u := s.elapse (nsTicks (100 * s.fld (Reg.OE_SLIP (p / 32)) Fld.OE_SLIP_DWELL))
    (s.ring p r tx = 2 → exec (.ringSlip p r tx) s = .next ((((u.setRing p r tx 3).inc (Cnt.OE_SLIPS (p / 32))).irq (pgOe p) 4).chargeReed p r 7)) ∧
    (s.ring p r tx = 3 → exec (.slipEnd p r tx) s = .next ((s.elapse (usTicks 10)).setRing p r tx 2))) ∧
  (∀ (s : State) (p r t : Nat), Tbl.getD s.optics.lockAt 0 (4 * p + r) = t + 1 → s.reedLocked p r = true →
    exec (.failsReset p r) s = .next ((s.elapseToTick (t + usTicks 1000000)).setFld (reedReg p r) Fld.OE_REED_FAILS 0)) ∧
  (∀ (s : State) (p r : Nat), s.timersHeld p = false →
    exec (.reedLightLoss p r) s = .next ((((s.elapse (usTicks 10)).setLive p r false).setGate p r false).abortReed p r)) ∧
  (∀ (s : State) (power : Nat) (settled : Bool),
    let u := (s.nextSample 1).setFld Reg.PWR_CX_POWER Fld.PWR_CX_POWER_POWER power
    let term := fun (n : Nat) => (if u.flag (Reg.OE_CTRL n) Fld.OE_CTRL_FF_EN then
      toSigned 16 (u.fld (Reg.OE_FF_COEF n) Fld.OE_FF_COEF_COEF) * ((power : Int) - u.optics.pref) else 0)
    exec (.cxPowerPublish power settled) s = .next { u with optics := { u.optics with
      heater := (List.range 16).foldl (fun t n => Tbl.set t 0 n (term n)) u.optics.heater, pref := if settled then power else u.optics.pref } }) ∧
  (∀ (s : State) (h : CmdHdr) (mask : Nat), s.takes h 0x0901 true = true →
    let a := s.start h 0x0901
    let p := h.target
    let rs := bitList 4 mask
    let last := !(a.livePort p).isEmpty && (a.livePort p).all (rs.contains ·)
    let u := rs.foldl (fun s r => (((((((s.setFld (reedReg p r) Fld.OE_REED_FAILS 0).setFld (reedReg p r) Fld.OE_REED_LOW_MARGIN 0).setLive p r
      false).relockBegins p r true).setRing p r false 1).setGate p r true))) a
    (a.noLink p = true → exec (.reedRetry h mask) s = .next (a.complete h 9 ⟨0x0100, 0, 0, []⟩)) ∧
    (a.noLink p = false → last = true → exec (.reedRetry h mask) s = .next (a.complete h 9 ⟨0x0101, 0, 0, []⟩)) ∧
    (a.noLink p = false → last = false → rs.isEmpty = true → exec (.reedRetry h mask) s = u.okFor h 9) ∧
    (a.noLink p = false → last = false → rs.isEmpty = false →
      exec (.reedRetry h mask) s = .next { u with optics := { u.optics with reedCmds := u.optics.reedCmds ++ [(h, p, mask % 16)] } })) ∧
  (∀ (s : State) (n : Nat), s.pwr.held = false → s.pageBusy (pg 9 n) = false → exec (.oeCntClear n) s = .next (s.clearCnts (pg 9 n)))

def Obligations.MarginTestsComplete : Prop :=
  (∀ (s : State) (lp : Nat), (s.link lp).st = .up → s.testOf lp = none →
    let m := (s.testable lp).filter fun r => !s.flag (reedReg (lp2p lp) r) Fld.OE_REED_LIVE &&
      (Tbl.getD s.optics.upFresh false lp || !s.flag (reedReg (lp2p lp) r) Fld.OE_REED_LOW_MARGIN) && !s.optics.retries.any fun x => x.1 == lp && bit r x.2.1
    let u : State := { s with optics := { s.optics with upFresh := Tbl.set s.optics.upFresh false lp false } }
    let prov := (u.liveReeds lp).find? fun r => u.flag (reedReg (lp2p lp) r) Fld.OE_REED_PROVISIONAL
    (m.isEmpty = false → exec (.marginTestStart lp) s = .next (u.startTest lp (bitsOf m))) ∧
    (m.isEmpty = true → ∀ r, prov = some r → 1 < (u.liveReeds lp).length → exec (.marginTestStart lp) s = .next (u.startTest lp (2 ^ r))) ∧
    (m.isEmpty = true → prov = none ∨ (u.liveReeds lp).length ≤ 1 → exec (.marginTestStart lp) s = .next u)) ∧
  (∀ (s : State) (lp : Nat) (hd body : List Byte), (s.link lp).st.isUp = true → s.ignoresLight (lp2p lp) = false → hdrGood hd = true → hdrType hd = 2 →
    ctlKind body = 6 →
    let u := if hdrAckValid hd then s.acked lp (hdrAck hd) else s
    let reeds := beAt 5 1 body % 16
    let atten := beAt 6 1 body
    (beAt 4 1 body = 1 → exec (.marginStepRx lp hd body false) s =
      .next { u with optics := { u.optics with farTests := Tbl.put u.optics.farTests lp (256 * reeds + atten + 1) } }) ∧
    (beAt 4 1 body = 2 → exec (.marginReportRx lp hd body false) s =
      .next (u.marginReport lp reeds atten ((List.range 4).map fun r => beAt (8 + 4 * r) 4 body))) ∧
    (beAt 4 1 body = 3 → exec (.marginDoneRx lp hd body false) s = .next { u with optics := { u.optics with
      farMargins := Tbl.put u.optics.farMargins lp (leNat ((List.range 4).map fun r => if bit r reeds then BitVec.ofNat 8 (beAt (24 + r) 1 body) else 0)) } }) ∧
    (beAt 4 1 body ≠ 1 → exec (.marginStepRx lp hd body false) s = .next u) ∧ (beAt 4 1 body ≠ 2 → exec (.marginReportRx lp hd body false) s = .next u) ∧
    (beAt 4 1 body ≠ 3 → exec (.marginDoneRx lp hd body false) s = .next u)) ∧
  (∀ (s : State) (lp : Nat) (errors : List Nat) (t : MarginTest) (rest : List MarginTest), s.testOf lp = some (t, rest) →
    let p := lp2p lp
    let stops := (bitList 4 t.stepping).filter fun r => decide (510 ≤ errors.getD r 0) || t.s == 48
    let margins := (List.range 4).map fun r => if stops.contains r then t.s - 1 else t.margins.getD r 0xFF
    let left := (bitList 4 t.stepping).filter fun r => !stops.contains r
    let u := s.sendMargin lp 3 t.reeds 0 [] ((List.range 4).map fun r => if bit r t.reeds && !bit r t.aborted then margins.getD r 0 else 0)
    let v := (s.attenuate p (bitsOf stops) 0).attenuate p (bitsOf left) (t.s + 1)
    (left.isEmpty = true → s.marginReport lp t.reeds t.s errors = ((bitList 4 t.reeds).foldl (fun s r =>
      if bit r t.aborted then s.setFld (reedReg p r) Fld.OE_REED_ATTEN 0 else s.judgeReed p r (margins.getD r 0)) (u.setTests rest)).settleRuns.settleReeds) ∧
    (left.isEmpty = false → s.marginReport lp t.reeds t.s errors = (v.setTests (rest ++ [{ t with
      stepping := bitsOf left, s := t.s + 1, margins := margins, sentAt := v.time.ticks }])).sendMargin lp 1 t.reeds (t.s + 1) [] []) ∧
    (∀ reeds atten, t.reeds ≠ reeds ∨ t.s ≠ atten → s.marginReport lp reeds atten errors = s)) ∧
  (∀ (s : State) (lp x : Nat) (errors : List Nat), Tbl.getD s.optics.farTests 0 lp = x + 1 →
    let u := s.elapse (usTicks 20)
    let es := (List.range 4).map fun r => if bit r (x / 256) then errors.getD r 0 % 2 ^ 32 else 0
    exec (.marginDwellEnd lp errors) s = .next (({ u with optics := { u.optics with
      farTests := Tbl.del u.optics.farTests lp } } : State).sendMargin lp 2 (x / 256) (x % 256) es [])) ∧
  (∀ (s : State) (lp : Nat) (t : MarginTest) (rest : List MarginTest), s.testOf lp = some (t, rest) →
    let u := ((s.elapseToTick (t.sentAt + usTicks 100)).setTests rest).attenuate (lp2p lp) t.reeds 0
    let v : State := { u with optics := { u.optics with
      retries := u.optics.retries ++ [(lp, t.reeds, u.time.ticks)], runCmds := u.optics.runCmds.filter fun c => !(c.2.1 == lp2p lp) } }
    exec (.marginReportTimeout lp) s = .next ((u.optics.runCmds.filter fun c => c.2.1 == lp2p lp).foldl
      (fun s c => s.complete c.1 9 ⟨0x0102, 0, 0, []⟩) v)) ∧
  (∀ (s : State) (lp m t : Nat) (rest : List (Nat × Nat × Nat)),
    takeFirst (fun (x : Nat × Nat × Nat) => x.1 == lp) s.optics.retries = some ((lp, m, t), rest) →
    let v : State := { s with optics := { s.optics with retries := rest } }
    let u := v.elapseToTick (t + usTicks 1000000)
    let again := bitsOf ((bitList 4 m).filter fun r => (u.testable lp).contains r)
    ((u.link lp).st = .up → u.testOf lp = none → again ≠ 0 → exec (.marginRetry lp) s = .next (u.startTest lp again)) ∧
    ((u.link lp).st ≠ .up ∨ (u.testOf lp).isSome = true ∨ again = 0 → exec (.marginRetry lp) s = .next u)) ∧
  (∀ (s : State) (h : CmdHdr) (mask : Nat), s.takes h 0x0902 true = true →
    let a := s.start h 0x0902
    let p := h.target
    let named := fun lp => (a.testable lp).filter fun r => bit r mask
    let lps := (a.halves p).filter fun lp => !(named lp).isEmpty && (a.testOf lp).isNone
    let last := !(a.livePort p).isEmpty && (a.livePort p).all ((lps.flatMap named).contains ·)
    let u := lps.foldl (fun s lp => s.startTest lp (bitsOf (named lp))) a
    (a.noLink p = true → exec (.marginRun h mask) s = .next (a.complete h 9 ⟨0x0100, 0, 0, []⟩)) ∧
    (a.noLink p = false → last = true → exec (.marginRun h mask) s = .next (a.complete h 9 ⟨0x0101, 0, 0, []⟩)) ∧
    (a.noLink p = false → last = false → (lps.flatMap named).isEmpty = true → exec (.marginRun h mask) s = a.okFor h 9 0xFFFFFFFF) ∧
    (a.noLink p = false → last = false → (lps.flatMap named).isEmpty = false →
      exec (.marginRun h mask) s = .next { u with optics := { u.optics with runCmds := u.optics.runCmds ++ [(h, p, bitsOf (lps.flatMap named))] } }))

def Obligations.FenRoundsComplete : Prop :=
  (∀ (s : State) (lp : Nat) (p : Pkt) (c : Instr) (op : Nat), p.typ = 0x13 → (c, op) ∈ ([(.fenOpen lp p, 1), (.fenRepeat lp p, 6), (.fenDone lp p, 8),
      (.hallRefusedRx lp p, 3), (.hallAbortRx lp p, 9)] : List (Instr × Nat)) →
    let stale := match s.collGroup (p.msgId / 4096) with | some x => staleGen p (grpGen x.1) | none => false
    let home := match s.collGroup (p.msgId / 4096) with | some x => dHome x.2 | none => lp / 512 % 2
    let known := (if pflag p fSrcSpine then [1, 2, 3, 4, 5, 9] else [1, 6, 8]).contains (beAt 0 1 p.payload)
    (stale = true → exec c s = .next ((s.takeFn lp p).staleIn lp p)) ∧
    (stale = false → pflag p fPoison = true → exec c s = .next (s.takeFn lp p)) ∧
    (stale = false → pflag p fPoison = false → p.payload.length ≠ 64 ∨ known = false →
      exec c s = .next ((s.takeFn lp p).inc (Cnt.FADM_BAD_SHAPE home)))) ∧
  (∀ (s : State) (lp : Nat) (p : Pkt) (e d : Nat), s.ctrlTakes p 1 e d = true →
    let g := p.msgId / 4096
    let rnd := beAt 2 2 p.payload
    let u := (s.takeFn lp p).inc (Cnt.FADM_OPENS (dHome d))
    let last := (u.fenHist (dHome d) g).round
    let hall := if pflag p fSrcSpine then hallOf d lp else none
    (rnd ≠ last → rnd = nextRound last → u.fenRound (dHome d) g = none → exec (.fenOpen lp p) s = .next (u.openRound (dHome d) g e d rnd hall)) ∧
    (rnd ≠ last → rnd = nextRound last → (u.fenRound (dHome d) g).isSome = true →
      exec (.fenOpen lp p) s = .next ((u.inc (Cnt.FADM_REFUSED_OTHER (dHome d))).replyFen (dHome d) lp p (grpGen e) (grpCount e) 3 6 0)) ∧
    (rnd ≠ last → rnd ≠ nextRound last → exec (.fenOpen lp p) s = .next (u.inc (Cnt.FADM_NOT_OPEN (dHome d)))) ∧
    (rnd = last → u.fenRound (dHome d) g = none →
      exec (.fenOpen lp p) s = .next (u.replyFen (dHome d) lp p (grpGen e) (grpCount e) 3 (u.fenHist (dHome d) g).status 0)) ∧
    (∀ r, rnd = last → u.fenRound (dHome d) g = some r →
      (r.waiting = false → exec (.fenOpen lp p) s = .next (u.replyFen (dHome d) lp p (grpGen e) (grpCount e) 2 0 0)) ∧
      (r.waiting = true → hall = none → exec (.fenOpen lp p) s = .next u) ∧
      (∀ k, r.waiting = true → hall = some k →
        exec (.fenOpen lp p) s = .next (if r.halls.contains k then u else u.rootReady { r with halls := r.halls ++ [k] })))) ∧
  (∀ (s : State) (lp : Nat) (p : Pkt) (wrong : Option RunOut), p.typ = 0x10 →
    let u := s.takeFn lp p
    let g := p.msgId / 4096
    (u.collGroup g = none → exec (.collIn lp p wrong) s = .next (u.inc (Cnt.FADM_NO_GROUP (lp / 512 % 2)))) ∧
    (∀ e d, u.collGroup g = some (e, d) →
      (staleGen p (grpGen e) = true → exec (.collIn lp p wrong) s = .next (u.staleIn lp p)) ∧
      (staleGen p (grpGen e) = false → u.fenRound (dHome d) g = none ∨ (∃ r, u.fenRound (dHome d) g = some r ∧ r.pass = true) →
        exec (.collIn lp p wrong) s = .next (u.inc (Cnt.FADM_NOT_OPEN (dHome d)))))) ∧
  (∀ (s : State) (lp : Nat) (p : Pkt) (wrong : Option RunOut) (e d : Nat) (r : Round), p.typ = 0x10 →
    (s.takeFn lp p).collGroup (p.msgId / 4096) = some (e, d) → staleGen p (grpGen e) = false →
    (s.takeFn lp p).fenRound (dHome d) (p.msgId / 4096) = some r → r.pass = false →
    let u := s.takeFn lp p
    let spine := pflag p fSrcSpine
    let hall := if spine then hallOf r.desc lp else none
    let i := lowestMissing ((List.range r.m).filter fun k => feidKey (r.feids.getD k 0) != feidKey p.src) r.m
    let num := p.msgId % 4096
    let who := match hall with | some h => hallWho h | none => i
    let limb := if hall.isSome then num % max 1 (dU r.desc) else 0
    let c := if hall.isSome then dFirst r.desc + num / max 1 (dU r.desc) else num
    let rg := 16 * limb + p.offset / 4096
    let got := p.offset % 4096 == 0 && (r.chunk c).has who rg
    let outsider := if spine then hall.isNone else decide (r.m ≤ i) || !contributes r.desc i
    let fenced := hall.isNone && r.fenced.contains i && !got
    let inStripe := decide (dFirst r.desc ≤ c) && decide (c < dFirst r.desc + dCount r.desc)
    let shape := p.offset % 4096 == 0 && decide (p.offset < dChunkLen r.desc c) && p.plen == dRegionLen r.desc c (p.offset / 4096)
    let waits := !r.inWindow c || (hall.isNone && !r.holdOk c i rg)
    let done := fun (t : State) => exec (.collIn lp p wrong) s = .next t
    (outsider = true → done (u.inc (Cnt.FADM_NOT_MEMBER (dHome d)))) ∧
    (outsider = false →
      (fenced = true → done (u.inc (Cnt.FADM_FENCED_IN (dHome d)))) ∧
      (fenced = false → inStripe = false → done (u.inc (Cnt.FADM_MISSTRIPED (dHome d)))) ∧
      (fenced = false → inStripe = true → shape = false → done (u.inc (Cnt.FADM_BAD_SHAPE (dHome d)))) ∧
      (fenced = false → inStripe = true → shape = true →
        (got = true → done (u.inc (Cnt.FADM_DUP (dHome d)))) ∧
        (got = false → waits = true → done (u.backoff r c who num limb hall)) ∧
        (got = false → waits = false → u.shadowFull r c = true → done ((u.inc Cnt.CHK_SHADOW_BACKOFFS).backoff r c who num limb hall)) ∧
        (got = false → waits = false → u.shadowFull r c = false → done (u.acceptRegion r c who rg limb hall.isSome p wrong))))) ∧
  (∀ (s : State) (lp : Nat) (p : Pkt) (e d : Nat), s.ctrlTakes p 6 e d = true →
    let g := p.msgId / 4096
    let c := beAt 4 2 p.payload
    let rnd := beAt 2 2 p.payload
    let u := s.takeFn lp p
    let ms := u.members (dHome d) e
    let i := lowestMissing ((List.range ms.length).filter fun k => feidKey (ms.getD k 0) != feidKey p.src) ms.length
    let gone := exec (.fenRepeat lp p) s = .next ((u.inc (Cnt.FADM_GONE (dHome d))).replyFen (dHome d) lp p (grpGen e) 0 7 0 c)
    (ms.length ≤ i → exec (.fenRepeat lp p) s = .next (u.inc (Cnt.FADM_NOT_MEMBER (dHome d)))) ∧
    (i < ms.length → c = 0xFFFF →
      ((u.fenHist (dHome d) g).record = none ∨ rnd ≠ (u.fenHist (dHome d) g).round → gone) ∧
      (∀ body, (u.fenHist (dHome d) g).record = some body → rnd = (u.fenHist (dHome d) g).round →
        let q := u.fenSeq g (u.fenPkt (if descOk d then dTc d else 5) 0x04 (2 ^ fLast) (grpGen e) (beAt 4 4 body) 0 body)
        exec (.fenRepeat lp p) s = .next (q.2.fnSend (dHome d) { q.1 with dst := ms.getD i 0 }))) ∧
    (i < ms.length → c ≠ 0xFFFF →
      (u.fenRound (dHome d) g = none → gone) ∧
      (∀ r, u.fenRound (dHome d) g = some r →
        (r.round ≠ rnd ∨ r.kept.find? (fun x => x.1 == c) = none → gone) ∧
        (∀ x, r.round = rnd → r.kept.find? (fun x => x.1 == c) = some x →
          exec (.fenRepeat lp p) s = .next (u.sendStream r (some [i]) false (u.outPkts r c x.2 ((r.chunk c).verdict == 1))))))) ∧
  (∀ (s : State) (lp : Nat) (p : Pkt) (e d : Nat), s.ctrlTakes p 8 e d = true →
    let u := s.takeFn lp p
    (u.fenRound (dHome d) (p.msgId / 4096) = none → exec (.fenDone lp p) s = .next (u.inc (Cnt.FADM_NOT_OPEN (dHome d)))) ∧
    (∀ r, u.fenRound (dHome d) (p.msgId / 4096) = some r →
      let i := lowestMissing ((List.range r.m).filter fun k => feidKey (r.feids.getD k 0) != feidKey p.src) r.m
      (r.pass = false ∨ r.round ≠ beAt 2 2 p.payload → exec (.fenDone lp p) s = .next (u.inc (Cnt.FADM_NOT_OPEN (dHome d)))) ∧
      (r.pass = true → r.round = beAt 2 2 p.payload →
        (r.m ≤ i → exec (.fenDone lp p) s = .next (u.inc (Cnt.FADM_NOT_MEMBER (dHome d)))) ∧
        (i < r.m → exec (.fenDone lp p) s = .next (u.passCheck { r with done := if r.done.contains i then r.done else r.done ++ [i] }))))) ∧
  (∀ (s : State) (die g c t : Nat) (r : Round), s.fenRound die g = some r → (r.chunk c).first = some t → s.frozen = false → (r.missing c).isEmpty = false →
    (r.chunk c).result = none →
    let ids := (r.missing c).take 16
    let u := s.elapseToTick (t + ((r.chunk c).noticed + 1) * usTicks (dStall r.desc))
    let v := (((u.emit (.notice 0x0543 ([g, r.round, c] ++ ids))).inc (Cnt.FADM_STALLS die)).irq (pg 0x0D die) 4).logErr (pg 0x0D die) 0x0102 0
      (locPage (pg 0x0D die))
    exec (.fenStall die g c) s = .next ((ids.foldl (fun s i => s.charge (objEndpoint (feidKey (r.feids.getD i 0))) 15 1) v).setRound
      (r.setChunk c { r.chunk c with noticed := (r.chunk c).noticed + 1, named := ids })))

def Obligations.FenResultsComplete : Prop :=
  (∀ (s : State) (die g c : Nat) (r : Round) (out right : RunOut), s.fenRound die g = some r → (r.chunk c).result = some (out, right) →
    (r.chunk c).released = false → (r.chunk c).sent = false → s.frozen = false → r.pass = false →
    (isHall r.desc = true → (r.chunk c).verdict ≠ 1 → exec (.chunkRelease die g c) s = .next
      (((s.hallPkts r c out.bytes).foldl (fun s p => s.fenToPort r.die (dXport r.desc) p) s).setRound (r.setChunk c { r.chunk c with sent := true }))) ∧
    (isHall r.desc = false → ((r.chunk c).verdict = 1 → dSpec r.desc = true) →
      (dKind r.desc = 1 → r.fenced.contains (dRoot r.desc) = true → exec (.chunkRelease die g c) s = .next (s.fenAbort r 3)) ∧
      (dKind r.desc ≠ 1 ∨ r.fenced.contains (dRoot r.desc) = false →
        let u := (s.sendStream r r.receivers true (s.outPkts r c out.bytes ((r.chunk c).verdict == 1))).pmcEvent 0x12 0 r.pmcUnit (ceilDiv out.bytes.length 64)
        exec (.chunkRelease die g c) s = .next (u.settleChunk { r.setChunk c { r.chunk c with released := true, check := chunkCheck out.bytes } with
          kept := (r.kept ++ [(c, out.bytes)]).drop (r.kept.length + 1 - dRetain r.desc) } c)))) ∧
  (∀ (s : State) (die g c : Nat) (r : Round) (out right : RunOut) (shadow : Option RunOut), s.fenRound die g = some r →
    (r.chunk c).result = some (out, right) → (r.chunk c).verdict = 1 →
    let ch := r.chunk c
    let sh := shadow.getD right
    let u := s.inc (Cnt.FEN_SHADOWS ch.spare)
    let w := u.inc (Cnt.FEN_VERDICT_PASS ch.phys)
    let v := ((u.inc (Cnt.FEN_VERDICT_FAIL ch.phys)).irq (pg 0x0C ch.phys) 3).logErr (pg 0x0C ch.phys) 0x0101 1 (locFen ch.phys)
    let settled := r.setChunk c { ch with verdict := 2 }
    (sh = out → ch.firstRun = none → exec (.verdict die g c shadow) s = .next (w.settleChunk settled c)) ∧
    (∀ n pb k sb, sh = out → ch.firstRun = some (n, pb, k, sb) →
      let x := if pb = out then w else w.chargeVerdict n
      exec (.verdict die g c shadow) s = .next ((if sb = out then x else x.chargeVerdict k).settleChunk settled c)) ∧
    (sh ≠ out → ch.firstRun = none → exec (.verdict die g c shadow) s = .next
      (v.recall r c 1 fun ch' => { ch' with vfails := ch'.vfails + 1, firstRun := some (ch'.phys, out, ch.spare, sh) })) ∧
    (∀ n pb k sb, sh ≠ out → ch.firstRun = some (n, pb, k, sb) → exec (.verdict die g c shadow) s = .next
      (((v.chargeVerdict n).chargeVerdict k).fenAbort r 2))) ∧
  (∀ (s : State) (die slot beat : Nat) (tier1 : Bool),
    let u := if tier1 then s.beatSeen ⟨s.chanOf 0 (s.rdWide (Reg.FADM_T1_BASE die) 2 / 2097152 * 2097152 + 65536 * slot + 64 * beat), true⟩ else s
    (∀ p, u.slotOwner die tier1 slot = some p → exec (.fenMemError die tier1 slot beat) s = .next (u.fenPartReset die p true)) ∧
    (u.slotOwner die tier1 slot = none → exec (.fenMemError die tier1 slot beat) s = .next u)) ∧
  (∀ (s : State) (n : Nat), let u := ((s.inc (Cnt.FEN_ACC_UE n)).irq (pg 0x0C n) 2).logErr (pg 0x0C n) 0x0100 2 (locFen n)
    exec (.reducerUe n) s = .next (((u.chunksOn n).foldl (fun s x => match s.fenRound x.1 x.2.1 with
      | some r => if (r.chunk x.2.2).first.isNone then s else if (r.chunk x.2.2).released then s.recall r x.2.2 2 id else s.resendChunk r x.2.2
      | none => s) ((u.charge (objFen n) 20 1).retireFen n true)).leaveWork n))

def Obligations.FenHallsComplete : Prop :=
  (∀ (s : State) (lp : Nat) (p : Pkt) (e d : Nat) (r : Round), let u := s.takeFn lp p
    u.hallRound (dHome d) p (beAt 2 2 p.payload) = some r → isHall r.desc = true → lp = dXport r.desc →
    let c := beAt 4 2 p.payload
    (s.ctrlTakes p 2 e d = true → r.waiting = true → exec (.hallAdmittedRx lp p) s = .next (u.startRound r)) ∧
    (s.ctrlTakes p 2 e d = true → r.waiting = false → exec (.hallAdmittedRx lp p) s = .next u) ∧
    (s.ctrlTakes p 4 e d = true → exec (.hallAdmittedRx lp p) s = .next (u.hallAgain r (dFirst r.desc + c / max 1 (dU r.desc)) fun num rg =>
      num == c && bit rg (beAt 6 2 p.payload))) ∧
    (s.ctrlTakes p 5 e d = true → exec (.hallAdmittedRx lp p) s = .next (u.hallAgain r c fun _ _ => true)) ∧
    (s.ctrlTakes p 3 e d = true → r.waiting = true →
      exec (.hallRefusedRx lp p) s = .next (((u.dropRound r).countRefusal (dHome d) r.desc 8).refuseRound r 8)) ∧
    (s.ctrlTakes p 3 e d = true → r.waiting = false → exec (.hallRefusedRx lp p) s = .next u) ∧
    (s.ctrlTakes p 9 e d = true → exec (.hallAbortRx lp p) s = .next (u.fenAbort r (beAt 1 1 p.payload)))) ∧
  (∀ (s : State) (lp : Nat) (p : Pkt) (e d : Nat) (r : Round), let u := s.takeFn lp p
    u.hallRound (dHome d) p (beAt 2 2 p.payload) = some r → isHall r.desc = false → (hallOf r.desc lp).isSome = true →
    (s.ctrlTakes p 3 e d = true → r.waiting = true → exec (.hallRefusedRx lp p) s = .next ((u.countRefusal (dHome d) r.desc 8).rootRefuse r 8)) ∧
    (s.ctrlTakes p 3 e d = true → r.waiting = false → exec (.hallRefusedRx lp p) s = .next u) ∧
    (s.ctrlTakes p 9 e d = true → exec (.hallAbortRx lp p) s = .next (u.fenAbort r 6))) ∧
  (∀ (s : State) (lp : Nat) (p : Pkt) (e d : Nat), let u := s.takeFn lp p
    let g := p.msgId / 4096
    let rnd := beAt 2 2 p.payload
    s.ctrlTakes p 3 e d = true → u.fenRound (dHome d) g = none → (hallOf d lp).isSome = true → rnd = nextRound (u.fenHist (dHome d) g).round →
    let v := (u.setHist (dHome d) g ⟨rnd, 8, none⟩).countRefusal (dHome d) d 8
    exec (.hallRefusedRx lp p) s = .next (v.refuseRound { die := dHome d, group := g, gen := grpGen e, round := rnd, desc := d, feids := u.members (dHome d) e, pass := true, tier1 := false, slots := 0, chk := 0, salt := 0, fenced := [], excused := [], done := [], chunks := [], kept := [], recalled := false, unchecked := false, provSent := false, epoch := v.fenceEpoch, halls := [], waiting := false, openedAt := v.time.ticks } 8)) ∧
  (∀ (s : State) (die g : Nat) (r : Round), s.fenRound die g = some r → r.waiting = true → isRoot r.desc = true → s.frozen = false →
    exec (.hallOpenTimeout die g) s = .next (((s.elapseToTick (r.openedAt + usTicks 1000)).countRefusal die r.desc 8).rootRefuse r 8)) ∧
  (∀ (s : State) (lp : Nat) (p : Pkt) (r : Round), p.typ = 0x11 → (s.takeFn lp p).rootPacket lp p = some r → r.stripe.contains (p.msgId % 4096) = true →
    (r.chunk (p.msgId % 4096)).finished = false → p.offset / 4096 < 16 →
    let u := s.takeFn lp p
    let c := p.msgId % 4096
    let k := p.offset / 4096
    let got := (r.chunk c).relayed ++ [⟨k, pflag p fSpec, pflag p fPoison, p.pcrc, p.cchk, p.payload⟩]
    let ch : Chunk := { r.chunk c with relayed := got }
    let whole := (List.range (dRegions r.desc c)).all fun k => got.any fun y => y.region == k
    let bs := (List.range (dRegions r.desc c)).flatMap fun k => ((got.find? fun y => y.region == k).map (·.data)).getD []
    let v := (u.sendStream r r.receivers false (u.relayPkts r p.cls c got bs)).pmcEvent 0x12 0 r.pmcUnit (ceilDiv bs.length 64)
    ((r.chunk c).relayed.any (fun y => y.region == k) = true → exec (.hallReleaseRx lp p) s = .next u) ∧
    ((r.chunk c).relayed.any (fun y => y.region == k) = false →
      (whole = false → exec (.hallReleaseRx lp p) s = .next (u.setRound (r.setChunk c ch))) ∧
      (whole = true → relayedOk got = false → exec (.hallReleaseRx lp p) s = .next (u.setRound (r.setChunk c { ch with relayed := [] }))) ∧
      (whole = true → relayedOk got = true → exec (.hallReleaseRx lp p) s = .next (v.settleChunk
        { r.setChunk c { ch with released := true, check := chunkCheck bs } with
          kept := (r.kept ++ [(c, bs)]).drop (r.kept.length + 1 - dRetain r.desc) } c)))) ∧
  (∀ (s : State) (lp : Nat) (p : Pkt) (r : Round), p.typ = 0x12 → (s.takeFn lp p).rootPacket lp p = some r → r.stripe.contains (p.msgId % 4096) = true →
    beAt 2 2 p.payload = r.round → exec (.hallRecallRx lp p) s = .next ((s.takeFn lp p).recall r (p.msgId % 4096) (beAt 0 1 p.payload) id)) ∧
  (∀ (s : State) (lp : Nat) (p : Pkt) (r : Round), p.typ = 0x04 → beAt 0 2 p.payload = 1 → (s.takeFn lp p).rootPacket lp p = some r →
    let b := slice 0 64 p.payload
    let x := r.excused.length
    let body := b.take 10 ++ beBytes 1 r.gen ++ slice 11 1 b ++ beBytes 4 r.m ++ beBytes 4 (r.m - x) ++ beBytes 4 x ++ b.drop 24
    let u := (s.takeFn lp p).sendRecord r body
    exec (.hallRecordRx lp p) s = .next (if bit 0 (beAt 2 1 body) then u.endRound r (beAt 2 1 body) else u.setRound { r with provSent := true }))

def Obligations.FenCommandsComplete : Prop :=
  (∀ (s : State) (h : CmdHdr) (i d : Nat), s.takes h 0x0D01 true = true →
    let a := s.start h 0x0D01
    (h.target = 0 → i ≤ 4095 → descOk d = true →
      exec (.fenDescSet h i d) s = ({ a with fen := { a.fen with descs := Tbl.set a.fen.descs 0 i d } } : State).okFor h 0x0D) ∧
    (h.target = 0 → 4095 < i ∨ descOk d = false → exec (.fenDescSet h i d) s = .next (a.complete h 0x0D ⟨0x0100, 0, 0, []⟩)) ∧
    (h.target ≠ 0 → exec (.fenDescSet h i d) s = .next (a.complete h 0x0D ⟨0x0104, 0, 0, []⟩))) ∧
  (∀ (s : State) (h : CmdHdr) (i w : Nat), s.takes h 0x0D02 true = true →
    let a := s.start h 0x0D02
    (h.target ≤ 1 → i ≤ 4095 → w ≤ 3 → exec (.fenDescRead h i w) s = a.okFor h 0x0D (Tbl.getD a.fen.descs 0 i / 2 ^ (64 * w) % 2 ^ 64)) ∧
    (h.target ≤ 1 → 4095 < i ∨ 3 < w → exec (.fenDescRead h i w) s = .next (a.complete h 0x0D ⟨0x0100, 0, 0, []⟩)) ∧
    (1 < h.target → exec (.fenDescRead h i w) s = .next (a.complete h 0x0D ⟨0x0104, 0, 0, []⟩))) ∧
  (∀ (s : State) (h : CmdHdr) (p ring ten sf sc tf tc en : Nat), s.takes h 0x0D03 true = true →
    let a := s.start h 0x0D03
    let die := h.target
    let sram := fun q => (a.rd (Reg.FADM_PART_SRAM die q)).toNat
    let t1f := fun q => a.fld (Reg.FADM_PART_T1_FIRST die q) ⟨23, 0⟩
    let t1c := fun q => a.fld (Reg.FADM_PART_T1_COUNT die q) ⟨23, 0⟩
    let clash := (List.range 64).any fun q => q != p && (overlap sf sc (bits 9 0 (sram q)) (bits 25 16 (sram q)) || overlap tf tc (t1f q) (t1c q))
    let bad := decide (63 < p) || decide (768 < sf + sc) || decide (a.fld (Reg.FADM_T1_SLOTS die) Fld.FADM_T1_SLOTS_SLOTS < tf + tc) || clash
    let used := a.fld (Reg.FADM_PART_STATUS die p) Fld.FADM_PART_STATUS_SRAM_USED != 0 || a.fld (Reg.FADM_PART_T1_USED die p) ⟨23, 0⟩ != 0
    let less := a.fld (Reg.FADM_PART_CFG die p) Fld.FADM_PART_CFG_TENANT != ten || bits 9 0 (sram p) != sf || decide (sc < bits 25 16 (sram p)) ||
      t1f p != tf || decide (tc < t1c p)
    let u := (a.wr (Reg.FADM_PART_CFG die p) (BitVec.ofNat 32 (b2n (en != 0) * 2 ^ 31 + ring % 256 * 2 ^ 16 + ten % 2 ^ 16))).wr
      (Reg.FADM_PART_SRAM die p) (BitVec.ofNat 32 (sc * 2 ^ 16 + sf))
    (1 < die → exec (.fenPartSet h p ring ten sf sc tf tc en) s = .next (a.complete h 0x0D ⟨0x0104, 0, 0, []⟩)) ∧
    (die ≤ 1 → bad = true → exec (.fenPartSet h p ring ten sf sc tf tc en) s = .next (a.complete h 0x0D ⟨0x0101, 0, 0, []⟩)) ∧
    (die ≤ 1 → bad = false → used = true → less = true →
      exec (.fenPartSet h p ring ten sf sc tf tc en) s = .next (a.complete h 0x0D ⟨0x0102, 0, 0, []⟩)) ∧
    (die ≤ 1 → bad = false → used = false ∨ less = false → exec (.fenPartSet h p ring ten sf sc tf tc en) s =
      (((u.wr (Reg.FADM_PART_T1_FIRST die p) (BitVec.ofNat 32 tf)).wr (Reg.FADM_PART_T1_COUNT die p) (BitVec.ofNat 32 tc)).slotOpenClear).okFor h 0x0D)) ∧
  (∀ (s : State) (h : CmdHdr) (p : Nat), s.takes h 0x0D04 true = true →
    let a := s.start h 0x0D04
    (h.target ≤ 1 → p ≤ 63 → exec (.fenPartReset h p) s = (a.fenPartReset h.target p false).okFor h 0x0D) ∧
    (h.target ≤ 1 → 63 < p → exec (.fenPartReset h p) s = .next (a.complete h 0x0D ⟨0x0101, 0, 0, []⟩)) ∧
    (1 < h.target → exec (.fenPartReset h p) s = .next (a.complete h 0x0D ⟨0x0104, 0, 0, []⟩))) ∧
  (∀ (s : State) (h : CmdHdr) (g rnd : Nat), s.takes h 0x0D05 true = true →
    let a := s.start h 0x0D05
    (h.target ≤ 1 → ∀ r, a.fenRound h.target g = some r → r.round = rnd → exec (.fenAbort h g rnd) s = (a.fenAbort r 5).okFor h 0x0D) ∧
    (h.target ≤ 1 → a.fenRound h.target g = none ∨ (∃ r, a.fenRound h.target g = some r ∧ r.round ≠ rnd) →
      exec (.fenAbort h g rnd) s = .next (a.complete h 0x0D ⟨0x0103, 0, 0, []⟩)) ∧
    (1 < h.target → exec (.fenAbort h g rnd) s = .next (a.complete h 0x0D ⟨0x0104, 0, 0, []⟩))) ∧
  (∀ (s : State) (h : CmdHdr) (g : Nat), s.takes h 0x0D06 true = true →
    let a := s.start h 0x0D06
    let base := (a.fenHist h.target g).round + (a.fenHist h.target g).status * 2 ^ 16
    (h.target ≤ 1 → a.fenRound h.target g = none → exec (.fenQuery h g) s = a.okFor h 0x0D base) ∧
    (h.target ≤ 1 → ∀ r, a.fenRound h.target g = some r → exec (.fenQuery h g) s =
      a.okFor h 0x0D (base + 2 ^ 24 + b2n r.pass * 2 ^ 25 + b2n r.tier1 * 2 ^ 26 + r.slots * 2 ^ 32)) ∧
    (1 < h.target → exec (.fenQuery h g) s = .next (a.complete h 0x0D ⟨0x0104, 0, 0, []⟩))) ∧
  (∀ (s : State) (die v : Nat), s.pwr.held = false → s.pageBusy (pg 0x0D die) = false → exec (.saltSeedLoad die v) s = .next
    (let u := s.wr (Reg.FADM_SALT_SEED die) (BitVec.ofNat 32 v)
    { u with fen := { u.fen with salts := Tbl.set u.fen.salts 0 die 0 } })) ∧
  (∀ (s : State) (n : Nat), s.pwr.held = false → s.pageBusy (pg 0x0C n) = false → exec (.fenCntClear n) s = .next (s.clearCnts (pg 0x0C n))) ∧
  (∀ (s : State) (die : Nat), s.pwr.held = false → s.pageBusy (pg 0x0D die) = false → exec (.fadmCntClear die) s = .next (s.clearCnts (pg 0x0D die)))

def Obligations.PeatRequestsComplete : Prop :=
  (∀ (s : State) (lp : Nat) (pkt : Pkt) (errs : List BeatErr) (c : Instr) (op : Nat), pkt.typ = 0x20 → s.frozen = false →
    (c, op) ∈ ([(.peatPut lp pkt errs, 1), (.peatGet lp pkt errs, 2), (.peatGather lp pkt errs, 3), (.peatAttend lp pkt errs, 4), (.peatPin lp pkt errs, 5),
      (.peatEvict lp pkt errs, 6), (.peatPromote lp pkt errs, 7), (.peatDemote lp pkt errs, 8)] : List (Instr × Nat)) →
    let mine := fun (q : Reasm) => q.src == pkt.src && q.msgId == pkt.msgId && q.gen == pkt.gen
    let held := match s.peat.reasm.find? mine with | some q => q.segs | none => []
    let keep := fun (t : State) (l : List Reasm) => t.setPeat fun x => { x with reasm := (s.peat.reasm.filter fun y => !mine y) ++ l }
    let u := s.takeFn lp pkt
    let q := s.peatReasm lp pkt
    let g := gather q.segs
    ((held.any fun x => x.offset == pkt.offset) = true → exec c s = .next u) ∧
    ((held.any fun x => x.offset == pkt.offset) = false →
      (s.peatStale pkt = true → exec c s = .next (held.foldl (fun t x => t.staleIn x.lport pkt) ((keep u []).staleIn lp pkt))) ∧
      (s.peatStale pkt = false → q.total ≠ some g.1 → exec c s = .next (keep u [q])) ∧
      (s.peatStale pkt = false → q.total = some g.1 → beAt 0 1 g.2.2 = op ∨ beAt 0 1 g.2.2 = 0 ∨ 8 < beAt 0 1 g.2.2 →
        exec c s = .next ((keep u []).peatServe lp pkt (g.2.2.take g.1) (g.2.1 != g.1)
          ((q.segs.filter (·.poison)).map fun x => (x.offset, x.offset + x.data.length)) errs)))) ∧
  (∀ (s : State) (lp : Nat) (pkt : Pkt) (m : List Byte) (badLen : Bool) (poison : List (Nat × Nat)) (errs : List BeatErr),
    let r := readReq m
    let outside := poison.any fun q => !(r.op == 1 && decide (r.dataAt ≤ q.1))
    let serves := fun (t : State) => s.peatServe lp pkt m badLen poison errs = t
    (s.partOf r.tenant = none →
      let n := s.inc Cnt.PEAT_REQUESTS
      let d := n.inc Cnt.PEAT_DENIED
      let may := n.peatOnline && (r.op != 4 || n.flag Reg.PEAT_STATUS Fld.PEAT_STATUS_ATTEND_OK)
      let no := fun (t : State) (status : Nat) => t.draw.2.peatRespond lp pkt (t.draw.1 % 256) r.op status 0 [] 0 [] false
      (may = false → serves (no n 0x10)) ∧
      (may = true → (poison.any fun q => decide (q.1 < 64)) = true → serves (no n 0x12)) ∧
      (may = true → (poison.any fun q => decide (q.1 < 64)) = false → serves (no d 0x11))) ∧
    (∀ p, s.partOf r.tenant = some p →
      let n := (s.inc Cnt.PEAT_REQUESTS).pmcEvent 0x20 0 p 1
      let d := n.inc Cnt.PEAT_DENIED
      let may := n.peatOnline && (r.op != 4 || n.flag Reg.PEAT_STATUS Fld.PEAT_STATUS_ATTEND_OK)
      let no := fun (t : State) (status : Nat) => t.peatRespond lp pkt (t.partGen p) r.op status 0 [] 0 [] false
      (may = false → serves (no n 0x10)) ∧
      (may = true → (poison.any fun q => decide (q.1 < 64)) = true → serves (no n 0x12)) ∧
      (may = true → (poison.any fun q => decide (q.1 < 64)) = false →
        (n.partMember p pkt.src = false → serves (no d 0x11)) ∧
        (n.partMember p pkt.src = true → badLen = true ∨ r.ok m = false ∨ outside = true → serves (no n 0x12)) ∧
        (n.partMember p pkt.src = true → badLen = false → r.ok m = true → outside = false →
          (n.peatResetting p = true → serves (n.peatLost lp pkt p r)) ∧
          (n.peatResetting p = false → errs.any (·.ue) = true → serves (((n.beatsSeen errs).peatReset p none).peatLost lp pkt p r)) ∧
          (n.peatResetting p = false → errs.any (·.ue) = false →
            let x := (n.beatsSeen errs).peatWork p r m fun k => poison.any fun q =>
              decide (q.1 < r.dataAt + 65536 * (k + 1)) && decide (r.dataAt + 65536 * k < q.2)
            let v := ((x.st.pmcEvent 0x21 0 p x.t2).pmcEvent 0x23 0 p (x.sts.filter (· == 1)).length).noteLevel p
            let status := if x.sts.all (· == 0) then 0 else 1
            (r.op ≠ 4 → serves (v.peatRespond lp pkt (v.partGen p) r.op status 0 x.sts x.t2 x.data false)) ∧
            (r.op = 4 →
              let y := attend ⟨r.rnd % 4, bit 2 r.rnd, r.g, r.qh, r.dh, r.nq, f32.decode r.scale⟩ r.fmt (m.drop r.dataAt) x.att
              let w := (v.inc Cnt.PEAT_ATTENDS).countMacs p ((x.att.map (·.tokens)).foldl (· + ·) 0 * r.nq * r.g * r.qh * 2 * r.dh)
              let z := w.wr Reg.PEAT_STICKY (w.rd Reg.PEAT_STICKY ||| BitVec.ofNat 32 y.2)
              serves (z.peatRespond lp pkt (z.partGen p) r.op status y.2 x.sts x.t2 y.1 false))))))) ∧
  (∀ (s : State) (src msgId gen : Nat), let mine := fun (q : Reasm) => q.src == src && q.msgId == msgId && q.gen == gen
    (s.peat.reasm.find? mine = none → exec (.peatReasmTimeout src msgId gen) s = .next s) ∧
    (∀ q, s.peat.reasm.find? mine = some q → s.frozen = false →
      let u := s.elapseToTick (q.since + usTicks (max 1 (s.fld Reg.PEAT_REASM Fld.PEAT_REASM_US)))
      exec (.peatReasmTimeout src msgId gen) s = .next (((u.inc Cnt.PEAT_REASM_DROP).logErr peatPg 0x0102 0 peatLoc).setPeat fun x => { x with
        reasm := x.reasm.filter fun y => !mine y })))

def Obligations.PeatRowsComplete : Prop :=
  (∀ (s : State) (h : CmdHdr) (c : Instr) (opcode : Nat), (∃ p ring ten grp f1 c1 f2 c2 base l en key off,
      (c, opcode) ∈ ([(.peatPartSet h p ring ten grp f1 c1 f2 c2 base l en, 0x0E01), (.peatPartReset h p, 0x0E02), (.peatLookup h p key, 0x0E03),
        (.peatSnapshot h p off, 0x0E04), (.peatUsage h p, 0x0E05)] : List (Instr × Nat))) →
    s.takes h opcode true = true → h.target ≠ 0 →
    let a := (s.start h opcode).draw
    exec c s = .next (a.2.complete h 0x0E ⟨a.1 % 65536, 0, 0, []⟩)) ∧
  (∀ (s : State) (h : CmdHdr) (p ring ten grp f1 c1 f2 c2 base l en : Nat), s.takes h 0x0E01 true = true → h.target = 0 →
    let a := s.start h 0x0E01
    let done := fun (r : Result) => exec (.peatPartSet h p ring ten grp f1 c1 f2 c2 base l en) s = r
    let holds := a.peat.owner.any fun o => o.2 / 2 ^ 32 == p
    let same := a.slotRange p 0 == (f1, c1) && a.slotRange p 1 == (f2, c2) && a.partTenant p == ten
    (a.tierReady 0 = false → done (.next (a.complete h 0x0E ⟨0x0102, 0, 0, []⟩))) ∧
    (a.tierReady 0 = true → a.partFits p f1 c1 f2 c2 base l = false → done (.next (a.complete h 0x0E ⟨0x0100, 0, 0, []⟩))) ∧
    (a.tierReady 0 = true → a.partFits p f1 c1 f2 c2 base l = true →
      (a.partOn p = true → holds = true → same = false → done (.next (a.complete h 0x0E ⟨0x0101, 0, 0, []⟩))) ∧
      (a.partOn p = false ∨ holds = false ∨ same = true →
        let u := (a.wr (Reg.PEAT_PART_CFG p) (BitVec.ofNat 32 (b2n (bit 0 en) * 2 ^ 31 + ring % 256 * 2 ^ 16 + ten % 2 ^ 16))).wr
          (Reg.PEAT_PART_ACCESS p) (BitVec.ofNat 32 (grp % 2 ^ 20))
        let v := (u.wr (Reg.PEAT_PART_T1_FIRST p) (BitVec.ofNat 32 (f1 % 2 ^ 25))).wr (Reg.PEAT_PART_T1_COUNT p) (BitVec.ofNat 32 (c1 % 2 ^ 25))
        let w := (v.wr (Reg.PEAT_PART_T2_FIRST p) (BitVec.ofNat 32 (f2 % 2 ^ 25))).wr (Reg.PEAT_PART_T2_COUNT p) (BitVec.ofNat 32 (c2 % 2 ^ 25))
        let x := w.wr (Reg.PEAT_PART_DIR p) (BitVec.ofNat 32 (l * 2 ^ 24 + base % 2 ^ 24))
        (a.partOn p = true → a.dirOff p 0 = 65536 * base → a.dirLog2 p = l → done (x.slotOpenClear.okFor h 0x0E)) ∧
        (a.partOn p = false ∨ a.dirOff p 0 ≠ 65536 * base ∨ a.dirLog2 p ≠ l →
          let y := (x.setPeat fun q => { q with owner := q.owner.filter fun o => o.2 / 2 ^ 32 != p, stash := q.stash.filter fun z => z.1 / 4 != p }).stashCount p
          (∀ t b n, y.regionOf 4 = some (t, b, n) → done ((y.tierZero t (b + y.dirOff p 0) (dirBytes l)).slotOpenClear.okFor h 0x0E)))))) ∧
  (∀ (s : State) (h : CmdHdr) (p : Nat), s.takes h 0x0E02 true = true → h.target = 0 → p ≤ 63 →
    let a := s.start h 0x0E02
    (a.flag (Reg.PEAT_PART_STATUS p) Fld.PEAT_PART_STATUS_RESETTING = false → exec (.peatPartReset h p) s = (a.peatResetNow p false).okFor h 0x0E) ∧
    (a.flag (Reg.PEAT_PART_STATUS p) Fld.PEAT_PART_STATUS_RESETTING = true →
      exec (.peatPartReset h p) s = .next (a.setPeat fun q => { q with resetWait := q.resetWait ++ [(p, some h)] }))) ∧
  (∀ (s : State) (h : CmdHdr) (c : Instr) (opcode p : Nat), (∃ key off,
      (c, opcode) ∈ ([(.peatPartReset h p, 0x0E02), (.peatLookup h p key, 0x0E03), (.peatSnapshot h p off, 0x0E04), (.peatUsage h p, 0x0E05)] : List (Instr × Nat))) →
    s.takes h opcode true = true → h.target = 0 → 63 < p → exec c s = .next ((s.start h opcode).complete h 0x0E ⟨0x0100, 0, 0, []⟩)) ∧
  (∀ (s : State) (h : CmdHdr) (p key : Nat), s.takes h 0x0E03 true = true → h.target = 0 → p ≤ 63 →
    let a := s.start h 0x0E03
    (a.tierReady 0 = false → exec (.peatLookup h p key) s = .next (a.complete h 0x0E ⟨0x0102, 0, 0, []⟩)) ∧
    (∀ i u, a.tierReady 0 = true → a.dirFind p key = (some i, u) → let e := u.dirEnt p i
      exec (.peatLookup h p key) s = u.okFor h 0x0E (2 ^ 63 + b2n (ePin e) * 2 ^ 62 + eTier e * 2 ^ 61 + eFmt e * 2 ^ 48 + eGen e * 2 ^ 40 + eLoc e)) ∧
    (∀ u, a.tierReady 0 = true → a.dirFind p key = (none, u) → exec (.peatLookup h p key) s = u.okFor h 0x0E)) ∧
  (∀ (s : State) (h : CmdHdr) (p off : Nat), s.takes h 0x0E04 true = true → h.target = 0 → p ≤ 63 →
    let a := s.start h 0x0E04
    let body := (a.liveEntries p).flatMap (leBytes 32)
    let len := 64 + body.length
    let bad := fun (st : Nat) => exec (.peatSnapshot h p off) s = .next (a.complete h 0x0E ⟨st, 0, 0, []⟩)
    (a.tierReady 0 = false → bad 0x0102) ∧
    (a.tierReady 0 = true → a.regionOf 6 = none → bad 0x0100) ∧
    (∀ t b n, a.tierReady 0 = true → a.regionOf 6 = some (t, b, n) →
      (off % 64 ≠ 0 ∨ n < off + len → bad 0x0100) ∧
      (off % 64 = 0 → off + len ≤ n →
        let hdr := leBytes 4 0x54414550 ++ leBytes 2 1 ++ leBytes 1 p ++ leBytes 1 (a.partGen p) ++ leBytes 4 (body.length / 32) ++ leBytes 4 0 ++
          leBytes 8 a.short ++ leBytes 4 (crc32c body) ++ leBytes 36 0
        let u := (a.regionWrite 6 off (hdr ++ body)).irq peatPg 5
        exec (.peatSnapshot h p off) s = (u.post (u.fld Reg.DEL_CTRL Fld.DEL_CTRL_EVENT_RING)
          ⟨5, 0x0E, 0, 0, 0, 0, none, u.short, 0, leBytes 8 off ++ leBytes 8 len ++ leBytes 20 0⟩).okFor h 0x0E))) ∧
  (∀ (s : State) (h : CmdHdr) (p : Nat), s.takes h 0x0E05 true = true → h.target = 0 → p ≤ 63 →
    let a := s.start h 0x0E05
    exec (.peatUsage h p) s = a.okFor h 0x0E (a.partUsed p 1 * 2 ^ 32 + a.partUsed p 0)) ∧
  (∀ (s : State) (chan : Option Nat) (parts : List Nat),
    let u := match chan with | some c => s.beatSeen ⟨c, true⟩ | none => s
    exec (.peatPartUe chan parts) s = .next ((parts.filter (decide <| · < 64)).foldl (fun t p => t.peatReset p none) u)) ∧
  (∀ (t : State) (p : Nat),
    (t.flag (Reg.PEAT_PART_STATUS p) Fld.PEAT_PART_STATUS_RESETTING = false → t.peatReset p none = t.peatResetNow p true) ∧
    (t.flag (Reg.PEAT_PART_STATUS p) Fld.PEAT_PART_STATUS_RESETTING = true →
      t.peatReset p none = t.setPeat fun q => { q with resetWait := q.resetWait ++ [(p, none)] })) ∧
  (∀ (s : State) (p : Nat),
    let u := (s.peatSweep p).setFlag (Reg.PEAT_PART_STATUS p) Fld.PEAT_PART_STATUS_RESETTING false
    (s.flag (Reg.PEAT_PART_STATUS p) Fld.PEAT_PART_STATUS_RESETTING = false → exec (.staleSweepDone p) s = .next s) ∧
    (s.flag (Reg.PEAT_PART_STATUS p) Fld.PEAT_PART_STATUS_RESETTING = true →
      (takeFirst (fun x => x.1 == p) u.peat.resetWait = none → exec (.staleSweepDone p) s = .next u) ∧
      (∀ x rest, takeFirst (fun x => x.1 == p) u.peat.resetWait = some (x, rest) →
        exec (.staleSweepDone p) s = .next ((u.setPeat fun q => { q with resetWait := rest }).peatReset p x.2)))) ∧
  (∀ (s : State) (p : Nat), let rate := s.fld Reg.PEAT_DEMOTE Fld.PEAT_DEMOTE_RATE
    s.partOn p = true → s.aboveHigh p = true ∨ (s.peat.demoting.contains p = true ∧ s.atLow p = false) → s.frozen = false → rate ≠ 0 →
    let u := s.elapseToTick (max s.peat.demoteAt (Tbl.getD s.peat.stopUntil 0 p))
    let n := (u.slotRange p 0).2
    let hand := Tbl.getD u.peat.hand 0 p
    let cand := ((List.range (min 64 n)).map fun i => (hand + i) % n).filterMap fun o =>
      (Tbl.find u.peat.owner (slotKey 0 ((u.slotRange p 0).1 + o))).bind fun w =>
        if ePin (u.dirEnt p ((w - 1) % 2 ^ 32)) then none else some ((u.slotRange p 0).1 + o, (w - 1) % 2 ^ 32)
    let v := u.setPeat fun q => { q with demoting := if q.demoting.contains p then q.demoting else q.demoting ++ [p] }
    (cand = [] ∨ v.slotFree 1 (v.slotRange p 1) = none → let w := (v.irq peatPg 4).levelReport 3 p
      exec (.autoDemote p) s = .next (w.setPeat fun q => { q with stopUntil := Tbl.put q.stopUntil p ((w.time.ticks / 781250 + 1) * 781250) })) ∧
    (∀ slot idx, (slot, idx) ∈ cand → (v.slotFree 1 (v.slotRange p 1)).isSome = true →
      let age := fun (i : Nat) => (v.useNow + 2 ^ 24 - eUse (v.dirEnt p i)) % 2 ^ 24
      (∀ c ∈ cand, c ≠ (slot, idx) → age c.2 < age idx ∨ (age c.2 = age idx ∧ slot < c.1)) →
      let w := ((v.peatMove p idx 1).2).inc Cnt.PEAT_AUTO_DEMOTES
      let x := w.setPeat fun q => { q with
        hand := Tbl.put q.hand p ((hand + min 64 n) % n), demoteAt := w.time.ticks + nsTicks (ceilDiv 655360 rate) }
      (x.atLow p = false → exec (.autoDemote p) s = .next (x.noteLevel p)) ∧
      (x.atLow p = true → exec (.autoDemote p) s = .next ((x.setPeat fun q => { q with demoting := q.demoting.filter (· != p) }).noteLevel p)))) ∧
  (∀ (s : State) (want : Nat), let u := s.nextSample 2
    let idle := 100 * u.fld Reg.PEAT_PMODEL Fld.PEAT_PMODEL_IDLE
    let full := 100 * u.fld Reg.PEAT_PMODEL Fld.PEAT_PMODEL_FULL
    let prev := max idle u.peat.power
    let up := u.fld Reg.PEAT_RAMP Fld.PEAT_RAMP_UP
    let down := u.fld Reg.PEAT_RAMP Fld.PEAT_RAMP_DOWN
    let asked := idle + full * want / 65536
    let limit := fun (p a : Nat) => if u.peatThrottled then min (p + up) (max idle (a - down)) else p + up
    let allow := limit prev u.peat.allow
    let fill := u.flag Reg.PEAT_CTRL Fld.PEAT_CTRL_FILL_EN && decide (min asked allow + down < prev)
    let p := if fill then prev - down else min asked allow
    let v := if prev + up < asked then u.inc Cnt.PEAT_RAMP_HOLD else u
    let w := if fill then v.inc Cnt.PEAT_FILL_INTERVALS else v
    exec (.peatPowerInterval want) s = .next (((w.setFld Reg.PEAT_POWER Fld.PEAT_POWER_EST (min 65535 (p / 100))).setFld Reg.PEAT_POWER
      Fld.PEAT_POWER_ALLOW (min 65535 (min (idle + full) (limit p allow) / 100))).setPeat fun q => { q with power := p, allow := allow })) ∧
  (∀ (s : State), s.pwr.held = false → s.pageBusy peatPg = false → exec .peatCntClear s = .next (s.clearCnts peatPg))

def Obligations.TierCompletes : Prop :=
  (∀ (s : State) (mask : Nat), s.peat.trained.1 = true → exec (.tier1Trained mask) s = .next s) ∧
  (∀ (s : State) (mask : Nat), s.peat.trained.1 = false →
    let t := s.setPeat fun q => { q with trained := (true, q.trained.2) }
    let u := (t.setFld Reg.TIER_STATUS Fld.TIER_STATUS_T1_TRAINED (mask % 256)).setFlag Reg.TIER_STATUS Fld.TIER_STATUS_T1_READY (mask % 256 == 255)
    let v := (List.range 8).foldl (fun s c => if bit c mask then s.setFlag (Reg.TIER_CH_STATUS (c + 1)) Fld.TIER_CH_STATUS_TRAINED true
      else s.logErr (chPg c) 0x0101 1 (locPage (chPg c))) u
    (mask % 256 = 255 → exec (.tier1Trained mask) s = .next ((v.stageDone.setFlag Reg.CFG_STATUS Fld.CFG_STATUS_TIER1 true).irq (pg 0x0F 0) 3)) ∧
    (mask % 256 ≠ 255 → exec (.tier1Trained mask) s = .next (v.irq (pg 0x0F 0) 3))) ∧
  (∀ (s : State) (present accepted trained : Nat), s.peat.trained.2 = true → exec (.tier2Trained present accepted trained) s = .next s) ∧
  (∀ (s : State) (present accepted trained : Nat), s.peat.trained.2 = false →
    let t := s.setPeat fun q => { q with trained := (q.trained.1, true) }
    let n := usedModules (present &&& accepted &&& trained)
    let u := (t.setFld Reg.TIER_STATUS Fld.TIER_STATUS_T2_ACCEPTED (present &&& accepted)).setFld Reg.TIER_STATUS Fld.TIER_STATUS_T2_TRAINED
      (present &&& accepted &&& trained)
    let v := (u.setFld Reg.TIER_STATUS Fld.TIER_STATUS_T2_MODULES n).setFlag Reg.TIER_STATUS Fld.TIER_STATUS_T2_READY (decide (0 < n))
    let w := (List.range 8).foldl (fun s c =>
      let x := (s.setFlag (Reg.TIER_CH_STATUS (c + 9)) Fld.TIER_CH_STATUS_PRESENT (bit c present)).setFlag (Reg.TIER_CH_STATUS (c + 9))
        Fld.TIER_CH_STATUS_TRAINED (bit c (present &&& accepted &&& trained))
      if bit c present && decide (n ≤ c) then x.logErr (chPg (c + 8)) 0x0102 1 (locPage (chPg (c + 8))) else x) v
    (0 < n → exec (.tier2Trained present accepted trained) s = .next ((w.stageDone.setFlag Reg.CFG_STATUS Fld.CFG_STATUS_TIER2 true).irq (pg 0x0F 0) 3)) ∧
    (n = 0 → exec (.tier2Trained present accepted trained) s = .next (w.irq (pg 0x0F 0) 3))) ∧
  (∀ (s : State) (ch idle : Nat) (rs : List TierReq), let u := s.setChan ch { s.chan ch with cyc := (s.chan ch).cyc + idle + 1 }
    exec (.tierGrant ch idle rs false) s = .next (u.inc (Cnt.TIER_CHAN_QUEUE_FULL (ch + 1)))) ∧
  (∀ (s : State) (ch idle : Nat) (rs : List TierReq), let u := s.setChan ch { s.chan ch with cyc := (s.chan ch).cyc + idle + 1 }
    let cand := rs.filter fun r => decide (Tbl.getD (u.chan ch).until_ 0 r.client ≤ (u.chan ch).cyc)
    let v := if cand.any fun r => r.client == 2 then u.setChan ch { u.chan ch with peatReq := (u.chan ch).peatReq + 1 } else u
    (v.chLocked ch = true → cand.find? (fun r => r.client == v.chOwner ch) = none → exec (.tierGrant ch idle rs true) s = .next v) ∧
    (∀ r, v.chLocked ch = true → cand.find? (fun r => r.client == v.chOwner ch) = some r → exec (.tierGrant ch idle rs true) s = .next (v.grantTier ch r)) ∧
    (v.chLocked ch = false → cand = [] → exec (.tierGrant ch idle rs true) s = .next v) ∧
    (∀ w, v.chLocked ch = false → w ∈ cand →
      (∀ r ∈ cand, r ≠ w → v.credit ch r.client < v.credit ch w.client ∨
        (v.credit ch r.client = v.credit ch w.client ∧ (w.client + 8 - v.chOffset ch) % 8 < (r.client + 8 - v.chOffset ch) % 8)) →
      exec (.tierGrant ch idle rs true) s =
        .next ((cand.filter fun r => r.client != w.client).foldl (fun t r => t.loseTier ch r.client) (v.grantTier ch w)))) ∧
  (∀ (s : State) (ch : Nat), let u := s.elapseToTick ((s.time.ticks / 512 + 1) * 512)
    let v := (List.range 8).foldl (fun s k =>
      let q : Int := (s.fld (Reg.TIER_ARB_WEIGHT (ch + 1) k) Fld.TIER_ARB_WEIGHT_WEIGHT * chanU ch : Nat)
      s.setCredit ch k (min (s.credit ch k + q) (2 * q))) u
    exec (.arbWindow ch) s = .next (v.setFld (Reg.TIER_CH_STATUS (ch + 1)) Fld.TIER_CH_STATUS_OFFSET ((v.chOffset ch + 1) % 8))) ∧
  (∀ (s : State) (ch : Nat), (s.chLocked ch = false → exec (.lockBreak ch) s = .next s) ∧
    (s.chLocked ch = true →
      let u := s.elapse 16
      let v := u.setChan ch { u.chan ch with cyc := (u.chan ch).cyc + 32, beats := 0 }
      let w := (v.setFlag (Reg.TIER_CH_STATUS (ch + 1)) Fld.TIER_CH_STATUS_LOCKED false).setFld (Reg.TIER_CH_STATUS (ch + 1)) Fld.TIER_CH_STATUS_LOCK_OWNER 0
      exec (.lockBreak ch) s = .next (((w.inc (Cnt.TIER_CHAN_LOCK_BREAKS (ch + 1))).irq (chPg ch) 3).logErr (chPg ch) 0x0104 0 (locPage (chPg ch))))) ∧
  (∀ (s : State) (res : EccRes) (parts : List Nat), s.flag Reg.TIER_CTRL Fld.TIER_CTRL_SCRUB_EN = false ∨ s.tierBytes 0 + s.tierBytes 1 = 0 →
    exec (.scrub res parts) s = .next s) ∧
  (∀ (s : State) (parts : List Nat), s.flag Reg.TIER_CTRL Fld.TIER_CTRL_SCRUB_EN = true → s.tierBytes 0 + s.tierBytes 1 ≠ 0 →
    let n := s.tierBytes 0 + s.tierBytes 1
    let at_ := s.peat.scrub % n
    let t := if at_ < s.tierBytes 0 then 0 else 1
    let a := if at_ < s.tierBytes 0 then at_ else at_ - s.tierBytes 0
    let c := s.chanOf t a
    let u := if n ≤ at_ + 64 then (s.setPeat fun q => { q with scrub := 0 }).inc Cnt.TIER_SCRUB_PASSES else s.setPeat fun q => { q with scrub := at_ + 64 }
    exec (.scrub .ok parts) s = .next u ∧
    exec (.scrub .corrected parts) s = .next (u.inc (Cnt.TIER_CHAN_CE (c + 1))) ∧
    exec (.scrub .uncorrectable parts) s = .next ((((u.inc (Cnt.TIER_CHAN_UE (c + 1))).irq (chPg c) 2).logErr (chPg c) 0x0100 2 (locPage (chPg c))).beatUe
      t a parts)) ∧
  (∀ (s : State), s.pwr.held = false → s.pageBusy (pg 0x0F 0) = false → exec .tierCntClear s = .next (s.clearCnts (pg 0x0F 0))) ∧
  (∀ (s : State) (ch : Nat), s.pwr.held = false → s.pageBusy (chPg ch) = false → exec (.tierChCntClear ch) s = .next (s.clearCnts (chPg ch)))

def Obligations.WindowsComplete : Prop :=
  (∀ (s : State) (fec : List FecCount), (s.running = none → exec (.windowOpen fec) s = .next s.openWindow) ∧
    (∀ w, s.running = some w →
      exec (.windowOpen fec) s = .next (((if w.aligned then s.elapseToDev (w.fin * 2 ^ 32) else s.elapseToTick w.fin).endWindow fec false).openWindow))) ∧
  (∀ (s : State), (s.del.wins = [] → exec .windowClose s = .next s) ∧
    (∀ w ws, s.del.wins = w :: ws →
      (w.ended = false ∨ s.frozen = true → exec .windowClose s = .next s) ∧
      (w.ended = true → s.frozen = false → exec .windowClose s = .next
        ((if w.aligned then s.elapseToDev (s.closeTime w * 2 ^ 32) else s.elapseToTick (s.closeTime w)).closeWin 0)))) ∧
  (∀ (s : State) (v : Nat), s.pwr.held = false → s.pageBusy delPg = false →
    let u := s.setFld Reg.DEL_WINDOW Fld.DEL_WINDOW_GRACE (bits 11 0 v)
    (v ≠ (s.rd Reg.DEL_WINDOW).toNat → s.pageLocked delPg = true → exec (.winUsWrite v) s = .next (s.logErr delPg 0x0002 0 (locPage delPg))) ∧
    (v = (s.rd Reg.DEL_WINDOW).toNat ∨ s.pageLocked delPg = false →
      (winUsOk (bits 31 12 v) = true → exec (.winUsWrite v) s = .next
        (let x := u.setFld Reg.DEL_WINDOW Fld.DEL_WINDOW_WIN_US (bits 31 12 v)
        x.setDel fun d => { d with winPending := if bits 31 12 v = d.winUs then none else some (bits 31 12 v, x.time.now / secUnits + 1) })) ∧
      (winUsOk (bits 31 12 v) = false → exec (.winUsWrite v) s = .next (u.logErr delPg 0x0102 0 (locBlock 0x10))))) ∧
  (∀ (s : State) (fec : List FecCount), (s.del.winPending = none → exec (.windowReconfig fec) s = .next s) ∧
    (∀ us sec, s.del.winPending = some (us, sec) →
      let u := (s.elapseToDev (sec * secUnits)).endWindow fec true
      let v := u.setDel fun d => { d with wins := d.wins.map fun w => { w with cutShort := true } }
      let x := (v.del.wins.foldl (fun t _ => t.closeWin 0) v).setDel fun d => { d with winUs := us, winPending := none }
      (u.del.wins = [] → exec (.windowReconfig fec) s = .next x) ∧
      (u.del.wins ≠ [] → exec (.windowReconfig fec) s = .next x.openWindow))) ∧
  (∀ (s : State) (lp : Nat) (p : Pkt), p.typ = 0x28 → let u := s.takeFn lp p
    (∀ r cs, u.fnReason (lp / 64 % 16) p = some (r, cs) → exec (.telem lp p) s = .next ((cs.foldl State.inc u).countReason lp r p)) ∧
    (u.fnReason (lp / 64 % 16) p = none →
      (pflag p fPoison = true → exec (.telem lp p) s = .next u) ∧
      (pflag p fPoison = false → p.payload.length = 0 ∨ p.payload.length % 64 ≠ 0 → exec (.telem lp p) s = .next (u.inc Cnt.DEL_BAD_RECORD)) ∧
      (pflag p fPoison = false → p.payload.length ≠ 0 → p.payload.length % 64 = 0 →
        ((recsOf p.payload).any recReserved = true → exec (.telem lp p) s = .next (u.countReason lp rReserved p)) ∧
        ((recsOf p.payload).any recReserved = false → exec (.telem lp p) s = .next ((recsOf p.payload).foldl State.judgeRec u))))) ∧
  (∀ (s : State) (k n : Nat), (Tbl.find s.del.segs k = none → exec (.segmentTimeout k) s = .next s ∧ exec (.segmentComplete k n) s = .next s) ∧
    (∀ g, Tbl.find s.del.segs k = some g →
      exec (.segmentTimeout k) s = .next
        ((s.elapseToTick (g.openedAt + usTicks (1000 * max 1 (s.fld Reg.DEL_ARCH_SEG Fld.DEL_ARCH_SEG_SEG_MAX_MS)))).segClose k) ∧
      (g.size < g.used + n → exec (.segmentComplete k n) s = .next (s.segClose k)) ∧
      (g.used + n ≤ g.size → exec (.segmentComplete k n) s = .next s))) ∧
  (∀ (s : State) (h : CmdHdr) (i set grp ops fl raw ex : Nat), s.takes h 0x1001 true = true →
    let a := s.start h 0x1001
    let d : DDesc := ⟨set, grp, ops, fl % 4, bit 2 fl, bit 7 fl, raw, ex⟩
    let others := a.del.descs.filter fun x => x.1 != i && x.2.enable
    let bad := fun (st : Nat) => exec (.delGroupSet h i set grp ops fl raw ex) s = .next (a.complete h 0x10 ⟨st, 0, 0, []⟩)
    (4096 ≤ i ∨ 2 ^ 20 ≤ grp ∨ (20 < raw ∧ raw ≠ 0xFF) ∨ bits 6 3 fl ≠ 0 ∨ h.target ≠ 0 → bad 0x0100) ∧
    (i < 4096 → grp < 2 ^ 20 → raw ≤ 20 ∨ raw = 0xFF → bits 6 3 fl = 0 → h.target = 0 →
      (d.enable = true → (others.any fun x => x.2.rgroup == grp && x.2.set == set) = true → bad 0x0101) ∧
      (d.enable = true → (others.any fun x => x.2.rgroup == grp && x.2.set == set) = false → d.sketches = true →
        256 ≤ (others.filter (·.2.sketches)).length → bad 0x0102) ∧
      ((d.enable = true → (others.any fun x => x.2.rgroup == grp && x.2.set == set) = false) →
        (d.enable = true → d.sketches = true → (others.filter (·.2.sketches)).length < 256) →
        exec (.delGroupSet h i set grp ops fl raw ex) s = (a.setDel fun q => { q with descs := Tbl.put q.descs i d }).okFor h 0x10))) ∧
  (∀ (s : State), s.pwr.held = false → s.pageBusy delPg = false → exec .delCntClear s = .next (s.clearCnts delPg))

def Obligations.FrostCompletes : Prop :=
  (∀ (s : State) (h : CmdHdr) (t m : Nat), s.takes h 0x1002 true = true →
    let a := s.start h 0x1002
    let bad := fun (st : Nat) => exec (.frostArm h t m) s = .next (a.complete h 0x10 ⟨st, 0, 0, []⟩)
    (1 < m → exec (.frostArm h t m) s = .next (a.draw.2.complete h 0x10 ⟨a.draw.1 % 65536, 0, 0, []⟩)) ∧
    (m ≤ 1 → fromShort t < a.time.now + 10000 * 2 ^ 32 → bad 0x0103) ∧
    (m ≤ 1 → a.time.now + 10000 * 2 ^ 32 ≤ fromShort t → a.frostState ≠ 0 → bad 0x0104) ∧
    (m ≤ 1 → a.time.now + 10000 * 2 ^ 32 ≤ fromShort t → a.frostState = 0 → a.timeState = 0 ∨ a.timeState = 1 → bad 0x0105) ∧
    (m ≤ 1 → a.time.now + 10000 * 2 ^ 32 ≤ fromShort t → a.frostState = 0 → a.timeState ≠ 0 → a.timeState ≠ 1 →
      let u := (a.setFrostState 1).setFld Reg.DEL_FROST_STATUS Fld.DEL_FROST_STATUS_MODE m
      let v := (u.wrWide Reg.DEL_FROST_TIME t 2).wrWide Reg.DEL_THAW_TIME 0 2
      exec (.frostArm h t m) s = (v.setDel fun d => { d with frostSrc := 0, epochAt := v.stepCount }).okFor h 0x10)) ∧
  (∀ (s : State) (h : CmdHdr) (tt : Nat), s.takes h 0x1003 true = true →
    let a := s.start h 0x1003
    let bad := fun (st : Nat) => exec (.thaw h tt) s = .next (a.complete h 0x10 ⟨st, 0, 0, []⟩)
    (fromShort tt < a.time.now + 2000 * 2 ^ 32 ∨ fromShort tt ≤ fromShort a.frostT → bad 0x0106) ∧
    (a.time.now + 2000 * 2 ^ 32 ≤ fromShort tt → fromShort a.frostT < fromShort tt →
      (a.frostState = 0 ∨ a.flag Reg.DEL_FROST_STATUS Fld.DEL_FROST_STATUS_MODE = false → bad 0x0107) ∧
      (a.frostState ≠ 0 → a.flag Reg.DEL_FROST_STATUS Fld.DEL_FROST_STATUS_MODE = true →
        exec (.thaw h tt) s = (a.wrWide Reg.DEL_THAW_TIME tt 2).okFor h 0x10))) ∧
  (∀ (s : State) (h : CmdHdr), s.takes h 0x1004 true = true →
    let a := s.start h 0x1004
    (a.frostState = 1 → exec (.frostCancel h) s = ((a.setFrostState 0).wrWide Reg.DEL_THAW_TIME 0 2).okFor h 0x10) ∧
    (a.frostState ≠ 1 → exec (.frostCancel h) s = a.okFor h 0x10)) ∧
  (∀ (s : State) (h : CmdHdr) (t : Nat), s.takes h 0x1005 true = true →
    let a := s.start h 0x1005
    (a.del.snapAt.isSome = true → exec (.snapshot h t) s = .next (a.complete h 0x10 ⟨0x0108, 0, 0, []⟩)) ∧
    (a.del.snapAt = none → fromShort t < a.time.now + 2000 * 2 ^ 32 →
      exec (.snapshot h t) s = .next (a.draw.2.complete h 0x10 ⟨a.draw.1 % 65536, 0, 0, []⟩)) ∧
    (a.del.snapAt = none → a.time.now + 2000 * 2 ^ 32 ≤ fromShort t → exec (.snapshot h t) s =
      (a.setDel fun d => { d with snapAt := some t, epochAt := if a.frostState = 1 then d.epochAt else a.stepCount }).okFor h 0x10)) ∧
  (∀ (s : State) (h : CmdHdr) (off sel : Nat), s.takes h 0x1006 true = true →
    let a := s.start h 0x1006
    let lp := off % 65536
    let bad := exec (.delSnapRead h off sel) s = .next (a.complete h 0x10 ⟨0x0109, 0, 0, []⟩)
    (1 < sel → exec (.delSnapRead h off sel) s = .next (a.draw.2.complete h 0x10 ⟨a.draw.1 % 65536, 0, 0, []⟩)) ∧
    (sel = 1 → 1024 ≤ lp ∨ a.snapValid (pg 4 (lpTile lp)) = false → bad) ∧
    (sel = 1 → lp < 1024 → a.snapValid (pg 4 (lpTile lp)) = true → exec (.delSnapRead h off sel) s = a.okFor h 0x10 (Tbl.getD a.del.snapLinks 0 lp)) ∧
    (sel = 0 → hasSnap off = false ∨ a.snapValid (off / 4096) = false → bad) ∧
    (sel = 0 → hasSnap off = true → a.snapValid (off / 4096) = true → exec (.delSnapRead h off sel) s = a.okFor h 0x10 (Tbl.getD a.del.snaps 0 off))) ∧
  (∀ (s : State), s.frostState ≠ 1 → s.del.snapAt = none → exec .frostLatch s = .next s) ∧
  (∀ (s : State) (t : Nat),
    (s.frostState = 1 ∧ t = s.frostT ∧ ∀ b, s.del.snapAt = some b → fromShort t ≤ fromShort b) ∨
      (s.del.snapAt = some t ∧ (s.frostState = 1 → fromShort t < fromShort s.frostT)) →
    let u := s.elapseToDev (fromShort t + 1)
    let stepped := s.stepCount != s.del.epochAt && decide (fromShort t < s.time.now)
    let snap := match u.del.snapAt with | some b => decide (fromShort b < u.time.now) | none => false
    (s.frostState = 1 → fromShort s.frostT < u.time.now → exec .frostLatch s = .next (u.latch u.frostT true snap stepped)) ∧
    (s.frostState ≠ 1 ∨ u.time.now ≤ fromShort s.frostT → exec .frostLatch s = .next (u.latch t false snap stepped))) ∧
  (∀ (s : State), (s.del.outUntil = none → exec .frostOutEnd s = .next s) ∧
    (∀ t, s.del.outUntil = some t →
      exec .frostOutEnd s = .next (((s.elapseToTick t).emit (.pin 8 false)).setDel fun d => { d with outUntil := none }))) ∧
  (∀ (s : State), let tt := s.frozen = true ∧ s.thawT ≠ 0 ∧ fromShort s.thawT ≤ s.autoThawAt
    (tt → exec .thawTime s = .next (((s.elapseToDev (fromShort s.thawT)).inc Cnt.DEL_FROST_THAWS).thaw 2)) ∧
    (¬ tt → exec .thawTime s = .next s) ∧
    (s.frozen = true → ¬ tt → exec .autoThaw s = .next
      ((((s.elapseToDev s.autoThawAt).inc Cnt.DEL_FROST_AUTO_THAWS).logErr delPg1 0x0101 0 (locBlock 0x10)).thaw 3)) ∧
    (s.frozen = false ∨ tt → exec .autoThaw s = .next s)) ∧
  (∀ (s : State), (s.del.images = [] → exec .frostImage s = .next s) ∧
    (∀ im rest, s.del.images = im :: rest → exec .frostImage s = .next
      (((s.setDel fun d => { d with images := rest }).archive 5 im 0 (leAt 10 1 im % 2 == 1)).segClose 5))) ∧
  (∀ (s : State) (lvl : Bool) (e : Nat), let u := s.elapseToDev (e * 65536 + 20 * 2 ^ 32)
    let act := lvl != u.flag Reg.DEL_FIN_CTRL Fld.DEL_FIN_CTRL_POLARITY
    let v := u.setDel fun d => { d with fin := { u.del.fin with active := true, since := u.time.ticks - nsTicks 20 } }
    let live := v.flag Reg.DEL_FIN_CTRL Fld.DEL_FIN_CTRL_ENABLE && !v.flag Reg.DEL_FIN_STATUS Fld.DEL_FIN_STATUS_STUCK
    let quiet := match u.del.fin.lastEvent with | some x => decide (v.time.ticks < x + usTicks 100) | none => false
    let ignore := quiet = true ∨ v.frostState ≠ 0 ∨ v.timeState = 0 ∨ v.timeState = 1
    (u.del.fin.active = act → exec (.frostInEdge lvl e) s = .next u) ∧
    (u.del.fin.active = true → act = false → exec (.frostInEdge lvl e) s =
      .next ((u.setDel fun d => { d with fin := { u.del.fin with active := false } }).setFld Reg.DEL_FIN_STATUS Fld.DEL_FIN_STATUS_STUCK 0)) ∧
    (u.del.fin.active = false → act = true →
      (live = false → exec (.frostInEdge lvl e) s = .next v) ∧
      (live = true → ignore → exec (.frostInEdge lvl e) s = .next (v.addFld Reg.DEL_FIN_STATUS Fld.DEL_FIN_STATUS_IGNORED 1)) ∧
      (live = true → ¬ ignore →
        let w := v.setDel fun d => { d with fin := { v.del.fin with lastEvent := some v.time.ticks } }
        let x := (w.wrWide Reg.DEL_FIN_CAPT (shortForm (e * 65536)) 2).setFld Reg.DEL_FIN_STATUS Fld.DEL_FIN_STATUS_CAPTURED 1
        let due := e + max 2 (x.fld Reg.DEL_FIN_CTRL Fld.DEL_FIN_CTRL_DELAY_US) * 1000 * 65536
        let al := x.fld Reg.DEL_FIN_CTRL Fld.DEL_FIN_CTRL_ALIGN_US * 1000 * 65536
        exec (.frostInEdge lvl e) s = .next (x.armFrost (shortForm ((if al = 0 then due else ceilDiv due al * al) * 65536))
          (x.fld Reg.DEL_FROST_CTRL Fld.DEL_FROST_CTRL_IN_MODE) 1)))) ∧
  (∀ (s : State), let on := s.del.fin.active && s.flag Reg.DEL_FIN_CTRL Fld.DEL_FIN_CTRL_ENABLE && !s.flag Reg.DEL_FIN_STATUS Fld.DEL_FIN_STATUS_STUCK
    let u := s.elapseToTick (s.del.fin.since + usTicks 10000)
    (on = true → exec .frostInStuck s =
      .next (((u.setFld Reg.DEL_FIN_STATUS Fld.DEL_FIN_STATUS_STUCK 1).irq delPg1 4).logErr delPg1 0x0100 0 (locBlock 0x10))) ∧
    (on = false → exec .frostInStuck s = .next s)) ∧
  (∀ (s : State), s.pwr.held = false → s.pageBusy delPg1 = false → exec .delFrostCntClear s = .next (s.clearCnts delPg1))

def Obligations.TraceCompletes : Prop :=
  (∀ (s : State), s.pwr.held = false → s.pageBusy delPg1 = false →
    (s.traceState = 0 ∨ s.traceState = 3 → exec .traceArm s = .next
      (((s.setTrace { s.del.trace with ring := [], post := 0, pre := 0, spilled := false, dropped := false, due := false }).setFld Reg.DEL_TRACE_STATUS
        Fld.DEL_TRACE_STATUS_STATE 1).setFld Reg.DEL_TRACE_STATUS Fld.DEL_TRACE_STATUS_FULL 0)) ∧
    (s.traceState ≠ 0 → s.traceState ≠ 3 → exec .traceArm s = .next s) ∧
    (s.traceState = 1 → exec .traceTrigger s = .next
      (({ s with free := s.free + 2 }).traceFire (Config.freeNat s.free % 256) (Config.freeNat (s.free + 1) % 65536) none)) ∧
    (s.traceState ≠ 1 → exec .traceTrigger s = .next s) ∧
    (∀ m, exec (.traceMark m) s = .next (s.trace 7 (m % 65536) 0 0x10 1 (leBytes 14 (m / 65536))))) ∧
  (∀ (s : State),
    (s.capturing = true → s.tracePosts ≤ s.del.trace.post → exec .traceCaptureEnd s = .next (s.traceEnd false)) ∧
    (s.capturing = true → s.del.trace.post < s.tracePosts → s.traceFull = true → exec .traceCaptureEnd s = .next (s.traceEnd true)) ∧
    (s.capturing = false ∨ (s.del.trace.post < s.tracePosts ∧ s.traceFull = false) → exec .traceCaptureEnd s = .next s))

def Obligations.FencesComplete : Prop :=
  (∀ (s : State), s.baro.closed = [] → exec .baroEvaluation s = .next s) ∧
  (∀ (s : State) (c : Closed) (rest : List Closed), s.baro.closed = c :: rest →
    let u := (s.setBaro fun b => { b with closed := rest, lastWin := c.index }).inc Cnt.BARO_EVALUATIONS
    let late := u.stragglers c
    let t : Tbl Nat := late.foldl (fun t x => Tbl.upd t 0 (32 * objEndpoint x.1 + 14) (· + 1)) (winInputs c)
    let objs := ((u.baro.score.map fun (x : Nat × Nat) => x.1) ++ (t.map fun (x : Nat × Nat) => x.1 / 32)).eraseDups.mergeSort (fun a b => decide (a ≤ b))
    let v := late.foldl (fun s x => s.squall 0x10 7 (objEndpoint x.1) (s.score (objEndpoint x.1)) x.2.1 x.2.2) (u.scoreAll t objs).2
    let w := (u.scoreAll t objs).1.foldl (fun s x => s.squall (if objKind x.1 = 0 then 0x10 else 0x11) 8 x.1 (s.score x.1) (ofSigned 32 x.2) 0) v
    let x := w.watchAll objs
    let y := x.2.blameKind 4 x.1 []
    let z := y.2.blameKind 2 x.1 y.1
    let fresh := if z.1.isEmpty then x.1 else (z.2.baro.watch.filter fun (q : Nat × Nat) => q.2 == z.2.time.ticks + 1).map (·.1)
    exec .baroEvaluation s = .next ((((((z.2.blameKind 1 fresh []).2).blameKind 6 fresh []).2).crossings objs).heldStep.levelStep c)) ∧
  (∀ (s : State), s.baro.decided = [] → exec .fenceCommit s = .next s) ∧
  (∀ (s : State) (o reason : Nat) (rest : List (Nat × Nat)), s.baro.decided = (o, reason) :: rest →
    let u := s.setBaro fun b => { b with decided := rest }
    (u.isFenced o = true → exec .fenceCommit s = .next u) ∧
    (u.isFenced o = false → u.freeFence = none → exec .fenceCommit s = .next ((u.holdObj o).2.listFull)) ∧
    (∀ k, u.isFenced o = false → u.freeFence = some k → exec .fenceCommit s = .next
      (((u.setBaro fun b => { b with budget := u.time.ticks :: b.budget.take 255 }).addFence k o reason none 0).tellPeers 3 reason o))) ∧
  (∀ (s : State) (o : Nat), (Tbl.find s.baro.shield o = none → exec (.shieldEnd o) s = .next s) ∧
    (∀ stop by_, Tbl.find s.baro.shield o = some (stop, by_) →
      let u := (s.elapseToTick stop).setBaro fun b => { b with shield := Tbl.del b.shield o, watch := Tbl.del b.watch o, crossed := Tbl.del b.crossed o }
      exec (.shieldEnd o) s = .next ((u.watchStep o).2.crossings [o]))) ∧
  (∀ (s : State), let u := s.draw.2.logErr baroPg 0x0100 1 (locBlock 0x11)
    exec .fenceCopyUe s = .next (u.setBaro fun b => { b with repairAt := s.time.ticks + s.draw.1 % (usTicks 10 + 1) })) ∧
  (∀ (s : State) (h : CmdHdr) (obj key prop grp : Nat), s.takes h 0x1101 true = true →
    let a := s.start h 0x1101
    let bad := fun (st : Nat) => exec (.fenceAdd h obj key prop grp) s = .next (a.complete h 0x11 ⟨st, 0, 0, []⟩)
    (a.cmdObj obj key = none → bad 0x0102) ∧
    (∀ o, a.cmdObj obj key = some o →
      (a.isFenced o = true → exec (.fenceAdd h obj key prop grp) s = a.okFor h 0x11 a.fenceEpoch) ∧
      (a.isFenced o = false → a.freeFence = none → bad 0x0100) ∧
      (∀ k, a.isFenced o = false → a.freeFence = some k →
        let u := a.addFence k o 3 none grp
        let v := if prop = 1 then u.tellPeers 3 3 o else u
        exec (.fenceAdd h obj key prop grp) s = v.okFor h 0x11 v.fenceEpoch))) ∧
  (∀ (s : State) (h : CmdHdr) (obj key prop : Nat), s.takes h 0x1102 true = true →
    let a := s.start h 0x1102
    let bad := fun (st : Nat) => exec (.fenceClear h obj key prop) s = .next (a.complete h 0x11 ⟨st, 0, 0, []⟩)
    (a.cmdObj obj key = none → bad 0x0102) ∧
    (∀ o, a.cmdObj obj key = some o →
      (a.fenceOf o = none → bad 0x0101) ∧
      (∀ k e, a.fenceOf o = some (k, e) →
        let u := a.removeFence k o 3 0
        let v := ((o :: Tbl.getD u.baro.shielded [] o).foldl (fun s x => s.scoreZero x) u).setBaro fun b => { b with
          held := b.held.filter (· != o), shielded := Tbl.del b.shielded o, decided := b.decided.filter (·.1 != o) }
        let w := if prop = 1 then v.tellPeers 4 3 o else v
        exec (.fenceClear h obj key prop) s = w.okFor h 0x11 w.fenceEpoch))) ∧
  (∀ (s : State) (h : CmdHdr) (i : Nat), s.takes h 0x1103 true = true →
    let a := s.start h 0x1103
    (i < 4096 → exec (.fenceRead h i) s = a.okFor h 0x11 (Tbl.getD a.fences 0 i)) ∧
    (4096 ≤ i → exec (.fenceRead h i) s = .next (a.complete h 0x11 ⟨0x0102, 0, 0, []⟩))) ∧
  (∀ (s : State) (h : CmdHdr) (o : Nat), s.takes h 0x1104 true = true →
    let a := s.start h 0x1104
    (a.objOk o = true → exec (.holdClear h o) s = ((if a.isHeld o then (a.setBaro fun b => { b with
      held := b.held.filter (· != o) }).squallOf 0xC o 0 0 else a).scoreZero o).okFor h 0x11) ∧
    (a.objOk o = false → exec (.holdClear h o) s = .next (a.complete h 0x11 ⟨0x0102, 0, 0, []⟩))) ∧
  (∀ (s : State) (h : CmdHdr) (o : Nat), s.takes h 0x1105 true = true →
    let a := s.start h 0x1105
    (a.objOk o = true → exec (.scoreRead h o) s = a.okFor h 0x11
      (b2n (a.inWatch o) * 2 ^ 63 + b2n (a.isHeld o) * 2 ^ 62 + b2n (a.isShielded o) * 2 ^ 61 + b2n (a.isFenced o) * 2 ^ 60 + a.score o)) ∧
    (a.objOk o = false → exec (.scoreRead h o) s = .next (a.complete h 0x11 ⟨0x0102, 0, 0, []⟩))) ∧
  (∀ (s : State) (h : CmdHdr) (o : Nat), s.takes h 0x1106 true = true →
    let a := s.start h 0x1106
    (a.objOk o = true → exec (.scoreReset h o) s = (a.scoreZero o).okFor h 0x11) ∧
    (a.objOk o = false → exec (.scoreReset h o) s = .next (a.complete h 0x11 ⟨0x0102, 0, 0, []⟩))) ∧
  (∀ (s : State), s.pwr.held = false → s.pageBusy baroPg = false → exec .baroCntClear s = .next (s.clearCnts baroPg))

def Obligations.PeersComplete : Prop :=
  (∀ (s : State) (lp : Nat) (p : Pkt) (c : Instr) (kind : Nat), p.typ = 0x32 → beAt 0 1 p.payload = kind →
    (c, kind) ∈ ([(.peerFenceRx lp p, 3), (.peerUnfenceRx lp p, 4), (.fenceAckRx lp p, 5)] : List (Instr × Nat)) →
    let u := s.takeFn lp p
    let origin := beAt 16 4 p.payload
    let seq := beAt 12 4 p.payload
    let peer := pflag p fSrcSpine && feidPlane origin == u.plane && spineIdx origin != u.spine
    let whole := p.payload.length == 64 && beAt 3 1 p.payload == 0 && allZero (p.payload.drop 34)
    (pflag p fPoison = true → exec c s = .next u) ∧
    (pflag p fPoison = false → peer = false → exec c s = .next (u.inc Cnt.BARO_BAD_FENCE)) ∧
    (pflag p fPoison = false → peer = true → whole = false → exec c s = .next (u.inc (reasonCnt lp rReserved))) ∧
    (pflag p fPoison = false → peer = true → whole = true → kind = 5 → exec c s = .next (u.setBaro fun b => { b with
      peers := b.peers.filter fun m => !(m.dst == spineIdx origin && m.seq == seq) })) ∧
    (pflag p fPoison = false → peer = true → whole = true → kind ≠ 5 → seq < Tbl.getD u.baro.applied 0 (origin / 4096) →
      exec c s = .next (u.fenceAck lp p seq)) ∧
    (pflag p fPoison = false → peer = true → whole = true → Tbl.getD u.baro.applied 0 (origin / 4096) ≤ seq →
      let v := u.setBaro fun b => { b with applied := Tbl.put b.applied (origin / 4096) (seq + 1) }
      let done := fun (t : State) => exec c s = .next (t.fenceAck lp p seq)
      (kind ≠ 5 → v.packetObj p.payload = none → done v) ∧
      (∀ o, kind = 3 → v.packetObj p.payload = some o →
        (v.isFenced o = true → done v) ∧
        (v.isFenced o = false → v.freeFence = none → done v.listFull) ∧
        (∀ k, v.isFenced o = false → v.freeFence = some k → done ((v.inc Cnt.BARO_PEER_FENCES).addFence k o 4 (some origin) 0))) ∧
      (∀ o, kind = 4 → v.packetObj p.payload = some o →
        (v.fenceOf o = none → done v) ∧
        (∀ k e, v.fenceOf o = some (k, e) →
          (bit 61 e = true → Tbl.find v.baro.origin k = some origin → done (v.removeFence k o 4 0)) ∧
          (bit 61 e = false ∨ Tbl.find v.baro.origin k ≠ some origin → done v))))) ∧
  (∀ (s : State) (dst seq : Nat), let mine := fun (m : PeerMsg) => m.dst == dst && m.seq == seq
    (takeFirst mine s.baro.peers = none → exec (.peerFenceResend dst seq) s = .next s) ∧
    (∀ m rest, takeFirst mine s.baro.peers = some (m, rest) →
      let u := s.elapseToTick (m.sentAt + usTicks 2000)
      let again : PeerMsg := { m with tries := m.tries + 1, sentAt := u.time.ticks }
      (m.tries < 3 → exec (.peerFenceResend dst seq) s = .next ((u.setBaro fun b => { b with peers := rest ++ [again] }).sendPeer again)) ∧
      (3 ≤ m.tries → exec (.peerFenceResend dst seq) s = .next
        (((u.setBaro fun b => { b with peers := rest }).logErr baroPg 0x0102 0 (locBlock 0x11)).irq baroPg 5))))

def Obligations.CheckerCompletes : Prop :=
  (∀ (s : State) (h : CmdHdr) (u step : Nat), s.takes h 0x1201 true = true →
    let a := s.start h 0x1201
    let bad := fun (st : Nat) => exec (.chkMargin h u step) s = .next (a.complete h 0x12 ⟨st, 0, 0, []⟩)
    (unitKind u = none → bad 0x0100) ∧
    (∀ k, unitKind u = some k →
      (hasStep k step = false → bad 0x0101) ∧
      (hasStep k step = true → a.marginStep u = 5 → bad 0x0102) ∧
      (hasStep k step = true → a.marginStep u ≠ 5 →
        exec (.chkMargin h u step) s = (((a.setStep u step).setPending u false).inc Cnt.CHK_MARGIN_STEPS).okFor h 0x12))) ∧
  (∀ (s : State) (h : CmdHdr) (u : Nat), s.takes h 0x1202 true = true →
    let a := s.start h 0x1202
    let runs := match a.iftOf u with | some t => t.running | none => false
    let done := fun (t : State) => exec (.chkReturn h u) s = .next t
    (testable u = false → done (a.complete h 0x12 ⟨0x0100, 0, 0, []⟩)) ∧
    (testable u = true → runs = true → done (a.complete h 0x12 ⟨0x0104, 0, 0, []⟩)) ∧
    (testable u = true → runs = false → a.marginStep u ≠ 5 → a.chk.macOut.contains u = false →
      done (a.draw.2.complete h 0x12 ⟨a.draw.1 % 65536, 0, 0, []⟩)) ∧
    (testable u = true → runs = false → a.marginStep u = 5 ∨ a.chk.macOut.contains u = true →
      done ((a.putTest ⟨u, some h, true, a.time.ticks, true, false, false, false⟩).inc Cnt.CHK_IFT_RUN))) ∧
  (∀ (s : State) (h : CmdHdr) (u : Nat), s.takes h 0x1203 true = true →
    let a := s.start h 0x1203
    let busy := match a.iftOf u with | some t => t.running || t.hdr.isSome | none => false
    (testable u = false → exec (.iftRun h u) s = .next (a.complete h 0x12 ⟨0x0100, 0, 0, []⟩)) ∧
    (testable u = true → busy = true → exec (.iftRun h u) s = .next (a.complete h 0x12 ⟨0x0104, 0, 0, []⟩)) ∧
    (testable u = true → busy = false → exec (.iftRun h u) s = .next (a.startIft u (some h) false))) ∧
  (∀ (s : State) (u : Nat), testable u = false → exec (.iftSchedule u) s = .next s) ∧
  (∀ (s : State) (u : Nat), testable u = true →
    let other := s.chk.tests.any fun t => t.unit != u && unitKind t.unit == unitKind u
    (s.iftOf u = none →
      (s.flag Reg.CHK_CTRL Fld.CHK_CTRL_IFT_EN = true → other = false → s.marginStep u ≠ 5 → exec (.iftSchedule u) s = .next (s.startIft u none false)) ∧
      (s.flag Reg.CHK_CTRL Fld.CHK_CTRL_IFT_EN = false ∨ other = true ∨ s.marginStep u = 5 → exec (.iftSchedule u) s = .next s)) ∧
    (∀ t, s.iftOf u = some t →
      (t.running = false → s.standInFree u = true → exec (.iftSchedule u) s = .next (s.startIft u t.hdr t.isReturn)) ∧
      (t.running = true ∨ s.standInFree u = false → exec (.iftSchedule u) s = .next s))) ∧
  (∀ (s : State) (u : Nat), (s.iftOf u = none → exec (.iftWaitExpiry u) s = .next s) ∧
    (∀ t, s.iftOf u = some t →
      (t.running = true → exec (.iftWaitExpiry u) s = .next s) ∧
      (t.running = false →
        let v := s.elapseToTick (t.since + usTicks (60000000 * max 1 (s.fld Reg.CHK_IFT_CFG Fld.CHK_IFT_CFG_WAIT_MIN)))
        let began := fun (w : State) => w.putTest { t with since := w.time.ticks, running := true, standIn := false, throttled := true, drain := w.mustDrain u }
        let run := fun (w : State) =>
          exec (.iftWaitExpiry u) s = .next ((((began w).inc Cnt.CHK_IFT_RUN).inc Cnt.CHK_IFT_THROTTLED).logErr chkPg 0x0103 0 (unitLoc u))
        (∀ d l, unitKind u = some .fen → v.servedBy (u - 64) = some (d, l) → run (v.timeShare d l)) ∧
        (unitKind u ≠ some .fen ∨ v.servedBy (u - 64) = none → run v)))) ∧
  (∀ (s : State) (u : Nat) (pass : Bool), (s.iftOf u = none → exec (.iftComplete u pass) s = .next s) ∧
    (∀ t, s.iftOf u = some t →
      (t.running = false ∨ t.drain = true → exec (.iftComplete u pass) s = .next s) ∧
      (t.running = true → t.drain = false →
        let v := ((s.elapseToTick (t.since + usTicks (testUs u))).dropTest u).iftResult u (if pass then 1 else 2)
        let w := if pass then (if t.isReturn then v.returned u else v.testPassed t) else v.testFailed t
        let x := if unitKind u = some .fen then w.endSharing ((u - 64) / 17) else w
        (t.hdr = none → exec (.iftComplete u pass) s = .next x) ∧
        (∀ h, t.hdr = some h → t.isReturn = true →
          exec (.iftComplete u pass) s = .next (x.complete h 0x12 ⟨if pass then 0 else 0x0103, 0, 0, []⟩)) ∧
        (∀ h, t.hdr = some h → t.isReturn = false → exec (.iftComplete u pass) s = x.okFor h 0x12 (b2n pass))))) ∧
  (∀ (s : State) (n : Nat), let u := (s.leaveWork n).endSharing (n / 17)
    (s.holdsChunk n = true → exec (.handoverDrained n) s = .next s) ∧
    (s.holdsChunk n = false →
      (u.iftOf (unitFen n) = none → exec (.handoverDrained n) s = .next u) ∧
      (∀ t, u.iftOf (unitFen n) = some t →
        (t.running = false ∨ t.drain = false → exec (.handoverDrained n) s = .next u) ∧
        (t.running = true → t.drain = true → exec (.handoverDrained n) s = .next (u.setTest { t with drain := false, since := u.time.ticks }))))) ∧
  (∀ (s : State) (u : Nat), let due := testable u && s.flag (Reg.CHK_MARGIN u) Fld.CHK_MARGIN_PENDING && s.spareFree u && s.pendingFirst u
    (due = true → exec (.pendingSubstitution u) s = .next (s.retireUnit u)) ∧ (due = false → exec (.pendingSubstitution u) s = .next s)) ∧
  (∀ (s : State) (row col : Nat), let u := s.charge (objUnit (unitMac row col)) 20 1
    (u.inService (unitMac row col) = false → exec (.macTileUe row col) s = .next u) ∧
    (u.inService (unitMac row col) = true →
      (u.rowFree (unitMac row col) = true → exec (.macTileUe row col) s = .next (u.retireMac (unitMac row col))) ∧
      (u.rowFree (unitMac row col) = false → exec (.macTileUe row col) s = .next (({ u with chk := { u.chk with
        macOut := if u.chk.macOut.contains (unitMac row col) then u.chk.macOut else u.chk.macOut ++ [unitMac row col] } }).setFlag
        Reg.PEAT_STATUS Fld.PEAT_STATUS_ATTEND_OK false)))) ∧
  (∀ (s : State) (k chan : Nat), exec (.erganMemError (some k) chan) s = .next
    (((s.logErr chkPg 0x0104 2 (unitLoc (unitCore k))).charge (objUnit (unitCore k)) 20 1).retireCore (unitCore k) true)) ∧
  (∀ (s : State) (chan : Nat), let u := s.beatSeen ⟨chan, true⟩
    let v := u.draw.2.draw
    let w := v.2.setReload (v.2.time.ticks + v.1 % (usTicks 10000 + 1))
    exec (.erganMemError none chan) s = .next (w.logErr chkPg 0x0104 2 (2 * 2 ^ 14 + u.draw.1 % 2 ^ 14))) ∧
  (∀ (s : State), s.pwr.held = false → s.pageBusy chkPg = false → exec .chkCntClear s = .next (s.clearCnts chkPg))

def Obligations.CountersAndMireComplete : Prop :=
  (∀ (s : State) (k v : Nat), s.pwr.held = false → s.pageBusy (pg 0x13 1) = false →
    (s.slotAllowed k v = true → exec (.pmcSlotCfgWrite k v) s = .next
      (({ s with cnts := Tbl.del s.cnts (Cnt.PMC_SLOT_CNT k) }).wrWide (Reg.PMC_SLOT_CFG k) (withBits 27 0 0 v % 2 ^ 64) 2)) ∧
    (s.slotAllowed k v = false → exec (.pmcSlotCfgWrite k v) s = .next
      (((s.setFlag Reg.PMC_STATUS Fld.PMC_STATUS_SLOT_REFUSED true).irq pmcPg 4).logErr pmcPg 0x0101 0 pmcLoc))) ∧
  (∀ (s : State) (v : Nat), s.pwr.held = false → s.pageBusy pmcPg = false →
    let u := (s.setFld Reg.PMC_CTRL Fld.PMC_CTRL_TAG_SEED (bits 31 16 v)).setPmc fun p => { p with tagDraws := 0 }
    exec (.tagSeedLoad v) s = .next (if bit 0 v then u.clearCnts pmcPg else u)) ∧
  (∀ (s : State) (v : Nat), s.pwr.held = false → s.pageBusy pmcPg = false →
    exec (.pmcCntClear v) s = .next ((((s.setFld Reg.PMC_CTRL Fld.PMC_CTRL_TAG_SEED (v % 65536)).setPmc fun p => { p with tagDraws := 0 })).clearCnts pmcPg)) ∧
  (∀ (s : State) (h : CmdHdr) (off n : Nat), s.takes h 0x1301 true = true →
    let a := s.start h 0x1301
    (off % 64 = 0 → exec (.pmcTagCopy h off n) s =
      ((a.setPmc fun p => { p with tags := p.tags.drop n }).regionWrite 1 off (a.pmc.tags.take n).flatten).okFor h 0x13 (a.pmc.tags.take n).length) ∧
    (off % 64 ≠ 0 → exec (.pmcTagCopy h off n) s = .next (a.draw.2.complete h 0x13 ⟨a.draw.1 % 65536, 0, 0, []⟩))) ∧
  (∀ (s : State), let k := s.nowNs / (s.mirePeriod * 1000000) + 1
    (s.mireOn = true → s.timeLocked = true → exec .mirePeriod s = .next ((s.elapseToDev (k * (s.mirePeriod * 1000000) * 2 ^ 32)).mireNext k)) ∧
    (s.mireOn = false ∨ s.timeLocked = false → exec .mirePeriod s = .next s)) ∧
  (∀ (s : State) (h : CmdHdr), s.takes h 0x1303 true = true →
    let a := s.start h 0x1303
    exec (.mireRound h) s = (a.mireNext (a.pmc.round + 1)).okFor h 0x13) ∧
  (∀ (s : State) (lp : Nat) (p : Pkt), p.typ = 0x33 → beAt 0 1 p.payload = 0x10 →
    let u := s.takeFn lp p
    let n := beAt 2 2 p.payload
    let es := (List.range n).map fun i => (beAt (32 + 24 * i) 8 p.payload, beAt (40 + 24 * i) 8 p.payload, beAt (48 + 24 * i) 8 p.payload)
    let whole := beAt 1 1 p.payload == 1 && decide (n ≤ 169) && p.payload.length == 32 + 24 * n && decide (beAt 14 1 p.payload ≤ 1) &&
      allZero (slice 15 17 p.payload) && es.all fun e => nodeOk e.1 && nodeOk e.2.1
    (pflag p fPoison = true → exec (.mireEdgesRx lp p) s = .next u) ∧
    (pflag p fPoison = false → whole = false → exec (.mireEdgesRx lp p) s = .next (u.inc (reasonCnt lp rReserved))) ∧
    (pflag p fPoison = false → whole = true → exec (.mireEdgesRx lp p) s = .next (if u.collects then u.addEdges es else u))) ∧
  (∀ (s : State) (h : CmdHdr) (off max : Nat), s.takes h 0x1302 true = true →
    let a := s.start h 0x1302
    let open_ := exec (.mireRead h off max) s = .next (a.draw.2.complete h 0x13 ⟨a.draw.1 % 65536, 0, 0, []⟩)
    (a.collects = false → exec (.mireRead h off max) s = .next (a.complete h 0x13 ⟨0x0101, 0, 0, []⟩)) ∧
    (a.collects = true → a.pmc.last = none → open_) ∧
    (∀ r, a.collects = true → a.pmc.last = some r →
      let bs := leBytes 4 0x4552494D ++ leBytes 4 r.round ++ leBytes 4 r.edges.length ++ leBytes 4 r.cycles.length ++ leBytes 8 r.time ++ leBytes 40 0 ++
        (r.edges.flatMap fun e => leBytes 8 e.1 ++ leBytes 8 e.2.1 ++ leBytes 8 e.2.2) ++ (r.cycles.flatMap fun c => leBytes 4 c.length ++ c.flatMap (leBytes 4))
      (off % 4096 ≠ 0 → open_) ∧
      (off % 4096 = 0 → max < bs.length → exec (.mireRead h off max) s = .next (a.complete h 0x13 ⟨0x0100, 0, 0, []⟩)) ∧
      (off % 4096 = 0 → bs.length ≤ max → exec (.mireRead h off max) s = (a.regionWrite 1 off bs).okFor h 0x13 bs.length))) ∧
  (∀ (s : State) (lp c : Nat), let u := s.blockNote
    (Tbl.find u.pmc.blocked (8 * lp + c) = none → exec (.creditBlockTimer lp c) s = .next u) ∧
    (∀ t since b, Tbl.find u.pmc.blocked (8 * lp + c) = some (t, since, b) →
      exec (.creditBlockTimer lp c) s = .next ((u.elapseToTick (t + usTicks u.waitUs)).setPmc fun p => { p with
        blocked := Tbl.put p.blocked (8 * lp + c) (t, since, true) })))

def Obligations.FirmwareCompletes : Prop :=
  (∀ (s : State) (h : CmdHdr) (off len : Nat) (fl : FlashRes), s.takes h 0x1501 true = true →
    let a := s.start h 0x1501
    exec (.fwStage h off len fl) s = .next ((a.stageImage (a.staging off len) fl).2.complete h 0x15 ⟨(a.stageImage (a.staging off len) fl).1, 0, 0, []⟩)) ∧
  (∀ (s : State) (h : CmdHdr) (t : Nat), s.takes h 0x1502 true = true →
    let a := s.start h 0x1502
    let done := fun (u : State) => exec (.fwActivate h t) s = .next u
    (a.cfg.takeover.isSome = true → done (a.complete h 0x15 ⟨4, 0, 0, []⟩)) ∧
    (a.cfg.takeover = none → a.degraded (1 - a.activeHalf) = true → done (a.draw.2.complete h 0x15 ⟨a.draw.1 % 65536, 0, 0, []⟩)) ∧
    (a.cfg.takeover = none → a.degraded (1 - a.activeHalf) = false →
      (fromShort t < a.time.now + 2 * secUnits → done (a.complete h 0x15 ⟨0x0108, 0, 0, []⟩)) ∧
      (a.time.now + 2 * secUnits ≤ fromShort t →
        (a.slotStatus a.otherSlot ≠ 0 → done ((a.logErr cfgPg 0x0100 0 cfgLoc).complete h 0x15 ⟨a.slotStatus a.otherSlot, 0, 0, []⟩)) ∧
        (a.slotStatus a.otherSlot = 0 → done (a.setTakeover ⟨h, t, a.otherSlot, false⟩))))) ∧
  (∀ (s : State) (h : CmdHdr) (t : Nat), s.takes h 0x1504 true = true →
    let a := s.start h 0x1504
    let done := fun (u : State) => exec (.fwRollback h t) s = .next u
    (a.flag Reg.CFG_STATUS Fld.CFG_STATUS_TRIAL = false → done (a.complete h 0x15 ⟨0x0103, 0, 0, []⟩)) ∧
    (a.flag Reg.CFG_STATUS Fld.CFG_STATUS_TRIAL = true →
      (a.cfg.takeover.isSome = true → done (a.complete h 0x15 ⟨4, 0, 0, []⟩)) ∧
      (a.cfg.takeover = none → a.degraded (1 - a.activeHalf) = true → done (a.draw.2.complete h 0x15 ⟨a.draw.1 % 65536, 0, 0, []⟩)) ∧
      (a.cfg.takeover = none → a.degraded (1 - a.activeHalf) = false →
        (fromShort t < a.time.now + 2 * secUnits → done (a.complete h 0x15 ⟨0x0108, 0, 0, []⟩)) ∧
        (a.time.now + 2 * secUnits ≤ fromShort t → done (a.setTakeover ⟨h, t, a.cfg.boot, true⟩))))) ∧
  (∀ (s : State), s.cfg.takeover = none → exec .fwTakeover s = .next s ∧ exec .takeoverLate s = .next s) ∧
  (∀ (s : State) (t : Takeover), s.cfg.takeover = some t →
    let u := (s.elapseToDev (fromShort t.time)).takeoverEnds
    let trial := u.flag Reg.CFG_STATUS Fld.CFG_STATUS_TRIAL
    (t.back = true → trial = false → exec .fwTakeover s = .next (u.complete t.hdr 0x15 ⟨0x0103, 0, 0, []⟩)) ∧
    (t.back = false ∨ trial = true → u.degraded (1 - u.activeHalf) = true →
      exec .fwTakeover s = .next (u.draw.2.complete t.hdr 0x15 ⟨u.draw.1 % 65536, 0, 0, []⟩)) ∧
    (t.back = false ∨ trial = true → u.degraded (1 - u.activeHalf) = false →
      let v := (Tbl.getD u.cfg.images (0, 0) t.slot).1
      let w := ((u.wr Reg.CFG_IMAGE (BitVec.ofNat 32 v)).startSettings (v % 2 ^ 32)).exchange
      let x := (w.setFld Reg.CFG_STATUS Fld.CFG_STATUS_RUN_SLOT t.slot).setFlag Reg.CFG_STATUS Fld.CFG_STATUS_TRIAL (!t.back)
      exec .fwTakeover s = (if t.back then x.inc Cnt.CFG_ROLLBACKS else x).okFor t.hdr 0x15) ∧
    exec .takeoverLate s = .next ((s.elapseToDev (fromShort t.time - 10 * 1000000 * 2 ^ 32)).takeoverLate t)) ∧
  (∀ (s : State) (h : CmdHdr), s.takes h 0x1503 true = true →
    let a := s.start h 0x1503
    let k := a.fld Reg.CFG_STATUS Fld.CFG_STATUS_RUN_SLOT
    let u := ((a.setCfg fun c => { c with boot := k }).setFld Reg.CFG_STATUS Fld.CFG_STATUS_BOOT_SLOT k).setFlag Reg.CFG_STATUS Fld.CFG_STATUS_TRIAL false
    exec (.fwCommit h .good) s = (u.setCtr 0 (Tbl.getD u.cfg.images (0, 0) k).2).okFor h 0x15 ∧
    (∀ fl, fl ≠ .good → exec (.fwCommit h fl) s = .next ((a.flashFails fl).complete h 0x15 ⟨0x0106, 0, 0, []⟩))) ∧
  (∀ (s : State), let b := s.activeHalf
    let t := (s.nowNs / 1000000 + 1) * 1000000
    let due := match s.cfg.takeover with | some x => decide (fromShort x.time ≤ t * 2 ^ 32) | none => false
    let u := s.elapseToDev (t * 2 ^ 32)
    let end_ := fun (v : State) => v.exchange.wrWide Reg.CFG_TAKEOVER_TIME (shortForm (t * 2 ^ 32)) 2
    (s.degraded b = false ∨ s.degraded (1 - b) = true ∨ due = true → exec .degradedTakeover s = .next s) ∧
    (s.degraded b = true → s.degraded (1 - b) = false → due = false →
      (u.cfg.takeover = none → exec .degradedTakeover s = .next (end_ u)) ∧
      (∀ x, u.cfg.takeover = some x → exec .degradedTakeover s = .next (end_ (u.takeoverLate x))))) ∧
  (∀ (s : State) (h : CmdHdr) (off len : Nat) (fl : FlashRes), s.takes h 0x1506 true = true →
    let a := s.start h 0x1506
    let o := a.staging off len
    let put := fun (v : State) (x : List Byte) => v.setCfg fun c => { c with recs := Tbl.put c.recs (objKindOf o) x }
    (a.objStatus [2, 4] o ≠ 0 → exec (.cfgWrite h off len fl) s =
      .next ((a.logErr cfgPg 0x0100 0 cfgLoc).complete h 0x15 ⟨a.objStatus [2, 4] o, 0, 0, []⟩)) ∧
    (a.objStatus [2, 4] o = 0 → 1048576 < len → exec (.cfgWrite h off len fl) s = .next (a.draw.2.complete h 0x15 ⟨a.draw.1 % 65536, 0, 0, []⟩)) ∧
    (a.objStatus [2, 4] o = 0 → len ≤ 1048576 → fl = .good → exec (.cfgWrite h off len fl) s =
      (match kindCtr (objKindOf o) with | some c => (put a o).setCtr c (objSvn o) | none => put a o).okFor h 0x15) ∧
    (a.objStatus [2, 4] o = 0 → len ≤ 1048576 → fl ≠ .good → exec (.cfgWrite h off len fl) s =
      .next ((put (a.flashFails fl) (if fl = .writeFails then Config.flashBad (objKindOf o) else o)).complete h 0x15 ⟨0x0106, 0, 0, []⟩))) ∧
  (∀ (s : State) (h : CmdHdr) (old new c1 c2 c3 : Nat), s.takes h 0x1507 true = true →
    let a := s.start h 0x1507
    (a.reuseOk old new c1 c2 c3 = false → exec (.jobReuse h old new c1 c2 c3) s = .next (a.complete h 0x15 ⟨0x010A, 0, 0, []⟩)) ∧
    (a.reuseOk old new c1 c2 c3 = true →
      let gs := ((a.dieTbl 0).grp.filter fun e => grpKind.used e.2 && grpGen e.2 == old).map fun e => grpKind.key e.2
      let u := (gs.foldl (fun t g => t.groupChanged g) (a.commit (Pipe.reuse old new) fun d => { d with grp := regen 127 119 112 old new d.grp })).genChanged
      let v := u.tideActive.foldl (fun t p =>
        if (t.activeBank p).gen = old then
          (t.setPortTide p ((t.portTide p).setBank (t.activeIdx p) { t.activeBank p with gen := new })).setFld (tideSt p) Fld.TIDE_PORT_STATUS_GEN new
        else t) u
      let w := v.cwLoaded.foldl (fun t n =>
        if (t.cwActive n).gen = old then
          (t.setEng n ((t.eng n).setBank (t.fld (Reg.CW_STATUS n) Fld.CW_STATUS_ACTIVE_BANK) { t.cwActive n with gen := new })).setFld
            (Reg.CW_STATUS n) Fld.CW_STATUS_GEN new
        else t) v
      exec (.jobReuse h old new c1 c2 c3) s = (w.inc Cnt.CFG_REUSES).okFor h 0x15))

def Obligations.SecurityCompletes : Prop :=
  (∀ (s : State) (h : CmdHdr) (nonce off : Nat) (fl : FlashRes), s.takes h 0x1401 true = true →
    let a := s.start h 0x1401
    let ok := a.flag Reg.CFG_STATUS Fld.CFG_STATUS_PUF_OK
    (ok = false → exec (.attest h nonce off fl) s = .next (a.draw.2.complete h 0x14 ⟨a.draw.1 % 65536, 0, 0, []⟩)) ∧
    (ok = true → 1048576 ≤ a.ctr 3 → exec (.attest h nonce off fl) s = .next (a.complete h 0x14 ⟨0x010B, 0, 0, []⟩)) ∧
    (ok = true → a.ctr 3 < 1048576 → fl ≠ .good → exec (.attest h nonce off fl) s = .next ((a.flashFails fl).complete h 0x14 ⟨0x0106, 0, 0, []⟩)) ∧
    (ok = true → a.ctr 3 < 1048576 → fl = .good →
      let u := a.setCtr 3 (a.ctr 3 + 1)
      let r := u.attReport nonce (a.ctr 3)
      exec (.attest h nonce off fl) s = (u.regionWrite 1 off (r ++ slice 0 2964 (Config.attSign (a.ctr 3) r))).okFor h 0x14 3108)) ∧
  (∀ (s : State) (h : CmdHdr), s.takes h 0x1402 true = true →
    let a := s.start h 0x1402
    let v := (a.ctr 4 + 1) % 2 ^ 32
    exec (.unlockChallenge h .good) s = ((a.setCtr 4 v).wr Reg.SEC_CHALLENGE (BitVec.ofNat 32 v)).okFor h 0x14 v ∧
    (∀ fl, fl ≠ .good → exec (.unlockChallenge h fl) s = .next ((a.flashFails fl).complete h 0x14 ⟨0x0106, 0, 0, []⟩))) ∧
  (∀ (s : State) (h : CmdHdr) (off len : Nat), s.takes h 0x1403 true = true →
    let a := s.start h 0x1403
    let o := a.staging off len
    let body := slice 64 8 o
    let ch := (a.rd Reg.SEC_CHALLENGE).toNat
    let bad := fun (st : Nat) => exec (.unlock h off len) s = .next ((a.logErr secPg 0x0101 0 secLoc).complete h 0x14 ⟨st, 0, 0, []⟩)
    (a.objStatus [3] o ≠ 0 → bad (a.objStatus [3] o)) ∧
    (a.objStatus [3] o = 0 → objBodyLen o ≠ 8 ∨ allZero (body.drop 5) = false ∨ 8 ≤ leAt 4 1 body → bad 0x0100) ∧
    (a.objStatus [3] o = 0 → objBodyLen o = 8 → allZero (body.drop 5) = true → leAt 4 1 body < 8 →
      (ch = 0 ∨ leAt 0 4 body ≠ ch → bad 0x0104) ∧
      (ch ≠ 0 → leAt 0 4 body = ch → exec (.unlock h off len) s =
        (((a.setFlag Reg.SEC_STATUS Fld.SEC_STATUS_UNLOCKED true).setFld Reg.SEC_STATUS Fld.SEC_STATUS_SCOPE (leAt 4 1 body)).irq secPg 2).okFor h 0x14))) ∧
  (∀ (s : State) (h : CmdHdr) (fl : FlashRes), s.takes h 0x1404 true = true →
    let a := s.start h 0x1404
    let scope := a.flag Reg.SEC_STATUS Fld.SEC_STATUS_UNLOCKED && bit 2 (a.fld Reg.SEC_STATUS Fld.SEC_STATUS_SCOPE)
    (scope = false → exec (.pufRefresh h fl) s = .next (a.complete h 0x14 ⟨3, 0, 0, []⟩)) ∧
    (scope = true → fl ≠ .good → exec (.pufRefresh h fl) s = .next ((a.flashFails fl).complete h 0x14 ⟨0x0106, 0, 0, []⟩)) ∧
    (scope = true → fl = .good → exec (.pufRefresh h fl) s =
      ((a.writeSettings fun r => { r with refresh := true }).setFlag Reg.SEC_STATUS Fld.SEC_STATUS_REFRESH_ARMED true).okFor h 0x14))

def Obligations.ChainsComplete : Prop :=
  (∀ (s : State) (h : CmdHdr) (off : Nat) (ue : List Nat), s.takes h 0x1505 true = true →
    let a := s.start h 0x1505
    let d := a.staging off (64 + 4 * leAt 6 2 (a.staging off 64))
    (∀ e es img, chainEntries d = some (e :: es) → Tbl.find a.cfg.slots a.otherSlot = some img → (Tbl.find a.cfg.images a.otherSlot).isSome = true →
      e = a.spineAddr 0 →
      let u := a.draw.2
      let head : ChainHead := ⟨h, a.draw.1 % 2 ^ 32, e :: es, [(e, 0)], [], u.time.ticks⟩
      let v := u.setCfg fun c => { c with chainHead := c.chainHead ++ [head] }
      exec (.fwChain h off ue) s = .next ((v.chainTo (v.spineAddr 0) head.xfer (d ++ img) ue es).chainSettle head)) ∧
    ((∀ e es, chainEntries d = some (e :: es) → Tbl.find a.cfg.slots a.otherSlot = none ∨ (Tbl.find a.cfg.images a.otherSlot).isSome = false ∨
      e ≠ a.spineAddr 0) → exec (.fwChain h off ue) s = .next (a.draw.2.complete h 0x15 ⟨a.draw.1 % 65536, 0, 0, []⟩))) ∧
  (∀ (s : State) (lp : Nat) (p : Pkt) (fl : FlashRes) (c : Instr) (kind : Nat), p.typ = 0x33 → beAt 0 1 p.payload = 0x20 → beAt 1 1 p.payload = kind →
    (c, kind) ∈ ([(.chainDataRx lp p fl, 1), (.chainAckRx lp p, 2), (.chainDoneRx lp p, 3), (.chainAbortRx lp p, 4)] : List (Instr × Nat)) →
    let whole := decide (32 ≤ p.payload.length) && allZero (slice 20 12 p.payload) && (kind == 1 || p.payload.length == 32)
    (pflag p fPoison = true → exec c s = .next (s.takeFn lp p)) ∧
    (pflag p fPoison = false → whole = false → exec c s = .next ((s.takeFn lp p).inc (reasonCnt lp rReserved)))) ∧
  (∀ (s : State) (lp : Nat) (p : Pkt) (fl : FlashRes), updTakes p 1 = true → let b := p.payload
    let x := beAt 4 4 b
    let origin := beAt 16 4 b
    let u := s.takeFn lp p
    let mine := fun (r : ChainRx) => r.origin == origin && r.xfer == x
    let old : ChainRx := (u.cfg.chainRx.find? mine).getD ⟨origin, x, beAt 12 4 b, [], false⟩
    let r : ChainRx := if old.checked then old else { old with segs := addPiece old.segs (beAt 8 4 b) (b.drop 32) }
    let data := (heldBytes r.segs).take r.total
    let keep := fun (t : State) (r : ChainRx) => t.setCfg fun c => { c with chainRx := c.chainRx.filter (fun q => !mine q) ++ [r] }
    let ack := fun (t : State) =>
      t.sendRelayed (t.mgmtPkt (p.src / 4096 * 4096) (updHeader 0x20 2 0 x (min r.total (heldBytes r.segs).length) r.total origin []))
    let tell := fun (t : State) (st : Nat) => t.sendRelayed (t.mgmtPkt (origin / 4096 * 4096) (updHeader 0x20 3 st x 0 r.total origin []))
    ((heldBytes r.segs).length < r.total ∨ r.checked = true → exec (.chainDataRx lp p fl) s = .next (ack (keep u r))) ∧
    (r.total ≤ (heldBytes r.segs).length → r.checked = false →
      let v := ack (keep u { r with checked := true })
      (chainEntries data = none → exec (.chainDataRx lp p fl) s = .next (tell v.draw.2 (1 + v.draw.1 % 65535))) ∧
      (∀ es, chainEntries data = some es →
        let w := v.stageImage (data.drop (64 + 4 * es.length)) fl
        (w.1 ≠ 0 → exec (.chainDataRx lp p fl) s = .next (tell w.2 w.1)) ∧
        (w.1 = 0 → exec (.chainDataRx lp p fl) s =
          .next ((tell w.2 0).chainTo origin x data [] ((es.dropWhile (· != w.2.spineAddr 0)).drop 1)))))) ∧
  (∀ (s : State) (lp : Nat) (p : Pkt), updTakes p 2 = true → let u := s.takeFn lp p
    let a := beAt 8 4 p.payload
    (u.txOf (beAt 16 4 p.payload) (beAt 4 4 p.payload) = none → exec (.chainAckRx lp p) s = .next u) ∧
    (∀ t, u.txOf (beAt 16 4 p.payload) (beAt 4 4 p.payload) = some t →
      (t.targets.headD 0 / 4096 ≠ p.src / 4096 ∨ a ≤ t.acked → exec (.chainAckRx lp p) s = .next u) ∧
      (t.targets.headD 0 / 4096 = p.src / 4096 → t.acked < a →
        (t.data.length ≤ a → exec (.chainAckRx lp p) s = .next (u.dropTx t.origin t.xfer)) ∧
        (a < t.data.length → exec (.chainAckRx lp p) s = .next
          (u.chainSend { t with acked := a, sent := max t.sent a, at_ := u.time.ticks, tries := 0 }))))) ∧
  (∀ (s : State) (lp : Nat) (p : Pkt), updTakes p 3 = true → let u := s.takeFn lp p
    let e := p.src / 4096 * 4096
    let head := u.cfg.chainHead.find? fun y => y.xfer == beAt 4 4 p.payload && u.spineAddr 0 == beAt 16 4 p.payload
    (head = none → exec (.chainDoneRx lp p) s = .next u) ∧
    (∀ x, head = some x →
      (x.entries.contains e = false → exec (.chainDoneRx lp p) s = .next u) ∧
      (x.entries.contains e = true → exec (.chainDoneRx lp p) s = .next
        (u.chainSettle { x with done := Tbl.put x.done e (beAt 2 2 p.payload), skipped := x.skipped.filter (· != e) })))) ∧
  (∀ (s : State) (lp : Nat) (p : Pkt), updTakes p 4 = true → let u := s.takeFn lp p
    let x := beAt 4 4 p.payload
    let origin := beAt 16 4 p.payload
    let v := (u.dropTx origin x).setCfg fun c => { c with chainRx := c.chainRx.filter fun (r : ChainRx) => !(r.origin == origin && r.xfer == x) }
    ((v.cfg.chainHead.find? fun y => y.xfer == x && v.spineAddr 0 == origin) = none → exec (.chainAbortRx lp p) s = .next v) ∧
    (∀ y, (v.cfg.chainHead.find? fun y => y.xfer == x && v.spineAddr 0 == origin) = some y →
      let w := v.setCfg fun c => { c with chainHead := c.chainHead.filter fun (z : ChainHead) => z.xfer != x }
      exec (.chainAbortRx lp p) s = .next (w.draw.2.complete y.hdr 0x15 ⟨w.draw.1 % 65536, 0, 0, []⟩))) ∧
  (∀ (s : State) (origin xfer : Nat), (s.txOf origin xfer = none → exec (.chainResend origin xfer) s = .next s) ∧
    (∀ t, s.txOf origin xfer = some t → let u := s.elapseToTick (t.at_ + usTicks 2000)
      (t.tries < 3 → exec (.chainResend origin xfer) s = .next (u.chainSend { t with sent := t.acked, at_ := u.time.ticks, tries := t.tries + 1 })) ∧
      (3 ≤ t.tries →
        let v := (((u.dropTx origin xfer).inc Cnt.CFG_CHAIN_SKIPS).logErr cfgPg 0x0104 1 cfgLoc).chainTo origin xfer t.data t.bad (t.targets.drop 1)
        let head := v.cfg.chainHead.find? fun x => x.xfer == xfer && v.spineAddr 0 == origin
        (head = none → exec (.chainResend origin xfer) s = .next v) ∧
        (∀ x, head = some x → exec (.chainResend origin xfer) s = .next (v.chainSettle { x with skipped := x.skipped ++ t.targets.take 1 }))))) ∧
  (∀ (s : State) (xfer : Nat), ((s.cfg.chainHead.find? fun x => x.xfer == xfer) = none → exec (.chainTimeout xfer) s = .next s) ∧
    (∀ x, (s.cfg.chainHead.find? fun x => x.xfer == xfer) = some x →
      exec (.chainTimeout xfer) s = .next ((s.elapseToTick (x.startedAt + usTicks 600000000)).chainEnds x)))

def Obligations.BroadcastsComplete : Prop :=
  (∀ (s : State) (h : CmdHdr) (off len group : Nat) (alts ue : List Nat), s.takes h 0x0101 true = true →
    let a := s.start h 0x0101
    let g := group % 2 ^ 20
    let done := fun (t : State) => exec (.bcastStart h off len group alts ue) s = .next t
    let open_ := done (a.draw.2.complete h 1 ⟨a.draw.1 % 65536, 0, 0, []⟩)
    (a.group 0 g = none → open_) ∧
    (∀ e, a.group 0 g = some e →
      (grpKindOf e ≠ 1 ∨ len = 0 ∨ 2 ^ 28 < len → open_) ∧
      (grpKindOf e = 1 → 0 < len → len ≤ 2 ^ 28 →
        (Tbl.getD a.cfg.used 0 g = grpGen e + 1 → done (a.complete h 1 ⟨0x010C, 0, 0, []⟩)) ∧
        (Tbl.getD a.cfg.used 0 g ≠ grpGen e + 1 →
          let b : Bcast := ⟨h, g, grpGen e, a.staging off len, ue, (alts.take 4).filter (· != 0xFF), a.members 0 e, [], [], [], [], [], a.time.ticks, 0⟩
          let r := (List.range b.blocks).foldl (fun (acc : List Nat × State) i =>
            (acc.1 ++ [(acc.2.releaseBlock g b.gen i (b.block i) ue).1], (acc.2.releaseBlock g b.gen i (b.block i) ue).2)) ([], a)
          let b' : Bcast := { b with seqs := r.1 }
          done ((r.2.setCfg fun c => { c with
            bcasts := c.bcasts.filter (fun (x : Bcast) => !(x.group == g && x.gen == b.gen)) ++ [b'], used := Tbl.put c.used g (b.gen + 1) }).bcastSettle b'))))) ∧
  (∀ (s : State) (h : CmdHdr) (g : Nat), s.takes h 0x0102 true = true →
    let a := s.start h 0x0102
    (a.bcastOf g = none → exec (.bcastAbort h g) s = .next (a.draw.2.complete h 1 ⟨a.draw.1 % 65536, 0, 0, []⟩)) ∧
    (∀ b, a.bcastOf g = some b → exec (.bcastAbort h g) s = ((a.dropBcast b).complete b.hdr 1 ⟨0x010D, 0, 0, []⟩).okFor h 1)) ∧
  (∀ (s : State) (lp : Nat) (p : Pkt), p.typ = 0x19 →
    let u := s.takeFn lp p
    let whole := p.payload.length == 64 && decide (beAt 0 4 p.payload < 2 ^ 20) && beAt 5 1 p.payload == 0 && allZero (p.payload.drop 40)
    let mine := u.cfg.bcasts.find? fun b => b.group == beAt 0 4 p.payload && b.gen == beAt 4 1 p.payload
    (pflag p fPoison = true → exec (.bcastAck lp p) s = .next u) ∧
    (pflag p fPoison = false → whole = false → exec (.bcastAck lp p) s = .next (u.inc (reasonCnt lp rReserved))) ∧
    (pflag p fPoison = false → whole = true →
      (mine = none → exec (.bcastAck lp p) s = .next u) ∧
      (∀ b, mine = some b →
        ((b.feids.findIdx? fun f => feidKey f == feidKey p.src) = none → exec (.bcastAck lp p) s = .next u) ∧
        (∀ i, (b.feids.findIdx? fun f => feidKey f == feidKey p.src) = some i →
          let newer := match Tbl.find b.lastSeq i with
            | none => true
            | some q => (p.seq + 2 ^ 24 - q) % 2 ^ 24 != 0 && decide ((p.seq + 2 ^ 24 - q) % 2 ^ 24 < 2 ^ 23)
          let takes := newer && !b.excused.contains i && !u.fencedEp (b.feids.getD i 0)
          (takes = false → exec (.bcastAck lp p) s = .next u) ∧
          (takes = true →
            let acked := Tbl.put b.acked i ((Tbl.getD b.acked 0 i ||| ackMask p.payload) % 2 ^ b.blocks)
            exec (.bcastAck lp p) s = .next (u.bcastSettle { b with acked := acked, lastSeq := Tbl.put b.lastSeq i (p.seq % 2 ^ 24) })))))) ∧
  (∀ (s : State) (g m k : Nat), (s.bcastOf g = none → exec (.bcastBlockDeadline g m k) s = .next s) ∧
    (∀ b, s.bcastOf g = some b →
      let due := decide (m < b.feids.length) && decide (k < b.blocks) && !b.has m k && !b.excused.contains m
      let x := Tbl.getD b.due (b.startedAt + usTicks 4000, 0) (4096 * m + k)
      let u := s.elapseToTick x.1
      (due = false → exec (.bcastBlockDeadline g m k) s = .next s) ∧
      (∀ alt, due = true → b.alts[x.2]? = some alt → exec (.bcastBlockDeadline g m k) s = .next
        (((u.relayBlock b m k alt).inc Cnt.CFG_BCAST_RESENDS).setBcast { b with due := Tbl.put b.due (4096 * m + k) (x.1 + usTicks 8000, x.2 + 1) })) ∧
      (due = true → b.alts[x.2]? = none → exec (.bcastBlockDeadline g m k) s = .next
        ((u.sendAlone (b.feids.getD m 0) (u.bcastPkts b k)).setBcast { b with due := Tbl.put b.due (4096 * m + k) (x.1 + usTicks 8000, 0) })))) ∧
  (∀ (s : State) (lp : Nat) (p : Pkt), let b := p.payload
    let u := s.takeFn lp p
    let whole := beAt 1 1 b == 1 && beAt 2 2 b == 0 && allZero (slice 27 5 b) && decide (32 < b.length) && decide (beAt 8 4 b + (b.length - 32) ≤ beAt 12 4 b)
    p.typ = 0x33 → beAt 0 1 b = 0x21 →
    (pflag p fPoison = true → exec (.bcastRelayRx lp p) s = .next u) ∧
    (pflag p fPoison = false → whole = false → exec (.bcastRelayRx lp p) s = .next (u.inc (reasonCnt lp rReserved))) ∧
    (pflag p fPoison = false → whole = true →
      let key := fun (r : RelayRx) => r.src == beAt 16 4 b && r.xfer == beAt 4 4 b && r.member == beAt 20 4 b
      let old : RelayRx := (u.cfg.relays.find? key).getD ⟨beAt 16 4 b, beAt 4 4 b, beAt 20 4 b, beAt 24 3 b, beAt 12 4 b, []⟩
      let r : RelayRx := { old with segs := addPiece old.segs (beAt 8 4 b) (b.drop 32) }
      let keep := fun (l : List RelayRx) => u.setCfg fun c => { c with relays := (u.cfg.relays.filter fun r => !key r) ++ l }
      ((heldBytes r.segs).length < r.total → exec (.bcastRelayRx lp p) s = .next (keep [r])) ∧
      (r.total ≤ (heldBytes r.segs).length →
        ((keep []).group 0 (beAt 4 4 b / 4096) = none → exec (.bcastRelayRx lp p) s = .next (keep [])) ∧
        (∀ e, (keep []).group 0 (beAt 4 4 b / 4096) = some e → exec (.bcastRelayRx lp p) s = .next ((keep []).sendAlone r.member
          (blockPkts r.src (beAt 4 4 b / 4096) (grpGen e) (beAt 4 4 b % 4096) r.seq ((heldBytes r.segs).take r.total) [])))))) ∧
  (∀ (s : State) (g : Nat), (s.bcastOf g = none → exec (.bcastStallNotice g) s = .next s) ∧
    (∀ b, s.bcastOf g = some b → let u := s.elapseToTick (b.startedAt + (b.notices + 1) * usTicks 100000)
      exec (.bcastStallNotice g) s = .next (((u.setBcast { b with notices := b.notices + 1 }).emit (.notice 0x0809 (b.group ::
        (List.range b.feids.length).filter fun i => !b.excused.contains i && !b.done i))).logErr mgmtPg 0x0101 0 (locBlock 1))))

def Obligations.StepRunsFront : Prop :=
  (∀ (s : State) (c : Instr) (rest : List Instr), s.pending = c :: rest → step s = exec c { s with pending := rest }) ∧
  (∀ (s : State), s.pending = [] → step s = .next (s.elapse 1))

def Obligations.ResetInv : Prop := State.reset.Inv

def Obligations.StepKeepsInv : Prop := ∀ (s t : State), s.Inv → step s = .next t → t.Inv

def Obligations.FenceWaits : Prop :=
  ∀ (c : Instr) (h : CmdHdr) (op : Nat) (oper : Bool) (s : State), commandOf c = some (h, op, oper) →
    ((∃ t ∈ s.ahead h op, t.running = false) → exec c s = .next s) ∧
    (h.fence = true → s.ahead h op ≠ [] → exec c s = .next s) ∧
    (s.outranked h op = true → exec c s = .next s)

def Obligations.RecoveryRefuses : Prop :=
  ∀ (c : Instr) (h : CmdHdr) (op : Nat) (oper : Bool) (s : State), commandOf c = some (h, op, oper) → s.mayStart h op = true →
    s.flag Reg.CFG_STATUS Fld.CFG_STATUS_RECOVERY = true → inRecovery op = false → exec c s = .next ((s.start h op).complete h (op / 256) ⟨0x0107, 0, 0, []⟩)

def Obligations.StageBusy : Prop :=
  (∀ (c : Instr) (h : CmdHdr) (op : Nat) (oper : Bool) (s : State), commandOf c = some (h, op, oper) → s.mayStart h op = true →
    s.flag Reg.CFG_STATUS Fld.CFG_STATUS_RECOVERY = false → s.stageReached (op / 256) = false →
    exec c s = .next ((s.start h op).complete h (op / 256) ⟨4, 0, 0, []⟩)) ∧
  (∀ (s : State) (p : Nat), pageImplemented p = true → hasHeader (p / 256) (p % 256) = true → s.stageReached (p / 256) = false →
    bit 0 (s.wordNow (Reg.PAGE_STATUS p)) = false)

def Obligations.TenantsDenied : Prop :=
  ∀ (c : Instr) (h : CmdHdr) (op : Nat) (s : State), commandOf c = some (h, op, true) → s.mayStart h op = true →
    (if s.flag Reg.CFG_STATUS Fld.CFG_STATUS_RECOVERY then inRecovery op else s.stageReached (op / 256)) = true → s.isOperator h = false →
    exec c s = .next (((s.start h op).logErr (pg 2 0) 0x0003 0 (locBlock 2)).complete h (op / 256) ⟨3, 0, 0, []⟩)

def Obligations.AccessShape : Prop :=
  (∀ (s : State) (a n v : Nat) (who : Requester), s.pwr.held = false → reaches who a = true → ((n ≠ 4 ∧ n ≠ 8) ∨ a % n ≠ 0) →
    exec (.registerWrite a n v who) s = .next (s.logErr hostPg 0x0001 0 hostLoc) ∧
    exec (.rcFieldRead a n who) s = .next ((s.logErr hostPg 0x0001 0 hostLoc).emit (.readData a 0))) ∧
  (∀ (s : State) (a n v : Nat), s.pwr.held = false → ((n ≠ 4 ∧ n ≠ 8) ∨ a % n ≠ 0) →
    s.writeAcc a n v = (true, s.logErr hostPg 0x0001 0 hostLoc) ∧ s.readAcc a n = (true, 0, s.logErr hostPg 0x0001 0 hostLoc)) ∧
  (∀ (s : State) (a n v : Nat), s.pwr.held = false → (n = 4 ∨ n = 8) → a % n = 0 → s.mapped a = true →
    (s.writeAcc a n v).1 = false ∧ (s.readAcc a n).1 = false)

def Obligations.Bar2BeforeTraining : Prop :=
  (∀ (s : State) (off n : Nat) (errs : List BeatErr), s.tierReady 0 = false → exec (.bar2Access off (.read n errs)) s = .next (s.emit (.readData off 0))) ∧
  (∀ (s : State) (off : Nat) (bs : List Byte), s.tierReady 0 = false → exec (.bar2Access off (.write bs)) s = .next s)

def Obligations.EventsToFirmware : Prop :=
  (∀ (s : State) (j : Nat) (e : Ev), s.erOn j = false → s.mpTakes j = false →
    (e.kind = 1 → s.post j e = s.emit (.firmware e)) ∧
    (e.kind ≠ 1 → s.post j e = (s.setEr j { s.er j with seq := ((s.er j).seq + 1) % 2 ^ 32 }).emit (.firmware { e with tag := (s.er j).seq }))) ∧
  (∀ (s : State) (i code : Nat), s.erOn 0 = false → s.mpTakes 0 = false → ∃ e, (s.ringError i code).out = .firmware e :: s.out ∧ e.kind = 4 ∧ e.status = code)

def Obligations.FullEventRing : Prop :=
  (∀ (s : State) (j : Nat) (e : Ev), s.erOn j = true → s.mpTakes j = false → s.erFull j = true →
    (e.kind = 1 → s.post j e = s.setEr j { s.er j with waiting := (s.er j).waiting ++ [e] }) ∧
    ((e.kind = 4 ∨ e.kind = 5) → (s.er j).waitingOf false < 64 → ((s.post j e).er j).waiting = (s.er j).waiting ++ [{ e with tag := (s.er j).seq }] ∧
      ((s.post j e).er j).dropped = (s.er j).dropped) ∧
    (((e.kind = 4 ∨ e.kind = 5) ∧ 64 ≤ (s.er j).waitingOf false ∨ e.kind = 2 ∨ e.kind = 3) →
      ((s.post j e).er j).waiting = (s.er j).waiting ∧ ((s.post j e).er j).dropped = min ((s.er j).dropped + 1) 0xFFFF ∧
      ((s.post j e).er j).overflowed = 1 ∧ ((s.post j e).er j).lost = true ∧ (s.post j e).out = s.out)) ∧
  (∀ (s : State) (j : Nat) (e : Ev), e.ring = none →
    (s.erWrite j e).out = .wrInv j (s.er j).prod (4096 * s.fld (Reg.HOST_ER_BASE (erPage j) (j % 64)) Fld.HOST_ER_BASE_ADDR + 64 * ((s.er j).prod % s.erSize j)) e ((s.er j).prod / s.erSize j % 2 == 0) (s.er j).lost :: s.out ∧ ((s.erWrite j e).er j).lost = false ∧
    ((s.erWrite j e).er j).prod = ((s.er j).prod + 1) % 2 ^ 32) ∧
  (∀ (s : State) (i : Nat), (s.er (s.crCfg i Fld.HOST_CR_CFG_EVENT_RING)).waitingOf true ≠ 0 → s.crFetch i = s)

def Obligations.ErrorLogRule : Prop :=
  ∀ (s : State) (p code sev loc : Nat), s.Inv → s.traceState = 0 → code < 2 ^ 16 → sev < 3 → loc < 2 ^ 16 →
    let st := Reg.PAGE_ERR_STATUS p
    let t := s.logErr p code sev loc
    let last := Tbl.getD s.logLast 0 p
    let held (k : Nat) : Prop := t.fld (Reg.PAGE_ERR_ENTRY p k) Fld.PAGE_ERR_ENTRY_CODE = code ∧
      t.fld (Reg.PAGE_ERR_ENTRY p k) Fld.PAGE_ERR_ENTRY_LOCATION = loc ∧ t.fld (Reg.PAGE_ERR_ENTRY p k) Fld.PAGE_ERR_ENTRY_SEVERITY = sev ∧
      t.fld (Reg.PAGE_ERR_ENTRY p k) Fld.PAGE_ERR_ENTRY_TIME = s.short ∧ t.fld (Reg.PAGE_ERR_ENTRY p k) Fld.PAGE_ERR_ENTRY_REPEAT = 0
    t.fld st Fld.PAGE_ERR_STATUS_TOTAL = min (s.fld st Fld.PAGE_ERR_STATUS_TOTAL + 1) (2 ^ 16 - 1) ∧
    t.flag st Fld.PAGE_ERR_STATUS_FIRST_VALID = true ∧ t.rest = s.rest ∧ t.mem1 = s.mem1 ∧ t.mem2 = s.mem2 ∧
    (s.flag st Fld.PAGE_ERR_STATUS_FIRST_VALID = false → held 0 ∧ Tbl.getD t.logLast 0 p = 1) ∧
    (s.flag st Fld.PAGE_ERR_STATUS_FIRST_VALID = true → t.rdWide (Reg.PAGE_ERR_ENTRY p 0) 3 = s.rdWide (Reg.PAGE_ERR_ENTRY p 0) 3) ∧
    (s.flag st Fld.PAGE_ERR_STATUS_FIRST_VALID = true → 1 ≤ s.fld st Fld.PAGE_ERR_STATUS_NEXT → s.fld st Fld.PAGE_ERR_STATUS_NEXT ≤ 10 →
      (last = 0 ∨ s.fld (Reg.PAGE_ERR_ENTRY p (last - 1)) Fld.PAGE_ERR_ENTRY_CODE ≠ code ∨
        s.fld (Reg.PAGE_ERR_ENTRY p (last - 1)) Fld.PAGE_ERR_ENTRY_LOCATION ≠ loc) →
      held (s.fld st Fld.PAGE_ERR_STATUS_NEXT) ∧ Tbl.getD t.logLast 0 p = s.fld st Fld.PAGE_ERR_STATUS_NEXT + 1 ∧
      t.fld st Fld.PAGE_ERR_STATUS_NEXT = (if s.fld st Fld.PAGE_ERR_STATUS_NEXT = 10 then 1 else s.fld st Fld.PAGE_ERR_STATUS_NEXT + 1)) ∧
    (s.flag st Fld.PAGE_ERR_STATUS_FIRST_VALID = true → last ≠ 0 → last ≤ 11 →
      s.fld (Reg.PAGE_ERR_ENTRY p (last - 1)) Fld.PAGE_ERR_ENTRY_CODE = code →
      s.fld (Reg.PAGE_ERR_ENTRY p (last - 1)) Fld.PAGE_ERR_ENTRY_LOCATION = loc →
      t.fld (Reg.PAGE_ERR_ENTRY p (last - 1)) Fld.PAGE_ERR_ENTRY_REPEAT =
        min (s.fld (Reg.PAGE_ERR_ENTRY p (last - 1)) Fld.PAGE_ERR_ENTRY_REPEAT + 1) (2 ^ 16 - 1) ∧
      t.fld st Fld.PAGE_ERR_STATUS_NEXT = s.fld st Fld.PAGE_ERR_STATUS_NEXT ∧ t.host = s.host ∧ t.out = s.out ∧ t.cnts = s.cnts)

def Obligations.ExactSumsCommute : Prop :=
  let run (a : ExAcc) (xs : List FVal) : ExAcc := xs.foldl (fun a x => (a.add x).1) a
  (∀ (a b : ExAcc), (a.merge b).acc = a.acc + b.acc ∧ (a.merge b).nan = (a.nan || b.nan) ∧ (a.merge b).pinf = (a.pinf || b.pinf) ∧
    (a.merge b).ninf = (a.ninf || b.ninf)) ∧
  (∀ (xs ys : List FVal) (mode : Nat) (o : Bool),
    (run ExAcc.init (xs ++ ys)).finish mode o = ((run ExAcc.init xs).merge (run ExAcc.init ys)).finish mode o) ∧
  (∀ (xs ys : List FVal), xs.Perm ys → run ExAcc.init xs = run ExAcc.init ys)

def Obligations.NumberRoundTrip : Prop :=
  ∀ (c : Nat) (f : FFmt) (mode code : Nat), fmtOf c = some f → code < 2 ^ (f.eb + f.fb + 1 + f.pad) → code % 2 ^ f.pad = 0 →
    (∀ g, f.decode code ≠ .nan g) → ¬ (f.sat = true ∧ code / 2 ^ f.pad = 2 ^ (f.eb + f.fb)) → f.encode mode (f.decode code) = (code, 0)

def Obligations.CounterRules : Prop :=
  (∀ (s : State) (a n b : Nat), s.Inv → (s.addCnt a n).cnt b = if b = a then min (s.cnt a + n) 0xFFFFFFFFFFFF else s.cnt b) ∧
  (∀ (s : State) (p b : Nat), s.Inv → (s.clearCnts p).cnt b = if b / 4096 = p then 0 else s.cnt b) ∧
  (∀ (s : State) (a : Nat) (who : Requester), s.Inv → s.pwr.held = false → reaches who a = true → inBlocks a = true → pageImplemented (a / 4096) = true →
    counterAt a = some a → a % 8 = 0 → s.pageBusy (a / 4096) = false → Tbl.find s.host.latch a = none → a ≠ Reg.TIME_TXQ_ENTRY + 12 → a ≠ Reg.TIME_NOW → regAt a = none →
    ∃ t, exec (.rcFieldRead a 4 who) s = .next t ∧ t.out = .readData a (s.cnt a % 2 ^ 32) :: s.out ∧
      (∀ b, t.cnt b = if b = a then 0 else s.cnt b) ∧ t.regs = s.regs ∧ t.rest = s.rest ∧ t.mem1 = s.mem1 ∧ t.mem2 = s.mem2 ∧
      (counterAt (a + 4) = some a → Tbl.find t.host.latch (a + 4) = some (BitVec.ofNat 32 (s.cnt a / 2 ^ 32))))

def Obligations.MemoryWrites : Prop :=
  (∀ (m : List Host.Cell) (a : Nat) (bs : List Byte), Memory.wf m = true → memRead (memWrite m a bs) a bs.length = bs ∧
    (∀ b, (b < a ∨ a + bs.length ≤ b) → memByte (memWrite m a bs) b = memByte m b) ∧ Memory.wf (memWrite m a bs) = true) ∧
  (∀ (m : List Host.Cell) (a n b : Nat), Memory.wf m = true → memByte (memZero m a n) b = (if a ≤ b ∧ b < a + n then 0 else memByte m b) ∧
    Memory.wf (memZero m a n) = true) ∧
  (∀ (s : State) (tier a : Nat) (bs : List Byte), let t := s.tierWrite tier a bs
    t.regs = s.regs ∧ t.cnts = s.cnts ∧ t.host = s.host ∧ t.out = s.out ∧ t.rest = s.rest ∧ (tier = 0 → t.mem2 = s.mem2) ∧ (tier ≠ 0 → t.mem1 = s.mem1))

def Obligations.TimePasses : Prop :=
  ∀ (s : State) (n m : Nat), 0x01000000 ≤ s.incr →
    (s.elapse n).time.ticks = s.time.ticks + n ∧
    (s.time.slew = 0 → (s.elapse n).time.now = (s.time.now + n * s.incr) % (2 ^ 48 * secUnits) ∧ (s.elapse n).time.slew = 0) ∧
    (s.time.slew.natAbs ≤ n * s.slewRate → (s.elapse n).time.slew = 0 ∧
      ((s.elapse n).time.now : Int) = ((s.time.now : Int) + (n * s.incr : Nat) + s.time.slew) % (2 ^ 48 * secUnits : Nat)) ∧
    (n * s.slewRate < s.time.slew.natAbs → (s.elapse n).time.slew.natAbs = s.time.slew.natAbs - n * s.slewRate ∧
      ((s.elapse n).time.now : Int) =
        ((s.time.now : Int) + (n * s.incr : Nat) + (if s.time.slew < 0 then -((n * s.slewRate : Nat) : Int) else ((n * s.slewRate : Nat) : Int))) % (2 ^ 48 * secUnits : Nat)) ∧
    (s.time.now + n * (s.incr + 0x01000000) < 2 ^ 48 * secUnits → s.time.now ≤ (s.elapse n).time.now) ∧
    (s.elapse (m + n)).time = ((s.elapse m).elapse n).time ∧
    (s.elapse n).regs = s.regs ∧ (s.elapse n).mem1 = s.mem1 ∧ (s.elapse n).mem2 = s.mem2 ∧ (s.elapse n).host = s.host ∧
    (∃ fs : List Out, (s.elapse n).out = fs ++ s.out ∧ ∀ x ∈ fs, ∃ lp hd body, x = .linkFrame lp hd body) ∧
    ((∀ x ∈ s.links.link, (x.2.ackDue || x.2.creditDue || x.2.nakDue) = false) → (s.elapse n).out = s.out)

def Obligations.QueriesChangeNothing : Prop :=
  ∀ (c : Instr) (s : State),
    (match c with
      | .nop _ => True | .fenDescRead _ _ _ => True | .fenQuery _ _ => True | .peatUsage _ _ => True | .fenceRead _ _ => True
      | .scoreRead _ _ => True | .delSnapRead _ _ _ => True | .tableRead _ _ _ => True | .tideRead _ _ _ => True | _ => False) →
    ∃ t, exec c s = .next t ∧ t.rest = s.rest ∧ (s.traceState = 0 → t.mem1 = s.mem1 ∧ t.mem2 = s.mem2)

def Obligations.CommandsKeepOtherBlocks : Prop :=
  ∀ (s : State) (h : CmdHdr) (a b x y : Nat),
    (∃ t, exec (.fenDescSet h a b) s = .next t ∧ t.rest = { s.rest with fen := t.fen } ∧ (s.traceState = 0 → t.mem1 = s.mem1 ∧ t.mem2 = s.mem2)) ∧
    (∃ t, exec (.tideStop h a) s = .next t ∧ t.rest = { s.rest with tide := t.tide } ∧ (s.traceState = 0 → t.mem1 = s.mem1 ∧ t.mem2 = s.mem2)) ∧
    (∃ t, exec (.tideCancel h) s = .next t ∧ t.rest = s.rest ∧ (s.traceState = 0 → t.mem1 = s.mem1 ∧ t.mem2 = s.mem2)) ∧
    (∃ t, exec (.launchSet h a b x y) s = .next t ∧ t.rest = { s.rest with tide := t.tide } ∧ (s.traceState = 0 → t.mem1 = s.mem1 ∧ t.mem2 = s.mem2)) ∧
    (∃ t, exec (.cwCancel h) s = .next t ∧ t.rest = s.rest) ∧
    (∃ t, exec (.scoreReset h a) s = .next t ∧ t.rest = { s.rest with baro := t.baro }) ∧
    (∃ t, exec (.idRead h) s = .next t ∧ t.rest = { s.rest with optics := t.optics }) ∧
    (∃ t, exec (.unlockChallenge h .good) s = .next t ∧ t.rest = { s.rest with cfg := t.cfg }) ∧
    (∃ t, exec (.mpKeySet h a b x) s = .next t ∧ t.rest = { s.rest with cfg := t.cfg })

def Obligations.ResetValues : Prop :=
  (∀ x ∈ [(Reg.HOST_ER_MOD 8 63, Fld.HOST_ER_MOD_COUNT, 1), (Reg.TIME_INCR, Fld.TIME_INCR_NS, 1), (Reg.TIME_INCR, Fld.TIME_INCR_FRAC, 0x47AE147B),
      (Reg.TIME_SLEW, Fld.TIME_SLEW_RATE, 0x00400000), (Reg.PT_CTRL 63, Fld.PT_CTRL_DRZ_SEED, 1), (Reg.PT_PORT_CFG 63 7, Fld.PT_PORT_CFG_CT_EN, 1),
      (Reg.QM_CTRL 63, Fld.QM_CTRL_LFSR_SEED, 0xACE1), (Reg.FWT_CTRL 0, Fld.FWT_CTRL_SRC_CHECK, 1), (Reg.RING_DRZ_CAP 7, Fld.RING_DRZ_CAP_RATE, 16),
      (Reg.TIDE_CTRL 63, Fld.TIDE_CTRL_GUARD_NS, 6), (Reg.TIDE_PORT_CFG 63 7, Fld.TIDE_PORT_CFG_LIST_EN, 1)],
    State.reset.fld x.1 x.2.1 = x.2.2) ∧
  (∀ x ∈ [(Reg.OE_SLIP 15, Fld.OE_SLIP_THRESH, 8), (Reg.CW_DELAY 15, Fld.CW_DELAY_DELAY, 3000), (Reg.ELS_THRESH 7, Fld.ELS_THRESH_FAIL, 800),
      (Reg.FEN_STATUS 32, Fld.FEN_STATUS_LOGICAL, 15), (Reg.FEN_STATUS 33, Fld.FEN_STATUS_IN_SERVICE, 0), (Reg.FADM_CTRL 1, Fld.FADM_CTRL_BACKOFF_NS, 2000),
      (Reg.FADM_SALT_SEED 1, Fld.FADM_SALT_SEED_SEED, 1), (Reg.PEAT_RAMP, Fld.PEAT_RAMP_UP, 600), (Reg.TIER_SCRUB, Fld.TIER_SCRUB_HOURS, 24),
      (Reg.DEL_WINDOW, Fld.DEL_WINDOW_WIN_US, 1000), (Reg.BARO_BUDGET, Fld.BARO_BUDGET_BUDGET_N, 2), (Reg.CHK_IFT_CFG, Fld.CHK_IFT_CFG_HOURS, 24),
      (Reg.PMC_TAG_CAP, Fld.PMC_TAG_CAP_BURST, 64), (Reg.PWR_THRESH_DIE, Fld.PWR_THRESH_DIE_TRIP, 110)],
    State.reset.fld x.1 x.2.1 = x.2.2) ∧
  State.reset.fld (Reg.PAGE_ERR_STATUS hostPg) Fld.PAGE_ERR_STATUS_NEXT = 1 ∧ State.reset.pageBusy hostPg = false ∧ State.reset.pageLocked hostPg = false ∧
  (∀ b, State.reset.stageReached b = false) ∧ (∀ k, State.reset.tierReady k = false) ∧ (∀ a, State.reset.cnt a = 0) ∧
  (∀ i, (State.reset.cr i).state = 0) ∧ State.reset.erOn 0 = false ∧ State.reset.host.keys = [] ∧ State.reset.time.ticks = 0 ∧ State.reset.time.now = 0 ∧
  (∀ a, memByte State.reset.mem1 a = 0 ∧ memByte State.reset.mem2 a = 0) ∧ State.reset.pending = []

def Obligations.CompletionRule : Prop :=
  (∀ (s : State) (h : CmdHdr) (b i : Nat) (c : Cmpl), h.src = .ring i → c.status = 0 → h.event = false → s.complete h b c = s.unstart h b) ∧
  (∀ (s : State) (h : CmdHdr) (b i : Nat) (c : Cmpl), h.src = .ring i → (c.status ≠ 0 ∨ h.event = true) → let u := s.unstart h b
    s.complete h b c = u.post (u.crCfg i Fld.HOST_CR_CFG_EVENT_RING)
      ⟨1, b, h.tag, c.status, 0, c.sum, some i, u.short, (u.cr i).head, leBytes 8 c.result ++ c.extra⟩) ∧
  (∀ (s : State) (h : CmdHdr) (b mac seq : Nat) (c : Cmpl), h.src = .mgmt mac seq →
    let e : Ev := ⟨1, b, h.tag, c.status, 0, c.sum, none, s.short, 0, leBytes 8 c.result ++ c.extra⟩
    let m := mpBytes 0x83 0 s.mpSession seq 0 (e.bytes false false)
    (s.complete h b c).out = .mpFrame mac s.mpOwn 0x88B5 (etherPad (m ++ s.mpMac m)) :: s.out) ∧
  (∀ (s : State) (h : CmdHdr) (b : Nat) (c : Cmpl), h.src = .firmware →
    (c.status = 0 → h.event = false → s.complete h b c = s.unstart h b) ∧
    ((c.status ≠ 0 ∨ h.event = true) → s.complete h b c = (s.unstart h b).emit
      (.firmware ⟨1, b, h.tag, c.status, 0, c.sum, none, s.short, 0, leBytes 8 c.result ++ c.extra⟩))) ∧
  (∀ (s : State) (h : CmdHdr) (b : Nat) (c : Cmpl), let t := s.complete h b c
    t.regs = s.regs ∧ t.mem1 = s.mem1 ∧ t.mem2 = s.mem2 ∧ t.rest = s.rest ∧ t.logLast = s.logLast ∧ t.del = s.del)

def Obligations.ReportingFrame : Prop :=
  (∀ (s : State) (p b : Nat), s.Inv → s.traceState = 0 → let t := s.irq p b
    t.rd (Reg.PAGE_IRQ_STATUS p) = s.rd (Reg.PAGE_IRQ_STATUS p) ||| BitVec.ofNat 32 (2 ^ b) ∧
    (∀ a, a ≠ Reg.PAGE_IRQ_STATUS p → t.rd a = s.rd a) ∧ t.rest = s.rest ∧ t.mem1 = s.mem1 ∧ t.mem2 = s.mem2 ∧ t.logLast = s.logLast) ∧
  (∀ (s : State) (p code sev loc : Nat), s.Inv → s.traceState = 0 → sev < 3 → Tbl.getD s.logLast 0 p ≤ 11 →
    s.fld (Reg.PAGE_ERR_STATUS p) Fld.PAGE_ERR_STATUS_NEXT ≤ 10 → let t := s.logErr p code sev loc
    (∀ a, (a < p * 4096 + 0x010 ∨ p * 4096 + 0x100 ≤ a) → t.rd a = s.rd a) ∧ t.rest = s.rest ∧ t.mem1 = s.mem1 ∧ t.mem2 = s.mem2)
end

