-- ==== Sys2Proof/Laws/Tables.lean ====
section
/-! SUPPORT. The laws of the tables: what is read after a write, and the canonical form that every operation keeps. -/
namespace Sys2Proof.Machine
variable {α : Type}

/-! ### Keys stay in order -/

theorem rising_cons {e : Nat × α} {t : Tbl α} : rising (e :: t) = true ↔ (∀ x ∈ t, e.1 < x.1) ∧ rising t = true := by
  simp [rising]

theorem mem_put {t : Tbl α} {k : Nat} {v : α} {x : Nat × α} (h : x ∈ Tbl.put t k v) : x = (k, v) ∨ x ∈ t := by
  induction t with
  | nil => simpa [Tbl.put] using h
  | cons e t ih =>
    simp only [Tbl.put] at h
    split at h
    · simp only [List.mem_cons] at h ⊢; grind
    · split at h
      · simp only [List.mem_cons] at h ⊢; grind
      · simp only [List.mem_cons] at h ⊢
        rcases h with h | h
        · grind
        · rcases ih h with h | h <;> grind

theorem mem_del {t : Tbl α} {k : Nat} {x : Nat × α} (h : x ∈ Tbl.del t k) : x ∈ t := by
  induction t with
  | nil => simp [Tbl.del] at h
  | cons e t ih =>
    simp only [Tbl.del] at h
    split at h
    · simp [h]
    · split at h
      · exact h
      · simp only [List.mem_cons] at h ⊢
        rcases h with h | h
        · exact .inl h
        · exact .inr (ih h)

theorem rising_put {t : Tbl α} (k : Nat) (v : α) (h : rising t = true) : rising (Tbl.put t k v) = true := by
  induction t with
  | nil => simp [Tbl.put, rising]
  | cons e t ih =>
    obtain ⟨h1, h2⟩ := rising_cons.1 h
    simp only [Tbl.put]
    split
    · rename_i hk; subst hk; exact rising_cons.2 ⟨h1, h2⟩
    · split
      · rename_i _ hk
        refine rising_cons.2 ⟨?_, h⟩
        intro x hx
        rcases List.mem_cons.1 hx with rfl | hx
        · exact hk
        · exact Nat.lt_trans hk (h1 x hx)
      · refine rising_cons.2 ⟨?_, ih h2⟩
        intro x hx
        rcases mem_put hx with rfl | hx
        · simp only; omega
        · exact h1 x hx

theorem rising_del {t : Tbl α} (k : Nat) (h : rising t = true) : rising (Tbl.del t k) = true := by
  induction t with
  | nil => simp [Tbl.del, rising]
  | cons e t ih =>
    obtain ⟨h1, h2⟩ := rising_cons.1 h
    simp only [Tbl.del]
    split
    · exact h2
    · split
      · exact h
      · exact rising_cons.2 ⟨fun x hx => h1 x (mem_del hx), ih h2⟩

theorem rising_sublist {t u : Tbl α} (h : List.Sublist u t) (ht : rising t = true) : rising u = true := by
  simp only [rising, decide_eq_true_eq] at *
  exact ht.sublist h

theorem rising_filterMap {t : Tbl α} {f : Nat × α → Option (Nat × α)} (hf : ∀ x y, f x = some y → y.1 = x.1) (ht : rising t = true) :
    rising (t.filterMap f) = true := by
  simp only [rising, decide_eq_true_eq] at *
  refine List.Pairwise.filterMap f ?_ ht
  intro a b h a' ha b' hb
  rw [hf a a' ha, hf b b' hb]; exact h

/-! ### Reads after writes -/

theorem find_none_of_lt {t : Tbl α} {k : Nat} (h : ∀ x ∈ t, k < x.1) : Tbl.find t k = none := by
  cases t with
  | nil => rfl
  | cons e t =>
    have := h e (by simp)
    simp only [Tbl.find]
    rw [if_neg (by omega), if_pos this]

theorem find_put_same (t : Tbl α) (k : Nat) (v : α) : Tbl.find (Tbl.put t k v) k = some v := by
  induction t with
  | nil => simp [Tbl.put, Tbl.find]
  | cons e t ih =>
    simp only [Tbl.put]
    split
    · simp [Tbl.find]
    · split
      · simp [Tbl.find]
      · rename_i h1 h2
        simp only [Tbl.find, if_neg h1, if_neg h2, ih]

theorem find_put_other {t : Tbl α} {k j : Nat} (v : α) (h : j ≠ k) : Tbl.find (Tbl.put t k v) j = Tbl.find t j := by
  induction t with
  | nil =>
    simp only [Tbl.put, Tbl.find]
    rw [if_neg (Ne.symm h)]; split <;> rfl
  | cons e t ih =>
    simp only [Tbl.put]
    split
    · rename_i hk; subst hk; simp only [Tbl.find, if_neg (Ne.symm h)]
    · split
      · rename_i h1 h2
        simp only [Tbl.find]
        rw [if_neg (Ne.symm h)]
        split
        · rename_i h3; rw [if_neg (by omega), if_pos (by omega)]
        · rfl
      · simp only [Tbl.find, ih]

theorem find_del_same {t : Tbl α} {k : Nat} (ht : rising t = true) : Tbl.find (Tbl.del t k) k = none := by
  induction t with
  | nil => rfl
  | cons e t ih =>
    obtain ⟨h1, h2⟩ := rising_cons.1 ht
    simp only [Tbl.del]
    split
    · rename_i hk; subst hk; exact find_none_of_lt h1
    · split
      · rename_i h3 h4; simp only [Tbl.find, if_neg h3, if_pos h4]
      · rename_i h3 h4; simp only [Tbl.find, if_neg h3, if_neg h4]; exact ih h2

theorem find_del_other {t : Tbl α} {k j : Nat} (ht : rising t = true) (h : j ≠ k) : Tbl.find (Tbl.del t k) j = Tbl.find t j := by
  induction t with
  | nil => rfl
  | cons e t ih =>
    obtain ⟨h1, h2⟩ := rising_cons.1 ht
    simp only [Tbl.del]
    split
    · rename_i hk
      subst hk
      simp only [Tbl.find, if_neg (Ne.symm h)]
      split
      · rename_i h3
        exact find_none_of_lt fun x hx => Nat.lt_trans h3 (h1 x hx)
      · rfl
    · split
      · rfl
      · simp only [Tbl.find, ih h2]

theorem getD_put (t : Tbl α) (d : α) (k j : Nat) (v : α) : Tbl.getD (Tbl.put t k v) d j = if j = k then v else Tbl.getD t d j := by
  unfold Tbl.getD
  split
  · rename_i h; subst h; rw [find_put_same]; rfl
  · rename_i h; rw [find_put_other v h]

variable [DecidableEq α]

/-- What a table reads as after one key is set (the table in order). -/
theorem getD_set {t : Tbl α} (ht : rising t = true) (d v : α) (k j : Nat) : Tbl.getD (Tbl.set t d k v) d j = if j = k then v else Tbl.getD t d j := by
  unfold Tbl.set
  split
  · rename_i hv
    unfold Tbl.getD
    split
    · rename_i h; subst h; rw [find_del_same ht, hv]; rfl
    · rename_i h; rw [find_del_other ht h]
  · exact getD_put t d k j v

/-- The same where an unlisted key reads as something that depends on the key. -/
theorem find_set {t : Tbl α} (ht : rising t = true) (d : Nat → α) (v : α) (k j : Nat) :
    (Tbl.find (Tbl.set t (d k) k v) j).getD (d j) = if j = k then v else (Tbl.find t j).getD (d j) := by
  unfold Tbl.set
  split
  · rename_i hv
    split
    · rename_i h; subst h; rw [find_del_same ht, hv]; rfl
    · rename_i h; rw [find_del_other ht h]
  · split
    · rename_i h; subst h; rw [find_put_same]; rfl
    · rename_i h; rw [find_put_other v h]

/-! ### The canonical form -/

theorem wf_iff {d : Nat → α} {t : Tbl α} : Tbl.wf d t = true ↔ rising t = true ∧ ∀ e ∈ t, e.2 ≠ d e.1 := by
  simp [Tbl.wf]

theorem wf_set {d : Nat → α} {t : Tbl α} (h : Tbl.wf d t = true) (k : Nat) (v : α) : Tbl.wf d (Tbl.set t (d k) k v) = true := by
  obtain ⟨h1, h2⟩ := wf_iff.1 h
  unfold Tbl.set
  split
  · exact wf_iff.2 ⟨rising_del k h1, fun e he => h2 e (mem_del he)⟩
  · rename_i hv
    refine wf_iff.2 ⟨rising_put k v h1, fun e he => ?_⟩
    rcases mem_put he with rfl | he
    · exact hv
    · exact h2 e he

theorem wf_del {d : Nat → α} {t : Tbl α} (h : Tbl.wf d t = true) (k : Nat) : Tbl.wf d (Tbl.del t k) = true := by
  obtain ⟨h1, h2⟩ := wf_iff.1 h
  exact wf_iff.2 ⟨rising_del k h1, fun e he => h2 e (mem_del he)⟩

theorem wf_filter {d : Nat → α} {t : Tbl α} (h : Tbl.wf d t = true) (p : Nat × α → Bool) : Tbl.wf d (t.filter p) = true := by
  obtain ⟨h1, h2⟩ := wf_iff.1 h
  exact wf_iff.2 ⟨rising_sublist List.filter_sublist h1, fun e he => h2 e ((List.mem_filter.1 he).1)⟩

theorem wf_filterMap {d : Nat → α} {t : Tbl α} (h : Tbl.wf d t = true) {f : Nat × α → Option (Nat × α)}
    (hf : ∀ x y, f x = some y → y.1 = x.1 ∧ (x.2 ≠ d x.1 → y.2 ≠ d y.1)) : Tbl.wf d (t.filterMap f) = true := by
  obtain ⟨h1, h2⟩ := wf_iff.1 h
  refine wf_iff.2 ⟨rising_filterMap (fun x y e => (hf x y e).1) h1, fun e he => ?_⟩
  obtain ⟨x, hx, hxe⟩ := List.mem_filterMap.1 he
  exact (hf x e hxe).2 (h2 x hx)

/-! ### Memory -/

theorem memory_wf_iff {m : List Host.Cell} : Memory.wf m = true ↔ Tbl.wf (fun _ => (0 : Byte)) m = true := Iff.rfl

/-- Every memory operation keeps the canonical form. -/
theorem memPut_wf {m : List Host.Cell} (h : Memory.wf m = true) (a : Nat) (b : Byte) : Memory.wf (memPut m a b) = true :=
  wf_set (d := fun _ => (0 : Byte)) h a b

theorem memWrite_wf {m : List Host.Cell} (bs : List Byte) (a : Nat) (h : Memory.wf m = true) : Memory.wf (memWrite m a bs) = true := by
  induction bs generalizing m a with
  | nil => exact h
  | cons b bs ih => exact ih (a + 1) (memPut_wf h a b)

theorem memZero_wf {m : List Host.Cell} (h : Memory.wf m = true) (a n : Nat) : Memory.wf (memZero m a n) = true :=
  wf_filter (d := fun _ => (0 : Byte)) h _

/-- A byte reads as what was last written there, and every other as before. -/
theorem memByte_memPut {m : List Host.Cell} (h : Memory.wf m = true) (a b : Nat) (v : Byte) :
    memByte (memPut m a v) b = if b = a then v else memByte m b :=
  getD_set (wf_iff.1 h).1 0 v a b

/-- Writing bytes leaves every byte outside them as it was. -/
theorem memByte_memWrite_other {m : List Host.Cell} (bs : List Byte) (a b : Nat) (h : Memory.wf m = true) (hb : b < a ∨ a + bs.length ≤ b) :
    memByte (memWrite m a bs) b = memByte m b := by
  induction bs generalizing m a with
  | nil => rfl
  | cons x bs ih =>
    simp only [List.length_cons] at hb
    rw [memWrite, ih (a + 1) (memPut_wf h a x) (by omega), memByte_memPut h, if_neg (by omega)]

end Sys2Proof.Machine
end

