-- ==== Sys2Proof/Laws/Inv.lean ====
section
/-! SUPPORT. The invariant of the state: how record updates and the operations that write registers, counters and memory keep it. -/
namespace Sys2Proof.Machine

theorem State.Inv_iff {r c l h t m1 m2 sw fw li sp ti op ch fe pe de fc ba ck pm cf pw o f p} :
    (State.mk r c l h t m1 m2 sw fw li sp ti op ch fe pe de fc ba ck pm cf pw o f p).Inv ↔
      Kept r c m1 m2 := Iff.rfl

/-- A choice whose condition does not matter to the invariant: the proofs below put it in place of `if` and of `decide`. -/
noncomputable def sel {α : Type} (c : Prop) (a b : α) : α := @ite α c (Classical.propDecidable c) a b

theorem sel_or {α : Type} (c : Prop) (a b : α) : sel c a b = a ∨ sel c a b = b := by
  unfold sel
  by_cases h : c <;> simp [h]

theorem ite_sel {α : Type} (c : Prop) (i : Decidable c) (a b : α) : @ite α c i a b = sel c a b := by
  unfold sel
  by_cases h : c <;> simp [h]

theorem decide_sel (c : Prop) (i : Decidable c) : @decide c i = sel c true false := by
  unfold sel
  by_cases h : c <;> simp [h]

theorem foldl_inv {α : Type} (f : State → α → State) (hf : ∀ s x, s.Inv → (f s x).Inv) : ∀ (l : List α) (s : State), s.Inv → (l.foldl f s).Inv := by
  intro l
  induction l with
  | nil => intro s h; exact h
  | cons a l ih => intro s h; exact ih _ (hf _ _ h)

theorem countersWf_iff {t : Tbl Nat} : countersWf t = true ↔ Tbl.wf (fun _ => 0) t = true ∧ ∀ e ∈ t, e.2 ≤ 0xFFFFFFFFFFFF := by
  simp [countersWf]

theorem countersWf_del {t : Tbl Nat} (h : countersWf t = true) (k : Nat) : countersWf (Tbl.del t k) = true := by
  obtain ⟨h1, h2⟩ := countersWf_iff.1 h
  exact countersWf_iff.2 ⟨wf_del h1 k, fun e he => h2 e (mem_del he)⟩

theorem countersWf_filter {t : Tbl Nat} (h : countersWf t = true) (p : Nat × Nat → Bool) : countersWf (t.filter p) = true := by
  obtain ⟨h1, h2⟩ := countersWf_iff.1 h
  exact countersWf_iff.2 ⟨wf_filter h1 p, fun e he => h2 e (List.mem_filter.1 he).1⟩

theorem countersWf_set {t : Tbl Nat} (h : countersWf t = true) (k v : Nat) (hv : v ≤ 0xFFFFFFFFFFFF) : countersWf (Tbl.set t 0 k v) = true := by
  obtain ⟨h1, h2⟩ := countersWf_iff.1 h
  refine countersWf_iff.2 ⟨wf_set (d := fun _ => 0) h1 k v, fun e he => ?_⟩
  unfold Tbl.set at he
  split at he
  · exact h2 e (mem_del he)
  · rcases mem_put he with rfl | he
    · exact hv
    · exact h2 e he

theorem State.wr_inv (s : State) (a : Nat) (v : Word) (h : s.Inv) : (s.wr a v).Inv := ⟨wf_set h.1 a v, h.2⟩

theorem State.addCnt_inv (s : State) (a n : Nat) (h : s.Inv) : (s.addCnt a n).Inv :=
  ⟨h.1, countersWf_set h.2.1 a _ (Nat.min_le_right _ _), h.2.2⟩

theorem State.clearCnts_inv (s : State) (p : Nat) (h : s.Inv) : (s.clearCnts p).Inv := ⟨h.1, countersWf_filter h.2.1 _, h.2.2⟩

theorem State.wrWide_inv (n : Nat) : ∀ (s : State) (a v : Nat), s.Inv → (s.wrWide a v n).Inv := by
  induction n with
  | zero => intro s a v h; exact h
  | succ n ih => intro s a v h; exact ih _ _ _ (State.wr_inv _ _ _ h)

theorem State.tierWrite_inv (s : State) (t a : Nat) (bs : List Byte) (h : s.Inv) : (s.tierWrite t a bs).Inv := by
  unfold State.tierWrite
  split
  · exact ⟨h.1, h.2.1, memWrite_wf bs a h.2.2.1, h.2.2.2⟩
  · exact ⟨h.1, h.2.1, h.2.2.1, memWrite_wf bs a h.2.2.2⟩

theorem State.tierZero_inv (s : State) (t a n : Nat) (h : s.Inv) : (s.tierZero t a n).Inv := by
  unfold State.tierZero
  split
  · exact ⟨h.1, h.2.1, memZero_wf h.2.2.1 a n, h.2.2.2⟩
  · exact ⟨h.1, h.2.1, h.2.2.1, memZero_wf h.2.2.2 a n⟩

/-- A state that differs from a good one in none of the four tables is good. -/
theorem State.Inv_of_eq {s t : State} (h : s.Inv) (h1 : t.regs = s.regs) (h2 : t.cnts = s.cnts) (h3 : t.mem1 = s.mem1) (h4 : t.mem2 = s.mem2) : t.Inv := by
  unfold State.Inv
  rw [h1, h2, h3, h4]
  exact h

end Sys2Proof.Machine
end

