-- ==== Sys2Proof/Laws/Frame.lean ====
section
/-! SUPPORT. What the shared operations of registers, rings, logs, commands and traces leave alone: every block's own state (State.rest). -/
namespace Sys2Proof.Machine

theorem foldl_rest {α : Type} (f : State → α → State) (hf : ∀ s x, (f s x).rest = s.rest) :
    ∀ (l : List α) (s : State), (l.foldl f s).rest = s.rest := by
  intro l
  induction l with
  | nil => intro s; rfl
  | cons a l ih => intro s; exact (ih _).trans (hf _ _)

@[simp] theorem State.wr_rest (s : State) (a : Nat) (v : Word) : (s.wr a v).rest = s.rest := rfl

@[simp] theorem State.addCnt_rest (s : State) (a n : Nat) : (s.addCnt a n).rest = s.rest := rfl

@[simp] theorem State.clearCnts_rest (s : State) (p : Nat) : (s.clearCnts p).rest = s.rest := rfl

@[simp] theorem State.wrWide_rest (n : Nat) : ∀ (s : State) (a v : Nat), (s.wrWide a v n).rest = s.rest := by
  induction n with
  | zero => intro s a v; rfl
  | succ n ih => intro s a v; exact ih _ _ _

@[simp] theorem State.tierWrite_rest (s : State) (t a : Nat) (bs : List Byte) : (s.tierWrite t a bs).rest = s.rest := by
  unfold State.tierWrite
  split <;> rfl

@[simp] theorem State.tierZero_rest (s : State) (t a n : Nat) : (s.tierZero t a n).rest = s.rest := by
  unfold State.tierZero
  split <;> rfl

@[simp] theorem State.setFld_rest (s : State) (a : Nat) (f : Fld) (v : Nat) :
    (State.setFld s a f v).rest = s.rest := by
  unfold State.setFld
  grind -lia -linarith -ring [State.wrWide_rest]

@[simp] theorem State.setFlag_rest (s : State) (a : Nat) (f : Fld) (b : Bool) :
    (State.setFlag s a f b).rest = s.rest := by
  unfold State.setFlag
  grind -lia -linarith -ring [State.setFld_rest]

@[simp] theorem State.inc_rest (s : State) (a : Nat) :
    (State.inc s a).rest = s.rest := by
  unfold State.inc
  grind -lia -linarith -ring [State.addCnt_rest]

@[simp] theorem State.addFld_rest (s : State) (a : Nat) (f : Fld) (n : Nat) :
    (State.addFld s a f n).rest = s.rest := by
  unfold State.addFld
  grind -lia -linarith -ring [State.setFld_rest]

@[simp] theorem State.emit_rest (s : State) (o : Out) :
    (State.emit s o).rest = s.rest := by
  unfold State.emit
  grind -lia -linarith -ring [State.rest]

@[simp] theorem State.draw_rest (s : State) :
    (State.draw s).2.rest = s.rest := by
  unfold State.draw
  grind -lia -linarith -ring [State.rest]

@[simp] theorem State.setCr_rest (s : State) (i : Nat) (c : CrSt) :
    (State.setCr s i c).rest = s.rest := by
  unfold State.setCr
  grind -lia -linarith -ring [State.rest]

@[simp] theorem State.setEr_rest (s : State) (j : Nat) (e : ErSt) :
    (State.setEr s j e).rest = s.rest := by
  unfold State.setEr
  grind -lia -linarith -ring [State.rest]

@[simp] theorem State.mpSend_rest (s : State) (dest op status seq : Nat) (body : List Byte) :
    (State.mpSend s dest op status seq body).rest = s.rest := by
  unfold State.mpSend
  grind -lia -linarith -ring [State.emit_rest]

@[simp] theorem State.mpSendEvent_rest (s : State) (e : Ev) :
    (State.mpSendEvent s e).rest = s.rest := by
  unfold State.mpSendEvent
  grind -lia -linarith -ring [State.rest, State.inc_rest, State.mpSend_rest]

@[simp] theorem State.erWrite_rest (s : State) (j : Nat) (e : Ev) :
    (State.erWrite s j e).rest = s.rest := by
  unfold State.erWrite
  grind -lia -linarith -ring [State.rest, State.emit_rest, State.setEr_rest]

@[simp] theorem State.erDrop_rest (s : State) (j : Nat) :
    (State.erDrop s j).rest = s.rest := by
  unfold State.erDrop
  grind -lia -linarith -ring [State.rest, State.setEr_rest]

@[simp] theorem State.erSeq_rest (s : State) (j : Nat) (e : Ev) :
    (State.erSeq s j e).2.rest = s.rest := by
  unfold State.erSeq
  simp -zeta -zetaHave only [ite_sel]
  grind -lia -linarith -ring [sel_or, State.rest, State.setEr_rest]

@[simp] theorem State.post_rest (s : State) (j : Nat) (e : Ev) :
    (State.post s j e).rest = s.rest := by
  unfold State.post
  simp -zeta -zetaHave only [ite_sel]
  grind -lia -linarith -ring [sel_or, State.rest, State.emit_rest, State.setEr_rest, State.mpSendEvent_rest, State.erWrite_rest, State.erDrop_rest, State.erSeq_rest]

@[simp] theorem State.ringError_rest (s : State) (i code : Nat) :
    (State.ringError s i code).rest = s.rest := by
  unfold State.ringError
  grind -lia -linarith -ring [State.post_rest]

@[simp] theorem State.sendMsix_rest (s : State) (v : Nat) :
    (State.sendMsix s v).rest = s.rest := by
  unfold State.sendMsix
  simp -zeta -zetaHave only [ite_sel]
  grind -lia -linarith -ring [sel_or, State.wr_rest, State.emit_rest]

@[simp] theorem State.erSignal_rest (s : State) (j : Nat) :
    (State.erSignal s j).rest = s.rest := by
  unfold State.erSignal
  simp -zeta -zetaHave only [ite_sel]
  grind -lia -linarith -ring [sel_or, State.rest, State.setEr_rest, State.sendMsix_rest]

@[simp] theorem State.postPageIrq_rest (s : State) (p : Nat) :
    (State.postPageIrq s p).rest = s.rest := by
  unfold State.postPageIrq
  simp -zeta -zetaHave only [ite_sel]
  grind -lia -linarith -ring [sel_or, State.emit_rest, State.post_rest]

@[simp] theorem State.irqStore_rest (s : State) (p a : Nat) (v : Word) :
    (State.irqStore s p a v).rest = s.rest := by
  unfold State.irqStore
  simp -zeta -zetaHave only [ite_sel]
  grind -lia -linarith -ring [sel_or, State.wr_rest, State.postPageIrq_rest]

@[simp] theorem State.irqRaw_rest (s : State) (p b : Nat) :
    (State.irqRaw s p b).rest = s.rest := by
  unfold State.irqRaw
  grind -lia -linarith -ring [State.irqStore_rest]

@[simp] theorem State.delWrite_rest (s : State) (off : Nat) (bs : List Byte) :
    (State.delWrite s off bs).rest = s.rest := by
  unfold State.delWrite
  grind -lia -linarith -ring [State.rest, State.tierWrite_rest]

@[simp] theorem State.delZero_rest (s : State) (off n : Nat) :
    (State.delZero s off n).rest = s.rest := by
  unfold State.delZero
  grind -lia -linarith -ring [State.rest, State.tierZero_rest]

@[simp] theorem State.setSeg_rest (s : State) (kind : Nat) (g : Option SegSt) :
    (State.setSeg s kind g).rest = s.rest := by
  unfold State.setSeg
  grind -lia -linarith -ring [State.rest]

@[simp] theorem State.postSegment_rest (s : State) (off len seq kind : Nat) :
    (State.postSegment s off len seq kind).rest = s.rest := by
  unfold State.postSegment
  grind -lia -linarith -ring [State.post_rest]

@[simp] theorem State.segClose_rest (s : State) (kind : Nat) :
    (State.segClose s kind).rest = s.rest := by
  unfold State.segClose
  grind -lia -linarith -ring [State.rest, State.wrWide_rest, State.inc_rest, State.delWrite_rest, State.delZero_rest, State.setSeg_rest, State.postSegment_rest]

@[simp] theorem State.segOpen_rest (s : State) (kind time window size : Nat) :
    (State.segOpen s kind time window size).rest = s.rest := by
  unfold State.segOpen
  grind -lia -linarith -ring [State.wrWide_rest, State.delZero_rest, State.setSeg_rest]

@[simp] theorem State.segPut_rest (s : State) (kind : Nat) (entry : List Byte) (window : Nat) (unaligned : Bool) :
    (State.segPut s kind entry window unaligned).rest = s.rest := by
  unfold State.segPut
  simp -zeta -zetaHave only [ite_sel]
  grind -lia -linarith -ring [sel_or, State.rest, State.delWrite_rest, State.setSeg_rest, State.segClose_rest, State.segOpen_rest]

@[simp] theorem State.setTrace_rest (s : State) (t : TraceSt) :
    (State.setTrace s t).rest = s.rest := by
  unfold State.setTrace
  grind -lia -linarith -ring [State.rest]

@[simp] theorem State.traceEnd_rest (s : State) (full : Bool) :
    (State.traceEnd s full).rest = s.rest := by
  unfold State.traceEnd
  grind -lia -linarith -ring [State.setFld_rest, State.setFlag_rest, State.draw_rest, State.post_rest, State.irqRaw_rest, State.delWrite_rest, State.delZero_rest, State.postSegment_rest]

@[simp] theorem State.spillTakes_rest (s : State) :
    (State.spillTakes s).2.rest = s.rest := by
  unfold State.spillTakes
  simp -zeta -zetaHave only [ite_sel]
  grind -lia -linarith -ring [sel_or, State.draw_rest]

@[simp] theorem State.tracePost_rest (s : State) (e : List Byte) :
    (State.tracePost s e).rest = s.rest := by
  unfold State.tracePost
  simp -zeta -zetaHave only [ite_sel]
  grind -lia -linarith -ring [sel_or, State.rest, State.setFld_rest, State.inc_rest, State.post_rest, State.delWrite_rest, State.segPut_rest, State.setTrace_rest, State.spillTakes_rest]

@[simp] theorem State.traceFire_rest (s : State) (kind code : Nat) (e : Option (List Byte)) :
    (State.traceFire s kind code e).rest = s.rest := by
  unfold State.traceFire
  grind -lia -linarith -ring [State.rest, State.wrWide_rest, State.setFld_rest, State.post_rest, State.irqRaw_rest, State.delWrite_rest, State.delZero_rest, State.setTrace_rest, State.tracePost_rest]

@[simp] theorem State.traceTake_rest (s : State) (kind code : Nat) (e : List Byte) :
    (State.traceTake s kind code e).rest = s.rest := by
  unfold State.traceTake
  simp -zeta -zetaHave only [ite_sel]
  grind -lia -linarith -ring [sel_or, State.rest, State.inc_rest, State.setTrace_rest, State.tracePost_rest, State.traceFire_rest]

@[simp] theorem State.trace_rest (s : State) (kind code loc src inst : Nat) (data : List Byte) :
    (State.trace s kind code loc src inst data).rest = s.rest := by
  unfold State.trace
  simp -zeta -zetaHave only [ite_sel]
  grind -lia -linarith -ring [sel_or, State.traceTake_rest]

@[simp] theorem State.traceError_rest (s : State) (p code sev loc : Nat) :
    (State.traceError s p code sev loc).rest = s.rest := by
  unfold State.traceError
  simp -zeta -zetaHave only [ite_sel]
  grind -lia -linarith -ring [sel_or, State.trace_rest]

@[simp] theorem State.irq_rest (s : State) (p b : Nat) :
    (State.irq s p b).rest = s.rest := by
  unfold State.irq
  simp -zeta -zetaHave only [ite_sel]
  grind -lia -linarith -ring [sel_or, State.irqRaw_rest, State.trace_rest]

@[simp] theorem State.alertUpdate_rest (s : State) :
    (State.alertUpdate s).rest = s.rest := by
  unfold State.alertUpdate
  simp -zeta -zetaHave only [ite_sel]
  grind -lia -linarith -ring [sel_or, State.setFlag_rest, State.inc_rest, State.emit_rest]

@[simp] theorem State.alertSource_rest (s : State) (k : Nat) :
    (State.alertSource s k).rest = s.rest := by
  unfold State.alertSource
  grind -lia -linarith -ring [State.wr_rest, State.alertUpdate_rest]

@[simp] theorem State.putLogEntry_rest (s : State) (p k code sev loc : Nat) :
    (State.putLogEntry s p k code sev loc).rest = s.rest := by
  unfold State.putLogEntry
  simp -zeta -zetaHave only [ite_sel]
  grind -lia -linarith -ring [sel_or, State.wrWide_rest, State.alertSource_rest]

@[simp] theorem State.logErr_rest (s : State) (p code sev loc : Nat) :
    (State.logErr s p code sev loc).rest = s.rest := by
  unfold State.logErr
  simp -zeta -zetaHave only [ite_sel]
  grind -lia -linarith -ring [sel_or, State.rest, State.setFld_rest, State.addFld_rest, State.traceError_rest, State.irq_rest, State.putLogEntry_rest]

@[simp] theorem State.stageDone_rest (s : State) :
    (State.stageDone s).rest = s.rest := by
  unfold State.stageDone
  grind -lia -linarith -ring [State.inc_rest, State.irq_rest]

@[simp] theorem State.onPage_rest (s : State) (p : Nat) (f : State → State) (h1 : ∀ x0, x0.rest = s.rest → (f x0).rest = s.rest) :
    (State.onPage s p f).rest = s.rest := by
  unfold State.onPage
  simp -zeta -zetaHave only [ite_sel]
  grind -lia -linarith -ring [sel_or]

@[simp] theorem State.start_rest (s : State) (h : CmdHdr) (opcode : Nat) :
    (State.start s h opcode).rest = s.rest := by
  unfold State.start
  simp -zeta -zetaHave only [ite_sel, decide_sel]
  grind -lia -linarith -ring [sel_or, State.rest]

@[simp] theorem State.unstart_rest (s : State) (h : CmdHdr) (block : Nat) :
    (State.unstart s h block).rest = s.rest := by
  unfold State.unstart
  grind -lia -linarith -ring [State.rest]

@[simp] theorem State.answer_rest (s : State) (h : CmdHdr) (block : Nat) (c : Cmpl) :
    (State.answer s h block c).rest = s.rest := by
  unfold State.answer
  simp -zeta -zetaHave only [ite_sel, decide_sel]
  grind -lia -linarith -ring [sel_or, State.rest, State.inc_rest, State.emit_rest, State.mpSend_rest, State.post_rest]

@[simp] theorem State.complete_rest (s : State) (h : CmdHdr) (block : Nat) (c : Cmpl) :
    (State.complete s h block c).rest = s.rest := by
  unfold State.complete
  grind -lia -linarith -ring [State.unstart_rest, State.answer_rest]

@[simp] theorem State.abortListed_rest (s : State) (f : Started → Bool) :
    (State.abortListed s f).rest = s.rest := by
  unfold State.abortListed
  grind -lia -linarith -ring [State.rest, foldl_rest, State.answer_rest]

@[simp] theorem State.deny_rest (s : State) (h : CmdHdr) (block : Nat) :
    (State.deny s h block).rest = s.rest := by
  unfold State.deny
  grind -lia -linarith -ring [State.logErr_rest, State.complete_rest]

@[simp] theorem State.runCmd_rest (s : State) (h : CmdHdr) (opcode : Nat) (operOnly : Bool) (body : State → State × Option Cmpl) (h1 : ∀ x0, x0.rest = s.rest → (body x0).1.rest = s.rest) :
    (State.runCmd s h opcode operOnly body).rest = s.rest := by
  unfold State.runCmd
  simp -zeta -zetaHave only [ite_sel, decide_sel]
  grind -lia -linarith -ring [sel_or, State.rest, State.start_rest, State.complete_rest, State.deny_rest]

@[simp] theorem ok_rest (s : State) (result : Nat := 0) :
    (ok s result).1.rest = s.rest := by
  unfold ok
  grind -lia -linarith -ring []

@[simp] theorem fail_rest (s : State) (status : Nat) :
    (fail s status).1.rest = s.rest := by
  unfold fail
  grind -lia -linarith -ring []

@[simp] theorem failOpen_rest (s : State) :
    (failOpen s).1.rest = s.rest := by
  unfold failOpen
  grind -lia -linarith -ring [State.draw_rest, fail_rest]

@[simp] theorem State.archive_rest (s : State) (kind : Nat) (entry : List Byte) (window : Nat) (unaligned : Bool) :
    (State.archive s kind entry window unaligned).rest = s.rest := by
  unfold State.archive
  simp -zeta -zetaHave only [ite_sel]
  grind -lia -linarith -ring [sel_or, State.rest, State.inc_rest, State.segPut_rest, State.irq_rest, State.logErr_rest]

@[simp] theorem State.beatSeen_rest (s : State) (e : BeatErr) :
    (State.beatSeen s e).rest = s.rest := by
  unfold State.beatSeen
  simp -zeta -zetaHave only [ite_sel, decide_sel]
  grind -lia -linarith -ring [sel_or, State.inc_rest, State.irq_rest, State.logErr_rest]

@[simp] theorem State.regionViolation_rest (s : State) :
    (State.regionViolation s).rest = s.rest := by
  unfold State.regionViolation
  grind -lia -linarith -ring [State.inc_rest, State.irq_rest, State.logErr_rest]

@[simp] theorem State.regionWrite_rest (s : State) (kind off : Nat) (bs : List Byte) :
    (State.regionWrite s kind off bs).rest = s.rest := by
  unfold State.regionWrite
  simp -zeta -zetaHave only [ite_sel, decide_sel]
  grind -lia -linarith -ring [sel_or, State.rest, State.tierWrite_rest, State.regionViolation_rest]

@[simp] theorem State.beatsSeen_rest (s : State) (l : List BeatErr) :
    (State.beatsSeen s l).rest = s.rest := by
  unfold State.beatsSeen
  exact foldl_rest _ (fun s x => State.beatSeen_rest s x) _ _

end Sys2Proof.Machine
end

