-- ==== Sys2Proof/Laws/Regs.lean ====
section
/-! SUPPORT. What register words and fields read as after one was stored, in a state whose register table is in order. -/
namespace Sys2Proof.Machine

theorem bits_lt (hi lo n : Nat) : bits hi lo n < 2 ^ (hi - lo + 1) := Nat.mod_lt _ (Nat.two_pow_pos _)

theorem testBit_bits (hi lo n i : Nat) : (bits hi lo n).testBit i = (decide (i ≤ hi - lo) && n.testBit (lo + i)) := by
  unfold bits
  rw [Nat.testBit_mod_two_pow, Nat.testBit_shiftRight]
  congr 1
  simp only [decide_eq_decide]; omega

theorem testBit_withBits (hi lo v n i : Nat) (h : lo ≤ hi) :
    (withBits hi lo v n).testBit i = if lo ≤ i ∧ i ≤ hi then v.testBit (i - lo) else n.testBit i := by
  unfold withBits
  have h1 : n % 2 ^ lo < 2 ^ lo := Nat.mod_lt _ (Nat.two_pow_pos _)
  have h2 : v % 2 ^ (hi - lo + 1) < 2 ^ (hi - lo + 1) := Nat.mod_lt _ (Nat.two_pow_pos _)
  have h3 : n % 2 ^ lo + v % 2 ^ (hi - lo + 1) * 2 ^ lo < 2 ^ (hi + 1) := by
    have : 2 ^ (hi + 1) = 2 ^ (hi - lo + 1) * 2 ^ lo := by rw [← Nat.pow_add]; congr 1; omega
    have h4 := Nat.mul_le_mul_right (2 ^ lo) h2
    rw [Nat.succ_mul] at h4
    omega
  rw [Nat.add_comm (n % 2 ^ lo + _), Nat.mul_comm (n >>> (hi + 1)), Nat.testBit_two_pow_mul_add _ h3,
    Nat.add_comm (n % 2 ^ lo), Nat.mul_comm (v % _), Nat.testBit_two_pow_mul_add _ h1]
  simp only [Nat.testBit_mod_two_pow, Nat.testBit_shiftRight]
  split
  · split
    · rw [if_neg (by omega)]; simp; omega
    · rw [if_pos (by omega)]; simp; intro; omega
  · rw [if_neg (by omega)]; congr 1; omega

theorem bits_withBits_same (hi lo v n : Nat) (h : lo ≤ hi) : bits hi lo (withBits hi lo v n) = v % 2 ^ (hi - lo + 1) := by
  apply Nat.eq_of_testBit_eq
  intro i
  rw [testBit_bits, testBit_withBits _ _ _ _ _ h, Nat.testBit_mod_two_pow]
  by_cases hi' : i ≤ hi - lo
  · rw [if_pos (by omega)]; simp [hi', show i < hi - lo + 1 by omega]
  · simp [hi', show ¬ i < hi - lo + 1 by omega]

theorem bits_withBits_other (hi lo hi' lo' v n : Nat) (h : lo ≤ hi) (hd : hi < lo' ∨ hi' < lo) (h' : lo' ≤ hi') :
    bits hi' lo' (withBits hi lo v n) = bits hi' lo' n := by
  apply Nat.eq_of_testBit_eq
  intro i
  rw [testBit_bits, testBit_bits, testBit_withBits _ _ _ _ _ h]
  by_cases hi : i ≤ hi' - lo'
  · rw [if_neg (by omega)]
  · simp [hi]

theorem withBits_lt (hi lo v n w : Nat) (h : lo ≤ hi) (hw : hi < w) (hn : n < 2 ^ w) : withBits hi lo v n < 2 ^ w := by
  apply Nat.lt_pow_two_of_testBit
  intro i hi'
  rw [testBit_withBits _ _ _ _ _ h, if_neg (by omega)]
  exact Nat.testBit_lt_two_pow (Nat.lt_of_lt_of_le hn (Nat.pow_le_pow_right (by omega) hi'))

/-! ### Register words -/

theorem State.rd_wr (s : State) (h : rising s.regs = true) (a b : Nat) (v : Word) : (s.wr a v).rd b = if b = a then v else s.rd b := by
  unfold State.rd State.wr
  rw [find_set h]
  
theorem State.wr_rising (s : State) (h : rising s.regs = true) (a : Nat) (v : Word) : rising (s.wr a v).regs = true := by
  unfold State.wr Tbl.set
  split
  · exact rising_del a h
  · exact rising_put a v h

theorem State.Inv.rising {s : State} (h : s.Inv) : Machine.rising s.regs = true := (wf_iff.1 h.1).1
theorem State.rdWide_wr_other (n : Nat) : ∀ (s : State) (a b : Nat) (v : Word), rising s.regs = true → (b < a ∨ a + 4 * n ≤ b) →
    (s.wr b v).rdWide a n = s.rdWide a n := by
  induction n with
  | zero => intros; rfl
  | succ n ih =>
    intro s a b v h hb
    unfold State.rdWide
    rw [State.rd_wr s h, if_neg (by omega), ih s (a + 4) b v h (by omega)]

theorem State.rdWide_lt (n : Nat) : ∀ (s : State) (a : Nat), s.rdWide a n < 2 ^ (32 * n) := by
  induction n with
  | zero => intros; simp [State.rdWide]
  | succ n ih =>
    intro s a
    unfold State.rdWide
    have := ih s (a + 4)
    have h2 := (s.rd a).isLt
    rw [show 32 * (n + 1) = 32 + 32 * n by omega, Nat.pow_add]
    have : 2 ^ 32 * (s.rdWide (a + 4) n + 1) ≤ 2 ^ 32 * 2 ^ (32 * n) := Nat.mul_le_mul_left _ this
    omega

theorem State.wrWide_rising (n : Nat) : ∀ (s : State) (a v : Nat), rising s.regs = true → rising (s.wrWide a v n).regs = true := by
  induction n with
  | zero => intro s a v h; exact h
  | succ n ih => intro s a v h; exact ih _ _ _ (State.wr_rising s h _ _)

/-- A register word beside those stored keeps its value. -/
theorem State.rd_wrWide_other (n : Nat) : ∀ (s : State) (a b v : Nat), rising s.regs = true → (b < a ∨ a + 4 * n ≤ b) →
    (s.wrWide a v n).rd b = s.rd b := by
  induction n with
  | zero => intros; rfl
  | succ n ih =>
    intro s a b v h hb
    unfold State.wrWide
    rw [ih _ _ _ _ (State.wr_rising s h _ _) (by omega), State.rd_wr s h, if_neg (by omega)]

/-- What n words read as after they were stored. -/
theorem State.rdWide_wrWide (n : Nat) : ∀ (s : State) (a v : Nat), rising s.regs = true → (s.wrWide a v n).rdWide a n = v % 2 ^ (32 * n) := by
  induction n with
  | zero => intro s a v h; simp [State.rdWide, Nat.mod_one]
  | succ n ih =>
    intro s a v h
    have h1 := State.wr_rising s h a (BitVec.ofNat 32 v)
    unfold State.wrWide State.rdWide
    rw [State.rd_wrWide_other n _ _ _ _ h1 (by omega), State.rd_wr s h, if_pos rfl, ih _ _ _ h1, BitVec.toNat_ofNat, Nat.shiftRight_eq_div_pow,
      show 32 * (n + 1) = 32 + 32 * n by omega, Nat.pow_add, Nat.mod_mul]

/-- Registers beside those stored read as before. -/
theorem State.rdWide_wrWide_other (n : Nat) : ∀ (s : State) (a b v m : Nat), rising s.regs = true → (b + 4 * m ≤ a ∨ a + 4 * n ≤ b) →
    (s.wrWide a v n).rdWide b m = s.rdWide b m := by
  induction n with
  | zero => intros; rfl
  | succ n ih =>
    intro s a b v m h hb
    unfold State.wrWide
    rw [ih _ _ _ _ _ (State.wr_rising s h _ _) (by omega), State.rdWide_wr_other m s b a _ h (by omega)]

/-! ### Fields -/

/-- Reads of registers depend on the register table alone. -/
theorem State.rdWide_congr {s t : State} (h : t.regs = s.regs) (n : Nat) : ∀ a, t.rdWide a n = s.rdWide a n := by
  induction n with
  | zero => intro a; rfl
  | succ n ih => intro a; unfold State.rdWide; rw [ih, show t.rd a = s.rd a by unfold State.rd; rw [h]]

theorem State.rd_congr {s t : State} (h : t.regs = s.regs) (a : Nat) : t.rd a = s.rd a := by unfold State.rd; rw [h]

theorem State.fld_congr {s t : State} (h : t.regs = s.regs) (a : Nat) (f : Fld) : t.fld a f = s.fld a f := by
  unfold State.fld; rw [State.rdWide_congr h]

theorem State.flag_congr {s t : State} (h : t.regs = s.regs) (a : Nat) (f : Fld) : t.flag a f = s.flag a f := by
  unfold State.flag; rw [State.fld_congr h]

/-- Do two fields of one register lie within one word, and apart? -/
def fldApart (f g : Fld) : Bool := decide (f.hi < g.lo) || decide (g.hi < f.lo)

theorem State.fld_setFld_same (s : State) (h : rising s.regs = true) (a : Nat) (f : Fld) (v : Nat) (hf : f.lo ≤ f.hi) :
    (s.setFld a f v).fld a f = v % 2 ^ (f.hi - f.lo + 1) := by
  unfold State.setFld State.fld
  simp only
  have hl := State.rdWide_lt (f.hi / 32 - f.lo / 32 + 1) s (a + 4 * (f.lo / 32))
  have hw := withBits_lt (f.hi - 32 * (f.lo / 32)) (f.lo % 32) v _ _ (by omega) (by omega) hl
  rw [State.rdWide_wrWide _ _ _ _ h, Nat.mod_eq_of_lt hw, bits_withBits_same _ _ _ _ (by omega)]
  congr 2; omega

theorem State.setFld_rising (s : State) (h : rising s.regs = true) (a : Nat) (f : Fld) (v : Nat) : rising (s.setFld a f v).regs = true := by
  unfold State.setFld; exact State.wrWide_rising _ _ _ _ h

/-- Another field of the same word keeps its value. -/
theorem State.fld_setFld_apart (s : State) (h : rising s.regs = true) (a : Nat) (f g : Fld) (v : Nat) (hf : f.lo ≤ f.hi) (hg : g.lo ≤ g.hi)
    (hf' : f.hi < 32) (hg' : g.hi < 32) (ha : fldApart f g = true) : (s.setFld a f v).fld a g = s.fld a g := by
  have e1 : f.lo / 32 = 0 := by omega
  have e2 : f.hi / 32 = 0 := by omega
  have e3 : g.lo / 32 = 0 := by omega
  have e4 : g.hi / 32 = 0 := by omega
  simp only [fldApart, Bool.or_eq_true, decide_eq_true_eq] at ha
  unfold State.setFld State.fld
  simp only [e1, e2, e3, e4, Nat.mul_zero, Nat.add_zero, Nat.sub_zero, Nat.zero_add, Nat.sub_self]
  have hw := withBits_lt f.hi (f.lo % 32) v _ _ (by omega) (by omega) (State.rdWide_lt 1 s a)
  rw [State.rdWide_wrWide _ _ _ _ h, Nat.mod_eq_of_lt hw, bits_withBits_other _ _ _ _ _ _ (by omega) (by omega) (by omega)]

/-- The register words beside the field's own keep their values. -/
theorem State.rd_setFld_other (s : State) (h : rising s.regs = true) (a b : Nat) (f : Fld) (v : Nat) (hf : f.lo ≤ f.hi) (hb : b < a ∨ a + 4 * (f.hi / 32) + 4 ≤ b) :
    (s.setFld a f v).rd b = s.rd b := by
  unfold State.setFld
  exact State.rd_wrWide_other _ _ _ _ _ h (by omega)

theorem State.fld_setFld_other (s : State) (h : rising s.regs = true) (a b : Nat) (f g : Fld) (v : Nat) (hf : f.lo ≤ f.hi) (hg : g.lo ≤ g.hi)
    (hb : b + 4 * (g.hi / 32) + 4 ≤ a ∨ a + 4 * (f.hi / 32) + 4 ≤ b) : (s.setFld a f v).fld b g = s.fld b g := by
  unfold State.setFld State.fld
  simp only
  rw [State.rdWide_wrWide_other _ _ _ _ _ _ h (by omega)]

/-- A stored one-bit field reads as it was stored. -/
theorem State.flag_setFlag_same (s : State) (h : rising s.regs = true) (a : Nat) (f : Fld) (b : Bool) (hf : f.lo = f.hi) :
    (s.setFlag a f b).flag a f = b := by
  unfold State.flag State.setFlag
  rw [State.fld_setFld_same s h a f _ (by omega), hf]
  cases b <;> simp [b2n]
end Sys2Proof.Machine
end

