-- ==== Sys2Proof/Laws/State.lean ====
section
/-! SUPPORT. What each update of the state leaves alone: one lemma for each field. -/
namespace Sys2Proof.Machine

@[simp] theorem State.wr_cnts (s : State) (a : Nat) (v : Word) : (s.wr a v).cnts = s.cnts := rfl
@[simp] theorem State.wr_logLast (s : State) (a : Nat) (v : Word) : (s.wr a v).logLast = s.logLast := rfl
@[simp] theorem State.wr_host (s : State) (a : Nat) (v : Word) : (s.wr a v).host = s.host := rfl
@[simp] theorem State.wr_time (s : State) (a : Nat) (v : Word) : (s.wr a v).time = s.time := rfl
@[simp] theorem State.wr_mem1 (s : State) (a : Nat) (v : Word) : (s.wr a v).mem1 = s.mem1 := rfl
@[simp] theorem State.wr_mem2 (s : State) (a : Nat) (v : Word) : (s.wr a v).mem2 = s.mem2 := rfl
@[simp] theorem State.wr_sw (s : State) (a : Nat) (v : Word) : (s.wr a v).sw = s.sw := rfl
@[simp] theorem State.wr_fwt (s : State) (a : Nat) (v : Word) : (s.wr a v).fwt = s.fwt := rfl
@[simp] theorem State.wr_links (s : State) (a : Nat) (v : Word) : (s.wr a v).links = s.links := rfl
@[simp] theorem State.wr_spine (s : State) (a : Nat) (v : Word) : (s.wr a v).spine = s.spine := rfl
@[simp] theorem State.wr_tide (s : State) (a : Nat) (v : Word) : (s.wr a v).tide = s.tide := rfl
@[simp] theorem State.wr_optics (s : State) (a : Nat) (v : Word) : (s.wr a v).optics = s.optics := rfl
@[simp] theorem State.wr_charges (s : State) (a : Nat) (v : Word) : (s.wr a v).charges = s.charges := rfl
@[simp] theorem State.wr_fen (s : State) (a : Nat) (v : Word) : (s.wr a v).fen = s.fen := rfl
@[simp] theorem State.wr_peat (s : State) (a : Nat) (v : Word) : (s.wr a v).peat = s.peat := rfl
@[simp] theorem State.wr_del (s : State) (a : Nat) (v : Word) : (s.wr a v).del = s.del := rfl
@[simp] theorem State.wr_fences (s : State) (a : Nat) (v : Word) : (s.wr a v).fences = s.fences := rfl
@[simp] theorem State.wr_baro (s : State) (a : Nat) (v : Word) : (s.wr a v).baro = s.baro := rfl
@[simp] theorem State.wr_chk (s : State) (a : Nat) (v : Word) : (s.wr a v).chk = s.chk := rfl
@[simp] theorem State.wr_pmc (s : State) (a : Nat) (v : Word) : (s.wr a v).pmc = s.pmc := rfl
@[simp] theorem State.wr_cfg (s : State) (a : Nat) (v : Word) : (s.wr a v).cfg = s.cfg := rfl
@[simp] theorem State.wr_pwr (s : State) (a : Nat) (v : Word) : (s.wr a v).pwr = s.pwr := rfl
@[simp] theorem State.wr_out (s : State) (a : Nat) (v : Word) : (s.wr a v).out = s.out := rfl
@[simp] theorem State.wr_free (s : State) (a : Nat) (v : Word) : (s.wr a v).free = s.free := rfl
@[simp] theorem State.wr_pending (s : State) (a : Nat) (v : Word) : (s.wr a v).pending = s.pending := rfl

@[simp] theorem State.addCnt_regs (s : State) (a n : Nat) : (s.addCnt a n).regs = s.regs := rfl
@[simp] theorem State.addCnt_logLast (s : State) (a n : Nat) : (s.addCnt a n).logLast = s.logLast := rfl
@[simp] theorem State.addCnt_host (s : State) (a n : Nat) : (s.addCnt a n).host = s.host := rfl
@[simp] theorem State.addCnt_time (s : State) (a n : Nat) : (s.addCnt a n).time = s.time := rfl
@[simp] theorem State.addCnt_mem1 (s : State) (a n : Nat) : (s.addCnt a n).mem1 = s.mem1 := rfl
@[simp] theorem State.addCnt_mem2 (s : State) (a n : Nat) : (s.addCnt a n).mem2 = s.mem2 := rfl
@[simp] theorem State.addCnt_sw (s : State) (a n : Nat) : (s.addCnt a n).sw = s.sw := rfl
@[simp] theorem State.addCnt_fwt (s : State) (a n : Nat) : (s.addCnt a n).fwt = s.fwt := rfl
@[simp] theorem State.addCnt_links (s : State) (a n : Nat) : (s.addCnt a n).links = s.links := rfl
@[simp] theorem State.addCnt_spine (s : State) (a n : Nat) : (s.addCnt a n).spine = s.spine := rfl
@[simp] theorem State.addCnt_tide (s : State) (a n : Nat) : (s.addCnt a n).tide = s.tide := rfl
@[simp] theorem State.addCnt_optics (s : State) (a n : Nat) : (s.addCnt a n).optics = s.optics := rfl
@[simp] theorem State.addCnt_charges (s : State) (a n : Nat) : (s.addCnt a n).charges = s.charges := rfl
@[simp] theorem State.addCnt_fen (s : State) (a n : Nat) : (s.addCnt a n).fen = s.fen := rfl
@[simp] theorem State.addCnt_peat (s : State) (a n : Nat) : (s.addCnt a n).peat = s.peat := rfl
@[simp] theorem State.addCnt_del (s : State) (a n : Nat) : (s.addCnt a n).del = s.del := rfl
@[simp] theorem State.addCnt_fences (s : State) (a n : Nat) : (s.addCnt a n).fences = s.fences := rfl
@[simp] theorem State.addCnt_baro (s : State) (a n : Nat) : (s.addCnt a n).baro = s.baro := rfl
@[simp] theorem State.addCnt_chk (s : State) (a n : Nat) : (s.addCnt a n).chk = s.chk := rfl
@[simp] theorem State.addCnt_pmc (s : State) (a n : Nat) : (s.addCnt a n).pmc = s.pmc := rfl
@[simp] theorem State.addCnt_cfg (s : State) (a n : Nat) : (s.addCnt a n).cfg = s.cfg := rfl
@[simp] theorem State.addCnt_pwr (s : State) (a n : Nat) : (s.addCnt a n).pwr = s.pwr := rfl
@[simp] theorem State.addCnt_out (s : State) (a n : Nat) : (s.addCnt a n).out = s.out := rfl
@[simp] theorem State.addCnt_free (s : State) (a n : Nat) : (s.addCnt a n).free = s.free := rfl
@[simp] theorem State.addCnt_pending (s : State) (a n : Nat) : (s.addCnt a n).pending = s.pending := rfl

@[simp] theorem State.inc_regs (s : State) (a : Nat) : (s.inc a).regs = s.regs := rfl
@[simp] theorem State.inc_logLast (s : State) (a : Nat) : (s.inc a).logLast = s.logLast := rfl
@[simp] theorem State.inc_host (s : State) (a : Nat) : (s.inc a).host = s.host := rfl
@[simp] theorem State.inc_time (s : State) (a : Nat) : (s.inc a).time = s.time := rfl
@[simp] theorem State.inc_mem1 (s : State) (a : Nat) : (s.inc a).mem1 = s.mem1 := rfl
@[simp] theorem State.inc_mem2 (s : State) (a : Nat) : (s.inc a).mem2 = s.mem2 := rfl
@[simp] theorem State.inc_sw (s : State) (a : Nat) : (s.inc a).sw = s.sw := rfl
@[simp] theorem State.inc_fwt (s : State) (a : Nat) : (s.inc a).fwt = s.fwt := rfl
@[simp] theorem State.inc_links (s : State) (a : Nat) : (s.inc a).links = s.links := rfl
@[simp] theorem State.inc_spine (s : State) (a : Nat) : (s.inc a).spine = s.spine := rfl
@[simp] theorem State.inc_tide (s : State) (a : Nat) : (s.inc a).tide = s.tide := rfl
@[simp] theorem State.inc_optics (s : State) (a : Nat) : (s.inc a).optics = s.optics := rfl
@[simp] theorem State.inc_charges (s : State) (a : Nat) : (s.inc a).charges = s.charges := rfl
@[simp] theorem State.inc_fen (s : State) (a : Nat) : (s.inc a).fen = s.fen := rfl
@[simp] theorem State.inc_peat (s : State) (a : Nat) : (s.inc a).peat = s.peat := rfl
@[simp] theorem State.inc_del (s : State) (a : Nat) : (s.inc a).del = s.del := rfl
@[simp] theorem State.inc_fences (s : State) (a : Nat) : (s.inc a).fences = s.fences := rfl
@[simp] theorem State.inc_baro (s : State) (a : Nat) : (s.inc a).baro = s.baro := rfl
@[simp] theorem State.inc_chk (s : State) (a : Nat) : (s.inc a).chk = s.chk := rfl
@[simp] theorem State.inc_pmc (s : State) (a : Nat) : (s.inc a).pmc = s.pmc := rfl
@[simp] theorem State.inc_cfg (s : State) (a : Nat) : (s.inc a).cfg = s.cfg := rfl
@[simp] theorem State.inc_pwr (s : State) (a : Nat) : (s.inc a).pwr = s.pwr := rfl
@[simp] theorem State.inc_out (s : State) (a : Nat) : (s.inc a).out = s.out := rfl
@[simp] theorem State.inc_free (s : State) (a : Nat) : (s.inc a).free = s.free := rfl
@[simp] theorem State.inc_pending (s : State) (a : Nat) : (s.inc a).pending = s.pending := rfl

@[simp] theorem State.clearCnts_regs (s : State) (p : Nat) : (s.clearCnts p).regs = s.regs := rfl
@[simp] theorem State.clearCnts_logLast (s : State) (p : Nat) : (s.clearCnts p).logLast = s.logLast := rfl
@[simp] theorem State.clearCnts_host (s : State) (p : Nat) : (s.clearCnts p).host = s.host := rfl
@[simp] theorem State.clearCnts_time (s : State) (p : Nat) : (s.clearCnts p).time = s.time := rfl
@[simp] theorem State.clearCnts_mem1 (s : State) (p : Nat) : (s.clearCnts p).mem1 = s.mem1 := rfl
@[simp] theorem State.clearCnts_mem2 (s : State) (p : Nat) : (s.clearCnts p).mem2 = s.mem2 := rfl
@[simp] theorem State.clearCnts_sw (s : State) (p : Nat) : (s.clearCnts p).sw = s.sw := rfl
@[simp] theorem State.clearCnts_fwt (s : State) (p : Nat) : (s.clearCnts p).fwt = s.fwt := rfl
@[simp] theorem State.clearCnts_links (s : State) (p : Nat) : (s.clearCnts p).links = s.links := rfl
@[simp] theorem State.clearCnts_spine (s : State) (p : Nat) : (s.clearCnts p).spine = s.spine := rfl
@[simp] theorem State.clearCnts_tide (s : State) (p : Nat) : (s.clearCnts p).tide = s.tide := rfl
@[simp] theorem State.clearCnts_optics (s : State) (p : Nat) : (s.clearCnts p).optics = s.optics := rfl
@[simp] theorem State.clearCnts_charges (s : State) (p : Nat) : (s.clearCnts p).charges = s.charges := rfl
@[simp] theorem State.clearCnts_fen (s : State) (p : Nat) : (s.clearCnts p).fen = s.fen := rfl
@[simp] theorem State.clearCnts_peat (s : State) (p : Nat) : (s.clearCnts p).peat = s.peat := rfl
@[simp] theorem State.clearCnts_del (s : State) (p : Nat) : (s.clearCnts p).del = s.del := rfl
@[simp] theorem State.clearCnts_fences (s : State) (p : Nat) : (s.clearCnts p).fences = s.fences := rfl
@[simp] theorem State.clearCnts_baro (s : State) (p : Nat) : (s.clearCnts p).baro = s.baro := rfl
@[simp] theorem State.clearCnts_chk (s : State) (p : Nat) : (s.clearCnts p).chk = s.chk := rfl
@[simp] theorem State.clearCnts_pmc (s : State) (p : Nat) : (s.clearCnts p).pmc = s.pmc := rfl
@[simp] theorem State.clearCnts_cfg (s : State) (p : Nat) : (s.clearCnts p).cfg = s.cfg := rfl
@[simp] theorem State.clearCnts_pwr (s : State) (p : Nat) : (s.clearCnts p).pwr = s.pwr := rfl
@[simp] theorem State.clearCnts_out (s : State) (p : Nat) : (s.clearCnts p).out = s.out := rfl
@[simp] theorem State.clearCnts_free (s : State) (p : Nat) : (s.clearCnts p).free = s.free := rfl
@[simp] theorem State.clearCnts_pending (s : State) (p : Nat) : (s.clearCnts p).pending = s.pending := rfl

@[simp] theorem State.emit_regs (s : State) (o : Out) : (s.emit o).regs = s.regs := rfl
@[simp] theorem State.emit_cnts (s : State) (o : Out) : (s.emit o).cnts = s.cnts := rfl
@[simp] theorem State.emit_logLast (s : State) (o : Out) : (s.emit o).logLast = s.logLast := rfl
@[simp] theorem State.emit_host (s : State) (o : Out) : (s.emit o).host = s.host := rfl
@[simp] theorem State.emit_time (s : State) (o : Out) : (s.emit o).time = s.time := rfl
@[simp] theorem State.emit_mem1 (s : State) (o : Out) : (s.emit o).mem1 = s.mem1 := rfl
@[simp] theorem State.emit_mem2 (s : State) (o : Out) : (s.emit o).mem2 = s.mem2 := rfl
@[simp] theorem State.emit_sw (s : State) (o : Out) : (s.emit o).sw = s.sw := rfl
@[simp] theorem State.emit_fwt (s : State) (o : Out) : (s.emit o).fwt = s.fwt := rfl
@[simp] theorem State.emit_links (s : State) (o : Out) : (s.emit o).links = s.links := rfl
@[simp] theorem State.emit_spine (s : State) (o : Out) : (s.emit o).spine = s.spine := rfl
@[simp] theorem State.emit_tide (s : State) (o : Out) : (s.emit o).tide = s.tide := rfl
@[simp] theorem State.emit_optics (s : State) (o : Out) : (s.emit o).optics = s.optics := rfl
@[simp] theorem State.emit_charges (s : State) (o : Out) : (s.emit o).charges = s.charges := rfl
@[simp] theorem State.emit_fen (s : State) (o : Out) : (s.emit o).fen = s.fen := rfl
@[simp] theorem State.emit_peat (s : State) (o : Out) : (s.emit o).peat = s.peat := rfl
@[simp] theorem State.emit_del (s : State) (o : Out) : (s.emit o).del = s.del := rfl
@[simp] theorem State.emit_fences (s : State) (o : Out) : (s.emit o).fences = s.fences := rfl
@[simp] theorem State.emit_baro (s : State) (o : Out) : (s.emit o).baro = s.baro := rfl
@[simp] theorem State.emit_chk (s : State) (o : Out) : (s.emit o).chk = s.chk := rfl
@[simp] theorem State.emit_pmc (s : State) (o : Out) : (s.emit o).pmc = s.pmc := rfl
@[simp] theorem State.emit_cfg (s : State) (o : Out) : (s.emit o).cfg = s.cfg := rfl
@[simp] theorem State.emit_pwr (s : State) (o : Out) : (s.emit o).pwr = s.pwr := rfl
@[simp] theorem State.emit_free (s : State) (o : Out) : (s.emit o).free = s.free := rfl
@[simp] theorem State.emit_pending (s : State) (o : Out) : (s.emit o).pending = s.pending := rfl

@[simp] theorem State.setCr_regs (s : State) (i : Nat) (c : CrSt) : (s.setCr i c).regs = s.regs := rfl
@[simp] theorem State.setCr_cnts (s : State) (i : Nat) (c : CrSt) : (s.setCr i c).cnts = s.cnts := rfl
@[simp] theorem State.setCr_logLast (s : State) (i : Nat) (c : CrSt) : (s.setCr i c).logLast = s.logLast := rfl
@[simp] theorem State.setCr_time (s : State) (i : Nat) (c : CrSt) : (s.setCr i c).time = s.time := rfl
@[simp] theorem State.setCr_mem1 (s : State) (i : Nat) (c : CrSt) : (s.setCr i c).mem1 = s.mem1 := rfl
@[simp] theorem State.setCr_mem2 (s : State) (i : Nat) (c : CrSt) : (s.setCr i c).mem2 = s.mem2 := rfl
@[simp] theorem State.setCr_sw (s : State) (i : Nat) (c : CrSt) : (s.setCr i c).sw = s.sw := rfl
@[simp] theorem State.setCr_fwt (s : State) (i : Nat) (c : CrSt) : (s.setCr i c).fwt = s.fwt := rfl
@[simp] theorem State.setCr_links (s : State) (i : Nat) (c : CrSt) : (s.setCr i c).links = s.links := rfl
@[simp] theorem State.setCr_spine (s : State) (i : Nat) (c : CrSt) : (s.setCr i c).spine = s.spine := rfl
@[simp] theorem State.setCr_tide (s : State) (i : Nat) (c : CrSt) : (s.setCr i c).tide = s.tide := rfl
@[simp] theorem State.setCr_optics (s : State) (i : Nat) (c : CrSt) : (s.setCr i c).optics = s.optics := rfl
@[simp] theorem State.setCr_charges (s : State) (i : Nat) (c : CrSt) : (s.setCr i c).charges = s.charges := rfl
@[simp] theorem State.setCr_fen (s : State) (i : Nat) (c : CrSt) : (s.setCr i c).fen = s.fen := rfl
@[simp] theorem State.setCr_peat (s : State) (i : Nat) (c : CrSt) : (s.setCr i c).peat = s.peat := rfl
@[simp] theorem State.setCr_del (s : State) (i : Nat) (c : CrSt) : (s.setCr i c).del = s.del := rfl
@[simp] theorem State.setCr_fences (s : State) (i : Nat) (c : CrSt) : (s.setCr i c).fences = s.fences := rfl
@[simp] theorem State.setCr_baro (s : State) (i : Nat) (c : CrSt) : (s.setCr i c).baro = s.baro := rfl
@[simp] theorem State.setCr_chk (s : State) (i : Nat) (c : CrSt) : (s.setCr i c).chk = s.chk := rfl
@[simp] theorem State.setCr_pmc (s : State) (i : Nat) (c : CrSt) : (s.setCr i c).pmc = s.pmc := rfl
@[simp] theorem State.setCr_cfg (s : State) (i : Nat) (c : CrSt) : (s.setCr i c).cfg = s.cfg := rfl
@[simp] theorem State.setCr_pwr (s : State) (i : Nat) (c : CrSt) : (s.setCr i c).pwr = s.pwr := rfl
@[simp] theorem State.setCr_out (s : State) (i : Nat) (c : CrSt) : (s.setCr i c).out = s.out := rfl
@[simp] theorem State.setCr_free (s : State) (i : Nat) (c : CrSt) : (s.setCr i c).free = s.free := rfl
@[simp] theorem State.setCr_pending (s : State) (i : Nat) (c : CrSt) : (s.setCr i c).pending = s.pending := rfl

@[simp] theorem State.setEr_regs (s : State) (j : Nat) (e : ErSt) : (s.setEr j e).regs = s.regs := rfl
@[simp] theorem State.setEr_cnts (s : State) (j : Nat) (e : ErSt) : (s.setEr j e).cnts = s.cnts := rfl
@[simp] theorem State.setEr_logLast (s : State) (j : Nat) (e : ErSt) : (s.setEr j e).logLast = s.logLast := rfl
@[simp] theorem State.setEr_time (s : State) (j : Nat) (e : ErSt) : (s.setEr j e).time = s.time := rfl
@[simp] theorem State.setEr_mem1 (s : State) (j : Nat) (e : ErSt) : (s.setEr j e).mem1 = s.mem1 := rfl
@[simp] theorem State.setEr_mem2 (s : State) (j : Nat) (e : ErSt) : (s.setEr j e).mem2 = s.mem2 := rfl
@[simp] theorem State.setEr_sw (s : State) (j : Nat) (e : ErSt) : (s.setEr j e).sw = s.sw := rfl
@[simp] theorem State.setEr_fwt (s : State) (j : Nat) (e : ErSt) : (s.setEr j e).fwt = s.fwt := rfl
@[simp] theorem State.setEr_links (s : State) (j : Nat) (e : ErSt) : (s.setEr j e).links = s.links := rfl
@[simp] theorem State.setEr_spine (s : State) (j : Nat) (e : ErSt) : (s.setEr j e).spine = s.spine := rfl
@[simp] theorem State.setEr_tide (s : State) (j : Nat) (e : ErSt) : (s.setEr j e).tide = s.tide := rfl
@[simp] theorem State.setEr_optics (s : State) (j : Nat) (e : ErSt) : (s.setEr j e).optics = s.optics := rfl
@[simp] theorem State.setEr_charges (s : State) (j : Nat) (e : ErSt) : (s.setEr j e).charges = s.charges := rfl
@[simp] theorem State.setEr_fen (s : State) (j : Nat) (e : ErSt) : (s.setEr j e).fen = s.fen := rfl
@[simp] theorem State.setEr_peat (s : State) (j : Nat) (e : ErSt) : (s.setEr j e).peat = s.peat := rfl
@[simp] theorem State.setEr_del (s : State) (j : Nat) (e : ErSt) : (s.setEr j e).del = s.del := rfl
@[simp] theorem State.setEr_fences (s : State) (j : Nat) (e : ErSt) : (s.setEr j e).fences = s.fences := rfl
@[simp] theorem State.setEr_baro (s : State) (j : Nat) (e : ErSt) : (s.setEr j e).baro = s.baro := rfl
@[simp] theorem State.setEr_chk (s : State) (j : Nat) (e : ErSt) : (s.setEr j e).chk = s.chk := rfl
@[simp] theorem State.setEr_pmc (s : State) (j : Nat) (e : ErSt) : (s.setEr j e).pmc = s.pmc := rfl
@[simp] theorem State.setEr_cfg (s : State) (j : Nat) (e : ErSt) : (s.setEr j e).cfg = s.cfg := rfl
@[simp] theorem State.setEr_pwr (s : State) (j : Nat) (e : ErSt) : (s.setEr j e).pwr = s.pwr := rfl
@[simp] theorem State.setEr_out (s : State) (j : Nat) (e : ErSt) : (s.setEr j e).out = s.out := rfl
@[simp] theorem State.setEr_free (s : State) (j : Nat) (e : ErSt) : (s.setEr j e).free = s.free := rfl
@[simp] theorem State.setEr_pending (s : State) (j : Nat) (e : ErSt) : (s.setEr j e).pending = s.pending := rfl

@[simp] theorem State.setTrace_regs (s : State) (t : TraceSt) : (s.setTrace t).regs = s.regs := rfl
@[simp] theorem State.setTrace_cnts (s : State) (t : TraceSt) : (s.setTrace t).cnts = s.cnts := rfl
@[simp] theorem State.setTrace_logLast (s : State) (t : TraceSt) : (s.setTrace t).logLast = s.logLast := rfl
@[simp] theorem State.setTrace_host (s : State) (t : TraceSt) : (s.setTrace t).host = s.host := rfl
@[simp] theorem State.setTrace_time (s : State) (t : TraceSt) : (s.setTrace t).time = s.time := rfl
@[simp] theorem State.setTrace_mem1 (s : State) (t : TraceSt) : (s.setTrace t).mem1 = s.mem1 := rfl
@[simp] theorem State.setTrace_mem2 (s : State) (t : TraceSt) : (s.setTrace t).mem2 = s.mem2 := rfl
@[simp] theorem State.setTrace_sw (s : State) (t : TraceSt) : (s.setTrace t).sw = s.sw := rfl
@[simp] theorem State.setTrace_fwt (s : State) (t : TraceSt) : (s.setTrace t).fwt = s.fwt := rfl
@[simp] theorem State.setTrace_links (s : State) (t : TraceSt) : (s.setTrace t).links = s.links := rfl
@[simp] theorem State.setTrace_spine (s : State) (t : TraceSt) : (s.setTrace t).spine = s.spine := rfl
@[simp] theorem State.setTrace_tide (s : State) (t : TraceSt) : (s.setTrace t).tide = s.tide := rfl
@[simp] theorem State.setTrace_optics (s : State) (t : TraceSt) : (s.setTrace t).optics = s.optics := rfl
@[simp] theorem State.setTrace_charges (s : State) (t : TraceSt) : (s.setTrace t).charges = s.charges := rfl
@[simp] theorem State.setTrace_fen (s : State) (t : TraceSt) : (s.setTrace t).fen = s.fen := rfl
@[simp] theorem State.setTrace_peat (s : State) (t : TraceSt) : (s.setTrace t).peat = s.peat := rfl
@[simp] theorem State.setTrace_fences (s : State) (t : TraceSt) : (s.setTrace t).fences = s.fences := rfl
@[simp] theorem State.setTrace_baro (s : State) (t : TraceSt) : (s.setTrace t).baro = s.baro := rfl
@[simp] theorem State.setTrace_chk (s : State) (t : TraceSt) : (s.setTrace t).chk = s.chk := rfl
@[simp] theorem State.setTrace_pmc (s : State) (t : TraceSt) : (s.setTrace t).pmc = s.pmc := rfl
@[simp] theorem State.setTrace_cfg (s : State) (t : TraceSt) : (s.setTrace t).cfg = s.cfg := rfl
@[simp] theorem State.setTrace_pwr (s : State) (t : TraceSt) : (s.setTrace t).pwr = s.pwr := rfl
@[simp] theorem State.setTrace_out (s : State) (t : TraceSt) : (s.setTrace t).out = s.out := rfl
@[simp] theorem State.setTrace_free (s : State) (t : TraceSt) : (s.setTrace t).free = s.free := rfl
@[simp] theorem State.setTrace_pending (s : State) (t : TraceSt) : (s.setTrace t).pending = s.pending := rfl

@[simp] theorem State.charge_regs (s : State) (k i n : Nat) : (s.charge k i n).regs = s.regs := rfl
@[simp] theorem State.charge_cnts (s : State) (k i n : Nat) : (s.charge k i n).cnts = s.cnts := rfl
@[simp] theorem State.charge_logLast (s : State) (k i n : Nat) : (s.charge k i n).logLast = s.logLast := rfl
@[simp] theorem State.charge_host (s : State) (k i n : Nat) : (s.charge k i n).host = s.host := rfl
@[simp] theorem State.charge_time (s : State) (k i n : Nat) : (s.charge k i n).time = s.time := rfl
@[simp] theorem State.charge_mem1 (s : State) (k i n : Nat) : (s.charge k i n).mem1 = s.mem1 := rfl
@[simp] theorem State.charge_mem2 (s : State) (k i n : Nat) : (s.charge k i n).mem2 = s.mem2 := rfl
@[simp] theorem State.charge_sw (s : State) (k i n : Nat) : (s.charge k i n).sw = s.sw := rfl
@[simp] theorem State.charge_fwt (s : State) (k i n : Nat) : (s.charge k i n).fwt = s.fwt := rfl
@[simp] theorem State.charge_links (s : State) (k i n : Nat) : (s.charge k i n).links = s.links := rfl
@[simp] theorem State.charge_spine (s : State) (k i n : Nat) : (s.charge k i n).spine = s.spine := rfl
@[simp] theorem State.charge_tide (s : State) (k i n : Nat) : (s.charge k i n).tide = s.tide := rfl
@[simp] theorem State.charge_optics (s : State) (k i n : Nat) : (s.charge k i n).optics = s.optics := rfl
@[simp] theorem State.charge_fen (s : State) (k i n : Nat) : (s.charge k i n).fen = s.fen := rfl
@[simp] theorem State.charge_peat (s : State) (k i n : Nat) : (s.charge k i n).peat = s.peat := rfl
@[simp] theorem State.charge_del (s : State) (k i n : Nat) : (s.charge k i n).del = s.del := rfl
@[simp] theorem State.charge_fences (s : State) (k i n : Nat) : (s.charge k i n).fences = s.fences := rfl
@[simp] theorem State.charge_baro (s : State) (k i n : Nat) : (s.charge k i n).baro = s.baro := rfl
@[simp] theorem State.charge_chk (s : State) (k i n : Nat) : (s.charge k i n).chk = s.chk := rfl
@[simp] theorem State.charge_pmc (s : State) (k i n : Nat) : (s.charge k i n).pmc = s.pmc := rfl
@[simp] theorem State.charge_cfg (s : State) (k i n : Nat) : (s.charge k i n).cfg = s.cfg := rfl
@[simp] theorem State.charge_pwr (s : State) (k i n : Nat) : (s.charge k i n).pwr = s.pwr := rfl
@[simp] theorem State.charge_out (s : State) (k i n : Nat) : (s.charge k i n).out = s.out := rfl
@[simp] theorem State.charge_free (s : State) (k i n : Nat) : (s.charge k i n).free = s.free := rfl
@[simp] theorem State.charge_pending (s : State) (k i n : Nat) : (s.charge k i n).pending = s.pending := rfl

@[simp] theorem State.levelReport_regs (s : State) (l x : Nat) : (s.levelReport l x).regs = s.regs := rfl
@[simp] theorem State.levelReport_cnts (s : State) (l x : Nat) : (s.levelReport l x).cnts = s.cnts := rfl
@[simp] theorem State.levelReport_logLast (s : State) (l x : Nat) : (s.levelReport l x).logLast = s.logLast := rfl
@[simp] theorem State.levelReport_host (s : State) (l x : Nat) : (s.levelReport l x).host = s.host := rfl
@[simp] theorem State.levelReport_time (s : State) (l x : Nat) : (s.levelReport l x).time = s.time := rfl
@[simp] theorem State.levelReport_mem1 (s : State) (l x : Nat) : (s.levelReport l x).mem1 = s.mem1 := rfl
@[simp] theorem State.levelReport_mem2 (s : State) (l x : Nat) : (s.levelReport l x).mem2 = s.mem2 := rfl
@[simp] theorem State.levelReport_sw (s : State) (l x : Nat) : (s.levelReport l x).sw = s.sw := rfl
@[simp] theorem State.levelReport_fwt (s : State) (l x : Nat) : (s.levelReport l x).fwt = s.fwt := rfl
@[simp] theorem State.levelReport_links (s : State) (l x : Nat) : (s.levelReport l x).links = s.links := rfl
@[simp] theorem State.levelReport_spine (s : State) (l x : Nat) : (s.levelReport l x).spine = s.spine := rfl
@[simp] theorem State.levelReport_tide (s : State) (l x : Nat) : (s.levelReport l x).tide = s.tide := rfl
@[simp] theorem State.levelReport_optics (s : State) (l x : Nat) : (s.levelReport l x).optics = s.optics := rfl
@[simp] theorem State.levelReport_charges (s : State) (l x : Nat) : (s.levelReport l x).charges = s.charges := rfl
@[simp] theorem State.levelReport_fen (s : State) (l x : Nat) : (s.levelReport l x).fen = s.fen := rfl
@[simp] theorem State.levelReport_peat (s : State) (l x : Nat) : (s.levelReport l x).peat = s.peat := rfl
@[simp] theorem State.levelReport_del (s : State) (l x : Nat) : (s.levelReport l x).del = s.del := rfl
@[simp] theorem State.levelReport_fences (s : State) (l x : Nat) : (s.levelReport l x).fences = s.fences := rfl
@[simp] theorem State.levelReport_chk (s : State) (l x : Nat) : (s.levelReport l x).chk = s.chk := rfl
@[simp] theorem State.levelReport_pmc (s : State) (l x : Nat) : (s.levelReport l x).pmc = s.pmc := rfl
@[simp] theorem State.levelReport_cfg (s : State) (l x : Nat) : (s.levelReport l x).cfg = s.cfg := rfl
@[simp] theorem State.levelReport_pwr (s : State) (l x : Nat) : (s.levelReport l x).pwr = s.pwr := rfl
@[simp] theorem State.levelReport_out (s : State) (l x : Nat) : (s.levelReport l x).out = s.out := rfl
@[simp] theorem State.levelReport_free (s : State) (l x : Nat) : (s.levelReport l x).free = s.free := rfl
@[simp] theorem State.levelReport_pending (s : State) (l x : Nat) : (s.levelReport l x).pending = s.pending := rfl

@[simp] theorem State.setLink_regs (s : State) (lp : Nat) (l : LinkSt) : (s.setLink lp l).regs = s.regs := rfl
@[simp] theorem State.setLink_cnts (s : State) (lp : Nat) (l : LinkSt) : (s.setLink lp l).cnts = s.cnts := rfl
@[simp] theorem State.setLink_logLast (s : State) (lp : Nat) (l : LinkSt) : (s.setLink lp l).logLast = s.logLast := rfl
@[simp] theorem State.setLink_host (s : State) (lp : Nat) (l : LinkSt) : (s.setLink lp l).host = s.host := rfl
@[simp] theorem State.setLink_time (s : State) (lp : Nat) (l : LinkSt) : (s.setLink lp l).time = s.time := rfl
@[simp] theorem State.setLink_mem1 (s : State) (lp : Nat) (l : LinkSt) : (s.setLink lp l).mem1 = s.mem1 := rfl
@[simp] theorem State.setLink_mem2 (s : State) (lp : Nat) (l : LinkSt) : (s.setLink lp l).mem2 = s.mem2 := rfl
@[simp] theorem State.setLink_sw (s : State) (lp : Nat) (l : LinkSt) : (s.setLink lp l).sw = s.sw := rfl
@[simp] theorem State.setLink_fwt (s : State) (lp : Nat) (l : LinkSt) : (s.setLink lp l).fwt = s.fwt := rfl
@[simp] theorem State.setLink_spine (s : State) (lp : Nat) (l : LinkSt) : (s.setLink lp l).spine = s.spine := rfl
@[simp] theorem State.setLink_tide (s : State) (lp : Nat) (l : LinkSt) : (s.setLink lp l).tide = s.tide := rfl
@[simp] theorem State.setLink_optics (s : State) (lp : Nat) (l : LinkSt) : (s.setLink lp l).optics = s.optics := rfl
@[simp] theorem State.setLink_charges (s : State) (lp : Nat) (l : LinkSt) : (s.setLink lp l).charges = s.charges := rfl
@[simp] theorem State.setLink_fen (s : State) (lp : Nat) (l : LinkSt) : (s.setLink lp l).fen = s.fen := rfl
@[simp] theorem State.setLink_peat (s : State) (lp : Nat) (l : LinkSt) : (s.setLink lp l).peat = s.peat := rfl
@[simp] theorem State.setLink_del (s : State) (lp : Nat) (l : LinkSt) : (s.setLink lp l).del = s.del := rfl
@[simp] theorem State.setLink_fences (s : State) (lp : Nat) (l : LinkSt) : (s.setLink lp l).fences = s.fences := rfl
@[simp] theorem State.setLink_baro (s : State) (lp : Nat) (l : LinkSt) : (s.setLink lp l).baro = s.baro := rfl
@[simp] theorem State.setLink_chk (s : State) (lp : Nat) (l : LinkSt) : (s.setLink lp l).chk = s.chk := rfl
@[simp] theorem State.setLink_pmc (s : State) (lp : Nat) (l : LinkSt) : (s.setLink lp l).pmc = s.pmc := rfl
@[simp] theorem State.setLink_cfg (s : State) (lp : Nat) (l : LinkSt) : (s.setLink lp l).cfg = s.cfg := rfl
@[simp] theorem State.setLink_pwr (s : State) (lp : Nat) (l : LinkSt) : (s.setLink lp l).pwr = s.pwr := rfl
@[simp] theorem State.setLink_out (s : State) (lp : Nat) (l : LinkSt) : (s.setLink lp l).out = s.out := rfl
@[simp] theorem State.setLink_free (s : State) (lp : Nat) (l : LinkSt) : (s.setLink lp l).free = s.free := rfl
@[simp] theorem State.setLink_pending (s : State) (lp : Nat) (l : LinkSt) : (s.setLink lp l).pending = s.pending := rfl

@[simp] theorem State.setPortTide_regs (s : State) (p : Nat) (t : PortTide) : (s.setPortTide p t).regs = s.regs := rfl
@[simp] theorem State.setPortTide_cnts (s : State) (p : Nat) (t : PortTide) : (s.setPortTide p t).cnts = s.cnts := rfl
@[simp] theorem State.setPortTide_logLast (s : State) (p : Nat) (t : PortTide) : (s.setPortTide p t).logLast = s.logLast := rfl
@[simp] theorem State.setPortTide_host (s : State) (p : Nat) (t : PortTide) : (s.setPortTide p t).host = s.host := rfl
@[simp] theorem State.setPortTide_time (s : State) (p : Nat) (t : PortTide) : (s.setPortTide p t).time = s.time := rfl
@[simp] theorem State.setPortTide_mem1 (s : State) (p : Nat) (t : PortTide) : (s.setPortTide p t).mem1 = s.mem1 := rfl
@[simp] theorem State.setPortTide_mem2 (s : State) (p : Nat) (t : PortTide) : (s.setPortTide p t).mem2 = s.mem2 := rfl
@[simp] theorem State.setPortTide_sw (s : State) (p : Nat) (t : PortTide) : (s.setPortTide p t).sw = s.sw := rfl
@[simp] theorem State.setPortTide_fwt (s : State) (p : Nat) (t : PortTide) : (s.setPortTide p t).fwt = s.fwt := rfl
@[simp] theorem State.setPortTide_links (s : State) (p : Nat) (t : PortTide) : (s.setPortTide p t).links = s.links := rfl
@[simp] theorem State.setPortTide_spine (s : State) (p : Nat) (t : PortTide) : (s.setPortTide p t).spine = s.spine := rfl
@[simp] theorem State.setPortTide_optics (s : State) (p : Nat) (t : PortTide) : (s.setPortTide p t).optics = s.optics := rfl
@[simp] theorem State.setPortTide_charges (s : State) (p : Nat) (t : PortTide) : (s.setPortTide p t).charges = s.charges := rfl
@[simp] theorem State.setPortTide_fen (s : State) (p : Nat) (t : PortTide) : (s.setPortTide p t).fen = s.fen := rfl
@[simp] theorem State.setPortTide_peat (s : State) (p : Nat) (t : PortTide) : (s.setPortTide p t).peat = s.peat := rfl
@[simp] theorem State.setPortTide_del (s : State) (p : Nat) (t : PortTide) : (s.setPortTide p t).del = s.del := rfl
@[simp] theorem State.setPortTide_fences (s : State) (p : Nat) (t : PortTide) : (s.setPortTide p t).fences = s.fences := rfl
@[simp] theorem State.setPortTide_baro (s : State) (p : Nat) (t : PortTide) : (s.setPortTide p t).baro = s.baro := rfl
@[simp] theorem State.setPortTide_chk (s : State) (p : Nat) (t : PortTide) : (s.setPortTide p t).chk = s.chk := rfl
@[simp] theorem State.setPortTide_pmc (s : State) (p : Nat) (t : PortTide) : (s.setPortTide p t).pmc = s.pmc := rfl
@[simp] theorem State.setPortTide_cfg (s : State) (p : Nat) (t : PortTide) : (s.setPortTide p t).cfg = s.cfg := rfl
@[simp] theorem State.setPortTide_pwr (s : State) (p : Nat) (t : PortTide) : (s.setPortTide p t).pwr = s.pwr := rfl
@[simp] theorem State.setPortTide_out (s : State) (p : Nat) (t : PortTide) : (s.setPortTide p t).out = s.out := rfl
@[simp] theorem State.setPortTide_free (s : State) (p : Nat) (t : PortTide) : (s.setPortTide p t).free = s.free := rfl
@[simp] theorem State.setPortTide_pending (s : State) (p : Nat) (t : PortTide) : (s.setPortTide p t).pending = s.pending := rfl

@[simp] theorem State.setEng_regs (s : State) (n : Nat) (e : EngSt) : (s.setEng n e).regs = s.regs := rfl
@[simp] theorem State.setEng_cnts (s : State) (n : Nat) (e : EngSt) : (s.setEng n e).cnts = s.cnts := rfl
@[simp] theorem State.setEng_logLast (s : State) (n : Nat) (e : EngSt) : (s.setEng n e).logLast = s.logLast := rfl
@[simp] theorem State.setEng_host (s : State) (n : Nat) (e : EngSt) : (s.setEng n e).host = s.host := rfl
@[simp] theorem State.setEng_time (s : State) (n : Nat) (e : EngSt) : (s.setEng n e).time = s.time := rfl
@[simp] theorem State.setEng_mem1 (s : State) (n : Nat) (e : EngSt) : (s.setEng n e).mem1 = s.mem1 := rfl
@[simp] theorem State.setEng_mem2 (s : State) (n : Nat) (e : EngSt) : (s.setEng n e).mem2 = s.mem2 := rfl
@[simp] theorem State.setEng_sw (s : State) (n : Nat) (e : EngSt) : (s.setEng n e).sw = s.sw := rfl
@[simp] theorem State.setEng_fwt (s : State) (n : Nat) (e : EngSt) : (s.setEng n e).fwt = s.fwt := rfl
@[simp] theorem State.setEng_links (s : State) (n : Nat) (e : EngSt) : (s.setEng n e).links = s.links := rfl
@[simp] theorem State.setEng_spine (s : State) (n : Nat) (e : EngSt) : (s.setEng n e).spine = s.spine := rfl
@[simp] theorem State.setEng_tide (s : State) (n : Nat) (e : EngSt) : (s.setEng n e).tide = s.tide := rfl
@[simp] theorem State.setEng_charges (s : State) (n : Nat) (e : EngSt) : (s.setEng n e).charges = s.charges := rfl
@[simp] theorem State.setEng_fen (s : State) (n : Nat) (e : EngSt) : (s.setEng n e).fen = s.fen := rfl
@[simp] theorem State.setEng_peat (s : State) (n : Nat) (e : EngSt) : (s.setEng n e).peat = s.peat := rfl
@[simp] theorem State.setEng_del (s : State) (n : Nat) (e : EngSt) : (s.setEng n e).del = s.del := rfl
@[simp] theorem State.setEng_fences (s : State) (n : Nat) (e : EngSt) : (s.setEng n e).fences = s.fences := rfl
@[simp] theorem State.setEng_baro (s : State) (n : Nat) (e : EngSt) : (s.setEng n e).baro = s.baro := rfl
@[simp] theorem State.setEng_chk (s : State) (n : Nat) (e : EngSt) : (s.setEng n e).chk = s.chk := rfl
@[simp] theorem State.setEng_pmc (s : State) (n : Nat) (e : EngSt) : (s.setEng n e).pmc = s.pmc := rfl
@[simp] theorem State.setEng_cfg (s : State) (n : Nat) (e : EngSt) : (s.setEng n e).cfg = s.cfg := rfl
@[simp] theorem State.setEng_pwr (s : State) (n : Nat) (e : EngSt) : (s.setEng n e).pwr = s.pwr := rfl
@[simp] theorem State.setEng_out (s : State) (n : Nat) (e : EngSt) : (s.setEng n e).out = s.out := rfl
@[simp] theorem State.setEng_free (s : State) (n : Nat) (e : EngSt) : (s.setEng n e).free = s.free := rfl
@[simp] theorem State.setEng_pending (s : State) (n : Nat) (e : EngSt) : (s.setEng n e).pending = s.pending := rfl

@[simp] theorem State.setFlights_regs (s : State) (l : List Flight) : (s.setFlights l).regs = s.regs := rfl
@[simp] theorem State.setFlights_cnts (s : State) (l : List Flight) : (s.setFlights l).cnts = s.cnts := rfl
@[simp] theorem State.setFlights_logLast (s : State) (l : List Flight) : (s.setFlights l).logLast = s.logLast := rfl
@[simp] theorem State.setFlights_host (s : State) (l : List Flight) : (s.setFlights l).host = s.host := rfl
@[simp] theorem State.setFlights_time (s : State) (l : List Flight) : (s.setFlights l).time = s.time := rfl
@[simp] theorem State.setFlights_mem1 (s : State) (l : List Flight) : (s.setFlights l).mem1 = s.mem1 := rfl
@[simp] theorem State.setFlights_mem2 (s : State) (l : List Flight) : (s.setFlights l).mem2 = s.mem2 := rfl
@[simp] theorem State.setFlights_fwt (s : State) (l : List Flight) : (s.setFlights l).fwt = s.fwt := rfl
@[simp] theorem State.setFlights_links (s : State) (l : List Flight) : (s.setFlights l).links = s.links := rfl
@[simp] theorem State.setFlights_spine (s : State) (l : List Flight) : (s.setFlights l).spine = s.spine := rfl
@[simp] theorem State.setFlights_tide (s : State) (l : List Flight) : (s.setFlights l).tide = s.tide := rfl
@[simp] theorem State.setFlights_optics (s : State) (l : List Flight) : (s.setFlights l).optics = s.optics := rfl
@[simp] theorem State.setFlights_charges (s : State) (l : List Flight) : (s.setFlights l).charges = s.charges := rfl
@[simp] theorem State.setFlights_fen (s : State) (l : List Flight) : (s.setFlights l).fen = s.fen := rfl
@[simp] theorem State.setFlights_peat (s : State) (l : List Flight) : (s.setFlights l).peat = s.peat := rfl
@[simp] theorem State.setFlights_del (s : State) (l : List Flight) : (s.setFlights l).del = s.del := rfl
@[simp] theorem State.setFlights_fences (s : State) (l : List Flight) : (s.setFlights l).fences = s.fences := rfl
@[simp] theorem State.setFlights_baro (s : State) (l : List Flight) : (s.setFlights l).baro = s.baro := rfl
@[simp] theorem State.setFlights_chk (s : State) (l : List Flight) : (s.setFlights l).chk = s.chk := rfl
@[simp] theorem State.setFlights_pmc (s : State) (l : List Flight) : (s.setFlights l).pmc = s.pmc := rfl
@[simp] theorem State.setFlights_cfg (s : State) (l : List Flight) : (s.setFlights l).cfg = s.cfg := rfl
@[simp] theorem State.setFlights_pwr (s : State) (l : List Flight) : (s.setFlights l).pwr = s.pwr := rfl
@[simp] theorem State.setFlights_out (s : State) (l : List Flight) : (s.setFlights l).out = s.out := rfl
@[simp] theorem State.setFlights_free (s : State) (l : List Flight) : (s.setFlights l).free = s.free := rfl
@[simp] theorem State.setFlights_pending (s : State) (l : List Flight) : (s.setFlights l).pending = s.pending := rfl

@[simp] theorem State.setPeat_regs (s : State) (f : PeatSt → PeatSt) : (s.setPeat f).regs = s.regs := rfl
@[simp] theorem State.setPeat_cnts (s : State) (f : PeatSt → PeatSt) : (s.setPeat f).cnts = s.cnts := rfl
@[simp] theorem State.setPeat_logLast (s : State) (f : PeatSt → PeatSt) : (s.setPeat f).logLast = s.logLast := rfl
@[simp] theorem State.setPeat_host (s : State) (f : PeatSt → PeatSt) : (s.setPeat f).host = s.host := rfl
@[simp] theorem State.setPeat_time (s : State) (f : PeatSt → PeatSt) : (s.setPeat f).time = s.time := rfl
@[simp] theorem State.setPeat_mem1 (s : State) (f : PeatSt → PeatSt) : (s.setPeat f).mem1 = s.mem1 := rfl
@[simp] theorem State.setPeat_mem2 (s : State) (f : PeatSt → PeatSt) : (s.setPeat f).mem2 = s.mem2 := rfl
@[simp] theorem State.setPeat_sw (s : State) (f : PeatSt → PeatSt) : (s.setPeat f).sw = s.sw := rfl
@[simp] theorem State.setPeat_fwt (s : State) (f : PeatSt → PeatSt) : (s.setPeat f).fwt = s.fwt := rfl
@[simp] theorem State.setPeat_links (s : State) (f : PeatSt → PeatSt) : (s.setPeat f).links = s.links := rfl
@[simp] theorem State.setPeat_spine (s : State) (f : PeatSt → PeatSt) : (s.setPeat f).spine = s.spine := rfl
@[simp] theorem State.setPeat_tide (s : State) (f : PeatSt → PeatSt) : (s.setPeat f).tide = s.tide := rfl
@[simp] theorem State.setPeat_optics (s : State) (f : PeatSt → PeatSt) : (s.setPeat f).optics = s.optics := rfl
@[simp] theorem State.setPeat_charges (s : State) (f : PeatSt → PeatSt) : (s.setPeat f).charges = s.charges := rfl
@[simp] theorem State.setPeat_fen (s : State) (f : PeatSt → PeatSt) : (s.setPeat f).fen = s.fen := rfl
@[simp] theorem State.setPeat_del (s : State) (f : PeatSt → PeatSt) : (s.setPeat f).del = s.del := rfl
@[simp] theorem State.setPeat_fences (s : State) (f : PeatSt → PeatSt) : (s.setPeat f).fences = s.fences := rfl
@[simp] theorem State.setPeat_baro (s : State) (f : PeatSt → PeatSt) : (s.setPeat f).baro = s.baro := rfl
@[simp] theorem State.setPeat_chk (s : State) (f : PeatSt → PeatSt) : (s.setPeat f).chk = s.chk := rfl
@[simp] theorem State.setPeat_pmc (s : State) (f : PeatSt → PeatSt) : (s.setPeat f).pmc = s.pmc := rfl
@[simp] theorem State.setPeat_cfg (s : State) (f : PeatSt → PeatSt) : (s.setPeat f).cfg = s.cfg := rfl
@[simp] theorem State.setPeat_pwr (s : State) (f : PeatSt → PeatSt) : (s.setPeat f).pwr = s.pwr := rfl
@[simp] theorem State.setPeat_out (s : State) (f : PeatSt → PeatSt) : (s.setPeat f).out = s.out := rfl
@[simp] theorem State.setPeat_free (s : State) (f : PeatSt → PeatSt) : (s.setPeat f).free = s.free := rfl
@[simp] theorem State.setPeat_pending (s : State) (f : PeatSt → PeatSt) : (s.setPeat f).pending = s.pending := rfl

@[simp] theorem State.setDel_regs (s : State) (f : DelSt → DelSt) : (s.setDel f).regs = s.regs := rfl
@[simp] theorem State.setDel_cnts (s : State) (f : DelSt → DelSt) : (s.setDel f).cnts = s.cnts := rfl
@[simp] theorem State.setDel_logLast (s : State) (f : DelSt → DelSt) : (s.setDel f).logLast = s.logLast := rfl
@[simp] theorem State.setDel_host (s : State) (f : DelSt → DelSt) : (s.setDel f).host = s.host := rfl
@[simp] theorem State.setDel_time (s : State) (f : DelSt → DelSt) : (s.setDel f).time = s.time := rfl
@[simp] theorem State.setDel_mem1 (s : State) (f : DelSt → DelSt) : (s.setDel f).mem1 = s.mem1 := rfl
@[simp] theorem State.setDel_mem2 (s : State) (f : DelSt → DelSt) : (s.setDel f).mem2 = s.mem2 := rfl
@[simp] theorem State.setDel_sw (s : State) (f : DelSt → DelSt) : (s.setDel f).sw = s.sw := rfl
@[simp] theorem State.setDel_fwt (s : State) (f : DelSt → DelSt) : (s.setDel f).fwt = s.fwt := rfl
@[simp] theorem State.setDel_links (s : State) (f : DelSt → DelSt) : (s.setDel f).links = s.links := rfl
@[simp] theorem State.setDel_spine (s : State) (f : DelSt → DelSt) : (s.setDel f).spine = s.spine := rfl
@[simp] theorem State.setDel_tide (s : State) (f : DelSt → DelSt) : (s.setDel f).tide = s.tide := rfl
@[simp] theorem State.setDel_optics (s : State) (f : DelSt → DelSt) : (s.setDel f).optics = s.optics := rfl
@[simp] theorem State.setDel_charges (s : State) (f : DelSt → DelSt) : (s.setDel f).charges = s.charges := rfl
@[simp] theorem State.setDel_fen (s : State) (f : DelSt → DelSt) : (s.setDel f).fen = s.fen := rfl
@[simp] theorem State.setDel_peat (s : State) (f : DelSt → DelSt) : (s.setDel f).peat = s.peat := rfl
@[simp] theorem State.setDel_fences (s : State) (f : DelSt → DelSt) : (s.setDel f).fences = s.fences := rfl
@[simp] theorem State.setDel_baro (s : State) (f : DelSt → DelSt) : (s.setDel f).baro = s.baro := rfl
@[simp] theorem State.setDel_chk (s : State) (f : DelSt → DelSt) : (s.setDel f).chk = s.chk := rfl
@[simp] theorem State.setDel_pmc (s : State) (f : DelSt → DelSt) : (s.setDel f).pmc = s.pmc := rfl
@[simp] theorem State.setDel_cfg (s : State) (f : DelSt → DelSt) : (s.setDel f).cfg = s.cfg := rfl
@[simp] theorem State.setDel_pwr (s : State) (f : DelSt → DelSt) : (s.setDel f).pwr = s.pwr := rfl
@[simp] theorem State.setDel_out (s : State) (f : DelSt → DelSt) : (s.setDel f).out = s.out := rfl
@[simp] theorem State.setDel_free (s : State) (f : DelSt → DelSt) : (s.setDel f).free = s.free := rfl
@[simp] theorem State.setDel_pending (s : State) (f : DelSt → DelSt) : (s.setDel f).pending = s.pending := rfl

@[simp] theorem State.setBaro_regs (s : State) (f : BaroSt → BaroSt) : (s.setBaro f).regs = s.regs := rfl
@[simp] theorem State.setBaro_cnts (s : State) (f : BaroSt → BaroSt) : (s.setBaro f).cnts = s.cnts := rfl
@[simp] theorem State.setBaro_logLast (s : State) (f : BaroSt → BaroSt) : (s.setBaro f).logLast = s.logLast := rfl
@[simp] theorem State.setBaro_host (s : State) (f : BaroSt → BaroSt) : (s.setBaro f).host = s.host := rfl
@[simp] theorem State.setBaro_time (s : State) (f : BaroSt → BaroSt) : (s.setBaro f).time = s.time := rfl
@[simp] theorem State.setBaro_mem1 (s : State) (f : BaroSt → BaroSt) : (s.setBaro f).mem1 = s.mem1 := rfl
@[simp] theorem State.setBaro_mem2 (s : State) (f : BaroSt → BaroSt) : (s.setBaro f).mem2 = s.mem2 := rfl
@[simp] theorem State.setBaro_sw (s : State) (f : BaroSt → BaroSt) : (s.setBaro f).sw = s.sw := rfl
@[simp] theorem State.setBaro_fwt (s : State) (f : BaroSt → BaroSt) : (s.setBaro f).fwt = s.fwt := rfl
@[simp] theorem State.setBaro_links (s : State) (f : BaroSt → BaroSt) : (s.setBaro f).links = s.links := rfl
@[simp] theorem State.setBaro_spine (s : State) (f : BaroSt → BaroSt) : (s.setBaro f).spine = s.spine := rfl
@[simp] theorem State.setBaro_tide (s : State) (f : BaroSt → BaroSt) : (s.setBaro f).tide = s.tide := rfl
@[simp] theorem State.setBaro_optics (s : State) (f : BaroSt → BaroSt) : (s.setBaro f).optics = s.optics := rfl
@[simp] theorem State.setBaro_charges (s : State) (f : BaroSt → BaroSt) : (s.setBaro f).charges = s.charges := rfl
@[simp] theorem State.setBaro_fen (s : State) (f : BaroSt → BaroSt) : (s.setBaro f).fen = s.fen := rfl
@[simp] theorem State.setBaro_peat (s : State) (f : BaroSt → BaroSt) : (s.setBaro f).peat = s.peat := rfl
@[simp] theorem State.setBaro_del (s : State) (f : BaroSt → BaroSt) : (s.setBaro f).del = s.del := rfl
@[simp] theorem State.setBaro_fences (s : State) (f : BaroSt → BaroSt) : (s.setBaro f).fences = s.fences := rfl
@[simp] theorem State.setBaro_chk (s : State) (f : BaroSt → BaroSt) : (s.setBaro f).chk = s.chk := rfl
@[simp] theorem State.setBaro_pmc (s : State) (f : BaroSt → BaroSt) : (s.setBaro f).pmc = s.pmc := rfl
@[simp] theorem State.setBaro_cfg (s : State) (f : BaroSt → BaroSt) : (s.setBaro f).cfg = s.cfg := rfl
@[simp] theorem State.setBaro_pwr (s : State) (f : BaroSt → BaroSt) : (s.setBaro f).pwr = s.pwr := rfl
@[simp] theorem State.setBaro_out (s : State) (f : BaroSt → BaroSt) : (s.setBaro f).out = s.out := rfl
@[simp] theorem State.setBaro_free (s : State) (f : BaroSt → BaroSt) : (s.setBaro f).free = s.free := rfl
@[simp] theorem State.setBaro_pending (s : State) (f : BaroSt → BaroSt) : (s.setBaro f).pending = s.pending := rfl

@[simp] theorem State.setPmc_regs (s : State) (f : PmcSt → PmcSt) : (s.setPmc f).regs = s.regs := rfl
@[simp] theorem State.setPmc_cnts (s : State) (f : PmcSt → PmcSt) : (s.setPmc f).cnts = s.cnts := rfl
@[simp] theorem State.setPmc_logLast (s : State) (f : PmcSt → PmcSt) : (s.setPmc f).logLast = s.logLast := rfl
@[simp] theorem State.setPmc_host (s : State) (f : PmcSt → PmcSt) : (s.setPmc f).host = s.host := rfl
@[simp] theorem State.setPmc_time (s : State) (f : PmcSt → PmcSt) : (s.setPmc f).time = s.time := rfl
@[simp] theorem State.setPmc_mem1 (s : State) (f : PmcSt → PmcSt) : (s.setPmc f).mem1 = s.mem1 := rfl
@[simp] theorem State.setPmc_mem2 (s : State) (f : PmcSt → PmcSt) : (s.setPmc f).mem2 = s.mem2 := rfl
@[simp] theorem State.setPmc_sw (s : State) (f : PmcSt → PmcSt) : (s.setPmc f).sw = s.sw := rfl
@[simp] theorem State.setPmc_fwt (s : State) (f : PmcSt → PmcSt) : (s.setPmc f).fwt = s.fwt := rfl
@[simp] theorem State.setPmc_links (s : State) (f : PmcSt → PmcSt) : (s.setPmc f).links = s.links := rfl
@[simp] theorem State.setPmc_spine (s : State) (f : PmcSt → PmcSt) : (s.setPmc f).spine = s.spine := rfl
@[simp] theorem State.setPmc_tide (s : State) (f : PmcSt → PmcSt) : (s.setPmc f).tide = s.tide := rfl
@[simp] theorem State.setPmc_optics (s : State) (f : PmcSt → PmcSt) : (s.setPmc f).optics = s.optics := rfl
@[simp] theorem State.setPmc_charges (s : State) (f : PmcSt → PmcSt) : (s.setPmc f).charges = s.charges := rfl
@[simp] theorem State.setPmc_fen (s : State) (f : PmcSt → PmcSt) : (s.setPmc f).fen = s.fen := rfl
@[simp] theorem State.setPmc_peat (s : State) (f : PmcSt → PmcSt) : (s.setPmc f).peat = s.peat := rfl
@[simp] theorem State.setPmc_del (s : State) (f : PmcSt → PmcSt) : (s.setPmc f).del = s.del := rfl
@[simp] theorem State.setPmc_fences (s : State) (f : PmcSt → PmcSt) : (s.setPmc f).fences = s.fences := rfl
@[simp] theorem State.setPmc_baro (s : State) (f : PmcSt → PmcSt) : (s.setPmc f).baro = s.baro := rfl
@[simp] theorem State.setPmc_chk (s : State) (f : PmcSt → PmcSt) : (s.setPmc f).chk = s.chk := rfl
@[simp] theorem State.setPmc_cfg (s : State) (f : PmcSt → PmcSt) : (s.setPmc f).cfg = s.cfg := rfl
@[simp] theorem State.setPmc_pwr (s : State) (f : PmcSt → PmcSt) : (s.setPmc f).pwr = s.pwr := rfl
@[simp] theorem State.setPmc_out (s : State) (f : PmcSt → PmcSt) : (s.setPmc f).out = s.out := rfl
@[simp] theorem State.setPmc_free (s : State) (f : PmcSt → PmcSt) : (s.setPmc f).free = s.free := rfl
@[simp] theorem State.setPmc_pending (s : State) (f : PmcSt → PmcSt) : (s.setPmc f).pending = s.pending := rfl

@[simp] theorem State.setCfg_regs (s : State) (f : CfgSt → CfgSt) : (s.setCfg f).regs = s.regs := rfl
@[simp] theorem State.setCfg_cnts (s : State) (f : CfgSt → CfgSt) : (s.setCfg f).cnts = s.cnts := rfl
@[simp] theorem State.setCfg_logLast (s : State) (f : CfgSt → CfgSt) : (s.setCfg f).logLast = s.logLast := rfl
@[simp] theorem State.setCfg_host (s : State) (f : CfgSt → CfgSt) : (s.setCfg f).host = s.host := rfl
@[simp] theorem State.setCfg_time (s : State) (f : CfgSt → CfgSt) : (s.setCfg f).time = s.time := rfl
@[simp] theorem State.setCfg_mem1 (s : State) (f : CfgSt → CfgSt) : (s.setCfg f).mem1 = s.mem1 := rfl
@[simp] theorem State.setCfg_mem2 (s : State) (f : CfgSt → CfgSt) : (s.setCfg f).mem2 = s.mem2 := rfl
@[simp] theorem State.setCfg_sw (s : State) (f : CfgSt → CfgSt) : (s.setCfg f).sw = s.sw := rfl
@[simp] theorem State.setCfg_fwt (s : State) (f : CfgSt → CfgSt) : (s.setCfg f).fwt = s.fwt := rfl
@[simp] theorem State.setCfg_links (s : State) (f : CfgSt → CfgSt) : (s.setCfg f).links = s.links := rfl
@[simp] theorem State.setCfg_spine (s : State) (f : CfgSt → CfgSt) : (s.setCfg f).spine = s.spine := rfl
@[simp] theorem State.setCfg_tide (s : State) (f : CfgSt → CfgSt) : (s.setCfg f).tide = s.tide := rfl
@[simp] theorem State.setCfg_optics (s : State) (f : CfgSt → CfgSt) : (s.setCfg f).optics = s.optics := rfl
@[simp] theorem State.setCfg_charges (s : State) (f : CfgSt → CfgSt) : (s.setCfg f).charges = s.charges := rfl
@[simp] theorem State.setCfg_fen (s : State) (f : CfgSt → CfgSt) : (s.setCfg f).fen = s.fen := rfl
@[simp] theorem State.setCfg_peat (s : State) (f : CfgSt → CfgSt) : (s.setCfg f).peat = s.peat := rfl
@[simp] theorem State.setCfg_del (s : State) (f : CfgSt → CfgSt) : (s.setCfg f).del = s.del := rfl
@[simp] theorem State.setCfg_fences (s : State) (f : CfgSt → CfgSt) : (s.setCfg f).fences = s.fences := rfl
@[simp] theorem State.setCfg_baro (s : State) (f : CfgSt → CfgSt) : (s.setCfg f).baro = s.baro := rfl
@[simp] theorem State.setCfg_chk (s : State) (f : CfgSt → CfgSt) : (s.setCfg f).chk = s.chk := rfl
@[simp] theorem State.setCfg_pmc (s : State) (f : CfgSt → CfgSt) : (s.setCfg f).pmc = s.pmc := rfl
@[simp] theorem State.setCfg_pwr (s : State) (f : CfgSt → CfgSt) : (s.setCfg f).pwr = s.pwr := rfl
@[simp] theorem State.setCfg_out (s : State) (f : CfgSt → CfgSt) : (s.setCfg f).out = s.out := rfl
@[simp] theorem State.setCfg_free (s : State) (f : CfgSt → CfgSt) : (s.setCfg f).free = s.free := rfl
@[simp] theorem State.setCfg_pending (s : State) (f : CfgSt → CfgSt) : (s.setCfg f).pending = s.pending := rfl

@[simp] theorem State.setPwr_regs (s : State) (f : PwrSt → PwrSt) : (s.setPwr f).regs = s.regs := rfl
@[simp] theorem State.setPwr_cnts (s : State) (f : PwrSt → PwrSt) : (s.setPwr f).cnts = s.cnts := rfl
@[simp] theorem State.setPwr_logLast (s : State) (f : PwrSt → PwrSt) : (s.setPwr f).logLast = s.logLast := rfl
@[simp] theorem State.setPwr_host (s : State) (f : PwrSt → PwrSt) : (s.setPwr f).host = s.host := rfl
@[simp] theorem State.setPwr_time (s : State) (f : PwrSt → PwrSt) : (s.setPwr f).time = s.time := rfl
@[simp] theorem State.setPwr_mem1 (s : State) (f : PwrSt → PwrSt) : (s.setPwr f).mem1 = s.mem1 := rfl
@[simp] theorem State.setPwr_mem2 (s : State) (f : PwrSt → PwrSt) : (s.setPwr f).mem2 = s.mem2 := rfl
@[simp] theorem State.setPwr_sw (s : State) (f : PwrSt → PwrSt) : (s.setPwr f).sw = s.sw := rfl
@[simp] theorem State.setPwr_fwt (s : State) (f : PwrSt → PwrSt) : (s.setPwr f).fwt = s.fwt := rfl
@[simp] theorem State.setPwr_links (s : State) (f : PwrSt → PwrSt) : (s.setPwr f).links = s.links := rfl
@[simp] theorem State.setPwr_spine (s : State) (f : PwrSt → PwrSt) : (s.setPwr f).spine = s.spine := rfl
@[simp] theorem State.setPwr_tide (s : State) (f : PwrSt → PwrSt) : (s.setPwr f).tide = s.tide := rfl
@[simp] theorem State.setPwr_optics (s : State) (f : PwrSt → PwrSt) : (s.setPwr f).optics = s.optics := rfl
@[simp] theorem State.setPwr_charges (s : State) (f : PwrSt → PwrSt) : (s.setPwr f).charges = s.charges := rfl
@[simp] theorem State.setPwr_fen (s : State) (f : PwrSt → PwrSt) : (s.setPwr f).fen = s.fen := rfl
@[simp] theorem State.setPwr_peat (s : State) (f : PwrSt → PwrSt) : (s.setPwr f).peat = s.peat := rfl
@[simp] theorem State.setPwr_del (s : State) (f : PwrSt → PwrSt) : (s.setPwr f).del = s.del := rfl
@[simp] theorem State.setPwr_fences (s : State) (f : PwrSt → PwrSt) : (s.setPwr f).fences = s.fences := rfl
@[simp] theorem State.setPwr_baro (s : State) (f : PwrSt → PwrSt) : (s.setPwr f).baro = s.baro := rfl
@[simp] theorem State.setPwr_chk (s : State) (f : PwrSt → PwrSt) : (s.setPwr f).chk = s.chk := rfl
@[simp] theorem State.setPwr_pmc (s : State) (f : PwrSt → PwrSt) : (s.setPwr f).pmc = s.pmc := rfl
@[simp] theorem State.setPwr_cfg (s : State) (f : PwrSt → PwrSt) : (s.setPwr f).cfg = s.cfg := rfl
@[simp] theorem State.setPwr_out (s : State) (f : PwrSt → PwrSt) : (s.setPwr f).out = s.out := rfl
@[simp] theorem State.setPwr_free (s : State) (f : PwrSt → PwrSt) : (s.setPwr f).free = s.free := rfl
@[simp] theorem State.setPwr_pending (s : State) (f : PwrSt → PwrSt) : (s.setPwr f).pending = s.pending := rfl

/-- Words stored change the register table alone. -/
theorem State.wrWide_eq (n : Nat) : ∀ (s : State) (a v : Nat), s.wrWide a v n = { s with regs := (s.wrWide a v n).regs } := by
  induction n with
  | zero => intros; rfl
  | succ n ih => intro s a v; unfold State.wrWide; rw [ih]; rfl

theorem State.setFld_eq (s : State) (a : Nat) (f : Fld) (v : Nat) : s.setFld a f v = { s with regs := (s.setFld a f v).regs } := by
  unfold State.setFld; exact State.wrWide_eq _ _ _ _

@[simp] theorem State.wrWide_cnts (s : State) (a v n : Nat) : (s.wrWide a v n).cnts = s.cnts := by rw [State.wrWide_eq]
@[simp] theorem State.wrWide_logLast (s : State) (a v n : Nat) : (s.wrWide a v n).logLast = s.logLast := by rw [State.wrWide_eq]
@[simp] theorem State.wrWide_host (s : State) (a v n : Nat) : (s.wrWide a v n).host = s.host := by rw [State.wrWide_eq]
@[simp] theorem State.wrWide_time (s : State) (a v n : Nat) : (s.wrWide a v n).time = s.time := by rw [State.wrWide_eq]
@[simp] theorem State.wrWide_mem1 (s : State) (a v n : Nat) : (s.wrWide a v n).mem1 = s.mem1 := by rw [State.wrWide_eq]
@[simp] theorem State.wrWide_mem2 (s : State) (a v n : Nat) : (s.wrWide a v n).mem2 = s.mem2 := by rw [State.wrWide_eq]
@[simp] theorem State.wrWide_sw (s : State) (a v n : Nat) : (s.wrWide a v n).sw = s.sw := by rw [State.wrWide_eq]
@[simp] theorem State.wrWide_fwt (s : State) (a v n : Nat) : (s.wrWide a v n).fwt = s.fwt := by rw [State.wrWide_eq]
@[simp] theorem State.wrWide_links (s : State) (a v n : Nat) : (s.wrWide a v n).links = s.links := by rw [State.wrWide_eq]
@[simp] theorem State.wrWide_spine (s : State) (a v n : Nat) : (s.wrWide a v n).spine = s.spine := by rw [State.wrWide_eq]
@[simp] theorem State.wrWide_tide (s : State) (a v n : Nat) : (s.wrWide a v n).tide = s.tide := by rw [State.wrWide_eq]
@[simp] theorem State.wrWide_optics (s : State) (a v n : Nat) : (s.wrWide a v n).optics = s.optics := by rw [State.wrWide_eq]
@[simp] theorem State.wrWide_charges (s : State) (a v n : Nat) : (s.wrWide a v n).charges = s.charges := by rw [State.wrWide_eq]
@[simp] theorem State.wrWide_fen (s : State) (a v n : Nat) : (s.wrWide a v n).fen = s.fen := by rw [State.wrWide_eq]
@[simp] theorem State.wrWide_peat (s : State) (a v n : Nat) : (s.wrWide a v n).peat = s.peat := by rw [State.wrWide_eq]
@[simp] theorem State.wrWide_del (s : State) (a v n : Nat) : (s.wrWide a v n).del = s.del := by rw [State.wrWide_eq]
@[simp] theorem State.wrWide_fences (s : State) (a v n : Nat) : (s.wrWide a v n).fences = s.fences := by rw [State.wrWide_eq]
@[simp] theorem State.wrWide_baro (s : State) (a v n : Nat) : (s.wrWide a v n).baro = s.baro := by rw [State.wrWide_eq]
@[simp] theorem State.wrWide_chk (s : State) (a v n : Nat) : (s.wrWide a v n).chk = s.chk := by rw [State.wrWide_eq]
@[simp] theorem State.wrWide_pmc (s : State) (a v n : Nat) : (s.wrWide a v n).pmc = s.pmc := by rw [State.wrWide_eq]
@[simp] theorem State.wrWide_cfg (s : State) (a v n : Nat) : (s.wrWide a v n).cfg = s.cfg := by rw [State.wrWide_eq]
@[simp] theorem State.wrWide_pwr (s : State) (a v n : Nat) : (s.wrWide a v n).pwr = s.pwr := by rw [State.wrWide_eq]
@[simp] theorem State.wrWide_out (s : State) (a v n : Nat) : (s.wrWide a v n).out = s.out := by rw [State.wrWide_eq]
@[simp] theorem State.wrWide_free (s : State) (a v n : Nat) : (s.wrWide a v n).free = s.free := by rw [State.wrWide_eq]
@[simp] theorem State.wrWide_pending (s : State) (a v n : Nat) : (s.wrWide a v n).pending = s.pending := by rw [State.wrWide_eq]

@[simp] theorem State.setFld_cnts (s : State) (a : Nat) (f : Fld) (v : Nat) : (s.setFld a f v).cnts = s.cnts := by rw [State.setFld_eq]
@[simp] theorem State.setFld_logLast (s : State) (a : Nat) (f : Fld) (v : Nat) : (s.setFld a f v).logLast = s.logLast := by rw [State.setFld_eq]
@[simp] theorem State.setFld_host (s : State) (a : Nat) (f : Fld) (v : Nat) : (s.setFld a f v).host = s.host := by rw [State.setFld_eq]
@[simp] theorem State.setFld_time (s : State) (a : Nat) (f : Fld) (v : Nat) : (s.setFld a f v).time = s.time := by rw [State.setFld_eq]
@[simp] theorem State.setFld_mem1 (s : State) (a : Nat) (f : Fld) (v : Nat) : (s.setFld a f v).mem1 = s.mem1 := by rw [State.setFld_eq]
@[simp] theorem State.setFld_mem2 (s : State) (a : Nat) (f : Fld) (v : Nat) : (s.setFld a f v).mem2 = s.mem2 := by rw [State.setFld_eq]
@[simp] theorem State.setFld_sw (s : State) (a : Nat) (f : Fld) (v : Nat) : (s.setFld a f v).sw = s.sw := by rw [State.setFld_eq]
@[simp] theorem State.setFld_fwt (s : State) (a : Nat) (f : Fld) (v : Nat) : (s.setFld a f v).fwt = s.fwt := by rw [State.setFld_eq]
@[simp] theorem State.setFld_links (s : State) (a : Nat) (f : Fld) (v : Nat) : (s.setFld a f v).links = s.links := by rw [State.setFld_eq]
@[simp] theorem State.setFld_spine (s : State) (a : Nat) (f : Fld) (v : Nat) : (s.setFld a f v).spine = s.spine := by rw [State.setFld_eq]
@[simp] theorem State.setFld_tide (s : State) (a : Nat) (f : Fld) (v : Nat) : (s.setFld a f v).tide = s.tide := by rw [State.setFld_eq]
@[simp] theorem State.setFld_optics (s : State) (a : Nat) (f : Fld) (v : Nat) : (s.setFld a f v).optics = s.optics := by rw [State.setFld_eq]
@[simp] theorem State.setFld_charges (s : State) (a : Nat) (f : Fld) (v : Nat) : (s.setFld a f v).charges = s.charges := by rw [State.setFld_eq]
@[simp] theorem State.setFld_fen (s : State) (a : Nat) (f : Fld) (v : Nat) : (s.setFld a f v).fen = s.fen := by rw [State.setFld_eq]
@[simp] theorem State.setFld_peat (s : State) (a : Nat) (f : Fld) (v : Nat) : (s.setFld a f v).peat = s.peat := by rw [State.setFld_eq]
@[simp] theorem State.setFld_del (s : State) (a : Nat) (f : Fld) (v : Nat) : (s.setFld a f v).del = s.del := by rw [State.setFld_eq]
@[simp] theorem State.setFld_fences (s : State) (a : Nat) (f : Fld) (v : Nat) : (s.setFld a f v).fences = s.fences := by rw [State.setFld_eq]
@[simp] theorem State.setFld_baro (s : State) (a : Nat) (f : Fld) (v : Nat) : (s.setFld a f v).baro = s.baro := by rw [State.setFld_eq]
@[simp] theorem State.setFld_chk (s : State) (a : Nat) (f : Fld) (v : Nat) : (s.setFld a f v).chk = s.chk := by rw [State.setFld_eq]
@[simp] theorem State.setFld_pmc (s : State) (a : Nat) (f : Fld) (v : Nat) : (s.setFld a f v).pmc = s.pmc := by rw [State.setFld_eq]
@[simp] theorem State.setFld_cfg (s : State) (a : Nat) (f : Fld) (v : Nat) : (s.setFld a f v).cfg = s.cfg := by rw [State.setFld_eq]
@[simp] theorem State.setFld_pwr (s : State) (a : Nat) (f : Fld) (v : Nat) : (s.setFld a f v).pwr = s.pwr := by rw [State.setFld_eq]
@[simp] theorem State.setFld_out (s : State) (a : Nat) (f : Fld) (v : Nat) : (s.setFld a f v).out = s.out := by rw [State.setFld_eq]
@[simp] theorem State.setFld_free (s : State) (a : Nat) (f : Fld) (v : Nat) : (s.setFld a f v).free = s.free := by rw [State.setFld_eq]
@[simp] theorem State.setFld_pending (s : State) (a : Nat) (f : Fld) (v : Nat) : (s.setFld a f v).pending = s.pending := by rw [State.setFld_eq]

@[simp] theorem State.setFlag_cnts (s : State) (a : Nat) (f : Fld) (b : Bool) : (s.setFlag a f b).cnts = s.cnts := State.setFld_cnts _ _ _ _
@[simp] theorem State.setFlag_logLast (s : State) (a : Nat) (f : Fld) (b : Bool) : (s.setFlag a f b).logLast = s.logLast := State.setFld_logLast _ _ _ _
@[simp] theorem State.setFlag_host (s : State) (a : Nat) (f : Fld) (b : Bool) : (s.setFlag a f b).host = s.host := State.setFld_host _ _ _ _
@[simp] theorem State.setFlag_time (s : State) (a : Nat) (f : Fld) (b : Bool) : (s.setFlag a f b).time = s.time := State.setFld_time _ _ _ _
@[simp] theorem State.setFlag_mem1 (s : State) (a : Nat) (f : Fld) (b : Bool) : (s.setFlag a f b).mem1 = s.mem1 := State.setFld_mem1 _ _ _ _
@[simp] theorem State.setFlag_mem2 (s : State) (a : Nat) (f : Fld) (b : Bool) : (s.setFlag a f b).mem2 = s.mem2 := State.setFld_mem2 _ _ _ _
@[simp] theorem State.setFlag_sw (s : State) (a : Nat) (f : Fld) (b : Bool) : (s.setFlag a f b).sw = s.sw := State.setFld_sw _ _ _ _
@[simp] theorem State.setFlag_fwt (s : State) (a : Nat) (f : Fld) (b : Bool) : (s.setFlag a f b).fwt = s.fwt := State.setFld_fwt _ _ _ _
@[simp] theorem State.setFlag_links (s : State) (a : Nat) (f : Fld) (b : Bool) : (s.setFlag a f b).links = s.links := State.setFld_links _ _ _ _
@[simp] theorem State.setFlag_spine (s : State) (a : Nat) (f : Fld) (b : Bool) : (s.setFlag a f b).spine = s.spine := State.setFld_spine _ _ _ _
@[simp] theorem State.setFlag_tide (s : State) (a : Nat) (f : Fld) (b : Bool) : (s.setFlag a f b).tide = s.tide := State.setFld_tide _ _ _ _
@[simp] theorem State.setFlag_optics (s : State) (a : Nat) (f : Fld) (b : Bool) : (s.setFlag a f b).optics = s.optics := State.setFld_optics _ _ _ _
@[simp] theorem State.setFlag_charges (s : State) (a : Nat) (f : Fld) (b : Bool) : (s.setFlag a f b).charges = s.charges := State.setFld_charges _ _ _ _
@[simp] theorem State.setFlag_fen (s : State) (a : Nat) (f : Fld) (b : Bool) : (s.setFlag a f b).fen = s.fen := State.setFld_fen _ _ _ _
@[simp] theorem State.setFlag_peat (s : State) (a : Nat) (f : Fld) (b : Bool) : (s.setFlag a f b).peat = s.peat := State.setFld_peat _ _ _ _
@[simp] theorem State.setFlag_del (s : State) (a : Nat) (f : Fld) (b : Bool) : (s.setFlag a f b).del = s.del := State.setFld_del _ _ _ _
@[simp] theorem State.setFlag_fences (s : State) (a : Nat) (f : Fld) (b : Bool) : (s.setFlag a f b).fences = s.fences := State.setFld_fences _ _ _ _
@[simp] theorem State.setFlag_baro (s : State) (a : Nat) (f : Fld) (b : Bool) : (s.setFlag a f b).baro = s.baro := State.setFld_baro _ _ _ _
@[simp] theorem State.setFlag_chk (s : State) (a : Nat) (f : Fld) (b : Bool) : (s.setFlag a f b).chk = s.chk := State.setFld_chk _ _ _ _
@[simp] theorem State.setFlag_pmc (s : State) (a : Nat) (f : Fld) (b : Bool) : (s.setFlag a f b).pmc = s.pmc := State.setFld_pmc _ _ _ _
@[simp] theorem State.setFlag_cfg (s : State) (a : Nat) (f : Fld) (b : Bool) : (s.setFlag a f b).cfg = s.cfg := State.setFld_cfg _ _ _ _
@[simp] theorem State.setFlag_pwr (s : State) (a : Nat) (f : Fld) (b : Bool) : (s.setFlag a f b).pwr = s.pwr := State.setFld_pwr _ _ _ _
@[simp] theorem State.setFlag_out (s : State) (a : Nat) (f : Fld) (b : Bool) : (s.setFlag a f b).out = s.out := State.setFld_out _ _ _ _
@[simp] theorem State.setFlag_free (s : State) (a : Nat) (f : Fld) (b : Bool) : (s.setFlag a f b).free = s.free := State.setFld_free _ _ _ _
@[simp] theorem State.setFlag_pending (s : State) (a : Nat) (f : Fld) (b : Bool) : (s.setFlag a f b).pending = s.pending := State.setFld_pending _ _ _ _

@[simp] theorem State.addFld_cnts (s : State) (a : Nat) (f : Fld) (n : Nat) : (s.addFld a f n).cnts = s.cnts := State.setFld_cnts _ _ _ _
@[simp] theorem State.addFld_logLast (s : State) (a : Nat) (f : Fld) (n : Nat) : (s.addFld a f n).logLast = s.logLast := State.setFld_logLast _ _ _ _
@[simp] theorem State.addFld_host (s : State) (a : Nat) (f : Fld) (n : Nat) : (s.addFld a f n).host = s.host := State.setFld_host _ _ _ _
@[simp] theorem State.addFld_time (s : State) (a : Nat) (f : Fld) (n : Nat) : (s.addFld a f n).time = s.time := State.setFld_time _ _ _ _
@[simp] theorem State.addFld_mem1 (s : State) (a : Nat) (f : Fld) (n : Nat) : (s.addFld a f n).mem1 = s.mem1 := State.setFld_mem1 _ _ _ _
@[simp] theorem State.addFld_mem2 (s : State) (a : Nat) (f : Fld) (n : Nat) : (s.addFld a f n).mem2 = s.mem2 := State.setFld_mem2 _ _ _ _
@[simp] theorem State.addFld_sw (s : State) (a : Nat) (f : Fld) (n : Nat) : (s.addFld a f n).sw = s.sw := State.setFld_sw _ _ _ _
@[simp] theorem State.addFld_fwt (s : State) (a : Nat) (f : Fld) (n : Nat) : (s.addFld a f n).fwt = s.fwt := State.setFld_fwt _ _ _ _
@[simp] theorem State.addFld_links (s : State) (a : Nat) (f : Fld) (n : Nat) : (s.addFld a f n).links = s.links := State.setFld_links _ _ _ _
@[simp] theorem State.addFld_spine (s : State) (a : Nat) (f : Fld) (n : Nat) : (s.addFld a f n).spine = s.spine := State.setFld_spine _ _ _ _
@[simp] theorem State.addFld_tide (s : State) (a : Nat) (f : Fld) (n : Nat) : (s.addFld a f n).tide = s.tide := State.setFld_tide _ _ _ _
@[simp] theorem State.addFld_optics (s : State) (a : Nat) (f : Fld) (n : Nat) : (s.addFld a f n).optics = s.optics := State.setFld_optics _ _ _ _
@[simp] theorem State.addFld_charges (s : State) (a : Nat) (f : Fld) (n : Nat) : (s.addFld a f n).charges = s.charges := State.setFld_charges _ _ _ _
@[simp] theorem State.addFld_fen (s : State) (a : Nat) (f : Fld) (n : Nat) : (s.addFld a f n).fen = s.fen := State.setFld_fen _ _ _ _
@[simp] theorem State.addFld_peat (s : State) (a : Nat) (f : Fld) (n : Nat) : (s.addFld a f n).peat = s.peat := State.setFld_peat _ _ _ _
@[simp] theorem State.addFld_del (s : State) (a : Nat) (f : Fld) (n : Nat) : (s.addFld a f n).del = s.del := State.setFld_del _ _ _ _
@[simp] theorem State.addFld_fences (s : State) (a : Nat) (f : Fld) (n : Nat) : (s.addFld a f n).fences = s.fences := State.setFld_fences _ _ _ _
@[simp] theorem State.addFld_baro (s : State) (a : Nat) (f : Fld) (n : Nat) : (s.addFld a f n).baro = s.baro := State.setFld_baro _ _ _ _
@[simp] theorem State.addFld_chk (s : State) (a : Nat) (f : Fld) (n : Nat) : (s.addFld a f n).chk = s.chk := State.setFld_chk _ _ _ _
@[simp] theorem State.addFld_pmc (s : State) (a : Nat) (f : Fld) (n : Nat) : (s.addFld a f n).pmc = s.pmc := State.setFld_pmc _ _ _ _
@[simp] theorem State.addFld_cfg (s : State) (a : Nat) (f : Fld) (n : Nat) : (s.addFld a f n).cfg = s.cfg := State.setFld_cfg _ _ _ _
@[simp] theorem State.addFld_pwr (s : State) (a : Nat) (f : Fld) (n : Nat) : (s.addFld a f n).pwr = s.pwr := State.setFld_pwr _ _ _ _
@[simp] theorem State.addFld_out (s : State) (a : Nat) (f : Fld) (n : Nat) : (s.addFld a f n).out = s.out := State.setFld_out _ _ _ _
@[simp] theorem State.addFld_free (s : State) (a : Nat) (f : Fld) (n : Nat) : (s.addFld a f n).free = s.free := State.setFld_free _ _ _ _
@[simp] theorem State.addFld_pending (s : State) (a : Nat) (f : Fld) (n : Nat) : (s.addFld a f n).pending = s.pending := State.setFld_pending _ _ _ _

@[simp] theorem State.start_regs (s : State) (h : CmdHdr) (op : Nat) : (s.start h op).regs = s.regs := by unfold State.start; split <;> rfl
@[simp] theorem State.start_cnts (s : State) (h : CmdHdr) (op : Nat) : (s.start h op).cnts = s.cnts := by unfold State.start; split <;> rfl
@[simp] theorem State.start_logLast (s : State) (h : CmdHdr) (op : Nat) : (s.start h op).logLast = s.logLast := by unfold State.start; split <;> rfl
@[simp] theorem State.start_time (s : State) (h : CmdHdr) (op : Nat) : (s.start h op).time = s.time := by unfold State.start; split <;> rfl
@[simp] theorem State.start_mem1 (s : State) (h : CmdHdr) (op : Nat) : (s.start h op).mem1 = s.mem1 := by unfold State.start; split <;> rfl
@[simp] theorem State.start_mem2 (s : State) (h : CmdHdr) (op : Nat) : (s.start h op).mem2 = s.mem2 := by unfold State.start; split <;> rfl
@[simp] theorem State.start_sw (s : State) (h : CmdHdr) (op : Nat) : (s.start h op).sw = s.sw := by unfold State.start; split <;> rfl
@[simp] theorem State.start_fwt (s : State) (h : CmdHdr) (op : Nat) : (s.start h op).fwt = s.fwt := by unfold State.start; split <;> rfl
@[simp] theorem State.start_links (s : State) (h : CmdHdr) (op : Nat) : (s.start h op).links = s.links := by unfold State.start; split <;> rfl
@[simp] theorem State.start_spine (s : State) (h : CmdHdr) (op : Nat) : (s.start h op).spine = s.spine := by unfold State.start; split <;> rfl
@[simp] theorem State.start_tide (s : State) (h : CmdHdr) (op : Nat) : (s.start h op).tide = s.tide := by unfold State.start; split <;> rfl
@[simp] theorem State.start_optics (s : State) (h : CmdHdr) (op : Nat) : (s.start h op).optics = s.optics := by unfold State.start; split <;> rfl
@[simp] theorem State.start_charges (s : State) (h : CmdHdr) (op : Nat) : (s.start h op).charges = s.charges := by unfold State.start; split <;> rfl
@[simp] theorem State.start_fen (s : State) (h : CmdHdr) (op : Nat) : (s.start h op).fen = s.fen := by unfold State.start; split <;> rfl
@[simp] theorem State.start_peat (s : State) (h : CmdHdr) (op : Nat) : (s.start h op).peat = s.peat := by unfold State.start; split <;> rfl
@[simp] theorem State.start_del (s : State) (h : CmdHdr) (op : Nat) : (s.start h op).del = s.del := by unfold State.start; split <;> rfl
@[simp] theorem State.start_fences (s : State) (h : CmdHdr) (op : Nat) : (s.start h op).fences = s.fences := by unfold State.start; split <;> rfl
@[simp] theorem State.start_baro (s : State) (h : CmdHdr) (op : Nat) : (s.start h op).baro = s.baro := by unfold State.start; split <;> rfl
@[simp] theorem State.start_chk (s : State) (h : CmdHdr) (op : Nat) : (s.start h op).chk = s.chk := by unfold State.start; split <;> rfl
@[simp] theorem State.start_pmc (s : State) (h : CmdHdr) (op : Nat) : (s.start h op).pmc = s.pmc := by unfold State.start; split <;> rfl
@[simp] theorem State.start_cfg (s : State) (h : CmdHdr) (op : Nat) : (s.start h op).cfg = s.cfg := by unfold State.start; split <;> rfl
@[simp] theorem State.start_pwr (s : State) (h : CmdHdr) (op : Nat) : (s.start h op).pwr = s.pwr := by unfold State.start; split <;> rfl
@[simp] theorem State.start_out (s : State) (h : CmdHdr) (op : Nat) : (s.start h op).out = s.out := by unfold State.start; split <;> rfl
@[simp] theorem State.start_free (s : State) (h : CmdHdr) (op : Nat) : (s.start h op).free = s.free := by unfold State.start; split <;> rfl
@[simp] theorem State.start_pending (s : State) (h : CmdHdr) (op : Nat) : (s.start h op).pending = s.pending := by unfold State.start; split <;> rfl

@[simp] theorem State.setLegs_regs (s : State) (l : List Leg) : (s.setLegs l).regs = s.regs := rfl
@[simp] theorem State.setLegs_cnts (s : State) (l : List Leg) : (s.setLegs l).cnts = s.cnts := rfl
@[simp] theorem State.setLegs_logLast (s : State) (l : List Leg) : (s.setLegs l).logLast = s.logLast := rfl
@[simp] theorem State.setLegs_host (s : State) (l : List Leg) : (s.setLegs l).host = s.host := rfl
@[simp] theorem State.setLegs_time (s : State) (l : List Leg) : (s.setLegs l).time = s.time := rfl
@[simp] theorem State.setLegs_mem1 (s : State) (l : List Leg) : (s.setLegs l).mem1 = s.mem1 := rfl
@[simp] theorem State.setLegs_mem2 (s : State) (l : List Leg) : (s.setLegs l).mem2 = s.mem2 := rfl
@[simp] theorem State.setLegs_fwt (s : State) (l : List Leg) : (s.setLegs l).fwt = s.fwt := rfl
@[simp] theorem State.setLegs_links (s : State) (l : List Leg) : (s.setLegs l).links = s.links := rfl
@[simp] theorem State.setLegs_spine (s : State) (l : List Leg) : (s.setLegs l).spine = s.spine := rfl
@[simp] theorem State.setLegs_tide (s : State) (l : List Leg) : (s.setLegs l).tide = s.tide := rfl
@[simp] theorem State.setLegs_optics (s : State) (l : List Leg) : (s.setLegs l).optics = s.optics := rfl
@[simp] theorem State.setLegs_charges (s : State) (l : List Leg) : (s.setLegs l).charges = s.charges := rfl
@[simp] theorem State.setLegs_fen (s : State) (l : List Leg) : (s.setLegs l).fen = s.fen := rfl
@[simp] theorem State.setLegs_peat (s : State) (l : List Leg) : (s.setLegs l).peat = s.peat := rfl
@[simp] theorem State.setLegs_del (s : State) (l : List Leg) : (s.setLegs l).del = s.del := rfl
@[simp] theorem State.setLegs_fences (s : State) (l : List Leg) : (s.setLegs l).fences = s.fences := rfl
@[simp] theorem State.setLegs_baro (s : State) (l : List Leg) : (s.setLegs l).baro = s.baro := rfl
@[simp] theorem State.setLegs_chk (s : State) (l : List Leg) : (s.setLegs l).chk = s.chk := rfl
@[simp] theorem State.setLegs_pmc (s : State) (l : List Leg) : (s.setLegs l).pmc = s.pmc := rfl
@[simp] theorem State.setLegs_cfg (s : State) (l : List Leg) : (s.setLegs l).cfg = s.cfg := rfl
@[simp] theorem State.setLegs_pwr (s : State) (l : List Leg) : (s.setLegs l).pwr = s.pwr := rfl
@[simp] theorem State.setLegs_out (s : State) (l : List Leg) : (s.setLegs l).out = s.out := rfl
@[simp] theorem State.setLegs_free (s : State) (l : List Leg) : (s.setLegs l).free = s.free := rfl
@[simp] theorem State.setLegs_pending (s : State) (l : List Leg) : (s.setLegs l).pending = s.pending := rfl

@[simp] theorem State.setRingSt_regs (s : State) (r : Nat) (x : RingSt) : (s.setRingSt r x).regs = s.regs := rfl
@[simp] theorem State.setRingSt_cnts (s : State) (r : Nat) (x : RingSt) : (s.setRingSt r x).cnts = s.cnts := rfl
@[simp] theorem State.setRingSt_logLast (s : State) (r : Nat) (x : RingSt) : (s.setRingSt r x).logLast = s.logLast := rfl
@[simp] theorem State.setRingSt_host (s : State) (r : Nat) (x : RingSt) : (s.setRingSt r x).host = s.host := rfl
@[simp] theorem State.setRingSt_time (s : State) (r : Nat) (x : RingSt) : (s.setRingSt r x).time = s.time := rfl
@[simp] theorem State.setRingSt_mem1 (s : State) (r : Nat) (x : RingSt) : (s.setRingSt r x).mem1 = s.mem1 := rfl
@[simp] theorem State.setRingSt_mem2 (s : State) (r : Nat) (x : RingSt) : (s.setRingSt r x).mem2 = s.mem2 := rfl
@[simp] theorem State.setRingSt_fwt (s : State) (r : Nat) (x : RingSt) : (s.setRingSt r x).fwt = s.fwt := rfl
@[simp] theorem State.setRingSt_links (s : State) (r : Nat) (x : RingSt) : (s.setRingSt r x).links = s.links := rfl
@[simp] theorem State.setRingSt_spine (s : State) (r : Nat) (x : RingSt) : (s.setRingSt r x).spine = s.spine := rfl
@[simp] theorem State.setRingSt_tide (s : State) (r : Nat) (x : RingSt) : (s.setRingSt r x).tide = s.tide := rfl
@[simp] theorem State.setRingSt_optics (s : State) (r : Nat) (x : RingSt) : (s.setRingSt r x).optics = s.optics := rfl
@[simp] theorem State.setRingSt_charges (s : State) (r : Nat) (x : RingSt) : (s.setRingSt r x).charges = s.charges := rfl
@[simp] theorem State.setRingSt_fen (s : State) (r : Nat) (x : RingSt) : (s.setRingSt r x).fen = s.fen := rfl
@[simp] theorem State.setRingSt_peat (s : State) (r : Nat) (x : RingSt) : (s.setRingSt r x).peat = s.peat := rfl
@[simp] theorem State.setRingSt_del (s : State) (r : Nat) (x : RingSt) : (s.setRingSt r x).del = s.del := rfl
@[simp] theorem State.setRingSt_fences (s : State) (r : Nat) (x : RingSt) : (s.setRingSt r x).fences = s.fences := rfl
@[simp] theorem State.setRingSt_baro (s : State) (r : Nat) (x : RingSt) : (s.setRingSt r x).baro = s.baro := rfl
@[simp] theorem State.setRingSt_chk (s : State) (r : Nat) (x : RingSt) : (s.setRingSt r x).chk = s.chk := rfl
@[simp] theorem State.setRingSt_pmc (s : State) (r : Nat) (x : RingSt) : (s.setRingSt r x).pmc = s.pmc := rfl
@[simp] theorem State.setRingSt_cfg (s : State) (r : Nat) (x : RingSt) : (s.setRingSt r x).cfg = s.cfg := rfl
@[simp] theorem State.setRingSt_pwr (s : State) (r : Nat) (x : RingSt) : (s.setRingSt r x).pwr = s.pwr := rfl
@[simp] theorem State.setRingSt_out (s : State) (r : Nat) (x : RingSt) : (s.setRingSt r x).out = s.out := rfl
@[simp] theorem State.setRingSt_free (s : State) (r : Nat) (x : RingSt) : (s.setRingSt r x).free = s.free := rfl
@[simp] theorem State.setRingSt_pending (s : State) (r : Nat) (x : RingSt) : (s.setRingSt r x).pending = s.pending := rfl

@[simp] theorem State.setRx_regs (s : State) (l : List RxFrame) : (s.setRx l).regs = s.regs := rfl
@[simp] theorem State.setRx_cnts (s : State) (l : List RxFrame) : (s.setRx l).cnts = s.cnts := rfl
@[simp] theorem State.setRx_logLast (s : State) (l : List RxFrame) : (s.setRx l).logLast = s.logLast := rfl
@[simp] theorem State.setRx_host (s : State) (l : List RxFrame) : (s.setRx l).host = s.host := rfl
@[simp] theorem State.setRx_time (s : State) (l : List RxFrame) : (s.setRx l).time = s.time := rfl
@[simp] theorem State.setRx_mem1 (s : State) (l : List RxFrame) : (s.setRx l).mem1 = s.mem1 := rfl
@[simp] theorem State.setRx_mem2 (s : State) (l : List RxFrame) : (s.setRx l).mem2 = s.mem2 := rfl
@[simp] theorem State.setRx_fwt (s : State) (l : List RxFrame) : (s.setRx l).fwt = s.fwt := rfl
@[simp] theorem State.setRx_links (s : State) (l : List RxFrame) : (s.setRx l).links = s.links := rfl
@[simp] theorem State.setRx_spine (s : State) (l : List RxFrame) : (s.setRx l).spine = s.spine := rfl
@[simp] theorem State.setRx_tide (s : State) (l : List RxFrame) : (s.setRx l).tide = s.tide := rfl
@[simp] theorem State.setRx_optics (s : State) (l : List RxFrame) : (s.setRx l).optics = s.optics := rfl
@[simp] theorem State.setRx_charges (s : State) (l : List RxFrame) : (s.setRx l).charges = s.charges := rfl
@[simp] theorem State.setRx_fen (s : State) (l : List RxFrame) : (s.setRx l).fen = s.fen := rfl
@[simp] theorem State.setRx_peat (s : State) (l : List RxFrame) : (s.setRx l).peat = s.peat := rfl
@[simp] theorem State.setRx_del (s : State) (l : List RxFrame) : (s.setRx l).del = s.del := rfl
@[simp] theorem State.setRx_fences (s : State) (l : List RxFrame) : (s.setRx l).fences = s.fences := rfl
@[simp] theorem State.setRx_baro (s : State) (l : List RxFrame) : (s.setRx l).baro = s.baro := rfl
@[simp] theorem State.setRx_chk (s : State) (l : List RxFrame) : (s.setRx l).chk = s.chk := rfl
@[simp] theorem State.setRx_pmc (s : State) (l : List RxFrame) : (s.setRx l).pmc = s.pmc := rfl
@[simp] theorem State.setRx_cfg (s : State) (l : List RxFrame) : (s.setRx l).cfg = s.cfg := rfl
@[simp] theorem State.setRx_pwr (s : State) (l : List RxFrame) : (s.setRx l).pwr = s.pwr := rfl
@[simp] theorem State.setRx_out (s : State) (l : List RxFrame) : (s.setRx l).out = s.out := rfl
@[simp] theorem State.setRx_free (s : State) (l : List RxFrame) : (s.setRx l).free = s.free := rfl
@[simp] theorem State.setRx_pending (s : State) (l : List RxFrame) : (s.setRx l).pending = s.pending := rfl

@[simp] theorem State.setCal_regs (s : State) (l : List CalSt) : (s.setCal l).regs = s.regs := rfl
@[simp] theorem State.setCal_cnts (s : State) (l : List CalSt) : (s.setCal l).cnts = s.cnts := rfl
@[simp] theorem State.setCal_logLast (s : State) (l : List CalSt) : (s.setCal l).logLast = s.logLast := rfl
@[simp] theorem State.setCal_host (s : State) (l : List CalSt) : (s.setCal l).host = s.host := rfl
@[simp] theorem State.setCal_mem1 (s : State) (l : List CalSt) : (s.setCal l).mem1 = s.mem1 := rfl
@[simp] theorem State.setCal_mem2 (s : State) (l : List CalSt) : (s.setCal l).mem2 = s.mem2 := rfl
@[simp] theorem State.setCal_sw (s : State) (l : List CalSt) : (s.setCal l).sw = s.sw := rfl
@[simp] theorem State.setCal_fwt (s : State) (l : List CalSt) : (s.setCal l).fwt = s.fwt := rfl
@[simp] theorem State.setCal_links (s : State) (l : List CalSt) : (s.setCal l).links = s.links := rfl
@[simp] theorem State.setCal_spine (s : State) (l : List CalSt) : (s.setCal l).spine = s.spine := rfl
@[simp] theorem State.setCal_tide (s : State) (l : List CalSt) : (s.setCal l).tide = s.tide := rfl
@[simp] theorem State.setCal_optics (s : State) (l : List CalSt) : (s.setCal l).optics = s.optics := rfl
@[simp] theorem State.setCal_charges (s : State) (l : List CalSt) : (s.setCal l).charges = s.charges := rfl
@[simp] theorem State.setCal_fen (s : State) (l : List CalSt) : (s.setCal l).fen = s.fen := rfl
@[simp] theorem State.setCal_peat (s : State) (l : List CalSt) : (s.setCal l).peat = s.peat := rfl
@[simp] theorem State.setCal_del (s : State) (l : List CalSt) : (s.setCal l).del = s.del := rfl
@[simp] theorem State.setCal_fences (s : State) (l : List CalSt) : (s.setCal l).fences = s.fences := rfl
@[simp] theorem State.setCal_baro (s : State) (l : List CalSt) : (s.setCal l).baro = s.baro := rfl
@[simp] theorem State.setCal_chk (s : State) (l : List CalSt) : (s.setCal l).chk = s.chk := rfl
@[simp] theorem State.setCal_pmc (s : State) (l : List CalSt) : (s.setCal l).pmc = s.pmc := rfl
@[simp] theorem State.setCal_cfg (s : State) (l : List CalSt) : (s.setCal l).cfg = s.cfg := rfl
@[simp] theorem State.setCal_pwr (s : State) (l : List CalSt) : (s.setCal l).pwr = s.pwr := rfl
@[simp] theorem State.setCal_out (s : State) (l : List CalSt) : (s.setCal l).out = s.out := rfl
@[simp] theorem State.setCal_free (s : State) (l : List CalSt) : (s.setCal l).free = s.free := rfl
@[simp] theorem State.setCal_pending (s : State) (l : List CalSt) : (s.setCal l).pending = s.pending := rfl

@[simp] theorem State.setTpo_regs (s : State) (k : Nat) (t : TpoSt) : (s.setTpo k t).regs = s.regs := rfl
@[simp] theorem State.setTpo_cnts (s : State) (k : Nat) (t : TpoSt) : (s.setTpo k t).cnts = s.cnts := rfl
@[simp] theorem State.setTpo_logLast (s : State) (k : Nat) (t : TpoSt) : (s.setTpo k t).logLast = s.logLast := rfl
@[simp] theorem State.setTpo_host (s : State) (k : Nat) (t : TpoSt) : (s.setTpo k t).host = s.host := rfl
@[simp] theorem State.setTpo_mem1 (s : State) (k : Nat) (t : TpoSt) : (s.setTpo k t).mem1 = s.mem1 := rfl
@[simp] theorem State.setTpo_mem2 (s : State) (k : Nat) (t : TpoSt) : (s.setTpo k t).mem2 = s.mem2 := rfl
@[simp] theorem State.setTpo_sw (s : State) (k : Nat) (t : TpoSt) : (s.setTpo k t).sw = s.sw := rfl
@[simp] theorem State.setTpo_fwt (s : State) (k : Nat) (t : TpoSt) : (s.setTpo k t).fwt = s.fwt := rfl
@[simp] theorem State.setTpo_links (s : State) (k : Nat) (t : TpoSt) : (s.setTpo k t).links = s.links := rfl
@[simp] theorem State.setTpo_spine (s : State) (k : Nat) (t : TpoSt) : (s.setTpo k t).spine = s.spine := rfl
@[simp] theorem State.setTpo_tide (s : State) (k : Nat) (t : TpoSt) : (s.setTpo k t).tide = s.tide := rfl
@[simp] theorem State.setTpo_optics (s : State) (k : Nat) (t : TpoSt) : (s.setTpo k t).optics = s.optics := rfl
@[simp] theorem State.setTpo_charges (s : State) (k : Nat) (t : TpoSt) : (s.setTpo k t).charges = s.charges := rfl
@[simp] theorem State.setTpo_fen (s : State) (k : Nat) (t : TpoSt) : (s.setTpo k t).fen = s.fen := rfl
@[simp] theorem State.setTpo_peat (s : State) (k : Nat) (t : TpoSt) : (s.setTpo k t).peat = s.peat := rfl
@[simp] theorem State.setTpo_del (s : State) (k : Nat) (t : TpoSt) : (s.setTpo k t).del = s.del := rfl
@[simp] theorem State.setTpo_fences (s : State) (k : Nat) (t : TpoSt) : (s.setTpo k t).fences = s.fences := rfl
@[simp] theorem State.setTpo_baro (s : State) (k : Nat) (t : TpoSt) : (s.setTpo k t).baro = s.baro := rfl
@[simp] theorem State.setTpo_chk (s : State) (k : Nat) (t : TpoSt) : (s.setTpo k t).chk = s.chk := rfl
@[simp] theorem State.setTpo_pmc (s : State) (k : Nat) (t : TpoSt) : (s.setTpo k t).pmc = s.pmc := rfl
@[simp] theorem State.setTpo_cfg (s : State) (k : Nat) (t : TpoSt) : (s.setTpo k t).cfg = s.cfg := rfl
@[simp] theorem State.setTpo_pwr (s : State) (k : Nat) (t : TpoSt) : (s.setTpo k t).pwr = s.pwr := rfl
@[simp] theorem State.setTpo_out (s : State) (k : Nat) (t : TpoSt) : (s.setTpo k t).out = s.out := rfl
@[simp] theorem State.setTpo_free (s : State) (k : Nat) (t : TpoSt) : (s.setTpo k t).free = s.free := rfl
@[simp] theorem State.setTpo_pending (s : State) (k : Nat) (t : TpoSt) : (s.setTpo k t).pending = s.pending := rfl

@[simp] theorem State.setTpi_regs (s : State) (k : Nat) (t : TpiSt) : (s.setTpi k t).regs = s.regs := rfl
@[simp] theorem State.setTpi_cnts (s : State) (k : Nat) (t : TpiSt) : (s.setTpi k t).cnts = s.cnts := rfl
@[simp] theorem State.setTpi_logLast (s : State) (k : Nat) (t : TpiSt) : (s.setTpi k t).logLast = s.logLast := rfl
@[simp] theorem State.setTpi_host (s : State) (k : Nat) (t : TpiSt) : (s.setTpi k t).host = s.host := rfl
@[simp] theorem State.setTpi_mem1 (s : State) (k : Nat) (t : TpiSt) : (s.setTpi k t).mem1 = s.mem1 := rfl
@[simp] theorem State.setTpi_mem2 (s : State) (k : Nat) (t : TpiSt) : (s.setTpi k t).mem2 = s.mem2 := rfl
@[simp] theorem State.setTpi_sw (s : State) (k : Nat) (t : TpiSt) : (s.setTpi k t).sw = s.sw := rfl
@[simp] theorem State.setTpi_fwt (s : State) (k : Nat) (t : TpiSt) : (s.setTpi k t).fwt = s.fwt := rfl
@[simp] theorem State.setTpi_links (s : State) (k : Nat) (t : TpiSt) : (s.setTpi k t).links = s.links := rfl
@[simp] theorem State.setTpi_spine (s : State) (k : Nat) (t : TpiSt) : (s.setTpi k t).spine = s.spine := rfl
@[simp] theorem State.setTpi_tide (s : State) (k : Nat) (t : TpiSt) : (s.setTpi k t).tide = s.tide := rfl
@[simp] theorem State.setTpi_optics (s : State) (k : Nat) (t : TpiSt) : (s.setTpi k t).optics = s.optics := rfl
@[simp] theorem State.setTpi_charges (s : State) (k : Nat) (t : TpiSt) : (s.setTpi k t).charges = s.charges := rfl
@[simp] theorem State.setTpi_fen (s : State) (k : Nat) (t : TpiSt) : (s.setTpi k t).fen = s.fen := rfl
@[simp] theorem State.setTpi_peat (s : State) (k : Nat) (t : TpiSt) : (s.setTpi k t).peat = s.peat := rfl
@[simp] theorem State.setTpi_del (s : State) (k : Nat) (t : TpiSt) : (s.setTpi k t).del = s.del := rfl
@[simp] theorem State.setTpi_fences (s : State) (k : Nat) (t : TpiSt) : (s.setTpi k t).fences = s.fences := rfl
@[simp] theorem State.setTpi_baro (s : State) (k : Nat) (t : TpiSt) : (s.setTpi k t).baro = s.baro := rfl
@[simp] theorem State.setTpi_chk (s : State) (k : Nat) (t : TpiSt) : (s.setTpi k t).chk = s.chk := rfl
@[simp] theorem State.setTpi_pmc (s : State) (k : Nat) (t : TpiSt) : (s.setTpi k t).pmc = s.pmc := rfl
@[simp] theorem State.setTpi_cfg (s : State) (k : Nat) (t : TpiSt) : (s.setTpi k t).cfg = s.cfg := rfl
@[simp] theorem State.setTpi_pwr (s : State) (k : Nat) (t : TpiSt) : (s.setTpi k t).pwr = s.pwr := rfl
@[simp] theorem State.setTpi_out (s : State) (k : Nat) (t : TpiSt) : (s.setTpi k t).out = s.out := rfl
@[simp] theorem State.setTpi_free (s : State) (k : Nat) (t : TpiSt) : (s.setTpi k t).free = s.free := rfl
@[simp] theorem State.setTpi_pending (s : State) (k : Nat) (t : TpiSt) : (s.setTpi k t).pending = s.pending := rfl

@[simp] theorem State.setTests_regs (s : State) (l : List MarginTest) : (s.setTests l).regs = s.regs := rfl
@[simp] theorem State.setTests_cnts (s : State) (l : List MarginTest) : (s.setTests l).cnts = s.cnts := rfl
@[simp] theorem State.setTests_logLast (s : State) (l : List MarginTest) : (s.setTests l).logLast = s.logLast := rfl
@[simp] theorem State.setTests_host (s : State) (l : List MarginTest) : (s.setTests l).host = s.host := rfl
@[simp] theorem State.setTests_time (s : State) (l : List MarginTest) : (s.setTests l).time = s.time := rfl
@[simp] theorem State.setTests_mem1 (s : State) (l : List MarginTest) : (s.setTests l).mem1 = s.mem1 := rfl
@[simp] theorem State.setTests_mem2 (s : State) (l : List MarginTest) : (s.setTests l).mem2 = s.mem2 := rfl
@[simp] theorem State.setTests_sw (s : State) (l : List MarginTest) : (s.setTests l).sw = s.sw := rfl
@[simp] theorem State.setTests_fwt (s : State) (l : List MarginTest) : (s.setTests l).fwt = s.fwt := rfl
@[simp] theorem State.setTests_links (s : State) (l : List MarginTest) : (s.setTests l).links = s.links := rfl
@[simp] theorem State.setTests_spine (s : State) (l : List MarginTest) : (s.setTests l).spine = s.spine := rfl
@[simp] theorem State.setTests_tide (s : State) (l : List MarginTest) : (s.setTests l).tide = s.tide := rfl
@[simp] theorem State.setTests_charges (s : State) (l : List MarginTest) : (s.setTests l).charges = s.charges := rfl
@[simp] theorem State.setTests_fen (s : State) (l : List MarginTest) : (s.setTests l).fen = s.fen := rfl
@[simp] theorem State.setTests_peat (s : State) (l : List MarginTest) : (s.setTests l).peat = s.peat := rfl
@[simp] theorem State.setTests_del (s : State) (l : List MarginTest) : (s.setTests l).del = s.del := rfl
@[simp] theorem State.setTests_fences (s : State) (l : List MarginTest) : (s.setTests l).fences = s.fences := rfl
@[simp] theorem State.setTests_baro (s : State) (l : List MarginTest) : (s.setTests l).baro = s.baro := rfl
@[simp] theorem State.setTests_chk (s : State) (l : List MarginTest) : (s.setTests l).chk = s.chk := rfl
@[simp] theorem State.setTests_pmc (s : State) (l : List MarginTest) : (s.setTests l).pmc = s.pmc := rfl
@[simp] theorem State.setTests_cfg (s : State) (l : List MarginTest) : (s.setTests l).cfg = s.cfg := rfl
@[simp] theorem State.setTests_pwr (s : State) (l : List MarginTest) : (s.setTests l).pwr = s.pwr := rfl
@[simp] theorem State.setTests_out (s : State) (l : List MarginTest) : (s.setTests l).out = s.out := rfl
@[simp] theorem State.setTests_free (s : State) (l : List MarginTest) : (s.setTests l).free = s.free := rfl
@[simp] theorem State.setTests_pending (s : State) (l : List MarginTest) : (s.setTests l).pending = s.pending := rfl

end Sys2Proof.Machine
end

