-- ==== Sys2Proof/Laws/Commands.lean ====
section
/-! SUPPORT. How a command entry runs: everything runCmd can do. -/
namespace Sys2Proof.Machine

/-- Starting a command changes no register word. -/
theorem State.start_rd (s : State) (h : CmdHdr) (op : Nat) (a : Nat) : (s.start h op).rd a = s.rd a := State.rd_congr (State.start_regs s h op) a
@[simp] theorem State.start_fld (s : State) (h : CmdHdr) (op a : Nat) (f : Fld) : (s.start h op).fld a f = s.fld a f :=
  State.fld_congr (State.start_regs s h op) a f
@[simp] theorem State.start_flag (s : State) (h : CmdHdr) (op a : Nat) (f : Fld) : (s.start h op).flag a f = s.flag a f :=
  State.flag_congr (State.start_regs s h op) a f
@[simp] theorem State.start_stageReached (s : State) (h : CmdHdr) (op b : Nat) : (s.start h op).stageReached b = s.stageReached b := by
  simp [State.stageReached]
@[simp] theorem State.start_crCfg (s : State) (h : CmdHdr) (op i : Nat) (f : Fld) : (s.start h op).crCfg i f = s.crCfg i f := State.start_fld ..
@[simp] theorem State.start_ringWindow (s : State) (h : CmdHdr) (op i : Nat) : (s.start h op).ringWindow i = s.ringWindow i := by
  unfold State.ringWindow
  rw [State.start_crCfg, State.start_crCfg]
@[simp] theorem State.start_cmdWindow (s : State) (h g : CmdHdr) (op : Nat) : (s.start h op).cmdWindow g = s.cmdWindow g := by
  unfold State.cmdWindow
  split <;> simp
@[simp] theorem State.start_isOperator (s : State) (h g : CmdHdr) (op : Nat) : (s.start h op).isOperator g = s.isOperator g := by
  simp only [State.isOperator, State.start_cmdWindow]

/-- A command whose conditions hold starts and has its own effect, and completes with what that answers. -/
theorem State.runCmd_takes {s : State} {h : CmdHdr} {op : Nat} {oper : Bool} (body : State → State × Option Cmpl) (hs : s.takes h op oper = true) :
    s.runCmd h op oper body = (match body (s.start h op) with | (t, some c) => t.complete h (op / 256) c | (t, none) => t) := by
  unfold State.takes at hs
  simp only [Bool.and_eq_true, Bool.or_eq_true, Bool.not_eq_true'] at hs
  obtain ⟨⟨h1, h2⟩, h4⟩ := hs
  unfold State.runCmd
  have h5 : (oper && !s.isOperator h) = false := by rcases h4 with h4 | h4 <;> simp [h4]
  cases hr : s.flag Reg.CFG_STATUS Fld.CFG_STATUS_RECOVERY <;> simp [hr] at h2 <;> rcases hb : body (s.start h op) with ⟨t, _ | c⟩ <;>
    simp [h1, h2, h5, hr, hb]

/-- A command that may not start yet changes nothing (R91, R311). -/
theorem State.runCmd_waits {s : State} {h : CmdHdr} {op : Nat} {oper : Bool} (body : State → State × Option Cmpl) (hs : s.mayStart h op = false) :
    s.runCmd h op oper body = s := by
  unfold State.runCmd
  simp [hs]

/-- In recovery a command that does not run there ends with RECOVERY (R784). -/
theorem State.runCmd_recovery {s : State} {h : CmdHdr} {op : Nat} {oper : Bool} (body : State → State × Option Cmpl) (h1 : s.mayStart h op = true)
    (h2 : s.flag Reg.CFG_STATUS Fld.CFG_STATUS_RECOVERY = true) (h3 : inRecovery op = false) :
    s.runCmd h op oper body = (s.start h op).complete h (op / 256) ⟨0x0107, 0, 0, []⟩ := by
  unfold State.runCmd
  simp [h1, h2, h3]

/-- Before its block's start-up stage a command ends with BUSY (R782). -/
theorem State.runCmd_busy {s : State} {h : CmdHdr} {op : Nat} {oper : Bool} (body : State → State × Option Cmpl) (h1 : s.mayStart h op = true)
    (h2 : s.flag Reg.CFG_STATUS Fld.CFG_STATUS_RECOVERY = false) (h3 : s.stageReached (op / 256) = false) :
    s.runCmd h op oper body = (s.start h op).complete h (op / 256) ⟨4, 0, 0, []⟩ := by
  unfold State.runCmd
  simp [h1, h2, h3]

/-- A command beyond its sender's privilege is denied (R79). -/
theorem State.runCmd_denied {s : State} {h : CmdHdr} {op : Nat} (body : State → State × Option Cmpl) (h1 : s.mayStart h op = true)
    (h2 : (if s.flag Reg.CFG_STATUS Fld.CFG_STATUS_RECOVERY then inRecovery op else s.stageReached (op / 256)) = true) (h4 : s.isOperator h = false) :
    s.runCmd h op true body = (s.start h op).deny h (op / 256) := by
  unfold State.runCmd
  cases hr : s.flag Reg.CFG_STATUS Fld.CFG_STATUS_RECOVERY <;> simp [hr] at h2 <;> simp [h1, h2, h4, hr]

/-- A COLL_CTRL packet that its row acts on is taken from the function port, and the row has its own effect. -/
theorem State.collCtrl_takes {s : State} {lp : Nat} {p : Pkt} {op e d : Nat} (body : Nat → Nat → Nat → Nat → State → State)
    (hs : s.ctrlTakes p op e d = true) : s.collCtrl lp p op body = body (dHome d) e d (beAt 2 2 p.payload) (s.takeFn lp p) := by
  unfold State.ctrlTakes at hs
  simp only [Bool.and_eq_true, beq_iff_eq, Bool.not_eq_true'] at hs
  obtain ⟨⟨⟨⟨⟨⟨⟨⟨h1, h2⟩, h3⟩, h4⟩, h5⟩, h6⟩, h7⟩, hp⟩, h8⟩ := hs
  have h9 : ¬ (op = 1 ∧ s.frozen = true) := by rintro ⟨rfl, h⟩; simp [h] at h5
  unfold State.collCtrl
  simp only [h6, h1, h2, h3, h4, h7, h8, h9, hp]
  simp

/-- A reset of a Peat partition that no sweep holds up takes place at once (R631). -/
theorem State.peatReset_now {s : State} {p : Nat} (h : Option CmdHdr) (h1 : s.flag (Reg.PEAT_PART_STATUS p) Fld.PEAT_PART_STATUS_RESETTING = false) :
    s.peatReset p h = (match h with | some h => (s.peatResetNow p false).complete h 0x0E ⟨0, 0, 0, []⟩ | none => s.peatResetNow p true) := by
  cases h <;> simp [State.peatReset, h1]

/-- It waits for the sweep of the reset before (R631). -/
theorem State.peatReset_waits {s : State} {p : Nat} (h : Option CmdHdr) (h1 : s.flag (Reg.PEAT_PART_STATUS p) Fld.PEAT_PART_STATUS_RESETTING = true) :
    s.peatReset p h = s.setPeat fun q => { q with resetWait := q.resetWait ++ [(p, h)] } := by
  simp [State.peatReset, h1]

/-- An UPDATE packet that its row acts on is taken from the function port, and the row has its own effect. -/
theorem State.updRx_takes {s : State} {lp : Nat} {p : Pkt} {kind : Nat} (f : State → State) (hs : updTakes p kind = true) :
    s.updRx lp p kind f = f (s.takeFn lp p) := by
  unfold updTakes at hs
  simp only [Bool.and_eq_true, beq_iff_eq, Bool.or_eq_true, decide_eq_true_eq, Bool.not_eq_true'] at hs
  obtain ⟨⟨⟨⟨⟨⟨h1, h2⟩, h3⟩, hp⟩, h4⟩, h5⟩, h6⟩ := hs
  have h7 : ¬ p.payload.length < 32 := by omega
  unfold State.updRx
  simp only [h1, h2, h3, h5, hp]
  rcases h6 with rfl | h6 <;> simp_all [Nat.not_lt.2 h4]

/-- Every row that is a command entry runs as one: its meaning is runCmd with its header, its OPCODE and the privilege it needs. -/
theorem exec_command {c : Instr} {h : CmdHdr} {op : Nat} {oper : Bool} (s : State) (hc : commandOf c = some (h, op, oper)) :
    ∃ body, exec c s = .next (s.runCmd h op oper body) := by
  cases c <;> first
    | (simp only [commandOf, reduceCtorEq] at hc; done)
    | (simp only [commandOf, Option.some.injEq, Prod.mk.injEq] at hc
       obtain ⟨rfl, rfl, rfl⟩ := hc
       exact ⟨_, rfl⟩)

end Sys2Proof.Machine
end

