-- ==== Sys2Proof/Laws/InvOps.lean ====
section
/-! SUPPORT. The shared operations of registers, rings, logs, commands, archive segments and traces keep the invariant. -/
namespace Sys2Proof.Machine

theorem State.setFld_inv (s : State) (a : Nat) (f : Fld) (v : Nat) (h0 : s.Inv) :
    (State.setFld s a f v).Inv := by
  unfold State.setFld
  grind -lia -linarith -ring [State.wrWide_inv]

theorem State.setFlag_inv (s : State) (a : Nat) (f : Fld) (b : Bool) (h0 : s.Inv) :
    (State.setFlag s a f b).Inv := by
  unfold State.setFlag
  grind -lia -linarith -ring [State.setFld_inv]

theorem State.inc_inv (s : State) (a : Nat) (h0 : s.Inv) :
    (State.inc s a).Inv := by
  unfold State.inc
  grind -lia -linarith -ring [State.addCnt_inv]

theorem State.addFld_inv (s : State) (a : Nat) (f : Fld) (n : Nat) (h0 : s.Inv) :
    (State.addFld s a f n).Inv := by
  unfold State.addFld
  grind -lia -linarith -ring [State.setFld_inv]

theorem State.emit_inv (s : State) (o : Out) (h0 : s.Inv) :
    (State.emit s o).Inv := by
  unfold State.emit
  grind -lia -linarith -ring [State.Inv_iff, State.Inv]

theorem State.draw_inv (s : State) (h0 : s.Inv) :
    (State.draw s).2.Inv := by
  unfold State.draw
  grind -lia -linarith -ring [State.Inv_iff, State.Inv]

theorem State.setCr_inv (s : State) (i : Nat) (c : CrSt) (h0 : s.Inv) :
    (State.setCr s i c).Inv := by
  unfold State.setCr
  grind -lia -linarith -ring [State.Inv_iff, State.Inv]

theorem State.setEr_inv (s : State) (j : Nat) (e : ErSt) (h0 : s.Inv) :
    (State.setEr s j e).Inv := by
  unfold State.setEr
  grind -lia -linarith -ring [State.Inv_iff, State.Inv]

theorem State.mpSend_inv (s : State) (dest op status seq : Nat) (body : List Byte) (h0 : s.Inv) :
    (State.mpSend s dest op status seq body).Inv := by
  unfold State.mpSend
  grind -lia -linarith -ring [State.emit_inv]

theorem State.mpSendEvent_inv (s : State) (e : Ev) (h0 : s.Inv) :
    (State.mpSendEvent s e).Inv := by
  unfold State.mpSendEvent
  grind -lia -linarith -ring [State.Inv_iff, State.Inv, State.inc_inv, State.mpSend_inv]

theorem State.erWrite_inv (s : State) (j : Nat) (e : Ev) (h0 : s.Inv) :
    (State.erWrite s j e).Inv := by
  unfold State.erWrite
  grind -lia -linarith -ring [State.Inv_iff, State.Inv, State.emit_inv, State.setEr_inv]

theorem State.erDrop_inv (s : State) (j : Nat) (h0 : s.Inv) :
    (State.erDrop s j).Inv := by
  unfold State.erDrop
  grind -lia -linarith -ring [State.Inv_iff, State.Inv, State.setEr_inv]

theorem State.erSeq_inv (s : State) (j : Nat) (e : Ev) (h0 : s.Inv) :
    (State.erSeq s j e).2.Inv := by
  unfold State.erSeq
  simp -zeta -zetaHave only [ite_sel]
  grind -lia -linarith -ring [sel_or, State.Inv_iff, State.Inv, State.setEr_inv]

theorem State.post_inv (s : State) (j : Nat) (e : Ev) (h0 : s.Inv) :
    (State.post s j e).Inv := by
  unfold State.post
  simp -zeta -zetaHave only [ite_sel]
  grind -lia -linarith -ring [sel_or, State.Inv_iff, State.Inv, State.emit_inv, State.setEr_inv, State.mpSendEvent_inv, State.erWrite_inv, State.erDrop_inv, State.erSeq_inv]

theorem State.ringError_inv (s : State) (i code : Nat) (h0 : s.Inv) :
    (State.ringError s i code).Inv := by
  unfold State.ringError
  grind -lia -linarith -ring [State.post_inv]

theorem State.sendMsix_inv (s : State) (v : Nat) (h0 : s.Inv) :
    (State.sendMsix s v).Inv := by
  unfold State.sendMsix
  simp -zeta -zetaHave only [ite_sel]
  grind -lia -linarith -ring [sel_or, State.wr_inv, State.emit_inv]

theorem State.erSignal_inv (s : State) (j : Nat) (h0 : s.Inv) :
    (State.erSignal s j).Inv := by
  unfold State.erSignal
  simp -zeta -zetaHave only [ite_sel]
  grind -lia -linarith -ring [sel_or, State.Inv_iff, State.Inv, State.setEr_inv, State.sendMsix_inv]

theorem State.postPageIrq_inv (s : State) (p : Nat) (h0 : s.Inv) :
    (State.postPageIrq s p).Inv := by
  unfold State.postPageIrq
  simp -zeta -zetaHave only [ite_sel]
  grind -lia -linarith -ring [sel_or, State.emit_inv, State.post_inv]

theorem State.irqStore_inv (s : State) (p a : Nat) (v : Word) (h0 : s.Inv) :
    (State.irqStore s p a v).Inv := by
  unfold State.irqStore
  simp -zeta -zetaHave only [ite_sel]
  grind -lia -linarith -ring [sel_or, State.wr_inv, State.postPageIrq_inv]

theorem State.irqRaw_inv (s : State) (p b : Nat) (h0 : s.Inv) :
    (State.irqRaw s p b).Inv := by
  unfold State.irqRaw
  grind -lia -linarith -ring [State.irqStore_inv]

theorem State.delWrite_inv (s : State) (off : Nat) (bs : List Byte) (h0 : s.Inv) :
    (State.delWrite s off bs).Inv := by
  unfold State.delWrite
  grind -lia -linarith -ring [State.Inv_iff, State.Inv, State.tierWrite_inv]

theorem State.delZero_inv (s : State) (off n : Nat) (h0 : s.Inv) :
    (State.delZero s off n).Inv := by
  unfold State.delZero
  grind -lia -linarith -ring [State.Inv_iff, State.Inv, State.tierZero_inv]

theorem State.setSeg_inv (s : State) (kind : Nat) (g : Option SegSt) (h0 : s.Inv) :
    (State.setSeg s kind g).Inv := by
  unfold State.setSeg
  grind -lia -linarith -ring [State.Inv_iff, State.Inv]

theorem State.postSegment_inv (s : State) (off len seq kind : Nat) (h0 : s.Inv) :
    (State.postSegment s off len seq kind).Inv := by
  unfold State.postSegment
  grind -lia -linarith -ring [State.post_inv]

theorem State.segClose_inv (s : State) (kind : Nat) (h0 : s.Inv) :
    (State.segClose s kind).Inv := by
  unfold State.segClose
  grind -lia -linarith -ring [State.Inv_iff, State.Inv, State.wrWide_inv, State.inc_inv, State.delWrite_inv, State.delZero_inv, State.setSeg_inv, State.postSegment_inv]

theorem State.segOpen_inv (s : State) (kind time window size : Nat) (h0 : s.Inv) :
    (State.segOpen s kind time window size).Inv := by
  unfold State.segOpen
  grind -lia -linarith -ring [State.wrWide_inv, State.delZero_inv, State.setSeg_inv]

theorem State.segPut_inv (s : State) (kind : Nat) (entry : List Byte) (window : Nat) (unaligned : Bool) (h0 : s.Inv) :
    (State.segPut s kind entry window unaligned).Inv := by
  unfold State.segPut
  simp -zeta -zetaHave only [ite_sel]
  grind -lia -linarith -ring [sel_or, State.Inv_iff, State.Inv, State.delWrite_inv, State.setSeg_inv, State.segClose_inv, State.segOpen_inv]

theorem State.setTrace_inv (s : State) (t : TraceSt) (h0 : s.Inv) :
    (State.setTrace s t).Inv := by
  unfold State.setTrace
  grind -lia -linarith -ring [State.Inv_iff, State.Inv]

theorem State.traceEnd_inv (s : State) (full : Bool) (h0 : s.Inv) :
    (State.traceEnd s full).Inv := by
  unfold State.traceEnd
  grind -lia -linarith -ring [State.setFld_inv, State.setFlag_inv, State.draw_inv, State.post_inv, State.irqRaw_inv, State.delWrite_inv, State.delZero_inv, State.postSegment_inv]

theorem State.spillTakes_inv (s : State) (h0 : s.Inv) :
    (State.spillTakes s).2.Inv := by
  unfold State.spillTakes
  simp -zeta -zetaHave only [ite_sel]
  grind -lia -linarith -ring [sel_or, State.draw_inv]

theorem State.tracePost_inv (s : State) (e : List Byte) (h0 : s.Inv) :
    (State.tracePost s e).Inv := by
  unfold State.tracePost
  simp -zeta -zetaHave only [ite_sel]
  grind -lia -linarith -ring [sel_or, State.Inv_iff, State.Inv, State.setFld_inv, State.inc_inv, State.post_inv, State.delWrite_inv, State.segPut_inv, State.setTrace_inv, State.spillTakes_inv]

theorem State.traceFire_inv (s : State) (kind code : Nat) (e : Option (List Byte)) (h0 : s.Inv) :
    (State.traceFire s kind code e).Inv := by
  unfold State.traceFire
  grind -lia -linarith -ring [State.Inv_iff, State.Inv, State.wrWide_inv, State.setFld_inv, State.post_inv, State.irqRaw_inv, State.delWrite_inv, State.delZero_inv, State.setTrace_inv, State.tracePost_inv]

theorem State.traceTake_inv (s : State) (kind code : Nat) (e : List Byte) (h0 : s.Inv) :
    (State.traceTake s kind code e).Inv := by
  unfold State.traceTake
  simp -zeta -zetaHave only [ite_sel]
  grind -lia -linarith -ring [sel_or, State.Inv_iff, State.Inv, State.inc_inv, State.setTrace_inv, State.tracePost_inv, State.traceFire_inv]

theorem State.trace_inv (s : State) (kind code loc src inst : Nat) (data : List Byte) (h0 : s.Inv) :
    (State.trace s kind code loc src inst data).Inv := by
  unfold State.trace
  simp -zeta -zetaHave only [ite_sel]
  grind -lia -linarith -ring [sel_or, State.traceTake_inv]

theorem State.traceError_inv (s : State) (p code sev loc : Nat) (h0 : s.Inv) :
    (State.traceError s p code sev loc).Inv := by
  unfold State.traceError
  simp -zeta -zetaHave only [ite_sel]
  grind -lia -linarith -ring [sel_or, State.trace_inv]

theorem State.irq_inv (s : State) (p b : Nat) (h0 : s.Inv) :
    (State.irq s p b).Inv := by
  unfold State.irq
  simp -zeta -zetaHave only [ite_sel]
  grind -lia -linarith -ring [sel_or, State.irqRaw_inv, State.trace_inv]

theorem State.alertUpdate_inv (s : State) (h0 : s.Inv) :
    (State.alertUpdate s).Inv := by
  unfold State.alertUpdate
  simp -zeta -zetaHave only [ite_sel]
  grind -lia -linarith -ring [sel_or, State.setFlag_inv, State.inc_inv, State.emit_inv]

theorem State.alertSource_inv (s : State) (k : Nat) (h0 : s.Inv) :
    (State.alertSource s k).Inv := by
  unfold State.alertSource
  grind -lia -linarith -ring [State.wr_inv, State.alertUpdate_inv]

theorem State.putLogEntry_inv (s : State) (p k code sev loc : Nat) (h0 : s.Inv) :
    (State.putLogEntry s p k code sev loc).Inv := by
  unfold State.putLogEntry
  simp -zeta -zetaHave only [ite_sel]
  grind -lia -linarith -ring [sel_or, State.wrWide_inv, State.alertSource_inv]

theorem State.logErr_inv (s : State) (p code sev loc : Nat) (h0 : s.Inv) :
    (State.logErr s p code sev loc).Inv := by
  unfold State.logErr
  simp -zeta -zetaHave only [ite_sel]
  grind -lia -linarith -ring [sel_or, State.Inv_iff, State.Inv, State.setFld_inv, State.addFld_inv, State.traceError_inv, State.irq_inv, State.putLogEntry_inv]

theorem State.stageDone_inv (s : State) (h0 : s.Inv) :
    (State.stageDone s).Inv := by
  unfold State.stageDone
  grind -lia -linarith -ring [State.inc_inv, State.irq_inv]

theorem State.onPage_inv (s : State) (p : Nat) (f : State → State) (h0 : s.Inv) (h1 : ∀ x0, x0.Inv → (f x0).Inv) :
    (State.onPage s p f).Inv := by
  unfold State.onPage
  simp -zeta -zetaHave only [ite_sel]
  grind -lia -linarith -ring [sel_or]

theorem State.start_inv (s : State) (h : CmdHdr) (opcode : Nat) (h0 : s.Inv) :
    (State.start s h opcode).Inv := by
  unfold State.start
  simp -zeta -zetaHave only [ite_sel, decide_sel]
  grind -lia -linarith -ring [sel_or, State.Inv_iff, State.Inv]

theorem State.unstart_inv (s : State) (h : CmdHdr) (block : Nat) (h0 : s.Inv) :
    (State.unstart s h block).Inv := by
  unfold State.unstart
  grind -lia -linarith -ring [State.Inv_iff, State.Inv]

theorem State.answer_inv (s : State) (h : CmdHdr) (block : Nat) (c : Cmpl) (h0 : s.Inv) :
    (State.answer s h block c).Inv := by
  unfold State.answer
  simp -zeta -zetaHave only [ite_sel, decide_sel]
  grind -lia -linarith -ring [sel_or, State.Inv_iff, State.Inv, State.inc_inv, State.emit_inv, State.mpSend_inv, State.post_inv]

theorem State.complete_inv (s : State) (h : CmdHdr) (block : Nat) (c : Cmpl) (h0 : s.Inv) :
    (State.complete s h block c).Inv := by
  unfold State.complete
  grind -lia -linarith -ring [State.unstart_inv, State.answer_inv]

theorem State.abortListed_inv (s : State) (f : Started → Bool) (h0 : s.Inv) :
    (State.abortListed s f).Inv := by
  unfold State.abortListed
  grind -lia -linarith -ring [State.Inv_iff, State.Inv, foldl_inv, State.answer_inv]

theorem State.deny_inv (s : State) (h : CmdHdr) (block : Nat) (h0 : s.Inv) :
    (State.deny s h block).Inv := by
  unfold State.deny
  grind -lia -linarith -ring [State.logErr_inv, State.complete_inv]

theorem State.runCmd_inv (s : State) (h : CmdHdr) (opcode : Nat) (operOnly : Bool) (body : State → State × Option Cmpl) (h0 : s.Inv) (h1 : ∀ x0, x0.Inv → (body x0).1.Inv) :
    (State.runCmd s h opcode operOnly body).Inv := by
  unfold State.runCmd
  simp -zeta -zetaHave only [ite_sel, decide_sel]
  grind -lia -linarith -ring [sel_or, State.Inv_iff, State.Inv, State.start_inv, State.complete_inv, State.deny_inv]

theorem ok_inv (s : State) (result : Nat := 0) (h0 : s.Inv) :
    (ok s result).1.Inv := by
  unfold ok
  grind -lia -linarith -ring []

theorem fail_inv (s : State) (status : Nat) (h0 : s.Inv) :
    (fail s status).1.Inv := by
  unfold fail
  grind -lia -linarith -ring []

theorem failOpen_inv (s : State) (h0 : s.Inv) :
    (failOpen s).1.Inv := by
  unfold failOpen
  grind -lia -linarith -ring [State.draw_inv, fail_inv]

theorem State.charge_inv (s : State) (obj input n : Nat) (h0 : s.Inv) :
    (State.charge s obj input n).Inv := by
  unfold State.charge
  grind -lia -linarith -ring [State.Inv_iff, State.Inv]

theorem State.levelReport_inv (s : State) (level aux : Nat) (h0 : s.Inv) :
    (State.levelReport s level aux).Inv := by
  unfold State.levelReport
  grind -lia -linarith -ring [State.Inv_iff, State.Inv]

theorem State.archive_inv (s : State) (kind : Nat) (entry : List Byte) (window : Nat) (unaligned : Bool) (h0 : s.Inv) :
    (State.archive s kind entry window unaligned).Inv := by
  unfold State.archive
  simp -zeta -zetaHave only [ite_sel]
  grind -lia -linarith -ring [sel_or, State.Inv_iff, State.Inv, State.inc_inv, State.segPut_inv, State.irq_inv, State.logErr_inv]

theorem State.beatSeen_inv (s : State) (e : BeatErr) (h0 : s.Inv) :
    (State.beatSeen s e).Inv := by
  unfold State.beatSeen
  simp -zeta -zetaHave only [ite_sel, decide_sel]
  grind -lia -linarith -ring [sel_or, State.inc_inv, State.irq_inv, State.logErr_inv]

theorem State.regionViolation_inv (s : State) (h0 : s.Inv) :
    (State.regionViolation s).Inv := by
  unfold State.regionViolation
  grind -lia -linarith -ring [State.inc_inv, State.irq_inv, State.logErr_inv]

theorem State.regionWrite_inv (s : State) (kind off : Nat) (bs : List Byte) (h0 : s.Inv) :
    (State.regionWrite s kind off bs).Inv := by
  unfold State.regionWrite
  simp -zeta -zetaHave only [ite_sel, decide_sel]
  grind -lia -linarith -ring [sel_or, State.Inv_iff, State.Inv, State.tierWrite_inv, State.regionViolation_inv]

theorem State.beatsSeen_inv (s : State) (l : List BeatErr) (h0 : s.Inv) :
    (State.beatsSeen s l).Inv := by
  unfold State.beatsSeen
  exact foldl_inv _ (fun s x h => State.beatSeen_inv s x h) _ _ h0

end Sys2Proof.Machine
end

