-- ==== Sys2Proof/Laws/Spares.lean ====
section
/-! SUPPORT. Moving Fen's work between instances, and retiring one (R721, R722, R731), leaves Fen's own state: its rounds, descriptors and histories. -/
namespace Sys2Proof.Machine

/-- What leaves every block's state leaves Fen's. -/
theorem fen_of_rest {s t : State} (h : t.rest = s.rest) : t.fen = s.fen := by
  have := congrArg State.fen h
  simpa [State.rest] using this

theorem foldl_fen {α : Type} (f : State → α → State) (hf : ∀ s x, (f s x).fen = s.fen) : ∀ (l : List α) (s : State), (l.foldl f s).fen = s.fen := by
  intro l
  induction l with
  | nil => intro s; rfl
  | cons a l ih => intro s; exact (ih _).trans (hf _ _)

@[simp] theorem State.setFld_keepsFen (s : State) (a : Nat) (f : Fld) (v : Nat) : (s.setFld a f v).fen = s.fen := fen_of_rest (by simp)
@[simp] theorem State.setFlag_keepsFen (s : State) (a : Nat) (f : Fld) (b : Bool) : (s.setFlag a f b).fen = s.fen := fen_of_rest (by simp)
@[simp] theorem State.wrWide_keepsFen (s : State) (a v n : Nat) : (s.wrWide a v n).fen = s.fen := fen_of_rest (by simp)
@[simp] theorem State.inc_keepsFen (s : State) (a : Nat) : (s.inc a).fen = s.fen := fen_of_rest (by simp)
@[simp] theorem State.charge_keepsFen (s : State) (obj input n : Nat) : (s.charge obj input n).fen = s.fen := rfl
@[simp] theorem State.irq_fen (s : State) (p b : Nat) : (s.irq p b).fen = s.fen := fen_of_rest (by simp)
@[simp] theorem State.logErr_fen (s : State) (p code sev loc : Nat) : (s.logErr p code sev loc).fen = s.fen := fen_of_rest (by simp)
@[simp] theorem State.setSpare_fen (s : State) (d st : Nat) : (s.setSpare d st).fen = s.fen := by simp [State.setSpare]
@[simp] theorem State.writeSettings_fen (s : State) (f : SetRec → SetRec) : (s.writeSettings f).fen = s.fen := by simp [State.writeSettings]
@[simp] theorem State.setStep_fen (s : State) (u st : Nat) : (s.setStep u st).fen = s.fen := by
  unfold State.setStep
  dsimp only
  split <;> simp
@[simp] theorem State.setPending_fen (s : State) (u : Nat) (b : Bool) : (s.setPending u b).fen = s.fen := by simp [State.setPending]
@[simp] theorem State.substituted_fen (s : State) (loc : Nat) : (s.substituted loc).fen = s.fen := by simp [State.substituted]
@[simp] theorem State.setTest_fen (s : State) (t : IftTest) : (s.setTest t).fen = s.fen := rfl
@[simp] theorem State.iftResult_fen (s : State) (u r : Nat) : (s.iftResult u r).fen = s.fen := by simp [State.iftResult]

@[simp] theorem State.outOfWork_fen (s : State) (n : Nat) : (s.outOfWork n).fen = s.fen := by
  unfold State.outOfWork
  grind -lia -linarith -ring [State.setFlag_keepsFen, State.setFld_keepsFen, State.setSpare_fen]

@[simp] theorem State.leaveWork_fen (s : State) (n : Nat) : (s.leaveWork n).fen = s.fen := by
  unfold State.leaveWork
  split <;> simp

@[simp] theorem State.unshare_fen (s : State) (d l : Nat) : (s.unshare d l).fen = s.fen := by
  simp only [State.unshare]
  split <;> simp

@[simp] theorem State.handover_fen (s : State) (d l n : Nat) : (s.handover d l n).fen = s.fen := by
  unfold State.handover
  have key : ∀ (xs : List Nat) (s : State), (xs.foldl (fun s k => s.setFld (Reg.CHK_FEN_MAP d k) Fld.CHK_FEN_MAP_PHYS n) s).fen = s.fen :=
    foldl_fen _ fun _ _ => by simp
  have moved (b : Bool) (xs : List Nat) :
      (if b then s.unshare d l else xs.foldl (fun s k => s.setFld (Reg.CHK_FEN_MAP d k) Fld.CHK_FEN_MAP_PHYS n) s).fen = s.fen := by
    cases b
    · exact key _ _
    · exact State.unshare_fen _ _ _
  have ends (c : Prop) [Decidable c] (t : State) (m : Nat) (ht : t.fen = s.fen) : (if c then t else t.leaveWork m).fen = s.fen := by
    by_cases hc : c
    · rw [if_pos hc, ht]
    · rw [if_neg hc, State.leaveWork_fen, ht]
  refine ends _ _ _ ?_
  rw [State.setFld_keepsFen, State.setFlag_keepsFen, State.setFlag_keepsFen, State.setFld_keepsFen]
  exact moved _ _

@[simp] theorem State.timeShare_fen (s : State) (d l : Nat) : (s.timeShare d l).fen = s.fen := by
  unfold State.timeShare
  refine (State.leaveWork_fen _ _).trans ((State.inc_keepsFen _ _).trans ((foldl_fen _ (fun _ _ => ?_) _ _).trans (State.setFld_keepsFen _ _ _ _)))
  exact (State.setFld_keepsFen _ _ _ _).trans (State.setFld_keepsFen _ _ _ _)

@[simp] theorem State.abortStandIn_fen (s : State) (d : Nat) : (s.abortStandIn d).fen = s.fen := by
  unfold State.abortStandIn
  grind -lia -linarith -ring [State.handover_fen, State.iftResult_fen, State.setTest_fen]

/-- Retiring an instance moves its work to another and leaves the rounds. -/
@[simp] theorem State.retireFen_fen (s : State) (n : Nat) (share : Bool) : (s.retireFen n share).fen = s.fen := by
  unfold State.retireFen
  grind -lia -linarith -ring [State.abortStandIn_fen, State.setStep_fen, State.setPending_fen, State.setSpare_fen, State.timeShare_fen,
    State.leaveWork_fen, State.handover_fen, State.substituted_fen]

/-- The open chunks of an instance and the rounds are Fen's state alone. -/
theorem chunksOn_of_fen {s t : State} (h : t.fen = s.fen) (n : Nat) : t.chunksOn n = s.chunksOn n := by
  simp only [State.chunksOn, h]
theorem fenRound_of_fen {s t : State} (h : t.fen = s.fen) (die g : Nat) : t.fenRound die g = s.fenRound die g := by
  simp only [State.fenRound, h]

/-- What REDUCER_UE (R575) reads of the open chunks and the rounds is what stood before its reports. -/
theorem reducerUe_chunks (s : State) (n : Nat) (xs : List (Nat × Nat × Nat)) (h : s.chunksOn n = xs) :
    (((s.inc (Cnt.FEN_ACC_UE n)).irq (pg 0x0C n) 2).logErr (pg 0x0C n) 0x0100 2 (locFen n)).chunksOn n = xs :=
  (chunksOn_of_fen ((State.logErr_fen _ _ _ _ _).trans ((State.irq_fen _ _ _).trans (State.inc_keepsFen _ _))) n).trans h
theorem reducerUe_round (s : State) (n die g : Nat) (r : Round) (h : s.fenRound die g = some r) :
    ((((((s.inc (Cnt.FEN_ACC_UE n)).irq (pg 0x0C n) 2).logErr (pg 0x0C n) 0x0100 2 (locFen n)).charge (objFen n) 20 1).retireFen n true)).fenRound die g =
      some r :=
  (fenRound_of_fen ((State.retireFen_fen _ _ _).trans ((State.charge_keepsFen _ _ _ _).trans ((State.logErr_fen _ _ _ _ _).trans
    ((State.irq_fen _ _ _).trans (State.inc_keepsFen _ _))))) die g).trans h

end Sys2Proof.Machine
end

