-- ==== Sys2Proof/Tests/Slice0.lean ====
section
/-! SUPPORT. The author's own tests: well-formedness, the spec's worked examples, and a witness for each statement's hypotheses. -/
namespace Sys2Proof.Tests
open Sys2Proof Sys2Proof.Machine
set_option maxRecDepth 10000
set_option Elab.async false

/-! ### States and packets that the tests use -/

def fwH : CmdHdr := ⟨.firmware, 0, false, false, 0⟩
def up : State := { State.reset with regs := [(Reg.CFG_STATUS, 0x0000003D#32)] }
def upLink (lp : Nat) : State := up.setLink lp { LinkSt.init with st := .up }
def upLinkIn (st : LinkState) : State := up.setLink 0 { LinkSt.init with st := st }
def sealed (p : Pkt) : Pkt := { p with hcrc := hcrcOf p }
def plain : Pkt := sealed { cls := 0, typ := 1, dst := 0, src := 0, plen := 0, hop := 1, payload := [] }
def flight (st : Stage) : Flight := ⟨0, plain, some 0, st, [], false, false, none, 0, 0, none, none, 0, 1, true⟩
def withFlight (s : State) (f : Flight) : State := { s with sw := { s.sw with flights := [f] } }
def stage (s : State) (bs : List Byte) : State :=
  { ((s.setFld (Reg.TIER_REGION_CFG 0) Fld.TIER_REGION_CFG_KIND 1).setFld (Reg.TIER_REGION_SIZE 0) Fld.TIER_REGION_SIZE_SIZE 1).setFlag Reg.TIER_STATUS
      Fld.TIER_STATUS_T1_READY true with mem1 := memWrite [] 0 bs }
def checked (img : List Byte) : List Byte := img.take 24 ++ leBytes 4 (crc32c (sansCheck img)) ++ img.drop 28
def tideImage : List Byte := checked (leBytes 4 0x45444954 ++ leBytes 2 1 ++ leBytes 2 1 ++ leBytes 8 2000 ++ leBytes 4 0 ++ leBytes 4 104 ++ leBytes 40 0 ++
  leBytes 2 0 ++ leBytes 2 1 ++ leBytes 4 96 ++ leBytes 8 0 ++ leBytes 8 8 ++ leBytes 8 0 ++ leBytes 8 (8 + 2 ^ 48 * 0x7F))
def useUp : State := up.setFld (Reg.PT_PORT_CFG 0 0) Fld.PT_PORT_CFG_ROLE 1
def cwImage : List Byte := checked (leBytes 4 0x4B505743 ++ leBytes 2 1 ++ leBytes 2 1 ++ leBytes 8 100000 ++ leBytes 4 0 ++ leBytes 4 104 ++ leBytes 40 0 ++
  leBytes 1 0 ++ leBytes 1 1 ++ leBytes 6 0 ++ leBytes 32 0)
def fnFlight : Flight := { flight .staged with pkt := sealed { plain with flags := 2 ^ fDstSpine } }
def sendable : State := withFlight (up.setLink 0 { LinkSt.init with st := .up, privLimit := 128, sharedLimit := 2048, sharedCap := 1536 }) { flight (.queued 0) with pkt := sealed { plain with cls := 7, typ := 0x12 } }
def lockedReeds : State := (List.range 4).foldl (fun s r => (s.setFld (reedReg 0 r) Fld.OE_REED_TX_STATE 2).setFld (reedReg 0 r) Fld.OE_REED_RX_STATE 2)
  (useUp.setFlag (Reg.OE_STATUS 0) Fld.OE_STATUS_ID_OK true)
def grpAt : Tbl Nat → List Nat → Tbl Nat := List.foldl fun t i => Tbl.set t 0 i (mkGrp 0 1 1 0 1 0)
def fullGrp : Tbl Nat := grpAt [] ([(0, 0), (0, 1)].flatMap fun x => (List.range 2).flatMap fun side => (List.range 4).map fun w =>
  slotIdx 2048 side (hashKey 2048 side x.2) w)
def withGrp (t : Tbl Nat) : State := { up with fwt := { up.fwt with dies := List.replicate 2 { DieTbl.init with grp := t } } }
def learnBytes (kind o : Nat) : List Byte := beBytes 1 kind ++ beBytes 11 0 ++ beBytes 4 5 ++ beBytes 4 o ++ beBytes 44 0
def learnPkt (kind o : Nat) : Pkt := sealed { plain with cls := 7, typ := 0x31, plen := 64, payload := learnBytes kind o }
def lined (m : Nat) : State := up.setFlag (Reg.ELS_STATUS m) Fld.ELS_STATUS_LASING true
def withT (t n : Nat) : Pkt := { plain with typ := t, cls := 7, plen := n, payload := leBytes n 0 }
def winA : Win := ⟨3, 2000000, true, false, none, false, false, [], [], [], []⟩
def winE : Win := { winA with ended := true }
def winS : State := { up with del := { up.del with wins := [winA] } }
def timeUp (st : Nat) : State := up.setFld Reg.TIME_STATUS Fld.TIME_STATUS_STATE st
def frostIs (st mode : Nat) : State := (((timeUp 2).setFrostState st).setFld Reg.DEL_FROST_STATUS Fld.DEL_FROST_STATUS_MODE mode).wrWide Reg.DEL_FROST_TIME 20000 2
def finUp (a : Bool) : State :=
  { (timeUp 2).setFlag Reg.DEL_FIN_CTRL Fld.DEL_FIN_CTRL_ENABLE true with del := { up.del with fin := { up.del.fin with active := a } } }
def snapUp : State := up.setFlag (Reg.PAGE_STATUS (Cnt.PT_RX_PACKETS 0 0 / 4096)) Fld.PAGE_STATUS_SNAP_VALID true
def traceIs (st post : Nat) : State :=
  { up.setFld Reg.DEL_TRACE_STATUS Fld.DEL_TRACE_STATUS_STATE st with del := { up.del with trace := { up.del.trace with post := post } } }
def fenced (kind key : Nat) : Nat := 2 ^ 63 + 2 ^ 62 * kind + key
def fullList : Tbl Nat := (List.range 4096).map fun k => (k, fenced 0 (k + 1))
def bOf (b : BaroSt) : State := { up with baro := b }
def peerPkt (kind : Nat) : Pkt := { withT 0x32 64 with src := 4096, flags := 2 ^ fSrcSpine, payload := fenceBytes kind 0 0 (5 * 4096) 0 5 4096 0 0 }
def peerUp : State := withFlight up (flight .staged)
def testing (t : Option IftTest) : State :=
  { up.setFlag Reg.CHK_CTRL Fld.CHK_CTRL_IFT_EN true with chk := { up.chk with tests := t.toList } }
def retired (u : Nat) : State := up.setStep u 5
def pendingSub (u : Nat) : State := (testing none).setPending u true
def grpTbl (e : Nat) : Tbl Nat := Tbl.set [] 0 (slotIdx 2048 0 (hashKey 2048 0 1) 0) e
def oneGrp (e : Nat) : State :=
  { up with fwt := { up.fwt with dies := List.replicate 2 { DieTbl.init with grp := grpTbl e, member := [(0, 0x5000)] } } }
def bGrp : Nat := mkGrp 1 1 1 0 1 0
def aBcast (alts : List Nat) (m : Tbl Nat) : Bcast := ⟨⟨.firmware, 0, false, false, 0⟩, 1, 1, List.replicate 64 0, [], alts, [0x5000], [7], m, [], [], [], 0, 0⟩
def bcastUp (b : Bcast) : State := { oneGrp bGrp with cfg := { up.cfg with bcasts := [b] } }
def relayPkt (total : Nat) : Pkt :=
  { withT 0x33 96 with
    payload := beBytes 1 0x21 ++ beBytes 1 1 ++ beBytes 2 0 ++ beBytes 4 4096 ++ beBytes 4 0 ++ beBytes 4 total ++ beBytes 4 0 ++ beBytes 4 0x5000 ++ beBytes 3 7 ++ beBytes 5 0 ++ beBytes 64 0 }
def updPkt (kind off total n : Nat) : Pkt :=
  { withT 0x33 (32 + n) with src := 4096, payload := updHeader 0x20 kind 0 9 off total 0 [] ++ beBytes n 0 }
def chained (x : ChainTx) : State := { up with cfg := { up.cfg with chainTx := [x] } }
def headed (x : ChainHead) : State := { up with cfg := { up.cfg with chainHead := [x] } }
def chainDesc (es : List Nat) : List Byte :=
  leBytes 4 0x4E494843 ++ leBytes 2 1 ++ leBytes 2 es.length ++ leBytes 4 (crc32c (es.flatMap (leBytes 4))) ++ leBytes 52 0 ++ es.flatMap (leBytes 4)
def chainUp : State := { stage up (chainDesc [0, 4096]) with cfg := { up.cfg with slots := [(1, leBytes 64 7)], images := [(1, (3, 2))] } }
def cfgFlag (f : Fld) : State := up.setFlag Reg.CFG_STATUS f true
def taking (back : Bool) : State :=
  { cfgFlag Fld.CFG_STATUS_TRIAL with cfg := { up.cfg with takeover := some ⟨⟨.firmware, 0, false, false, 0⟩, 3 * 2 ^ 30, 1, back⟩ } }
def withRound (r : MireRound) : State := { up with pmc := { up.pmc with last := some r } }
def mirePkt (n : Nat) : Pkt :=
  { withT 0x33 (32 + 24 * n) with payload := beBytes 1 0x10 ++ beBytes 1 1 ++ beBytes 2 n ++ beBytes 28 0 ++ (List.range n).flatMap fun i => edgeBytes (5, i, 0) }
def stalled : State := withFlight (upLink 0) { flight (.queued 0) with pkt := { plain with cls := 1, plen := 64 } }
def fenEnt : Nat := mkGrp 0 1 1 0 2 0
def fenDesc (x : Nat) : Nat := 0x12 * 2 ^ 8 + 0x12 * 2 ^ 16 + 2 ^ 40 + 2 * 2 ^ 80 + 8 * 2 ^ 128 + 2 * 2 ^ 144 + x
def dHallOf : Nat := fenDesc (2 ^ 192 + 2 ^ 200 + 5 * 2 ^ 224)
def dRootOf : Nat := fenDesc (2 ^ 192 + 2 ^ 193 + 2 * 2 ^ 208 + 5 * 2 ^ 224)
def fenS (d : Nat) (rs : List Round) : State :=
  { up with
    fwt := { up.fwt with dies := List.replicate 2 { DieTbl.init with grp := grpTbl fenEnt, member := [(0, 0x5000), (1, 0x6000)] } }
    fen := { up.fen with descs := [(0, d)], rounds := rs, hist := [(fenKey 0 1, ⟨4, 0, none⟩)] } }
def aRound (d : Nat) (cs : Tbl Chunk) : Round :=
  ⟨0, 1, 1, 4, d, [0x5000, 0x6000], false, false, 2, 0, 0, [], [], [], cs, [], false, false, false, 0, [], false, 0⟩
def fenCtl (op rnd : Nat) : Pkt := { withT 0x13 64 with src := 0x5000, msgId := 4096, gen := 1, payload := beBytes 1 op ++ beBytes 1 0 ++ beBytes 2 rnd ++ beBytes 60 0 }
def hallCtl (op rnd : Nat) : Pkt := { fenCtl op rnd with src := 0x1001, flags := 2 ^ fSrcSpine }
def fenIn (c : Nat) : Pkt := { withT 0x10 8 with cls := 5, src := 0x5000, msgId := 4096 + c, gen := 1 }
def gotChunk : Chunk := { Chunk.init with got := [⟨0, 0, 0, 0, leBytes 8 0, false⟩], first := some 0, placed := true }
def resChunk : Chunk := { gotChunk with result := some (⟨leBytes 8 9, 0⟩, ⟨leBytes 8 9, 0⟩), verdict := 0, phys := 0, spare := 16 }
def fromRoot (t : Nat) (b : List Byte) : Pkt :=
  { withT t b.length with cls := 5, src := 1, flags := 2 ^ fSrcSpine, msgId := 4096, gen := 1, payload := b }
def region (s : State) (r kind base : Nat) : State :=
  ((s.setFld (Reg.TIER_REGION_CFG r) Fld.TIER_REGION_CFG_KIND kind).setFld (Reg.TIER_REGION_BASE r) Fld.TIER_REGION_BASE_BASE base).setFld (Reg.TIER_REGION_SIZE r)
    Fld.TIER_REGION_SIZE_SIZE 1
def tiered : State := region (region (region (up.setFlag Reg.TIER_STATUS Fld.TIER_STATUS_T1_READY true) 0 4 0) 1 5 1) 2 6 2
def peatUp : State :=
  { (((tiered.setFlag Reg.PEAT_CTRL Fld.PEAT_CTRL_ACCEPT true).setFlag (Reg.PEAT_PART_CFG 0) Fld.PEAT_PART_CFG_ENABLE true).setFlag Reg.PEAT_STATUS
      Fld.PEAT_STATUS_ATTEND_OK true).setFld (Reg.PEAT_PART_ACCESS 0) Fld.PEAT_PART_ACCESS_GROUP 1 with
    fwt := { up.fwt with dies := List.replicate 2 { DieTbl.init with grp := grpTbl (mkGrp 0 1 1 0 1 0), member := [(0, 0x5000)] } } }
def peatMsg (op fmt : Nat) (att : Bool) (glen n : Nat) : List Byte :=
  beBytes 1 op ++ beBytes 1 0 ++ beBytes 1 fmt ++ beBytes 1 0 ++ beBytes 10 0 ++ beBytes 2 1 ++ beBytes 2 0 ++ beBytes 1 (b2n att) ++ beBytes 1 (b2n att) ++
  beBytes 2 (32 * b2n att) ++ beBytes 1 (b2n att) ++ beBytes 9 0 ++ beBytes 4 glen ++ beBytes 28 0 ++ beBytes 4 9 ++ beBytes 60 0 ++ List.replicate n 0
def peatPkt (op fmt : Nat) (att : Bool) (glen n : Nat) : Pkt := { withT 0x20 (128 + n) with src := 0x5000, flags := 2 ^ fLast, gen := 1, payload := peatMsg op fmt att glen n }
def stashUp (pin2 : Bool) (n1 n2 : Nat) : State :=
  { ((peatUp.setFld (Reg.PEAT_PART_T1_COUNT 0) Fld.PEAT_PART_T1_COUNT_COUNT n1).setFld (Reg.PEAT_PART_T2_COUNT 0) Fld.PEAT_PART_T2_COUNT_COUNT n2).setFld
      Reg.PEAT_DEMOTE Fld.PEAT_DEMOTE_LOW 0 with
    peat := { up.peat with stash := [(0, mkEntry false 0 1 1 0 1 0 7), (1, mkEntry pin2 0 1 1 0 1 1 8)], owner := [(slotKey 0 0, 1 + 2 ^ 30), (slotKey 0 1, 2 + 2 ^ 30)] } }
def sweeping (w : List (Nat × Option CmdHdr)) : State :=
  { peatUp.setFlag (Reg.PEAT_PART_STATUS 0) Fld.PEAT_PART_STATUS_RESETTING true with peat := { up.peat with resetWait := w } }
theorem okOf {ε α : Type} [DecidableEq α] {x : Except ε α} {a : α} (h : (match x with | .ok y => decide (y = a) | .error _ => false) = true) : x = .ok a := by
  cases x with
  | error e => simp at h
  | ok y => simpa using h
theorem errorOf {ε α : Type} [DecidableEq ε] {x : Except ε α} {a : ε} (h : (match x with | .error y => decide (y = a) | .ok _ => false) = true) : x = .error a := by
  cases x with
  | error y => simpa using h
  | ok y => simp at h
def openS (ch : Chunk) : State := fenS (fenDesc 0) [aRound (fenDesc 0) [(1, ch)]]
def outChunk : Chunk := { resChunk with released := true }
theorem crcNe (n : Nat) : n ≠ n + 1 := by omega
def mpUp : State := { up.setFlag Reg.MGMT_MP_CFG Fld.MGMT_MP_CFG_ENABLE true with host := { up.host with keys := [(0, 7)] } }
def mpFrame (op addr len : Nat) (body : List Byte) : MpFrame :=
  ⟨mpUp.mpOwn, 0, 0x88B5, 0x4E4D, op, 0, mpUp.mpSession, 1, addr, len, 0, body, Config.hmac 7 (mpBytes op 0 mpUp.mpSession 1 addr body)⟩
theorem mpFrame_session (op addr len : Nat) (body : List Byte) : mpUp.mpInSession (mpFrame op addr len body) = true := by
  simp [State.mpInSession, mpFrame]
theorem mpFrame_authentic (op addr len : Nat) (body : List Byte) : mpUp.mpAuthentic (mpFrame op addr len body) = true := by
  have h : Tbl.find mpUp.host.keys (mpUp.fld Reg.MGMT_MP_CFG Fld.MGMT_MP_CFG_KEY_SLOT) = some 7 := by decide +kernel
  simp [State.mpAuthentic, mpFrame, h]
theorem notNan {x : FVal} (h : (match x with | .nan _ => false | _ => true) = true) (g : Bool) : x ≠ .nan g := by
  rintro rfl
  simp at h
def anObj (kind flags unit : Nat) (body : List Byte) : List Byte :=
  leBytes 4 0x4A424F53 ++ leBytes 2 1 ++ leBytes 2 kind ++ leBytes 4 0x9512 ++ leBytes 4 flags ++ leBytes 16 unit ++ leBytes 8 0 ++ leBytes 4 body.length ++
  leBytes 4 4 ++ leBytes 16 0 ++ body ++ leBytes 4 9
def siteObj : List Byte := anObj 2 0 0 (leBytes 4 1)
theorem leAt_append (i n : Nat) (x y : List Byte) (h : i + n ≤ x.length) : leAt i n (x ++ y) = leAt i n x := by
  unfold leAt slice
  rw [List.drop_append_of_le_length (by omega), List.take_append_of_le_length (by rw [List.length_drop]; omega)]
theorem siteObj_length : siteObj.length = 72 := by decide +kernel
/-- A SITE_CONFIG object signed by the owner is accepted, whatever follows it. -/
theorem siteObj_ok (s : State) (y : List Byte) (h : s.ctr 1 = 0) (role : Config.hssRole (siteObj.take 68) ((siteObj.drop 68).take 4) = some 1) :
    s.objStatus [2, 4] (siteObj ++ y) = 0 := by
  have e (i n : Nat) (k : i + n ≤ 72) : leAt i n (siteObj ++ y) = leAt i n siteObj := leAt_append i n _ _ (by rw [siteObj_length]; exact k)
  have e12 := (e 12 4 (by decide)).trans (by decide +kernel : leAt 12 4 siteObj = 0)
  have e44 := (e 44 4 (by decide)).trans (by decide +kernel : leAt 44 4 siteObj = 4)
  have e40 := (e 40 4 (by decide)).trans (by decide +kernel : leAt 40 4 siteObj = 4)
  have e6 := (e 6 2 (by decide)).trans (by decide +kernel : leAt 6 2 siteObj = 2)
  have e0 := (e 0 4 (by decide)).trans (by decide +kernel : leAt 0 4 siteObj = 0x4A424F53)
  have e4 := (e 4 2 (by decide)).trans (by decide +kernel : leAt 4 2 siteObj = 1)
  have e8 := (e 8 4 (by decide)).trans (by decide +kernel : leAt 8 4 siteObj = 0x9512)
  have e60 := (e 60 4 (by decide)).trans (by decide +kernel : leAt 60 4 siteObj = 0)
  have sg : objSigned (siteObj ++ y) = 68 := by simp [objSigned, objBodyLen, objEnc, e40, e12, bit]
  have t : (siteObj ++ y).take 68 = siteObj.take 68 := List.take_append_of_le_length (by rw [siteObj_length]; decide)
  have d : ((siteObj ++ y).drop 68).take 4 = (siteObj.drop 68).take 4 := by
    rw [List.drop_append_of_le_length (by rw [siteObj_length]; decide), List.take_append_of_le_length (by have := siteObj_length; simp only [List.length_drop]; omega)]
  have l : (siteObj ++ y).length = 72 + y.length := by rw [List.length_append, siteObj_length]
  simp [State.objStatus, objKindOf, e0, e4, e6, e8, e12, e44, e60, sg, t, d, l, role, objEnc, objBound, bit, kindCtr, h]
theorem memRead_add (m : List Host.Cell) (a i j : Nat) : memRead m a (i + j) = memRead m a i ++ memRead m (a + i) j := by
  simp [memRead, List.range_add, Nat.add_assoc]
def siteUp : State := stage up siteObj
theorem siteUp_staging (k : Nat) (h : 72 + k ≤ 2097152) : siteUp.staging 0 (72 + k) = siteObj ++ memRead siteUp.mem1 72 k := by
  have r : siteUp.regionOf 1 = some (0, 0, 2097152) := by decide +kernel
  have m : memRead siteUp.mem1 0 72 = siteObj := by decide +kernel
  simp only [State.staging, State.regionRead, r]
  rw [if_pos (by omega), Nat.add_zero, memRead_add]
  exact congrArg (· ++ _) m
theorem siteUp_ok (k : Nat) (h : 72 + k ≤ 2097152) (role : Config.hssRole (siteObj.take 68) ((siteObj.drop 68).take 4) = some 1) :
    (siteUp.start fwH 0x1506).objStatus [2, 4] ((siteUp.start fwH 0x1506).staging 0 (72 + k)) = 0 :=
  (congrArg _ (siteUp_staging k h)).trans (siteObj_ok (siteUp.start fwH 0x1506) _ (by decide +kernel) role)
def unlockObj (body : List Byte) : List Byte := anObj 3 2 5 body
def unlockUp (body : List Byte) : State := (stage up (unlockObj body)).wr Reg.SEC_CHALLENGE 7
def aToken : List Byte := leBytes 4 7 ++ leBytes 4 1
def oldToken : List Byte := leBytes 4 6 ++ leBytes 4 1
def badToken : List Byte := leBytes 4 7 ++ leBytes 4 8
theorem unlock_ok (body : List Byte) (hb : body = aToken ∨ body = oldToken ∨ body = badToken) (unit : Config.unitId % 2 ^ 128 = 5)
    (role : Config.hssRole ((unlockObj body).take 72) (((unlockObj body).drop 72).take 4) = some 1) :
    ((unlockUp body).start fwH 0x1403).objStatus [3] (((unlockUp body).start fwH 0x1403).staging 0 76) = 0 := by
  have h : ((unlockUp body).start fwH 0x1403).staging 0 76 = unlockObj body := by obtain rfl | rfl | rfl := hb <;> decide +kernel
  have h1 : objSigned (unlockObj body) = 72 := by obtain rfl | rfl | rfl := hb <;> decide +kernel
  have h2 : leAt 44 4 (unlockObj body) = 4 := by obtain rfl | rfl | rfl := hb <;> decide +kernel
  rw [h]
  simp only [State.objStatus, h1, h2, role, unit]
  obtain rfl | rfl | rfl := hb <;> decide +kernel
def imageObj : List Byte := anObj 1 1 0 (leBytes 4 7) ++ leBytes 16 9
theorem imageObj_ok (s : State) (h : s.ctr 0 = 0) (role : Config.hssRole (imageObj.take 84) ((imageObj.drop 84).take 4) = some 1)
    (gcm : Config.gcmGood (imageObj.take 84) = true) : s.objStatus [1] imageObj = 0 := by
  have h1 : objSigned imageObj = 84 := by decide +kernel
  have h2 : leAt 44 4 imageObj = 4 := by decide +kernel
  have h3 : kindCtr (objKindOf imageObj) = some 0 := by decide +kernel
  simp only [State.objStatus, h1, h2, h3, role, h, gcm]
  decide +kernel
theorem reuse_ok : up.reuseOk 1 2 (crc32c up.tableImage) 0 0 = true := by
  simp only [State.reuseOk, beq_self_eq_true, Bool.and_true]
  decide +kernel
def fencedUp : State := { up with host := { up.host with started := [⟨.ring 0, 0x0200, 7, false, false, 0, [], 0, false⟩, ⟨.ring 0, 0x0200, 8, false, true, 0, [], 0, false⟩] } }
def tenantUp : State := up.setFld (Reg.HOST_CR_CFG 1 0) Fld.HOST_CR_CFG_OPERATOR 0
def anEv (kind : Nat) : Ev := ⟨kind, 2, 0, 5, 0, 0, none, 0, 0, []⟩
def fullEr (n : Nat) : State :=
  { (up.setFld (Reg.HOST_ER_CFG 5 0) Fld.HOST_ER_CFG_ENABLE 1).setFld (Reg.HOST_ER_CFG 5 0) Fld.HOST_ER_CFG_LOG2_SIZE 4 with
    host := { up.host with er := [(0, { ErSt.init with prod := 16, waiting := List.replicate n (anEv 4) })] } }
def erred : State := (up.logErr pgTime 0x0101 0 7).setFld (Reg.PAGE_ERR_STATUS pgTime) Fld.PAGE_ERR_STATUS_NEXT 10
def timed : State := ((upLink 0).setFld (Reg.PT_TS_CFG 0 0) Fld.PT_TS_CFG_TIME_EN 1 |>.setFld (Reg.PT_TS_CFG 0 0) Fld.PT_TS_CFG_SYNC_OUT 1)
def farUp (st : LinkState) (g : Nat) : State := up.setLink 0 { LinkSt.init with st := st, farId := some 9, gen := g }
def dataHd (q : Nat) : List Byte := linkHeader 1 q 0 false
def ctlHd : List Byte := linkHeader 2 0 0 true
def helloGen (g : Nat) (seen : Bool) : List Byte := helloBody ⟨1, g, seen, 15, 9, 128, 2048, 1536⟩
def nx (s : State) : Flight × State := (s.nextStaged 0).getD (flight .staged, s)
def lookAt (s : State) : Decision × State :=
  let v := (nx s).2.setFlights ((nx s).2.sw.flights.filter (· != (nx s).1))
  v.lookupDecide 0 (v.role 0 == 1) (v.stageAt (nx s).1 1).pkt
def lookDrop (s : State) : Nat × List Nat := match (lookAt s).1 with | .discard r cs => (r, cs) | .forward _ _ => (0, [])
def lookGo (s : State) : Route × Nat := match (lookAt s).1 with | .forward r c => (r, c) | .discard _ _ => (.none, 0)
def withPipe (s : State) (q : Pipe) : State := { s with fwt := { s.fwt with pipes := List.replicate 16 q } }
def rowed : Pipe := { up.pipe 0 with row := [(0, mkRow [0])], epgen := [(0, 1)] }
def floods : Pipe := { up.pipe 0 with stash := [(0, mkOvr 0 1 0 0)], epgen := [(0, 1)] }
def staged (s : State) : State := withFlight s (flight .staged)
def legged (out : Option Nat) : State :=
  let s := withFlight (upLink 0) (flight .routed)
  { s with sw := { s.sw with legs := [⟨0, out, 0, 0, 1, 0, 1, 1, 0, 0⟩] } }
def entering (out : Option Nat) : Leg := ⟨0, out, 0, 0, 1, 0, 1, 1, 0, 0⟩
def waiting (c : Nat) : Flight := { flight .atSwitch with pkt := sealed { plain with cls := c, typ := if c = 7 then 0x12 else 1 }, dests := [.port 0 0 0] }
def landing : Flight := { flight (.toOutput 0) with dests := [.port 0 0 0] }
def landed : Leg := ⟨0, some 0, 0, 1, 0, 0, 1, 1, 1, 1⟩
def landAt (s : State) (f : Flight) : State :=
  let t := withFlight s f
  { t with sw := { t.sw with legs := [landed] } }
def aRx : RxFrame := ⟨0, 0, { plain with pcrc := pcrcOf plain }, false, true, false, false, false, false⟩
def rxed (r : RxFrame) : State := { up with sw := { up.sw with rx := [r] } }
def aDrz : DrzFrame := ⟨0, false, none, 0, false, false, 0, 64, 4, 0, 0, []⟩
def drzed : State := { up with sw := { up.sw with drz := [aDrz] } }
def tc6 (st : Stage) : Flight := { flight st with pkt := sealed { plain with cls := 6, typ := 0x12 } }
def aBuild (h : Option CmdHdr) : CwBuild := ⟨0, 1, true, h, 0⟩
def gflight : Flight := { flight .staged with pkt := sealed { plain with gen := 1 } }
def gstaged (s : State) : State := withFlight s gflight
def aTest : MarginTest := ⟨0, 1, 1, 3, [0xFF, 0xFF, 0xFF, 0xFF], 0, 0⟩
def tested : State := { up with optics := { up.optics with tests := [aTest] } }
def fullPipe : Pipe :=
  { up.pipe 0 with
    ovr := [0, 1].foldl (fun t k => [0, 1].foldl (fun t d => [0, 1, 2, 3].foldl (fun t w =>
      Tbl.set t 0 (slotIdx 4096 d (hashKey 4096 d k) w) (mkOvr 0 1 0 1)) t) t) []
    stash := (List.range 16).map fun i => (i, mkOvr 0 1 0 (i + 2)) }
def fenGo (r : Round) : State := fenS (fenDesc 0) [r]
def fenR : Round := aRound (fenDesc 0) []
def fenRep (rnd c : Nat) : Pkt := { fenCtl 6 rnd with payload := beBytes 1 6 ++ beBytes 1 0 ++ beBytes 2 rnd ++ beBytes 2 c ++ beBytes 58 0 }
def chunkR (d : Nat) (ch : Chunk) : Round := aRound d [(1, ch)]
def nine : RunOut := ⟨leBytes 8 9, 0⟩
def doneChunk : Chunk := { Chunk.init with finished := true }
def fullChunk : Chunk := { Chunk.init with placed := true, checked := true, spare := 0 }
def fullR : Round := aRound (fenDesc 0) [(0, doneChunk), (1, fullChunk)]
def nextR : Round := aRound (fenDesc 0) [(0, doneChunk)]
def judged (first : Option (Nat × RunOut × Nat × RunOut)) : Round := chunkR (fenDesc 0) { resChunk with verdict := 1, firstRun := first }
def hallOut (check : Nat) : Pkt := { fromRoot 0x11 (leBytes 8 0) with msgId := 4097, cchk := check }
def getPkt : Pkt := peatPkt 2 0 false 0 0
def getMsg : List Byte := peatMsg 2 0 false 0 0
def t1Up : State := up.setFlag Reg.TIER_STATUS Fld.TIER_STATUS_T1_READY true
def segUp (used size : Nat) : State := { up with del := { up.del with segs := [(1, ⟨0, used, 10, 0, 0, false, 5, size⟩)] } }
def segPkt (d : List Byte) : Pkt :=
  { withT 0x33 (32 + d.length) with src := 4096, payload := updHeader 0x20 1 0 9 0 d.length 0 [] ++ d }
def aChain (tries : Nat) : ChainTx := ⟨0, 9, leBytes 128 0, [], [4096], 0, 128, 0, tries⟩
def aHead (es : List Nat) : ChainHead := ⟨fwH, 9, es, [], [], 0⟩
def ackPkt : Pkt := { withT 0x19 64 with src := 0x5000, payload := beBytes 4 1 ++ beBytes 1 1 ++ beBytes 59 0 }
theorem stageImage_ok (s : State) (o : List Byte) (e : o = imageObj) (h : s.ctr 0 = 0)
    (role : Config.hssRole (imageObj.take 84) ((imageObj.drop 84).take 4) = some 1) (gcm : Config.gcmGood (imageObj.take 84) = true) :
    (s.stageImage o .good).1 = 0 := by
  subst e
  have l : ¬28 * 1048576 < imageObj.length := by decide +kernel
  simp [State.stageImage, imageObj_ok s h role gcm, l]

/-! ### Well-formedness: each check refuses an ill-formed operand, and accepts a good one -/

def okHdr : CmdHdr := ⟨.ring 3, 0x11, true, false, 0⟩
def okRaw : RawEntry := ⟨0x0200, true, false, 0, 0, 0x12, 0, 0, List.replicate 48 0⟩
def okFrame : MpFrame := ⟨0x0200_0000_0002, 0x0200_0000_0001, 0x88B5, 0x4D54, 1, 0, 0, 1, 0, 0, 0, [], List.replicate 32 0⟩

theorem test_wf_accepts : (Instr.nop okHdr).wf = true ∧ (Instr.entryFetch 3 [okRaw]).wf = true ∧ okFrame.wf = true ∧ plain.wf = true := by decide +kernel
theorem test_wf_ring : (Instr.nop { okHdr with src := .ring 256 }).wf = false := by decide
theorem test_wf_mgmt_source : (Instr.nop { okHdr with src := .mgmt (2 ^ 48) 0 }).wf = false ∧ (Instr.nop { okHdr with src := .mgmt 0 (2 ^ 64) }).wf = false := by decide
theorem test_wf_tag : (Instr.nop { okHdr with tag := 2 ^ 32 }).wf = false := by decide
theorem test_wf_target : (Instr.nop { okHdr with target := 2 ^ 32 }).wf = false := by decide
theorem test_wf_raw_operands : (Instr.entryFetch 0 [{ okRaw with operands := List.replicate 47 0 }]).wf = false := by decide
theorem test_wf_raw_fields : RawEntry.wf { okRaw with opcode := 65536 } = false ∧ RawEntry.wf { okRaw with rsv2 := 64 } = false ∧
    RawEntry.wf { okRaw with rsv3 := 256 } = false ∧ RawEntry.wf { okRaw with rsv12 := 2 ^ 32 } = false := by decide
theorem test_wf_frame : MpFrame.wf { okFrame with mac := [] } = false ∧ MpFrame.wf { okFrame with len := 4 } = false ∧
    MpFrame.wf { okFrame with srcMac := 2 ^ 48 } = false ∧ MpFrame.wf { okFrame with dest := 2 ^ 48 } = false ∧ MpFrame.wf { okFrame with seq := 2 ^ 64 } = false := by decide
theorem test_wf_packet : Pkt.wf { plain with cls := 8 } = false ∧ Pkt.wf { plain with seq := 2 ^ 24 } = false ∧ Pkt.wf { plain with dst := 2 ^ 32 } = false ∧
    Pkt.wf { plain with hop := 16 } = false := by decide +kernel
theorem test_wf_requester : (Instr.registerWrite 0 4 0 (.tenant 64)).wf = false := by decide
theorem test_wf_address : (Instr.registerWrite (2 ^ 28) 4 0 .operator).wf = false ∧ (Instr.pageLock 255).wf = false ∧ (Instr.pageLock 5888).wf = false := by decide
theorem test_wf_frame_bytes : (Instr.helloRx 0 (dataHd 0) [] false).wf = false ∧ (Instr.linkDataFrameRx 0 [] false).wf = false ∧
    (Instr.ackRx 1024 ctlHd (List.replicate 48 0) false).wf = false := by decide +kernel
theorem test_wf_time_message : TimeRx.wf ⟨1024, true, 0, [], none⟩ = false ∧ TimeRx.wf ⟨0x7FF, true, 0, [], none⟩ = true := by decide
theorem test_wf_tier_request : TierReq.wf ⟨0, 0, false⟩ = false ∧ TierReq.wf ⟨0, 65, false⟩ = false ∧ TierReq.wf ⟨8, 1, false⟩ = false := by decide
theorem test_wf_fec_count : (Instr.windowOpen [⟨1024, 0⟩]).wf = false := by decide
theorem test_wf_memory_access : MemAcc.wf (.read 0 []) = false ∧ MemAcc.wf (.read 65 []) = false ∧ MemAcc.wf (.write []) = false ∧
    (Instr.hdmWrite 2 0 (.write [0])).wf = false := by decide
theorem test_wf_startup : StartStage.wf (.formats [34]) = false ∧ StartStage.wf (.exact [34]) = false ∧ StartStage.wf (.attend [272]) = false ∧
    RegSet.wf ⟨2, 0⟩ = false ∧ SiteRec.wf ⟨256, 0, 0⟩ = false ∧ ImageInfo.wf ⟨2 ^ 32, 0⟩ = false := by decide
theorem test_wf_sensors : SensorSample.wf ⟨[], 0⟩ = false := by decide
theorem test_wf_ranges : (Instr.mirePeriod).wf = true ∧ (Instr.reducerUe 34).wf = false ∧ (Instr.macTileUe 16 0).wf = false ∧ (Instr.iftSchedule 63).wf = false ∧
    (Instr.iftSchedule 388).wf = false ∧ (Instr.launch 512).wf = false ∧ (Instr.railMonitor 10 0 0).wf = false := by decide

/-! ### The block and its queue -/

/-- On an empty queue one tick of 1.28 ns passes (the model's choice, log entry 2). -/
theorem test_step_ticks : (match step up with | .next s => s.time.ticks | _ => 0) = up.time.ticks + 1 := by decide +kernel
theorem test_step_takes_the_first : (match step { up with pending := [.traceArm, .hdmWrite 0 0 (.write [7])] } with | .next s => s.pending | _ => []) = [.hdmWrite 0 0 (.write [7])] := by decide +kernel
theorem test_no_row_has_bits : decodeTableWord 32 0x0200 = none := rfl

/-! ### Registers (chapter 2's worked example) -/

/-- Addresses and values of the example: ring 3's descriptor, event ring 0's, and PAGE_ID of port tile 37. -/
theorem test_register_addresses : Reg.HOST_CR_BASE 1 3 = 0x00201160 ∧ Reg.HOST_CR_CFG 1 3 = 0x00201170 ∧ Reg.HOST_ER_CFG 5 0 = 0x00205110 ∧
    Reg.PAGE_ID (pg 4 37) = 0x00425000 := by decide
theorem test_page_id : (up.rd (Reg.PAGE_ID (pg 4 37))).toNat = 0x00040025 := by decide +kernel
def setUp : State :=
  ((((up.wrWide (Reg.HOST_CR_BASE 1 3) 0x4000100000 2).wr (Reg.HOST_CR_CFG 1 3) 0x80008008).wr (Reg.HOST_ER_CFG 5 0) 0x8005800A).setCr 3 ⟨300, 1, 0, false, 302, 302⟩).setEr 0
    { ErSt.init with prod := 1023, cons := 1000 }
/-- Counts 300 and 301 lie at 0x40_0010_0B00 and 0x40_0010_0B40. -/
theorem test_fetch_addresses : (match exec (.tailReread 3 302) (setUp.setCr 3 ⟨300, 1, 0, true, 300, 300⟩) with | .next s => s.out | _ => []) =
    [.rdCurr 3 300 302 [0x4000100B00, 0x4000100B40]] := by decide +kernel
/-- Both entries arrive and HEAD is 302. -/
def fetched : State :=
  match exec (.entryFetch 3 [{ okRaw with opcode := 0x0202, tag := 0x11, operands := leBytes 4 0x00425000 ++ List.replicate 44 0 }, okRaw]) setUp with
  | .next s => s
  | _ => setUp
theorem test_entry_fetch : (fetched.cr 3).head = 302 ∧ fetched.host.started.length = 2 := by decide +kernel
/-- Completion 1,023: PHASE 1, TAG 0x11, STATUS 0, HEAD 302, RESULT 0x0004_0025; then completion 1,024 with PHASE 0 and TAG 0x12. -/
def answered : State := match exec (.regRead okHdr 0x00425000) fetched with | .next s => s | _ => fetched
theorem test_reg_read_completion : (match answered.out with | .wrInv 0 1023 _ e true false :: _ => (e.tag, e.status, e.head, leAt 0 8 e.payload) | _ => (0, 0, 0, 0)) =
    (0x11, 0, 302, 0x00040025) := by decide +kernel
theorem test_nop_completion : (match exec (.nop { okHdr with tag := 0x12 }) { answered with out := [] } with
    | .next s => (match s.out with | .wrInv 0 1024 _ e false false :: _ => (e.tag, e.status) | _ => (0, 9))
    | _ => (0, 9)) = (0x12, 0) := by decide +kernel
/-- A RW register takes what is written to it. -/
theorem test_register_write_rw : (match exec (.registerWrite (Reg.HOST_ER_MOD 5 0) 4 1 .operator) up with | .next s => (s.rd (Reg.HOST_ER_MOD 5 0)).toNat | _ => 0) = 1 := by
  decide +kernel

/-! ### Locations, addresses and numbers (chapters 1 and 4) -/

theorem test_error_location : locReed 402 2 = 0x764A := by decide
theorem test_endpoint_key : feidKey 0x4644D013 = 0x4644D ∧ feidLeaf 0x4644D013 = 100 ∧ feidEp 0x4644D013 = 77 ∧ feidPlane 0x4644D013 = 2 := by decide
theorem test_pages : pg 5 50 * 4096 = 0x00532000 ∧ pg 6 12 * 4096 = 0x0060C000 := by decide
theorem test_header_bytes : (headBytes { plain with cls := 5, typ := 0x10 }).take 2 = [0x2A, 0x10] := by decide
theorem test_crc32c : crc32c [0x31, 0x32, 0x33, 0x34, 0x35, 0x36, 0x37, 0x38, 0x39] = 0xE3069283 := by decide +kernel
theorem test_flits_and_units : pktFlits { plain with plen := 4096 } = 17 ∧ pktCells { plain with plen := 4096 } = 17 ∧ pktLen { plain with plen := 4096 } = 4136 := by decide

/-! ### Network time (chapter 3) and Frost's notation (chapter 13) -/

/-- A leaf's L of 1,474 ns with 62,915 / 65,536, c = 3,000 ps, 150.0 m up and 150.4 m down give A = −128,451. -/
theorem test_asymmetry : asymmetry 1474 62915 3000 15000 15040 = -128451 ∧ ofSigned 32 (-128451) = 0xFFFE0A3D := by decide
theorem test_short_form : shortForm ((50 * 1000000000 + 2000000) * 2 ^ 32) = 0x0000000C801E8480 := by decide
theorem test_window_index : winIndex 1000 (50 * 1000000000 + 2000000) = 50002 := by decide

/-! ### Switch core (chapter 5) -/

def policed : State := { (((up.wr (polCfg 42 2) 0x800186A0).wr (polCfg 42 2 + 4) 200000).wr (polCfg 42 2 + 8) 65536).wr (polCfg 42 2 + 12) 131072 with
  sw := up.sw }.setPolTokens 42 2 (3000 * 6250) (50000 * 6250)
theorem test_policer_yellow : (policed.police 42 2 0 4136).1 = 1 ∧ (policed.police 42 2 0 4136).2.polTokens 42 2 = (3000 * 6250, 45864 * 6250) := by decide +kernel
/-- MIN 8, MAX 14, MAXP 127 at limit 1,024 and 530 cells: the threshold is 1,536, and a draw of 2,609 passes. -/
theorem test_early_drop_threshold : (127 + 1) * 256 * (530 - 8 * 1024 / 16) / (14 * 1024 / 16 - 8 * 1024 / 16) = 1536 := by decide
theorem test_queue_counter : Cnt.QM_ENQ 50 2 2 = 0x005328D0 := by decide

/-! ### Forwarding tables (chapter 6), the fence list (chapter 14), groups and streams (chapter 4) -/

theorem test_override_entry : mkOvr 0 0x07 101 0x4644D = 0x807194000004644D := by decide
/-- R297's hashes of KEY 0x4644D, worked out apart from the model (the worked example's 0x2C1 and 0x0F7 do not follow R297: log entry 3). -/
theorem test_override_hashes : hashKey 4096 0 0x4644D = 0xA68 ∧ hashKey 4096 1 0x4644D = 0x5BC := by decide +kernel
theorem test_override_slots : slotIdx 4096 0 0x155 2 = 1366 ∧ slotIdx 4096 1 928 1 = 20097 ∧ slotIdx 4096 0 705 0 = 2820 := by decide
theorem test_chunk_check : 0x9A3E51C7 ^^^ 0x1F60A2B4 = 0x855EF373 := by decide

/-! ### Tide (chapter 8) -/

def tideBank : TideBank := { (State.reset.portTide 384).bank0 with entries := [0x407F0000000000C8, 0xBF7F000000000258, 0x0005000000000190] }
theorem test_tide_entries : tideBank.entries.map entDur = [200, 600, 400] ∧ tideBank.entries.map entGates = [0x40, 0xBF, 0x00] ∧ tideBank.entries.map entMap = [0x7F, 0x7F, 5] := by
  decide +kernel
theorem test_tide_cycle : entryEnd tideBank.entries 2 = 153600 := by decide +kernel
/-- BASE 10 s and a cycle of 1,600 ticks: the first start at or after 10 s + 500,000 ns is 10 s + 501,760 ns (hundredths of a nanosecond). -/
theorem test_takeover_start : ({ tideBank with base := 10000000000, cycle := 1600 } : TideBank).cycleFrom 1000050000000 = 1000050176000 := by decide +kernel
theorem test_tide_registers : tideSt 384 = 0x00830144 ∧ Cnt.TIDE_TAKEOVERS 48 0 = 0x00830618 := by decide

/-! ### Number formats (chapter 10) -/

def enc32 (code w : Nat) : Nat × Nat := ((fmtOf code).getD f32).encode 0 (f32.decode w)
/-- 1,000 in T8E4 saturates to 0x7F with OF; 0.1 is 0x1D; −2.75 in T8E5 is 0xC2; 0.7 in T19 is 0x3F33_4000. -/
theorem test_conversions : (enc32 5 0x447A0000).1 = 0x7F ∧ bit 3 (enc32 5 0x447A0000).2 = true ∧ (enc32 5 0x3DCCCCCD).1 = 0x1D ∧ (enc32 6 0xC0300000).1 = 0xC2 ∧
    (enc32 3 0x3F333333).1 = 0x3F334000 := by decide +kernel
def add2 (mode a b : Nat) : Nat := (f32.encode mode (add32 mode (f32.decode a) (f32.decode b)).1).1
theorem test_three_orders : add2 0 (add2 0 0x4B800000 0x3F800000) 0xCB800000 = 0 ∧ add2 3 (add2 3 0x4B800000 0x3F800000) 0xCB800000 = 0x80000000 ∧
    add2 0 (add2 0 0x4B800000 0xCB800000) 0x3F800000 = 0x3F800000 := by decide +kernel
def exactOf (l : List Nat) : Nat := (f32.encode 0 ((l.foldl (fun a w => (a.add (f32.decode w)).1) ExAcc.init).finish 0 false).1).1
theorem test_exact_orders : exactOf [0x4B800000, 0x3F800000, 0xCB800000] = 0x3F800000 ∧ exactOf [0xCB800000, 0x4B800000, 0x3F800000] = 0x3F800000 := by decide +kernel

/-- The scaled T8E4 block of the worked example: E = 129, codes 0x78, 0xB3, 0x0D and zeros, NX alone; read back, 1,024 and −2.75. -/
def scaledBlock : Nat × List Nat × Nat :=
  writeBlock ((fmtOf 5).getD f32) 0 (f32.decode 0x447A0000 :: f32.decode 0xC0300000 :: f32.decode 0x3DCCCCCD :: List.replicate 29 (.fin false 0 0))
theorem test_scaled_block : scaledBlock.1 = 129 ∧ scaledBlock.2.1.take 4 = [0x78, 0xB3, 0x0D, 0] ∧ scaledBlock.2.2 = flNX := by decide +kernel
def scaledBytes : List Byte := leBytes 32 0x81 ++ [0x78, 0xB3, 0x0D] ++ List.replicate 29 0
theorem test_scaled_read : (f32.encode 0 (tensorElem 0x85 scaledBytes 0)).1 = 0x44800000 ∧ (f32.encode 0 (tensorElem 0x85 scaledBytes 1)).1 = 0xC0300000 := by decide +kernel

/-! ### Fen (chapter 11) -/

/-- Group 0x0_1200: FP16 into FP16, W = 8, HOLD = 8, RETAIN = 16, LAST_BYTES 0; group 0x0_1300: exact FP32, W = 4, RETAIN = 4. -/
def d1200 : Nat := 2 * 2 ^ 8 + 2 * 2 ^ 16 + 8 * 2 ^ 40 + 8 * 2 ^ 48 + 16 * 2 ^ 144
def d1300 : Nat := 2 ^ 4 + 2 ^ 8 + 2 ^ 16 + 4 * 2 ^ 40 + 4 * 2 ^ 144
theorem test_reservations : dSlots d1200 8192 128 5 = 474 ∧ dSlots d1300 64 128 1 = 106 := by decide +kernel
/-- x3 alone is one non-frontier partial; x4 beside it would make two; after x0 and x2 there is one, and after x1 none. -/
theorem test_held_partials : heldCount [3] [3] 0 20 0 5 = 1 ∧ heldCount [3, 4] [3, 4] 0 20 0 5 = 2 ∧ heldCount [3, 0, 2] [3, 0, 2] 1 20 0 5 = 1 ∧
    heldCount [3, 0, 2, 1] [3, 0, 2, 1] 4 20 0 5 = 0 := by decide +kernel

/-! ### Peat (chapter 12) -/

theorem test_block_key : blockKey 0x0042 0x31A2B 0x011 5 = 0x0042000000031A2B01100005 := by decide

/-! ### Barometer (chapter 14) and silent errors (chapter 15) -/

theorem test_fence_object : fenceKey 0x0004644D = some (0, 0x4644D) := by decide
/-- One stall notice, 40 late listings and a straggler finding charge 1,280 points; 8,500.000 decays and becomes 9,779.870. -/
def charged (late : Nat) : Tbl Nat := [(32 * 0x4644D + 13, late), (32 * 0x4644D + 14, 1), (32 * 0x4644D + 15, 1)]
theorem test_score_points : up.points (charged 40) 0x4644D = 1280 ∧ up.points (charged 30) 0x4644D = 1260 := by decide +kernel
def scored : State := bOf { up.baro with score := [(0x4644D, 8500 * 65536)] }
theorem test_score_step : let s := (scored.scoreStep (charged 40) 0x4644D).2
    s.score 0x4644D * 1000 / 65536 = 9779870 ∧ (s.scoreStep (charged 30) 0x4644D).2.score 0x4644D / 65536 = 11039 := by decide +kernel
theorem test_units : unitFen 5 = 69 ∧ Reg.CHK_MARGIN 69 = 0x01204214 ∧ Reg.CHK_FEN_MAP 0 5 = 0x01201114 := by decide

/-! ### Mire (chapter 16) and broadcasts (chapter 17) -/

theorem test_mire_nodes : nodeEndpoint 0x4644D000 = 0x4644D ∧ nodeEndpoint 0x46552000 = 0x46552 ∧ nodeRound 3 12 0x2B5 = 0x3030000C000002B5 ∧
    nodeRound 9 4 0x300 = 0x3090000400000300 := by decide
def fourEdges : List (Nat × Nat × Nat) :=
  [(0x4644D, 0x3030000C000002B5, 1), (0x3030000C000002B5, 0x46552, 2), (0x46552, 0x3090000400000300, 3), (0x3090000400000300, 0x4644D, 4)]
theorem test_mire_cycle : allCycles fourEdges = [[0, 1, 2, 3]] := by decide +kernel
def closing (last : Option MireRound) : State := { up with pmc := { up.pmc with edges := fourEdges, round := 41, last := last } }.mireClose
/-- The round that first holds the cycle does not report it; the next one does. -/
theorem test_mire_second_round : (closing none).cnt Cnt.PMC_MIRE_CYCLES = 0 ∧ (closing ((closing none).pmc.last)).cnt Cnt.PMC_MIRE_CYCLES = 1 := by decide +kernel
theorem test_broadcast_block : (blockPkts 0x40011000 0x400 0x0A 12 0 (List.replicate 8192 0) []).map (fun p => (p.msgId, p.src, p.plen)) =
    [(0x0040000C, 0x40011000, 4096), (0x0040000C, 0x40011000, 4096)] := by decide +kernel


/-! ### Witnesses: every clause of every statement with hypotheses has a state and operands that meet them -/

theorem witness_RegisterAccessCompletes :
    (∃ (s : State) (a : Nat) (who : Requester), reaches who a = true ∧ s.pwr.held = false ∧ s.mapped a = true ∧ misaligned a 4 = false) ∧
    (∃ (s : State) (a : Nat) (who : Requester), reaches who a = true ∧ s.pwr.held = false ∧ s.mapped a = true ∧ misaligned a 8 = false) ∧
    (∃ (s : State) (a : Nat) (who : Requester),
      reaches who a = true ∧ s.pwr.held = false ∧ misaligned a 4 = false ∧ s.mapped a = true ∧ s.discards a = false ∧ Tbl.find s.host.latch a = none ∧
      a ≠ Reg.TIME_TXQ_ENTRY + 12 ∧ lowOfWide a = true) ∧
    (∃ (s : State) (p : Nat), s.Inv ∧ s.pwr.held = false ∧ pageImplemented p = true ∧ hasHeader (p / 256) (p % 256) = true) ∧
    (∃ (s : State) (p : Nat), s.Inv ∧ s.pwr.held = false ∧ pageImplemented p = true ∧ hasHeader (p / 256) (p % 256) = true ∧ s.pageBusy p = false) ∧
    (∃ (s : State) (p : Nat), s.Inv ∧ s.pwr.held = false ∧ pageImplemented p = true ∧ hasHeader (p / 256) (p % 256) = true ∧ s.pageBusy p = true) ∧
    (∃ (s : State) (p : Nat), s.pwr.held = false ∧ pageImplemented p = true ∧ hasHeader (p / 256) (p % 256) = true) :=
  ⟨⟨up, Reg.TIME_INCR, .operator, by decide +kernel⟩,
   ⟨up, Reg.TIME_INCR, .operator, by decide +kernel⟩,
   ⟨up, Reg.TIME_INCR, .operator, by decide +kernel⟩,
   ⟨up, pgTime, by unfold State.Inv Kept; decide +kernel⟩,
   ⟨up, pgTime, by unfold State.Inv Kept; decide +kernel⟩,
   ⟨(up.setFlag (Reg.PAGE_CTRL pgTime) Fld.PAGE_CTRL_SOFT_RESET true), pgTime, by unfold State.Inv Kept; decide +kernel⟩,
   ⟨up, pgTime, by decide +kernel⟩⟩

theorem witness_HostPortCompletes :
    (∃ (s : State), s.pwr.held = false ∧ s.pageBusy hostPg = false) ∧
    (∃ (s : State) (t : Nat), s.pwr.held = false ∧ s.pageBusy hostPg = false ∧ s.host.rstKey = some t ∧ (s.time.ticks - t) * 128 ≤ 100000) ∧
    (∃ (s : State) (v : Nat),
      s.pwr.held = false ∧ s.pageBusy hostPg = false ∧ v ≠ 0xA55A ∧ (∀ t, s.host.rstKey = some t → 100000 < (s.time.ticks - t) * 128 ∨ v ≠ 0x5AA5)) ∧
    (∃ (s : State), s.Inv ∧ s.pwr.held = false ∧ (s.stageReached 2 || s.flag Reg.CFG_STATUS Fld.CFG_STATUS_RECOVERY) = true) ∧
    (∃ (s : State), s.Inv) ∧
    (∃ (s : State) (off n t b sz : Nat), s.pwr.held = false ∧ s.tierReady 0 = true ∧ s.regionOf 1 = some (t, b, sz) ∧ off + n ≤ sz) ∧
    (∃ (s : State), s.pwr.held = false ∧ s.tierReady 0 = true) ∧
    (∃ (s : State), s.tierReady 0 = false) ∧
    (∃ (s : State) (hdm off n t b sz : Nat),
      s.pwr.held = false ∧ off < s.hdmSize hdm ∧ s.regionOf (hdmKind hdm) = some (t, b, sz) ∧ s.tierReady t = true ∧ off + n ≤ sz) ∧
    (∃ (s : State) (hdm off : Nat), s.Inv ∧ s.pwr.held = false ∧ off < s.hdmSize hdm) :=
  ⟨⟨up, by decide +kernel⟩,
   ⟨({ up with host := { up.host with rstKey := some 0 } }), 0, by decide +kernel⟩,
   ⟨up, 0, by decide +kernel⟩,
   ⟨up, by unfold State.Inv Kept; decide +kernel⟩,
   ⟨up, by unfold State.Inv Kept; decide +kernel⟩,
   ⟨(stage up [1, 2]), 0, 2, 0, 0, 2097152, by decide +kernel⟩,
   ⟨(up.setFlag Reg.TIER_STATUS Fld.TIER_STATUS_T1_READY true), by decide +kernel⟩,
   ⟨up, by decide +kernel⟩,
   ⟨({ region (up.setFlag Reg.TIER_STATUS Fld.TIER_STATUS_T1_READY true) 0 7 0 with cfg := { up.cfg with hdm := (64, 0) } }), 0, 0, 2, 0, 0, 2097152,
     by decide +kernel⟩,
   ⟨({ up with cfg := { up.cfg with hdm := (64, 0) } }), 0, 63, by unfold State.Inv Kept; decide +kernel⟩⟩

theorem witness_RingsComplete :
    (∃ (s : State) (i v : Nat),
      let u := s.wr (Reg.HOST_CR_CFG (crPage i) (i % 64)) (BitVec.ofNat 32 (v % 2 ^ 31 + 2 ^ 31) &&& 0x80FFBF1F)
      s.pwr.held = false ∧ s.pageBusy (pg 2 (crPage i)) = false ∧ s.flag (Reg.HOST_CR_CFG (crPage i) (i % 64)) Fld.HOST_CR_CFG_ENABLE = false ∧
      6 ≤ u.crCfg i Fld.HOST_CR_CFG_LOG2_SIZE ∧ u.crCfg i Fld.HOST_CR_CFG_LOG2_SIZE ≤ 16) ∧
    (∃ (s : State) (i v : Nat),
      let u := s.wr (Reg.HOST_CR_CFG (crPage i) (i % 64)) (BitVec.ofNat 32 (v % 2 ^ 31 + 2 ^ 31) &&& 0x80FFBF1F)
      s.pwr.held = false ∧ s.pageBusy (pg 2 (crPage i)) = false ∧ s.flag (Reg.HOST_CR_CFG (crPage i) (i % 64)) Fld.HOST_CR_CFG_ENABLE = false ∧
      (u.crCfg i Fld.HOST_CR_CFG_LOG2_SIZE < 6 ∨ 16 < u.crCfg i Fld.HOST_CR_CFG_LOG2_SIZE)) ∧
    (∃ (s : State) (i : Nat),
      s.pwr.held = false ∧ s.pageBusy (pg 2 (crPage i)) = false ∧ s.flag (Reg.HOST_CR_CFG (crPage i) (i % 64)) Fld.HOST_CR_CFG_ENABLE = true) ∧
    (∃ (s : State) (i : Nat), s.crCfg i Fld.HOST_CR_CFG_ENABLE = 1 ∧ (s.cr i).rereading = false) ∧
    (∃ (s : State) (i : Nat), (s.cr i).state ≠ 1 ∧ (s.cr i).rereading = true) ∧
    (∃ (s : State) (i tail : Nat),
      (s.cr i).state = 1 ∧ (s.cr i).rereading = true ∧ (tail % 2 ^ 32 + 2 ^ 32 - (s.cr i).head) % 2 ^ 32 ≤ 2 ^ s.crCfg i Fld.HOST_CR_CFG_LOG2_SIZE) ∧
    (∃ (s : State) (i tail : Nat),
      (s.cr i).state = 1 ∧ (s.cr i).rereading = true ∧ 2 ^ s.crCfg i Fld.HOST_CR_CFG_LOG2_SIZE < (tail % 2 ^ 32 + 2 ^ 32 - (s.cr i).head) % 2 ^ 32) ∧
    (∃ (s : State) (i : Nat) (es : List RawEntry), (s.cr i).state = 1 ∧ es.length ≤ ((s.cr i).fetchTo + 2 ^ 32 - (s.cr i).head) % 2 ^ 32) ∧
    (∃ (s : State) (j v : Nat),
      s.pwr.held = false ∧ s.pageBusy (pg 2 (erPage j)) = false ∧ s.flag (Reg.HOST_ER_CFG (erPage j) (j % 64)) Fld.HOST_ER_CFG_ENABLE = false ∧
      6 ≤ v % 32 ∧ v % 32 ≤ 16) ∧
    (∃ (s : State) (j : Nat),
      s.pwr.held = false ∧ s.pageBusy (pg 2 (erPage j)) = false ∧ s.flag (Reg.HOST_ER_CFG (erPage j) (j % 64)) Fld.HOST_ER_CFG_ENABLE = true) ∧
    (∃ (s : State) (j : Nat), s.erOn j = true) ∧
    (∃ (s : State) (j : Nat), (s.er j).done < (s.er j).unsig.length) ∧
    (∃ (s : State) (j t : Nat) (l : List Nat), (s.er j).unsig = t :: l) ∧
    (∃ (s : State), s.pwr.held = false) :=
  ⟨⟨up, 0, 6, by decide +kernel⟩,
   ⟨up, 0, 0, by decide +kernel⟩,
   ⟨(up.setFld (Reg.HOST_CR_CFG 1 0) Fld.HOST_CR_CFG_ENABLE 1), 0, by decide +kernel⟩,
   ⟨(up.setFld (Reg.HOST_CR_CFG 1 0) Fld.HOST_CR_CFG_ENABLE 1), 0, by decide +kernel⟩,
   ⟨(up.setCr 0 ⟨0, 2, 2, true, 0, 0⟩), 0, by decide +kernel⟩,
   ⟨({ up with host := { up.host with cr := [(0, { CrSt.init with state := 1, rereading := true })] } }), 0, 0, by decide +kernel⟩,
   ⟨({ up with host := { up.host with cr := [(0, { CrSt.init with state := 1, rereading := true })] } }), 0, 2, by decide +kernel⟩,
   ⟨({ up with host := { up.host with cr := [(0, { CrSt.init with state := 1 })] } }), 0, [], by decide +kernel⟩,
   ⟨up, 0, 6, by decide +kernel⟩,
   ⟨(up.setFld (Reg.HOST_ER_CFG 5 0) Fld.HOST_ER_CFG_ENABLE 1), 0, by decide +kernel⟩,
   ⟨(up.setFld (Reg.HOST_ER_CFG 5 0) Fld.HOST_ER_CFG_ENABLE 1), 0, by decide +kernel⟩,
   ⟨({ up with host := { up.host with er := [(0, { ErSt.init with unsig := [0] })] } }), 0, by decide +kernel⟩,
   ⟨({ up with host := { up.host with er := [(0, { ErSt.init with unsig := [0] })] } }), 0, 0, [], by decide +kernel⟩,
   ⟨up, by decide +kernel⟩⟩

theorem witness_HostCommandsComplete :
    (∃ (s : State) (h : CmdHdr), s.takes h 0x0200 false = true) ∧
    (∃ (s : State) (h : CmdHdr) (a v : Nat),
      let x := (s.start h 0x0201).writeAcc a 4 v
      s.takes h 0x0201 false = true ∧ s.cmdReaches h a = true ∧ x.1 = false ∧ x.2.host.started.any (cmdRuns h 2) = true) ∧
    (∃ (s : State) (h : CmdHdr) (a v : Nat),
      let x := (s.start h 0x0201).writeAcc a 4 v
      s.takes h 0x0201 false = true ∧ s.cmdReaches h a = true ∧ x.1 = false ∧ x.2.host.started.any (cmdRuns h 2) = false) ∧
    (∃ (s : State) (h : CmdHdr) (a v : Nat),
      let x := (s.start h 0x0201).writeAcc a 4 v
      s.takes h 0x0201 false = true ∧ s.cmdReaches h a = true ∧ x.1 = true) ∧
    (∃ (s : State) (h : CmdHdr) (a : Nat),
      let x := (s.start h 0x0202).readAcc a 4
      s.takes h 0x0202 false = true ∧ s.cmdReaches h a = true ∧ x.1 = false) ∧
    (∃ (s : State) (h : CmdHdr) (a : Nat),
      let x := (s.start h 0x0202).readAcc a 4
      s.takes h 0x0202 false = true ∧ s.cmdReaches h a = true ∧ x.1 = true) ∧
    (∃ (s : State) (f : MpFrame),
      s.pwr.held = false ∧ s.mpOurs f = true ∧ s.mpWellFormed f = true ∧ f.op = 1 ∧ s.mpInSession f = true ∧ s.mpAuthentic f = true ∧
      (s.host.mpSeq.any fun q => decide (f.seq ≤ q)) = false) ∧
    (∃ (s : State) (f : MpFrame),
      let u := { s with host := { s.host with mpSeq := some f.seq } }.inc Cnt.MGMT_MP_ACCEPTED
      s.pwr.held = false ∧ s.mpOurs f = true ∧ s.mpWellFormed f = true ∧ f.op = 2 ∧ s.mpInSession f = true ∧ s.mpAuthentic f = true ∧
      (s.host.mpSeq.any fun q => decide (f.seq ≤ q)) = false ∧ (u.writeAcc f.addr f.len (leNat f.body)).2.host.sessions = s.host.sessions) ∧
    (∃ (s : State) (f : MpFrame),
      s.pwr.held = false ∧ s.mpOurs f = true ∧ s.mpWellFormed f = true ∧ f.op = 3 ∧ s.mpInSession f = true ∧ s.mpAuthentic f = true ∧
      (s.host.mpSeq.any fun q => decide (f.seq ≤ q)) = false) ∧
    (∃ (s : State) (h : CmdHdr) (slot : Nat), s.takes h 0x0103 true = true ∧ h.target = 0 ∧ slot ≤ 3) ∧
    (∃ (s : State) (h : CmdHdr) (slot : Nat), s.takes h 0x0103 true = true ∧ h.target = 0 ∧ 3 < slot) ∧
    (∃ (s : State), s.pwr.held = false ∧ s.pageBusy mgmtPg = false) :=
  ⟨⟨up, ⟨.firmware, 0, false, false, 0⟩, by decide +kernel⟩,
   ⟨up, ⟨.firmware, 0, false, false, 0⟩, Reg.TIME_HOLD_WIN, 0, by decide +kernel⟩,
   ⟨up, ⟨.firmware, 0, false, false, 0⟩, (Reg.PAGE_CTRL hostPg), 2, by decide +kernel⟩,
   ⟨up, ⟨.firmware, 0, false, false, 0⟩, 0, 0, by decide +kernel⟩,
   ⟨up, ⟨.firmware, 0, false, false, 0⟩, Reg.TIME_HOLD_WIN, by decide +kernel⟩,
   ⟨up, ⟨.firmware, 0, false, false, 0⟩, 0, by decide +kernel⟩,
   ⟨mpUp, mpFrame 1 8 8 [0, 0, 0, 0, 0, 0, 0, 0], by decide +kernel, by decide +kernel, by decide +kernel, rfl, mpFrame_session _ _ _ _,
     mpFrame_authentic _ _ _ _, by decide +kernel⟩,
   ⟨mpUp, mpFrame 2 8 4 [0, 0, 0, 0], by decide +kernel, by decide +kernel, by decide +kernel, rfl, mpFrame_session _ _ _ _, mpFrame_authentic _ _ _
     _, by decide +kernel, by decide +kernel⟩,
   ⟨mpUp, mpFrame 3 0 64 (List.replicate 64 0), by decide +kernel, by decide +kernel, by decide +kernel, rfl, mpFrame_session _ _ _ _,
     mpFrame_authentic _ _ _ _, by decide +kernel⟩,
   ⟨up, ⟨.firmware, 0, false, false, 0⟩, 0, by decide +kernel⟩,
   ⟨up, ⟨.firmware, 0, false, false, 0⟩, 5, by decide +kernel⟩,
   ⟨up, by decide +kernel⟩⟩

theorem witness_ClockCommandsComplete :
    (∃ (s : State) (v : Nat), s.pwr.held = false ∧ s.pageBusy pgTime = false ∧ bits 35 32 v = 1 ∧ 0x46AE147B ≤ v % 2 ^ 32 ∧ v % 2 ^ 32 ≤ 0x48AE147B) ∧
    (∃ (s : State) (v : Nat), s.pwr.held = false ∧ s.pageBusy pgTime = false ∧ (bits 35 32 v ≠ 1 ∨ v % 2 ^ 32 < 0x46AE147B ∨ 0x48AE147B < v % 2 ^ 32)) ∧
    (∃ (s : State) (v : Nat),
      let r := s.wrWide Reg.TIME_ADJ v 2
      let u : State := { r with time := { r.time with pending := none } }
      s.pwr.held = false ∧ s.pageBusy pgTime = false ∧ u.timeState = 0) ∧
    (∃ (s : State) (v : Nat),
      let r := s.wrWide Reg.TIME_ADJ v 2
      let u : State := { r with time := { r.time with pending := none } }
      s.pwr.held = false ∧ s.pageBusy pgTime = false ∧ u.timeState = 4) ∧
    (∃ (s : State) (v : Nat),
      let r := s.wrWide Reg.TIME_ADJ v 2
      let u : State := { r with time := { r.time with pending := none } }
      let d : Int := toSigned 64 v * 65536
      let fits : Bool := decide (d.natAbs ≤ u.jumpLimit ∧ (d + u.time.slew).natAbs ≤ u.jumpLimit)
      s.pwr.held = false ∧ s.pageBusy pgTime = false ∧ (u.timeState = 1 ∨ u.timeState = 2 ∨ u.timeState = 3) ∧ fits = true) ∧
    (∃ (s : State) (v : Nat),
      let r := s.wrWide Reg.TIME_ADJ v 2
      let u : State := { r with time := { r.time with pending := none } }
      let d : Int := toSigned 64 v * 65536
      let fits : Bool := decide (d.natAbs ≤ u.jumpLimit ∧ (d + u.time.slew).natAbs ≤ u.jumpLimit)
      s.pwr.held = false ∧ s.pageBusy pgTime = false ∧ (u.timeState = 1 ∨ u.timeState = 2 ∨ u.timeState = 3) ∧ fits = false) ∧
    (∃ (s : State), s.pwr.held = false ∧ s.pageBusy pgTime = false) ∧
    (∃ (s : State) (t : Nat),
      s.pwr.held = false ∧ s.pageBusy pgTime = false ∧ s.time.stepKey = some t ∧ (s.time.ticks - t) * 128 ≤ 100000 ∧ s.time.pending = none) ∧
    (∃ (s : State) (t : Nat) (d : Int),
      s.pwr.held = false ∧ s.pageBusy pgTime = false ∧ s.time.stepKey = some t ∧ (s.time.ticks - t) * 128 ≤ 100000 ∧ s.time.pending = some d ∧
      (s.timeState = 1 ∨ s.timeState = 4)) ∧
    (∃ (s : State) (t : Nat) (d : Int),
      s.pwr.held = false ∧ s.pageBusy pgTime = false ∧ s.time.stepKey = some t ∧ (s.time.ticks - t) * 128 ≤ 100000 ∧ s.time.pending = some d ∧
      (s.timeState = 2 ∨ s.timeState = 3)) ∧
    (∃ (s : State) (t : Nat) (d : Int),
      s.pwr.held = false ∧ s.pageBusy pgTime = false ∧ s.time.stepKey = some t ∧ (s.time.ticks - t) * 128 ≤ 100000 ∧ s.time.pending = some d ∧
      s.timeState = 0) ∧
    (∃ (s : State) (v : Nat),
      s.pwr.held = false ∧ s.pageBusy pgTime = false ∧ v ≠ 0xC3C3 ∧
      (v ≠ 0x3C3C ∨ s.time.stepKey = none ∨ ∃ t, s.time.stepKey = some t ∧ 100000 < (s.time.ticks - t) * 128)) ∧
    (∃ (s : State) (ns : Nat), s.pwr.held = false ∧ s.pageBusy pgTime = false ∧ s.timeState = 0 ∧ ns < 1000000000) ∧
    (∃ (s : State) (ns : Nat), s.pwr.held = false ∧ s.pageBusy pgTime = false ∧ s.timeState = 4 ∧ ns < 1000000000) ∧
    (∃ (s : State) (ns : Nat), s.pwr.held = false ∧ s.pageBusy pgTime = false ∧ ((s.timeState ≠ 0 ∧ s.timeState ≠ 4) ∨ 1000000000 ≤ ns)) ∧
    (∃ (s : State), s.pwr.held = false ∧ s.pageBusy pgTime = false ∧ (s.timeState = 1 ∨ s.timeState = 3 ∨ s.timeState = 4)) ∧
    (∃ (s : State), s.pwr.held = false ∧ s.pageBusy pgTime = false ∧ (s.timeState = 0 ∨ s.timeState = 2)) ∧
    (∃ (s : State), s.pwr.held = false ∧ s.pageBusy pgTime = false ∧ s.timeState ≠ 0) ∧
    (∃ (s : State), s.pwr.held = false ∧ s.pageBusy pgTime = false ∧ s.timeState = 0) ∧
    (∃ (s : State), s.pwr.held = false ∧ s.pageBusy pgTime = false ∧ s.timeState = 2) ∧
    (∃ (s : State), s.pwr.held = false ∧ s.pageBusy pgTime = false ∧ s.timeState = 3) ∧
    (∃ (s : State), s.pwr.held = false ∧ s.pageBusy pgTime = false ∧ s.timeState = 4) ∧
    (∃ (s : State), s.pwr.held = false ∧ s.pageBusy pgTime = false ∧ (s.timeState = 0 ∨ s.timeState = 1)) ∧
    (∃ (s : State),
      let u := s.elapseToTick (s.time.holdFrom + usTicks (s.rd Reg.TIME_HOLD_WIN).toNat)
      s.timeState = 2 ∧ u.heartbeatNext = false ∧ u.flag Reg.TIME_CTRL Fld.TIME_CTRL_HOLDOVER_EN = true) ∧
    (∃ (s : State),
      let u := s.elapseToTick (s.time.holdFrom + usTicks (s.rd Reg.TIME_HOLD_WIN).toNat)
      s.timeState = 2 ∧ u.heartbeatNext = false ∧ u.flag Reg.TIME_CTRL Fld.TIME_CTRL_HOLDOVER_EN = false) ∧
    (∃ (s : State),
      let u := s.elapseToTick (s.time.holdFrom + usTicks (s.rd Reg.TIME_HOLD_WIN).toNat)
      s.timeState = 2 ∧ u.heartbeatNext = true) ∧
    (∃ (s : State),
      let u := s.elapseToTick (s.time.holdoverFrom + usTicks (s.rd Reg.TIME_HOLDOVER_MAX).toNat)
      s.timeState = 3 ∧ u.heartbeatNext = false) ∧
    (∃ (s : State),
      let u := s.elapseToTick (s.time.holdoverFrom + usTicks (s.rd Reg.TIME_HOLDOVER_MAX).toNat)
      s.timeState = 3 ∧ u.heartbeatNext = true) ∧
    (∃ (s : State) (t : Nat), s.time.lostFrom = some t) :=
  ⟨⟨({ up.setTimeState 1 with time := { up.time with stepKey := some 0, pending := some 5 } }), 0x146AE147B, by decide +kernel⟩,
   ⟨({ up.setTimeState 1 with time := { up.time with stepKey := some 0, pending := some 5 } }), (2 ^ 64 - 100 * 65536), by decide +kernel⟩,
   ⟨({ up with time := { up.time with lostFrom := some 1 } }), (2 ^ 64 - 100 * 65536), by decide +kernel⟩,
   ⟨(up.setTimeState 4), (2 ^ 64 - 100 * 65536), by decide +kernel⟩,
   ⟨({ up.setTimeState 1 with time := { up.time with stepKey := some 0, pending := some 5 } }), (2 ^ 64 - 100 * 65536), by decide +kernel⟩,
   ⟨({ up.setTimeState 1 with time := { up.time with stepKey := some 0, pending := some 5 } }), 0x146AE147B, by decide +kernel⟩,
   ⟨({ up.setTimeState 1 with time := { up.time with stepKey := some 0, pending := some 5 } }), by decide +kernel⟩,
   ⟨({ up with time := { up.time with stepKey := some 0 } }), 0, by decide +kernel⟩,
   ⟨({ up.setTimeState 1 with time := { up.time with stepKey := some 0, pending := some 5 } }), 0, 5, by decide +kernel⟩,
   ⟨({ up.setTimeState 2 with time := { up.time with stepKey := some 0, pending := some 5 } }), 0, 5, by decide +kernel⟩,
   ⟨({ up.setTimeState 0 with time := { up.time with stepKey := some 0, pending := some 5 } }), 0, 5, by decide +kernel⟩,
   ⟨({ up.setTimeState 1 with time := { up.time with stepKey := some 0, pending := some 5 } }), (2 ^ 64 - 100 * 65536), by decide +kernel⟩,
   ⟨({ up with time := { up.time with lostFrom := some 1 } }), 0, by decide +kernel⟩,
   ⟨(up.setTimeState 4), 0, by decide +kernel⟩,
   ⟨({ up.setTimeState 1 with time := { up.time with stepKey := some 0, pending := some 5 } }), 0, by decide +kernel⟩,
   ⟨({ up.setTimeState 1 with time := { up.time with stepKey := some 0, pending := some 5 } }), by decide +kernel⟩,
   ⟨({ up with time := { up.time with lostFrom := some 1 } }), by decide +kernel⟩,
   ⟨({ up.setTimeState 1 with time := { up.time with stepKey := some 0, pending := some 5 } }), by decide +kernel⟩,
   ⟨({ up with time := { up.time with lostFrom := some 1 } }), by decide +kernel⟩,
   ⟨(up.setTimeState 2), by decide +kernel⟩,
   ⟨(up.setTimeState 3), by decide +kernel⟩,
   ⟨(up.setTimeState 4), by decide +kernel⟩,
   ⟨({ up.setTimeState 1 with time := { up.time with stepKey := some 0, pending := some 5 } }), by decide +kernel⟩,
   ⟨(up.setTimeState 2), by decide +kernel⟩,
   ⟨((up.setTimeState 2).setFld Reg.TIME_CTRL Fld.TIME_CTRL_HOLDOVER_EN 0), by decide +kernel⟩,
   ⟨{ timeUp 2 with pending := [.timeHeartbeat] }, by decide +kernel, by decide +kernel⟩,
   ⟨(up.setTimeState 3), by decide +kernel⟩,
   ⟨{ timeUp 3 with pending := [.timeHeartbeat] }, by decide +kernel, by decide +kernel⟩,
   ⟨({ up with time := { up.time with lostFrom := some 1 } }), 1, by decide +kernel⟩⟩

theorem witness_TimeMessagesComplete :
    (∃ (s : State), s.pageBusy pgTime = false) ∧
    (∃ (s : State), s.pageBusy (pg 3 2) = false) ∧
    (∃ (s : State) (h : CmdHdr),
      let a := s.start h 0x0301
      s.takes h 0x0301 true = true ∧ h.target < 512 ∧ s.role h.target ≠ 0 ∧ (a.carriesTraffic h.target = true ∨ (a.calOf h.target).isSome = true)) ∧
    (∃ (s : State) (h : CmdHdr) (u d : Nat),
      let a := s.start h 0x0301
      s.takes h 0x0301 true = true ∧ h.target < 512 ∧ s.role h.target ≠ 0 ∧ a.carriesTraffic h.target = false ∧ a.calOf h.target = none ∧
      a.fibreLengths h.target u d = none) ∧
    (∃ (s : State) (h : CmdHdr) (u d x y : Nat),
      let a := s.start h 0x0301
      s.takes h 0x0301 true = true ∧ h.target < 512 ∧ s.role h.target ≠ 0 ∧ a.carriesTraffic h.target = false ∧ a.calOf h.target = none ∧
      a.fibreLengths h.target u d = some (x, y)) ∧
    (∃ (s : State) (p : Nat) (c : CalSt) (rest : List CalSt), s.calOf p = some (c, rest) ∧ c.released = false) ∧
    (∃ (s : State) (p : Nat) (c : CalSt) (rest : List CalSt), s.calOf p = some (c, rest) ∧ c.released = true) ∧
    (∃ (s : State) (p : Nat) (c : CalFar), Tbl.find s.time.calFar p = some c) ∧
    (∃ (s : State) (p : Nat) (c : CalFar), Tbl.find s.time.calFar p = some c ∧ c.sentAt.isSome = true) ∧
    (∃ (s : State) (p a b : Nat) (c : CalFar), Tbl.find s.time.calFar p = some c ∧ c.sentAt = some a ∧ c.backAt = some b) ∧
    (∃ (s : State) (rx : TimeRx), s.timeEn rx.port = true ∧ rx.port = 0x7FF ∧ rx.is1588 = true) ∧
    (∃ (s : State) (rx : TimeRx), s.timeEn rx.port = true ∧ ¬(rx.port = 0x7FF ∧ rx.is1588 = true) ∧ s.timeMsgOk rx.payload = false) ∧
    (∃ (s : State) (rx : TimeRx),
      let k := beAt 0 1 rx.payload
      s.timeEn rx.port = true ∧ ¬(rx.port = 0x7FF ∧ rx.is1588 = true) ∧ s.timeMsgOk rx.payload = true ∧ k = kSync) ∧
    (∃ (s : State) (rx : TimeRx),
      let k := beAt 0 1 rx.payload
      s.timeEn rx.port = true ∧ ¬(rx.port = 0x7FF ∧ rx.is1588 = true) ∧ s.timeMsgOk rx.payload = true ∧ k = kCalReport) ∧
    (∃ (s : State) (rx : TimeRx),
      let k := beAt 0 1 rx.payload
      s.timeEn rx.port = true ∧ ¬(rx.port = 0x7FF ∧ rx.is1588 = true) ∧ s.timeMsgOk rx.payload = true ∧ k = kCalStart) ∧
    (∃ (s : State) (rx : TimeRx),
      let k := beAt 0 1 rx.payload
      s.timeEn rx.port = true ∧ ¬(rx.port = 0x7FF ∧ rx.is1588 = true) ∧ s.timeMsgOk rx.payload = true ∧ k ≠ kSync ∧ k ≠ kCalStart ∧ k ≠ kCalReport) ∧
    (∃ (s : State) (port : Nat),
      s.domainOk = true ∧ port ≠ 0x7FF ∧ s.flag (Reg.PT_TS_CFG (lpTile port) (lpPort port)) Fld.PT_TS_CFG_TIME_EN = true ∧
      (s.link port).st.isUp = true ∧ (s.fabricRole = 1 ∨ s.fabricRole = 2) ∧
      s.flag (Reg.PT_TS_CFG (lpTile port) (lpPort port)) Fld.PT_TS_CFG_SYNC_OUT = true) ∧
    (∃ (s : State) (port : Nat),
      s.domainOk = true ∧ port ≠ 0x7FF ∧ s.flag (Reg.PT_TS_CFG (lpTile port) (lpPort port)) Fld.PT_TS_CFG_TIME_EN = true ∧
      (s.link port).st.isUp = true ∧ s.flag (Reg.PT_TS_CFG (lpTile port) (lpPort port)) Fld.PT_TS_CFG_PDELAY = true) ∧
    (∃ (s : State), s.domainOk = true ∧ s.fabricRole = 2) ∧
    (∃ (s : State), s.domainOk = true ∧ s.fld Reg.TIME_ROLE Fld.TIME_ROLE_MGMT_DELAY = 1) ∧
    (∃ (s : State),
      let port := s.srcField s.activeSrc % 2048
      s.usesSources = true ∧ Tbl.getD s.time.srcAt 0 port = 0) ∧
    (∃ (s : State) (t : _),
      let port := s.srcField s.activeSrc % 2048
      s.usesSources = true ∧ Tbl.getD s.time.srcAt 0 port = t + 1) :=
  ⟨⟨up, by decide +kernel⟩,
   ⟨up, by decide +kernel⟩,
   ⟨(useUp.setLink 0 { LinkSt.init with st := .up }), ⟨.firmware, 0, false, false, 0⟩, by decide +kernel⟩,
   ⟨(up.setFld (Reg.PT_PORT_CFG 0 0) Fld.PT_PORT_CFG_ROLE 1), ⟨.firmware, 0, false, false, 0⟩, 0, 0, by decide +kernel⟩,
   ⟨(up.setFld (Reg.PT_PORT_CFG 0 0) Fld.PT_PORT_CFG_ROLE 1), ⟨.firmware, 0, false, false, 0⟩, 100, 100, 100, 100, by decide +kernel⟩,
   ⟨({ up with time := { up.time with cal := [⟨0, ⟨.firmware, 0, false, false, 0⟩, 0, 100, 100, false⟩] } }), 0, ⟨0, ⟨.firmware, 0, false, false, 0⟩,
     0, 100, 100, false⟩, [], by decide +kernel⟩,
   ⟨({ up with time := { up.time with cal := [⟨0, ⟨.firmware, 0, false, false, 0⟩, 0, 100, 100, true⟩] } }), 0, ⟨0, ⟨.firmware, 0, false, false, 0⟩,
     0, 100, 100, true⟩, [], by decide +kernel⟩,
   ⟨({ up with time := { up.time with calFar := [(0, ⟨0, 0, some 1, some 2⟩)] } }), 0, ⟨0, 0, some 1, some 2⟩, by decide +kernel⟩,
   ⟨({ up with time := { up.time with calFar := [(0, ⟨0, 0, some 1, some 2⟩)] } }), 0, ⟨0, 0, some 1, some 2⟩, by decide +kernel⟩,
   ⟨({ up with time := { up.time with calFar := [(0, ⟨0, 0, some 1, some 2⟩)] } }), 0, 1, 2, ⟨0, 0, some 1, some 2⟩, by decide +kernel⟩,
   ⟨timed, ⟨0x7FF, true, 0, [], none⟩, by decide +kernel⟩,
   ⟨timed, ⟨0, false, 0, [], none⟩, by decide +kernel⟩,
   ⟨timed, ⟨0, false, 0, beBytes 1 kSync ++ beBytes 63 0, none⟩, by decide +kernel⟩,
   ⟨timed, ⟨0, false, 0, beBytes 1 kCalReport ++ beBytes 63 0, none⟩, by decide +kernel⟩,
   ⟨timed, ⟨0, false, 0, beBytes 1 kCalStart ++ beBytes 63 0, none⟩, by decide +kernel⟩,
   ⟨timed, ⟨0, false, 0, beBytes 1 3 ++ beBytes 63 0, none⟩, by decide +kernel⟩,
   ⟨(timed.setFld Reg.TIME_ROLE Fld.TIME_ROLE_FABRIC_ROLE 1), 0, by decide +kernel⟩,
   ⟨((upLink 0).setFld (Reg.PT_TS_CFG 0 0) Fld.PT_TS_CFG_TIME_EN 1 |>.setFld (Reg.PT_TS_CFG 0 0) Fld.PT_TS_CFG_PDELAY 1), 0, by decide +kernel⟩,
   ⟨(up.setFld Reg.TIME_ROLE Fld.TIME_ROLE_FABRIC_ROLE 2), by decide +kernel⟩,
   ⟨(timed.setFld Reg.TIME_ROLE Fld.TIME_ROLE_MGMT_DELAY 1), by decide +kernel⟩,
   ⟨up, by decide +kernel⟩,
   ⟨({ up with time := { up.time with srcAt := [(0, 5)] } }), 4, by decide +kernel⟩⟩

theorem witness_PulsePinsComplete :
    (∃ (s : State), s.pwr.held = false ∧ s.pageBusy (pg 3 1) = false) ∧
    (∃ (s : State) (k : Nat),
      let n := s.tpoNext k
      let t := s.tpoTime k n
      let u := s.elapseToDev t
      s.flag (Reg.TPO_CTRL k) Fld.TPO_CTRL_ENABLE = true ∧
      (s.flag (Reg.TPO_CTRL k) Fld.TPO_CTRL_PERIODIC = true ∨ (s.tpoNext k = 0 ∧ s.time.now ≤ s.tpoTime k 0)) ∧
      (u.flag (Reg.TPO_CTRL k) Fld.TPO_CTRL_SQUELCH_ON_LOST && u.time.unlocked) = false) ∧
    (∃ (s : State) (k : Nat),
      let n := s.tpoNext k
      let t := s.tpoTime k n
      let u := s.elapseToDev t
      s.flag (Reg.TPO_CTRL k) Fld.TPO_CTRL_ENABLE = true ∧
      (s.flag (Reg.TPO_CTRL k) Fld.TPO_CTRL_PERIODIC = true ∨ (s.tpoNext k = 0 ∧ s.time.now ≤ s.tpoTime k 0)) ∧
      (u.flag (Reg.TPO_CTRL k) Fld.TPO_CTRL_SQUELCH_ON_LOST && u.time.unlocked) = true) ∧
    (∃ (s : State) (k t lead : Nat), (s.tpo k).highUntil = some (t, lead)) ∧
    (∃ (s : State) (k edge : Nat) (level : Bool),
      let u := s.elapseToDev (edge * 65536 + 20 * 2 ^ 32)
      let act := level != u.flag (Reg.TPI_CTRL k) Fld.TPI_CTRL_POLARITY
      (u.tpi k).active = act) ∧
    (∃ (s : State) (k edge : Nat) (level : Bool),
      let u := s.elapseToDev (edge * 65536 + 20 * 2 ^ 32)
      let act := level != u.flag (Reg.TPI_CTRL k) Fld.TPI_CTRL_POLARITY
      act = false ∧ (u.tpi k).active = true) ∧
    (∃ (s : State) (k edge : Nat) (level : Bool),
      let u := s.elapseToDev (edge * 65536 + 20 * 2 ^ 32)
      let act := level != u.flag (Reg.TPI_CTRL k) Fld.TPI_CTRL_POLARITY
      let v := u.setTpi k { u.tpi k with active := true, since := u.time.ticks - nsTicks 20 }
      let x := edge - v.fld (Reg.TPI_CTRL k) Fld.TPI_CTRL_CABLE_DELAY * 65536 / 1000
      let quiet := (match (u.tpi k).lastEvent with | some e => decide (u.time.ticks < e + usTicks 100) | none => false) || v.farFromSecond k (x * 65536)
      let open_ := v.flag (Reg.TPI_CTRL k) Fld.TPI_CTRL_ENABLE && !v.flag (Reg.TPI_STATUS k) Fld.TPI_STATUS_STUCK
      act = true ∧ (u.tpi k).active = false ∧ open_ = true ∧ quiet = true) ∧
    (∃ (s : State) (k edge : Nat) (level : Bool),
      let u := s.elapseToDev (edge * 65536 + 20 * 2 ^ 32)
      let act := level != u.flag (Reg.TPI_CTRL k) Fld.TPI_CTRL_POLARITY
      let v := u.setTpi k { u.tpi k with active := true, since := u.time.ticks - nsTicks 20 }
      let x := edge - v.fld (Reg.TPI_CTRL k) Fld.TPI_CTRL_CABLE_DELAY * 65536 / 1000
      let quiet := (match (u.tpi k).lastEvent with | some e => decide (u.time.ticks < e + usTicks 100) | none => false) || v.farFromSecond k (x * 65536)
      let open_ := v.flag (Reg.TPI_CTRL k) Fld.TPI_CTRL_ENABLE && !v.flag (Reg.TPI_STATUS k) Fld.TPI_STATUS_STUCK
      act = true ∧ (u.tpi k).active = false ∧ open_ = true ∧ quiet = false) ∧
    (∃ (s : State) (k : Nat),
      (s.tpi k).active = true ∧ s.flag (Reg.TPI_CTRL k) Fld.TPI_CTRL_ENABLE = true ∧ s.flag (Reg.TPI_STATUS k) Fld.TPI_STATUS_STUCK = false) :=
  ⟨⟨up, by decide +kernel⟩,
   ⟨(up.setFld (Reg.TPO_CTRL 0) Fld.TPO_CTRL_ENABLE 1), 0, by decide +kernel⟩,
   ⟨((up.setTimeState 4).setFld (Reg.TPO_CTRL 0) Fld.TPO_CTRL_ENABLE 1), 0, by decide +kernel⟩,
   ⟨(up.setTpo 0 ⟨1, some (5, 0)⟩), 0, 5, 0, by decide +kernel⟩,
   ⟨up, 0, 0, false, by decide +kernel⟩,
   ⟨(up.setTpi 0 ⟨true, none, 0⟩), 0, 0, false, by decide +kernel⟩,
   ⟨((up.setTpi 0 ⟨false, some 1, 0⟩).setFld (Reg.TPI_CTRL 0) Fld.TPI_CTRL_ENABLE 1), 0, 0, true, by decide +kernel⟩,
   ⟨(up.setFld (Reg.TPI_CTRL 0) Fld.TPI_CTRL_ENABLE 1), 0, 0, true, by decide +kernel⟩,
   ⟨((up.setTpi 0 ⟨true, none, 0⟩).setFld (Reg.TPI_CTRL 0) Fld.TPI_CTRL_ENABLE 1), 0, by decide +kernel⟩⟩

theorem witness_PowerCompletes :
    (∃ (s : State), s.pwr.good = false) ∧
    (∃ (s : State), s.pwr.good = true) ∧
    (∃ (s : State), s.pwr.good = true ∧ s.pwr.therm = false) ∧
    (∃ (s : State), s.pwr.good = true ∧ s.pwr.therm = true) ∧
    (∃ (s : State) (ns : Nat), 1000 ≤ ns ∧ s.pwr.good = true) ∧
    (∃ (s : State) (ns : Nat), 1000 ≤ ns ∧ s.pwr.good = false) ∧
    (∃ (ns : Nat), 100 ≤ ns ∧ ns < 1000) ∧
    (∃ (s : State) (ns : Nat), 100 ≤ ns ∧ ns < 1000 ∧ s.pwr.good = true) ∧
    (∃ (s : State) (ns : Nat), 100 ≤ ns ∧ ns < 1000 ∧ s.pwr.good = false) ∧
    (∃ (ns : Nat), ns < 100) ∧
    (∃ (s : State), s.pwr.good = true ∧ s.pwr.cold = true) ∧
    (∃ (s : State), (s.pwr.good = false ∨ s.pwr.cold = false)) ∧
    (∃ (s : State), s.pwr.held = false) ∧
    (∃ (s : State), s.pwr.clockLost = true) ∧
    (∃ (s : State) (x : SensorSample) (k : Nat),
      s.pwr.held = false ∧
      ((List.range 19).find? fun k => decide (16 * ((s.nextSample 0).tripAt k : Int) ≤ toSigned 16 (x.temps.getD k 0x8000))) = some k) ∧
    (∃ (s : State) (x : SensorSample),
      s.pwr.held = false ∧ ((List.range 19).find? fun k => decide (16 * ((s.nextSample 0).tripAt k : Int) ≤ toSigned 16 (x.temps.getD k 0x8000))) = none) ∧
    (∃ (s : State) (rail v i : Nat),
      let u := (s.setFld (Reg.PWR_RAIL rail) Fld.PWR_RAIL_VOLTAGE v).setFld (Reg.PWR_RAIL rail) Fld.PWR_RAIL_CURRENT i
      let f := u.fld Reg.PWR_STATUS Fld.PWR_STATUS_RAIL_FAULT
      s.pwr.held = false ∧ railOut rail v = true ∧ bit rail f = false) ∧
    (∃ (s : State) (rail v i : Nat),
      let u := (s.setFld (Reg.PWR_RAIL rail) Fld.PWR_RAIL_VOLTAGE v).setFld (Reg.PWR_RAIL rail) Fld.PWR_RAIL_CURRENT i
      let f := u.fld Reg.PWR_STATUS Fld.PWR_STATUS_RAIL_FAULT
      s.pwr.held = false ∧ railOut rail v = true ∧ bit rail f = true) ∧
    (∃ (s : State) (rail v : Nat), s.pwr.held = false ∧ railOut rail v = false) ∧
    (∃ (s : State), s.pwr.held = false ∧ s.pageBusy pwrPg = false) ∧
    (∃ (s : State), s.pwr.held = false ∧ s.flag Reg.CFG_STATUS Fld.CFG_STATUS_RECOVERY = false ∧ s.cfg.keysHeld = false) ∧
    (∃ (s : State),
      let reached := fun (f : Fld) => s.flag Reg.CFG_STATUS f
      s.pwr.held = false ∧ s.flag Reg.CFG_STATUS Fld.CFG_STATUS_RECOVERY = false ∧ reached Fld.CFG_STATUS_PUF_OK = false) ∧
    (∃ (s : State),
      let reached := fun (f : Fld) => s.flag Reg.CFG_STATUS f
      s.pwr.held = false ∧ s.flag Reg.CFG_STATUS Fld.CFG_STATUS_RECOVERY = false ∧ reached Fld.CFG_STATUS_UNIT_REC_OK = true ∧
      reached Fld.CFG_STATUS_FW_RUNNING = false) ∧
    (∃ (s : State),
      let reached := fun (f : Fld) => s.flag Reg.CFG_STATUS f
      s.pwr.held = false ∧ s.flag Reg.CFG_STATUS Fld.CFG_STATUS_RECOVERY = false ∧ reached Fld.CFG_STATUS_FW_RUNNING = true ∧
      reached Fld.CFG_STATUS_FEN_FP32 = false) ∧
    (∃ (s : State),
      let reached := fun (f : Fld) => s.flag Reg.CFG_STATUS f
      s.pwr.held = false ∧ s.flag Reg.CFG_STATUS Fld.CFG_STATUS_RECOVERY = false ∧ reached Fld.CFG_STATUS_FEN_FP32 = true ∧
      reached Fld.CFG_STATUS_FEN_EXACT = false) ∧
    (∃ (s : State),
      let reached := fun (f : Fld) => s.flag Reg.CFG_STATUS f
      s.pwr.held = false ∧ s.flag Reg.CFG_STATUS Fld.CFG_STATUS_RECOVERY = false ∧ reached Fld.CFG_STATUS_FW_RUNNING = true ∧
      reached Fld.CFG_STATUS_PEAT_ATTEND = false) ∧
    (∃ (s : State),
      let reached := fun (f : Fld) => s.flag Reg.CFG_STATUS f
      s.pwr.held = false ∧ s.flag Reg.CFG_STATUS Fld.CFG_STATUS_RECOVERY = false ∧ reached Fld.CFG_STATUS_FW_RUNNING = true ∧
      reached Fld.CFG_STATUS_OPTICS_FULL = false ∧ s.provisionalLeft = false) :=
  ⟨⟨(up.setPwr fun p => { p with good := false }), by decide +kernel⟩,
   ⟨up, by decide +kernel⟩,
   ⟨up, by decide +kernel⟩,
   ⟨({ up with pwr := { up.pwr with therm := true } }), by decide +kernel⟩,
   ⟨up, 1000, by decide +kernel⟩,
   ⟨(up.setPwr fun p => { p with good := false }), 1000, by decide +kernel⟩,
   ⟨100, by decide +kernel⟩,
   ⟨up, 100, by decide +kernel⟩,
   ⟨(up.setPwr fun p => { p with good := false }), 100, by decide +kernel⟩,
   ⟨0, by decide +kernel⟩,
   ⟨(up.setPwr fun p => { p with cold := true }), by decide +kernel⟩,
   ⟨up, by decide +kernel⟩,
   ⟨up, by decide +kernel⟩,
   ⟨(up.setPwr fun p => { p with clockLost := true }), by decide +kernel⟩,
   ⟨up, ⟨[0, 0, 16 * 110], 0⟩, 2, by decide +kernel⟩,
   ⟨up, ⟨[], 0⟩, by decide +kernel⟩,
   ⟨up, 0, 750, 0, by decide +kernel⟩,
   ⟨(up.setFld Reg.PWR_STATUS Fld.PWR_STATUS_RAIL_FAULT 1), 0, 0, 0, by decide +kernel⟩,
   ⟨up, 0, 3300, by decide +kernel⟩,
   ⟨up, by decide +kernel⟩,
   ⟨up, by decide +kernel⟩,
   ⟨up, by decide +kernel⟩,
   ⟨(cfgFlag Fld.CFG_STATUS_UNIT_REC_OK |>.setFlag Reg.CFG_STATUS Fld.CFG_STATUS_FW_RUNNING false), by decide +kernel⟩,
   ⟨(State.reset.setFlag Reg.CFG_STATUS Fld.CFG_STATUS_FW_RUNNING true), by decide +kernel⟩,
   ⟨(cfgFlag Fld.CFG_STATUS_FEN_FP32 |>.setFlag Reg.CFG_STATUS Fld.CFG_STATUS_FEN_EXACT false), by decide +kernel⟩,
   ⟨(State.reset.setFlag Reg.CFG_STATUS Fld.CFG_STATUS_FW_RUNNING true), by decide +kernel⟩,
   ⟨up, by decide +kernel⟩⟩

theorem witness_LinkFramesComplete :
    (∃ (s : State) (lp : Nat) (hd : List Byte) (fec : Bool),
      (s.link lp).st.isUp = true ∧ s.ignoresLight (lp2p lp) = false ∧ (fec = true ∨ hdrGood hd = false)) ∧
    (∃ (s : State) (lp : Nat) (hd : List Byte) (fec : Bool),
      (s.link lp).st.isUp = true ∧ s.ignoresLight (lp2p lp) = false ∧ fec = false ∧ hdrGood hd = true ∧ hdrType hd ≠ 1) ∧
    (∃ (s : State) (lp : Nat) (hd : List Byte) (fec : Bool),
      let u := if hdrAckValid hd then s.acked lp (hdrAck hd) else s
      let l := u.link lp
      (s.link lp).st.isUp = true ∧ s.ignoresLight (lp2p lp) = false ∧ fec = false ∧ hdrGood hd = true ∧ hdrType hd = 1 ∧ hdrSeq hd ≠ l.rxSeq) ∧
    (∃ (s : State) (lp : Nat) (hd : List Byte) (fec : Bool),
      let u := if hdrAckValid hd then s.acked lp (hdrAck hd) else s
      let l := u.link lp
      (s.link lp).st.isUp = true ∧ s.ignoresLight (lp2p lp) = false ∧ fec = false ∧ hdrGood hd = true ∧ hdrType hd = 1 ∧ hdrSeq hd = l.rxSeq ∧
      l.rxOpen = none) ∧
    (∃ (s : State) (lp : Nat) (hd : List Byte) (fec : Bool) (id : _),
      let u := if hdrAckValid hd then s.acked lp (hdrAck hd) else s
      let l := u.link lp
      (s.link lp).st.isUp = true ∧ s.ignoresLight (lp2p lp) = false ∧ fec = false ∧ hdrGood hd = true ∧ hdrType hd = 1 ∧ hdrSeq hd = l.rxSeq ∧
      l.rxOpen = some id) ∧
    (∃ (s : State) (lp : Nat) (hd body : List Byte),
      (s.link lp).st.isUp = true ∧ s.ignoresLight (lp2p lp) = false ∧ hdrGood hd = true ∧ hdrType hd = 2 ∧ ctlKind body = 1) ∧
    (∃ (s : State) (lp : Nat) (hd body : List Byte),
      (s.link lp).st.isUp = true ∧ s.ignoresLight (lp2p lp) = false ∧ hdrGood hd = true ∧ hdrType hd = 2 ∧ ctlKind body = 2) ∧
    (∃ (s : State) (lp : Nat) (hd body : List Byte),
      (s.link lp).st.isUp = true ∧ s.ignoresLight (lp2p lp) = false ∧ hdrGood hd = true ∧ hdrType hd = 2 ∧ ctlKind body = 3) ∧
    (∃ (s : State) (lp : Nat) (hd body : List Byte),
      let u := if hdrAckValid hd then s.acked lp (hdrAck hd) else s
      (s.link lp).st.isUp = true ∧ s.ignoresLight (lp2p lp) = false ∧ hdrGood hd = true ∧ hdrType hd = 2 ∧ ctlKind body = 5 ∧ (u.link lp).st.isUp = true) ∧
    (∃ (s : State) (lp : Nat) (hd body : List Byte),
      let u := if hdrAckValid hd then s.acked lp (hdrAck hd) else s
      (s.link lp).st.isUp = true ∧ s.ignoresLight (lp2p lp) = false ∧ hdrGood hd = true ∧ hdrType hd = 2 ∧ ctlKind body = 4 ∧
      (u.link lp).farId ≠ some (helloOf body).id ∧ (u.link lp).st.isUp = true) ∧
    (∃ (s : State) (lp : Nat) (hd body : List Byte),
      let u := if hdrAckValid hd then s.acked lp (hdrAck hd) else s
      let g := (helloOf body).gen
      (s.link lp).st.isUp = true ∧ s.ignoresLight (lp2p lp) = false ∧ hdrGood hd = true ∧ hdrType hd = 2 ∧ ctlKind body = 4 ∧
      (u.link lp).farId = some (helloOf body).id ∧ (u.link lp).st = .up ∧ g ≠ (u.link lp).gen) ∧
    (∃ (s : State) (lp : Nat) (hd body : List Byte),
      let u := if hdrAckValid hd then s.acked lp (hdrAck hd) else s
      let g := (helloOf body).gen
      (s.link lp).st.isUp = true ∧ s.ignoresLight (lp2p lp) = false ∧ hdrGood hd = true ∧ hdrType hd = 2 ∧ ctlKind body = 4 ∧
      (u.link lp).farId = some (helloOf body).id ∧ (u.link lp).st = .up ∧ g = (u.link lp).gen) ∧
    (∃ (s : State) (lp : Nat) (hd body : List Byte),
      let u := if hdrAckValid hd then s.acked lp (hdrAck hd) else s
      let g := (helloOf body).gen
      (s.link lp).st.isUp = true ∧ s.ignoresLight (lp2p lp) = false ∧ hdrGood hd = true ∧ hdrType hd = 2 ∧ ctlKind body = 4 ∧
      (u.link lp).farId = some (helloOf body).id ∧ (u.link lp).st = .sluice ∧ g = (u.link lp).gen ∧ g ≠ 0) ∧
    (∃ (s : State) (lp : Nat) (hd body : List Byte),
      let u := if hdrAckValid hd then s.acked lp (hdrAck hd) else s
      let g := (helloOf body).gen
      (s.link lp).st.isUp = true ∧ s.ignoresLight (lp2p lp) = false ∧ hdrGood hd = true ∧ hdrType hd = 2 ∧ ctlKind body = 4 ∧
      (u.link lp).farId = some (helloOf body).id ∧ (u.link lp).st = .sluice ∧ (g ≠ (u.link lp).gen ∨ g = 0)) ∧
    (∃ (s : State) (lp : Nat) (hd body : List Byte),
      let x := helloOf body
      (s.link lp).st = .hello ∧ s.ignoresLight (lp2p lp) = false ∧ hdrGood hd = true ∧ hdrType hd = 2 ∧ ctlKind body = 4 ∧ x.role ≠ s.wantRole lp) ∧
    (∃ (s : State) (lp : Nat) (hd body : List Byte),
      let x := helloOf body
      (s.link lp).st = .hello ∧ s.ignoresLight (lp2p lp) = false ∧ hdrGood hd = true ∧ hdrType hd = 2 ∧ ctlKind body = 4 ∧ x.role = s.wantRole lp ∧
      x.seen = true) ∧
    (∃ (s : State) (lp : Nat) (hd body : List Byte),
      let x := helloOf body
      (s.link lp).st = .hello ∧ s.ignoresLight (lp2p lp) = false ∧ hdrGood hd = true ∧ hdrType hd = 2 ∧ ctlKind body = 4 ∧ x.role = s.wantRole lp ∧
      x.seen = false) ∧
    (∃ (s : State) (lp : Nat) (hd : List Byte) (fec : Bool), s.takesFrames lp = true ∧ (fec = true ∨ hdrGood hd = false)) :=
  ⟨⟨(upLinkIn .up), 0, [], true, by decide +kernel⟩,
   ⟨(upLink 0), 0, ctlHd, false, by decide +kernel⟩,
   ⟨(upLink 0), 0, (dataHd 1), false, by decide +kernel⟩,
   ⟨(upLink 0), 0, (dataHd 0), false, by decide +kernel⟩,
   ⟨(up.setLink 0 { LinkSt.init with st := .up, rxOpen := some 5 }), 0, (dataHd 0), false, 5, by decide +kernel⟩,
   ⟨(upLink 0), 0, ctlHd, (ackBody 0), by decide +kernel⟩,
   ⟨(upLink 0), 0, ctlHd, (nakBody 0), by decide +kernel⟩,
   ⟨(upLink 0), 0, ctlHd, (creditBody (List.replicate 8 0) (List.replicate 8 0)), by decide +kernel⟩,
   ⟨(upLink 0), 0, ctlHd, (goodbyeBody 7), by decide +kernel⟩,
   ⟨(upLink 0), 0, ctlHd, (helloGen 1 false), by decide +kernel⟩,
   ⟨(farUp .up 1), 0, ctlHd, (helloGen 2 false), by decide +kernel⟩,
   ⟨(farUp .up 1), 0, ctlHd, (helloGen 1 false), by decide +kernel⟩,
   ⟨(farUp .sluice 1), 0, ctlHd, (helloGen 1 false), by decide +kernel⟩,
   ⟨(farUp .sluice 0), 0, ctlHd, (helloGen 0 false), by decide +kernel⟩,
   ⟨(upLinkIn .hello), 0, ctlHd, (helloBody ⟨7, 0, false, 15, 9, 128, 2048, 1536⟩), by decide +kernel⟩,
   ⟨(upLinkIn .hello), 0, ctlHd, (helloBody ⟨(upLinkIn .hello).wantRole 0, 0, true, 15, 9, 128, 2048, 1536⟩), by decide +kernel⟩,
   ⟨(upLinkIn .hello), 0, ctlHd, (helloBody ⟨(upLinkIn .hello).wantRole 0, 0, false, 15, 9, 128, 2048, 1536⟩), by decide +kernel⟩,
   ⟨(upLinkIn .up), 0, [], true, by decide +kernel⟩⟩

theorem witness_LinkTimersComplete :
    (∃ (s : State) (lp : Nat) (r : Replay) (l : List Replay),
      (s.link lp).replay = r :: l ∧ (s.link lp).st.isUp = true ∧ s.timersHeld (lp2p lp) = false) ∧
    (∃ (s : State) (lp : Nat), (s.link lp).st = .hello) ∧
    (∃ (s : State) (lp : Nat), (s.link lp).st = .sluice) ∧
    (∃ (s : State) (lp : Nat),
      s.opticsAllowed (lp2p lp) = true ∧ (if s.isSplit (lp2p lp) then 1 else 2) ≤ ((s.reedsOf lp).filter fun r => s.reedLocked (lp2p lp) r).length) ∧
    (∃ (s : State) (lp t : Nat),
      s.opticsAllowed (lp2p lp) = true ∧ Tbl.getD s.optics.firstLock 0 lp = t + 1 ∧ 1 ≤ ((s.reedsOf lp).filter fun r => s.reedLocked (lp2p lp) r).length) ∧
    (∃ (s : State) (lp : Nat),
      let u := s.reportUnlocked lp
      Tbl.find s.time.calFar (lp2p lp) = none ∧ (s.reedsOf lp).any (s.reedLocked (lp2p lp)) = false ∧
      ((u.link lp).st = .align ∨ (u.link lp).st = .hello)) ∧
    (∃ (s : State) (lp : Nat),
      let u := s.reportUnlocked lp
      Tbl.find s.time.calFar (lp2p lp) = none ∧ (s.reedsOf lp).any (s.reedLocked (lp2p lp)) = false ∧ (u.link lp).st.isUp = true) ∧
    (∃ (s : State) (lp : Nat),
      let u := s.reportUnlocked lp
      Tbl.find s.time.calFar (lp2p lp) = none ∧ (s.reedsOf lp).any (s.reedLocked (lp2p lp)) = false ∧
      ((u.link lp).st = .down ∨ (u.link lp).st = .holdDown)) ∧
    (∃ (s : State) (lp : Nat), s.stillLocked lp = true ∧ (s.link lp).st = .align) ∧
    (∃ (s : State) (lp : Nat), s.stillLocked lp = true ∧ (s.link lp).st ≠ .align) ∧
    (∃ (s : State) (lp : Nat), (s.link lp).st = .align) ∧
    (∃ (s : State) (lp : Nat),
      let v := s.elapse (usTicks 10)
      let u := v.setLink lp { v.link lp with aligned := false }
      s.timersHeld (lp2p lp) = false ∧ (u.link lp).st = .hello) ∧
    (∃ (s : State) (lp : Nat),
      let v := s.elapse (usTicks 10)
      let u := v.setLink lp { v.link lp with aligned := false }
      s.timersHeld (lp2p lp) = false ∧ (u.link lp).st.isUp = true) ∧
    (∃ (s : State) (lp : Nat),
      let v := s.elapse (usTicks 10)
      let u := v.setLink lp { v.link lp with aligned := false }
      s.timersHeld (lp2p lp) = false ∧ (u.link lp).st ≠ .hello ∧ (u.link lp).st.isUp = false) ∧
    (∃ (s : State) (lp : Nat), (s.link lp).st = .holdDown) ∧
    (∃ (s : State) (lp t : Nat), (s.link lp).st = .down ∧ (s.link lp).waitFrom = some t) ∧
    (∃ (s : State) (lp : Nat), (s.link lp).st.isUp = true) :=
  ⟨⟨(up.setLink 0 { LinkSt.init with st := .up, replay := [⟨0, plain, 1, 0, false⟩] }), 0, ⟨0, plain, 1, 0, false⟩, [], by decide +kernel⟩,
   ⟨(upLinkIn .hello), 0, by decide +kernel⟩,
   ⟨(upLinkIn .sluice), 0, by decide +kernel⟩,
   ⟨lockedReeds, 0, by decide +kernel⟩,
   ⟨({ lockedReeds with optics := { lockedReeds.optics with firstLock := [(0, 2)] } }), 0, 1, by decide +kernel⟩,
   ⟨(upLinkIn .hello), 0, by decide +kernel⟩,
   ⟨(upLinkIn .up), 0, by decide +kernel⟩,
   ⟨up, 0, by decide +kernel⟩,
   ⟨(lockedReeds.setLink 0 { LinkSt.init with st := .align, locked := true }), 0, by decide +kernel⟩,
   ⟨(lockedReeds.setLink 0 { LinkSt.init with st := .hello, locked := true }), 0, by decide +kernel⟩,
   ⟨(upLinkIn .align), 0, by decide +kernel⟩,
   ⟨(upLinkIn .hello), 0, by decide +kernel⟩,
   ⟨(upLinkIn .up), 0, by decide +kernel⟩,
   ⟨up, 0, by decide +kernel⟩,
   ⟨(upLinkIn .holdDown), 0, by decide +kernel⟩,
   ⟨(up.setLink 0 { LinkSt.init with waitFrom := some 1 }), 0, 1, by decide +kernel⟩,
   ⟨(upLinkIn .up), 0, by decide +kernel⟩⟩

theorem witness_LinkCommandsComplete :
    (∃ (s : State) (h : CmdHdr),
      let a := s.start h 0x0401
      s.takes h 0x0401 true = true ∧ a.inUse h.target = false) ∧
    (∃ (s : State) (h : CmdHdr) (action : Nat),
      let a := s.start h 0x0401
      s.takes h 0x0401 true = true ∧ a.inUse h.target = true ∧ action = 0) ∧
    (∃ (s : State) (h : CmdHdr) (action : Nat),
      let a := s.start h 0x0401
      s.takes h 0x0401 true = true ∧ a.inUse h.target = true ∧ action = 1) ∧
    (∃ (s : State) (h : CmdHdr) (action : Nat),
      let a := s.start h 0x0401
      s.takes h 0x0401 true = true ∧ a.inUse h.target = true ∧ action = 2) ∧
    (∃ (s : State) (h : CmdHdr) (action : Nat),
      let a := s.start h 0x0401
      s.takes h 0x0401 true = true ∧ a.inUse h.target = true ∧ 2 < action) ∧
    (∃ (s : State) (h : CmdHdr) (feid : Nat),
      let a := s.start h 0x0402
      let key := feidKey feid
      s.takes h 0x0402 true = true ∧ a.fwt.sluice.contains key = true) ∧
    (∃ (s : State) (h : CmdHdr) (feid : Nat),
      let a := s.start h 0x0402
      let key := feidKey feid
      s.takes h 0x0402 true = true ∧ a.fwt.sluice.contains key = false ∧ a.fwt.sluice.length < 1024) ∧
    (∃ (s : State) (h : CmdHdr) (feid : Nat),
      let a := s.start h 0x0402
      let key := feidKey feid
      s.takes h 0x0402 true = true ∧ a.fwt.sluice.contains key = false ∧ 1024 ≤ a.fwt.sluice.length) ∧
    (∃ (s : State) (h : CmdHdr) (action : _), s.takes h 0x0402 true = true ∧ 1 < action) ∧
    (∃ (s : State) (h : CmdHdr), s.takes h 0x0402 true = true) ∧
    (∃ (s : State) (h : CmdHdr),
      let a := s.start h 0x0403
      s.takes h 0x0403 true = true ∧ a.inUse h.target = false) ∧
    (∃ (s : State) (h : CmdHdr) (clear : Nat),
      let a := s.start h 0x0403
      s.takes h 0x0403 true = true ∧ a.inUse h.target = true ∧ clear ≠ 1) ∧
    (∃ (s : State) (h : CmdHdr) (clear : Nat),
      let a := s.start h 0x0403
      s.takes h 0x0403 true = true ∧ a.inUse h.target = true ∧ clear = 1) ∧
    (∃ (s : State) (h : CmdHdr) (thresh retry timeout : Nat),
      s.takes h 0x0404 true = true ∧ 1000 ≤ timeout ∧ timeout ≤ 16000 ∧ 2 ≤ retry ∧ retry ≤ 255 ∧ 1 ≤ thresh ∧ thresh ≤ 65535) ∧
    (∃ (s : State) (h : CmdHdr) (thresh retry timeout : Nat),
      s.takes h 0x0404 true = true ∧ (timeout < 1000 ∨ 16000 < timeout ∨ retry < 2 ∨ 255 < retry ∨ thresh < 1 ∨ 65535 < thresh)) :=
  ⟨⟨up, ⟨.firmware, 0, false, false, 0⟩, by decide +kernel⟩,
   ⟨useUp, ⟨.firmware, 0, false, false, 0⟩, 0, by decide +kernel⟩,
   ⟨useUp, ⟨.firmware, 0, false, false, 0⟩, 1, by decide +kernel⟩,
   ⟨useUp, ⟨.firmware, 0, false, false, 0⟩, 2, by decide +kernel⟩,
   ⟨useUp, ⟨.firmware, 0, false, false, 0⟩, 5, by decide +kernel⟩,
   ⟨({ up with fwt := { up.fwt with sluice := [0] } }), ⟨.firmware, 0, false, false, 0⟩, 0, by decide +kernel⟩,
   ⟨up, ⟨.firmware, 0, false, false, 0⟩, 0, by decide +kernel⟩,
   ⟨({ up with fwt := { up.fwt with sluice := List.replicate 1024 1 } }), ⟨.firmware, 0, false, false, 0⟩, 0, by decide +kernel⟩,
   ⟨up, ⟨.firmware, 0, false, false, 0⟩, 2, by decide +kernel⟩,
   ⟨up, ⟨.firmware, 0, false, false, 0⟩, by decide +kernel⟩,
   ⟨up, ⟨.firmware, 0, false, false, 0⟩, by decide +kernel⟩,
   ⟨useUp, ⟨.firmware, 0, false, false, 0⟩, 0, by decide +kernel⟩,
   ⟨useUp, ⟨.firmware, 0, false, false, 0⟩, 1, by decide +kernel⟩,
   ⟨up, ⟨.firmware, 0, false, false, 0⟩, 1, 2, 1000, by decide +kernel⟩,
   ⟨up, ⟨.firmware, 0, false, false, 0⟩, 1, 2, 0, by decide +kernel⟩⟩

theorem witness_SwitchCoreCompletes :
    (∃ (s : State) (lp : Nat) (hd : List Byte) (p : Pkt) (shared : Bool) (r : _),
      let u := s.openRx lp p shared
      (s.link lp).st.isUp = true ∧ s.ignoresLight (lp2p lp) = false ∧ (s.link lp).rxOpen = none ∧ hdrGood hd = true ∧ hdrType hd = 1 ∧
      hdrSeq hd = (s.link lp).rxSeq ∧ u.rxReason lp p = some r) ∧
    (∃ (s : State) (lp : Nat) (hd : List Byte) (p : Pkt) (shared : Bool),
      let t := lpTile lp
      let j := lpPort lp
      let u := s.openRx lp p shared
      let x := (u.tagSee lp p).1
      let g := (u.tagSee lp p).2.2.police lp x.cls (colour x) (pktLen x)
      let y := withHcrc (withColour x g.1)
      let v := g.2.inc (if g.1 = 0 then Cnt.PT_GREEN t j else if g.1 = 1 then Cnt.PT_YELLOW t j else Cnt.PT_RED t j)
      let redDrop := decide (g.1 = 2) && v.flag (polCfg lp y.cls) Fld.PT_POL_CIR_RED_DROP
      (s.link lp).st.isUp = true ∧ s.ignoresLight (lp2p lp) = false ∧ (s.link lp).rxOpen = none ∧ hdrGood hd = true ∧ hdrType hd = 1 ∧
      hdrSeq hd = (s.link lp).rxSeq ∧ u.rxReason lp p = none ∧ redDrop = true) ∧
    (∃ (s : State) (lp : Nat) (hd : List Byte) (p : Pkt) (shared : Bool),
      let t := lpTile lp
      let j := lpPort lp
      let u := s.openRx lp p shared
      let x := (u.tagSee lp p).1
      let g := (u.tagSee lp p).2.2.police lp x.cls (colour x) (pktLen x)
      let y := withHcrc (withColour x g.1)
      let v := g.2.inc (if g.1 = 0 then Cnt.PT_GREEN t j else if g.1 = 1 then Cnt.PT_YELLOW t j else Cnt.PT_RED t j)
      let redDrop := decide (g.1 = 2) && v.flag (polCfg lp y.cls) Fld.PT_POL_CIR_RED_DROP
      (s.link lp).st.isUp = true ∧ s.ignoresLight (lp2p lp) = false ∧ (s.link lp).rxOpen = none ∧ hdrGood hd = true ∧ hdrType hd = 1 ∧
      hdrSeq hd = (s.link lp).rxSeq ∧ u.rxReason lp p = none ∧ redDrop = false) ∧
    (∃ (s : State) (id : Nat) (fecBad : Bool) (r : RxFrame), (s.sw.rx.find? fun r => r.id == id && !r.tailed) = some r ∧ fecBad = true) ∧
    (∃ (s : State) (id len : Nat) (fecBad stomped late : Bool) (r : RxFrame) (e : _),
      let u := if stomped then s.inc (Cnt.PT_STOMP_RX (lpTile r.lport) (lpPort r.lport)) else s
      (s.sw.rx.find? fun r => r.id == id && !r.tailed) = some r ∧ fecBad = false ∧ r.accepted = true ∧ u.tailReason r len stomped late = some e) ∧
    (∃ (s : State) (id len : Nat) (fecBad stomped late : Bool) (r : RxFrame),
      let u := if stomped then s.inc (Cnt.PT_STOMP_RX (lpTile r.lport) (lpPort r.lport)) else s
      (s.sw.rx.find? fun r => r.id == id && !r.tailed) = some r ∧ fecBad = false ∧ r.accepted = true ∧ u.tailReason r len stomped late = none) ∧
    (∃ (s t : State) (n : Nat) (x : Flight), s.nextStaged n = some (x, t)) ∧
    (∃ (s t : State) (n : Nat) (x : Flight) (r : _) (cs : _),
      let v := t.setFlights (t.sw.flights.filter (· != x))
      let f := v.stageAt x 1
      s.nextStaged n = some (x, t) ∧ (pflag f.pkt fDstSpine = true ∨ f.pkt.typ = 0x30) ∧ v.fnReason n f.pkt = some (r, cs)) ∧
    (∃ (s t : State) (n : Nat) (x : Flight),
      let v := t.setFlights (t.sw.flights.filter (· != x))
      let f := v.stageAt x 1
      s.nextStaged n = some (x, t) ∧ (pflag f.pkt fDstSpine = true ∨ f.pkt.typ = 0x30) ∧ v.fnReason n f.pkt = none) ∧
    (∃ (s t : State) (n : Nat) (x : Flight) (r : _) (cs : _) (u : _),
      let lp := x.from_.getD 0
      let v := t.setFlights (t.sw.flights.filter (· != x))
      let f := v.stageAt x 1
      s.nextStaged n = some (x, t) ∧ pflag f.pkt fDstSpine = false ∧ f.pkt.typ ≠ 0x30 ∧
      v.lookupDecide n (v.role (lp2p lp) == 1) f.pkt = (.discard r cs, u)) ∧
    (∃ (s t : State) (n : Nat) (x : Flight) (r : _) (cnt : _) (u : _),
      let lp := x.from_.getD 0
      let v := t.setFlights (t.sw.flights.filter (· != x))
      let f := v.stageAt x 1
      let w := u.moveDetect n lp f.pkt
      let mode := w.fld (Reg.PT_PORT_CFG (lpTile lp) (lpPort lp)) Fld.PT_PORT_CFG_SPRAY_MODE
      let g := (w.inc cnt).resolve n (if mode = 3 then 0 else mode) f.pkt r
      s.nextStaged n = some (x, t) ∧ pflag f.pkt fDstSpine = false ∧ f.pkt.typ ≠ 0x30 ∧
      v.lookupDecide n (v.role (lp2p lp) == 1) f.pkt = (.forward r cnt, u) ∧ g.1 = [] ∧ r ≠ .flood) ∧
    (∃ (s t : State) (n : Nat) (x : Flight) (r : _) (cnt : _) (u : _),
      let lp := x.from_.getD 0
      let v := t.setFlights (t.sw.flights.filter (· != x))
      let f := v.stageAt x 1
      let w := u.moveDetect n lp f.pkt
      let mode := w.fld (Reg.PT_PORT_CFG (lpTile lp) (lpPort lp)) Fld.PT_PORT_CFG_SPRAY_MODE
      let g := (w.inc cnt).resolve n (if mode = 3 then 0 else mode) f.pkt r
      s.nextStaged n = some (x, t) ∧ pflag f.pkt fDstSpine = false ∧ f.pkt.typ ≠ 0x30 ∧
      v.lookupDecide n (v.role (lp2p lp) == 1) f.pkt = (.forward r cnt, u) ∧ g.1 = [] ∧ r = .flood) ∧
    (∃ (s t : State) (n : Nat) (x : Flight) (r : _) (cnt : _) (u : _),
      let lp := x.from_.getD 0
      let v := t.setFlights (t.sw.flights.filter (· != x))
      let f := v.stageAt x 1
      let w := u.moveDetect n lp f.pkt
      let mode := w.fld (Reg.PT_PORT_CFG (lpTile lp) (lpPort lp)) Fld.PT_PORT_CFG_SPRAY_MODE
      let g := (w.inc cnt).resolve n (if mode = 3 then 0 else mode) f.pkt r
      s.nextStaged n = some (x, t) ∧ pflag f.pkt fDstSpine = false ∧ f.pkt.typ ≠ 0x30 ∧
      v.lookupDecide n (v.role (lp2p lp) == 1) f.pkt = (.forward r cnt, u) ∧ g.1 ≠ []) ∧
    (∃ (s : State) (quad pair stop : Nat) (ccw : Bool) (l : Leg) (enters : Bool) (k : Nat),
      let r := 16 * quad + 2 * pair + b2n ccw
      s.ringPick r stop = some (l, enters, k) ∧ enters = true ∧ l.out = none) ∧
    (∃ (s : State) (quad pair stop : Nat) (ccw : Bool) (l : Leg) (enters : Bool) (k : Nat),
      let r := 16 * quad + 2 * pair + b2n ccw
      s.ringPick r stop = some (l, enters, k) ∧ (enters = false ∨ l.out ≠ none)) ∧
    (∃ (s : State) (quad pair stop : Nat) (ccw : Bool) (l : Leg) (enters : Bool) (k : Nat),
      let r := 16 * quad + 2 * pair + b2n ccw
      s.ringPick r stop = some (l, enters, k)) ∧
    (∃ (s : State) (o : Nat) (f : Flight), s.grantPick o = some (f, none)) ∧
    (∃ (s : State) (o : Nat) (f : Flight) (k : _), s.grantPick o = some (f, some k)) ∧
    (∃ (s : State) (id o : Nat) (f : Flight), s.carried id o = some f ∧ inputDie f.inp ≠ o / 4 ∧ f.resends < 16) ∧
    (∃ (s : State) (id o : Nat) (f : Flight), s.carried id o = some f ∧ inputDie f.inp ≠ o / 4 ∧ 16 ≤ f.resends) ∧
    (∃ (s : State) (id lp : Nat) (x f : Flight) (l : Leg),
      let d := (f.destOn lp).getD (0, 0)
      let u := s.dropDest f lp
      let fenced := f.group.isSome && u.fencedEp d.1
      s.carried id (lp / 128) = some x ∧ (x.destOn lp).isSome = true ∧ s.arrived lp x.pkt.cls = some (f, l) ∧ fenced = true) ∧
    (∃ (s : State) (id lp : Nat) (x f : Flight) (l : Leg),
      let d := (f.destOn lp).getD (0, 0)
      let u := s.dropDest f lp
      let fenced := f.group.isSome && u.fencedEp d.1
      s.carried id (lp / 128) = some x ∧ (x.destOn lp).isSome = true ∧ s.arrived lp x.pkt.cls = some (f, l) ∧ fenced = false ∧
      (u.link lp).st.isUp = false) ∧
    (∃ (s : State) (id lp : Nat) (x f : Flight) (l : Leg),
      let d := (f.destOn lp).getD (0, 0)
      let p := if d.1 = f.pkt.dst ∧ d.2 = f.pkt.seq then f.pkt else withHcrc { f.pkt with dst := d.1, seq := d.2 }
      let c := p.cls
      let u := s.dropDest f lp
      let fenced := f.group.isSome && u.fencedEp d.1
      s.carried id (lp / 128) = some x ∧ (x.destOn lp).isSome = true ∧ s.arrived lp x.pkt.cls = some (f, l) ∧ fenced = false ∧
      (u.link lp).st.isUp = true ∧ u.qLimit lp c < u.qCells lp c + pktCells p) ∧
    (∃ (s : State) (id lp : Nat) (x f : Flight) (l : Leg),
      let d := (f.destOn lp).getD (0, 0)
      let p := if d.1 = f.pkt.dst ∧ d.2 = f.pkt.seq then f.pkt else withHcrc { f.pkt with dst := d.1, seq := d.2 }
      let c := p.cls
      let u := s.dropDest f lp
      let e := u.earlyDrop lp p (u.qCells lp c) (u.qLimit lp c)
      let fenced := f.group.isSome && u.fencedEp d.1
      s.carried id (lp / 128) = some x ∧ (x.destOn lp).isSome = true ∧ s.arrived lp x.pkt.cls = some (f, l) ∧ fenced = false ∧
      (u.link lp).st.isUp = true ∧ u.qCells lp c + pktCells p ≤ u.qLimit lp c ∧ e.1 = .drop) ∧
    (∃ (s : State) (id lp : Nat) (x f : Flight) (l : Leg),
      let d := (f.destOn lp).getD (0, 0)
      let p := if d.1 = f.pkt.dst ∧ d.2 = f.pkt.seq then f.pkt else withHcrc { f.pkt with dst := d.1, seq := d.2 }
      let c := p.cls
      let u := s.dropDest f lp
      let e := u.earlyDrop lp p (u.qCells lp c) (u.qLimit lp c)
      let fenced := f.group.isSome && u.fencedEp d.1
      s.carried id (lp / 128) = some x ∧ (x.destOn lp).isSome = true ∧ s.arrived lp x.pkt.cls = some (f, l) ∧ fenced = false ∧
      (u.link lp).st.isUp = true ∧ u.qCells lp c + pktCells p ≤ u.qLimit lp c ∧ e.1 ≠ .drop) ∧
    (∃ (s : State) (lp : Nat) (f : Flight), s.sending lp = some f) ∧
    (∃ (s : State) (lp : Nat), s.sending lp = none ∧ (s.link lp).resendFrom.isSome = true) ∧
    (∃ (s : State) (lp : Nat),
      let g := ((s.guardHolds lp).replayStalls lp).pickClass lp
      s.sending lp = none ∧ (s.link lp).resendFrom.isSome = false ∧ g.1 = none) ∧
    (∃ (s : State) (lp : Nat) (c : _) (f : Flight),
      let g := ((s.guardHolds lp).replayStalls lp).pickClass lp
      s.sending lp = none ∧ (s.link lp).resendFrom.isSome = false ∧ g.1 = some c ∧ g.2.headOf lp c = some f) ∧
    (∃ (s : State) (q : Nat) (d : DrzFrame),
      let u : State := { s with sw := { s.sw with drz := (takeFirst (· == d) s.sw.drz).elim s.sw.drz (·.2) } }
      let a := Reg.RING_DRZ_CAP q
      let depth := 1024 * min 1024 (max 1 (u.fld a Fld.RING_DRZ_CAP_BURST))
      let tok := match Tbl.find u.sw.drzTok q with
          | some x => fillBucket x.tc x.at_ u.time.ticks (100 * min 256 (u.fld a Fld.RING_DRZ_CAP_RATE)) depth
          | none => depth * 6250
      s.nextDrizzle q = some d ∧ 288 * 6250 ≤ tok) ∧
    (∃ (s : State) (q : Nat) (d : DrzFrame),
      let u : State := { s with sw := { s.sw with drz := (takeFirst (· == d) s.sw.drz).elim s.sw.drz (·.2) } }
      let a := Reg.RING_DRZ_CAP q
      let depth := 1024 * min 1024 (max 1 (u.fld a Fld.RING_DRZ_CAP_BURST))
      let tok := match Tbl.find u.sw.drzTok q with
          | some x => fillBucket x.tc x.at_ u.time.ticks (100 * min 256 (u.fld a Fld.RING_DRZ_CAP_RATE)) depth
          | none => depth * 6250
      s.nextDrizzle q = some d ∧ tok < 288 * 6250) :=
  ⟨⟨(upLink 0), 0, (dataHd 0), ({ plain with hcrc := 0 }), false, rHcrc, by decide +kernel⟩,
   ⟨(((upLink 0).setFlag (polCfg 0 0) Fld.PT_POL_CIR_RED_DROP true).setFlag (polCfg 0 0) Fld.PT_POL_CIR_AWARE true), 0, (dataHd 0), (withHcrc
     (withColour plain 2)), false, by decide +kernel⟩,
   ⟨(upLink 0), 0, (dataHd 0), plain, false, by decide +kernel⟩,
   ⟨(rxed aRx), 0, true, aRx, by decide +kernel⟩,
   ⟨(rxed aRx), 0, 7, false, false, false, aRx, rLength, by decide +kernel⟩,
   ⟨(rxed aRx), 0, (pktLen plain), false, false, false, aRx, by decide +kernel⟩,
   ⟨(staged up), ((nx (staged up)).2), 0, ((nx (staged up)).1), by decide +kernel⟩,
   ⟨(withFlight { up with fwt := { up.fwt with sluice := [0] } } fnFlight), ((nx (withFlight { up with fwt := { up.fwt with sluice := [0] } }
     fnFlight)).2), 0, fnFlight, rStale, ([Cnt.FWT_STALE_SRC 0]), by decide +kernel⟩,
   ⟨(withFlight up fnFlight), ((nx (withFlight up fnFlight)).2), 0, fnFlight, by decide +kernel⟩,
   ⟨(staged up), ((nx (staged up)).2), 0, ((nx (staged up)).1), ((lookDrop (staged up)).1), ((lookDrop (staged up)).2), ((lookAt (staged up)).2),
     by decide +kernel⟩,
   ⟨(gstaged (withPipe up rowed)), ((nx (gstaged (withPipe up rowed))).2), 0, gflight, ((lookGo (gstaged (withPipe up rowed))).1), ((lookGo (gstaged
     (withPipe up rowed))).2), ((lookAt (gstaged (withPipe up rowed))).2), by decide +kernel⟩,
   ⟨(gstaged (withPipe up floods)), ((nx (gstaged (withPipe up floods))).2), 0, gflight, ((lookGo (gstaged (withPipe up floods))).1), ((lookGo
     (gstaged (withPipe up floods))).2), ((lookAt (gstaged (withPipe up floods))).2), by decide +kernel⟩,
   ⟨(gstaged (withPipe (upLink 0) rowed)), ((nx (gstaged (withPipe (upLink 0) rowed))).2), 0, gflight, ((lookGo (gstaged (withPipe (upLink 0)
     rowed))).1), ((lookGo (gstaged (withPipe (upLink 0) rowed))).2), ((lookAt (gstaged (withPipe (upLink 0) rowed))).2), by decide +kernel⟩,
   ⟨(legged none), 0, 0, 0, false, (entering none), true, ((((legged none).ringPick 0 0).getD (landed, false, 0)).2.2), by decide +kernel⟩,
   ⟨(legged (some 0)), 0, 0, 0, false, (entering (some 0)), true, ((((legged (some 0)).ringPick 0 0).getD (landed, false, 0)).2.2),
     by decide +kernel⟩,
   ⟨(legged (some 0)), 0, 0, 0, false, (entering (some 0)), true, ((((legged (some 0)).ringPick 0 0).getD (landed, false, 0)).2.2),
     by decide +kernel⟩,
   ⟨(withFlight up (waiting 7)), 0, (waiting 7), by decide +kernel⟩,
   ⟨(withFlight up (waiting 0)), 0, (waiting 0), 0, by decide +kernel⟩,
   ⟨(withFlight up { landing with stage := .toOutput 4 }), 0, 4, ({ landing with stage := .toOutput 4 }), by decide +kernel⟩,
   ⟨(withFlight up { landing with stage := .toOutput 4, resends := 16 }), 0, 4, ({ landing with stage := .toOutput 4, resends := 16 }),
     by decide +kernel⟩,
   ⟨({ landAt (upLink 0) { landing with group := some 1 } with fences := [(0, fenced 0 0)] }), 0, 0, ({ landing with group := some 1 }), ({ landing
     with group := some 1 }), landed, by decide +kernel⟩,
   ⟨(landAt up landing), 0, 0, landing, landing, landed, by decide +kernel⟩,
   ⟨(landAt ((upLink 0).setFld (Reg.QM_LIMIT 0 0 0) Fld.QM_LIMIT_LIMIT 0) landing), 0, 0, landing, landing, landed, by decide +kernel⟩,
   ⟨(landAt ((((upLink 0).setFld (Reg.QM_LIMIT 0 0 0) Fld.QM_LIMIT_LIMIT 15).setFld (Reg.QM_PROF 0 0 0) Fld.QM_PROF_MAX 1).setFld (Reg.QM_PROF 0 0 0)
     Fld.QM_PROF_MIN 0 |>.setFld (Reg.QM_PROF 0 0 0) Fld.QM_PROF_ACTION 0) landing), 0, 0, landing, landing, landed, by decide +kernel⟩,
   ⟨(landAt (upLink 0) landing), 0, 0, landing, landing, landed, by decide +kernel⟩,
   ⟨(withFlight up (flight (.cutting 0))), 0, (flight (.cutting 0)), by decide +kernel⟩,
   ⟨(up.setLink 0 { LinkSt.init with st := .up, resendFrom := some 0 }), 0, by decide +kernel⟩,
   ⟨(withFlight up fnFlight), 0, by decide +kernel⟩,
   ⟨sendable, 0, 7, ({ flight (.queued 0) with pkt := sealed { plain with cls := 7, typ := 0x12 } }), by decide +kernel⟩,
   ⟨drzed, 0, aDrz, by decide +kernel⟩,
   ⟨({ drzed with sw := { drzed.sw with drzTok := [(0, ⟨0, 0, 0⟩)] } }), 0, aDrz, by decide +kernel⟩⟩

theorem witness_SwitchRegistersComplete :
    (∃ (s : State) (t j c v : Nat),
      let a := Reg.QM_LIMIT t j c
      let old := s.fld a Fld.QM_LIMIT_LIMIT
      let new := v % 16384
      let sum := (List.range 64).foldl (fun n k => n + s.fld (Reg.QM_LIMIT t (k / 8) (k % 8)) Fld.QM_LIMIT_LIMIT) 0
      s.pwr.held = false ∧ s.pageBusy (pg 5 t) = false ∧ (s.pageLocked (pg 5 t) = false ∨ old = new) ∧ sum - old + new ≤ 12288) ∧
    (∃ (s : State) (t j c v : Nat),
      let a := Reg.QM_LIMIT t j c
      let old := s.fld a Fld.QM_LIMIT_LIMIT
      let new := v % 16384
      let sum := (List.range 64).foldl (fun n k => n + s.fld (Reg.QM_LIMIT t (k / 8) (k % 8)) Fld.QM_LIMIT_LIMIT) 0
      s.pwr.held = false ∧ s.pageBusy (pg 5 t) = false ∧ (s.pageLocked (pg 5 t) = false ∨ old = new) ∧ 12288 < sum - old + new) ∧
    (∃ (s : State) (t j c v : Nat),
      let a := Reg.QM_LIMIT t j c
      let old := s.fld a Fld.QM_LIMIT_LIMIT
      let new := v % 16384
      s.pwr.held = false ∧ s.pageBusy (pg 5 t) = false ∧ s.pageLocked (pg 5 t) = true ∧ old ≠ new) ∧
    (∃ (s : State) (t : Nat), s.pwr.held = false ∧ s.pageBusy (pg 4 t) = false) ∧
    (∃ (s : State) (t v : Nat), s.pwr.held = false ∧ s.pageBusy (pg 4 t) = false ∧ bit 16 v = false) ∧
    (∃ (s : State) (t v : Nat), s.pwr.held = false ∧ s.pageBusy (pg 4 t) = false ∧ bit 16 v = true) ∧
    (∃ (s : State) (t v seed : Nat), s.pwr.held = false ∧ s.pageBusy (pg 5 t) = false ∧ seed < 65536 ∧ bit 0 v = true) ∧
    (∃ (s : State) (t seed : Nat), s.pwr.held = false ∧ s.pageBusy (pg 5 t) = false ∧ seed < 65536) ∧
    (∃ (s : State) (q : Nat), s.pwr.held = false ∧ s.pageBusy (pg 7 q) = false) :=
  ⟨⟨up, 0, 0, 0, 0, by decide +kernel⟩,
   ⟨up, 0, 0, 0, 16383, by decide +kernel⟩,
   ⟨(up.setFlag (Reg.PAGE_CTRL (pg 5 0)) Fld.PAGE_CTRL_LOCK true), 0, 0, 0, 1, by decide +kernel⟩,
   ⟨up, 0, by decide +kernel⟩,
   ⟨up, 0, 16383, by decide +kernel⟩,
   ⟨up, 0, 65536, by decide +kernel⟩,
   ⟨up, 0, 16383, 0, by decide +kernel⟩,
   ⟨up, 0, 0, by decide +kernel⟩,
   ⟨up, 0, by decide +kernel⟩⟩

theorem witness_TideCompletes :
    (∃ (s : State) (p e : Nat) (l : Launch),
      let u := s.elapseToDev (cToDev l.t)
      firstLaunch (s.portTide p).launches = some (e, l) ∧ u.launchActs p = false) ∧
    (∃ (s : State) (p e : Nat) (l : Launch),
      let u := s.elapseToDev (cToDev l.t)
      let full := (if u.isSplit p then [2 * p, 2 * p + 1] else [2 * p]).filter fun lp => (u.headOf lp 6).isSome
      firstLaunch (s.portTide p).launches = some (e, l) ∧ u.launchActs p = true ∧ (full.any fun lp => (u.sending lp).isSome) = true) ∧
    (∃ (s : State) (p e : Nat) (l : Launch),
      let u := s.elapseToDev (cToDev l.t)
      let full := (if u.isSplit p then [2 * p, 2 * p + 1] else [2 * p]).filter fun lp => (u.headOf lp 6).isSome
      firstLaunch (s.portTide p).launches = some (e, l) ∧ u.launchActs p = true ∧ (full.any fun lp => (u.sending lp).isSome) = false ∧ full = []) ∧
    (∃ (s : State) (p e : Nat) (l : Launch),
      let u := s.elapseToDev (cToDev l.t)
      let full := (if u.isSplit p then [2 * p, 2 * p + 1] else [2 * p]).filter fun lp => (u.headOf lp 6).isSome
      firstLaunch (s.portTide p).launches = some (e, l) ∧ u.launchActs p = true ∧ (full.any fun lp => (u.sending lp).isSome) = false ∧ full ≠ []) ∧
    (∃ (s : State) (h : CmdHdr) (off : Nat) (ls : List PkgList) (t c : Nat),
      let a := s.start h 0x0801
      s.takes h 0x0801 true = true ∧ h.target = 0 ∧ a.tidePackage off = .ok (ls, t, c)) ∧
    (∃ (s : State) (h : CmdHdr) (off st : Nat),
      let a := s.start h 0x0801
      s.takes h 0x0801 true = true ∧ h.target = 0 ∧ a.tidePackage off = .error st) ∧
    (∃ (s : State) (h : CmdHdr), s.takes h 0x0801 true = true ∧ h.target ≠ 0) ∧
    (∃ (s : State) (h : CmdHdr), s.takes h 0x0802 true = true ∧ h.target ≤ 511) ∧
    (∃ (s : State) (h : CmdHdr), s.takes h 0x0802 true = true ∧ 511 < h.target) ∧
    (∃ (s : State) (h : CmdHdr),
      let a := s.start h 0x0803
      s.takes h 0x0803 true = true ∧ h.target ≤ 511 ∧ (a.portTide h.target).hasActive = true) ∧
    (∃ (s : State) (h : CmdHdr),
      let a := s.start h 0x0803
      s.takes h 0x0803 true = true ∧ h.target ≤ 511 ∧ (a.portTide h.target).hasActive = false) ∧
    (∃ (s : State) (h : CmdHdr), s.takes h 0x0803 true = true ∧ 511 < h.target) ∧
    (∃ (s : State) (h : CmdHdr), s.takes h 0x0804 true = true ∧ 511 < h.target) ∧
    (∃ (s : State) (h : CmdHdr) (e act : Nat), s.takes h 0x0804 true = true ∧ h.target ≤ 511 ∧ (15 < e ∨ 1 < act)) ∧
    (∃ (s : State) (h : CmdHdr) (e : Nat), s.takes h 0x0804 true = true ∧ h.target ≤ 511 ∧ e ≤ 15) ∧
    (∃ (s : State) (h : CmdHdr) (e time : Nat),
      let a := s.start h 0x0804
      s.takes h 0x0804 true = true ∧ h.target ≤ 511 ∧ e ≤ 15 ∧ a.time.now + 2000 * 2 ^ 32 ≤ fromShort time) ∧
    (∃ (s : State) (h : CmdHdr) (e time : Nat),
      let a := s.start h 0x0804
      s.takes h 0x0804 true = true ∧ h.target ≤ 511 ∧ e ≤ 15 ∧ fromShort time < a.time.now + 2000 * 2 ^ 32) ∧
    (∃ (s : State) (h : CmdHdr), s.takes h 0x0805 true = true ∧ 511 < h.target) ∧
    (∃ (s : State) (h : CmdHdr) (bank i : Nat) (e : _),
      let a := s.start h 0x0805
      let entry := (((a.portTide h.target).bank bank).entries)[i]?
      s.takes h 0x0805 true = true ∧ h.target ≤ 511 ∧ bank < 2 ∧ entry = some e) ∧
    (∃ (s : State) (h : CmdHdr) (bank i : Nat),
      let a := s.start h 0x0805
      let entry := (((a.portTide h.target).bank bank).entries)[i]?
      s.takes h 0x0805 true = true ∧ h.target ≤ 511 ∧ (2 ≤ bank ∨ entry = none)) ∧
    (∃ (s : State) (p : Nat),
      let reg := Reg.TIDE_PORT_CFG (p / 8) (p % 8)
      s.pwr.held = false ∧ s.pageBusy (pg 8 (p / 8)) = false ∧ s.flag reg Fld.TIDE_PORT_CFG_LIST_EN = true ∧ p % 32 = 0) ∧
    (∃ (s : State) (p : Nat),
      let reg := Reg.TIDE_PORT_CFG (p / 8) (p % 8)
      s.pwr.held = false ∧ s.pageBusy (pg 8 (p / 8)) = false ∧ s.flag reg Fld.TIDE_PORT_CFG_LIST_EN = true ∧ p % 32 ≠ 0) ∧
    (∃ (s : State) (p : Nat),
      let reg := Reg.TIDE_PORT_CFG (p / 8) (p % 8)
      s.pwr.held = false ∧ s.pageBusy (pg 8 (p / 8)) = false ∧ s.flag reg Fld.TIDE_PORT_CFG_LIST_EN = true) ∧
    (∃ (s : State) (p : Nat),
      let reg := Reg.TIDE_PORT_CFG (p / 8) (p % 8)
      s.pwr.held = false ∧ s.pageBusy (pg 8 (p / 8)) = false ∧ s.flag reg Fld.TIDE_PORT_CFG_LIST_EN = false ∧ (s.portTide p).hasActive = true) ∧
    (∃ (s : State) (p : Nat),
      let reg := Reg.TIDE_PORT_CFG (p / 8) (p % 8)
      s.pwr.held = false ∧ s.pageBusy (pg 8 (p / 8)) = false ∧ s.flag reg Fld.TIDE_PORT_CFG_LIST_EN = false ∧ (s.portTide p).hasActive = false) ∧
    (∃ (s : State) (p : Nat),
      let reg := Reg.TIDE_PORT_CFG (p / 8) (p % 8)
      s.pwr.held = false ∧ s.pageBusy (pg 8 (p / 8)) = false ∧ s.flag reg Fld.TIDE_PORT_CFG_LIST_EN = false) ∧
    (∃ (s : State) (p : Nat), s.pwr.held = false ∧ s.pageBusy (pg 8 (p / 8)) = false) ∧
    (∃ (s : State) (t : Nat), s.pwr.held = false ∧ s.pageBusy (pg 8 t) = false) :=
  ⟨⟨(up.setPortTide 0 { PortTide.init with launches := [(3, ⟨0, 0⟩)] }), 0, 3, ⟨0, 0⟩, by decide +kernel⟩,
   ⟨({ (((up.setTimeState 2).setFld (Reg.TIDE_PORT_CFG 0 0) Fld.TIDE_PORT_CFG_TC6_MODE 1).setPortTide 0 { PortTide.init with launches := [(3, ⟨0,
     0⟩)] }) with sw := { up.sw with flights := [tc6 (.queued 0), tc6 (.cutting 0)] } }), 0, 3, ⟨0, 0⟩, by decide +kernel⟩,
   ⟨(((up.setTimeState 2).setFld (Reg.TIDE_PORT_CFG 0 0) Fld.TIDE_PORT_CFG_TC6_MODE 1).setPortTide 0 { PortTide.init with launches := [(3, ⟨0, 0⟩)]
     }), 0, 3, ⟨0, 0⟩, by decide +kernel⟩,
   ⟨(withFlight ((((up.setTimeState 2).setFld (Reg.TIDE_PORT_CFG 0 0) Fld.TIDE_PORT_CFG_TC6_MODE 1).setPortTide 0 { PortTide.init with launches :=
     [(3, ⟨0, 0⟩)] })) (tc6 (.queued 0))), 0, 3, ⟨0, 0⟩, by decide +kernel⟩,
   ⟨(stage useUp tideImage), ⟨.firmware, 0, false, false, 0⟩, 0, ([⟨0, ⟨true, 0, 8, 0, [8 + 2 ^ 48 * 0x7F]⟩⟩]), 2000, (leAt 24 4 tideImage),
     by decide +kernel, by decide +kernel, okOf (by decide +kernel)⟩,
   ⟨(up.setPortTide 0 { PortTide.init with bank0 := ⟨true, 0, 8, 0, [3]⟩ }), ⟨.firmware, 0, false, false, 0⟩, 0, 0x100, by decide +kernel,
     by decide +kernel, errorOf (by decide +kernel)⟩,
   ⟨(up.setPortTide 0 { PortTide.init with bank0 := ⟨true, 0, 8, 0, [3]⟩ }), ⟨.firmware, 0, false, false, 1⟩, by decide +kernel⟩,
   ⟨(up.setPortTide 0 { PortTide.init with bank0 := ⟨true, 0, 8, 0, [3]⟩ }), ⟨.firmware, 0, false, false, 0⟩, by decide +kernel⟩,
   ⟨(up.setPortTide 0 { PortTide.init with bank0 := ⟨true, 0, 8, 0, [3]⟩ }), ⟨.firmware, 0, false, false, 512⟩, by decide +kernel⟩,
   ⟨((up.setFld (Reg.TIDE_PORT_CFG 0 0) Fld.TIDE_PORT_CFG_LIST_EN 0).setPortTide 0 { PortTide.init with hasActive := true }), ⟨.firmware, 0, false,
     false, 0⟩, by decide +kernel⟩,
   ⟨(up.setPortTide 0 { PortTide.init with bank0 := ⟨true, 0, 8, 0, [3]⟩ }), ⟨.firmware, 0, false, false, 0⟩, by decide +kernel⟩,
   ⟨(up.setPortTide 0 { PortTide.init with bank0 := ⟨true, 0, 8, 0, [3]⟩ }), ⟨.firmware, 0, false, false, 512⟩, by decide +kernel⟩,
   ⟨(up.setPortTide 0 { PortTide.init with bank0 := ⟨true, 0, 8, 0, [3]⟩ }), ⟨.firmware, 0, false, false, 512⟩, by decide +kernel⟩,
   ⟨(up.setPortTide 0 { PortTide.init with bank0 := ⟨true, 0, 8, 0, [3]⟩ }), ⟨.firmware, 0, false, false, 0⟩, 3, 2, by decide +kernel⟩,
   ⟨(up.setPortTide 0 { PortTide.init with bank0 := ⟨true, 0, 8, 0, [3]⟩ }), ⟨.firmware, 0, false, false, 0⟩, 3, by decide +kernel⟩,
   ⟨(up.setPortTide 0 { PortTide.init with bank0 := ⟨true, 0, 8, 0, [3]⟩ }), ⟨.firmware, 0, false, false, 0⟩, 3, 2000, by decide +kernel⟩,
   ⟨(up.setPortTide 0 { PortTide.init with bank0 := ⟨true, 0, 8, 0, [3]⟩ }), ⟨.firmware, 0, false, false, 0⟩, 3, 0, by decide +kernel⟩,
   ⟨(up.setPortTide 0 { PortTide.init with bank0 := ⟨true, 0, 8, 0, [3]⟩ }), ⟨.firmware, 0, false, false, 512⟩, by decide +kernel⟩,
   ⟨(up.setPortTide 0 { PortTide.init with bank0 := ⟨true, 0, 8, 0, [3]⟩ }), ⟨.firmware, 0, false, false, 0⟩, 0, 0, 3, by decide +kernel⟩,
   ⟨(up.setPortTide 0 { PortTide.init with bank0 := ⟨true, 0, 8, 0, [3]⟩ }), ⟨.firmware, 0, false, false, 0⟩, 0, 1, by decide +kernel⟩,
   ⟨(up.setPortTide 0 { PortTide.init with bank0 := ⟨true, 0, 8, 0, [3]⟩ }), 0, by decide +kernel⟩,
   ⟨(up.setPortTide 0 { PortTide.init with bank0 := ⟨true, 0, 8, 0, [3]⟩ }), 1, by decide +kernel⟩,
   ⟨(up.setPortTide 0 { PortTide.init with bank0 := ⟨true, 0, 8, 0, [3]⟩ }), 0, by decide +kernel⟩,
   ⟨((up.setFld (Reg.TIDE_PORT_CFG 0 0) Fld.TIDE_PORT_CFG_LIST_EN 0).setPortTide 0 { PortTide.init with hasActive := true }), 0, by decide +kernel⟩,
   ⟨(up.setFld (Reg.TIDE_PORT_CFG 0 0) Fld.TIDE_PORT_CFG_LIST_EN 0), 0, by decide +kernel⟩,
   ⟨((up.setFld (Reg.TIDE_PORT_CFG 0 0) Fld.TIDE_PORT_CFG_LIST_EN 0).setPortTide 0 { PortTide.init with hasActive := true }), 0, by decide +kernel⟩,
   ⟨(up.setPortTide 0 { PortTide.init with bank0 := ⟨true, 0, 8, 0, [3]⟩ }), 0, by decide +kernel⟩,
   ⟨(up.setPortTide 0 { PortTide.init with bank0 := ⟨true, 0, 8, 0, [3]⟩ }), 2000, by decide +kernel⟩⟩

theorem witness_CausewayCompletes :
    (∃ (s : State) (n t : Nat), s.cwTakeover n = some t ∧ s.tideState (32 * n) ≠ 2 ∧ s.sameTakeover n = false) ∧
    (∃ (s : State) (h : CmdHdr) (off : Nat) (bs : List (Nat × List Nat)) (g t c : Nat),
      let a := s.start h 0x0A01
      s.takes h 0x0A01 true = true ∧ h.target = 0 ∧ a.cwPackage off = .ok (bs, g, t, c)) ∧
    (∃ (s : State) (h : CmdHdr) (off st : Nat),
      let a := s.start h 0x0A01
      s.takes h 0x0A01 true = true ∧ h.target = 0 ∧ a.cwPackage off = .error st) ∧
    (∃ (s : State) (h : CmdHdr), s.takes h 0x0A01 true = true ∧ h.target ≠ 0) ∧
    (∃ (s : State) (h : CmdHdr),
      let n := h.target
      s.takes h 0x0A02 true = true ∧ 15 < n) ∧
    (∃ (s : State) (h : CmdHdr) (act : Nat),
      let n := h.target
      s.takes h 0x0A02 true = true ∧ n ≤ 15 ∧ 1 < act) ∧
    (∃ (s : State) (h : CmdHdr) (src dst : Nat),
      let a := s.start h 0x0A02
      let n := h.target
      s.takes h 0x0A02 true = true ∧ n ≤ 15 ∧ a.standingRefused n src dst = none) ∧
    (∃ (s : State) (h : CmdHdr) (src dst st : Nat),
      let a := s.start h 0x0A02
      let n := h.target
      s.takes h 0x0A02 true = true ∧ n ≤ 15 ∧ a.standingRefused n src dst = some st) ∧
    (∃ (s : State) (h : CmdHdr) (src dst : Nat),
      let a := s.start h 0x0A02
      let n := h.target
      s.takes h 0x0A02 true = true ∧ n ≤ 15 ∧ (mapPairs (a.eng n).standing).contains (src, dst) = false) ∧
    (∃ (s : State) (h : CmdHdr) (src dst : Nat),
      let a := s.start h 0x0A02
      let n := h.target
      s.takes h 0x0A02 true = true ∧ n ≤ 15 ∧ (mapPairs (a.eng n).standing).contains (src, dst) = true) ∧
    (∃ (s : State) (n : Nat) (b : CwBuild) (rest : List CwBuild) (h : _), (s.eng n).builds = b :: rest ∧ b.hdr = some h) ∧
    (∃ (s : State) (n : Nat) (b : CwBuild) (rest : List CwBuild), (s.eng n).builds = b :: rest ∧ b.hdr = none) ∧
    (∃ (s : State) (h : CmdHdr), s.takes h 0x0A03 true = true ∧ h.target ≤ 15) ∧
    (∃ (s : State) (h : CmdHdr), s.takes h 0x0A03 true = true ∧ 15 < h.target) ∧
    (∃ (s : State) (n : Nat), s.pwr.held = false ∧ s.pageBusy (pg 10 n) = false) :=
  ⟨⟨(up.setFlag (Reg.CW_STATUS 0) Fld.CW_STATUS_TAKEOVER_PENDING true), 0, 0, by decide +kernel⟩,
   ⟨(stage up cwImage), ⟨.firmware, 0, false, false, 0⟩, 0, ([(0, [0])]), 0, 100000, (leAt 24 4 cwImage), by decide +kernel, by decide +kernel,
     okOf (by decide +kernel)⟩,
   ⟨(up.setFlag (Reg.CW_STATUS 0) Fld.CW_STATUS_TAKEOVER_PENDING true), ⟨.firmware, 0, false, false, 0⟩, 0, 0x100, by decide +kernel,
     by decide +kernel, errorOf (by decide +kernel)⟩,
   ⟨(up.setFlag (Reg.CW_STATUS 0) Fld.CW_STATUS_TAKEOVER_PENDING true), ⟨.firmware, 0, false, false, 1⟩, by decide +kernel⟩,
   ⟨(up.setFlag (Reg.CW_STATUS 0) Fld.CW_STATUS_TAKEOVER_PENDING true), ⟨.firmware, 0, false, false, 512⟩, by decide +kernel⟩,
   ⟨(up.setFlag (Reg.CW_STATUS 0) Fld.CW_STATUS_TAKEOVER_PENDING true), ⟨.firmware, 0, false, false, 0⟩, 2, by decide +kernel⟩,
   ⟨(useUp.setFld (Reg.PT_PORT_CFG 0 1) Fld.PT_PORT_CFG_ROLE 1), ⟨.firmware, 0, false, false, 0⟩, 0, 0, by decide +kernel⟩,
   ⟨(up.setFlag (Reg.CW_STATUS 0) Fld.CW_STATUS_TAKEOVER_PENDING true), ⟨.firmware, 0, false, false, 0⟩, 0, 1, 0x102, by decide +kernel⟩,
   ⟨(up.setFlag (Reg.CW_STATUS 0) Fld.CW_STATUS_TAKEOVER_PENDING true), ⟨.firmware, 0, false, false, 0⟩, 0, 1, by decide +kernel⟩,
   ⟨(up.setEng 0 { up.eng 0 with standing := 33 }), ⟨.firmware, 0, false, false, 0⟩, 0, 1, by decide +kernel⟩,
   ⟨(up.setEng 0 { up.eng 0 with builds := [aBuild (some ⟨.firmware, 0, false, false, 0⟩)] }), 0, (aBuild (some ⟨.firmware, 0, false, false, 0⟩)),
     [], ⟨.firmware, 0, false, false, 0⟩, by decide +kernel⟩,
   ⟨(up.setEng 0 { up.eng 0 with builds := [aBuild none] }), 0, (aBuild none), [], by decide +kernel⟩,
   ⟨(up.setFlag (Reg.CW_STATUS 0) Fld.CW_STATUS_TAKEOVER_PENDING true), ⟨.firmware, 0, false, false, 0⟩, by decide +kernel⟩,
   ⟨(up.setFlag (Reg.CW_STATUS 0) Fld.CW_STATUS_TAKEOVER_PENDING true), ⟨.firmware, 0, false, false, 512⟩, by decide +kernel⟩,
   ⟨(up.setFlag (Reg.CW_STATUS 0) Fld.CW_STATUS_TAKEOVER_PENDING true), 0, by decide +kernel⟩⟩

theorem witness_TableCommandsComplete :
    (∃ (s : State) (h : CmdHdr) (leaf count : Nat) (ms : List Nat),
      let a := s.start h 0x0601
      let xs := (List.range count).map fun k => ms.getD k 0
      s.takes h 0x0601 true = true ∧ h.target = 0 ∧ leaf < a.leaves ∧ count ≤ 512 / a.leaves ∧ a.leafCheck leaf [] xs = none) ∧
    (∃ (s : State) (h : CmdHdr) (leaf count : Nat) (ms : List Nat) (st : Nat),
      let a := s.start h 0x0601
      let xs := (List.range count).map fun k => ms.getD k 0
      s.takes h 0x0601 true = true ∧ h.target = 0 ∧ leaf < a.leaves ∧ count ≤ 512 / a.leaves ∧ a.leafCheck leaf [] xs = some st) ∧
    (∃ (s : State) (h : CmdHdr) (leaf count : Nat),
      let a := s.start h 0x0601
      s.takes h 0x0601 true = true ∧ h.target = 0 ∧ (a.leaves ≤ leaf ∨ 512 / a.leaves < count)) ∧
    (∃ (s : State) (h : CmdHdr) (leaf first count : Nat),
      let a := s.start h 0x0602
      let n := if count = 0 then 256 else count
      s.takes h 0x0602 true = true ∧ h.target = 0 ∧ leaf < a.leaves ∧ first + n ≤ 256) ∧
    (∃ (s : State) (h : CmdHdr) (leaf first count : Nat),
      let a := s.start h 0x0602
      let n := if count = 0 then 256 else count
      s.takes h 0x0602 true = true ∧ h.target = 0 ∧ (a.leaves ≤ leaf ∨ 256 < first + n)) ∧
    (∃ (s : State) (h : CmdHdr) (kind target : Nat),
      let a := s.start h 0x0603
      s.takes h 0x0603 true = true ∧ h.target = 0 ∧ a.ovrBad kind target = false) ∧
    (∃ (s : State) (h : CmdHdr) (kind target : Nat),
      let a := s.start h 0x0603
      s.takes h 0x0603 true = true ∧ h.target = 0 ∧ a.ovrBad kind target = true) ∧
    (∃ (s : State) (h : CmdHdr), s.takes h 0x0604 true = true ∧ h.target = 0) ∧
    (∃ (s : State) (h : CmdHdr) (first : Nat), s.takes h 0x0605 true = true ∧ h.target = 0 ∧ first % 64 = 0 ∧ first ≤ 32704) ∧
    (∃ (s : State) (h : CmdHdr) (first : Nat), s.takes h 0x0605 true = true ∧ h.target = 0 ∧ (first % 64 ≠ 0 ∨ 32704 < first)) ∧
    (∃ (s : State) (h : CmdHdr) (kind base count : Nat),
      s.takes h 0x0606 true = true ∧ h.target = 0 ∧ (3 ≤ kind ∨ count = 0 ∨ 131072 < count ∨ 262144 < base + count)) ∧
    (∃ (s : State) (h : CmdHdr) (group kind gen desc base count : Nat),
      let a := s.start h 0x0606
      let g := group % 2 ^ 20
      let e := mkGrp kind gen g base count (if kind = 0 then desc else 0)
      s.takes h 0x0606 true = true ∧ h.target = 0 ∧ kind < 3 ∧ count ≠ 0 ∧ count ≤ 131072 ∧ base + count ≤ 262144 ∧
      insertEntry grpKind (a.dieTbl 0).grp e = none) ∧
    (∃ (s : State) (h : CmdHdr) (group kind gen desc base count : Nat),
      let a := s.start h 0x0606
      let g := group % 2 ^ 20
      let e := mkGrp kind gen g base count (if kind = 0 then desc else 0)
      s.takes h 0x0606 true = true ∧ h.target = 0 ∧ kind < 3 ∧ count ≠ 0 ∧ count ≤ 131072 ∧ base + count ≤ 262144 ∧
      (insertEntry grpKind (a.dieTbl 0).grp e).isSome = true ∧ a.groupGen g = some gen) ∧
    (∃ (s : State) (h : CmdHdr) (group kind gen desc base count : Nat),
      let a := s.start h 0x0606
      let g := group % 2 ^ 20
      let e := mkGrp kind gen g base count (if kind = 0 then desc else 0)
      s.takes h 0x0606 true = true ∧ h.target = 0 ∧ kind < 3 ∧ count ≠ 0 ∧ count ≤ 131072 ∧ base + count ≤ 262144 ∧
      (insertEntry grpKind (a.dieTbl 0).grp e).isSome = true ∧ a.groupGen g ≠ some gen) ∧
    (∃ (s : State) (h : CmdHdr), s.takes h 0x0607 true = true ∧ h.target = 0) ∧
    (∃ (s : State) (h : CmdHdr) (first count : Nat),
      let a := s.start h 0x0608
      s.takes h 0x0608 true = true ∧ h.target = 0 ∧ first + count ≤ 262144 ∧ a.slotsUsed first count = false) ∧
    (∃ (s : State) (h : CmdHdr) (first count : Nat),
      let a := s.start h 0x0608
      s.takes h 0x0608 true = true ∧ h.target = 0 ∧ (262144 < first + count ∨ a.slotsUsed first count = true)) ∧
    (∃ (s : State) (h : CmdHdr) (off : Nat), s.takes h 0x0609 true = true ∧ h.target = 0 ∧ off % 0x200000 ≠ 0) ∧
    (∃ (s : State) (h : CmdHdr) (off crc : Nat),
      let a := s.start h 0x0609
      let img := a.staging off 0x200000
      s.takes h 0x0609 true = true ∧ h.target = 0 ∧ off % 0x200000 = 0 ∧ crc32c img ≠ crc) ∧
    (∃ (s : State) (h : CmdHdr) (off crc : Nat),
      let a := s.start h 0x0609
      let img := a.staging off 0x200000
      s.takes h 0x0609 true = true ∧ h.target = 0 ∧ off % 0x200000 = 0 ∧ crc32c img = crc) ∧
    (∃ (s : State) (h : CmdHdr) (table index : Nat) (v : _),
      let a := s.start h 0x060A
      let lim := if 4 ≤ table ∧ table ≤ 6 then 2 else 16
      s.takes h 0x060A true = true ∧ h.target < lim ∧ a.tableWord table index h.target = some v) ∧
    (∃ (s : State) (h : CmdHdr) (table index : Nat),
      let a := s.start h 0x060A
      let lim := if 4 ≤ table ∧ table ≤ 6 then 2 else 16
      s.takes h 0x060A true = true ∧ h.target < lim ∧ a.tableWord table index h.target = none) ∧
    (∃ (s : State) (h : CmdHdr) (table : Nat),
      let lim := if 4 ≤ table ∧ table ≤ 6 then 2 else 16
      s.takes h 0x060A true = true ∧ lim ≤ h.target) ∧
    (∃ (s : State) (h : CmdHdr), h.target ≠ 0 ∧ s.takes h 0x0601 true = true) ∧
    (∃ (s : State) (h : CmdHdr), h.target ≠ 0 ∧ s.takes h 0x0602 true = true) ∧
    (∃ (s : State) (h : CmdHdr) (target : Nat), h.target ≠ 0 ∧ s.takes h 0x0603 true = true) ∧
    (∃ (s : State) (h : CmdHdr), h.target ≠ 0 ∧ s.takes h 0x0604 true = true) ∧
    (∃ (s : State) (h : CmdHdr), h.target ≠ 0 ∧ s.takes h 0x0605 true = true) ∧
    (∃ (s : State) (h : CmdHdr), h.target ≠ 0 ∧ s.takes h 0x0606 true = true) ∧
    (∃ (s : State) (h : CmdHdr), h.target ≠ 0 ∧ s.takes h 0x0607 true = true) ∧
    (∃ (s : State) (h : CmdHdr), h.target ≠ 0 ∧ s.takes h 0x0608 true = true) ∧
    (∃ (s : State) (h : CmdHdr), h.target ≠ 0 ∧ s.takes h 0x0609 true = true) :=
  ⟨⟨up, ⟨.firmware, 0, false, false, 0⟩, 0, 0, [1024], by decide +kernel⟩,
   ⟨up, ⟨.firmware, 0, false, false, 0⟩, 0, 1, [1024], 0x0101, by decide +kernel⟩,
   ⟨up, ⟨.firmware, 0, false, false, 0⟩, 0, 2, by decide +kernel⟩,
   ⟨up, ⟨.firmware, 0, false, false, 0⟩, 0, 0, 1, by decide +kernel⟩,
   ⟨up, ⟨.firmware, 0, false, false, 0⟩, 0, 1, 0, by decide +kernel⟩,
   ⟨up, ⟨.firmware, 0, false, false, 0⟩, 0, 0, by decide +kernel⟩,
   ⟨up, ⟨.firmware, 0, false, false, 0⟩, 5, 0, by decide +kernel⟩,
   ⟨up, ⟨.firmware, 0, false, false, 0⟩, by decide +kernel⟩,
   ⟨up, ⟨.firmware, 0, false, false, 0⟩, 0, by decide +kernel⟩,
   ⟨up, ⟨.firmware, 0, false, false, 0⟩, 1, by decide +kernel⟩,
   ⟨up, ⟨.firmware, 0, false, false, 0⟩, 0, 262143, 0, by decide +kernel⟩,
   ⟨(withGrp fullGrp), ⟨.firmware, 0, false, false, 0⟩, 0, 0, 0, 0, 262143, 1, by decide +kernel⟩,
   ⟨(withGrp fullGrp), ⟨.firmware, 0, false, false, 0⟩, 1, 0, 1, 0, 262143, 1, by decide +kernel⟩,
   ⟨up, ⟨.firmware, 0, false, false, 0⟩, 0, 0, 0, 0, 262143, 1, by decide +kernel⟩,
   ⟨up, ⟨.firmware, 0, false, false, 0⟩, by decide +kernel⟩,
   ⟨up, ⟨.firmware, 0, false, false, 0⟩, 0, 1, by decide +kernel⟩,
   ⟨(withGrp fullGrp), ⟨.firmware, 0, false, false, 0⟩, 0, 1, by decide +kernel⟩,
   ⟨up, ⟨.firmware, 0, false, false, 0⟩, 1, by decide +kernel⟩,
   ⟨up, fwH, 0x200000, crc32c ((up.start fwH 0x0609).staging 0x200000 0x200000) + 1, by decide +kernel, by decide +kernel, by decide +kernel, crcNe
     _⟩,
   ⟨up, fwH, 0x200000, crc32c ((up.start fwH 0x0609).staging 0x200000 0x200000), by decide +kernel, by decide +kernel, by decide +kernel, Eq.refl _⟩,
   ⟨up, ⟨.firmware, 0, false, false, 1⟩, 0, 0, ((up.tableWord 0 0 1).getD 0), by decide +kernel⟩,
   ⟨up, ⟨.firmware, 0, false, false, 1⟩, 4095, 0, by decide +kernel⟩,
   ⟨up, ⟨.firmware, 0, false, false, 16⟩, 0, by decide +kernel⟩,
   ⟨up, ⟨.firmware, 0, false, false, 1⟩, by decide +kernel⟩,
   ⟨up, ⟨.firmware, 0, false, false, 1⟩, by decide +kernel⟩,
   ⟨up, ⟨.firmware, 0, false, false, 1⟩, 0, by decide +kernel⟩,
   ⟨up, ⟨.firmware, 0, false, false, 1⟩, by decide +kernel⟩,
   ⟨up, ⟨.firmware, 0, false, false, 1⟩, by decide +kernel⟩,
   ⟨up, ⟨.firmware, 0, false, false, 1⟩, by decide +kernel⟩,
   ⟨up, ⟨.firmware, 0, false, false, 1⟩, by decide +kernel⟩,
   ⟨up, ⟨.firmware, 0, false, false, 1⟩, by decide +kernel⟩,
   ⟨up, ⟨.firmware, 0, false, false, 1⟩, by decide +kernel⟩⟩

theorem witness_LearningCompletes :
    (∃ (s : State),
      let u := s.elapse 16
      (u.flag (Reg.FWT_CMP_CTRL 0) Fld.FWT_CMP_CTRL_ENABLE && !u.cmpPaused && u.tierReady 0) = true) ∧
    (∃ (s : State),
      let u := s.elapse 16
      (u.flag (Reg.FWT_CMP_CTRL 0) Fld.FWT_CMP_CTRL_ENABLE && !u.cmpPaused && u.tierReady 0) = false) ∧
    (∃ (p : Pkt), p.typ = 0x31 ∧ beAt 0 1 p.payload = 1 ∧ (pflag p fPoison = true ∨ p.payload.length ≠ 64)) ∧
    (∃ (p : Pkt), p.typ = 0x31 ∧ beAt 0 1 p.payload = 1 ∧ pflag p fPoison = false ∧ p.payload.length = 64 ∧ learnReserved p.payload = true) ∧
    (∃ (s : State) (lp : Nat) (p : Pkt),
      let t := s.takeFn lp p
      let o := beAt 16 4 p.payload
      let seq := beAt 12 4 p.payload
      let mine := feidPlane o = t.plane ∧ spineIdx o ≠ t.spine ∧ Tbl.getD t.fwt.learnSeq 0 o ≤ seq
      let leaf := beAt 8 2 p.payload % 512
      p.typ = 0x31 ∧ pflag p fPoison = false ∧ p.payload.length = 64 ∧ learnReserved p.payload = false ∧ beAt 0 1 p.payload = 1 ∧
      (¬ mine ∨ t.ovrBad 0 leaf = true)) ∧
    (∃ (s : State) (lp : Nat) (p : Pkt),
      let t := s.takeFn lp p
      let o := beAt 16 4 p.payload
      let seq := beAt 12 4 p.payload
      let feid := beAt 4 4 p.payload
      let mine := feidPlane o = t.plane ∧ spineIdx o ≠ t.spine ∧ Tbl.getD t.fwt.learnSeq 0 o ≤ seq
      let leaf := beAt 8 2 p.payload % 512
      let r := t.ovrInsert (feidKey feid) 0 (beAt 10 1 p.payload) leaf
      p.typ = 0x31 ∧ pflag p fPoison = false ∧ p.payload.length = 64 ∧ learnReserved p.payload = false ∧ beAt 0 1 p.payload = 1 ∧ mine ∧
      t.ovrBad 0 leaf = false ∧ r.1 ≠ 0) ∧
    (∃ (s : State) (lp : Nat) (p : Pkt),
      let t := s.takeFn lp p
      let o := beAt 16 4 p.payload
      let seq := beAt 12 4 p.payload
      let feid := beAt 4 4 p.payload
      let mine := feidPlane o = t.plane ∧ spineIdx o ≠ t.spine ∧ Tbl.getD t.fwt.learnSeq 0 o ≤ seq
      let leaf := beAt 8 2 p.payload % 512
      let r := t.ovrInsert (feidKey feid) 0 (beAt 10 1 p.payload) leaf
      p.typ = 0x31 ∧ pflag p fPoison = false ∧ p.payload.length = 64 ∧ learnReserved p.payload = false ∧ beAt 0 1 p.payload = 1 ∧ mine ∧
      t.ovrBad 0 leaf = false ∧ r.1 = 0) ∧
    (∃ (s : State) (lp : Nat) (p : Pkt),
      let t := s.takeFn lp p
      let o := beAt 16 4 p.payload
      let seq := beAt 12 4 p.payload
      let mine := feidPlane o = t.plane ∧ spineIdx o ≠ t.spine ∧ Tbl.getD t.fwt.learnSeq 0 o ≤ seq
      p.typ = 0x31 ∧ pflag p fPoison = false ∧ p.payload.length = 64 ∧ learnReserved p.payload = false ∧ beAt 0 1 p.payload = 2 ∧ ¬ mine) ∧
    (∃ (s : State) (lp : Nat) (p : Pkt),
      let t := s.takeFn lp p
      let o := beAt 16 4 p.payload
      let seq := beAt 12 4 p.payload
      let mine := feidPlane o = t.plane ∧ spineIdx o ≠ t.spine ∧ Tbl.getD t.fwt.learnSeq 0 o ≤ seq
      p.typ = 0x31 ∧ pflag p fPoison = false ∧ p.payload.length = 64 ∧ learnReserved p.payload = false ∧ beAt 0 1 p.payload = 2 ∧ mine) ∧
    (∃ (s : State) (lp : Nat) (p : Pkt),
      let t := s.takeFn lp p
      let o := beAt 16 4 p.payload
      p.typ = 0x31 ∧ pflag p fPoison = false ∧ p.payload.length = 64 ∧ learnReserved p.payload = false ∧ beAt 0 1 p.payload = 3 ∧
      o / 4096 = t.spineAddr 0 / 4096) ∧
    (∃ (s : State) (lp : Nat) (p : Pkt),
      let t := s.takeFn lp p
      let o := beAt 16 4 p.payload
      p.typ = 0x31 ∧ pflag p fPoison = false ∧ p.payload.length = 64 ∧ learnReserved p.payload = false ∧ beAt 0 1 p.payload = 3 ∧
      o / 4096 ≠ t.spineAddr 0 / 4096) ∧
    (∃ (s : State) (n : Nat), s.pwr.held = false ∧ s.pageBusy (pg 6 n) = false) :=
  ⟨⟨((useUp.setFld (Reg.FWT_CMP_CTRL 0) Fld.FWT_CMP_CTRL_ENABLE 1).setFlag Reg.TIER_STATUS Fld.TIER_STATUS_T1_READY true), by decide +kernel⟩,
   ⟨up, by decide +kernel⟩,
   ⟨({ learnPkt 1 0 with flags := 2 ^ fPoison }), by decide +kernel⟩,
   ⟨({ learnPkt 1 0 with payload := beBytes 1 1 ++ beBytes 1 1 ++ beBytes 62 0 }), by decide +kernel⟩,
   ⟨up, 0, (learnPkt 1 (up.spineAddr 0 + 2 ^ 20)), by decide +kernel⟩,
   ⟨(withPipe up fullPipe), 0, (learnPkt 1 4096), by decide +kernel⟩,
   ⟨up, 0, (learnPkt 1 (up.spineAddr 0 + 4096)), by decide +kernel⟩,
   ⟨up, 0, (learnPkt 2 (up.spineAddr 0)), by decide +kernel⟩,
   ⟨up, 0, (learnPkt 2 (up.spineAddr 0 + 4096)), by decide +kernel⟩,
   ⟨up, 0, (learnPkt 3 (up.spineAddr 0)), by decide +kernel⟩,
   ⟨up, 0, (learnPkt 3 4096), by decide +kernel⟩,
   ⟨up, 0, by decide +kernel⟩⟩

theorem witness_LaserModulesComplete :
    (∃ (s : State) (m k : Nat),
      ((List.range 4).all fun f => s.below m f k (s.failAt m)) = true ∧ bit k (s.fld (Reg.ELS_STATUS m) Fld.ELS_STATUS_LINE_FAIL) = false) ∧
    (∃ (s : State) (m feed : Nat),
      let u := s.feedLow m feed
      let e := 2 * m + feed / 2
      u.feedDark m feed = true ∧ bit (feed % 2) (u.fld (Reg.OE_STATUS e) Fld.OE_STATUS_FEED_DARK) = false) ∧
    (∃ (s : State) (m line : Nat) (ps : List Nat),
      let v := ((s.elapse (usTicks 1000000)).setLine m line ps).lineWarn m
      let u := (List.range 4).foldl (fun s f =>
          let x := s.feedLow m f
          if x.feedDark m f then x else x.setFld (Reg.OE_STATUS (2 * m + f / 2)) Fld.OE_STATUS_FEED_DARK
            (withBits (f % 2) (f % 2) 0 (x.fld (Reg.OE_STATUS (2 * m + f / 2)) Fld.OE_STATUS_FEED_DARK))) v
      let low := (List.range 4).any fun f => u.fld (feedReg m f line) Fld.OE_FEED_PWR_POWER == 0x8000 ||
          decide (dbm (u.fld (feedReg m f line) Fld.OE_FEED_PWR_POWER) < u.warnAt m)
      low = true) ∧
    (∃ (s : State) (m line : Nat) (ps : List Nat),
      let v := ((s.elapse (usTicks 1000000)).setLine m line ps).lineWarn m
      let u := (List.range 4).foldl (fun s f =>
          let x := s.feedLow m f
          if x.feedDark m f then x else x.setFld (Reg.OE_STATUS (2 * m + f / 2)) Fld.OE_STATUS_FEED_DARK
            (withBits (f % 2) (f % 2) 0 (x.fld (Reg.OE_STATUS (2 * m + f / 2)) Fld.OE_STATUS_FEED_DARK))) v
      let low := (List.range 4).any fun f => u.fld (feedReg m f line) Fld.OE_FEED_PWR_POWER == 0x8000 ||
          decide (dbm (u.fld (feedReg m f line) Fld.OE_FEED_PWR_POWER) < u.warnAt m)
      low = false) ∧
    (∃ (s : State) (m : Nat), s.flag (Reg.ELS_STATUS m) Fld.ELS_STATUS_LASING = true) ∧
    (∃ (s : State) (m : Nat), s.flag (Reg.ELS_STATUS m) Fld.ELS_STATUS_LASING = false) ∧
    (∃ (s : State) (m : Nat),
      let present := s.flag (Reg.ELS_STATUS m) Fld.ELS_STATUS_PRESENT
      present = true) ∧
    (∃ (s : State) (m : Nat),
      let present := s.flag (Reg.ELS_STATUS m) Fld.ELS_STATUS_PRESENT
      present = false) ∧
    (∃ (s : State) (m : Nat), s.pwr.held = false ∧ s.pageBusy (pg 11 m) = false) ∧
    (∃ (s : State) (m : Nat),
      s.flag (Reg.ELS_STATUS m) Fld.ELS_STATUS_PRESENT = true ∧ s.flag (Reg.ELS_STATUS m) Fld.ELS_STATUS_ID_OK = true ∧
      s.flag (Reg.ELS_STATUS m) Fld.ELS_STATUS_INTERLOCK = false) ∧
    (∃ (s : State) (m : Nat), s.flag (Reg.ELS_CTRL m) Fld.ELS_CTRL_LASER_EN = true ∧ s.flag (Reg.ELS_STATUS m) Fld.ELS_STATUS_LASING = false) ∧
    (∃ (s : State) (h : CmdHdr), s.takes h 0x0903 true = true ∧ h.target ≤ 23) ∧
    (∃ (s : State) (h : CmdHdr), s.takes h 0x0903 true = true ∧ 23 < h.target) :=
  ⟨⟨((List.range 4).foldl (fun s f => s.setFld (feedReg 0 f 1) Fld.OE_FEED_PWR_POWER 0xF000) up), 0, 1, by decide +kernel⟩,
   ⟨((List.range 16).foldl (fun s k => s.setFld (feedReg 0 0 k) Fld.OE_FEED_PWR_POWER 0xF000) up), 0, 0, by decide +kernel⟩,
   ⟨up, 0, 0, [], by decide +kernel⟩,
   ⟨up, 0, 1, (List.replicate 16 0x7FF), by decide +kernel⟩,
   ⟨(lined 0), 0, by decide +kernel⟩,
   ⟨up, 0, by decide +kernel⟩,
   ⟨(up.setFlag (Reg.ELS_STATUS 0) Fld.ELS_STATUS_PRESENT true), 0, by decide +kernel⟩,
   ⟨up, 0, by decide +kernel⟩,
   ⟨up, 0, by decide +kernel⟩,
   ⟨(((up.setFlag (Reg.ELS_STATUS 0) Fld.ELS_STATUS_PRESENT true).setFlag (Reg.ELS_STATUS 0) Fld.ELS_STATUS_ID_OK true).setFlag (Reg.ELS_STATUS 0)
     Fld.ELS_STATUS_INTERLOCK false), 0, by decide +kernel⟩,
   ⟨(up.setFlag (Reg.ELS_CTRL 0) Fld.ELS_CTRL_LASER_EN true), 0, by decide +kernel⟩,
   ⟨up, ⟨.firmware, 0, false, false, 0⟩, by decide +kernel⟩,
   ⟨up, ⟨.firmware, 0, false, false, 24⟩, by decide +kernel⟩⟩

theorem witness_RingsAndReedsComplete :
    (∃ (s : State) (p r : Nat) (tx : Bool), (s.ring p r tx = 2 ∨ s.ring p r tx = 3) ∧ tx = true) ∧
    (∃ (s : State) (p r : Nat) (tx : Bool) (tone : Option Nat),
      (s.ring p r tx = 2 ∨ s.ring p r tx = 3) ∧ tx = false ∧ s.occupied p = false ∧ s.flag (Reg.OE_CTRL (p / 32)) Fld.OE_CTRL_TONE_CHECK = true ∧
      tone = none) ∧
    (∃ (s : State) (p r : Nat) (tx : Bool) (tone : Option Nat) (t : _),
      (s.ring p r tx = 2 ∨ s.ring p r tx = 3) ∧ tx = false ∧ s.occupied p = false ∧ s.flag (Reg.OE_CTRL (p / 32)) Fld.OE_CTRL_TONE_CHECK = true ∧
      tone = some t) ∧
    (∃ (s : State) (p r : Nat) (tx : Bool), s.ring p r tx = 1 ∧ (tx = true ∨ s.occupied p = false) ∧ s.causeLaser p r = true) ∧
    (∃ (s : State) (p r tone : Nat) (tx : Bool),
      let v := if tx then s.setRing p r tx 2 else (s.setRing p r tx 2).setFld (reedReg p r) Fld.OE_REED_RX_TONE tone
      let w : State := { v with optics := { v.optics with lockAt := Tbl.set v.optics.lockAt 0 (4 * p + r) (v.time.ticks + 1) } }
      let lp := w.reedPort p r
      let first := w.reedLocked p r && Tbl.getD w.optics.firstLock 0 lp == 0
      s.ring p r tx = 1 ∧ (tx = true ∨ s.occupied p = false) ∧ s.causeLaser p r = false ∧ first = true) ∧
    (∃ (s : State) (p r tone : Nat) (tx : Bool),
      let v := if tx then s.setRing p r tx 2 else (s.setRing p r tx 2).setFld (reedReg p r) Fld.OE_REED_RX_TONE tone
      let w : State := { v with optics := { v.optics with lockAt := Tbl.set v.optics.lockAt 0 (4 * p + r) (v.time.ticks + 1) } }
      let lp := w.reedPort p r
      let first := w.reedLocked p r && Tbl.getD w.optics.firstLock 0 lp == 0
      s.ring p r tx = 1 ∧ (tx = true ∨ s.occupied p = false) ∧ s.causeLaser p r = false ∧ first = false) ∧
    (∃ (s : State) (p r : Nat) (tx : Bool),
      let f := s.fld (reedReg p r) Fld.OE_REED_FAILS + 1
      s.ring p r tx = 1 ∧ (tx = true ∨ s.occupied p = false) ∧ s.causeLaser p r = false ∧ f < 3) ∧
    (∃ (s : State) (p r : Nat) (tx : Bool),
      let f := s.fld (reedReg p r) Fld.OE_REED_FAILS + 1
      s.ring p r tx = 1 ∧ (tx = true ∨ s.occupied p = false) ∧ s.causeLaser p r = false ∧ 3 ≤ f) ∧
    (∃ (s : State) (p r : Nat) (tx : Bool), (tx = true ∨ s.occupied p = false) ∧ s.ring p r tx = 2) ∧
    (∃ (s : State) (p r : Nat) (tx : Bool), (tx = true ∨ s.occupied p = false) ∧ s.ring p r tx = 3) ∧
    (∃ (s : State) (p r t : Nat), Tbl.getD s.optics.lockAt 0 (4 * p + r) = t + 1 ∧ s.reedLocked p r = true) ∧
    (∃ (s : State) (p : Nat), s.timersHeld p = false) ∧
    (∃ (s : State) (h : CmdHdr),
      let a := s.start h 0x0901
      let p := h.target
      s.takes h 0x0901 true = true ∧ a.noLink p = true) ∧
    (∃ (s : State) (h : CmdHdr) (mask : Nat),
      let a := s.start h 0x0901
      let p := h.target
      let rs := bitList 4 mask
      let last := !(a.livePort p).isEmpty && (a.livePort p).all (rs.contains ·)
      s.takes h 0x0901 true = true ∧ a.noLink p = false ∧ last = true) ∧
    (∃ (s : State) (h : CmdHdr) (mask : Nat),
      let a := s.start h 0x0901
      let p := h.target
      let rs := bitList 4 mask
      let last := !(a.livePort p).isEmpty && (a.livePort p).all (rs.contains ·)
      s.takes h 0x0901 true = true ∧ a.noLink p = false ∧ last = false ∧ rs.isEmpty = true) ∧
    (∃ (s : State) (h : CmdHdr) (mask : Nat),
      let a := s.start h 0x0901
      let p := h.target
      let rs := bitList 4 mask
      let last := !(a.livePort p).isEmpty && (a.livePort p).all (rs.contains ·)
      s.takes h 0x0901 true = true ∧ a.noLink p = false ∧ last = false ∧ rs.isEmpty = false) ∧
    (∃ (s : State) (n : Nat), s.pwr.held = false ∧ s.pageBusy (pg 9 n) = false) :=
  ⟨⟨(up.setRing 0 0 true 2), 0, 0, true, by decide +kernel⟩,
   ⟨({ lockedReeds with optics := { lockedReeds.optics with lockAt := [(0, 2)] } }), 0, 0, false, none, by decide +kernel⟩,
   ⟨((up.setRing 0 0 false 2).setFlag (Reg.OE_CTRL 0) Fld.OE_CTRL_TONE_CHECK true), 0, 0, false, (some 3), 3, by decide +kernel⟩,
   ⟨((up.setRing 0 0 true 1).setFlag (reedReg 0 0) Fld.OE_REED_CAUSE_LASER true), 0, 0, true, by decide +kernel⟩,
   ⟨((lockedReeds.setRing 0 0 true 1)), 0, 0, 0, true, by decide +kernel⟩,
   ⟨(up.setRing 0 0 true 1), 0, 0, 0, true, by decide +kernel⟩,
   ⟨(up.setRing 0 0 true 1), 0, 0, true, by decide +kernel⟩,
   ⟨((up.setRing 0 0 true 1).setFld (reedReg 0 0) Fld.OE_REED_FAILS 2), 0, 0, true, by decide +kernel⟩,
   ⟨(up.setRing 0 0 true 2), 0, 0, true, by decide +kernel⟩,
   ⟨(up.setRing 0 0 true 3), 0, 0, true, by decide +kernel⟩,
   ⟨({ lockedReeds with optics := { lockedReeds.optics with lockAt := [(0, 2)] } }), 0, 0, 1, by decide +kernel⟩,
   ⟨up, 0, by decide +kernel⟩,
   ⟨up, ⟨.firmware, 0, false, false, 0⟩, by decide +kernel⟩,
   ⟨({ (useUp.setLive 0 0 true) with links := (upLink 0).links }), ⟨.firmware, 0, false, false, 0⟩, 1, by decide +kernel⟩,
   ⟨({ lockedReeds with optics := { lockedReeds.optics with lockAt := [(0, 2)] } }), ⟨.firmware, 0, false, false, 0⟩, 0, by decide +kernel⟩,
   ⟨({ lockedReeds with optics := { lockedReeds.optics with lockAt := [(0, 2)] } }), ⟨.firmware, 0, false, false, 0⟩, 1, by decide +kernel⟩,
   ⟨up, 0, by decide +kernel⟩⟩

theorem witness_MarginTestsComplete :
    (∃ (s : State) (lp : Nat),
      let m := (s.testable lp).filter fun r => !s.flag (reedReg (lp2p lp) r) Fld.OE_REED_LIVE &&
          (Tbl.getD s.optics.upFresh false lp || !s.flag (reedReg (lp2p lp) r) Fld.OE_REED_LOW_MARGIN) && !s.optics.retries.any fun x => x.1 == lp && bit r x.2.1
      (s.link lp).st = .up ∧ s.testOf lp = none ∧ m.isEmpty = false) ∧
    (∃ (s : State) (lp : Nat) (r : _),
      let m := (s.testable lp).filter fun r => !s.flag (reedReg (lp2p lp) r) Fld.OE_REED_LIVE &&
          (Tbl.getD s.optics.upFresh false lp || !s.flag (reedReg (lp2p lp) r) Fld.OE_REED_LOW_MARGIN) && !s.optics.retries.any fun x => x.1 == lp && bit r x.2.1
      let u : State := { s with optics := { s.optics with upFresh := Tbl.set s.optics.upFresh false lp false } }
      let prov := (u.liveReeds lp).find? fun r => u.flag (reedReg (lp2p lp) r) Fld.OE_REED_PROVISIONAL
      (s.link lp).st = .up ∧ s.testOf lp = none ∧ m.isEmpty = true ∧ prov = some r ∧ 1 < (u.liveReeds lp).length) ∧
    (∃ (s : State) (lp : Nat),
      let m := (s.testable lp).filter fun r => !s.flag (reedReg (lp2p lp) r) Fld.OE_REED_LIVE &&
          (Tbl.getD s.optics.upFresh false lp || !s.flag (reedReg (lp2p lp) r) Fld.OE_REED_LOW_MARGIN) && !s.optics.retries.any fun x => x.1 == lp && bit r x.2.1
      let u : State := { s with optics := { s.optics with upFresh := Tbl.set s.optics.upFresh false lp false } }
      let prov := (u.liveReeds lp).find? fun r => u.flag (reedReg (lp2p lp) r) Fld.OE_REED_PROVISIONAL
      (s.link lp).st = .up ∧ s.testOf lp = none ∧ m.isEmpty = true ∧ (prov = none ∨ (u.liveReeds lp).length ≤ 1)) ∧
    (∃ (s : State) (lp : Nat) (hd body : List Byte),
      (s.link lp).st.isUp = true ∧ s.ignoresLight (lp2p lp) = false ∧ hdrGood hd = true ∧ hdrType hd = 2 ∧ ctlKind body = 6 ∧ beAt 4 1 body = 1) ∧
    (∃ (s : State) (lp : Nat) (hd body : List Byte),
      (s.link lp).st.isUp = true ∧ s.ignoresLight (lp2p lp) = false ∧ hdrGood hd = true ∧ hdrType hd = 2 ∧ ctlKind body = 6 ∧ beAt 4 1 body = 2) ∧
    (∃ (s : State) (lp : Nat) (hd body : List Byte),
      (s.link lp).st.isUp = true ∧ s.ignoresLight (lp2p lp) = false ∧ hdrGood hd = true ∧ hdrType hd = 2 ∧ ctlKind body = 6 ∧ beAt 4 1 body = 3) ∧
    (∃ (s : State) (lp : Nat) (hd body : List Byte),
      (s.link lp).st.isUp = true ∧ s.ignoresLight (lp2p lp) = false ∧ hdrGood hd = true ∧ hdrType hd = 2 ∧ ctlKind body = 6 ∧ beAt 4 1 body ≠ 1) ∧
    (∃ (s : State) (lp : Nat) (hd body : List Byte),
      (s.link lp).st.isUp = true ∧ s.ignoresLight (lp2p lp) = false ∧ hdrGood hd = true ∧ hdrType hd = 2 ∧ ctlKind body = 6 ∧ beAt 4 1 body ≠ 2) ∧
    (∃ (s : State) (lp : Nat) (hd body : List Byte),
      (s.link lp).st.isUp = true ∧ s.ignoresLight (lp2p lp) = false ∧ hdrGood hd = true ∧ hdrType hd = 2 ∧ ctlKind body = 6 ∧ beAt 4 1 body ≠ 3) ∧
    (∃ (s : State) (lp : Nat) (errors : List Nat) (t : MarginTest) (rest : List MarginTest),
      let stops := (bitList 4 t.stepping).filter fun r => decide (510 ≤ errors.getD r 0) || t.s == 48
      let left := (bitList 4 t.stepping).filter fun r => !stops.contains r
      s.testOf lp = some (t, rest) ∧ left.isEmpty = true) ∧
    (∃ (s : State) (lp : Nat) (errors : List Nat) (t : MarginTest) (rest : List MarginTest),
      let stops := (bitList 4 t.stepping).filter fun r => decide (510 ≤ errors.getD r 0) || t.s == 48
      let left := (bitList 4 t.stepping).filter fun r => !stops.contains r
      s.testOf lp = some (t, rest) ∧ left.isEmpty = false) ∧
    (∃ (s : State) (lp : Nat) (t : MarginTest) (rest : List MarginTest) (reeds : _) (atten : _),
      s.testOf lp = some (t, rest) ∧ (t.reeds ≠ reeds ∨ t.s ≠ atten)) ∧
    (∃ (s : State) (lp x : Nat), Tbl.getD s.optics.farTests 0 lp = x + 1) ∧
    (∃ (s : State) (lp : Nat) (t : MarginTest) (rest : List MarginTest), s.testOf lp = some (t, rest)) ∧
    (∃ (s : State) (lp m t : Nat) (rest : List (Nat × Nat × Nat)),
      let v : State := { s with optics := { s.optics with retries := rest } }
      let u := v.elapseToTick (t + usTicks 1000000)
      let again := bitsOf ((bitList 4 m).filter fun r => (u.testable lp).contains r)
      takeFirst (fun (x : Nat × Nat × Nat) => x.1 == lp) s.optics.retries = some ((lp, m, t), rest) ∧ (u.link lp).st = .up ∧ u.testOf lp = none ∧
      again ≠ 0) ∧
    (∃ (s : State) (lp m t : Nat) (rest : List (Nat × Nat × Nat)),
      let v : State := { s with optics := { s.optics with retries := rest } }
      let u := v.elapseToTick (t + usTicks 1000000)
      let again := bitsOf ((bitList 4 m).filter fun r => (u.testable lp).contains r)
      takeFirst (fun (x : Nat × Nat × Nat) => x.1 == lp) s.optics.retries = some ((lp, m, t), rest) ∧
      ((u.link lp).st ≠ .up ∨ (u.testOf lp).isSome = true ∨ again = 0)) ∧
    (∃ (s : State) (h : CmdHdr),
      let a := s.start h 0x0902
      let p := h.target
      s.takes h 0x0902 true = true ∧ a.noLink p = true) ∧
    (∃ (s : State) (h : CmdHdr) (mask : Nat),
      let a := s.start h 0x0902
      let p := h.target
      let named := fun lp => (a.testable lp).filter fun r => bit r mask
      let lps := (a.halves p).filter fun lp => !(named lp).isEmpty && (a.testOf lp).isNone
      let last := !(a.livePort p).isEmpty && (a.livePort p).all ((lps.flatMap named).contains ·)
      s.takes h 0x0902 true = true ∧ a.noLink p = false ∧ last = true) ∧
    (∃ (s : State) (h : CmdHdr) (mask : Nat),
      let a := s.start h 0x0902
      let p := h.target
      let named := fun lp => (a.testable lp).filter fun r => bit r mask
      let lps := (a.halves p).filter fun lp => !(named lp).isEmpty && (a.testOf lp).isNone
      let last := !(a.livePort p).isEmpty && (a.livePort p).all ((lps.flatMap named).contains ·)
      s.takes h 0x0902 true = true ∧ a.noLink p = false ∧ last = false ∧ (lps.flatMap named).isEmpty = true) ∧
    (∃ (s : State) (h : CmdHdr) (mask : Nat),
      let a := s.start h 0x0902
      let p := h.target
      let named := fun lp => (a.testable lp).filter fun r => bit r mask
      let lps := (a.halves p).filter fun lp => !(named lp).isEmpty && (a.testOf lp).isNone
      let last := !(a.livePort p).isEmpty && (a.livePort p).all ((lps.flatMap named).contains ·)
      s.takes h 0x0902 true = true ∧ a.noLink p = false ∧ last = false ∧ (lps.flatMap named).isEmpty = false) :=
  ⟨⟨({ lockedReeds with links := (lockedReeds.setLink 0 { LinkSt.init with st := .up }).links, optics := { lockedReeds.optics with retries := [(0, 1,
     5)] } }), 0, by decide +kernel⟩,
   ⟨((((upLink 0).setLive 0 0 true).setLive 0 1 true).setFlag (reedReg 0 0) Fld.OE_REED_PROVISIONAL true), 0, 0, by decide +kernel⟩,
   ⟨(upLink 0), 0, by decide +kernel⟩,
   ⟨(upLink 0), 0, ctlHd, (marginBody 1 1 0 [] []), by decide +kernel⟩,
   ⟨(upLink 0), 0, ctlHd, (marginBody 2 1 0 [] []), by decide +kernel⟩,
   ⟨(upLink 0), 0, ctlHd, (marginBody 3 1 0 [] []), by decide +kernel⟩,
   ⟨(upLink 0), 0, ctlHd, (marginBody 2 1 0 [] []), by decide +kernel⟩,
   ⟨(upLink 0), 0, ctlHd, (marginBody 1 1 0 [] []), by decide +kernel⟩,
   ⟨(upLink 0), 0, ctlHd, (marginBody 1 1 0 [] []), by decide +kernel⟩,
   ⟨tested, 0, ([510, 0, 0, 0]), aTest, [], by decide +kernel⟩,
   ⟨tested, 0, ([509, 0, 0, 0]), aTest, [], by decide +kernel⟩,
   ⟨tested, 0, aTest, [], 2, 3, by decide +kernel⟩,
   ⟨({ up with optics := { up.optics with farTests := [(0, 257)] } }), 0, 256, by decide +kernel⟩,
   ⟨tested, 0, aTest, [], by decide +kernel⟩,
   ⟨({ lockedReeds with links := (lockedReeds.setLink 0 { LinkSt.init with st := .up }).links, optics := { lockedReeds.optics with retries := [(0, 1,
     5)] } }), 0, 1, 5, [], by decide +kernel⟩,
   ⟨({ up with optics := { up.optics with retries := [(0, 1, 5)] } }), 0, 1, 5, [], by decide +kernel⟩,
   ⟨({ lockedReeds with links := (lockedReeds.setLink 0 { LinkSt.init with st := .up }).links, optics := { lockedReeds.optics with retries := [(0, 1,
     5)] } }), ⟨.firmware, 0, false, false, 1⟩, by decide +kernel⟩,
   ⟨({ (lockedReeds.setLive 0 0 true) with links := (upLink 0).links }), ⟨.firmware, 0, false, false, 0⟩, 1, by decide +kernel⟩,
   ⟨({ lockedReeds with links := (lockedReeds.setLink 0 { LinkSt.init with st := .up }).links, optics := { lockedReeds.optics with retries := [(0, 1,
     5)] } }), ⟨.firmware, 0, false, false, 0⟩, 0, by decide +kernel⟩,
   ⟨({ lockedReeds with links := (lockedReeds.setLink 0 { LinkSt.init with st := .up }).links, optics := { lockedReeds.optics with retries := [(0, 1,
     5)] } }), ⟨.firmware, 0, false, false, 0⟩, 1, by decide +kernel⟩⟩

theorem witness_FenRoundsComplete :
    (∃ (s : State) (p : Pkt) (op : Nat),
      let stale := match s.collGroup (p.msgId / 4096) with | some x => staleGen p (grpGen x.1) | none => false
      p.typ = 0x13 ∧ op ∈ [1, 6, 8, 3, 9] ∧ stale = true) ∧
    (∃ (s : State) (p : Pkt) (op : Nat),
      let stale := match s.collGroup (p.msgId / 4096) with | some x => staleGen p (grpGen x.1) | none => false
      p.typ = 0x13 ∧ op ∈ [1, 6, 8, 3, 9] ∧ stale = false ∧ pflag p fPoison = true) ∧
    (∃ (s : State) (p : Pkt) (op : Nat),
      let stale := match s.collGroup (p.msgId / 4096) with | some x => staleGen p (grpGen x.1) | none => false
      let known := (if pflag p fSrcSpine then [1, 2, 3, 4, 5, 9] else [1, 6, 8]).contains (beAt 0 1 p.payload)
      p.typ = 0x13 ∧ op ∈ [1, 6, 8, 3, 9] ∧ stale = false ∧ pflag p fPoison = false ∧ (p.payload.length ≠ 64 ∨ known = false)) ∧
    (∃ (s : State) (lp : Nat) (p : Pkt) (e d : Nat),
      let g := p.msgId / 4096
      let rnd := beAt 2 2 p.payload
      let u := (s.takeFn lp p).inc (Cnt.FADM_OPENS (dHome d))
      let last := (u.fenHist (dHome d) g).round
      s.ctrlTakes p 1 e d = true ∧ rnd ≠ last ∧ rnd = nextRound last ∧ u.fenRound (dHome d) g = none) ∧
    (∃ (s : State) (lp : Nat) (p : Pkt) (e d : Nat),
      let g := p.msgId / 4096
      let rnd := beAt 2 2 p.payload
      let u := (s.takeFn lp p).inc (Cnt.FADM_OPENS (dHome d))
      let last := (u.fenHist (dHome d) g).round
      s.ctrlTakes p 1 e d = true ∧ rnd ≠ last ∧ rnd = nextRound last ∧ (u.fenRound (dHome d) g).isSome = true) ∧
    (∃ (s : State) (lp : Nat) (p : Pkt) (e d : Nat),
      let g := p.msgId / 4096
      let rnd := beAt 2 2 p.payload
      let u := (s.takeFn lp p).inc (Cnt.FADM_OPENS (dHome d))
      let last := (u.fenHist (dHome d) g).round
      s.ctrlTakes p 1 e d = true ∧ rnd ≠ last ∧ rnd ≠ nextRound last) ∧
    (∃ (s : State) (lp : Nat) (p : Pkt) (e d : Nat),
      let g := p.msgId / 4096
      let rnd := beAt 2 2 p.payload
      let u := (s.takeFn lp p).inc (Cnt.FADM_OPENS (dHome d))
      let last := (u.fenHist (dHome d) g).round
      s.ctrlTakes p 1 e d = true ∧ rnd = last ∧ u.fenRound (dHome d) g = none) ∧
    (∃ (s : State) (lp : Nat) (p : Pkt) (e d : Nat) (r : Round),
      let g := p.msgId / 4096
      let rnd := beAt 2 2 p.payload
      let u := (s.takeFn lp p).inc (Cnt.FADM_OPENS (dHome d))
      let last := (u.fenHist (dHome d) g).round
      s.ctrlTakes p 1 e d = true ∧ rnd = last ∧ u.fenRound (dHome d) g = some r ∧ r.waiting = false) ∧
    (∃ (s : State) (lp : Nat) (p : Pkt) (e d : Nat) (r : Round),
      let g := p.msgId / 4096
      let rnd := beAt 2 2 p.payload
      let u := (s.takeFn lp p).inc (Cnt.FADM_OPENS (dHome d))
      let last := (u.fenHist (dHome d) g).round
      let hall := if pflag p fSrcSpine then hallOf d lp else none
      s.ctrlTakes p 1 e d = true ∧ rnd = last ∧ u.fenRound (dHome d) g = some r ∧ r.waiting = true ∧ hall = none) ∧
    (∃ (s : State) (lp : Nat) (p : Pkt) (e d : Nat) (r : Round) (k : _),
      let g := p.msgId / 4096
      let rnd := beAt 2 2 p.payload
      let u := (s.takeFn lp p).inc (Cnt.FADM_OPENS (dHome d))
      let last := (u.fenHist (dHome d) g).round
      let hall := if pflag p fSrcSpine then hallOf d lp else none
      s.ctrlTakes p 1 e d = true ∧ rnd = last ∧ u.fenRound (dHome d) g = some r ∧ r.waiting = true ∧ hall = some k) ∧
    (∃ (s : State) (lp : Nat) (p : Pkt),
      let u := s.takeFn lp p
      let g := p.msgId / 4096
      p.typ = 0x10 ∧ u.collGroup g = none) ∧
    (∃ (s : State) (lp : Nat) (p : Pkt) (e d : Nat),
      let u := s.takeFn lp p
      let g := p.msgId / 4096
      p.typ = 0x10 ∧ u.collGroup g = some (e, d) ∧ staleGen p (grpGen e) = true) ∧
    (∃ (s : State) (lp : Nat) (p : Pkt) (e d : Nat),
      let u := s.takeFn lp p
      let g := p.msgId / 4096
      p.typ = 0x10 ∧ u.collGroup g = some (e, d) ∧ staleGen p (grpGen e) = false ∧
      (u.fenRound (dHome d) g = none ∨ (∃ r, u.fenRound (dHome d) g = some r ∧ r.pass = true))) ∧
    (∃ (s : State) (lp : Nat) (p : Pkt) (e d : Nat) (r : Round),
      let spine := pflag p fSrcSpine
      let hall := if spine then hallOf r.desc lp else none
      let i := lowestMissing ((List.range r.m).filter fun k => feidKey (r.feids.getD k 0) != feidKey p.src) r.m
      let outsider := if spine then hall.isNone else decide (r.m ≤ i) || !contributes r.desc i
      p.typ = 0x10 ∧ (s.takeFn lp p).collGroup (p.msgId / 4096) = some (e, d) ∧ staleGen p (grpGen e) = false ∧
      (s.takeFn lp p).fenRound (dHome d) (p.msgId / 4096) = some r ∧ r.pass = false ∧ outsider = true) ∧
    (∃ (s : State) (lp : Nat) (p : Pkt) (e d : Nat) (r : Round),
      let spine := pflag p fSrcSpine
      let hall := if spine then hallOf r.desc lp else none
      let i := lowestMissing ((List.range r.m).filter fun k => feidKey (r.feids.getD k 0) != feidKey p.src) r.m
      let num := p.msgId % 4096
      let who := match hall with | some h => hallWho h | none => i
      let limb := if hall.isSome then num % max 1 (dU r.desc) else 0
      let c := if hall.isSome then dFirst r.desc + num / max 1 (dU r.desc) else num
      let rg := 16 * limb + p.offset / 4096
      let got := p.offset % 4096 == 0 && (r.chunk c).has who rg
      let outsider := if spine then hall.isNone else decide (r.m ≤ i) || !contributes r.desc i
      let fenced := hall.isNone && r.fenced.contains i && !got
      p.typ = 0x10 ∧ (s.takeFn lp p).collGroup (p.msgId / 4096) = some (e, d) ∧ staleGen p (grpGen e) = false ∧
      (s.takeFn lp p).fenRound (dHome d) (p.msgId / 4096) = some r ∧ r.pass = false ∧ outsider = false ∧ fenced = true) ∧
    (∃ (s : State) (lp : Nat) (p : Pkt) (e d : Nat) (r : Round),
      let spine := pflag p fSrcSpine
      let hall := if spine then hallOf r.desc lp else none
      let i := lowestMissing ((List.range r.m).filter fun k => feidKey (r.feids.getD k 0) != feidKey p.src) r.m
      let num := p.msgId % 4096
      let who := match hall with | some h => hallWho h | none => i
      let limb := if hall.isSome then num % max 1 (dU r.desc) else 0
      let c := if hall.isSome then dFirst r.desc + num / max 1 (dU r.desc) else num
      let rg := 16 * limb + p.offset / 4096
      let got := p.offset % 4096 == 0 && (r.chunk c).has who rg
      let outsider := if spine then hall.isNone else decide (r.m ≤ i) || !contributes r.desc i
      let fenced := hall.isNone && r.fenced.contains i && !got
      let inStripe := decide (dFirst r.desc ≤ c) && decide (c < dFirst r.desc + dCount r.desc)
      p.typ = 0x10 ∧ (s.takeFn lp p).collGroup (p.msgId / 4096) = some (e, d) ∧ staleGen p (grpGen e) = false ∧
      (s.takeFn lp p).fenRound (dHome d) (p.msgId / 4096) = some r ∧ r.pass = false ∧ outsider = false ∧ fenced = false ∧ inStripe = false) ∧
    (∃ (s : State) (lp : Nat) (p : Pkt) (e d : Nat) (r : Round),
      let spine := pflag p fSrcSpine
      let hall := if spine then hallOf r.desc lp else none
      let i := lowestMissing ((List.range r.m).filter fun k => feidKey (r.feids.getD k 0) != feidKey p.src) r.m
      let num := p.msgId % 4096
      let who := match hall with | some h => hallWho h | none => i
      let limb := if hall.isSome then num % max 1 (dU r.desc) else 0
      let c := if hall.isSome then dFirst r.desc + num / max 1 (dU r.desc) else num
      let rg := 16 * limb + p.offset / 4096
      let got := p.offset % 4096 == 0 && (r.chunk c).has who rg
      let outsider := if spine then hall.isNone else decide (r.m ≤ i) || !contributes r.desc i
      let fenced := hall.isNone && r.fenced.contains i && !got
      let inStripe := decide (dFirst r.desc ≤ c) && decide (c < dFirst r.desc + dCount r.desc)
      let shape := p.offset % 4096 == 0 && decide (p.offset < dChunkLen r.desc c) && p.plen == dRegionLen r.desc c (p.offset / 4096)
      p.typ = 0x10 ∧ (s.takeFn lp p).collGroup (p.msgId / 4096) = some (e, d) ∧ staleGen p (grpGen e) = false ∧
      (s.takeFn lp p).fenRound (dHome d) (p.msgId / 4096) = some r ∧ r.pass = false ∧ outsider = false ∧ fenced = false ∧ inStripe = true ∧
      shape = false) ∧
    (∃ (s : State) (lp : Nat) (p : Pkt) (e d : Nat) (r : Round),
      let spine := pflag p fSrcSpine
      let hall := if spine then hallOf r.desc lp else none
      let i := lowestMissing ((List.range r.m).filter fun k => feidKey (r.feids.getD k 0) != feidKey p.src) r.m
      let num := p.msgId % 4096
      let who := match hall with | some h => hallWho h | none => i
      let limb := if hall.isSome then num % max 1 (dU r.desc) else 0
      let c := if hall.isSome then dFirst r.desc + num / max 1 (dU r.desc) else num
      let rg := 16 * limb + p.offset / 4096
      let got := p.offset % 4096 == 0 && (r.chunk c).has who rg
      let outsider := if spine then hall.isNone else decide (r.m ≤ i) || !contributes r.desc i
      let fenced := hall.isNone && r.fenced.contains i && !got
      let inStripe := decide (dFirst r.desc ≤ c) && decide (c < dFirst r.desc + dCount r.desc)
      let shape := p.offset % 4096 == 0 && decide (p.offset < dChunkLen r.desc c) && p.plen == dRegionLen r.desc c (p.offset / 4096)
      p.typ = 0x10 ∧ (s.takeFn lp p).collGroup (p.msgId / 4096) = some (e, d) ∧ staleGen p (grpGen e) = false ∧
      (s.takeFn lp p).fenRound (dHome d) (p.msgId / 4096) = some r ∧ r.pass = false ∧ outsider = false ∧ fenced = false ∧ inStripe = true ∧
      shape = true ∧ got = true) ∧
    (∃ (s : State) (lp : Nat) (p : Pkt) (e d : Nat) (r : Round),
      let spine := pflag p fSrcSpine
      let hall := if spine then hallOf r.desc lp else none
      let i := lowestMissing ((List.range r.m).filter fun k => feidKey (r.feids.getD k 0) != feidKey p.src) r.m
      let num := p.msgId % 4096
      let who := match hall with | some h => hallWho h | none => i
      let limb := if hall.isSome then num % max 1 (dU r.desc) else 0
      let c := if hall.isSome then dFirst r.desc + num / max 1 (dU r.desc) else num
      let rg := 16 * limb + p.offset / 4096
      let got := p.offset % 4096 == 0 && (r.chunk c).has who rg
      let outsider := if spine then hall.isNone else decide (r.m ≤ i) || !contributes r.desc i
      let fenced := hall.isNone && r.fenced.contains i && !got
      let inStripe := decide (dFirst r.desc ≤ c) && decide (c < dFirst r.desc + dCount r.desc)
      let shape := p.offset % 4096 == 0 && decide (p.offset < dChunkLen r.desc c) && p.plen == dRegionLen r.desc c (p.offset / 4096)
      let waits := !r.inWindow c || (hall.isNone && !r.holdOk c i rg)
      p.typ = 0x10 ∧ (s.takeFn lp p).collGroup (p.msgId / 4096) = some (e, d) ∧ staleGen p (grpGen e) = false ∧
      (s.takeFn lp p).fenRound (dHome d) (p.msgId / 4096) = some r ∧ r.pass = false ∧ outsider = false ∧ fenced = false ∧ inStripe = true ∧
      shape = true ∧ got = false ∧ waits = true) ∧
    (∃ (s : State) (lp : Nat) (p : Pkt) (e d : Nat) (r : Round),
      let u := s.takeFn lp p
      let spine := pflag p fSrcSpine
      let hall := if spine then hallOf r.desc lp else none
      let i := lowestMissing ((List.range r.m).filter fun k => feidKey (r.feids.getD k 0) != feidKey p.src) r.m
      let num := p.msgId % 4096
      let who := match hall with | some h => hallWho h | none => i
      let limb := if hall.isSome then num % max 1 (dU r.desc) else 0
      let c := if hall.isSome then dFirst r.desc + num / max 1 (dU r.desc) else num
      let rg := 16 * limb + p.offset / 4096
      let got := p.offset % 4096 == 0 && (r.chunk c).has who rg
      let outsider := if spine then hall.isNone else decide (r.m ≤ i) || !contributes r.desc i
      let fenced := hall.isNone && r.fenced.contains i && !got
      let inStripe := decide (dFirst r.desc ≤ c) && decide (c < dFirst r.desc + dCount r.desc)
      let shape := p.offset % 4096 == 0 && decide (p.offset < dChunkLen r.desc c) && p.plen == dRegionLen r.desc c (p.offset / 4096)
      let waits := !r.inWindow c || (hall.isNone && !r.holdOk c i rg)
      p.typ = 0x10 ∧ (s.takeFn lp p).collGroup (p.msgId / 4096) = some (e, d) ∧ staleGen p (grpGen e) = false ∧
      (s.takeFn lp p).fenRound (dHome d) (p.msgId / 4096) = some r ∧ r.pass = false ∧ outsider = false ∧ fenced = false ∧ inStripe = true ∧
      shape = true ∧ got = false ∧ waits = false ∧ u.shadowFull r c = true) ∧
    (∃ (s : State) (lp : Nat) (p : Pkt) (e d : Nat) (r : Round),
      let u := s.takeFn lp p
      let spine := pflag p fSrcSpine
      let hall := if spine then hallOf r.desc lp else none
      let i := lowestMissing ((List.range r.m).filter fun k => feidKey (r.feids.getD k 0) != feidKey p.src) r.m
      let num := p.msgId % 4096
      let who := match hall with | some h => hallWho h | none => i
      let limb := if hall.isSome then num % max 1 (dU r.desc) else 0
      let c := if hall.isSome then dFirst r.desc + num / max 1 (dU r.desc) else num
      let rg := 16 * limb + p.offset / 4096
      let got := p.offset % 4096 == 0 && (r.chunk c).has who rg
      let outsider := if spine then hall.isNone else decide (r.m ≤ i) || !contributes r.desc i
      let fenced := hall.isNone && r.fenced.contains i && !got
      let inStripe := decide (dFirst r.desc ≤ c) && decide (c < dFirst r.desc + dCount r.desc)
      let shape := p.offset % 4096 == 0 && decide (p.offset < dChunkLen r.desc c) && p.plen == dRegionLen r.desc c (p.offset / 4096)
      let waits := !r.inWindow c || (hall.isNone && !r.holdOk c i rg)
      p.typ = 0x10 ∧ (s.takeFn lp p).collGroup (p.msgId / 4096) = some (e, d) ∧ staleGen p (grpGen e) = false ∧
      (s.takeFn lp p).fenRound (dHome d) (p.msgId / 4096) = some r ∧ r.pass = false ∧ outsider = false ∧ fenced = false ∧ inStripe = true ∧
      shape = true ∧ got = false ∧ waits = false ∧ u.shadowFull r c = false) ∧
    (∃ (s : State) (lp : Nat) (p : Pkt) (e d : Nat),
      let u := s.takeFn lp p
      let ms := u.members (dHome d) e
      let i := lowestMissing ((List.range ms.length).filter fun k => feidKey (ms.getD k 0) != feidKey p.src) ms.length
      s.ctrlTakes p 6 e d = true ∧ ms.length ≤ i) ∧
    (∃ (s : State) (lp : Nat) (p : Pkt) (e d : Nat),
      let g := p.msgId / 4096
      let c := beAt 4 2 p.payload
      let rnd := beAt 2 2 p.payload
      let u := s.takeFn lp p
      let ms := u.members (dHome d) e
      let i := lowestMissing ((List.range ms.length).filter fun k => feidKey (ms.getD k 0) != feidKey p.src) ms.length
      s.ctrlTakes p 6 e d = true ∧ i < ms.length ∧ c = 0xFFFF ∧ ((u.fenHist (dHome d) g).record = none ∨ rnd ≠ (u.fenHist (dHome d) g).round)) ∧
    (∃ (s : State) (lp : Nat) (p : Pkt) (e d : Nat) (body : _),
      let g := p.msgId / 4096
      let c := beAt 4 2 p.payload
      let rnd := beAt 2 2 p.payload
      let u := s.takeFn lp p
      let ms := u.members (dHome d) e
      let i := lowestMissing ((List.range ms.length).filter fun k => feidKey (ms.getD k 0) != feidKey p.src) ms.length
      s.ctrlTakes p 6 e d = true ∧ i < ms.length ∧ c = 0xFFFF ∧ (u.fenHist (dHome d) g).record = some body ∧ rnd = (u.fenHist (dHome d) g).round) ∧
    (∃ (s : State) (lp : Nat) (p : Pkt) (e d : Nat),
      let g := p.msgId / 4096
      let c := beAt 4 2 p.payload
      let u := s.takeFn lp p
      let ms := u.members (dHome d) e
      let i := lowestMissing ((List.range ms.length).filter fun k => feidKey (ms.getD k 0) != feidKey p.src) ms.length
      s.ctrlTakes p 6 e d = true ∧ i < ms.length ∧ c ≠ 0xFFFF ∧ u.fenRound (dHome d) g = none) ∧
    (∃ (s : State) (lp : Nat) (p : Pkt) (e d : Nat) (r : Round),
      let g := p.msgId / 4096
      let c := beAt 4 2 p.payload
      let rnd := beAt 2 2 p.payload
      let u := s.takeFn lp p
      let ms := u.members (dHome d) e
      let i := lowestMissing ((List.range ms.length).filter fun k => feidKey (ms.getD k 0) != feidKey p.src) ms.length
      s.ctrlTakes p 6 e d = true ∧ i < ms.length ∧ c ≠ 0xFFFF ∧ u.fenRound (dHome d) g = some r ∧
      (r.round ≠ rnd ∨ r.kept.find? (fun x => x.1 == c) = none)) ∧
    (∃ (s : State) (lp : Nat) (p : Pkt) (e d : Nat) (r : Round) (x : Nat × List Byte),
      let g := p.msgId / 4096
      let c := beAt 4 2 p.payload
      let rnd := beAt 2 2 p.payload
      let u := s.takeFn lp p
      let ms := u.members (dHome d) e
      let i := lowestMissing ((List.range ms.length).filter fun k => feidKey (ms.getD k 0) != feidKey p.src) ms.length
      s.ctrlTakes p 6 e d = true ∧ i < ms.length ∧ c ≠ 0xFFFF ∧ u.fenRound (dHome d) g = some r ∧ r.round = rnd ∧
      r.kept.find? (fun x => x.1 == c) = some x) ∧
    (∃ (s : State) (lp : Nat) (p : Pkt) (e d : Nat),
      let u := s.takeFn lp p
      s.ctrlTakes p 8 e d = true ∧ u.fenRound (dHome d) (p.msgId / 4096) = none) ∧
    (∃ (s : State) (lp : Nat) (p : Pkt) (e d : Nat) (r : Round),
      let u := s.takeFn lp p
      s.ctrlTakes p 8 e d = true ∧ u.fenRound (dHome d) (p.msgId / 4096) = some r ∧ (r.pass = false ∨ r.round ≠ beAt 2 2 p.payload)) ∧
    (∃ (s : State) (lp : Nat) (p : Pkt) (e d : Nat) (r : Round),
      let u := s.takeFn lp p
      let i := lowestMissing ((List.range r.m).filter fun k => feidKey (r.feids.getD k 0) != feidKey p.src) r.m
      s.ctrlTakes p 8 e d = true ∧ u.fenRound (dHome d) (p.msgId / 4096) = some r ∧ r.pass = true ∧ r.round = beAt 2 2 p.payload ∧ r.m ≤ i) ∧
    (∃ (s : State) (lp : Nat) (p : Pkt) (e d : Nat) (r : Round),
      let u := s.takeFn lp p
      let i := lowestMissing ((List.range r.m).filter fun k => feidKey (r.feids.getD k 0) != feidKey p.src) r.m
      s.ctrlTakes p 8 e d = true ∧ u.fenRound (dHome d) (p.msgId / 4096) = some r ∧ r.pass = true ∧ r.round = beAt 2 2 p.payload ∧ i < r.m) ∧
    (∃ (s : State) (die g c t : Nat) (r : Round),
      s.fenRound die g = some r ∧ (r.chunk c).first = some t ∧ s.frozen = false ∧ (r.missing c).isEmpty = false ∧ (r.chunk c).result = none) :=
  ⟨⟨(fenGo fenR), ({ fenCtl 1 4 with gen := 2 }), 1, by decide +kernel⟩,
   ⟨(fenGo fenR), ({ fenCtl 1 4 with flags := 2 ^ fPoison }), 9, by decide +kernel⟩,
   ⟨(fenGo fenR), ({ fenCtl 1 4 with payload := [] }), 8, by decide +kernel⟩,
   ⟨(fenS (fenDesc 0) []), 0, (fenCtl 1 5), fenEnt, (fenDesc 0), by decide +kernel⟩,
   ⟨(fenS (fenDesc 0) [aRound (fenDesc 0) []]), 0, (fenCtl 1 5), fenEnt, (fenDesc 0), by decide +kernel⟩,
   ⟨(fenS (fenDesc 0) []), 0, (fenCtl 1 6), fenEnt, (fenDesc 0), by decide +kernel⟩,
   ⟨(fenS (fenDesc 0) []), 0, (fenCtl 1 4), fenEnt, (fenDesc 0), by decide +kernel⟩,
   ⟨(fenS (fenDesc 0) [aRound (fenDesc 0) []]), 0, (fenCtl 1 4), fenEnt, (fenDesc 0), (aRound (fenDesc 0) []), by decide +kernel⟩,
   ⟨(fenGo { fenR with waiting := true }), 0, (fenCtl 1 4), fenEnt, (fenDesc 0), ({ fenR with waiting := true }), by decide +kernel⟩,
   ⟨(fenS dRootOf [{ aRound dRootOf [] with waiting := true }]), 5, (hallCtl 1 4), fenEnt, dRootOf, ({ aRound dRootOf [] with waiting := true }), 1,
     by decide +kernel⟩,
   ⟨(fenGo fenR), 0, ({ fenIn 1 with msgId := 2 * 4096 }), by decide +kernel⟩,
   ⟨(fenGo fenR), 0, ({ fenIn 1 with gen := 2 }), fenEnt, (fenDesc 0), by decide +kernel⟩,
   ⟨(fenS (fenDesc 0) []), 0, (fenIn 1), fenEnt, (fenDesc 0), by decide +kernel⟩,
   ⟨(fenGo fenR), 0, ({ fenIn 1 with src := 0x7000 }), fenEnt, (fenDesc 0), fenR, by decide +kernel⟩,
   ⟨(fenGo { fenR with fenced := [0] }), 0, (fenIn 1), fenEnt, (fenDesc 0), ({ fenR with fenced := [0] }), by decide +kernel⟩,
   ⟨(fenGo fenR), 0, (fenIn 2), fenEnt, (fenDesc 0), fenR, by decide +kernel⟩,
   ⟨(fenGo fenR), 0, ({ fenIn 1 with plen := 7 }), fenEnt, (fenDesc 0), fenR, by decide +kernel⟩,
   ⟨(fenGo (chunkR (fenDesc 0) gotChunk)), 0, (fenIn 1), fenEnt, (fenDesc 0), (chunkR (fenDesc 0) gotChunk), by decide +kernel⟩,
   ⟨(fenGo fenR), 0, (fenIn 1), fenEnt, (fenDesc 0), fenR, by decide +kernel⟩,
   ⟨({ fenGo fullR with fen := { (fenGo fullR).fen with spareQ := [(0, List.replicate 64 1000000000)] } }), 0, (fenIn 1), fenEnt, (fenDesc 0), fullR,
     by decide +kernel⟩,
   ⟨(fenGo nextR), 0, (fenIn 1), fenEnt, (fenDesc 0), nextR, by decide +kernel⟩,
   ⟨(fenGo fenR), 0, ({ fenCtl 6 4 with src := 0x7000 }), fenEnt, (fenDesc 0), by decide +kernel⟩,
   ⟨(fenGo fenR), 0, (fenRep 4 0xFFFF), fenEnt, (fenDesc 0), by decide +kernel⟩,
   ⟨({ fenGo fenR with fen := { (fenGo fenR).fen with hist := [(fenKey 0 1, ⟨4, 0, some (leBytes 64 0)⟩)] } }), 0, (fenRep 4 0xFFFF), fenEnt,
     (fenDesc 0), (leBytes 64 0), by decide +kernel⟩,
   ⟨(fenS (fenDesc 0) []), 0, (fenCtl 6 4), fenEnt, (fenDesc 0), by decide +kernel⟩,
   ⟨(fenS (fenDesc 0) [aRound (fenDesc 0) []]), 0, (fenCtl 6 4), fenEnt, (fenDesc 0), (aRound (fenDesc 0) []), by decide +kernel⟩,
   ⟨(fenS (fenDesc 0) [{ aRound (fenDesc 0) [] with kept := [(0, leBytes 8 1)] }]), 0, (fenCtl 6 4), fenEnt, (fenDesc 0), ({ aRound (fenDesc 0) []
     with kept := [(0, leBytes 8 1)] }), ((0, leBytes 8 1)), by decide +kernel⟩,
   ⟨(fenS (fenDesc 0) []), 0, (fenCtl 8 4), fenEnt, (fenDesc 0), by decide +kernel⟩,
   ⟨(fenS (fenDesc 0) [aRound (fenDesc 0) []]), 0, (fenCtl 8 4), fenEnt, (fenDesc 0), (aRound (fenDesc 0) []), by decide +kernel⟩,
   ⟨(fenGo { fenR with pass := true }), 0, ({ fenCtl 8 4 with src := 0x7000 }), fenEnt, (fenDesc 0), ({ fenR with pass := true }), by decide +kernel⟩,
   ⟨(fenS (fenDesc 0) [{ aRound (fenDesc 0) [] with pass := true }]), 0, (fenCtl 8 4), fenEnt, (fenDesc 0), ({ aRound (fenDesc 0) [] with pass :=
     true }), by decide +kernel⟩,
   ⟨(fenS (fenDesc 0) [aRound (fenDesc 0) [(1, gotChunk)]]), 0, 1, 1, 0, (aRound (fenDesc 0) [(1, gotChunk)]), by decide +kernel⟩⟩

theorem witness_FenResultsComplete :
    (∃ (s : State) (die g c : Nat) (r : Round) (out right : RunOut),
      s.fenRound die g = some r ∧ (r.chunk c).result = some (out, right) ∧ (r.chunk c).released = false ∧ (r.chunk c).sent = false ∧ s.frozen = false ∧
      r.pass = false ∧ isHall r.desc = true ∧ (r.chunk c).verdict ≠ 1) ∧
    (∃ (s : State) (die g c : Nat) (r : Round) (out right : RunOut),
      s.fenRound die g = some r ∧ (r.chunk c).result = some (out, right) ∧ (r.chunk c).released = false ∧ (r.chunk c).sent = false ∧ s.frozen = false ∧
      r.pass = false ∧ isHall r.desc = false ∧ ((r.chunk c).verdict = 1 → dSpec r.desc = true) ∧ dKind r.desc = 1 ∧
      r.fenced.contains (dRoot r.desc) = true) ∧
    (∃ (s : State) (die g c : Nat) (r : Round) (out right : RunOut),
      s.fenRound die g = some r ∧ (r.chunk c).result = some (out, right) ∧ (r.chunk c).released = false ∧ (r.chunk c).sent = false ∧ s.frozen = false ∧
      r.pass = false ∧ isHall r.desc = false ∧ ((r.chunk c).verdict = 1 → dSpec r.desc = true) ∧
      (dKind r.desc ≠ 1 ∨ r.fenced.contains (dRoot r.desc) = false)) ∧
    (∃ (s : State) (die g c : Nat) (r : Round) (out right : RunOut) (shadow : Option RunOut),
      let ch := r.chunk c
      let sh := shadow.getD right
      s.fenRound die g = some r ∧ (r.chunk c).result = some (out, right) ∧ (r.chunk c).verdict = 1 ∧ sh = out ∧ ch.firstRun = none) ∧
    (∃ (s : State) (die g c : Nat) (r : Round) (out right : RunOut) (shadow : Option RunOut) (n : Nat) (pb : _) (k : Nat) (sb : _),
      let ch := r.chunk c
      let sh := shadow.getD right
      s.fenRound die g = some r ∧ (r.chunk c).result = some (out, right) ∧ (r.chunk c).verdict = 1 ∧ sh = out ∧ ch.firstRun = some (n, pb, k, sb)) ∧
    (∃ (s : State) (die g c : Nat) (r : Round) (out right : RunOut) (shadow : Option RunOut),
      let ch := r.chunk c
      let sh := shadow.getD right
      s.fenRound die g = some r ∧ (r.chunk c).result = some (out, right) ∧ (r.chunk c).verdict = 1 ∧ sh ≠ out ∧ ch.firstRun = none) ∧
    (∃ (s : State) (die g c : Nat) (r : Round) (out right : RunOut) (shadow : Option RunOut) (n : Nat) (pb : _) (k : Nat) (sb : _),
      let ch := r.chunk c
      let sh := shadow.getD right
      s.fenRound die g = some r ∧ (r.chunk c).result = some (out, right) ∧ (r.chunk c).verdict = 1 ∧ sh ≠ out ∧ ch.firstRun = some (n, pb, k, sb)) ∧
    (∃ (s : State) (die slot beat : Nat) (tier1 : Bool) (p : Nat),
      let u := if tier1 then s.beatSeen ⟨s.chanOf 0 (s.rdWide (Reg.FADM_T1_BASE die) 2 / 2097152 * 2097152 + 65536 * slot + 64 * beat), true⟩ else s
      u.slotOwner die tier1 slot = some p) ∧
    (∃ (s : State) (die slot beat : Nat) (tier1 : Bool),
      let u := if tier1 then s.beatSeen ⟨s.chanOf 0 (s.rdWide (Reg.FADM_T1_BASE die) 2 / 2097152 * 2097152 + 65536 * slot + 64 * beat), true⟩ else s
      u.slotOwner die tier1 slot = none) :=
  ⟨⟨(fenS dHallOf [chunkR dHallOf resChunk]), 0, 1, 1, (chunkR dHallOf resChunk), nine, nine, by decide +kernel⟩,
   ⟨(fenS (fenDesc 1) [{ chunkR (fenDesc 1) resChunk with fenced := [0] }]), 0, 1, 1, ({ chunkR (fenDesc 1) resChunk with fenced := [0] }), nine,
     nine, by decide +kernel⟩,
   ⟨(fenGo (chunkR (fenDesc 0) resChunk)), 0, 1, 1, (chunkR (fenDesc 0) resChunk), nine, nine, by decide +kernel⟩,
   ⟨(fenGo (judged none)), 0, 1, 1, (judged none), nine, nine, none, by decide +kernel⟩,
   ⟨(fenGo (judged (some (1, nine, 16, nine)))), 0, 1, 1, (judged (some (1, nine, 16, nine))), nine, nine, none, 1, nine, 16, nine,
     by decide +kernel⟩,
   ⟨(fenGo (judged none)), 0, 1, 1, (judged none), nine, nine, (some ⟨leBytes 8 8, 0⟩), by decide +kernel⟩,
   ⟨(fenGo (judged (some (1, nine, 16, nine)))), 0, 1, 1, (judged (some (1, nine, 16, nine))), nine, nine, (some ⟨leBytes 8 8, 0⟩), 1, nine, 16,
     nine, by decide +kernel⟩,
   ⟨(up.wr (Reg.FADM_PART_SRAM 0 3) (BitVec.ofNat 32 (2 * 2 ^ 16 + 10))), 0, 11, 0, false, 3, by decide +kernel⟩,
   ⟨(fenS dHallOf [aRound dHallOf [(1, resChunk)]]), 0, 11, 0, false, by decide +kernel⟩⟩

theorem witness_FenHallsComplete :
    (∃ (s : State) (lp : Nat) (p : Pkt) (e d : Nat) (r : Round),
      let u := s.takeFn lp p
      u.hallRound (dHome d) p (beAt 2 2 p.payload) = some r ∧ isHall r.desc = true ∧ lp = dXport r.desc ∧ s.ctrlTakes p 2 e d = true ∧ r.waiting = true) ∧
    (∃ (s : State) (lp : Nat) (p : Pkt) (e d : Nat) (r : Round),
      let u := s.takeFn lp p
      u.hallRound (dHome d) p (beAt 2 2 p.payload) = some r ∧ isHall r.desc = true ∧ lp = dXport r.desc ∧ s.ctrlTakes p 2 e d = true ∧ r.waiting = false) ∧
    (∃ (s : State) (lp : Nat) (p : Pkt) (e d : Nat) (r : Round),
      let u := s.takeFn lp p
      u.hallRound (dHome d) p (beAt 2 2 p.payload) = some r ∧ isHall r.desc = true ∧ lp = dXport r.desc ∧ s.ctrlTakes p 4 e d = true) ∧
    (∃ (s : State) (lp : Nat) (p : Pkt) (e d : Nat) (r : Round),
      let u := s.takeFn lp p
      u.hallRound (dHome d) p (beAt 2 2 p.payload) = some r ∧ isHall r.desc = true ∧ lp = dXport r.desc ∧ s.ctrlTakes p 5 e d = true) ∧
    (∃ (s : State) (lp : Nat) (p : Pkt) (e d : Nat) (r : Round),
      let u := s.takeFn lp p
      u.hallRound (dHome d) p (beAt 2 2 p.payload) = some r ∧ isHall r.desc = true ∧ lp = dXport r.desc ∧ s.ctrlTakes p 3 e d = true ∧ r.waiting = true) ∧
    (∃ (s : State) (lp : Nat) (p : Pkt) (e d : Nat) (r : Round),
      let u := s.takeFn lp p
      u.hallRound (dHome d) p (beAt 2 2 p.payload) = some r ∧ isHall r.desc = true ∧ lp = dXport r.desc ∧ s.ctrlTakes p 3 e d = true ∧ r.waiting = false) ∧
    (∃ (s : State) (lp : Nat) (p : Pkt) (e d : Nat) (r : Round),
      let u := s.takeFn lp p
      u.hallRound (dHome d) p (beAt 2 2 p.payload) = some r ∧ isHall r.desc = true ∧ lp = dXport r.desc ∧ s.ctrlTakes p 9 e d = true) ∧
    (∃ (s : State) (lp : Nat) (p : Pkt) (e d : Nat) (r : Round),
      let u := s.takeFn lp p
      u.hallRound (dHome d) p (beAt 2 2 p.payload) = some r ∧ isHall r.desc = false ∧ (hallOf r.desc lp).isSome = true ∧ s.ctrlTakes p 3 e d = true ∧
      r.waiting = true) ∧
    (∃ (s : State) (lp : Nat) (p : Pkt) (e d : Nat) (r : Round),
      let u := s.takeFn lp p
      u.hallRound (dHome d) p (beAt 2 2 p.payload) = some r ∧ isHall r.desc = false ∧ (hallOf r.desc lp).isSome = true ∧ s.ctrlTakes p 3 e d = true ∧
      r.waiting = false) ∧
    (∃ (s : State) (lp : Nat) (p : Pkt) (e d : Nat) (r : Round),
      let u := s.takeFn lp p
      u.hallRound (dHome d) p (beAt 2 2 p.payload) = some r ∧ isHall r.desc = false ∧ (hallOf r.desc lp).isSome = true ∧ s.ctrlTakes p 9 e d = true) ∧
    (∃ (s : State) (lp : Nat) (p : Pkt) (e d : Nat),
      let u := s.takeFn lp p
      let g := p.msgId / 4096
      let rnd := beAt 2 2 p.payload
      s.ctrlTakes p 3 e d = true ∧ u.fenRound (dHome d) g = none ∧ (hallOf d lp).isSome = true ∧ rnd = nextRound (u.fenHist (dHome d) g).round) ∧
    (∃ (s : State) (die g : Nat) (r : Round), s.fenRound die g = some r ∧ r.waiting = true ∧ isRoot r.desc = true ∧ s.frozen = false) ∧
    (∃ (s : State) (lp : Nat) (p : Pkt) (r : Round),
      let c := p.msgId % 4096
      let k := p.offset / 4096
      p.typ = 0x11 ∧ (s.takeFn lp p).rootPacket lp p = some r ∧ r.stripe.contains (p.msgId % 4096) = true ∧
      (r.chunk (p.msgId % 4096)).finished = false ∧ p.offset / 4096 < 16 ∧ (r.chunk c).relayed.any (fun y => y.region == k) = true) ∧
    (∃ (s : State) (lp : Nat) (p : Pkt) (r : Round),
      let c := p.msgId % 4096
      let k := p.offset / 4096
      let got := (r.chunk c).relayed ++ [⟨k, pflag p fSpec, pflag p fPoison, p.pcrc, p.cchk, p.payload⟩]
      let whole := (List.range (dRegions r.desc c)).all fun k => got.any fun y => y.region == k
      p.typ = 0x11 ∧ (s.takeFn lp p).rootPacket lp p = some r ∧ r.stripe.contains (p.msgId % 4096) = true ∧
      (r.chunk (p.msgId % 4096)).finished = false ∧ p.offset / 4096 < 16 ∧ (r.chunk c).relayed.any (fun y => y.region == k) = false ∧ whole = false) ∧
    (∃ (s : State) (lp : Nat) (p : Pkt) (r : Round),
      let c := p.msgId % 4096
      let k := p.offset / 4096
      let got := (r.chunk c).relayed ++ [⟨k, pflag p fSpec, pflag p fPoison, p.pcrc, p.cchk, p.payload⟩]
      let whole := (List.range (dRegions r.desc c)).all fun k => got.any fun y => y.region == k
      p.typ = 0x11 ∧ (s.takeFn lp p).rootPacket lp p = some r ∧ r.stripe.contains (p.msgId % 4096) = true ∧
      (r.chunk (p.msgId % 4096)).finished = false ∧ p.offset / 4096 < 16 ∧ (r.chunk c).relayed.any (fun y => y.region == k) = false ∧ whole = true ∧
      relayedOk got = false) ∧
    (∃ (s : State) (lp : Nat) (p : Pkt) (r : Round),
      let c := p.msgId % 4096
      let k := p.offset / 4096
      let got := (r.chunk c).relayed ++ [⟨k, pflag p fSpec, pflag p fPoison, p.pcrc, p.cchk, p.payload⟩]
      let whole := (List.range (dRegions r.desc c)).all fun k => got.any fun y => y.region == k
      p.typ = 0x11 ∧ (s.takeFn lp p).rootPacket lp p = some r ∧ r.stripe.contains (p.msgId % 4096) = true ∧
      (r.chunk (p.msgId % 4096)).finished = false ∧ p.offset / 4096 < 16 ∧ (r.chunk c).relayed.any (fun y => y.region == k) = false ∧ whole = true ∧
      relayedOk got = true) ∧
    (∃ (s : State) (lp : Nat) (p : Pkt) (r : Round),
      p.typ = 0x12 ∧ (s.takeFn lp p).rootPacket lp p = some r ∧ r.stripe.contains (p.msgId % 4096) = true ∧ beAt 2 2 p.payload = r.round) ∧
    (∃ (s : State) (lp : Nat) (p : Pkt) (r : Round), p.typ = 0x04 ∧ beAt 0 2 p.payload = 1 ∧ (s.takeFn lp p).rootPacket lp p = some r) :=
  ⟨⟨(fenS dHallOf [{ aRound dHallOf [] with waiting := true }]), 5, (hallCtl 2 4), fenEnt, dHallOf, ({ aRound dHallOf [] with waiting := true }),
     by decide +kernel⟩,
   ⟨(fenS dHallOf [aRound dHallOf []]), 5, (hallCtl 2 4), fenEnt, dHallOf, (aRound dHallOf []), by decide +kernel⟩,
   ⟨(fenS dHallOf [aRound dHallOf []]), 5, (hallCtl 4 4), fenEnt, dHallOf, (aRound dHallOf []), by decide +kernel⟩,
   ⟨(fenS dHallOf [{ aRound dHallOf [] with waiting := true }]), 5, (hallCtl 5 4), fenEnt, dHallOf, ({ aRound dHallOf [] with waiting := true }),
     by decide +kernel⟩,
   ⟨(fenS dHallOf [{ aRound dHallOf [] with waiting := true }]), 5, (hallCtl 3 4), fenEnt, dHallOf, ({ aRound dHallOf [] with waiting := true }),
     by decide +kernel⟩,
   ⟨(fenS dHallOf [aRound dHallOf []]), 5, (hallCtl 3 4), fenEnt, dHallOf, (aRound dHallOf []), by decide +kernel⟩,
   ⟨(fenS dHallOf [{ aRound dHallOf [] with waiting := true }]), 5, (hallCtl 9 4), fenEnt, dHallOf, ({ aRound dHallOf [] with waiting := true }),
     by decide +kernel⟩,
   ⟨(fenS dRootOf [{ aRound dRootOf [] with waiting := true }]), 5, (hallCtl 3 4), fenEnt, dRootOf, ({ aRound dRootOf [] with waiting := true }),
     by decide +kernel⟩,
   ⟨(fenS dRootOf [aRound dRootOf []]), 5, (hallCtl 3 4), fenEnt, dRootOf, (aRound dRootOf []), by decide +kernel⟩,
   ⟨(fenS dRootOf [{ aRound dRootOf [] with waiting := true }]), 5, (hallCtl 9 4), fenEnt, dRootOf, ({ aRound dRootOf [] with waiting := true }),
     by decide +kernel⟩,
   ⟨(fenS dRootOf []), 5, (hallCtl 3 5), fenEnt, dRootOf, by decide +kernel⟩,
   ⟨(fenS dRootOf [{ aRound dRootOf [] with waiting := true }]), 0, 1, ({ aRound dRootOf [] with waiting := true }), by decide +kernel⟩,
   ⟨(fenS dHallOf [chunkR dHallOf { Chunk.init with relayed := [⟨0, false, false, 0, 0, []⟩] }]), 5, (hallOut 0), (chunkR dHallOf { Chunk.init with
     relayed := [⟨0, false, false, 0, 0, []⟩] }), by decide +kernel⟩,
   ⟨(fenS dHallOf [aRound dHallOf []]), 5, (fromRoot 0x11 (leBytes 64 0)), (aRound dHallOf []), by decide +kernel⟩,
   ⟨(fenS dHallOf [aRound dHallOf []]), 5, (hallOut 1), (aRound dHallOf []), by decide +kernel⟩,
   ⟨(fenS dHallOf [aRound dHallOf []]), 5, (hallOut 0), (aRound dHallOf []), by decide +kernel⟩,
   ⟨(fenS dHallOf [aRound dHallOf []]), 5, (fromRoot 0x12 (beBytes 2 0 ++ beBytes 2 4 ++ beBytes 60 0)), (aRound dHallOf []), by decide +kernel⟩,
   ⟨(fenS dHallOf [aRound dHallOf []]), 5, (fromRoot 0x04 (beBytes 2 1 ++ beBytes 1 1 ++ beBytes 61 0)), (aRound dHallOf []), by decide +kernel⟩⟩

theorem witness_FenCommandsComplete :
    (∃ (s : State) (h : CmdHdr) (i d : Nat), s.takes h 0x0D01 true = true ∧ h.target = 0 ∧ i ≤ 4095 ∧ descOk d = true) ∧
    (∃ (s : State) (h : CmdHdr) (i d : Nat), s.takes h 0x0D01 true = true ∧ h.target = 0 ∧ (4095 < i ∨ descOk d = false)) ∧
    (∃ (s : State) (h : CmdHdr), s.takes h 0x0D01 true = true ∧ h.target ≠ 0) ∧
    (∃ (s : State) (h : CmdHdr) (i w : Nat), s.takes h 0x0D02 true = true ∧ h.target ≤ 1 ∧ i ≤ 4095 ∧ w ≤ 3) ∧
    (∃ (s : State) (h : CmdHdr) (i w : Nat), s.takes h 0x0D02 true = true ∧ h.target ≤ 1 ∧ (4095 < i ∨ 3 < w)) ∧
    (∃ (s : State) (h : CmdHdr), s.takes h 0x0D02 true = true ∧ 1 < h.target) ∧
    (∃ (s : State) (h : CmdHdr),
      let die := h.target
      s.takes h 0x0D03 true = true ∧ 1 < die) ∧
    (∃ (s : State) (h : CmdHdr) (p sf sc tf tc : Nat),
      let a := s.start h 0x0D03
      let die := h.target
      let sram := fun q => (a.rd (Reg.FADM_PART_SRAM die q)).toNat
      let t1f := fun q => a.fld (Reg.FADM_PART_T1_FIRST die q) ⟨23, 0⟩
      let t1c := fun q => a.fld (Reg.FADM_PART_T1_COUNT die q) ⟨23, 0⟩
      let clash := (List.range 64).any fun q => q != p && (overlap sf sc (bits 9 0 (sram q)) (bits 25 16 (sram q)) || overlap tf tc (t1f q) (t1c q))
      let bad := decide (63 < p) || decide (768 < sf + sc) || decide (a.fld (Reg.FADM_T1_SLOTS die) Fld.FADM_T1_SLOTS_SLOTS < tf + tc) || clash
      s.takes h 0x0D03 true = true ∧ die ≤ 1 ∧ bad = true) ∧
    (∃ (s : State) (h : CmdHdr) (p ten sf sc tf tc : Nat),
      let a := s.start h 0x0D03
      let die := h.target
      let sram := fun q => (a.rd (Reg.FADM_PART_SRAM die q)).toNat
      let t1f := fun q => a.fld (Reg.FADM_PART_T1_FIRST die q) ⟨23, 0⟩
      let t1c := fun q => a.fld (Reg.FADM_PART_T1_COUNT die q) ⟨23, 0⟩
      let clash := (List.range 64).any fun q => q != p && (overlap sf sc (bits 9 0 (sram q)) (bits 25 16 (sram q)) || overlap tf tc (t1f q) (t1c q))
      let bad := decide (63 < p) || decide (768 < sf + sc) || decide (a.fld (Reg.FADM_T1_SLOTS die) Fld.FADM_T1_SLOTS_SLOTS < tf + tc) || clash
      let used := a.fld (Reg.FADM_PART_STATUS die p) Fld.FADM_PART_STATUS_SRAM_USED != 0 || a.fld (Reg.FADM_PART_T1_USED die p) ⟨23, 0⟩ != 0
      let less := a.fld (Reg.FADM_PART_CFG die p) Fld.FADM_PART_CFG_TENANT != ten || bits 9 0 (sram p) != sf || decide (sc < bits 25 16 (sram p)) ||
          t1f p != tf || decide (tc < t1c p)
      s.takes h 0x0D03 true = true ∧ die ≤ 1 ∧ bad = false ∧ used = true ∧ less = true) ∧
    (∃ (s : State) (h : CmdHdr) (p ten sf sc tf tc : Nat),
      let a := s.start h 0x0D03
      let die := h.target
      let sram := fun q => (a.rd (Reg.FADM_PART_SRAM die q)).toNat
      let t1f := fun q => a.fld (Reg.FADM_PART_T1_FIRST die q) ⟨23, 0⟩
      let t1c := fun q => a.fld (Reg.FADM_PART_T1_COUNT die q) ⟨23, 0⟩
      let clash := (List.range 64).any fun q => q != p && (overlap sf sc (bits 9 0 (sram q)) (bits 25 16 (sram q)) || overlap tf tc (t1f q) (t1c q))
      let bad := decide (63 < p) || decide (768 < sf + sc) || decide (a.fld (Reg.FADM_T1_SLOTS die) Fld.FADM_T1_SLOTS_SLOTS < tf + tc) || clash
      let used := a.fld (Reg.FADM_PART_STATUS die p) Fld.FADM_PART_STATUS_SRAM_USED != 0 || a.fld (Reg.FADM_PART_T1_USED die p) ⟨23, 0⟩ != 0
      let less := a.fld (Reg.FADM_PART_CFG die p) Fld.FADM_PART_CFG_TENANT != ten || bits 9 0 (sram p) != sf || decide (sc < bits 25 16 (sram p)) ||
          t1f p != tf || decide (tc < t1c p)
      s.takes h 0x0D03 true = true ∧ die ≤ 1 ∧ bad = false ∧ (used = false ∨ less = false)) ∧
    (∃ (s : State) (h : CmdHdr) (p : Nat), s.takes h 0x0D04 true = true ∧ h.target ≤ 1 ∧ p ≤ 63) ∧
    (∃ (s : State) (h : CmdHdr) (p : Nat), s.takes h 0x0D04 true = true ∧ h.target ≤ 1 ∧ 63 < p) ∧
    (∃ (s : State) (h : CmdHdr), s.takes h 0x0D04 true = true ∧ 1 < h.target) ∧
    (∃ (s : State) (h : CmdHdr) (g rnd : Nat) (r : Round),
      let a := s.start h 0x0D05
      s.takes h 0x0D05 true = true ∧ h.target ≤ 1 ∧ a.fenRound h.target g = some r ∧ r.round = rnd) ∧
    (∃ (s : State) (h : CmdHdr) (g rnd : Nat),
      let a := s.start h 0x0D05
      s.takes h 0x0D05 true = true ∧ h.target ≤ 1 ∧ (a.fenRound h.target g = none ∨ (∃ r, a.fenRound h.target g = some r ∧ r.round ≠ rnd))) ∧
    (∃ (s : State) (h : CmdHdr), s.takes h 0x0D05 true = true ∧ 1 < h.target) ∧
    (∃ (s : State) (h : CmdHdr) (g : Nat),
      let a := s.start h 0x0D06
      s.takes h 0x0D06 true = true ∧ h.target ≤ 1 ∧ a.fenRound h.target g = none) ∧
    (∃ (s : State) (h : CmdHdr) (g : Nat) (r : Round),
      let a := s.start h 0x0D06
      s.takes h 0x0D06 true = true ∧ h.target ≤ 1 ∧ a.fenRound h.target g = some r) ∧
    (∃ (s : State) (h : CmdHdr), s.takes h 0x0D06 true = true ∧ 1 < h.target) ∧
    (∃ (s : State) (die : Nat), s.pwr.held = false ∧ s.pageBusy (pg 0x0D die) = false) ∧
    (∃ (s : State) (n : Nat), s.pwr.held = false ∧ s.pageBusy (pg 0x0C n) = false) :=
  ⟨⟨(fenS (fenDesc 0) [aRound (fenDesc 0) []]), ⟨.firmware, 0, false, false, 0⟩, 4095, (fenDesc 0), by decide +kernel⟩,
   ⟨(fenS (fenDesc 0) [aRound (fenDesc 0) []]), ⟨.firmware, 0, false, false, 0⟩, 4095, 0, by decide +kernel⟩,
   ⟨(fenS (fenDesc 0) [aRound (fenDesc 0) []]), ⟨.firmware, 0, false, false, 1⟩, by decide +kernel⟩,
   ⟨(fenS (fenDesc 0) [aRound (fenDesc 0) []]), ⟨.firmware, 0, false, false, 0⟩, 4095, 0, by decide +kernel⟩,
   ⟨(fenS (fenDesc 0) [aRound (fenDesc 0) []]), ⟨.firmware, 0, false, false, 0⟩, 4095, 5, by decide +kernel⟩,
   ⟨(fenS (fenDesc 0) [aRound (fenDesc 0) []]), ⟨.firmware, 0, false, false, 512⟩, by decide +kernel⟩,
   ⟨up, ⟨.firmware, 0, false, false, 2⟩, by decide +kernel⟩,
   ⟨up, fwH, 64, 0, 0, 0, 0, by decide +kernel⟩,
   ⟨((up.wr (Reg.FADM_PART_SRAM 0 3) (BitVec.ofNat 32 (2 * 2 ^ 16 + 10))).setFld (Reg.FADM_PART_STATUS 0 3) Fld.FADM_PART_STATUS_SRAM_USED 1),
     ⟨.firmware, 0, false, false, 0⟩, 3, 0, 10, 1, 0, 0, by decide +kernel⟩,
   ⟨up, fwH, 0, 0, 0, 0, 0, 0, by decide +kernel⟩,
   ⟨(fenS (fenDesc 0) [aRound (fenDesc 0) []]), ⟨.firmware, 0, false, false, 0⟩, 0, by decide +kernel⟩,
   ⟨up, ⟨.firmware, 0, false, false, 0⟩, 64, by decide +kernel⟩,
   ⟨(fenS (fenDesc 0) [aRound (fenDesc 0) []]), ⟨.firmware, 0, false, false, 512⟩, by decide +kernel⟩,
   ⟨(fenS (fenDesc 0) [aRound (fenDesc 0) []]), ⟨.firmware, 0, false, false, 0⟩, 1, 4, (aRound (fenDesc 0) []), by decide +kernel⟩,
   ⟨(fenS (fenDesc 0) [aRound (fenDesc 0) []]), ⟨.firmware, 0, false, false, 0⟩, 1, 0, by decide +kernel⟩,
   ⟨(fenS (fenDesc 0) [aRound (fenDesc 0) []]), ⟨.firmware, 0, false, false, 512⟩, by decide +kernel⟩,
   ⟨(fenS (fenDesc 0) [aRound (fenDesc 0) []]), ⟨.firmware, 0, false, false, 0⟩, 0, by decide +kernel⟩,
   ⟨(fenS (fenDesc 0) [aRound (fenDesc 0) []]), ⟨.firmware, 0, false, false, 0⟩, 1, (aRound (fenDesc 0) []), by decide +kernel⟩,
   ⟨(fenS (fenDesc 0) [aRound (fenDesc 0) []]), ⟨.firmware, 0, false, false, 512⟩, by decide +kernel⟩,
   ⟨(fenS (fenDesc 0) [aRound (fenDesc 0) []]), 0, by decide +kernel⟩,
   ⟨(fenS (fenDesc 0) [aRound (fenDesc 0) []]), 0, by decide +kernel⟩⟩

theorem witness_PeatRequestsComplete :
    (∃ (s : State) (pkt : Pkt) (op : Nat),
      let mine := fun (q : Reasm) => q.src == pkt.src && q.msgId == pkt.msgId && q.gen == pkt.gen
      let held := match s.peat.reasm.find? mine with | some q => q.segs | none => []
      pkt.typ = 0x20 ∧ s.frozen = false ∧ op ∈ [1, 2, 3, 4, 5, 6, 7, 8] ∧ (held.any fun x => x.offset == pkt.offset) = true) ∧
    (∃ (s : State) (pkt : Pkt) (op : Nat),
      let mine := fun (q : Reasm) => q.src == pkt.src && q.msgId == pkt.msgId && q.gen == pkt.gen
      let held := match s.peat.reasm.find? mine with | some q => q.segs | none => []
      pkt.typ = 0x20 ∧ s.frozen = false ∧ op ∈ [1, 2, 3, 4, 5, 6, 7, 8] ∧ (held.any fun x => x.offset == pkt.offset) = false ∧ s.peatStale pkt = true) ∧
    (∃ (s : State) (lp : Nat) (pkt : Pkt) (op : Nat),
      let mine := fun (q : Reasm) => q.src == pkt.src && q.msgId == pkt.msgId && q.gen == pkt.gen
      let held := match s.peat.reasm.find? mine with | some q => q.segs | none => []
      let q := s.peatReasm lp pkt
      let g := gather q.segs
      pkt.typ = 0x20 ∧ s.frozen = false ∧ op ∈ [1, 2, 3, 4, 5, 6, 7, 8] ∧ (held.any fun x => x.offset == pkt.offset) = false ∧ s.peatStale pkt = false ∧
      q.total ≠ some g.1) ∧
    (∃ (s : State) (lp : Nat) (pkt : Pkt) (op : Nat),
      let mine := fun (q : Reasm) => q.src == pkt.src && q.msgId == pkt.msgId && q.gen == pkt.gen
      let held := match s.peat.reasm.find? mine with | some q => q.segs | none => []
      let q := s.peatReasm lp pkt
      let g := gather q.segs
      pkt.typ = 0x20 ∧ s.frozen = false ∧ op ∈ [1, 2, 3, 4, 5, 6, 7, 8] ∧ (held.any fun x => x.offset == pkt.offset) = false ∧ s.peatStale pkt = false ∧
      q.total = some g.1 ∧ (beAt 0 1 g.2.2 = op ∨ beAt 0 1 g.2.2 = 0 ∨ 8 < beAt 0 1 g.2.2)) ∧
    (∃ (s : State) (m : List Byte),
      let r := readReq m
      let n := s.inc Cnt.PEAT_REQUESTS
      let may := n.peatOnline && (r.op != 4 || n.flag Reg.PEAT_STATUS Fld.PEAT_STATUS_ATTEND_OK)
      s.partOf r.tenant = none ∧ may = false) ∧
    (∃ (s : State) (m : List Byte) (poison : List (Nat × Nat)),
      let r := readReq m
      let n := s.inc Cnt.PEAT_REQUESTS
      let may := n.peatOnline && (r.op != 4 || n.flag Reg.PEAT_STATUS Fld.PEAT_STATUS_ATTEND_OK)
      s.partOf r.tenant = none ∧ may = true ∧ (poison.any fun q => decide (q.1 < 64)) = true) ∧
    (∃ (s : State) (m : List Byte) (poison : List (Nat × Nat)),
      let r := readReq m
      let n := s.inc Cnt.PEAT_REQUESTS
      let may := n.peatOnline && (r.op != 4 || n.flag Reg.PEAT_STATUS Fld.PEAT_STATUS_ATTEND_OK)
      s.partOf r.tenant = none ∧ may = true ∧ (poison.any fun q => decide (q.1 < 64)) = false) ∧
    (∃ (s : State) (m : List Byte) (p : Nat),
      let r := readReq m
      let n := (s.inc Cnt.PEAT_REQUESTS).pmcEvent 0x20 0 p 1
      let may := n.peatOnline && (r.op != 4 || n.flag Reg.PEAT_STATUS Fld.PEAT_STATUS_ATTEND_OK)
      s.partOf r.tenant = some p ∧ may = false) ∧
    (∃ (s : State) (m : List Byte) (poison : List (Nat × Nat)) (p : Nat),
      let r := readReq m
      let n := (s.inc Cnt.PEAT_REQUESTS).pmcEvent 0x20 0 p 1
      let may := n.peatOnline && (r.op != 4 || n.flag Reg.PEAT_STATUS Fld.PEAT_STATUS_ATTEND_OK)
      s.partOf r.tenant = some p ∧ may = true ∧ (poison.any fun q => decide (q.1 < 64)) = true) ∧
    (∃ (s : State) (pkt : Pkt) (m : List Byte) (poison : List (Nat × Nat)) (p : Nat),
      let r := readReq m
      let n := (s.inc Cnt.PEAT_REQUESTS).pmcEvent 0x20 0 p 1
      let may := n.peatOnline && (r.op != 4 || n.flag Reg.PEAT_STATUS Fld.PEAT_STATUS_ATTEND_OK)
      s.partOf r.tenant = some p ∧ may = true ∧ (poison.any fun q => decide (q.1 < 64)) = false ∧ n.partMember p pkt.src = false) ∧
    (∃ (s : State) (pkt : Pkt) (m : List Byte) (badLen : Bool) (poison : List (Nat × Nat)) (p : Nat),
      let r := readReq m
      let outside := poison.any fun q => !(r.op == 1 && decide (r.dataAt ≤ q.1))
      let n := (s.inc Cnt.PEAT_REQUESTS).pmcEvent 0x20 0 p 1
      let may := n.peatOnline && (r.op != 4 || n.flag Reg.PEAT_STATUS Fld.PEAT_STATUS_ATTEND_OK)
      s.partOf r.tenant = some p ∧ may = true ∧ (poison.any fun q => decide (q.1 < 64)) = false ∧ n.partMember p pkt.src = true ∧
      (badLen = true ∨ r.ok m = false ∨ outside = true)) ∧
    (∃ (s : State) (pkt : Pkt) (m : List Byte) (badLen : Bool) (poison : List (Nat × Nat)) (p : Nat),
      let r := readReq m
      let outside := poison.any fun q => !(r.op == 1 && decide (r.dataAt ≤ q.1))
      let n := (s.inc Cnt.PEAT_REQUESTS).pmcEvent 0x20 0 p 1
      let may := n.peatOnline && (r.op != 4 || n.flag Reg.PEAT_STATUS Fld.PEAT_STATUS_ATTEND_OK)
      s.partOf r.tenant = some p ∧ may = true ∧ (poison.any fun q => decide (q.1 < 64)) = false ∧ n.partMember p pkt.src = true ∧ badLen = false ∧
      r.ok m = true ∧ outside = false ∧ n.peatResetting p = true) ∧
    (∃ (s : State) (pkt : Pkt) (m : List Byte) (badLen : Bool) (poison : List (Nat × Nat)) (errs : List BeatErr) (p : Nat),
      let r := readReq m
      let outside := poison.any fun q => !(r.op == 1 && decide (r.dataAt ≤ q.1))
      let n := (s.inc Cnt.PEAT_REQUESTS).pmcEvent 0x20 0 p 1
      let may := n.peatOnline && (r.op != 4 || n.flag Reg.PEAT_STATUS Fld.PEAT_STATUS_ATTEND_OK)
      s.partOf r.tenant = some p ∧ may = true ∧ (poison.any fun q => decide (q.1 < 64)) = false ∧ n.partMember p pkt.src = true ∧ badLen = false ∧
      r.ok m = true ∧ outside = false ∧ n.peatResetting p = false ∧ errs.any (·.ue) = true) ∧
    (∃ (s : State) (pkt : Pkt) (m : List Byte) (badLen : Bool) (poison : List (Nat × Nat)) (errs : List BeatErr) (p : Nat),
      let r := readReq m
      let outside := poison.any fun q => !(r.op == 1 && decide (r.dataAt ≤ q.1))
      let n := (s.inc Cnt.PEAT_REQUESTS).pmcEvent 0x20 0 p 1
      let may := n.peatOnline && (r.op != 4 || n.flag Reg.PEAT_STATUS Fld.PEAT_STATUS_ATTEND_OK)
      s.partOf r.tenant = some p ∧ may = true ∧ (poison.any fun q => decide (q.1 < 64)) = false ∧ n.partMember p pkt.src = true ∧ badLen = false ∧
      r.ok m = true ∧ outside = false ∧ n.peatResetting p = false ∧ errs.any (·.ue) = false ∧ r.op ≠ 4) ∧
    (∃ (s : State) (pkt : Pkt) (m : List Byte) (badLen : Bool) (poison : List (Nat × Nat)) (errs : List BeatErr) (p : Nat),
      let r := readReq m
      let outside := poison.any fun q => !(r.op == 1 && decide (r.dataAt ≤ q.1))
      let n := (s.inc Cnt.PEAT_REQUESTS).pmcEvent 0x20 0 p 1
      let may := n.peatOnline && (r.op != 4 || n.flag Reg.PEAT_STATUS Fld.PEAT_STATUS_ATTEND_OK)
      s.partOf r.tenant = some p ∧ may = true ∧ (poison.any fun q => decide (q.1 < 64)) = false ∧ n.partMember p pkt.src = true ∧ badLen = false ∧
      r.ok m = true ∧ outside = false ∧ n.peatResetting p = false ∧ errs.any (·.ue) = false ∧ r.op = 4) ∧
    (∃ (s : State) (src msgId gen : Nat),
      let mine := fun (q : Reasm) => q.src == src && q.msgId == msgId && q.gen == gen
      s.peat.reasm.find? mine = none) ∧
    (∃ (s : State) (src msgId gen : Nat) (q : Reasm),
      let mine := fun (q : Reasm) => q.src == src && q.msgId == msgId && q.gen == gen
      s.peat.reasm.find? mine = some q ∧ s.frozen = false) :=
  ⟨⟨({ peatUp with peat := { peatUp.peat with reasm := [⟨0x5000, 0, 1, 0, [⟨0, 0, [], false⟩], none⟩] } }), getPkt, 2, by decide +kernel⟩,
   ⟨peatUp, ({ getPkt with gen := 9 }), 2, by decide +kernel⟩,
   ⟨peatUp, 0, ({ getPkt with flags := 0 }), 2, by decide +kernel⟩,
   ⟨peatUp, 0, getPkt, 2, by decide +kernel⟩,
   ⟨up, getMsg, by decide +kernel⟩,
   ⟨(peatUp.setFlag (Reg.PEAT_PART_CFG 0) Fld.PEAT_PART_CFG_ENABLE false), getMsg, ([(0, 4)]), by decide +kernel⟩,
   ⟨(peatUp.setFlag (Reg.PEAT_PART_CFG 0) Fld.PEAT_PART_CFG_ENABLE false), getMsg, [], by decide +kernel⟩,
   ⟨(peatUp.setFlag Reg.PEAT_CTRL Fld.PEAT_CTRL_ACCEPT false), getMsg, 0, by decide +kernel⟩,
   ⟨peatUp, getMsg, ([(63, 64)]), 0, by decide +kernel⟩,
   ⟨peatUp, ({ getPkt with src := 0x7000 }), getMsg, ([(64, 128)]), 0, by decide +kernel⟩,
   ⟨peatUp, getPkt, getMsg, true, [], 0, by decide +kernel⟩,
   ⟨(sweeping [(0, none)]), getPkt, getMsg, false, [], 0, by decide +kernel⟩,
   ⟨peatUp, getPkt, getMsg, false, [], ([⟨0, true⟩]), 0, by decide +kernel⟩,
   ⟨peatUp, getPkt, getMsg, false, [], [], 0, by decide +kernel⟩,
   ⟨peatUp, (peatPkt 4 1 true 0 128), (peatMsg 4 1 true 0 128), false, [], [], 0, by decide +kernel⟩,
   ⟨peatUp, 0x5000, 3, 0, by decide +kernel⟩,
   ⟨({ peatUp with peat := { up.peat with reasm := [⟨0x5000, 3, 0, 0, [], none⟩] } }), 0x5000, 3, 0, ⟨0x5000, 3, 0, 0, [], none⟩, by decide +kernel⟩⟩

theorem witness_PeatRowsComplete :
    (∃ (s : State) (h : CmdHdr) (opcode : Nat), opcode ∈ [0x0E01, 0x0E02, 0x0E03, 0x0E04, 0x0E05] ∧ s.takes h opcode true = true ∧ h.target ≠ 0) ∧
    (∃ (s : State) (h : CmdHdr),
      let a := s.start h 0x0E01
      s.takes h 0x0E01 true = true ∧ h.target = 0 ∧ a.tierReady 0 = false) ∧
    (∃ (s : State) (h : CmdHdr) (p f1 c1 f2 c2 base l : Nat),
      let a := s.start h 0x0E01
      s.takes h 0x0E01 true = true ∧ h.target = 0 ∧ a.tierReady 0 = true ∧ a.partFits p f1 c1 f2 c2 base l = false) ∧
    (∃ (s : State) (h : CmdHdr) (p ten f1 c1 f2 c2 base l : Nat),
      let a := s.start h 0x0E01
      let holds := a.peat.owner.any fun o => o.2 / 2 ^ 32 == p
      let same := a.slotRange p 0 == (f1, c1) && a.slotRange p 1 == (f2, c2) && a.partTenant p == ten
      s.takes h 0x0E01 true = true ∧ h.target = 0 ∧ a.tierReady 0 = true ∧ a.partFits p f1 c1 f2 c2 base l = true ∧ a.partOn p = true ∧ holds = true ∧
      same = false) ∧
    (∃ (s : State) (h : CmdHdr) (p ten f1 c1 f2 c2 base l : Nat),
      let a := s.start h 0x0E01
      let holds := a.peat.owner.any fun o => o.2 / 2 ^ 32 == p
      let same := a.slotRange p 0 == (f1, c1) && a.slotRange p 1 == (f2, c2) && a.partTenant p == ten
      s.takes h 0x0E01 true = true ∧ h.target = 0 ∧ a.tierReady 0 = true ∧ a.partFits p f1 c1 f2 c2 base l = true ∧
      (a.partOn p = false ∨ holds = false ∨ same = true) ∧ a.partOn p = true ∧ a.dirOff p 0 = 65536 * base ∧ a.dirLog2 p = l) ∧
    (∃ (s : State) (h : CmdHdr) (p ring ten grp f1 c1 f2 c2 base l en t b n : Nat),
      let a := s.start h 0x0E01
      let holds := a.peat.owner.any fun o => o.2 / 2 ^ 32 == p
      let same := a.slotRange p 0 == (f1, c1) && a.slotRange p 1 == (f2, c2) && a.partTenant p == ten
      let u := (a.wr (Reg.PEAT_PART_CFG p) (BitVec.ofNat 32 (b2n (bit 0 en) * 2 ^ 31 + ring % 256 * 2 ^ 16 + ten % 2 ^ 16))).wr
          (Reg.PEAT_PART_ACCESS p) (BitVec.ofNat 32 (grp % 2 ^ 20))
      let v := (u.wr (Reg.PEAT_PART_T1_FIRST p) (BitVec.ofNat 32 (f1 % 2 ^ 25))).wr (Reg.PEAT_PART_T1_COUNT p) (BitVec.ofNat 32 (c1 % 2 ^ 25))
      let w := (v.wr (Reg.PEAT_PART_T2_FIRST p) (BitVec.ofNat 32 (f2 % 2 ^ 25))).wr (Reg.PEAT_PART_T2_COUNT p) (BitVec.ofNat 32 (c2 % 2 ^ 25))
      let x := w.wr (Reg.PEAT_PART_DIR p) (BitVec.ofNat 32 (l * 2 ^ 24 + base % 2 ^ 24))
      let y := (x.setPeat fun q => { q with owner := q.owner.filter fun o => o.2 / 2 ^ 32 != p, stash := q.stash.filter fun z => z.1 / 4 != p }).stashCount p
      s.takes h 0x0E01 true = true ∧ h.target = 0 ∧ a.tierReady 0 = true ∧ a.partFits p f1 c1 f2 c2 base l = true ∧
      (a.partOn p = false ∨ holds = false ∨ same = true) ∧ (a.partOn p = false ∨ a.dirOff p 0 ≠ 65536 * base ∨ a.dirLog2 p ≠ l) ∧
      y.regionOf 4 = some (t, b, n)) ∧
    (∃ (s : State) (h : CmdHdr) (p : Nat),
      let a := s.start h 0x0E02
      s.takes h 0x0E02 true = true ∧ h.target = 0 ∧ p ≤ 63 ∧ a.flag (Reg.PEAT_PART_STATUS p) Fld.PEAT_PART_STATUS_RESETTING = false) ∧
    (∃ (s : State) (h : CmdHdr) (p : Nat),
      let a := s.start h 0x0E02
      s.takes h 0x0E02 true = true ∧ h.target = 0 ∧ p ≤ 63 ∧ a.flag (Reg.PEAT_PART_STATUS p) Fld.PEAT_PART_STATUS_RESETTING = true) ∧
    (∃ (s : State) (h : CmdHdr) (opcode p : Nat), opcode ∈ [0x0E02, 0x0E03, 0x0E04, 0x0E05] ∧ s.takes h opcode true = true ∧ h.target = 0 ∧ 63 < p) ∧
    (∃ (s : State) (h : CmdHdr) (p : Nat),
      let a := s.start h 0x0E03
      s.takes h 0x0E03 true = true ∧ h.target = 0 ∧ p ≤ 63 ∧ a.tierReady 0 = false) ∧
    (∃ (s : State) (h : CmdHdr) (p key i : Nat) (u : State),
      let a := s.start h 0x0E03
      s.takes h 0x0E03 true = true ∧ h.target = 0 ∧ p ≤ 63 ∧ a.tierReady 0 = true ∧ a.dirFind p key = (some i, u)) ∧
    (∃ (s : State) (h : CmdHdr) (p key : Nat) (u : State),
      let a := s.start h 0x0E03
      s.takes h 0x0E03 true = true ∧ h.target = 0 ∧ p ≤ 63 ∧ a.tierReady 0 = true ∧ a.dirFind p key = (none, u)) ∧
    (∃ (s : State) (h : CmdHdr) (p : Nat),
      let a := s.start h 0x0E04
      s.takes h 0x0E04 true = true ∧ h.target = 0 ∧ p ≤ 63 ∧ a.tierReady 0 = false) ∧
    (∃ (s : State) (h : CmdHdr) (p : Nat),
      let a := s.start h 0x0E04
      s.takes h 0x0E04 true = true ∧ h.target = 0 ∧ p ≤ 63 ∧ a.tierReady 0 = true ∧ a.regionOf 6 = none) ∧
    (∃ (s : State) (h : CmdHdr) (p off t b n : Nat),
      let a := s.start h 0x0E04
      let body := (a.liveEntries p).flatMap (leBytes 32)
      let len := 64 + body.length
      s.takes h 0x0E04 true = true ∧ h.target = 0 ∧ p ≤ 63 ∧ a.tierReady 0 = true ∧ a.regionOf 6 = some (t, b, n) ∧ (off % 64 ≠ 0 ∨ n < off + len)) ∧
    (∃ (s : State) (h : CmdHdr) (p off t b n : Nat),
      let a := s.start h 0x0E04
      let body := (a.liveEntries p).flatMap (leBytes 32)
      let len := 64 + body.length
      s.takes h 0x0E04 true = true ∧ h.target = 0 ∧ p ≤ 63 ∧ a.tierReady 0 = true ∧ a.regionOf 6 = some (t, b, n) ∧ off % 64 = 0 ∧ off + len ≤ n) ∧
    (∃ (s : State) (h : CmdHdr) (p : Nat), s.takes h 0x0E05 true = true ∧ h.target = 0 ∧ p ≤ 63) ∧
    (∃ (t : State) (p : Nat), t.flag (Reg.PEAT_PART_STATUS p) Fld.PEAT_PART_STATUS_RESETTING = false) ∧
    (∃ (t : State) (p : Nat), t.flag (Reg.PEAT_PART_STATUS p) Fld.PEAT_PART_STATUS_RESETTING = true) ∧
    (∃ (s : State) (p : Nat), s.flag (Reg.PEAT_PART_STATUS p) Fld.PEAT_PART_STATUS_RESETTING = false) ∧
    (∃ (s : State) (p : Nat),
      let u := (s.peatSweep p).setFlag (Reg.PEAT_PART_STATUS p) Fld.PEAT_PART_STATUS_RESETTING false
      s.flag (Reg.PEAT_PART_STATUS p) Fld.PEAT_PART_STATUS_RESETTING = true ∧ takeFirst (fun x => x.1 == p) u.peat.resetWait = none) ∧
    (∃ (s : State) (p : Nat) (x : _) (rest : _),
      let u := (s.peatSweep p).setFlag (Reg.PEAT_PART_STATUS p) Fld.PEAT_PART_STATUS_RESETTING false
      s.flag (Reg.PEAT_PART_STATUS p) Fld.PEAT_PART_STATUS_RESETTING = true ∧ takeFirst (fun x => x.1 == p) u.peat.resetWait = some (x, rest)) ∧
    (∃ (s : State) (p : Nat),
      let rate := s.fld Reg.PEAT_DEMOTE Fld.PEAT_DEMOTE_RATE
      let u := s.elapseToTick (max s.peat.demoteAt (Tbl.getD s.peat.stopUntil 0 p))
      let n := (u.slotRange p 0).2
      let hand := Tbl.getD u.peat.hand 0 p
      let cand := ((List.range (min 64 n)).map fun i => (hand + i) % n).filterMap fun o =>
          (Tbl.find u.peat.owner (slotKey 0 ((u.slotRange p 0).1 + o))).bind fun w =>
            if ePin (u.dirEnt p ((w - 1) % 2 ^ 32)) then none else some ((u.slotRange p 0).1 + o, (w - 1) % 2 ^ 32)
      let v := u.setPeat fun q => { q with demoting := if q.demoting.contains p then q.demoting else q.demoting ++ [p] }
      s.partOn p = true ∧ (s.aboveHigh p = true ∨ (s.peat.demoting.contains p = true ∧ s.atLow p = false)) ∧ s.frozen = false ∧ rate ≠ 0 ∧
      (cand = [] ∨ v.slotFree 1 (v.slotRange p 1) = none)) ∧
    (∃ (s : State) (p slot idx : Nat),
      let rate := s.fld Reg.PEAT_DEMOTE Fld.PEAT_DEMOTE_RATE
      let u := s.elapseToTick (max s.peat.demoteAt (Tbl.getD s.peat.stopUntil 0 p))
      let n := (u.slotRange p 0).2
      let hand := Tbl.getD u.peat.hand 0 p
      let cand := ((List.range (min 64 n)).map fun i => (hand + i) % n).filterMap fun o =>
          (Tbl.find u.peat.owner (slotKey 0 ((u.slotRange p 0).1 + o))).bind fun w =>
            if ePin (u.dirEnt p ((w - 1) % 2 ^ 32)) then none else some ((u.slotRange p 0).1 + o, (w - 1) % 2 ^ 32)
      let v := u.setPeat fun q => { q with demoting := if q.demoting.contains p then q.demoting else q.demoting ++ [p] }
      let age := fun (i : Nat) => (v.useNow + 2 ^ 24 - eUse (v.dirEnt p i)) % 2 ^ 24
      let w := ((v.peatMove p idx 1).2).inc Cnt.PEAT_AUTO_DEMOTES
      let x := w.setPeat fun q => { q with
          hand := Tbl.put q.hand p ((hand + min 64 n) % n), demoteAt := w.time.ticks + nsTicks (ceilDiv 655360 rate) }
      s.partOn p = true ∧ (s.aboveHigh p = true ∨ (s.peat.demoting.contains p = true ∧ s.atLow p = false)) ∧ s.frozen = false ∧ rate ≠ 0 ∧
      (slot, idx) ∈ cand ∧ (v.slotFree 1 (v.slotRange p 1)).isSome = true ∧
      (∀ c ∈ cand, c ≠ (slot, idx) → age c.2 < age idx ∨ (age c.2 = age idx ∧ slot < c.1)) ∧ x.atLow p = false) ∧
    (∃ (s : State) (p slot idx : Nat),
      let rate := s.fld Reg.PEAT_DEMOTE Fld.PEAT_DEMOTE_RATE
      let u := s.elapseToTick (max s.peat.demoteAt (Tbl.getD s.peat.stopUntil 0 p))
      let n := (u.slotRange p 0).2
      let hand := Tbl.getD u.peat.hand 0 p
      let cand := ((List.range (min 64 n)).map fun i => (hand + i) % n).filterMap fun o =>
          (Tbl.find u.peat.owner (slotKey 0 ((u.slotRange p 0).1 + o))).bind fun w =>
            if ePin (u.dirEnt p ((w - 1) % 2 ^ 32)) then none else some ((u.slotRange p 0).1 + o, (w - 1) % 2 ^ 32)
      let v := u.setPeat fun q => { q with demoting := if q.demoting.contains p then q.demoting else q.demoting ++ [p] }
      let age := fun (i : Nat) => (v.useNow + 2 ^ 24 - eUse (v.dirEnt p i)) % 2 ^ 24
      let w := ((v.peatMove p idx 1).2).inc Cnt.PEAT_AUTO_DEMOTES
      let x := w.setPeat fun q => { q with
          hand := Tbl.put q.hand p ((hand + min 64 n) % n), demoteAt := w.time.ticks + nsTicks (ceilDiv 655360 rate) }
      s.partOn p = true ∧ (s.aboveHigh p = true ∨ (s.peat.demoting.contains p = true ∧ s.atLow p = false)) ∧ s.frozen = false ∧ rate ≠ 0 ∧
      (slot, idx) ∈ cand ∧ (v.slotFree 1 (v.slotRange p 1)).isSome = true ∧
      (∀ c ∈ cand, c ≠ (slot, idx) → age c.2 < age idx ∨ (age c.2 = age idx ∧ slot < c.1)) ∧ x.atLow p = true) ∧
    (∃ (s : State), s.pwr.held = false ∧ s.pageBusy peatPg = false) :=
  ⟨⟨up, ⟨.firmware, 0, false, false, 1⟩, 0x0E05, by decide +kernel⟩,
   ⟨up, fwH, by decide +kernel⟩,
   ⟨tiered, fwH, 64, 0, 32, 0, 0, 0, 8, by decide +kernel⟩,
   ⟨(stashUp false 0 0), fwH, 0, 3, 0, 32, 0, 0, 0, 8, by decide +kernel⟩,
   ⟨(peatUp.wr (Reg.PEAT_PART_DIR 0) (BitVec.ofNat 32 (8 * 2 ^ 24))), fwH, 0, 3, 0, 32, 0, 0, 0, 8, by decide +kernel⟩,
   ⟨tiered, fwH, 0, 1, 3, 1, 0, 32, 0, 0, 0, 8, 1, 0, 0, 2097152, by decide +kernel⟩,
   ⟨peatUp, fwH, 63, by decide +kernel⟩,
   ⟨(sweeping []), fwH, 0, by decide +kernel⟩,
   ⟨up, fwH, 0x0E05, 64, by decide +kernel⟩,
   ⟨up, fwH, 63, by decide +kernel⟩,
   ⟨(stashUp false 0 0), fwH, 0, 7, (2 ^ 30), ((((stashUp false 0 0).start fwH 0x0E03).dirFind 0 7).2), by decide +kernel⟩,
   ⟨peatUp, fwH, 0, 7, (((peatUp.start fwH 0x0E03).dirFind 0 7).2), by decide +kernel⟩,
   ⟨up, fwH, 63, by decide +kernel⟩,
   ⟨t1Up, fwH, 63, by decide +kernel⟩,
   ⟨tiered, fwH, 0, 2097152, 0, 4194304, 2097152, by decide +kernel⟩,
   ⟨tiered, fwH, 0, 0, 0, 4194304, 2097152, by decide +kernel⟩,
   ⟨peatUp, fwH, 63, by decide +kernel⟩,
   ⟨up, 63, by decide +kernel⟩,
   ⟨(sweeping []), 0, by decide +kernel⟩,
   ⟨up, 63, by decide +kernel⟩,
   ⟨(sweeping []), 0, by decide +kernel⟩,
   ⟨(sweeping [(0, none)]), 0, ((0, none)), [], by decide +kernel⟩,
   ⟨(stashUp true 2 0), 0, by decide +kernel⟩,
   ⟨(stashUp false 2 1), 0, 0, (2 ^ 30), by decide +kernel⟩,
   ⟨((stashUp true 2 1).setFld Reg.PEAT_DEMOTE Fld.PEAT_DEMOTE_LOW 8), 0, 0, (2 ^ 30), by decide +kernel⟩,
   ⟨peatUp, by decide +kernel⟩⟩

theorem witness_TierCompletes :
    (∃ (s : State), s.peat.trained.1 = true) ∧
    (∃ (s : State) (mask : Nat), s.peat.trained.1 = false ∧ mask % 256 = 255) ∧
    (∃ (s : State) (mask : Nat), s.peat.trained.1 = false ∧ mask % 256 ≠ 255) ∧
    (∃ (s : State) (trained : Nat), s.peat.trained.2 = true) ∧
    (∃ (s : State) (present accepted trained : Nat),
      let n := usedModules (present &&& accepted &&& trained)
      s.peat.trained.2 = false ∧ n = 0) ∧
    (∃ (s : State) (trained : Nat), s.peat.trained.2 = false) ∧
    (∃ (s : State) (ch idle : Nat) (rs : List TierReq),
      let u := s.setChan ch { s.chan ch with cyc := (s.chan ch).cyc + idle + 1 }
      let cand := rs.filter fun r => decide (Tbl.getD (u.chan ch).until_ 0 r.client ≤ (u.chan ch).cyc)
      let v := if cand.any fun r => r.client == 2 then u.setChan ch { u.chan ch with peatReq := (u.chan ch).peatReq + 1 } else u
      v.chLocked ch = true ∧ cand.find? (fun r => r.client == v.chOwner ch) = none) ∧
    (∃ (s : State) (ch idle : Nat) (rs : List TierReq) (r : TierReq),
      let u := s.setChan ch { s.chan ch with cyc := (s.chan ch).cyc + idle + 1 }
      let cand := rs.filter fun r => decide (Tbl.getD (u.chan ch).until_ 0 r.client ≤ (u.chan ch).cyc)
      let v := if cand.any fun r => r.client == 2 then u.setChan ch { u.chan ch with peatReq := (u.chan ch).peatReq + 1 } else u
      v.chLocked ch = true ∧ cand.find? (fun r => r.client == v.chOwner ch) = some r) ∧
    (∃ (s : State) (ch idle : Nat) (rs : List TierReq),
      let u := s.setChan ch { s.chan ch with cyc := (s.chan ch).cyc + idle + 1 }
      let cand := rs.filter fun r => decide (Tbl.getD (u.chan ch).until_ 0 r.client ≤ (u.chan ch).cyc)
      let v := if cand.any fun r => r.client == 2 then u.setChan ch { u.chan ch with peatReq := (u.chan ch).peatReq + 1 } else u
      v.chLocked ch = false ∧ cand = []) ∧
    (∃ (s : State) (ch idle : Nat) (rs : List TierReq) (w : _),
      let u := s.setChan ch { s.chan ch with cyc := (s.chan ch).cyc + idle + 1 }
      let cand := rs.filter fun r => decide (Tbl.getD (u.chan ch).until_ 0 r.client ≤ (u.chan ch).cyc)
      let v := if cand.any fun r => r.client == 2 then u.setChan ch { u.chan ch with peatReq := (u.chan ch).peatReq + 1 } else u
      v.chLocked ch = false ∧ w ∈ cand ∧
      (∀ r ∈ cand, r ≠ w → v.credit ch r.client < v.credit ch w.client ∨ (v.credit ch r.client = v.credit ch w.client ∧ (w.client + 8 - v.chOffset ch) % 8 < (r.client + 8 - v.chOffset ch) % 8))) ∧
    (∃ (s : State) (ch : Nat), s.chLocked ch = false) ∧
    (∃ (s : State) (ch : Nat), s.chLocked ch = true) ∧
    (∃ (s : State), (s.flag Reg.TIER_CTRL Fld.TIER_CTRL_SCRUB_EN = false ∨ s.tierBytes 0 + s.tierBytes 1 = 0)) ∧
    (∃ (s : State), s.flag Reg.TIER_CTRL Fld.TIER_CTRL_SCRUB_EN = true ∧ s.tierBytes 0 + s.tierBytes 1 ≠ 0) ∧
    (∃ (s : State), s.pwr.held = false ∧ s.pageBusy (pg 0x0F 0) = false) ∧
    (∃ (s : State) (ch : Nat), s.pwr.held = false ∧ s.pageBusy (chPg ch) = false) :=
  ⟨⟨({ up with peat := { up.peat with trained := (true, false) } }), by decide +kernel⟩,
   ⟨(up.setFlag (Reg.TIER_CH_STATUS 1) Fld.TIER_CH_STATUS_LOCKED true), 255, by decide +kernel⟩,
   ⟨(up.setFlag (Reg.TIER_CH_STATUS 1) Fld.TIER_CH_STATUS_LOCKED true), 0, by decide +kernel⟩,
   ⟨({ up with peat := { up.peat with trained := (false, true) } }), 15, by decide +kernel⟩,
   ⟨(up.setFlag (Reg.TIER_CH_STATUS 1) Fld.TIER_CH_STATUS_LOCKED true), 0, 0, 0, by decide +kernel⟩,
   ⟨(up.setFlag (Reg.TIER_CH_STATUS 1) Fld.TIER_CH_STATUS_LOCKED true), 0, by decide +kernel⟩,
   ⟨(up.setFlag (Reg.TIER_CH_STATUS 1) Fld.TIER_CH_STATUS_LOCKED true), 0, 0, [], by decide +kernel⟩,
   ⟨(up.setFlag (Reg.TIER_CH_STATUS 1) Fld.TIER_CH_STATUS_LOCKED true), 0, 0, ([⟨0, 1, true⟩]), ⟨0, 1, true⟩, by decide +kernel⟩,
   ⟨up, 0, 0, [], by decide +kernel⟩,
   ⟨up, 0, 0, ([⟨2, 1, false⟩, ⟨1, 1, false⟩]), ⟨1, 1, false⟩, by decide +kernel⟩,
   ⟨(up.setFlag (Reg.TIER_CH_STATUS 1) Fld.TIER_CH_STATUS_LOCKED true), 1, by decide +kernel⟩,
   ⟨(up.setFlag (Reg.TIER_CH_STATUS 1) Fld.TIER_CH_STATUS_LOCKED true), 0, by decide +kernel⟩,
   ⟨up, by decide +kernel⟩,
   ⟨(tiered.setFlag Reg.TIER_CTRL Fld.TIER_CTRL_SCRUB_EN true), by decide +kernel⟩,
   ⟨(up.setFlag (Reg.TIER_CH_STATUS 1) Fld.TIER_CH_STATUS_LOCKED true), by decide +kernel⟩,
   ⟨(up.setFlag (Reg.TIER_CH_STATUS 1) Fld.TIER_CH_STATUS_LOCKED true), 0, by decide +kernel⟩⟩

theorem witness_WindowsComplete :
    (∃ (s : State), s.running = none) ∧
    (∃ (s : State) (w : Win), s.running = some w) ∧
    (∃ (s : State), s.del.wins = []) ∧
    (∃ (s : State) (w : Win) (ws : List Win), s.del.wins = w :: ws ∧ (w.ended = false ∨ s.frozen = true)) ∧
    (∃ (s : State) (w : Win) (ws : List Win), s.del.wins = w :: ws ∧ w.ended = true ∧ s.frozen = false) ∧
    (∃ (s : State) (v : Nat), s.pwr.held = false ∧ s.pageBusy delPg = false ∧ v ≠ (s.rd Reg.DEL_WINDOW).toNat ∧ s.pageLocked delPg = true) ∧
    (∃ (s : State) (v : Nat),
      s.pwr.held = false ∧ s.pageBusy delPg = false ∧ (v = (s.rd Reg.DEL_WINDOW).toNat ∨ s.pageLocked delPg = false) ∧ winUsOk (bits 31 12 v) = true) ∧
    (∃ (s : State) (v : Nat),
      s.pwr.held = false ∧ s.pageBusy delPg = false ∧ (v = (s.rd Reg.DEL_WINDOW).toNat ∨ s.pageLocked delPg = false) ∧ winUsOk (bits 31 12 v) = false) ∧
    (∃ (s : State), s.del.winPending = none) ∧
    (∃ (s : State) (fec : List FecCount) (us : _) (sec : _),
      let u := (s.elapseToDev (sec * secUnits)).endWindow fec true
      s.del.winPending = some (us, sec) ∧ u.del.wins = []) ∧
    (∃ (s : State) (fec : List FecCount) (us : _) (sec : _),
      let u := (s.elapseToDev (sec * secUnits)).endWindow fec true
      s.del.winPending = some (us, sec) ∧ u.del.wins ≠ []) ∧
    (∃ (s : State) (lp : Nat) (p : Pkt) (r : _) (cs : _),
      let u := s.takeFn lp p
      p.typ = 0x28 ∧ u.fnReason (lp / 64 % 16) p = some (r, cs)) ∧
    (∃ (s : State) (lp : Nat) (p : Pkt),
      let u := s.takeFn lp p
      p.typ = 0x28 ∧ u.fnReason (lp / 64 % 16) p = none ∧ pflag p fPoison = true) ∧
    (∃ (s : State) (lp : Nat) (p : Pkt),
      let u := s.takeFn lp p
      p.typ = 0x28 ∧ u.fnReason (lp / 64 % 16) p = none ∧ pflag p fPoison = false ∧ (p.payload.length = 0 ∨ p.payload.length % 64 ≠ 0)) ∧
    (∃ (s : State) (lp : Nat) (p : Pkt),
      let u := s.takeFn lp p
      p.typ = 0x28 ∧ u.fnReason (lp / 64 % 16) p = none ∧ pflag p fPoison = false ∧ p.payload.length ≠ 0 ∧ p.payload.length % 64 = 0 ∧
      (recsOf p.payload).any recReserved = true) ∧
    (∃ (s : State) (lp : Nat) (p : Pkt),
      let u := s.takeFn lp p
      p.typ = 0x28 ∧ u.fnReason (lp / 64 % 16) p = none ∧ pflag p fPoison = false ∧ p.payload.length ≠ 0 ∧ p.payload.length % 64 = 0 ∧
      (recsOf p.payload).any recReserved = false) ∧
    (∃ (s : State) (k : Nat), Tbl.find s.del.segs k = none) ∧
    (∃ (s : State) (k n : Nat) (g : SegSt), Tbl.find s.del.segs k = some g ∧ g.size < g.used + n) ∧
    (∃ (s : State) (k n : Nat) (g : SegSt), Tbl.find s.del.segs k = some g ∧ g.used + n ≤ g.size) ∧
    (∃ (s : State) (k : Nat) (g : SegSt), Tbl.find s.del.segs k = some g) ∧
    (∃ (s : State) (h : CmdHdr) (i grp fl raw : Nat),
      s.takes h 0x1001 true = true ∧ (4096 ≤ i ∨ 2 ^ 20 ≤ grp ∨ (20 < raw ∧ raw ≠ 0xFF) ∨ bits 6 3 fl ≠ 0 ∨ h.target ≠ 0)) ∧
    (∃ (s : State) (h : CmdHdr) (i set grp ops fl raw ex : Nat),
      let a := s.start h 0x1001
      let d : DDesc := ⟨set, grp, ops, fl % 4, bit 2 fl, bit 7 fl, raw, ex⟩
      let others := a.del.descs.filter fun x => x.1 != i && x.2.enable
      s.takes h 0x1001 true = true ∧ i < 4096 ∧ grp < 2 ^ 20 ∧ (raw ≤ 20 ∨ raw = 0xFF) ∧ bits 6 3 fl = 0 ∧ h.target = 0 ∧ d.enable = true ∧
      (others.any fun x => x.2.rgroup == grp && x.2.set == set) = true) ∧
    (∃ (s : State) (h : CmdHdr) (i set grp ops fl raw ex : Nat),
      let a := s.start h 0x1001
      let d : DDesc := ⟨set, grp, ops, fl % 4, bit 2 fl, bit 7 fl, raw, ex⟩
      let others := a.del.descs.filter fun x => x.1 != i && x.2.enable
      s.takes h 0x1001 true = true ∧ i < 4096 ∧ grp < 2 ^ 20 ∧ (raw ≤ 20 ∨ raw = 0xFF) ∧ bits 6 3 fl = 0 ∧ h.target = 0 ∧ d.enable = true ∧
      (others.any fun x => x.2.rgroup == grp && x.2.set == set) = false ∧ d.sketches = true ∧ 256 ≤ (others.filter (·.2.sketches)).length) ∧
    (∃ (s : State) (h : CmdHdr) (i set grp ops fl raw ex : Nat),
      let a := s.start h 0x1001
      let d : DDesc := ⟨set, grp, ops, fl % 4, bit 2 fl, bit 7 fl, raw, ex⟩
      let others := a.del.descs.filter fun x => x.1 != i && x.2.enable
      s.takes h 0x1001 true = true ∧ i < 4096 ∧ grp < 2 ^ 20 ∧ (raw ≤ 20 ∨ raw = 0xFF) ∧ bits 6 3 fl = 0 ∧ h.target = 0 ∧
      (d.enable = true → (others.any fun x => x.2.rgroup == grp && x.2.set == set) = false) ∧
      (d.enable = true → d.sketches = true → (others.filter (·.2.sketches)).length < 256)) ∧
    (∃ (s : State), s.pwr.held = false ∧ s.pageBusy delPg = false) :=
  ⟨⟨up, by decide +kernel⟩,
   ⟨winS, winA, by decide +kernel⟩,
   ⟨up, by decide +kernel⟩,
   ⟨winS, winA, [], by decide +kernel⟩,
   ⟨({ up with del := { up.del with wins := [winE], winUs := 1000 } }), winE, [], by decide +kernel⟩,
   ⟨(up.setFlag (Reg.PAGE_CTRL delPg) Fld.PAGE_CTRL_LOCK true), 5, by decide +kernel⟩,
   ⟨up, (2000 * 4096 + 5), by decide +kernel⟩,
   ⟨up, (3 * 4096), by decide +kernel⟩,
   ⟨up, by decide +kernel⟩,
   ⟨({ up with del := { up.del with winPending := some (2000, 0) } }), [], 2000, 0, by decide +kernel⟩,
   ⟨({ up with del := { up.del with winPending := some (2000, 0), wins := [winA] } }), [], 2000, 0, by decide +kernel⟩,
   ⟨up, 0, ({ withT 0x28 128 with cls := 0 }), rStale, ([Cnt.FWT_STALE_SRC 0]), by decide +kernel⟩,
   ⟨up, 0, ({ withT 0x28 128 with flags := 2 ^ fPoison }), by decide +kernel⟩,
   ⟨up, 0, (withT 0x28 63), by decide +kernel⟩,
   ⟨up, 0, ({ withT 0x28 128 with payload := List.replicate 128 255 }), by decide +kernel⟩,
   ⟨up, 0, (withT 0x28 128), by decide +kernel⟩,
   ⟨up, 0, by decide +kernel⟩,
   ⟨(segUp 1048576 1048576), 1, 1, ⟨0, 1048576, 10, 0, 0, false, 5, 1048576⟩, by decide +kernel⟩,
   ⟨(segUp 0 64), 1, 64, ⟨0, 0, 10, 0, 0, false, 5, 64⟩, by decide +kernel⟩,
   ⟨(segUp 0 64), 1, ⟨0, 0, 10, 0, 0, false, 5, 64⟩, by decide +kernel⟩,
   ⟨up, ⟨.firmware, 0, false, false, 1⟩, 4095, (2 ^ 20 - 1), 0x80, 0xFF, by decide +kernel⟩,
   ⟨({ up with del := { up.del with descs := [(7, ⟨3, 9, 0, 0, false, true, 0xFF, 1⟩)] } }), ⟨.firmware, 0, false, false, 0⟩, 4095, 3, 9, 0, 0x80,
     0xFF, 1, by decide +kernel⟩,
   ⟨({ up with del := { up.del with descs := (List.range 256).map fun i => (i, ⟨0, i, 255, 0, false, true, 0xFF, 1⟩) } }), fwH, 4095, 3, 999, 255,
     0x80, 0xFF, 1, by decide +kernel⟩,
   ⟨up, ⟨.firmware, 0, false, false, 0⟩, 4095, 3, (2 ^ 20 - 1), 0, 0x80, 0xFF, 1, by decide +kernel⟩,
   ⟨up, by decide +kernel⟩⟩

theorem witness_FrostCompletes :
    (∃ (s : State) (h : CmdHdr) (m : Nat), s.takes h 0x1002 true = true ∧ 1 < m) ∧
    (∃ (s : State) (h : CmdHdr) (t m : Nat),
      let a := s.start h 0x1002
      s.takes h 0x1002 true = true ∧ m ≤ 1 ∧ fromShort t < a.time.now + 10000 * 2 ^ 32) ∧
    (∃ (s : State) (h : CmdHdr) (t m : Nat),
      let a := s.start h 0x1002
      s.takes h 0x1002 true = true ∧ m ≤ 1 ∧ a.time.now + 10000 * 2 ^ 32 ≤ fromShort t ∧ a.frostState ≠ 0) ∧
    (∃ (s : State) (h : CmdHdr) (t m : Nat),
      let a := s.start h 0x1002
      s.takes h 0x1002 true = true ∧ m ≤ 1 ∧ a.time.now + 10000 * 2 ^ 32 ≤ fromShort t ∧ a.frostState = 0 ∧ (a.timeState = 0 ∨ a.timeState = 1)) ∧
    (∃ (s : State) (h : CmdHdr) (t m : Nat),
      let a := s.start h 0x1002
      s.takes h 0x1002 true = true ∧ m ≤ 1 ∧ a.time.now + 10000 * 2 ^ 32 ≤ fromShort t ∧ a.frostState = 0 ∧ a.timeState ≠ 0 ∧ a.timeState ≠ 1) ∧
    (∃ (s : State) (h : CmdHdr) (tt : Nat),
      let a := s.start h 0x1003
      s.takes h 0x1003 true = true ∧ (fromShort tt < a.time.now + 2000 * 2 ^ 32 ∨ fromShort tt ≤ fromShort a.frostT)) ∧
    (∃ (s : State) (h : CmdHdr) (tt : Nat),
      let a := s.start h 0x1003
      s.takes h 0x1003 true = true ∧ a.time.now + 2000 * 2 ^ 32 ≤ fromShort tt ∧ fromShort a.frostT < fromShort tt ∧
      (a.frostState = 0 ∨ a.flag Reg.DEL_FROST_STATUS Fld.DEL_FROST_STATUS_MODE = false)) ∧
    (∃ (s : State) (h : CmdHdr) (tt : Nat),
      let a := s.start h 0x1003
      s.takes h 0x1003 true = true ∧ a.time.now + 2000 * 2 ^ 32 ≤ fromShort tt ∧ fromShort a.frostT < fromShort tt ∧ a.frostState ≠ 0 ∧
      a.flag Reg.DEL_FROST_STATUS Fld.DEL_FROST_STATUS_MODE = true) ∧
    (∃ (s : State) (h : CmdHdr),
      let a := s.start h 0x1004
      s.takes h 0x1004 true = true ∧ a.frostState = 1) ∧
    (∃ (s : State) (h : CmdHdr),
      let a := s.start h 0x1004
      s.takes h 0x1004 true = true ∧ a.frostState ≠ 1) ∧
    (∃ (s : State) (h : CmdHdr),
      let a := s.start h 0x1005
      s.takes h 0x1005 true = true ∧ a.del.snapAt.isSome = true) ∧
    (∃ (s : State) (h : CmdHdr) (t : Nat),
      let a := s.start h 0x1005
      s.takes h 0x1005 true = true ∧ a.del.snapAt = none ∧ fromShort t < a.time.now + 2000 * 2 ^ 32) ∧
    (∃ (s : State) (h : CmdHdr) (t : Nat),
      let a := s.start h 0x1005
      s.takes h 0x1005 true = true ∧ a.del.snapAt = none ∧ a.time.now + 2000 * 2 ^ 32 ≤ fromShort t) ∧
    (∃ (s : State) (h : CmdHdr) (sel : Nat), s.takes h 0x1006 true = true ∧ 1 < sel) ∧
    (∃ (s : State) (h : CmdHdr) (off sel : Nat),
      let a := s.start h 0x1006
      let lp := off % 65536
      s.takes h 0x1006 true = true ∧ sel = 1 ∧ (1024 ≤ lp ∨ a.snapValid (pg 4 (lpTile lp)) = false)) ∧
    (∃ (s : State) (h : CmdHdr) (off sel : Nat),
      let a := s.start h 0x1006
      let lp := off % 65536
      s.takes h 0x1006 true = true ∧ sel = 1 ∧ lp < 1024 ∧ a.snapValid (pg 4 (lpTile lp)) = true) ∧
    (∃ (s : State) (h : CmdHdr) (off sel : Nat),
      let a := s.start h 0x1006
      s.takes h 0x1006 true = true ∧ sel = 0 ∧ (hasSnap off = false ∨ a.snapValid (off / 4096) = false)) ∧
    (∃ (s : State) (h : CmdHdr) (off sel : Nat),
      let a := s.start h 0x1006
      s.takes h 0x1006 true = true ∧ sel = 0 ∧ hasSnap off = true ∧ a.snapValid (off / 4096) = true) ∧
    (∃ (s : State), s.frostState ≠ 1 ∧ s.del.snapAt = none) ∧
    (∃ (s : State) (t : Nat),
      let u := s.elapseToDev (fromShort t + 1)
      (s.frostState = 1 ∧ t = s.frostT ∧ ∀ b, s.del.snapAt = some b → fromShort t ≤ fromShort b) ∨ (s.del.snapAt = some t ∧ (s.frostState = 1 → fromShort t < fromShort s.frostT)) ∧
      s.frostState = 1 ∧ fromShort s.frostT < u.time.now) ∧
    (∃ (s : State) (t : Nat),
      let u := s.elapseToDev (fromShort t + 1)
      (s.frostState = 1 ∧ t = s.frostT ∧ ∀ b, s.del.snapAt = some b → fromShort t ≤ fromShort b) ∨ (s.del.snapAt = some t ∧ (s.frostState = 1 → fromShort t < fromShort s.frostT)) ∧
      (s.frostState ≠ 1 ∨ u.time.now ≤ fromShort s.frostT)) ∧
    (∃ (s : State), s.del.outUntil = none) ∧
    (∃ (s : State) (t : _), s.del.outUntil = some t) ∧
    (∃ (s : State),
      let tt := s.frozen = true ∧ s.thawT ≠ 0 ∧ fromShort s.thawT ≤ s.autoThawAt
      tt) ∧
    (∃ (s : State),
      let tt := s.frozen = true ∧ s.thawT ≠ 0 ∧ fromShort s.thawT ≤ s.autoThawAt
      ¬ tt) ∧
    (∃ (s : State),
      let tt := s.frozen = true ∧ s.thawT ≠ 0 ∧ fromShort s.thawT ≤ s.autoThawAt
      s.frozen = true ∧ ¬ tt) ∧
    (∃ (s : State),
      let tt := s.frozen = true ∧ s.thawT ≠ 0 ∧ fromShort s.thawT ≤ s.autoThawAt
      (s.frozen = false ∨ tt)) ∧
    (∃ (s : State), s.del.images = []) ∧
    (∃ (s : State) (im : List Byte) (rest : List (List Byte)), s.del.images = im :: rest) ∧
    (∃ (s : State) (lvl : Bool) (e : Nat),
      let u := s.elapseToDev (e * 65536 + 20 * 2 ^ 32)
      let act := lvl != u.flag Reg.DEL_FIN_CTRL Fld.DEL_FIN_CTRL_POLARITY
      u.del.fin.active = act) ∧
    (∃ (s : State) (lvl : Bool) (e : Nat),
      let u := s.elapseToDev (e * 65536 + 20 * 2 ^ 32)
      let act := lvl != u.flag Reg.DEL_FIN_CTRL Fld.DEL_FIN_CTRL_POLARITY
      u.del.fin.active = true ∧ act = false) ∧
    (∃ (s : State) (lvl : Bool) (e : Nat),
      let u := s.elapseToDev (e * 65536 + 20 * 2 ^ 32)
      let act := lvl != u.flag Reg.DEL_FIN_CTRL Fld.DEL_FIN_CTRL_POLARITY
      let v := u.setDel fun d => { d with fin := { u.del.fin with active := true, since := u.time.ticks - nsTicks 20 } }
      let live := v.flag Reg.DEL_FIN_CTRL Fld.DEL_FIN_CTRL_ENABLE && !v.flag Reg.DEL_FIN_STATUS Fld.DEL_FIN_STATUS_STUCK
      u.del.fin.active = false ∧ act = true ∧ live = false) ∧
    (∃ (s : State) (lvl : Bool) (e : Nat),
      let u := s.elapseToDev (e * 65536 + 20 * 2 ^ 32)
      let act := lvl != u.flag Reg.DEL_FIN_CTRL Fld.DEL_FIN_CTRL_POLARITY
      let v := u.setDel fun d => { d with fin := { u.del.fin with active := true, since := u.time.ticks - nsTicks 20 } }
      let live := v.flag Reg.DEL_FIN_CTRL Fld.DEL_FIN_CTRL_ENABLE && !v.flag Reg.DEL_FIN_STATUS Fld.DEL_FIN_STATUS_STUCK
      let quiet := match u.del.fin.lastEvent with | some x => decide (v.time.ticks < x + usTicks 100) | none => false
      let ignore := quiet = true ∨ v.frostState ≠ 0 ∨ v.timeState = 0 ∨ v.timeState = 1
      u.del.fin.active = false ∧ act = true ∧ live = true ∧ ignore) ∧
    (∃ (s : State) (lvl : Bool) (e : Nat),
      let u := s.elapseToDev (e * 65536 + 20 * 2 ^ 32)
      let act := lvl != u.flag Reg.DEL_FIN_CTRL Fld.DEL_FIN_CTRL_POLARITY
      let v := u.setDel fun d => { d with fin := { u.del.fin with active := true, since := u.time.ticks - nsTicks 20 } }
      let live := v.flag Reg.DEL_FIN_CTRL Fld.DEL_FIN_CTRL_ENABLE && !v.flag Reg.DEL_FIN_STATUS Fld.DEL_FIN_STATUS_STUCK
      let quiet := match u.del.fin.lastEvent with | some x => decide (v.time.ticks < x + usTicks 100) | none => false
      let ignore := quiet = true ∨ v.frostState ≠ 0 ∨ v.timeState = 0 ∨ v.timeState = 1
      u.del.fin.active = false ∧ act = true ∧ live = true ∧ ¬ ignore) ∧
    (∃ (s : State),
      let on := s.del.fin.active && s.flag Reg.DEL_FIN_CTRL Fld.DEL_FIN_CTRL_ENABLE && !s.flag Reg.DEL_FIN_STATUS Fld.DEL_FIN_STATUS_STUCK
      on = true) ∧
    (∃ (s : State),
      let on := s.del.fin.active && s.flag Reg.DEL_FIN_CTRL Fld.DEL_FIN_CTRL_ENABLE && !s.flag Reg.DEL_FIN_STATUS Fld.DEL_FIN_STATUS_STUCK
      on = false) ∧
    (∃ (s : State), s.pwr.held = false ∧ s.pageBusy delPg1 = false) :=
  ⟨⟨snapUp, ⟨.firmware, 0, false, false, 0⟩, 2, by decide +kernel⟩,
   ⟨snapUp, ⟨.firmware, 0, false, false, 0⟩, 0, 0, by decide +kernel⟩,
   ⟨(frostIs 1 0), ⟨.firmware, 0, false, false, 0⟩, 10000, 0, by decide +kernel⟩,
   ⟨snapUp, ⟨.firmware, 0, false, false, 0⟩, 10000, 0, by decide +kernel⟩,
   ⟨(timeUp 2), ⟨.firmware, 0, false, false, 0⟩, 10000, 0, by decide +kernel⟩,
   ⟨snapUp, ⟨.firmware, 0, false, false, 0⟩, 0, by decide +kernel⟩,
   ⟨snapUp, ⟨.firmware, 0, false, false, 0⟩, 25000, by decide +kernel⟩,
   ⟨(frostIs 2 1), ⟨.firmware, 0, false, false, 0⟩, 25000, by decide +kernel⟩,
   ⟨(frostIs 1 0), ⟨.firmware, 0, false, false, 0⟩, by decide +kernel⟩,
   ⟨snapUp, ⟨.firmware, 0, false, false, 0⟩, by decide +kernel⟩,
   ⟨({ timeUp 2 with del := { up.del with snapAt := some 30000 } }), ⟨.firmware, 0, false, false, 0⟩, by decide +kernel⟩,
   ⟨snapUp, ⟨.firmware, 0, false, false, 0⟩, 0, by decide +kernel⟩,
   ⟨snapUp, ⟨.firmware, 0, false, false, 0⟩, 10000, by decide +kernel⟩,
   ⟨snapUp, ⟨.firmware, 0, false, false, 0⟩, 2, by decide +kernel⟩,
   ⟨snapUp, ⟨.firmware, 0, false, false, 0⟩, (Cnt.PT_RX_PACKETS 0 0), 1, by decide +kernel⟩,
   ⟨snapUp, ⟨.firmware, 0, false, false, 0⟩, 0, 1, by decide +kernel⟩,
   ⟨snapUp, ⟨.firmware, 0, false, false, 0⟩, 0, 0, by decide +kernel⟩,
   ⟨snapUp, ⟨.firmware, 0, false, false, 0⟩, (Cnt.PT_RX_PACKETS 0 0), 0, by decide +kernel⟩,
   ⟨snapUp, by decide +kernel⟩,
   ⟨(frostIs 1 0), 20000, by decide +kernel⟩,
   ⟨({ timeUp 2 with del := { up.del with snapAt := some 30000 } }), 30000, by decide +kernel⟩,
   ⟨snapUp, by decide +kernel⟩,
   ⟨({ up with del := { up.del with outUntil := some 5 } }), 5, by decide +kernel⟩,
   ⟨((frostIs 2 1).wrWide Reg.DEL_THAW_TIME 25000 2), by decide +kernel⟩,
   ⟨snapUp, by decide +kernel⟩,
   ⟨(frostIs 2 1), by decide +kernel⟩,
   ⟨snapUp, by decide +kernel⟩,
   ⟨snapUp, by decide +kernel⟩,
   ⟨({ up with del := { up.del with images := [leBytes 16 0] } }), (leBytes 16 0), [], by decide +kernel⟩,
   ⟨snapUp, false, 0, by decide +kernel⟩,
   ⟨(finUp true), false, 0, by decide +kernel⟩,
   ⟨snapUp, true, 0, by decide +kernel⟩,
   ⟨((finUp false).setFrostState 1), true, 0, by decide +kernel⟩,
   ⟨(finUp false), true, 0, by decide +kernel⟩,
   ⟨(finUp true), by decide +kernel⟩,
   ⟨snapUp, by decide +kernel⟩,
   ⟨snapUp, by decide +kernel⟩⟩

theorem witness_TraceCompletes :
    (∃ (s : State), s.pwr.held = false ∧ s.pageBusy delPg1 = false ∧ (s.traceState = 0 ∨ s.traceState = 3)) ∧
    (∃ (s : State), s.pwr.held = false ∧ s.pageBusy delPg1 = false ∧ s.traceState ≠ 0 ∧ s.traceState ≠ 3) ∧
    (∃ (s : State), s.pwr.held = false ∧ s.pageBusy delPg1 = false ∧ s.traceState = 1) ∧
    (∃ (s : State), s.pwr.held = false ∧ s.pageBusy delPg1 = false ∧ s.traceState ≠ 1) ∧
    (∃ (s : State), s.pwr.held = false ∧ s.pageBusy delPg1 = false) ∧
    (∃ (s : State), s.capturing = true ∧ s.tracePosts ≤ s.del.trace.post) ∧
    (∃ (s : State), s.capturing = true ∧ s.del.trace.post < s.tracePosts ∧ s.traceFull = true) ∧
    (∃ (s : State), (s.capturing = false ∨ (s.del.trace.post < s.tracePosts ∧ s.traceFull = false))) :=
  ⟨⟨up, by decide +kernel⟩,
   ⟨(traceIs 1 0), by decide +kernel⟩,
   ⟨(traceIs 1 0), by decide +kernel⟩,
   ⟨up, by decide +kernel⟩,
   ⟨up, by decide +kernel⟩,
   ⟨(traceIs 2 (2 ^ 26)), by decide +kernel⟩,
   ⟨((traceIs 2 32640).setFld Reg.DEL_TRACE_AREA Fld.DEL_TRACE_AREA_SIZE 0), by decide +kernel⟩,
   ⟨up, by decide +kernel⟩⟩

theorem witness_FencesComplete :
    (∃ (s : State), s.baro.closed = []) ∧
    (∃ (s : State) (c : Closed) (rest : List Closed), s.baro.closed = c :: rest) ∧
    (∃ (s : State), s.baro.decided = []) ∧
    (∃ (s : State) (o reason : Nat) (rest : List (Nat × Nat)),
      let u := s.setBaro fun b => { b with decided := rest }
      s.baro.decided = (o, reason) :: rest ∧ u.isFenced o = true) ∧
    (∃ (s : State) (o reason : Nat) (rest : List (Nat × Nat)),
      let u := s.setBaro fun b => { b with decided := rest }
      s.baro.decided = (o, reason) :: rest ∧ u.isFenced o = false ∧ u.freeFence = none) ∧
    (∃ (s : State) (o reason : Nat) (rest : List (Nat × Nat)) (k : Nat),
      let u := s.setBaro fun b => { b with decided := rest }
      s.baro.decided = (o, reason) :: rest ∧ u.isFenced o = false ∧ u.freeFence = some k) ∧
    (∃ (s : State) (o : Nat), Tbl.find s.baro.shield o = none) ∧
    (∃ (s : State) (o stop by_ : Nat), Tbl.find s.baro.shield o = some (stop, by_)) ∧
    (∃ (s : State) (h : CmdHdr) (obj key : Nat),
      let a := s.start h 0x1101
      s.takes h 0x1101 true = true ∧ a.cmdObj obj key = none) ∧
    (∃ (s : State) (h : CmdHdr) (obj key o : Nat),
      let a := s.start h 0x1101
      s.takes h 0x1101 true = true ∧ a.cmdObj obj key = some o ∧ a.isFenced o = true) ∧
    (∃ (s : State) (h : CmdHdr) (obj key o : Nat),
      let a := s.start h 0x1101
      s.takes h 0x1101 true = true ∧ a.cmdObj obj key = some o ∧ a.isFenced o = false ∧ a.freeFence = none) ∧
    (∃ (s : State) (h : CmdHdr) (obj key o k : Nat),
      let a := s.start h 0x1101
      s.takes h 0x1101 true = true ∧ a.cmdObj obj key = some o ∧ a.isFenced o = false ∧ a.freeFence = some k) ∧
    (∃ (s : State) (h : CmdHdr) (obj key : Nat),
      let a := s.start h 0x1102
      s.takes h 0x1102 true = true ∧ a.cmdObj obj key = none) ∧
    (∃ (s : State) (h : CmdHdr) (obj key o : Nat),
      let a := s.start h 0x1102
      s.takes h 0x1102 true = true ∧ a.cmdObj obj key = some o ∧ a.fenceOf o = none) ∧
    (∃ (s : State) (h : CmdHdr) (obj key o k e : Nat),
      let a := s.start h 0x1102
      s.takes h 0x1102 true = true ∧ a.cmdObj obj key = some o ∧ a.fenceOf o = some (k, e)) ∧
    (∃ (s : State) (h : CmdHdr) (i : Nat), s.takes h 0x1103 true = true ∧ i < 4096) ∧
    (∃ (s : State) (h : CmdHdr) (i : Nat), s.takes h 0x1103 true = true ∧ 4096 ≤ i) ∧
    (∃ (s : State) (h : CmdHdr) (o : Nat),
      let a := s.start h 0x1104
      s.takes h 0x1104 true = true ∧ a.objOk o = true) ∧
    (∃ (s : State) (h : CmdHdr) (o : Nat),
      let a := s.start h 0x1104
      s.takes h 0x1104 true = true ∧ a.objOk o = false) ∧
    (∃ (s : State) (h : CmdHdr) (o : Nat),
      let a := s.start h 0x1105
      s.takes h 0x1105 true = true ∧ a.objOk o = true) ∧
    (∃ (s : State) (h : CmdHdr) (o : Nat),
      let a := s.start h 0x1105
      s.takes h 0x1105 true = true ∧ a.objOk o = false) ∧
    (∃ (s : State) (h : CmdHdr) (o : Nat),
      let a := s.start h 0x1106
      s.takes h 0x1106 true = true ∧ a.objOk o = true) ∧
    (∃ (s : State) (h : CmdHdr) (o : Nat),
      let a := s.start h 0x1106
      s.takes h 0x1106 true = true ∧ a.objOk o = false) ∧
    (∃ (s : State), s.pwr.held = false ∧ s.pageBusy baroPg = false) :=
  ⟨⟨({ up with fences := fullList }), by decide +kernel⟩,
   ⟨(bOf { up.baro with closed := [⟨7, [], [], [], []⟩] }), ⟨7, [], [], [], []⟩, [], by decide +kernel⟩,
   ⟨({ up with fences := fullList }), by decide +kernel⟩,
   ⟨({ bOf { up.baro with decided := [(5, 0)] } with fences := [(0, fenced 0 5)] }), (objEndpoint 5), 0, [], by decide +kernel⟩,
   ⟨({ bOf { up.baro with decided := [(0, 0)] } with fences := fullList }), 0, 0, [], by decide +kernel⟩,
   ⟨(bOf { up.baro with decided := [(5, 0)] }), (objEndpoint 5), 0, [], 0, by decide +kernel⟩,
   ⟨({ up with fences := fullList }), (objEndpoint 5), by decide +kernel⟩,
   ⟨(bOf { up.baro with shield := [(5, (40, 0))] }), (objEndpoint 5), 40, 0, by decide +kernel⟩,
   ⟨({ up with fences := fullList }), ⟨.firmware, 0, false, false, 0⟩, 1, 20480, by decide +kernel⟩,
   ⟨({ up with fences := fullList }), ⟨.firmware, 0, false, false, 0⟩, 0, 20480, (objEndpoint 5), by decide +kernel⟩,
   ⟨({ up with fences := fullList }), ⟨.firmware, 0, false, false, 0⟩, 0, 0, 0, by decide +kernel⟩,
   ⟨up, ⟨.firmware, 0, false, false, 0⟩, 0, 20480, (objEndpoint 5), 0, by decide +kernel⟩,
   ⟨({ up with fences := fullList }), ⟨.firmware, 0, false, false, 0⟩, 1, 20480, by decide +kernel⟩,
   ⟨({ up with fences := fullList }), ⟨.firmware, 0, false, false, 0⟩, 0, 0, 0, by decide +kernel⟩,
   ⟨({ bOf { up.baro with decided := [(5, 0)] } with fences := [(0, fenced 0 5)] }), ⟨.firmware, 0, false, false, 0⟩, 0, 20480, (objEndpoint 5), 0,
     (fenced 0 5), by decide +kernel⟩,
   ⟨({ up with fences := fullList }), ⟨.firmware, 0, false, false, 0⟩, 0, by decide +kernel⟩,
   ⟨({ up with fences := fullList }), ⟨.firmware, 0, false, false, 0⟩, 4096, by decide +kernel⟩,
   ⟨({ up with fences := fullList }), ⟨.firmware, 0, false, false, 0⟩, (objEndpoint 5), by decide +kernel⟩,
   ⟨up, fwH, (7 * 2 ^ 28), by decide +kernel⟩,
   ⟨({ up with fences := fullList }), ⟨.firmware, 0, false, false, 0⟩, (objEndpoint 5), by decide +kernel⟩,
   ⟨up, fwH, (7 * 2 ^ 28), by decide +kernel⟩,
   ⟨({ up with fences := fullList }), ⟨.firmware, 0, false, false, 0⟩, (objEndpoint 5), by decide +kernel⟩,
   ⟨up, fwH, (7 * 2 ^ 28), by decide +kernel⟩,
   ⟨({ up with fences := fullList }), by decide +kernel⟩⟩

theorem witness_PeersComplete :
    (∃ (p : Pkt) (kind : Nat), p.typ = 0x32 ∧ beAt 0 1 p.payload = kind ∧ kind ∈ [3, 4, 5] ∧ pflag p fPoison = true) ∧
    (∃ (s : State) (lp : Nat) (p : Pkt) (kind : Nat),
      let u := s.takeFn lp p
      let origin := beAt 16 4 p.payload
      let peer := pflag p fSrcSpine && feidPlane origin == u.plane && spineIdx origin != u.spine
      p.typ = 0x32 ∧ beAt 0 1 p.payload = kind ∧ kind ∈ [3, 4, 5] ∧ pflag p fPoison = false ∧ peer = false) ∧
    (∃ (s : State) (lp : Nat) (p : Pkt) (kind : Nat),
      let u := s.takeFn lp p
      let origin := beAt 16 4 p.payload
      let peer := pflag p fSrcSpine && feidPlane origin == u.plane && spineIdx origin != u.spine
      let whole := p.payload.length == 64 && beAt 3 1 p.payload == 0 && allZero (p.payload.drop 34)
      p.typ = 0x32 ∧ beAt 0 1 p.payload = kind ∧ kind ∈ [3, 4, 5] ∧ pflag p fPoison = false ∧ peer = true ∧ whole = false) ∧
    (∃ (s : State) (lp : Nat) (p : Pkt) (kind : Nat),
      let u := s.takeFn lp p
      let origin := beAt 16 4 p.payload
      let peer := pflag p fSrcSpine && feidPlane origin == u.plane && spineIdx origin != u.spine
      let whole := p.payload.length == 64 && beAt 3 1 p.payload == 0 && allZero (p.payload.drop 34)
      p.typ = 0x32 ∧ beAt 0 1 p.payload = kind ∧ kind ∈ [3, 4, 5] ∧ pflag p fPoison = false ∧ peer = true ∧ whole = true ∧ kind = 5) ∧
    (∃ (s : State) (lp : Nat) (p : Pkt) (kind : Nat),
      let u := s.takeFn lp p
      let origin := beAt 16 4 p.payload
      let seq := beAt 12 4 p.payload
      let peer := pflag p fSrcSpine && feidPlane origin == u.plane && spineIdx origin != u.spine
      let whole := p.payload.length == 64 && beAt 3 1 p.payload == 0 && allZero (p.payload.drop 34)
      p.typ = 0x32 ∧ beAt 0 1 p.payload = kind ∧ kind ∈ [3, 4, 5] ∧ pflag p fPoison = false ∧ peer = true ∧ whole = true ∧ kind ≠ 5 ∧
      seq < Tbl.getD u.baro.applied 0 (origin / 4096)) ∧
    (∃ (s : State) (lp : Nat) (p : Pkt) (kind : Nat),
      let u := s.takeFn lp p
      let origin := beAt 16 4 p.payload
      let seq := beAt 12 4 p.payload
      let peer := pflag p fSrcSpine && feidPlane origin == u.plane && spineIdx origin != u.spine
      let whole := p.payload.length == 64 && beAt 3 1 p.payload == 0 && allZero (p.payload.drop 34)
      let v := u.setBaro fun b => { b with applied := Tbl.put b.applied (origin / 4096) (seq + 1) }
      p.typ = 0x32 ∧ beAt 0 1 p.payload = kind ∧ kind ∈ [3, 4, 5] ∧ pflag p fPoison = false ∧ peer = true ∧ whole = true ∧
      Tbl.getD u.baro.applied 0 (origin / 4096) ≤ seq ∧ kind ≠ 5 ∧ v.packetObj p.payload = none) ∧
    (∃ (s : State) (lp : Nat) (p : Pkt) (kind o : Nat),
      let u := s.takeFn lp p
      let origin := beAt 16 4 p.payload
      let seq := beAt 12 4 p.payload
      let peer := pflag p fSrcSpine && feidPlane origin == u.plane && spineIdx origin != u.spine
      let whole := p.payload.length == 64 && beAt 3 1 p.payload == 0 && allZero (p.payload.drop 34)
      let v := u.setBaro fun b => { b with applied := Tbl.put b.applied (origin / 4096) (seq + 1) }
      p.typ = 0x32 ∧ beAt 0 1 p.payload = kind ∧ kind ∈ [3, 4, 5] ∧ pflag p fPoison = false ∧ peer = true ∧ whole = true ∧
      Tbl.getD u.baro.applied 0 (origin / 4096) ≤ seq ∧ kind = 3 ∧ v.packetObj p.payload = some o ∧ v.isFenced o = true) ∧
    (∃ (s : State) (lp : Nat) (p : Pkt) (kind o : Nat),
      let u := s.takeFn lp p
      let origin := beAt 16 4 p.payload
      let seq := beAt 12 4 p.payload
      let peer := pflag p fSrcSpine && feidPlane origin == u.plane && spineIdx origin != u.spine
      let whole := p.payload.length == 64 && beAt 3 1 p.payload == 0 && allZero (p.payload.drop 34)
      let v := u.setBaro fun b => { b with applied := Tbl.put b.applied (origin / 4096) (seq + 1) }
      p.typ = 0x32 ∧ beAt 0 1 p.payload = kind ∧ kind ∈ [3, 4, 5] ∧ pflag p fPoison = false ∧ peer = true ∧ whole = true ∧
      Tbl.getD u.baro.applied 0 (origin / 4096) ≤ seq ∧ kind = 3 ∧ v.packetObj p.payload = some o ∧ v.isFenced o = false ∧ v.freeFence = none) ∧
    (∃ (s : State) (lp : Nat) (p : Pkt) (kind o k : Nat),
      let u := s.takeFn lp p
      let origin := beAt 16 4 p.payload
      let seq := beAt 12 4 p.payload
      let peer := pflag p fSrcSpine && feidPlane origin == u.plane && spineIdx origin != u.spine
      let whole := p.payload.length == 64 && beAt 3 1 p.payload == 0 && allZero (p.payload.drop 34)
      let v := u.setBaro fun b => { b with applied := Tbl.put b.applied (origin / 4096) (seq + 1) }
      p.typ = 0x32 ∧ beAt 0 1 p.payload = kind ∧ kind ∈ [3, 4, 5] ∧ pflag p fPoison = false ∧ peer = true ∧ whole = true ∧
      Tbl.getD u.baro.applied 0 (origin / 4096) ≤ seq ∧ kind = 3 ∧ v.packetObj p.payload = some o ∧ v.isFenced o = false ∧ v.freeFence = some k) ∧
    (∃ (s : State) (lp : Nat) (p : Pkt) (kind o : Nat),
      let u := s.takeFn lp p
      let origin := beAt 16 4 p.payload
      let seq := beAt 12 4 p.payload
      let peer := pflag p fSrcSpine && feidPlane origin == u.plane && spineIdx origin != u.spine
      let whole := p.payload.length == 64 && beAt 3 1 p.payload == 0 && allZero (p.payload.drop 34)
      let v := u.setBaro fun b => { b with applied := Tbl.put b.applied (origin / 4096) (seq + 1) }
      p.typ = 0x32 ∧ beAt 0 1 p.payload = kind ∧ kind ∈ [3, 4, 5] ∧ pflag p fPoison = false ∧ peer = true ∧ whole = true ∧
      Tbl.getD u.baro.applied 0 (origin / 4096) ≤ seq ∧ kind = 4 ∧ v.packetObj p.payload = some o ∧ v.fenceOf o = none) ∧
    (∃ (s : State) (lp : Nat) (p : Pkt) (kind o k e : Nat),
      let u := s.takeFn lp p
      let origin := beAt 16 4 p.payload
      let seq := beAt 12 4 p.payload
      let peer := pflag p fSrcSpine && feidPlane origin == u.plane && spineIdx origin != u.spine
      let whole := p.payload.length == 64 && beAt 3 1 p.payload == 0 && allZero (p.payload.drop 34)
      let v := u.setBaro fun b => { b with applied := Tbl.put b.applied (origin / 4096) (seq + 1) }
      p.typ = 0x32 ∧ beAt 0 1 p.payload = kind ∧ kind ∈ [3, 4, 5] ∧ pflag p fPoison = false ∧ peer = true ∧ whole = true ∧
      Tbl.getD u.baro.applied 0 (origin / 4096) ≤ seq ∧ kind = 4 ∧ v.packetObj p.payload = some o ∧ v.fenceOf o = some (k, e) ∧ bit 61 e = true ∧
      Tbl.find v.baro.origin k = some origin) ∧
    (∃ (s : State) (lp : Nat) (p : Pkt) (kind o k e : Nat),
      let u := s.takeFn lp p
      let origin := beAt 16 4 p.payload
      let seq := beAt 12 4 p.payload
      let peer := pflag p fSrcSpine && feidPlane origin == u.plane && spineIdx origin != u.spine
      let whole := p.payload.length == 64 && beAt 3 1 p.payload == 0 && allZero (p.payload.drop 34)
      let v := u.setBaro fun b => { b with applied := Tbl.put b.applied (origin / 4096) (seq + 1) }
      p.typ = 0x32 ∧ beAt 0 1 p.payload = kind ∧ kind ∈ [3, 4, 5] ∧ pflag p fPoison = false ∧ peer = true ∧ whole = true ∧
      Tbl.getD u.baro.applied 0 (origin / 4096) ≤ seq ∧ kind = 4 ∧ v.packetObj p.payload = some o ∧ v.fenceOf o = some (k, e) ∧
      (bit 61 e = false ∨ Tbl.find v.baro.origin k ≠ some origin)) ∧
    (∃ (s : State) (dst seq : Nat),
      let mine := fun (m : PeerMsg) => m.dst == dst && m.seq == seq
      takeFirst mine s.baro.peers = none) ∧
    (∃ (s : State) (dst seq : Nat) (m : PeerMsg) (rest : List PeerMsg),
      let mine := fun (m : PeerMsg) => m.dst == dst && m.seq == seq
      takeFirst mine s.baro.peers = some (m, rest) ∧ m.tries < 3) ∧
    (∃ (s : State) (dst seq : Nat) (m : PeerMsg) (rest : List PeerMsg),
      let mine := fun (m : PeerMsg) => m.dst == dst && m.seq == seq
      takeFirst mine s.baro.peers = some (m, rest) ∧ 3 ≤ m.tries) :=
  ⟨⟨({ peerPkt 3 with flags := 2 ^ fSrcSpine + 2 ^ fPoison }), 3, by decide +kernel⟩,
   ⟨peerUp, 0, ({ peerPkt 3 with flags := 0 }), 3, by decide +kernel⟩,
   ⟨peerUp, 0, ({ peerPkt 3 with plen := 65, payload := (peerPkt 3).payload ++ [0] }), 3, by decide +kernel⟩,
   ⟨({ up with baro := { up.baro with peers := [⟨1, 5, [], 0, 2⟩] } }), 0, (peerPkt 5), 5, by decide +kernel⟩,
   ⟨({ peerUp with baro := { up.baro with applied := [(1, 9)] } }), 0, (peerPkt 3), 3, by decide +kernel⟩,
   ⟨peerUp, 0, ({ peerPkt 3 with payload := fenceBytes 3 0 2 (5 * 4096) 0 5 4096 0 0 }), 3, by decide +kernel⟩,
   ⟨({ peerUp with fences := [(0, fenced 0 5)] }), 0, (peerPkt 3), 3, (objEndpoint 5), by decide +kernel⟩,
   ⟨({ peerUp with fences := fullList }), 0, ({ peerPkt 3 with payload := fenceBytes 3 0 0 0 0 5 4096 0 0 }), 3, 0, by decide +kernel⟩,
   ⟨peerUp, 0, (peerPkt 3), 3, (objEndpoint 5), 0, by decide +kernel⟩,
   ⟨peerUp, 0, (peerPkt 4), 4, (objEndpoint 5), by decide +kernel⟩,
   ⟨({ peerUp with fences := [(0, fenced 0 5 + 2 ^ 61)], baro := { up.baro with origin := [(0, 4096)] } }), 0, (peerPkt 4), 4, (objEndpoint 5), 0,
     (fenced 0 5 + 2 ^ 61), by decide +kernel⟩,
   ⟨({ peerUp with fences := [(0, fenced 0 5)] }), 0, (peerPkt 4), 4, (objEndpoint 5), 0, (fenced 0 5), by decide +kernel⟩,
   ⟨up, 1, 5, by decide +kernel⟩,
   ⟨({ up with baro := { up.baro with peers := [⟨1, 5, [], 0, 2⟩] } }), 1, 5, ⟨1, 5, [], 0, 2⟩, [], by decide +kernel⟩,
   ⟨({ up with baro := { up.baro with peers := [⟨1, 5, [], 0, 3⟩] } }), 1, 5, ⟨1, 5, [], 0, 3⟩, [], by decide +kernel⟩⟩

theorem witness_CheckerCompletes :
    (∃ (s : State) (h : CmdHdr) (u : Nat), s.takes h 0x1201 true = true ∧ unitKind u = none) ∧
    (∃ (s : State) (h : CmdHdr) (u step : Nat) (k : UnitKind), s.takes h 0x1201 true = true ∧ unitKind u = some k ∧ hasStep k step = false) ∧
    (∃ (s : State) (h : CmdHdr) (u step : Nat) (k : UnitKind),
      let a := s.start h 0x1201
      s.takes h 0x1201 true = true ∧ unitKind u = some k ∧ hasStep k step = true ∧ a.marginStep u = 5) ∧
    (∃ (s : State) (h : CmdHdr) (u step : Nat) (k : UnitKind),
      let a := s.start h 0x1201
      s.takes h 0x1201 true = true ∧ unitKind u = some k ∧ hasStep k step = true ∧ a.marginStep u ≠ 5) ∧
    (∃ (s : State) (h : CmdHdr) (u : Nat), s.takes h 0x1202 true = true ∧ testable u = false) ∧
    (∃ (s : State) (h : CmdHdr) (u : Nat),
      let a := s.start h 0x1202
      let runs := match a.iftOf u with | some t => t.running | none => false
      s.takes h 0x1202 true = true ∧ testable u = true ∧ runs = true) ∧
    (∃ (s : State) (h : CmdHdr) (u : Nat),
      let a := s.start h 0x1202
      let runs := match a.iftOf u with | some t => t.running | none => false
      s.takes h 0x1202 true = true ∧ testable u = true ∧ runs = false ∧ a.marginStep u ≠ 5 ∧ a.chk.macOut.contains u = false) ∧
    (∃ (s : State) (h : CmdHdr) (u : Nat),
      let a := s.start h 0x1202
      let runs := match a.iftOf u with | some t => t.running | none => false
      s.takes h 0x1202 true = true ∧ testable u = true ∧ runs = false ∧ (a.marginStep u = 5 ∨ a.chk.macOut.contains u = true)) ∧
    (∃ (s : State) (h : CmdHdr) (u : Nat), s.takes h 0x1203 true = true ∧ testable u = false) ∧
    (∃ (s : State) (h : CmdHdr) (u : Nat),
      let a := s.start h 0x1203
      let busy := match a.iftOf u with | some t => t.running || t.hdr.isSome | none => false
      s.takes h 0x1203 true = true ∧ testable u = true ∧ busy = true) ∧
    (∃ (s : State) (h : CmdHdr) (u : Nat),
      let a := s.start h 0x1203
      let busy := match a.iftOf u with | some t => t.running || t.hdr.isSome | none => false
      s.takes h 0x1203 true = true ∧ testable u = true ∧ busy = false) ∧
    (∃ (u : Nat), testable u = false) ∧
    (∃ (s : State) (u : Nat),
      let other := s.chk.tests.any fun t => t.unit != u && unitKind t.unit == unitKind u
      testable u = true ∧ s.iftOf u = none ∧ s.flag Reg.CHK_CTRL Fld.CHK_CTRL_IFT_EN = true ∧ other = false ∧ s.marginStep u ≠ 5) ∧
    (∃ (s : State) (u : Nat),
      let other := s.chk.tests.any fun t => t.unit != u && unitKind t.unit == unitKind u
      testable u = true ∧ s.iftOf u = none ∧ (s.flag Reg.CHK_CTRL Fld.CHK_CTRL_IFT_EN = false ∨ other = true ∨ s.marginStep u = 5)) ∧
    (∃ (s : State) (u : Nat) (t : IftTest), testable u = true ∧ s.iftOf u = some t ∧ t.running = false ∧ s.standInFree u = true) ∧
    (∃ (s : State) (u : Nat) (t : IftTest), testable u = true ∧ s.iftOf u = some t ∧ (t.running = true ∨ s.standInFree u = false)) ∧
    (∃ (s : State) (u : Nat), s.iftOf u = none) ∧
    (∃ (s : State) (u : Nat) (t : IftTest), s.iftOf u = some t ∧ t.running = true) ∧
    (∃ (s : State) (u : Nat) (t : IftTest) (d l : Nat),
      let v := s.elapseToTick (t.since + usTicks (60000000 * max 1 (s.fld Reg.CHK_IFT_CFG Fld.CHK_IFT_CFG_WAIT_MIN)))
      s.iftOf u = some t ∧ t.running = false ∧ unitKind u = some .fen ∧ v.servedBy (u - 64) = some (d, l)) ∧
    (∃ (s : State) (u : Nat) (t : IftTest),
      let v := s.elapseToTick (t.since + usTicks (60000000 * max 1 (s.fld Reg.CHK_IFT_CFG Fld.CHK_IFT_CFG_WAIT_MIN)))
      s.iftOf u = some t ∧ t.running = false ∧ (unitKind u ≠ some .fen ∨ v.servedBy (u - 64) = none)) ∧
    (∃ (s : State) (u : Nat) (t : IftTest), s.iftOf u = some t ∧ (t.running = false ∨ t.drain = true)) ∧
    (∃ (s : State) (u : Nat) (t : IftTest), s.iftOf u = some t ∧ t.running = true ∧ t.drain = false ∧ t.hdr = none) ∧
    (∃ (s : State) (u : Nat) (t : IftTest) (h : CmdHdr), s.iftOf u = some t ∧ t.running = true ∧ t.drain = false ∧ t.hdr = some h ∧ t.isReturn = true) ∧
    (∃ (s : State) (u : Nat) (t : IftTest) (h : CmdHdr), s.iftOf u = some t ∧ t.running = true ∧ t.drain = false ∧ t.hdr = some h ∧ t.isReturn = false) ∧
    (∃ (s : State) (n : Nat), s.holdsChunk n = true) ∧
    (∃ (s : State) (n : Nat),
      let u := (s.leaveWork n).endSharing (n / 17)
      s.holdsChunk n = false ∧ u.iftOf (unitFen n) = none) ∧
    (∃ (s : State) (n : Nat) (t : IftTest),
      let u := (s.leaveWork n).endSharing (n / 17)
      s.holdsChunk n = false ∧ u.iftOf (unitFen n) = some t ∧ (t.running = false ∨ t.drain = false)) ∧
    (∃ (s : State) (n : Nat) (t : IftTest),
      let u := (s.leaveWork n).endSharing (n / 17)
      s.holdsChunk n = false ∧ u.iftOf (unitFen n) = some t ∧ t.running = true ∧ t.drain = true) ∧
    (∃ (s : State) (u : Nat),
      let due := testable u && s.flag (Reg.CHK_MARGIN u) Fld.CHK_MARGIN_PENDING && s.spareFree u && s.pendingFirst u
      due = true) ∧
    (∃ (s : State) (u : Nat),
      let due := testable u && s.flag (Reg.CHK_MARGIN u) Fld.CHK_MARGIN_PENDING && s.spareFree u && s.pendingFirst u
      due = false) ∧
    (∃ (s : State) (row col : Nat),
      let u := s.charge (objUnit (unitMac row col)) 20 1
      u.inService (unitMac row col) = false) ∧
    (∃ (s : State) (row col : Nat),
      let u := s.charge (objUnit (unitMac row col)) 20 1
      u.inService (unitMac row col) = true ∧ u.rowFree (unitMac row col) = true) ∧
    (∃ (s : State) (row col : Nat),
      let u := s.charge (objUnit (unitMac row col)) 20 1
      u.inService (unitMac row col) = true ∧ u.rowFree (unitMac row col) = false) ∧
    (∃ (s : State), s.pwr.held = false ∧ s.pageBusy chkPg = false) :=
  ⟨⟨up, fwH, 388, by decide +kernel⟩,
   ⟨up, ⟨.firmware, 0, false, false, 0⟩, 64, 5, .fen, by decide +kernel⟩,
   ⟨(retired 64), ⟨.firmware, 0, false, false, 0⟩, 64, 0, .fen, by decide +kernel⟩,
   ⟨up, ⟨.firmware, 0, false, false, 0⟩, 64, 0, .fen, by decide +kernel⟩,
   ⟨up, ⟨.firmware, 0, false, false, 0⟩, 0, by decide +kernel⟩,
   ⟨(testing (some ⟨64, none, false, 0, true, false, false, false⟩)), ⟨.firmware, 0, false, false, 0⟩, 64, by decide +kernel⟩,
   ⟨up, ⟨.firmware, 0, false, false, 0⟩, 64, by decide +kernel⟩,
   ⟨(retired 64), ⟨.firmware, 0, false, false, 0⟩, 64, by decide +kernel⟩,
   ⟨up, ⟨.firmware, 0, false, false, 0⟩, 0, by decide +kernel⟩,
   ⟨(testing (some ⟨64, none, false, 0, true, false, false, false⟩)), ⟨.firmware, 0, false, false, 0⟩, 64, by decide +kernel⟩,
   ⟨up, ⟨.firmware, 0, false, false, 0⟩, 64, by decide +kernel⟩,
   ⟨0, by decide +kernel⟩,
   ⟨up, 64, by decide +kernel⟩,
   ⟨(retired 64), 64, by decide +kernel⟩,
   ⟨(testing (some ⟨98, none, false, 0, false, false, false, false⟩)), 98, ⟨98, none, false, 0, false, false, false, false⟩, by decide +kernel⟩,
   ⟨(testing (some ⟨64, none, false, 0, true, false, false, false⟩)), 64, ⟨64, none, false, 0, true, false, false, false⟩, by decide +kernel⟩,
   ⟨up, 64, by decide +kernel⟩,
   ⟨(testing (some ⟨64, none, false, 0, true, false, false, false⟩)), 64, ⟨64, none, false, 0, true, false, false, false⟩, by decide +kernel⟩,
   ⟨(testing (some ⟨64, none, false, 0, false, false, false, false⟩)), 64, ⟨64, none, false, 0, false, false, false, false⟩, 0, 0, by decide +kernel⟩,
   ⟨(testing (some ⟨98, none, false, 0, false, false, false, false⟩)), 98, ⟨98, none, false, 0, false, false, false, false⟩, by decide +kernel⟩,
   ⟨(testing (some ⟨98, none, false, 0, false, false, false, false⟩)), 98, ⟨98, none, false, 0, false, false, false, false⟩, by decide +kernel⟩,
   ⟨(testing (some ⟨64, none, false, 0, true, false, false, false⟩)), 64, ⟨64, none, false, 0, true, false, false, false⟩, by decide +kernel⟩,
   ⟨(testing (some ⟨64, some ⟨.firmware, 0, false, false, 0⟩, true, 0, true, false, false, false⟩)), 64, ⟨64, some ⟨.firmware, 0, false, false, 0⟩,
     true, 0, true, false, false, false⟩, ⟨.firmware, 0, false, false, 0⟩, by decide +kernel⟩,
   ⟨(testing (some ⟨64, some fwH, false, 0, true, false, false, false⟩)), 64, ⟨64, some fwH, false, 0, true, false, false, false⟩, fwH,
     by decide +kernel⟩,
   ⟨(fenGo (chunkR (fenDesc 0) gotChunk)), 0, by decide +kernel⟩,
   ⟨up, 0, by decide +kernel⟩,
   ⟨(testing (some ⟨64, none, false, 0, true, false, false, false⟩)), 0, ⟨64, none, false, 0, true, false, false, false⟩, by decide +kernel⟩,
   ⟨(testing (some ⟨64, none, false, 0, true, false, false, true⟩)), 0, ⟨64, none, false, 0, true, false, false, true⟩, by decide +kernel⟩,
   ⟨(pendingSub 64), 64, by decide +kernel⟩,
   ⟨up, 64, by decide +kernel⟩,
   ⟨up, 0, 16, by decide +kernel⟩,
   ⟨up, 0, 0, by decide +kernel⟩,
   ⟨((up.setFlag (Reg.CHK_PEAT_ROW 0) Fld.CHK_PEAT_ROW_SPARED true).setFld (Reg.CHK_PEAT_ROW 0) Fld.CHK_PEAT_ROW_SKIP 5), 0, 0, by decide +kernel⟩,
   ⟨up, by decide +kernel⟩⟩

theorem witness_CountersAndMireComplete :
    (∃ (s : State) (k v : Nat), s.pwr.held = false ∧ s.pageBusy (pg 0x13 1) = false ∧ s.slotAllowed k v = true) ∧
    (∃ (s : State) (k v : Nat), s.pwr.held = false ∧ s.pageBusy (pg 0x13 1) = false ∧ s.slotAllowed k v = false) ∧
    (∃ (s : State), s.pwr.held = false ∧ s.pageBusy pmcPg = false) ∧
    (∃ (s : State) (h : CmdHdr) (off : Nat), s.takes h 0x1301 true = true ∧ off % 64 = 0) ∧
    (∃ (s : State) (h : CmdHdr) (off : Nat), s.takes h 0x1301 true = true ∧ off % 64 ≠ 0) ∧
    (∃ (s : State), s.mireOn = true ∧ s.timeLocked = true) ∧
    (∃ (s : State), (s.mireOn = false ∨ s.timeLocked = false)) ∧
    (∃ (s : State) (h : CmdHdr), s.takes h 0x1303 true = true) ∧
    (∃ (p : Pkt), p.typ = 0x33 ∧ beAt 0 1 p.payload = 0x10 ∧ pflag p fPoison = true) ∧
    (∃ (p : Pkt),
      let n := beAt 2 2 p.payload
      let es := (List.range n).map fun i => (beAt (32 + 24 * i) 8 p.payload, beAt (40 + 24 * i) 8 p.payload, beAt (48 + 24 * i) 8 p.payload)
      let whole := beAt 1 1 p.payload == 1 && decide (n ≤ 169) && p.payload.length == 32 + 24 * n && decide (beAt 14 1 p.payload ≤ 1) &&
          allZero (slice 15 17 p.payload) && es.all fun e => nodeOk e.1 && nodeOk e.2.1
      p.typ = 0x33 ∧ beAt 0 1 p.payload = 0x10 ∧ pflag p fPoison = false ∧ whole = false) ∧
    (∃ (p : Pkt),
      let n := beAt 2 2 p.payload
      let es := (List.range n).map fun i => (beAt (32 + 24 * i) 8 p.payload, beAt (40 + 24 * i) 8 p.payload, beAt (48 + 24 * i) 8 p.payload)
      let whole := beAt 1 1 p.payload == 1 && decide (n ≤ 169) && p.payload.length == 32 + 24 * n && decide (beAt 14 1 p.payload ≤ 1) &&
          allZero (slice 15 17 p.payload) && es.all fun e => nodeOk e.1 && nodeOk e.2.1
      p.typ = 0x33 ∧ beAt 0 1 p.payload = 0x10 ∧ pflag p fPoison = false ∧ whole = true) ∧
    (∃ (s : State) (h : CmdHdr),
      let a := s.start h 0x1302
      s.takes h 0x1302 true = true ∧ a.collects = false) ∧
    (∃ (s : State) (h : CmdHdr),
      let a := s.start h 0x1302
      s.takes h 0x1302 true = true ∧ a.collects = true ∧ a.pmc.last = none) ∧
    (∃ (s : State) (h : CmdHdr) (off : Nat) (r : _),
      let a := s.start h 0x1302
      s.takes h 0x1302 true = true ∧ a.collects = true ∧ a.pmc.last = some r ∧ off % 4096 ≠ 0) ∧
    (∃ (s : State) (h : CmdHdr) (off max : Nat) (r : _),
      let a := s.start h 0x1302
      let bs := leBytes 4 0x4552494D ++ leBytes 4 r.round ++ leBytes 4 r.edges.length ++ leBytes 4 r.cycles.length ++ leBytes 8 r.time ++ leBytes 40 0 ++
          (r.edges.flatMap fun e => leBytes 8 e.1 ++ leBytes 8 e.2.1 ++ leBytes 8 e.2.2) ++ (r.cycles.flatMap fun c => leBytes 4 c.length ++ c.flatMap (leBytes 4))
      s.takes h 0x1302 true = true ∧ a.collects = true ∧ a.pmc.last = some r ∧ off % 4096 = 0 ∧ max < bs.length) ∧
    (∃ (s : State) (h : CmdHdr) (off max : Nat) (r : _),
      let a := s.start h 0x1302
      let bs := leBytes 4 0x4552494D ++ leBytes 4 r.round ++ leBytes 4 r.edges.length ++ leBytes 4 r.cycles.length ++ leBytes 8 r.time ++ leBytes 40 0 ++
          (r.edges.flatMap fun e => leBytes 8 e.1 ++ leBytes 8 e.2.1 ++ leBytes 8 e.2.2) ++ (r.cycles.flatMap fun c => leBytes 4 c.length ++ c.flatMap (leBytes 4))
      s.takes h 0x1302 true = true ∧ a.collects = true ∧ a.pmc.last = some r ∧ off % 4096 = 0 ∧ bs.length ≤ max) ∧
    (∃ (s : State) (lp c : Nat),
      let u := s.blockNote
      Tbl.find u.pmc.blocked (8 * lp + c) = none) ∧
    (∃ (s : State) (lp c : Nat) (t : _) (since : _) (b : _),
      let u := s.blockNote
      Tbl.find u.pmc.blocked (8 * lp + c) = some (t, since, b)) :=
  ⟨⟨((timeUp 2).setFlag Reg.PMC_MIRE_CFG Fld.PMC_MIRE_CFG_MIRE_EN true), 63, 0, by decide +kernel⟩,
   ⟨((timeUp 2).setFlag Reg.PMC_MIRE_CFG Fld.PMC_MIRE_CFG_MIRE_EN true), 63, (2 ^ 63 - 1), by decide +kernel⟩,
   ⟨((timeUp 2).setFlag Reg.PMC_MIRE_CFG Fld.PMC_MIRE_CFG_MIRE_EN true), by decide +kernel⟩,
   ⟨((timeUp 2).setFlag Reg.PMC_MIRE_CFG Fld.PMC_MIRE_CFG_MIRE_EN true), ⟨.firmware, 0, false, false, 0⟩, 4096, by decide +kernel⟩,
   ⟨((timeUp 2).setFlag Reg.PMC_MIRE_CFG Fld.PMC_MIRE_CFG_MIRE_EN true), ⟨.firmware, 0, false, false, 0⟩, 1, by decide +kernel⟩,
   ⟨((timeUp 2).setFlag Reg.PMC_MIRE_CFG Fld.PMC_MIRE_CFG_MIRE_EN true), by decide +kernel⟩,
   ⟨stalled, by decide +kernel⟩,
   ⟨((timeUp 2).setFlag Reg.PMC_MIRE_CFG Fld.PMC_MIRE_CFG_MIRE_EN true), ⟨.firmware, 0, false, false, 0⟩, by decide +kernel⟩,
   ⟨({ mirePkt 1 with flags := 2 ^ fPoison }), by decide +kernel⟩,
   ⟨({ mirePkt 1 with payload := beBytes 1 0x10 }), by decide +kernel⟩,
   ⟨(mirePkt 1), by decide +kernel⟩,
   ⟨(up.setFld Reg.PMC_MIRE_CFG Fld.PMC_MIRE_CFG_COLLECTOR 1), fwH, by decide +kernel⟩,
   ⟨((timeUp 2).setFlag Reg.PMC_MIRE_CFG Fld.PMC_MIRE_CFG_MIRE_EN true), ⟨.firmware, 0, false, false, 0⟩, by decide +kernel⟩,
   ⟨(withRound ⟨4, 0, [(5, 6, 7)], [[0]]⟩), fwH, 64, ⟨4, 0, [(5, 6, 7)], [[0]]⟩, by decide +kernel⟩,
   ⟨(withRound ⟨4, 0, [(5, 6, 7)], [[0]]⟩), fwH, 4096, 95, ⟨4, 0, [(5, 6, 7)], [[0]]⟩, by decide +kernel⟩,
   ⟨(withRound ⟨4, 0, [(5, 6, 7)], [[0]]⟩), fwH, 4096, 96, ⟨4, 0, [(5, 6, 7)], [[0]]⟩, by decide +kernel⟩,
   ⟨((timeUp 2).setFlag Reg.PMC_MIRE_CFG Fld.PMC_MIRE_CFG_MIRE_EN true), 0, 1, by decide +kernel⟩,
   ⟨stalled, 0, 1, 0, 0, false, by decide +kernel⟩⟩

theorem witness_FirmwareCompletes :
    (∃ (s : State) (h : CmdHdr), s.takes h 0x1501 true = true) ∧
    (∃ (s : State) (h : CmdHdr),
      let a := s.start h 0x1502
      s.takes h 0x1502 true = true ∧ a.cfg.takeover.isSome = true) ∧
    (∃ (s : State) (h : CmdHdr),
      let a := s.start h 0x1502
      s.takes h 0x1502 true = true ∧ a.cfg.takeover = none ∧ a.degraded (1 - a.activeHalf) = true) ∧
    (∃ (s : State) (h : CmdHdr) (t : Nat),
      let a := s.start h 0x1502
      s.takes h 0x1502 true = true ∧ a.cfg.takeover = none ∧ a.degraded (1 - a.activeHalf) = false ∧ fromShort t < a.time.now + 2 * secUnits) ∧
    (∃ (s : State) (h : CmdHdr) (t : Nat),
      let a := s.start h 0x1502
      s.takes h 0x1502 true = true ∧ a.cfg.takeover = none ∧ a.degraded (1 - a.activeHalf) = false ∧ a.time.now + 2 * secUnits ≤ fromShort t ∧
      a.slotStatus a.otherSlot ≠ 0) ∧
    (∃ (s : State) (h : CmdHdr) (t : Nat),
      let a := s.start h 0x1502
      s.takes h 0x1502 true = true ∧ a.cfg.takeover = none ∧ a.degraded (1 - a.activeHalf) = false ∧ a.time.now + 2 * secUnits ≤ fromShort t ∧
      a.slotStatus a.otherSlot = 0) ∧
    (∃ (s : State) (h : CmdHdr),
      let a := s.start h 0x1504
      s.takes h 0x1504 true = true ∧ a.flag Reg.CFG_STATUS Fld.CFG_STATUS_TRIAL = false) ∧
    (∃ (s : State) (h : CmdHdr),
      let a := s.start h 0x1504
      s.takes h 0x1504 true = true ∧ a.flag Reg.CFG_STATUS Fld.CFG_STATUS_TRIAL = true ∧ a.cfg.takeover.isSome = true) ∧
    (∃ (s : State) (h : CmdHdr),
      let a := s.start h 0x1504
      s.takes h 0x1504 true = true ∧ a.flag Reg.CFG_STATUS Fld.CFG_STATUS_TRIAL = true ∧ a.cfg.takeover = none ∧ a.degraded (1 - a.activeHalf) = true) ∧
    (∃ (s : State) (h : CmdHdr) (t : Nat),
      let a := s.start h 0x1504
      s.takes h 0x1504 true = true ∧ a.flag Reg.CFG_STATUS Fld.CFG_STATUS_TRIAL = true ∧ a.cfg.takeover = none ∧ a.degraded (1 - a.activeHalf) = false ∧
      fromShort t < a.time.now + 2 * secUnits) ∧
    (∃ (s : State) (h : CmdHdr) (t : Nat),
      let a := s.start h 0x1504
      s.takes h 0x1504 true = true ∧ a.flag Reg.CFG_STATUS Fld.CFG_STATUS_TRIAL = true ∧ a.cfg.takeover = none ∧ a.degraded (1 - a.activeHalf) = false ∧
      a.time.now + 2 * secUnits ≤ fromShort t) ∧
    (∃ (s : State), s.cfg.takeover = none) ∧
    (∃ (s : State) (t : Takeover),
      let u := (s.elapseToDev (fromShort t.time)).takeoverEnds
      let trial := u.flag Reg.CFG_STATUS Fld.CFG_STATUS_TRIAL
      s.cfg.takeover = some t ∧ t.back = true ∧ trial = false) ∧
    (∃ (s : State) (t : Takeover),
      let u := (s.elapseToDev (fromShort t.time)).takeoverEnds
      let trial := u.flag Reg.CFG_STATUS Fld.CFG_STATUS_TRIAL
      s.cfg.takeover = some t ∧ (t.back = false ∨ trial = true) ∧ u.degraded (1 - u.activeHalf) = true) ∧
    (∃ (s : State) (t : Takeover),
      let u := (s.elapseToDev (fromShort t.time)).takeoverEnds
      let trial := u.flag Reg.CFG_STATUS Fld.CFG_STATUS_TRIAL
      s.cfg.takeover = some t ∧ (t.back = false ∨ trial = true) ∧ u.degraded (1 - u.activeHalf) = false) ∧
    (∃ (s : State) (t : Takeover), s.cfg.takeover = some t) ∧
    (∃ (s : State) (h : CmdHdr) (fl : FlashRes), s.takes h 0x1503 true = true ∧ fl ≠ .good) ∧
    (∃ (s : State) (h : CmdHdr), s.takes h 0x1503 true = true) ∧
    (∃ (s : State),
      let b := s.activeHalf
      let t := (s.nowNs / 1000000 + 1) * 1000000
      let due := match s.cfg.takeover with | some x => decide (fromShort x.time ≤ t * 2 ^ 32) | none => false
      (s.degraded b = false ∨ s.degraded (1 - b) = true ∨ due = true)) ∧
    (∃ (s : State),
      let b := s.activeHalf
      let t := (s.nowNs / 1000000 + 1) * 1000000
      let due := match s.cfg.takeover with | some x => decide (fromShort x.time ≤ t * 2 ^ 32) | none => false
      let u := s.elapseToDev (t * 2 ^ 32)
      s.degraded b = true ∧ s.degraded (1 - b) = false ∧ due = false ∧ u.cfg.takeover = none) ∧
    (∃ (s : State) (x : _),
      let b := s.activeHalf
      let t := (s.nowNs / 1000000 + 1) * 1000000
      let due := match s.cfg.takeover with | some x => decide (fromShort x.time ≤ t * 2 ^ 32) | none => false
      let u := s.elapseToDev (t * 2 ^ 32)
      s.degraded b = true ∧ s.degraded (1 - b) = false ∧ due = false ∧ u.cfg.takeover = some x) ∧
    (∃ (s : State) (h : CmdHdr) (off len : Nat),
      let a := s.start h 0x1506
      let o := a.staging off len
      s.takes h 0x1506 true = true ∧ a.objStatus [2, 4] o ≠ 0) ∧
    (Config.hssRole (siteObj.take 68) ((siteObj.drop 68).take 4) = some 1 →
      ∃ (s : State) (h : CmdHdr) (off len : Nat),
      let a := s.start h 0x1506
      let o := a.staging off len
      s.takes h 0x1506 true = true ∧ a.objStatus [2, 4] o = 0 ∧ 1048576 < len) ∧
    (Config.hssRole (siteObj.take 68) ((siteObj.drop 68).take 4) = some 1 →
      ∃ (s : State) (h : CmdHdr) (off len : Nat) (fl : FlashRes),
      let a := s.start h 0x1506
      let o := a.staging off len
      s.takes h 0x1506 true = true ∧ a.objStatus [2, 4] o = 0 ∧ len ≤ 1048576 ∧ fl = .good) ∧
    (Config.hssRole (siteObj.take 68) ((siteObj.drop 68).take 4) = some 1 →
      ∃ (s : State) (h : CmdHdr) (off len : Nat) (fl : FlashRes),
      let a := s.start h 0x1506
      let o := a.staging off len
      s.takes h 0x1506 true = true ∧ a.objStatus [2, 4] o = 0 ∧ len ≤ 1048576 ∧ fl ≠ .good) ∧
    (∃ (s : State) (h : CmdHdr) (old new c1 c2 c3 : Nat),
      let a := s.start h 0x1507
      s.takes h 0x1507 true = true ∧ a.reuseOk old new c1 c2 c3 = false) ∧
    (∃ (s : State) (h : CmdHdr) (old new c1 c2 c3 : Nat),
      let a := s.start h 0x1507
      s.takes h 0x1507 true = true ∧ a.reuseOk old new c1 c2 c3 = true) :=
  ⟨⟨up, fwH, by decide +kernel⟩,
   ⟨(taking false), fwH, by decide +kernel⟩,
   ⟨(up.setFlag (Reg.CHK_ERGAN 1) Fld.CHK_ERGAN_DEGRADED true), fwH, by decide +kernel⟩,
   ⟨up, fwH, 0, by decide +kernel⟩,
   ⟨up, fwH, (3 * 2 ^ 30), by decide +kernel⟩,
   ⟨({ up with cfg := { up.cfg with images := [(1, (3, 2))] } }), fwH, (3 * 2 ^ 30), by decide +kernel⟩,
   ⟨up, fwH, by decide +kernel⟩,
   ⟨(taking false), fwH, by decide +kernel⟩,
   ⟨((cfgFlag Fld.CFG_STATUS_TRIAL).setFlag (Reg.CHK_ERGAN 1) Fld.CHK_ERGAN_DEGRADED true), fwH, by decide +kernel⟩,
   ⟨(cfgFlag Fld.CFG_STATUS_TRIAL), fwH, 0, by decide +kernel⟩,
   ⟨(cfgFlag Fld.CFG_STATUS_TRIAL), fwH, (3 * 2 ^ 30), by decide +kernel⟩,
   ⟨up, by decide +kernel⟩,
   ⟨({ taking true with regs := up.regs }), ⟨fwH, 3 * 2 ^ 30, 1, true⟩, by decide +kernel⟩,
   ⟨((taking false).setFlag (Reg.CHK_ERGAN 1) Fld.CHK_ERGAN_DEGRADED true), ⟨fwH, 3 * 2 ^ 30, 1, false⟩, by decide +kernel⟩,
   ⟨(taking false), ⟨fwH, 3 * 2 ^ 30, 1, false⟩, by decide +kernel⟩,
   ⟨(taking false), ⟨fwH, 3 * 2 ^ 30, 1, false⟩, by decide +kernel⟩,
   ⟨up, fwH, .writeFails, by decide +kernel⟩,
   ⟨up, fwH, by decide +kernel⟩,
   ⟨up, by decide +kernel⟩,
   ⟨(up.setFlag (Reg.CHK_ERGAN 0) Fld.CHK_ERGAN_DEGRADED true), by decide +kernel⟩,
   ⟨((taking false).setFlag (Reg.CHK_ERGAN 0) Fld.CHK_ERGAN_DEGRADED true), ⟨fwH, 3 * 2 ^ 30, 1, false⟩, by decide +kernel⟩,
   ⟨up, fwH, 0, 64, by decide +kernel⟩,
   fun role => ⟨siteUp, fwH, 0, 72 + 1048576, by decide +kernel, siteUp_ok _ (by decide) role, by decide⟩,
   fun role => ⟨siteUp, fwH, 0, 72 + 0, .good, by decide +kernel, siteUp_ok _ (by decide) role, by decide⟩,
   fun role => ⟨siteUp, fwH, 0, 72 + 1048504, .writeFails, by decide +kernel, siteUp_ok _ (by decide) role, by decide⟩,
   ⟨up, fwH, 0, 0, 0, 0, 0, by decide +kernel⟩,
   ⟨up, fwH, 1, 2, crc32c up.tableImage, 0, 0, by decide +kernel, reuse_ok⟩⟩

theorem witness_SecurityCompletes :
    (∃ (s : State) (h : CmdHdr),
      let a := s.start h 0x1401
      let ok := a.flag Reg.CFG_STATUS Fld.CFG_STATUS_PUF_OK
      s.takes h 0x1401 true = true ∧ ok = false) ∧
    (∃ (s : State) (h : CmdHdr),
      let a := s.start h 0x1401
      let ok := a.flag Reg.CFG_STATUS Fld.CFG_STATUS_PUF_OK
      s.takes h 0x1401 true = true ∧ ok = true ∧ 1048576 ≤ a.ctr 3) ∧
    (∃ (s : State) (h : CmdHdr) (fl : FlashRes),
      let a := s.start h 0x1401
      let ok := a.flag Reg.CFG_STATUS Fld.CFG_STATUS_PUF_OK
      s.takes h 0x1401 true = true ∧ ok = true ∧ a.ctr 3 < 1048576 ∧ fl ≠ .good) ∧
    (∃ (s : State) (h : CmdHdr) (fl : FlashRes),
      let a := s.start h 0x1401
      let ok := a.flag Reg.CFG_STATUS Fld.CFG_STATUS_PUF_OK
      s.takes h 0x1401 true = true ∧ ok = true ∧ a.ctr 3 < 1048576 ∧ fl = .good) ∧
    (∃ (s : State) (h : CmdHdr) (fl : FlashRes), s.takes h 0x1402 true = true ∧ fl ≠ .good) ∧
    (∃ (s : State) (h : CmdHdr), s.takes h 0x1402 true = true) ∧
    (∃ (s : State) (h : CmdHdr) (off len : Nat),
      let a := s.start h 0x1403
      let o := a.staging off len
      s.takes h 0x1403 true = true ∧ a.objStatus [3] o ≠ 0) ∧
    (Config.unitId % 2 ^ 128 = 5 → Config.hssRole ((unlockObj badToken).take 72) (((unlockObj badToken).drop 72).take 4) = some 1 →
      ∃ (s : State) (h : CmdHdr) (off len : Nat),
      let a := s.start h 0x1403
      let o := a.staging off len
      let body := slice 64 8 o
      s.takes h 0x1403 true = true ∧ a.objStatus [3] o = 0 ∧ (objBodyLen o ≠ 8 ∨ allZero (body.drop 5) = false ∨ 8 ≤ leAt 4 1 body)) ∧
    (Config.unitId % 2 ^ 128 = 5 → Config.hssRole ((unlockObj oldToken).take 72) (((unlockObj oldToken).drop 72).take 4) = some 1 →
      ∃ (s : State) (h : CmdHdr) (off len : Nat),
      let a := s.start h 0x1403
      let o := a.staging off len
      let body := slice 64 8 o
      let ch := (a.rd Reg.SEC_CHALLENGE).toNat
      s.takes h 0x1403 true = true ∧ a.objStatus [3] o = 0 ∧ objBodyLen o = 8 ∧ allZero (body.drop 5) = true ∧ leAt 4 1 body < 8 ∧
      (ch = 0 ∨ leAt 0 4 body ≠ ch)) ∧
    (Config.unitId % 2 ^ 128 = 5 → Config.hssRole ((unlockObj aToken).take 72) (((unlockObj aToken).drop 72).take 4) = some 1 →
      ∃ (s : State) (h : CmdHdr) (off len : Nat),
      let a := s.start h 0x1403
      let o := a.staging off len
      let body := slice 64 8 o
      let ch := (a.rd Reg.SEC_CHALLENGE).toNat
      s.takes h 0x1403 true = true ∧ a.objStatus [3] o = 0 ∧ objBodyLen o = 8 ∧ allZero (body.drop 5) = true ∧ leAt 4 1 body < 8 ∧ ch ≠ 0 ∧
      leAt 0 4 body = ch) ∧
    (∃ (s : State) (h : CmdHdr),
      let a := s.start h 0x1404
      let scope := a.flag Reg.SEC_STATUS Fld.SEC_STATUS_UNLOCKED && bit 2 (a.fld Reg.SEC_STATUS Fld.SEC_STATUS_SCOPE)
      s.takes h 0x1404 true = true ∧ scope = false) ∧
    (∃ (s : State) (h : CmdHdr) (fl : FlashRes),
      let a := s.start h 0x1404
      let scope := a.flag Reg.SEC_STATUS Fld.SEC_STATUS_UNLOCKED && bit 2 (a.fld Reg.SEC_STATUS Fld.SEC_STATUS_SCOPE)
      s.takes h 0x1404 true = true ∧ scope = true ∧ fl ≠ .good) ∧
    (∃ (s : State) (h : CmdHdr) (fl : FlashRes),
      let a := s.start h 0x1404
      let scope := a.flag Reg.SEC_STATUS Fld.SEC_STATUS_UNLOCKED && bit 2 (a.fld Reg.SEC_STATUS Fld.SEC_STATUS_SCOPE)
      s.takes h 0x1404 true = true ∧ scope = true ∧ fl = .good) :=
  ⟨⟨up, ⟨.firmware, 0, false, false, 0⟩, by decide +kernel⟩,
   ⟨({ cfgFlag Fld.CFG_STATUS_PUF_OK with cfg := { up.cfg with ctrs := [(3, 1048576)] } }), ⟨.firmware, 0, false, false, 0⟩, by decide +kernel⟩,
   ⟨((cfgFlag Fld.CFG_STATUS_PUF_OK)), ⟨.firmware, 0, false, false, 0⟩, .writeFails, by decide +kernel⟩,
   ⟨((cfgFlag Fld.CFG_STATUS_PUF_OK)), ⟨.firmware, 0, false, false, 0⟩, .good, by decide +kernel⟩,
   ⟨up, ⟨.firmware, 0, false, false, 0⟩, .writeFails, by decide +kernel⟩,
   ⟨up, ⟨.firmware, 0, false, false, 0⟩, by decide +kernel⟩,
   ⟨up, ⟨.firmware, 0, false, false, 0⟩, 0, 0, by decide +kernel⟩,
   fun unit role => ⟨unlockUp badToken, fwH, 0, 76, by decide +kernel, unlock_ok _ (.inr (.inr rfl)) unit role, by decide +kernel⟩,
   fun unit role => ⟨unlockUp oldToken, fwH, 0, 76, by decide +kernel, unlock_ok _ (.inr (.inl rfl)) unit role, by decide +kernel⟩,
   fun unit role => ⟨unlockUp aToken, fwH, 0, 76, by decide +kernel, unlock_ok _ (.inl rfl) unit role, by decide +kernel⟩,
   ⟨up, ⟨.firmware, 0, false, false, 0⟩, by decide +kernel⟩,
   ⟨((up.setFlag Reg.SEC_STATUS Fld.SEC_STATUS_UNLOCKED true).setFld Reg.SEC_STATUS Fld.SEC_STATUS_SCOPE 4), ⟨.firmware, 0, false, false, 0⟩,
     .writeFails, by decide +kernel⟩,
   ⟨((up.setFlag Reg.SEC_STATUS Fld.SEC_STATUS_UNLOCKED true).setFld Reg.SEC_STATUS Fld.SEC_STATUS_SCOPE 4), ⟨.firmware, 0, false, false, 0⟩, .good,
     by decide +kernel⟩⟩

theorem witness_ChainsComplete :
    (∃ (s : State) (h : CmdHdr) (off : Nat) (e : _) (es : List Nat) (img : _),
      let a := s.start h 0x1505
      let d := a.staging off (64 + 4 * leAt 6 2 (a.staging off 64))
      s.takes h 0x1505 true = true ∧ chainEntries d = some (e :: es) ∧ Tbl.find a.cfg.slots a.otherSlot = some img ∧
      (Tbl.find a.cfg.images a.otherSlot).isSome = true ∧ e = a.spineAddr 0) ∧
    (∃ (s : State) (h : CmdHdr) (off : Nat),
      let a := s.start h 0x1505
      let d := a.staging off (64 + 4 * leAt 6 2 (a.staging off 64))
      s.takes h 0x1505 true = true ∧
      (∀ e es, chainEntries d = some (e :: es) → Tbl.find a.cfg.slots a.otherSlot = none ∨ (Tbl.find a.cfg.images a.otherSlot).isSome = false ∨ e ≠ a.spineAddr 0)) ∧
    (∃ (p : Pkt) (kind : Nat), p.typ = 0x33 ∧ beAt 0 1 p.payload = 0x20 ∧ beAt 1 1 p.payload = kind ∧ kind ∈ [1, 2, 3, 4] ∧ pflag p fPoison = true) ∧
    (∃ (p : Pkt) (kind : Nat),
      let whole := decide (32 ≤ p.payload.length) && allZero (slice 20 12 p.payload) && (kind == 1 || p.payload.length == 32)
      p.typ = 0x33 ∧ beAt 0 1 p.payload = 0x20 ∧ beAt 1 1 p.payload = kind ∧ kind ∈ [1, 2, 3, 4] ∧ pflag p fPoison = false ∧ whole = false) ∧
    (∃ (s : State) (lp : Nat) (p : Pkt),
      let b := p.payload
      let x := beAt 4 4 b
      let origin := beAt 16 4 b
      let u := s.takeFn lp p
      let mine := fun (r : ChainRx) => r.origin == origin && r.xfer == x
      let old : ChainRx := (u.cfg.chainRx.find? mine).getD ⟨origin, x, beAt 12 4 b, [], false⟩
      let r : ChainRx := if old.checked then old else { old with segs := addPiece old.segs (beAt 8 4 b) (b.drop 32) }
      updTakes p 1 = true ∧ ((heldBytes r.segs).length < r.total ∨ r.checked = true)) ∧
    (∃ (s : State) (lp : Nat) (p : Pkt),
      let b := p.payload
      let x := beAt 4 4 b
      let origin := beAt 16 4 b
      let u := s.takeFn lp p
      let mine := fun (r : ChainRx) => r.origin == origin && r.xfer == x
      let old : ChainRx := (u.cfg.chainRx.find? mine).getD ⟨origin, x, beAt 12 4 b, [], false⟩
      let r : ChainRx := if old.checked then old else { old with segs := addPiece old.segs (beAt 8 4 b) (b.drop 32) }
      let data := (heldBytes r.segs).take r.total
      updTakes p 1 = true ∧ r.total ≤ (heldBytes r.segs).length ∧ r.checked = false ∧ chainEntries data = none) ∧
    (∃ (s : State) (lp : Nat) (p : Pkt) (fl : FlashRes) (es : List Nat),
      let b := p.payload
      let x := beAt 4 4 b
      let origin := beAt 16 4 b
      let u := s.takeFn lp p
      let mine := fun (r : ChainRx) => r.origin == origin && r.xfer == x
      let old : ChainRx := (u.cfg.chainRx.find? mine).getD ⟨origin, x, beAt 12 4 b, [], false⟩
      let r : ChainRx := if old.checked then old else { old with segs := addPiece old.segs (beAt 8 4 b) (b.drop 32) }
      let data := (heldBytes r.segs).take r.total
      let keep := fun (t : State) (r : ChainRx) => t.setCfg fun c => { c with chainRx := c.chainRx.filter (fun q => !mine q) ++ [r] }
      let ack := fun (t : State) =>
          t.sendRelayed (t.mgmtPkt (p.src / 4096 * 4096) (updHeader 0x20 2 0 x (min r.total (heldBytes r.segs).length) r.total origin []))
      let v := ack (keep u { r with checked := true })
      let w := v.stageImage (data.drop (64 + 4 * es.length)) fl
      updTakes p 1 = true ∧ r.total ≤ (heldBytes r.segs).length ∧ r.checked = false ∧ chainEntries data = some es ∧ w.1 ≠ 0) ∧
    (Config.hssRole (imageObj.take 84) ((imageObj.drop 84).take 4) = some 1 → Config.gcmGood (imageObj.take 84) = true →
      ∃ (s : State) (lp : Nat) (p : Pkt) (fl : FlashRes) (es : List Nat),
      let b := p.payload
      let x := beAt 4 4 b
      let origin := beAt 16 4 b
      let u := s.takeFn lp p
      let mine := fun (r : ChainRx) => r.origin == origin && r.xfer == x
      let old : ChainRx := (u.cfg.chainRx.find? mine).getD ⟨origin, x, beAt 12 4 b, [], false⟩
      let r : ChainRx := if old.checked then old else { old with segs := addPiece old.segs (beAt 8 4 b) (b.drop 32) }
      let data := (heldBytes r.segs).take r.total
      let keep := fun (t : State) (r : ChainRx) => t.setCfg fun c => { c with chainRx := c.chainRx.filter (fun q => !mine q) ++ [r] }
      let ack := fun (t : State) =>
          t.sendRelayed (t.mgmtPkt (p.src / 4096 * 4096) (updHeader 0x20 2 0 x (min r.total (heldBytes r.segs).length) r.total origin []))
      let v := ack (keep u { r with checked := true })
      let w := v.stageImage (data.drop (64 + 4 * es.length)) fl
      updTakes p 1 = true ∧ r.total ≤ (heldBytes r.segs).length ∧ r.checked = false ∧ chainEntries data = some es ∧ w.1 = 0) ∧
    (∃ (s : State) (lp : Nat) (p : Pkt),
      let u := s.takeFn lp p
      updTakes p 2 = true ∧ u.txOf (beAt 16 4 p.payload) (beAt 4 4 p.payload) = none) ∧
    (∃ (s : State) (lp : Nat) (p : Pkt) (t : ChainTx),
      let u := s.takeFn lp p
      let a := beAt 8 4 p.payload
      updTakes p 2 = true ∧ u.txOf (beAt 16 4 p.payload) (beAt 4 4 p.payload) = some t ∧ (t.targets.headD 0 / 4096 ≠ p.src / 4096 ∨ a ≤ t.acked)) ∧
    (∃ (s : State) (lp : Nat) (p : Pkt) (t : ChainTx),
      let u := s.takeFn lp p
      let a := beAt 8 4 p.payload
      updTakes p 2 = true ∧ u.txOf (beAt 16 4 p.payload) (beAt 4 4 p.payload) = some t ∧ t.targets.headD 0 / 4096 = p.src / 4096 ∧ t.acked < a ∧
      t.data.length ≤ a) ∧
    (∃ (s : State) (lp : Nat) (p : Pkt) (t : ChainTx),
      let u := s.takeFn lp p
      let a := beAt 8 4 p.payload
      updTakes p 2 = true ∧ u.txOf (beAt 16 4 p.payload) (beAt 4 4 p.payload) = some t ∧ t.targets.headD 0 / 4096 = p.src / 4096 ∧ t.acked < a ∧
      a < t.data.length) ∧
    (∃ (s : State) (lp : Nat) (p : Pkt),
      let u := s.takeFn lp p
      let head := u.cfg.chainHead.find? fun y => y.xfer == beAt 4 4 p.payload && u.spineAddr 0 == beAt 16 4 p.payload
      updTakes p 3 = true ∧ head = none) ∧
    (∃ (s : State) (lp : Nat) (p : Pkt) (x : ChainHead),
      let u := s.takeFn lp p
      let e := p.src / 4096 * 4096
      let head := u.cfg.chainHead.find? fun y => y.xfer == beAt 4 4 p.payload && u.spineAddr 0 == beAt 16 4 p.payload
      updTakes p 3 = true ∧ head = some x ∧ x.entries.contains e = false) ∧
    (∃ (s : State) (lp : Nat) (p : Pkt) (x : ChainHead),
      let u := s.takeFn lp p
      let e := p.src / 4096 * 4096
      let head := u.cfg.chainHead.find? fun y => y.xfer == beAt 4 4 p.payload && u.spineAddr 0 == beAt 16 4 p.payload
      updTakes p 3 = true ∧ head = some x ∧ x.entries.contains e = true) ∧
    (∃ (s : State) (lp : Nat) (p : Pkt),
      let u := s.takeFn lp p
      let x := beAt 4 4 p.payload
      let origin := beAt 16 4 p.payload
      let v := (u.dropTx origin x).setCfg fun c => { c with chainRx := c.chainRx.filter fun (r : ChainRx) => !(r.origin == origin && r.xfer == x) }
      updTakes p 4 = true ∧ (v.cfg.chainHead.find? fun y => y.xfer == x && v.spineAddr 0 == origin) = none) ∧
    (∃ (s : State) (lp : Nat) (p : Pkt) (y : _),
      let u := s.takeFn lp p
      let x := beAt 4 4 p.payload
      let origin := beAt 16 4 p.payload
      let v := (u.dropTx origin x).setCfg fun c => { c with chainRx := c.chainRx.filter fun (r : ChainRx) => !(r.origin == origin && r.xfer == x) }
      updTakes p 4 = true ∧ (v.cfg.chainHead.find? fun y => y.xfer == x && v.spineAddr 0 == origin) = some y) ∧
    (∃ (s : State) (origin xfer : Nat), s.txOf origin xfer = none) ∧
    (∃ (s : State) (origin xfer : Nat) (t : ChainTx), s.txOf origin xfer = some t ∧ t.tries < 3) ∧
    (∃ (s : State) (origin xfer : Nat) (t : ChainTx),
      let u := s.elapseToTick (t.at_ + usTicks 2000)
      let v := (((u.dropTx origin xfer).inc Cnt.CFG_CHAIN_SKIPS).logErr cfgPg 0x0104 1 cfgLoc).chainTo origin xfer t.data t.bad (t.targets.drop 1)
      let head := v.cfg.chainHead.find? fun x => x.xfer == xfer && v.spineAddr 0 == origin
      s.txOf origin xfer = some t ∧ 3 ≤ t.tries ∧ head = none) ∧
    (∃ (s : State) (origin xfer : Nat) (t : ChainTx) (x : ChainHead),
      let u := s.elapseToTick (t.at_ + usTicks 2000)
      let v := (((u.dropTx origin xfer).inc Cnt.CFG_CHAIN_SKIPS).logErr cfgPg 0x0104 1 cfgLoc).chainTo origin xfer t.data t.bad (t.targets.drop 1)
      let head := v.cfg.chainHead.find? fun x => x.xfer == xfer && v.spineAddr 0 == origin
      s.txOf origin xfer = some t ∧ 3 ≤ t.tries ∧ head = some x) ∧
    (∃ (s : State) (xfer : Nat), (s.cfg.chainHead.find? fun x => x.xfer == xfer) = none) ∧
    (∃ (s : State) (xfer : Nat) (x : ChainHead), (s.cfg.chainHead.find? fun x => x.xfer == xfer) = some x) :=
  ⟨⟨chainUp, ⟨.firmware, 0, false, false, 0⟩, 0, 0, [4096], (leBytes 64 7), by decide +kernel⟩,
   ⟨up, fwH, 0, by decide +kernel, fun _ _ _ => .inl (by decide +kernel)⟩,
   ⟨({ updPkt 1 0 128 64 with flags := 2 ^ fPoison }), 1, by decide +kernel⟩,
   ⟨(updPkt 2 0 128 1), 2, by decide +kernel⟩,
   ⟨chainUp, 0, (updPkt 1 0 128 64), by decide +kernel⟩,
   ⟨up, 0, (updPkt 1 0 64 64), by decide +kernel⟩,
   ⟨up, 0, (segPkt (chainDesc [0, 4096] ++ leBytes 64 7)), .good, ([0, 4096]), by decide +kernel⟩,
   fun role gcm => ⟨up, 0, segPkt (chainDesc [0, 4096] ++ imageObj), .good, [0, 4096], by decide +kernel, by decide +kernel, by decide +kernel,
     by decide +kernel, stageImage_ok _ _ (by decide +kernel) (by decide +kernel) role gcm⟩,
   ⟨chainUp, 0, (updPkt 2 128 128 0), by decide +kernel⟩,
   ⟨(chained (aChain 0)), 0, (updPkt 2 0 128 0), (aChain 0), by decide +kernel⟩,
   ⟨(chained (aChain 0)), 0, (updPkt 2 128 128 0), (aChain 0), by decide +kernel⟩,
   ⟨(chained (aChain 0)), 0, (updPkt 2 127 128 0), (aChain 0), by decide +kernel⟩,
   ⟨chainUp, 0, (updPkt 3 0 128 0), by decide +kernel⟩,
   ⟨(headed (aHead [0, 8192])), 0, (updPkt 3 0 128 0), (aHead [0, 8192]), by decide +kernel⟩,
   ⟨(headed ⟨⟨.firmware, 0, false, false, 0⟩, 9, [0, 4096], [(0, 0)], [], 0⟩), 0, (updPkt 3 0 128 0), ⟨⟨.firmware, 0, false, false, 0⟩, 9, [0, 4096],
     [(0, 0)], [], 0⟩, by decide +kernel⟩,
   ⟨chainUp, 0, (updPkt 4 0 128 0), by decide +kernel⟩,
   ⟨(headed (aHead [0, 4096])), 0, (updPkt 4 0 128 0), (aHead [0, 4096]), by decide +kernel⟩,
   ⟨chainUp, 0, 9, by decide +kernel⟩,
   ⟨(chained (aChain 2)), 0, 9, (aChain 2), by decide +kernel⟩,
   ⟨(chained (aChain 3)), 0, 9, (aChain 3), by decide +kernel⟩,
   ⟨({ chained (aChain 3) with cfg := { (chained (aChain 3)).cfg with chainHead := [aHead [0, 4096]] } }), 0, 9, (aChain 3), (aHead [0, 4096]),
     by decide +kernel⟩,
   ⟨chainUp, 9, by decide +kernel⟩,
   ⟨(headed ⟨⟨.firmware, 0, false, false, 0⟩, 9, [0, 4096], [(0, 0)], [], 0⟩), 9, ⟨⟨.firmware, 0, false, false, 0⟩, 9, [0, 4096], [(0, 0)], [], 0⟩,
     by decide +kernel⟩⟩

theorem witness_BroadcastsComplete :
    (∃ (s : State) (h : CmdHdr) (group : Nat),
      let a := s.start h 0x0101
      let g := group % 2 ^ 20
      s.takes h 0x0101 true = true ∧ a.group 0 g = none) ∧
    (∃ (s : State) (h : CmdHdr) (len group e : Nat),
      let a := s.start h 0x0101
      let g := group % 2 ^ 20
      s.takes h 0x0101 true = true ∧ a.group 0 g = some e ∧ (grpKindOf e ≠ 1 ∨ len = 0 ∨ 2 ^ 28 < len)) ∧
    (∃ (s : State) (h : CmdHdr) (len group e : Nat),
      let a := s.start h 0x0101
      let g := group % 2 ^ 20
      s.takes h 0x0101 true = true ∧ a.group 0 g = some e ∧ grpKindOf e = 1 ∧ 0 < len ∧ len ≤ 2 ^ 28 ∧ Tbl.getD a.cfg.used 0 g = grpGen e + 1) ∧
    (∃ (s : State) (h : CmdHdr) (len group e : Nat),
      let a := s.start h 0x0101
      let g := group % 2 ^ 20
      s.takes h 0x0101 true = true ∧ a.group 0 g = some e ∧ grpKindOf e = 1 ∧ 0 < len ∧ len ≤ 2 ^ 28 ∧ Tbl.getD a.cfg.used 0 g ≠ grpGen e + 1) ∧
    (∃ (s : State) (h : CmdHdr) (g : Nat),
      let a := s.start h 0x0102
      s.takes h 0x0102 true = true ∧ a.bcastOf g = none) ∧
    (∃ (s : State) (h : CmdHdr) (g : Nat) (b : _),
      let a := s.start h 0x0102
      s.takes h 0x0102 true = true ∧ a.bcastOf g = some b) ∧
    (∃ (p : Pkt), p.typ = 0x19 ∧ pflag p fPoison = true) ∧
    (∃ (p : Pkt),
      let whole := p.payload.length == 64 && decide (beAt 0 4 p.payload < 2 ^ 20) && beAt 5 1 p.payload == 0 && allZero (p.payload.drop 40)
      p.typ = 0x19 ∧ pflag p fPoison = false ∧ whole = false) ∧
    (∃ (s : State) (lp : Nat) (p : Pkt),
      let u := s.takeFn lp p
      let whole := p.payload.length == 64 && decide (beAt 0 4 p.payload < 2 ^ 20) && beAt 5 1 p.payload == 0 && allZero (p.payload.drop 40)
      let mine := u.cfg.bcasts.find? fun b => b.group == beAt 0 4 p.payload && b.gen == beAt 4 1 p.payload
      p.typ = 0x19 ∧ pflag p fPoison = false ∧ whole = true ∧ mine = none) ∧
    (∃ (s : State) (lp : Nat) (p : Pkt) (b : _),
      let u := s.takeFn lp p
      let whole := p.payload.length == 64 && decide (beAt 0 4 p.payload < 2 ^ 20) && beAt 5 1 p.payload == 0 && allZero (p.payload.drop 40)
      let mine := u.cfg.bcasts.find? fun b => b.group == beAt 0 4 p.payload && b.gen == beAt 4 1 p.payload
      p.typ = 0x19 ∧ pflag p fPoison = false ∧ whole = true ∧ mine = some b ∧ (b.feids.findIdx? fun f => feidKey f == feidKey p.src) = none) ∧
    (∃ (s : State) (lp : Nat) (p : Pkt) (b : _) (i : Nat),
      let u := s.takeFn lp p
      let whole := p.payload.length == 64 && decide (beAt 0 4 p.payload < 2 ^ 20) && beAt 5 1 p.payload == 0 && allZero (p.payload.drop 40)
      let mine := u.cfg.bcasts.find? fun b => b.group == beAt 0 4 p.payload && b.gen == beAt 4 1 p.payload
      let newer := match Tbl.find b.lastSeq i with
          | none => true
          | some q => (p.seq + 2 ^ 24 - q) % 2 ^ 24 != 0 && decide ((p.seq + 2 ^ 24 - q) % 2 ^ 24 < 2 ^ 23)
      let takes := newer && !b.excused.contains i && !u.fencedEp (b.feids.getD i 0)
      p.typ = 0x19 ∧ pflag p fPoison = false ∧ whole = true ∧ mine = some b ∧ (b.feids.findIdx? fun f => feidKey f == feidKey p.src) = some i ∧
      takes = false) ∧
    (∃ (s : State) (lp : Nat) (p : Pkt) (b : _) (i : Nat),
      let u := s.takeFn lp p
      let whole := p.payload.length == 64 && decide (beAt 0 4 p.payload < 2 ^ 20) && beAt 5 1 p.payload == 0 && allZero (p.payload.drop 40)
      let mine := u.cfg.bcasts.find? fun b => b.group == beAt 0 4 p.payload && b.gen == beAt 4 1 p.payload
      let newer := match Tbl.find b.lastSeq i with
          | none => true
          | some q => (p.seq + 2 ^ 24 - q) % 2 ^ 24 != 0 && decide ((p.seq + 2 ^ 24 - q) % 2 ^ 24 < 2 ^ 23)
      let takes := newer && !b.excused.contains i && !u.fencedEp (b.feids.getD i 0)
      p.typ = 0x19 ∧ pflag p fPoison = false ∧ whole = true ∧ mine = some b ∧ (b.feids.findIdx? fun f => feidKey f == feidKey p.src) = some i ∧
      takes = true) ∧
    (∃ (s : State) (g : Nat), s.bcastOf g = none) ∧
    (∃ (s : State) (g m k : Nat) (b : _),
      let due := decide (m < b.feids.length) && decide (k < b.blocks) && !b.has m k && !b.excused.contains m
      s.bcastOf g = some b ∧ due = false) ∧
    (∃ (s : State) (g m k : Nat) (b : _) (alt : Nat),
      let due := decide (m < b.feids.length) && decide (k < b.blocks) && !b.has m k && !b.excused.contains m
      let x := Tbl.getD b.due (b.startedAt + usTicks 4000, 0) (4096 * m + k)
      s.bcastOf g = some b ∧ due = true ∧ b.alts[x.2]? = some alt) ∧
    (∃ (s : State) (g m k : Nat) (b : _),
      let due := decide (m < b.feids.length) && decide (k < b.blocks) && !b.has m k && !b.excused.contains m
      let x := Tbl.getD b.due (b.startedAt + usTicks 4000, 0) (4096 * m + k)
      s.bcastOf g = some b ∧ due = true ∧ b.alts[x.2]? = none) ∧
    (∃ (p : Pkt),
      let b := p.payload
      p.typ = 0x33 ∧ beAt 0 1 b = 0x21 ∧ pflag p fPoison = true) ∧
    (∃ (p : Pkt),
      let b := p.payload
      let whole := beAt 1 1 b == 1 && beAt 2 2 b == 0 && allZero (slice 27 5 b) && decide (32 < b.length) && decide (beAt 8 4 b + (b.length - 32) ≤ beAt 12 4 b)
      p.typ = 0x33 ∧ beAt 0 1 b = 0x21 ∧ pflag p fPoison = false ∧ whole = false) ∧
    (∃ (s : State) (lp : Nat) (p : Pkt),
      let b := p.payload
      let u := s.takeFn lp p
      let whole := beAt 1 1 b == 1 && beAt 2 2 b == 0 && allZero (slice 27 5 b) && decide (32 < b.length) && decide (beAt 8 4 b + (b.length - 32) ≤ beAt 12 4 b)
      let key := fun (r : RelayRx) => r.src == beAt 16 4 b && r.xfer == beAt 4 4 b && r.member == beAt 20 4 b
      let old : RelayRx := (u.cfg.relays.find? key).getD ⟨beAt 16 4 b, beAt 4 4 b, beAt 20 4 b, beAt 24 3 b, beAt 12 4 b, []⟩
      let r : RelayRx := { old with segs := addPiece old.segs (beAt 8 4 b) (b.drop 32) }
      p.typ = 0x33 ∧ beAt 0 1 b = 0x21 ∧ pflag p fPoison = false ∧ whole = true ∧ (heldBytes r.segs).length < r.total) ∧
    (∃ (s : State) (lp : Nat) (p : Pkt),
      let b := p.payload
      let u := s.takeFn lp p
      let whole := beAt 1 1 b == 1 && beAt 2 2 b == 0 && allZero (slice 27 5 b) && decide (32 < b.length) && decide (beAt 8 4 b + (b.length - 32) ≤ beAt 12 4 b)
      let key := fun (r : RelayRx) => r.src == beAt 16 4 b && r.xfer == beAt 4 4 b && r.member == beAt 20 4 b
      let old : RelayRx := (u.cfg.relays.find? key).getD ⟨beAt 16 4 b, beAt 4 4 b, beAt 20 4 b, beAt 24 3 b, beAt 12 4 b, []⟩
      let r : RelayRx := { old with segs := addPiece old.segs (beAt 8 4 b) (b.drop 32) }
      let keep := fun (l : List RelayRx) => u.setCfg fun c => { c with relays := (u.cfg.relays.filter fun r => !key r) ++ l }
      p.typ = 0x33 ∧ beAt 0 1 b = 0x21 ∧ pflag p fPoison = false ∧ whole = true ∧ r.total ≤ (heldBytes r.segs).length ∧
      (keep []).group 0 (beAt 4 4 b / 4096) = none) ∧
    (∃ (s : State) (lp : Nat) (p : Pkt) (e : Nat),
      let b := p.payload
      let u := s.takeFn lp p
      let whole := beAt 1 1 b == 1 && beAt 2 2 b == 0 && allZero (slice 27 5 b) && decide (32 < b.length) && decide (beAt 8 4 b + (b.length - 32) ≤ beAt 12 4 b)
      let key := fun (r : RelayRx) => r.src == beAt 16 4 b && r.xfer == beAt 4 4 b && r.member == beAt 20 4 b
      let old : RelayRx := (u.cfg.relays.find? key).getD ⟨beAt 16 4 b, beAt 4 4 b, beAt 20 4 b, beAt 24 3 b, beAt 12 4 b, []⟩
      let r : RelayRx := { old with segs := addPiece old.segs (beAt 8 4 b) (b.drop 32) }
      let keep := fun (l : List RelayRx) => u.setCfg fun c => { c with relays := (u.cfg.relays.filter fun r => !key r) ++ l }
      p.typ = 0x33 ∧ beAt 0 1 b = 0x21 ∧ pflag p fPoison = false ∧ whole = true ∧ r.total ≤ (heldBytes r.segs).length ∧
      (keep []).group 0 (beAt 4 4 b / 4096) = some e) ∧
    (∃ (s : State) (g : Nat) (b : _), s.bcastOf g = some b) :=
  ⟨⟨up, ⟨.firmware, 0, false, false, 0⟩, 0, by decide +kernel⟩,
   ⟨(oneGrp bGrp), ⟨.firmware, 0, false, false, 0⟩, 0, 1, bGrp, by decide +kernel⟩,
   ⟨({ oneGrp bGrp with cfg := { up.cfg with used := [(1, 2)] } }), ⟨.firmware, 0, false, false, 0⟩, 64, 1, bGrp, by decide +kernel⟩,
   ⟨(oneGrp bGrp), ⟨.firmware, 0, false, false, 0⟩, 64, 1, bGrp, by decide +kernel⟩,
   ⟨up, ⟨.firmware, 0, false, false, 0⟩, 1, by decide +kernel⟩,
   ⟨(bcastUp (aBcast [] [])), fwH, 1, (aBcast [] []), by decide +kernel⟩,
   ⟨({ ackPkt with flags := 2 ^ fPoison }), by decide +kernel⟩,
   ⟨({ ackPkt with payload := beBytes 1 0 }), by decide +kernel⟩,
   ⟨up, 0, ({ withT 0x19 64 with src := 0x5000, payload := beBytes 4 1 ++ beBytes 1 1 ++ beBytes 59 0 }), by decide +kernel⟩,
   ⟨(bcastUp (aBcast [] [])), 0, ({ ackPkt with src := 0x7000 }), (aBcast [] []), by decide +kernel⟩,
   ⟨(bcastUp { aBcast [] [] with excused := [0] }), 0, ackPkt, ({ aBcast [] [] with excused := [0] }), 0, by decide +kernel⟩,
   ⟨(bcastUp (aBcast [] [])), 0, ackPkt, (aBcast [] []), 0, by decide +kernel⟩,
   ⟨up, 1, by decide +kernel⟩,
   ⟨(bcastUp { aBcast [] [] with excused := [0] }), 1, 0, 0, ({ aBcast [] [] with excused := [0] }), by decide +kernel⟩,
   ⟨(bcastUp (aBcast [3] [])), 1, 0, 0, (aBcast [3] []), 3, by decide +kernel⟩,
   ⟨(bcastUp (aBcast [] [])), 1, 0, 0, (aBcast [] []), by decide +kernel⟩,
   ⟨({ relayPkt 64 with flags := 2 ^ fPoison }), by decide +kernel⟩,
   ⟨(relayPkt 63), by decide +kernel⟩,
   ⟨up, 0, (relayPkt 65), by decide +kernel⟩,
   ⟨up, 0, (relayPkt 64), by decide +kernel⟩,
   ⟨(oneGrp bGrp), 0, (relayPkt 64), bGrp, by decide +kernel⟩,
   ⟨(bcastUp (aBcast [] [])), 1, (aBcast [] []), by decide +kernel⟩⟩

theorem witness_StepRunsFront :
    (∃ (s : State) (c : Instr) (rest : List Instr), s.pending = c :: rest) ∧
    (∃ s : State, s.pending = []) :=
  ⟨⟨{ up with pending := [.nop ⟨.firmware, 0, false, false, 0⟩] }, _, _, rfl⟩,
   ⟨up, rfl⟩⟩

theorem witness_StepKeepsInv :
    (∃ (s t : State), s.Inv ∧ step s = .next t) :=
  ⟨up, _, by unfold State.Inv Kept; decide +kernel, rfl⟩

theorem witness_FenceWaits :
    (∃ (c : Instr) (h : CmdHdr) (op : Nat) (oper : Bool) (s : State), commandOf c = some (h, op, oper) ∧ ∃ t ∈ s.ahead h op, t.running = false) ∧
    (∃ (c : Instr) (h : CmdHdr) (op : Nat) (oper : Bool) (s : State), commandOf c = some (h, op, oper) ∧ h.fence = true ∧ s.ahead h op ≠ []) ∧
    (∃ (c : Instr) (h : CmdHdr) (op : Nat) (oper : Bool) (s : State), commandOf c = some (h, op, oper) ∧ s.outranked h op = true) :=
  ⟨⟨.nop ⟨.ring 0, 8, false, false, 0⟩, ⟨.ring 0, 8, false, false, 0⟩, 0x0200, false, fencedUp, rfl, by decide +kernel⟩,
   ⟨.nop ⟨.ring 0, 8, false, true, 0⟩, ⟨.ring 0, 8, false, true, 0⟩, 0x0200, false, fencedUp, rfl, rfl, by decide +kernel⟩,
   ⟨.nop ⟨.ring 1, 8, false, false, 0⟩, ⟨.ring 1, 8, false, false, 0⟩, 0x0200, false, fencedUp, rfl, by decide +kernel⟩⟩

theorem witness_RecoveryRefuses :
    (∃ (c : Instr) (h : CmdHdr) (op : Nat) (oper : Bool) (s : State), commandOf c = some (h, op, oper) ∧ s.mayStart h op = true ∧
      s.flag Reg.CFG_STATUS Fld.CFG_STATUS_RECOVERY = true ∧ inRecovery op = false) :=
  ⟨.nop fwH, fwH, 0x0200, false, cfgFlag Fld.CFG_STATUS_RECOVERY, rfl, by decide +kernel⟩

theorem witness_StageBusy :
    (∃ (c : Instr) (h : CmdHdr) (op : Nat) (oper : Bool) (s : State), commandOf c = some (h, op, oper) ∧ s.mayStart h op = true ∧
      s.flag Reg.CFG_STATUS Fld.CFG_STATUS_RECOVERY = false ∧ s.stageReached (op / 256) = false) ∧
    (∃ (s : State) (p : Nat), pageImplemented p = true ∧ hasHeader (p / 256) (p % 256) = true ∧ s.stageReached (p / 256) = false) :=
  ⟨⟨.nop fwH, fwH, 0x0200, false, State.reset, rfl, by decide +kernel⟩,
   ⟨State.reset, pgTime, by decide +kernel⟩⟩

theorem witness_TenantsDenied :
    (∃ (c : Instr) (h : CmdHdr) (op : Nat) (s : State), commandOf c = some (h, op, true) ∧ s.mayStart h op = true ∧
      (if s.flag Reg.CFG_STATUS Fld.CFG_STATUS_RECOVERY then inRecovery op else s.stageReached (op / 256)) = true ∧ s.isOperator h = false) :=
  ⟨.linkQuery ⟨.ring 0, 8, false, false, 0⟩ 3, ⟨.ring 0, 8, false, false, 0⟩, 0x0403, tenantUp, rfl, by decide +kernel⟩

theorem witness_AccessShape :
    (∃ (s : State) (a n : Nat) (who : Requester), s.pwr.held = false ∧ reaches who a = true ∧ ((n ≠ 4 ∧ n ≠ 8) ∨ a % n ≠ 0)) ∧
    (∃ (s : State) (a n : Nat), s.pwr.held = false ∧ ((n ≠ 4 ∧ n ≠ 8) ∨ a % n ≠ 0)) ∧
    (∃ (s : State) (a n : Nat), s.pwr.held = false ∧ (n = 4 ∨ n = 8) ∧ a % n = 0 ∧ s.mapped a = true) :=
  ⟨⟨up, Reg.TIME_INCR, 2, .operator, by decide +kernel⟩,
   ⟨up, Reg.TIME_INCR + 2, 4, by decide +kernel⟩,
   ⟨up, Reg.TIME_INCR, 8, by decide +kernel⟩⟩

theorem witness_Bar2BeforeTraining :
    (∃ s : State, s.tierReady 0 = false) :=
  ⟨up, by decide +kernel⟩

theorem witness_EventsToFirmware :
    (∃ (s : State) (j : Nat) (e : Ev), s.erOn j = false ∧ s.mpTakes j = false ∧ e.kind = 1) ∧
    (∃ (s : State) (j : Nat) (e : Ev), s.erOn j = false ∧ s.mpTakes j = false ∧ e.kind ≠ 1) ∧
    (∃ s : State, s.erOn 0 = false ∧ s.mpTakes 0 = false) :=
  ⟨⟨up, 255, anEv 1, by decide +kernel⟩,
   ⟨up, 0, anEv 4, by decide +kernel⟩,
   ⟨up, by decide +kernel⟩⟩

theorem witness_FullEventRing :
    (∃ (s : State) (j : Nat) (e : Ev), s.erOn j = true ∧ s.mpTakes j = false ∧ s.erFull j = true ∧ e.kind = 1) ∧
    (∃ (s : State) (j : Nat) (e : Ev), s.erOn j = true ∧ s.mpTakes j = false ∧ s.erFull j = true ∧ (e.kind = 4 ∨ e.kind = 5) ∧ (s.er j).waitingOf false < 64) ∧
    (∃ (s : State) (j : Nat) (e : Ev), s.erOn j = true ∧ s.mpTakes j = false ∧ s.erFull j = true ∧
      ((e.kind = 4 ∨ e.kind = 5) ∧ 64 ≤ (s.er j).waitingOf false ∨ e.kind = 2 ∨ e.kind = 3)) ∧
    (∃ e : Ev, e.ring = none) ∧
    (∃ (s : State) (i : Nat), (s.er (s.crCfg i Fld.HOST_CR_CFG_EVENT_RING)).waitingOf true ≠ 0) :=
  ⟨⟨fullEr 0, 0, anEv 1, by decide +kernel⟩,
   ⟨fullEr 63, 0, anEv 4, by decide +kernel⟩,
   ⟨fullEr 64, 0, anEv 5, by decide +kernel⟩,
   ⟨anEv 4, rfl⟩,
   ⟨{ up with host := { up.host with er := [(0, { ErSt.init with waiting := [anEv 1] })] } }, 0, by decide +kernel⟩⟩

theorem witness_ErrorLogRule :
    (∃ (s : State) (p code sev loc : Nat), s.Inv ∧ s.traceState = 0 ∧ code < 2 ^ 16 ∧ sev < 3 ∧ loc < 2 ^ 16 ∧
      s.flag (Reg.PAGE_ERR_STATUS p) Fld.PAGE_ERR_STATUS_FIRST_VALID = false) ∧
    (∃ (s : State) (p code sev loc : Nat), s.Inv ∧ s.traceState = 0 ∧ code < 2 ^ 16 ∧ sev < 3 ∧ loc < 2 ^ 16 ∧
      s.flag (Reg.PAGE_ERR_STATUS p) Fld.PAGE_ERR_STATUS_FIRST_VALID = true ∧ 1 ≤ s.fld (Reg.PAGE_ERR_STATUS p) Fld.PAGE_ERR_STATUS_NEXT ∧
      s.fld (Reg.PAGE_ERR_STATUS p) Fld.PAGE_ERR_STATUS_NEXT ≤ 10 ∧
      (Tbl.getD s.logLast 0 p = 0 ∨ s.fld (Reg.PAGE_ERR_ENTRY p (Tbl.getD s.logLast 0 p - 1)) Fld.PAGE_ERR_ENTRY_CODE ≠ code ∨
        s.fld (Reg.PAGE_ERR_ENTRY p (Tbl.getD s.logLast 0 p - 1)) Fld.PAGE_ERR_ENTRY_LOCATION ≠ loc)) ∧
    (∃ (s : State) (p code sev loc : Nat), s.Inv ∧ s.traceState = 0 ∧ code < 2 ^ 16 ∧ sev < 3 ∧ loc < 2 ^ 16 ∧
      s.flag (Reg.PAGE_ERR_STATUS p) Fld.PAGE_ERR_STATUS_FIRST_VALID = true ∧ Tbl.getD s.logLast 0 p ≠ 0 ∧ Tbl.getD s.logLast 0 p ≤ 11 ∧
      s.fld (Reg.PAGE_ERR_ENTRY p (Tbl.getD s.logLast 0 p - 1)) Fld.PAGE_ERR_ENTRY_CODE = code ∧
      s.fld (Reg.PAGE_ERR_ENTRY p (Tbl.getD s.logLast 0 p - 1)) Fld.PAGE_ERR_ENTRY_LOCATION = loc) :=
  ⟨⟨up, pgTime, 0xFFFF, 2, 0xFFFF, by unfold State.Inv Kept; decide +kernel⟩,
   ⟨erred, pgTime, 0x0101, 0, 8, by unfold State.Inv Kept; decide +kernel⟩,
   ⟨erred, pgTime, 0x0101, 0, 7, by unfold State.Inv Kept; decide +kernel⟩⟩

theorem witness_ExactSumsCommute :
    (∃ (xs ys : List FVal), xs.Perm ys ∧ xs ≠ ys) :=
  ⟨[f32.decode 0x3F800000, f32.decode 0x40000000], [f32.decode 0x40000000, f32.decode 0x3F800000], List.Perm.swap _ _ _, by decide +kernel⟩

theorem witness_NumberRoundTrip :
    (∃ (c : Nat) (f : FFmt) (code : Nat), fmtOf c = some f ∧ code < 2 ^ (f.eb + f.fb + 1 + f.pad) ∧ code % 2 ^ f.pad = 0 ∧ (∀ g, f.decode code ≠ .nan g) ∧
      ¬ (f.sat = true ∧ code / 2 ^ f.pad = 2 ^ (f.eb + f.fb))) :=
  ⟨1, f32, 0x3F800000, by decide +kernel, by decide +kernel, by decide +kernel, notNan (by decide +kernel), by decide +kernel⟩

theorem witness_CounterRules :
    (∃ s : State, s.Inv) ∧
    (∃ (s : State) (a : Nat) (who : Requester), s.Inv ∧ s.pwr.held = false ∧ reaches who a = true ∧ inBlocks a = true ∧ pageImplemented (a / 4096) = true ∧
      counterAt a = some a ∧ a % 8 = 0 ∧ s.pageBusy (a / 4096) = false ∧ Tbl.find s.host.latch a = none ∧ a ≠ Reg.TIME_TXQ_ENTRY + 12 ∧ a ≠ Reg.TIME_NOW ∧
      regAt a = none) :=
  ⟨⟨up, by unfold State.Inv Kept; decide +kernel⟩,
   ⟨up, Cnt.PT_RX_PACKETS 63 7, .operator, by unfold State.Inv Kept; decide +kernel⟩⟩

theorem witness_MemoryWrites :
    (∃ (m : List Host.Cell) (a b : Nat) (bs : List Byte), Memory.wf m = true ∧ (b < a ∨ a + bs.length ≤ b)) :=
  ⟨[(3, 7), (5, 1)], 4, 5, [9], by decide +kernel⟩

theorem witness_TimePasses :
    (∃ s : State, 0x01000000 ≤ s.incr ∧ s.time.slew = 0) ∧
    (∃ (s : State) (n : Nat), 0x01000000 ≤ s.incr ∧ s.time.slew.natAbs ≤ n * s.slewRate) ∧
    (∃ (s : State) (n : Nat), 0x01000000 ≤ s.incr ∧ n * s.slewRate < s.time.slew.natAbs) ∧
    (∃ (s : State) (n : Nat), 0x01000000 ≤ s.incr ∧ s.time.now + n * (s.incr + 0x01000000) < 2 ^ 48 * secUnits) ∧
    (∃ s : State, 0x01000000 ≤ s.incr ∧ s.links.link ≠ [] ∧ ∀ x ∈ s.links.link, (x.2.ackDue || x.2.creditDue || x.2.nakDue) = false) :=
  ⟨⟨up, by decide +kernel⟩,
   ⟨{ up with time := { up.time with slew := 5 } }, 1, by decide +kernel⟩,
   ⟨{ up with time := { up.time with slew := -0x80000000 } }, 1, by decide +kernel⟩,
   ⟨up, 1000, by decide +kernel⟩,
   ⟨upLink 0, by decide +kernel⟩⟩

theorem witness_QueriesChangeNothing :
    (∃ (c : Instr) (s : State), (match c with | .nop _ => True | .fenceRead _ _ => True | _ => False) ∧ s.traceState = 0) :=
  ⟨.nop ⟨.firmware, 0, false, false, 0⟩, up, trivial, by decide +kernel⟩

theorem witness_CompletionRule :
    (∃ (h : CmdHdr) (i : Nat) (c : Cmpl), h.src = .ring i ∧ c.status = 0 ∧ h.event = false) ∧
    (∃ (h : CmdHdr) (i : Nat) (c : Cmpl), h.src = .ring i ∧ (c.status ≠ 0 ∨ h.event = true)) ∧
    (∃ (h : CmdHdr) (mac seq : Nat), h.src = .mgmt mac seq) ∧
    (∃ (h : CmdHdr) (c : Cmpl), h.src = .firmware ∧ c.status = 0 ∧ h.event = false) ∧
    (∃ (h : CmdHdr) (c : Cmpl), h.src = .firmware ∧ (c.status ≠ 0 ∨ h.event = true)) :=
  ⟨⟨⟨.ring 3, 0, false, false, 0⟩, 3, ⟨0, 0, 0, []⟩, by decide +kernel⟩,
   ⟨⟨.ring 3, 0, false, false, 0⟩, 3, ⟨4, 0, 0, []⟩, by decide +kernel⟩,
   ⟨⟨.mgmt 1 2, 0, false, false, 0⟩, 1, 2, rfl⟩,
   ⟨fwH, ⟨0, 0, 0, []⟩, by decide +kernel⟩,
   ⟨fwH, ⟨4, 0, 0, []⟩, by decide +kernel⟩⟩

theorem witness_ReportingFrame :
    (∃ (s : State) (p b a : Nat), s.Inv ∧ s.traceState = 0 ∧ a ≠ Reg.PAGE_IRQ_STATUS p ∧ b = 31) ∧
    (∃ (s : State) (p sev a : Nat), s.Inv ∧ s.traceState = 0 ∧ sev < 3 ∧ Tbl.getD s.logLast 0 p ≤ 11 ∧
      s.fld (Reg.PAGE_ERR_STATUS p) Fld.PAGE_ERR_STATUS_NEXT ≤ 10 ∧ (a < p * 4096 + 0x010 ∨ p * 4096 + 0x100 ≤ a)) :=
  ⟨⟨up, pgTime, 31, 0, by unfold State.Inv Kept; decide +kernel⟩,
   ⟨erred, pgTime, 2, pgTime * 4096 + 0x100, by unfold State.Inv Kept; decide +kernel⟩⟩

end Sys2Proof.Tests
end

section
/-! PROOFS. O2: HOST page 0, the CXL port and BAR2 (chapter 2, R47–R58, R74, R78, R81). -/
namespace Sys2Proof.HostPort
open Sys2Proof Sys2Proof.Machine

/-! ### Several fields of one register word stored in turn -/

/-- The fields of the register at a stored in turn, each with its value. -/
def storeFlds (a : Nat) : List (Fld × Nat) → State → State
  | [], s => s
  | (f, v) :: l, s => storeFlds a l (s.setFld a f v)

/-- Do the fields all lie in a register's first word, no two of them overlapping? -/
def packed : List Fld → Bool
  | [] => true
  | f :: fs => decide (f.lo ≤ f.hi) && decide (f.hi < 32) && fs.all (fldApart f) && packed fs

theorem packed_cons {f : Fld} {fs : List Fld} :
    packed (f :: fs) = true ↔ f.lo ≤ f.hi ∧ f.hi < 32 ∧ (∀ g ∈ fs, fldApart f g = true) ∧ packed fs = true := by
  simp [packed, and_assoc]

@[simp] theorem storeFlds_rest (a : Nat) (l : List (Fld × Nat)) (s : State) : (storeFlds a l s).rest = s.rest := by
  induction l generalizing s with
  | nil => rfl
  | cons x l ih => exact (ih _).trans (State.setFld_rest s a x.1 x.2)

@[simp] theorem storeFlds_cnts (a : Nat) (l : List (Fld × Nat)) (s : State) : (storeFlds a l s).cnts = s.cnts := by
  induction l generalizing s with
  | nil => rfl
  | cons x l ih => exact (ih _).trans (State.setFld_cnts s a x.1 x.2)

/-- Storing a field of a register's first word leaves every other address as it was, unaligned ones too. -/
theorem rd_setFld_of_ne {s : State} (hs : rising s.regs = true) {a b : Nat} {f : Fld} (v : Nat) (hle : f.lo ≤ f.hi) (hlt : f.hi < 32) (hb : b ≠ a) :
    (s.setFld a f v).rd b = s.rd b := by
  have hlo : f.lo / 32 = 0 := by omega
  have hhi : f.hi / 32 = 0 := by omega
  simp only [State.setFld, hlo, hhi, Nat.mul_zero, Nat.add_zero, Nat.sub_zero, Nat.zero_add, State.wrWide]
  rw [State.rd_wr s hs, if_neg hb]

theorem rd_storeFlds_of_ne {a b : Nat} (hb : b ≠ a) {l : List (Fld × Nat)} (hl : packed (l.map Prod.fst) = true) {s : State}
    (hs : rising s.regs = true) : (storeFlds a l s).rd b = s.rd b := by
  induction l generalizing s with
  | nil => rfl
  | cons x l ih =>
    obtain ⟨hle, hlt, -, hl⟩ := packed_cons.1 hl
    exact (ih hl (State.setFld_rising s hs a x.1 x.2)).trans (rd_setFld_of_ne hs x.2 hle hlt hb)

/-- A field apart from all that are stored keeps its value. -/
theorem fld_storeFlds_apart {a : Nat} {f : Fld} {l : List (Fld × Nat)} (hl : packed (f :: l.map Prod.fst) = true) {s : State}
    (hs : rising s.regs = true) : (storeFlds a l s).fld a f = s.fld a f := by
  induction l generalizing s with
  | nil => rfl
  | cons x l ih =>
    obtain ⟨hle, hlt, hap, hxl⟩ := packed_cons.1 hl
    obtain ⟨hle', hlt', -, hl'⟩ := packed_cons.1 hxl
    have hx : fldApart x.1 f = true := (Bool.or_comm _ _).trans (hap x.1 List.mem_cons_self)
    have hfl := packed_cons.2 ⟨hle, hlt, fun g hg => hap g (List.mem_cons_of_mem _ hg), hl'⟩
    exact (ih hfl (State.setFld_rising s hs a x.1 x.2)).trans (State.fld_setFld_apart s hs a x.1 f x.2 hle' hle hlt' hlt hx)

/-- Every field stored reads as its value, cut to the field's width: the later stores keep it. -/
theorem fld_storeFlds_mem {a : Nat} {l : List (Fld × Nat)} (hl : packed (l.map Prod.fst) = true) {s : State} (hs : rising s.regs = true)
    {f : Fld} {v : Nat} (hf : (f, v) ∈ l) : (storeFlds a l s).fld a f = v % 2 ^ (f.hi - f.lo + 1) := by
  induction l generalizing s with
  | nil => cases hf
  | cons x l ih =>
    have hs' := State.setFld_rising s hs a x.1 x.2
    rcases List.mem_cons.1 hf with rfl | hf
    · exact (fld_storeFlds_apart hl hs').trans (State.fld_setFld_same s hs a f v (packed_cons.1 hl).1)
    · exact ih (packed_cons.1 hl).2.2.2 hs' hf

theorem flag_storeFlds_mem {a : Nat} {l : List (Fld × Nat)} (hl : packed (l.map Prod.fst) = true) {s : State} (hs : rising s.regs = true)
    {f : Fld} {b : Bool} (hf : (f, b2n b) ∈ l) (h1 : f.hi = f.lo) : (storeFlds a l s).flag a f = b := by
  unfold State.flag
  rw [fld_storeFlds_mem hl hs hf, h1]
  cases b <;> simp [b2n]

/-- A field counted up reads as the sum, at most the field's largest value. -/
theorem fld_addFld_same {s : State} (hs : rising s.regs = true) (a : Nat) {f : Fld} (hf : f.lo ≤ f.hi) (n : Nat) :
    (s.addFld a f n).fld a f = min (s.fld a f + n) (2 ^ (f.hi - f.lo + 1) - 1) := by
  have hpos := Nat.two_pow_pos (f.hi - f.lo + 1)
  exact (State.fld_setFld_same s hs a f _ hf).trans (Nat.mod_eq_of_lt (by omega))

/-! ### HOST page 0 -/

theorem onPage_free {s : State} {p : Nat} (hheld : s.pwr.held = false) (hbusy : s.pageBusy p = false) (f : State → State) : s.onPage p f = f s := by
  simp [State.onPage, hheld, hbusy]

theorem exec_hostResetKey {s : State} (hheld : s.pwr.held = false) (hbusy : s.pageBusy hostPg = false) (v : Nat) :
    exec (.hostResetKey v) s = .next (s.hostKeyWrite v) :=
  congrArg Host.Outcome.next (onPage_free hheld hbusy _)

theorem exec_tenantWindowBind {s : State} (hheld : s.pwr.held = false) (hbusy : s.pageBusy hostPg = false) (w v : Nat) :
    exec (.tenantWindowBind w v) s = .next (s.twBindWrite w v) :=
  congrArg Host.Outcome.next (onPage_free hheld hbusy _)

theorem hostKeyWrite_first (s : State) : s.hostKeyWrite 0xA55A = { s with host := { s.host with rstKey := some s.time.ticks } } := by
  simp [State.hostKeyWrite]

theorem hostKeyWrite_second {s : State} {t : Nat} (hkey : s.host.rstKey = some t) (ht : (s.time.ticks - t) * 128 ≤ 100000) :
    s.hostKeyWrite 0x5AA5 = s.resetTo false 3 := by
  simp [State.hostKeyWrite, hkey, ht]

/-- Anything but the first key, the second in time after it excepted, forgets the sequence (R74). -/
theorem hostKeyWrite_forgets {s : State} {v : Nat} (hv : v ≠ 0xA55A)
    (hlate : ∀ t, s.host.rstKey = some t → 100000 < (s.time.ticks - t) * 128 ∨ v ≠ 0x5AA5) :
    s.hostKeyWrite v = { s with host := { s.host with rstKey := none } } := by
  unfold State.hostKeyWrite
  cases hkey : s.host.rstKey with
  | none => simp [hv]
  | some t =>
    have hno : ¬(v = 0x5AA5 ∧ (s.time.ticks - t) * 128 ≤ 100000) := by
      rintro ⟨hsecond, hin⟩
      rcases hlate t hkey with h | h
      · omega
      · exact h hsecond
    simp [hv, hno]

/-! ### The CXL port -/

/-- The fields of HOST_LINK_STATUS that a link trained to the host stores (R50). -/
def upFlds (wide fast cache mem : Bool) : List (Fld × Nat) :=
  [(Fld.HOST_LINK_STATUS_SWITCHED, b2n false), (Fld.HOST_LINK_STATUS_UP, b2n true), (Fld.HOST_LINK_STATUS_WIDTH, if wide then 16 else 8),
    (Fld.HOST_LINK_STATUS_SPEED, if fast then 3 else 2), (Fld.HOST_LINK_STATUS_CACHE_EN, b2n cache), (Fld.HOST_LINK_STATUS_MEM_EN, b2n mem)]

/-- The fields that a link found behind a switch stores: it is held down (R51). -/
def switchedFlds : List (Fld × Nat) := [(Fld.HOST_LINK_STATUS_SWITCHED, b2n true), (Fld.HOST_LINK_STATUS_UP, b2n false)]

/-- The field that a link gone down stores (R47). -/
def downFlds : List (Fld × Nat) := [(Fld.HOST_LINK_STATUS_UP, b2n false)]

theorem upFlds_packed (wide fast cache mem : Bool) : packed ((upFlds wide fast cache mem).map Prod.fst) = true := rfl
theorem switchedFlds_packed : packed (switchedFlds.map Prod.fst) = true := rfl
theorem downFlds_packed : packed (downFlds.map Prod.fst) = true := rfl

section
variable {s : State} (hheld : s.pwr.held = false) (hstage : (s.stageReached 2 || s.flag Reg.CFG_STATUS Fld.CFG_STATUS_RECOVERY) = true)
include hheld hstage

theorem exec_cxlLinkTrain (wide fast cache mem : Bool) :
    exec (.cxlLinkTrain wide fast false cache mem) s = .next (storeFlds Reg.HOST_LINK_STATUS (upFlds wide fast cache mem) s) :=
  if_neg (by simp [hheld, hstage])

theorem exec_cxlLinkTrain_switched (wide fast cache mem : Bool) :
    exec (.cxlLinkTrain wide fast true cache mem) s = .next (storeFlds Reg.HOST_LINK_STATUS switchedFlds s) :=
  if_neg (by simp [hheld, hstage])
end

theorem exec_cxlLinkDown (s : State) : exec .cxlLinkDown s = .next (storeFlds Reg.HOST_LINK_STATUS downFlds s) := rfl

/-- What a trained link reports, and that nothing beside HOST_LINK_STATUS changes. -/
theorem cxlLinkTrain_up {s : State} (hs : s.Inv) (hheld : s.pwr.held = false)
    (hstage : (s.stageReached 2 || s.flag Reg.CFG_STATUS Fld.CFG_STATUS_RECOVERY) = true) (wide fast cache mem : Bool) :
    ∃ t, exec (.cxlLinkTrain wide fast false cache mem) s = .next t ∧ t.flag Reg.HOST_LINK_STATUS Fld.HOST_LINK_STATUS_UP = true ∧
      t.flag Reg.HOST_LINK_STATUS Fld.HOST_LINK_STATUS_SWITCHED = false ∧
      t.fld Reg.HOST_LINK_STATUS Fld.HOST_LINK_STATUS_WIDTH = (if wide then 16 else 8) ∧
      t.fld Reg.HOST_LINK_STATUS Fld.HOST_LINK_STATUS_SPEED = (if fast then 3 else 2) ∧
      t.flag Reg.HOST_LINK_STATUS Fld.HOST_LINK_STATUS_CACHE_EN = cache ∧ t.flag Reg.HOST_LINK_STATUS Fld.HOST_LINK_STATUS_MEM_EN = mem ∧
      t.rest = s.rest ∧ t.cnts = s.cnts ∧ (∀ b, b ≠ Reg.HOST_LINK_STATUS → t.rd b = s.rd b) := by
  have hp := upFlds_packed wide fast cache mem
  have hwidth : (if wide then 16 else 8) % 2 ^ 5 = if wide then 16 else 8 := by cases wide <;> rfl
  have hspeed : (if fast then 3 else 2) % 2 ^ 3 = if fast then 3 else 2 := by cases fast <;> rfl
  refine ⟨_, exec_cxlLinkTrain hheld hstage wide fast cache mem, ?up, ?switched, ?width, ?speed, ?cache, ?mem, by simp, by simp,
    fun b hb => rd_storeFlds_of_ne hb hp hs.rising⟩
  case width => exact (fld_storeFlds_mem hp hs.rising (by simp [upFlds])).trans hwidth
  case speed => exact (fld_storeFlds_mem hp hs.rising (by simp [upFlds])).trans hspeed
  all_goals exact flag_storeFlds_mem hp hs.rising (by simp [upFlds]) rfl

/-! ### BAR2 and the HDM ranges -/

/-- A host read inside a region, no beat of it in error, answers the region's bytes. -/
theorem hostMemRead_inside {s : State} {kind off n t b sz : Nat} (hreg : s.regionOf kind = some (t, b, sz)) (hin : off + n ≤ sz) (at_ : Nat) :
    s.hostMemRead kind off n at_ [] = s.emit (.readData at_ (leNat (s.regionRead kind off n))) := by
  simp [State.hostMemRead, hreg, hin, State.beatsSeen]

theorem exec_bar2Access_read {s : State} (hheld : s.pwr.held = false) (hready : s.tierReady 0 = true) (off n : Nat) (errs : List BeatErr) :
    exec (.bar2Access off (.read n errs)) s = .next (s.hostMemRead 1 off n off errs) :=
  congrArg Host.Outcome.next (if_pos (by simp [hheld, hready]))

theorem exec_bar2Access_write {s : State} (hheld : s.pwr.held = false) (hready : s.tierReady 0 = true) (off : Nat) (bs : List Byte) :
    exec (.bar2Access off (.write bs)) s = .next (s.regionWrite 1 off bs) :=
  congrArg Host.Outcome.next (if_pos (by simp [hheld, hready]))

/-- Before tier 1 serves, BAR2 reads as zero and takes no write (R56). -/
theorem exec_bar2Access_untrained {s : State} (hready : s.tierReady 0 = false) (off n : Nat) (errs : List BeatErr) (bs : List Byte) :
    exec (.bar2Access off (.read n errs)) s = .next (s.emit (.readData off 0)) ∧ exec (.bar2Access off (.write bs)) s = .next s :=
  ⟨congrArg Host.Outcome.next (if_neg (by simp [hready])), congrArg Host.Outcome.next (if_neg (by simp [hready]))⟩

theorem hdmRead_ready {s : State} {hdm t b sz : Nat} (hreg : s.regionOf (hdmKind hdm) = some (t, b, sz)) (hready : s.tierReady t = true)
    (off n : Nat) (errs : List BeatErr) : s.hdmRead hdm off n errs = s.hostMemRead (hdmKind hdm) off n off errs := by
  simp [State.hdmRead, hreg, hready]

section
variable {s : State} {hdm off : Nat} (hheld : s.pwr.held = false) (hoff : off < s.hdmSize hdm)
include hheld hoff

theorem exec_hdmWrite_read (n : Nat) (errs : List BeatErr) : exec (.hdmWrite hdm off (.read n errs)) s = .next (s.hdmRead hdm off n errs) :=
  if_neg (by simp [hheld, hoff])

theorem exec_hdmWrite_write (bs : List Byte) :
    exec (.hdmWrite hdm off (.write bs)) s = .next (s.addFld Reg.HOST_HDM_WR_DROP Fld.HOST_HDM_WR_DROP_COUNT 1) :=
  if_neg (by simp [hheld, hoff])
end

/-- Settles O2, clause by clause: each row's own equation, and for the stores into HOST_LINK_STATUS the rules of fields stored in turn. -/
theorem hostPortCompletes : Obligations.HostPortCompletes := by
  unfold Obligations.HostPortCompletes
  refine ⟨?firstKey, ?secondKey, ?otherKey, ?bind, ?train, ?switched, ?down, ?barRead, ?barWrite, ?barUntrained, ?hdmRead, ?hdmWrite⟩
  case firstKey => exact fun s hheld hbusy => (exec_hostResetKey hheld hbusy _).trans (congrArg _ (hostKeyWrite_first s))
  case secondKey => exact fun s t hheld hbusy hkey ht => (exec_hostResetKey hheld hbusy _).trans (congrArg _ (hostKeyWrite_second hkey ht))
  case otherKey => exact fun s v hheld hbusy hv hlate => (exec_hostResetKey hheld hbusy _).trans (congrArg _ (hostKeyWrite_forgets hv hlate))
  case bind => exact fun s w v hheld hbusy => exec_tenantWindowBind hheld hbusy w v
  case train => exact fun s wide fast cache mem hs hheld hstage => cxlLinkTrain_up hs hheld hstage wide fast cache mem
  case switched =>
    intro s wide fast cache mem hs hheld hstage
    have hp := switchedFlds_packed
    exact ⟨_, exec_cxlLinkTrain_switched hheld hstage wide fast cache mem, flag_storeFlds_mem hp hs.rising (by simp [switchedFlds]) rfl,
      flag_storeFlds_mem hp hs.rising (by simp [switchedFlds]) rfl, by simp, by simp, fun b hb => rd_storeFlds_of_ne hb hp hs.rising⟩
  case down =>
    intro s hs
    have hp := downFlds_packed
    exact ⟨_, exec_cxlLinkDown s, flag_storeFlds_mem hp hs.rising (by simp [downFlds]) rfl, by simp, by simp,
      fun b hb => rd_storeFlds_of_ne hb hp hs.rising⟩
  case barRead =>
    exact fun s off n t b sz hheld hready hreg hin =>
      (exec_bar2Access_read hheld hready off n []).trans (congrArg _ (hostMemRead_inside hreg hin off))
  case barWrite => exact fun s off bs hheld hready => exec_bar2Access_write hheld hready off bs
  case barUntrained => exact fun s off n errs bs hready => exec_bar2Access_untrained hready off n errs bs
  case hdmRead =>
    exact fun s hdm off n t b sz hheld hoff hreg hready hin =>
      (exec_hdmWrite_read hheld hoff n []).trans
        (congrArg _ ((hdmRead_ready hreg hready off n []).trans (hostMemRead_inside hreg hin off)))
  case hdmWrite =>
    intro s hdm off bs hs hheld hoff
    exact ⟨_, exec_hdmWrite_write hheld hoff bs, fld_addFld_same hs.rising _ (by decide) 1, by simp, by simp, by simp, by simp⟩

end Sys2Proof.HostPort
end

section
/-! PROOFS. O55: how device time passes (R109–R111, R118), and what the passing of time leaves alone. -/
namespace Sys2Proof.TimeFlow
open Sys2Proof Sys2Proof.Machine

/-- What relates s to both branches relates it to the choice. -/
theorem rel_ite {r : State → State → Prop} {s t u : State} {c : Prop} [Decidable c] (ht : r s t) (hu : r s u) : r s (if c then t else u) := by
  split
  · exact ht
  · exact hu

/-! ### What the ticks count and note: counters and the waits of the Mire map alone -/

/-- t is s but for its counters and the waits it notes. -/
def Counts (s t : State) : Prop := ∃ c p, t = { s with cnts := c, pmc := p }

theorem Counts.refl (s : State) : Counts s s := ⟨s.cnts, s.pmc, rfl⟩

theorem Counts.trans {s t u : State} (h : Counts s t) (h' : Counts t u) : Counts s u := by
  obtain ⟨_, _, rfl⟩ := h
  obtain ⟨c, p, rfl⟩ := h'
  exact ⟨c, p, rfl⟩

theorem counts_addCnt (s : State) (a n : Nat) : Counts s (s.addCnt a n) := ⟨_, s.pmc, rfl⟩

theorem counts_foldl {α : Type} {f : State → α → State} (hf : ∀ s x, Counts s (f s x)) (l : List α) (s : State) : Counts s (l.foldl f s) :=
  List.foldlRecOn l f (Counts.refl s) fun t ht x _ => ht.trans (hf t x)

theorem counts_pmcCycles (s : State) (ev : Nat) (f : Nat × Pkt → Nat) (once : Bool) : Counts s (s.pmcCycles ev f once) :=
  counts_foldl (fun t _ => rel_ite (.refl t) (counts_addCnt t _ _)) _ s

theorem counts_countCycles (s : State) (n : Nat) : Counts s (s.countCycles n) :=
  (counts_foldl (fun t _ => counts_addCnt t _ _) _ s).trans
    ((counts_pmcCycles _ 4 _ _).trans ((counts_pmcCycles _ 5 _ _).trans (counts_pmcCycles _ 6 _ _)))

theorem counts_blockNote (s : State) : Counts s s.blockNote :=
  Counts.trans ⟨s.cnts, _, rfl⟩ (counts_foldl (fun t _ => ⟨t.cnts, _, rfl⟩) _ _)

/-! ### What waited for a port's light: link frames alone leave -/

/-- Is this a frame of the link layer? -/
def IsLinkFrame (x : Out) : Prop := ∃ lp hd body, x = .linkFrame lp hd body

/-- t is s but for its links and for link frames sent. -/
def Sends (s t : State) : Prop := ∃ l fs, t = { s with links := l, out := fs ++ s.out } ∧ ∀ x ∈ fs, IsLinkFrame x

theorem Sends.refl (s : State) : Sends s s := ⟨s.links, [], rfl, by simp⟩

theorem Sends.trans {s t u : State} (h : Sends s t) (h' : Sends t u) : Sends s u := by
  obtain ⟨_, fs, rfl, hfs⟩ := h
  obtain ⟨l, gs, rfl, hgs⟩ := h'
  refine ⟨l, gs ++ fs, by simp, fun x hx => ?_⟩
  exact (List.mem_append.1 hx).elim (hgs x) (hfs x)

theorem sends_setLink (s : State) (lp : Nat) (l : LinkSt) : Sends s (s.setLink lp l) := ⟨_, [], rfl, by simp⟩

theorem sends_linkFrame (s : State) (lp : Nat) (hd body : List Byte) : Sends s (s.emit (.linkFrame lp hd body)) :=
  ⟨s.links, [_], rfl, by simp [IsLinkFrame]⟩

theorem sends_control (s : State) (lp : Nat) (body : List Byte) : Sends s (s.control lp body) :=
  rel_ite (sends_linkFrame ..) (rel_ite (sends_setLink ..) (rel_ite (sends_setLink ..) (.refl s)))

theorem sends_nak (s : State) (lp : Nat) : Sends s (s.nak lp) :=
  rel_ite (.refl s) (rel_ite (sends_setLink ..) ((sends_setLink ..).trans (sends_control ..)))

theorem sends_sendDue (s : State) (lp : Nat) : Sends s (s.sendDue lp) := by
  unfold State.sendDue
  dsimp only
  refine rel_ite (.refl s) ?_
  have hack (t : State) : Sends t (if (s.link lp).ackDue then t.control lp (ackBody (s.link lp).rxSeq) else t) := rel_ite (sends_control ..) (.refl t)
  have hnak (t : State) : Sends t (if (s.link lp).nakDue then t.nak lp else t) := rel_ite (sends_nak ..) (.refl t)
  have hcredit (t : State) :
      Sends t (if (s.link lp).creditDue then t.control lp (creditBody (s.link lp).ownPriv (s.link lp).ownShared) else t) :=
    rel_ite (sends_control ..) (.refl t)
  exact (sends_setLink ..).trans ((hack _).trans ((hnak _).trans (hcredit _)))

theorem sends_allDue (s : State) : Sends s s.allDue :=
  List.foldlRecOn _ _ (Sends.refl s) fun t ht x _ => ht.trans (sends_sendDue t x.1)

/-- Do no frames wait for a port's light? -/
def NoneDue (s : State) : Prop := ∀ x ∈ s.links.link, (x.2.ackDue || x.2.creditDue || x.2.nakDue) = false

theorem allDue_of_noneDue {s : State} (h : NoneDue s) : s.allDue = s := by
  have hnil : (s.links.link.filter fun x => x.2.ackDue || x.2.creditDue || x.2.nakDue) = [] :=
    List.filter_eq_nil_iff.2 fun x hx => by simp [h x hx]
  unfold State.allDue
  rw [hnil]
  rfl

/-! ### What a slew gives in some ticks (R118) -/

/-- What a slew with `left` still to go gives in ticks that together take `take` of it at most. -/
def slewGain (left : Int) (take : Nat) : Int :=
  if left < 0 then -((min left.natAbs take : Nat) : Int) else ((min left.natAbs take : Nat) : Int)

theorem slewGain_bounds (left : Int) (take : Nat) : -(take : Int) ≤ slewGain left take ∧ slewGain left take ≤ take := by
  unfold slewGain
  split <;> omega

theorem slewGain_whole {left : Int} {take : Nat} (h : left.natAbs ≤ take) : slewGain left take = left := by
  unfold slewGain
  split <;> omega

theorem slewGain_part {left : Int} {take : Nat} (h : take < left.natAbs) : slewGain left take = if left < 0 then -(take : Int) else take := by
  unfold slewGain
  split <;> omega

theorem natAbs_sub_slewGain {left : Int} {take : Nat} (h : take < left.natAbs) : (left - slewGain left take).natAbs = left.natAbs - take := by
  rw [slewGain_part h]
  split <;> omega

/-- What is given in some ticks and then in some more is what is given in all of them. -/
theorem slewGain_add (left : Int) (a b : Nat) : slewGain left (a + b) = slewGain left a + slewGain (left - slewGain left a) b := by
  unfold slewGain
  split <;> split <;> omega

/-! ### The time core after n ticks -/

/-- The time core of s once n ticks have passed. -/
def timeAfter (s : State) (n : Nat) : TimeSt :=
  { s.time with
    ticks := s.time.ticks + n
    now := ((s.time.now : Int) + (n * s.incr : Nat) + slewGain s.time.slew (n * s.slewRate)).toNat % (2 ^ 48 * secUnits)
    slew := s.time.slew - slewGain s.time.slew (n * s.slewRate) }

/-- Everything that passing n ticks does. -/
theorem elapse_eq (s : State) (n : Nat) : ∃ c p l fs,
    s.elapse n = { s with cnts := c, pmc := p, links := l, out := fs ++ s.out, time := timeAfter s n } ∧
      (∀ x ∈ fs, IsLinkFrame x) ∧ (NoneDue s → fs = []) := by
  obtain ⟨c, p, hcount⟩ := (counts_countCycles s (2 * n)).trans (counts_blockNote _)
  have hticks : s.elapse n = ({ s with cnts := c, pmc := p, time := timeAfter s n } : State).allDue := by
    unfold State.elapse
    rw [hcount]
    rfl
  obtain ⟨l, fs, hsent, hfs⟩ := sends_allDue { s with cnts := c, pmc := p, time := timeAfter s n }
  refine ⟨c, p, l, fs, hticks.trans hsent, hfs, fun hnone => ?_⟩
  have hout := congrArg State.out (hsent.symm.trans (allDue_of_noneDue hnone))
  exact List.append_left_eq_self.1 hout

theorem elapse_time (s : State) (n : Nat) : (s.elapse n).time = timeAfter s n := by
  obtain ⟨_, _, _, _, h, -, -⟩ := elapse_eq s n
  rw [h]

theorem elapse_slew (s : State) (n : Nat) : (s.elapse n).time.slew = s.time.slew - slewGain s.time.slew (n * s.slewRate) := by
  rw [elapse_time]
  rfl

/-- Of the time core ticks, device time and the slew alone change. -/
theorem elapse_time_fields (s : State) (n : Nat) : (s.elapse n).time =
    { s.time with ticks := s.time.ticks + n, now := (s.elapse n).time.now, slew := (s.elapse n).time.slew } := by
  rw [elapse_time]
  rfl

theorem elapse_regs (s : State) (n : Nat) : (s.elapse n).regs = s.regs := by
  obtain ⟨_, _, _, _, h, -, -⟩ := elapse_eq s n
  rw [h]

theorem elapse_incr (s : State) (n : Nat) : (s.elapse n).incr = s.incr := by
  unfold State.incr
  rw [State.rdWide_congr (elapse_regs s n)]

theorem elapse_slewRate (s : State) (n : Nat) : (s.elapse n).slewRate = s.slewRate := by
  unfold State.slewRate
  rw [State.rd_congr (elapse_regs s n)]

theorem slewGain_ticks_add (s : State) (m n : Nat) : slewGain s.time.slew ((m + n) * s.slewRate) =
    slewGain s.time.slew (m * s.slewRate) + slewGain (s.elapse m).time.slew (n * (s.elapse m).slewRate) := by
  rw [elapse_slew, elapse_slewRate, Nat.add_mul, slewGain_add]

/-! ### With an increment of at least the greatest slew rate -/

section
variable {s : State} (hincr : 0x01000000 ≤ s.incr)

/-- In n ticks a slew gives or takes at most RATE on each, and the greatest RATE is 0x0100_0000. -/
theorem slewGain_ticks_bounds (s : State) (n : Nat) :
    -((n * 0x01000000 : Nat) : Int) ≤ slewGain s.time.slew (n * s.slewRate) ∧ slewGain s.time.slew (n * s.slewRate) ≤ (n * 0x01000000 : Nat) := by
  have hrate : n * s.slewRate ≤ n * 0x01000000 := Nat.mul_le_mul_left n (by unfold State.slewRate; omega)
  have hgain := slewGain_bounds s.time.slew (n * s.slewRate)
  omega

include hincr

/-- A slew back never takes more than the increments give. -/
theorem gain_nonneg (n : Nat) : 0 ≤ ((n * s.incr : Nat) : Int) + slewGain s.time.slew (n * s.slewRate) := by
  have hinc : n * 0x01000000 ≤ n * s.incr := Nat.mul_le_mul_left n hincr
  have hgain := (slewGain_ticks_bounds s n).1
  omega

theorem elapse_now (n : Nat) : ((s.elapse n).time.now : Int) =
    ((s.time.now : Int) + (n * s.incr : Nat) + slewGain s.time.slew (n * s.slewRate)) % (2 ^ 48 * secUnits : Nat) := by
  have hpos := gain_nonneg hincr n
  rw [elapse_time]
  unfold timeAfter
  dsimp only
  rw [Int.natCast_emod, Int.toNat_of_nonneg (by omega)]

theorem elapse_now_ge (n : Nat) (hwrap : s.time.now + n * (s.incr + 0x01000000) < 2 ^ 48 * secUnits) : s.time.now ≤ (s.elapse n).time.now := by
  have hpos := gain_nonneg hincr n
  have hgain := (slewGain_ticks_bounds s n).2
  have hnow := elapse_now hincr n
  rw [Nat.mul_add] at hwrap
  rw [Int.emod_eq_of_lt (by omega) (by omega)] at hnow
  omega

theorem elapse_add_now (m n : Nat) : (s.elapse (m + n)).time.now = ((s.elapse m).elapse n).time.now := by
  have hincr' : 0x01000000 ≤ (s.elapse m).incr := (elapse_incr s m).symm ▸ hincr
  apply Int.ofNat_inj.1
  rw [elapse_now hincr, elapse_now hincr', elapse_now hincr, slewGain_ticks_add, elapse_incr, Int.add_assoc (_ % _), Int.emod_add_emod,
    Nat.add_mul, Int.natCast_add]
  congr 1
  omega

theorem elapse_add_time (m n : Nat) : (s.elapse (m + n)).time = ((s.elapse m).elapse n).time := by
  have hleft : (s.elapse (m + n)).time.slew = ((s.elapse m).elapse n).time.slew := by
    rw [elapse_slew, elapse_slew (s.elapse m), slewGain_ticks_add, elapse_slew s m]
    omega
  rw [elapse_time_fields, elapse_time_fields (s.elapse m), elapse_add_now hincr, hleft, elapse_time_fields s m, Nat.add_assoc]
end

/-- Settles O55: `elapse_eq` says what n ticks do, `elapse_now` what device time reads then, and the laws of `slewGain` what is left of a slew. -/
theorem timePasses : Obligations.TimePasses := by
  unfold Obligations.TimePasses
  intro s n m hincr
  obtain ⟨c, p, l, fs, heq, hfs, hnone⟩ := elapse_eq s n
  have hnow := elapse_now hincr n
  have hslew := elapse_slew s n
  refine ⟨?ticks, ?steady, ?done, ?slewing, elapse_now_ge hincr n, elapse_add_time hincr m n, ?regs, ?mem1, ?mem2, ?host, ?frames, ?silent⟩
  case ticks => rw [elapse_time]; rfl
  case steady =>
    intro h0
    have hgain : slewGain s.time.slew (n * s.slewRate) = 0 := by rw [slewGain_whole (by simp [h0]), h0]
    rw [hgain, Int.add_zero] at hnow
    rw [hgain, h0] at hslew
    exact ⟨Int.ofNat_inj.1 (hnow.trans (by rw [Int.natCast_emod, Int.natCast_add])), hslew⟩
  case done =>
    intro hall
    rw [slewGain_whole hall] at hnow hslew
    exact ⟨hslew.trans (Int.sub_self _), hnow⟩
  case slewing =>
    intro hpart
    rw [slewGain_part hpart] at hnow
    exact ⟨(congrArg Int.natAbs hslew).trans (natAbs_sub_slewGain hpart), hnow⟩
  case regs => rw [heq]
  case mem1 => rw [heq]
  case mem2 => rw [heq]
  case host => rw [heq]
  case frames => exact ⟨fs, by rw [heq], hfs⟩
  case silent => intro h; rw [heq, hnone h]; rfl

end Sys2Proof.TimeFlow
end

section
/-! PROOFS. O5: the clock, its discipline and the time states (chapter 3, R115–R129). -/
namespace Sys2Proof.ClockRows
open Sys2Proof Sys2Proof.Machine Sys2Proof.HostPort

/-! ### The rows that write the TIME page -/

section
variable {s : State} (hheld : s.pwr.held = false) (hbusy : s.pageBusy pgTime = false)
include hheld hbusy

theorem exec_timeIncrWrite (v : Nat) : exec (.timeIncrWrite v) s = .next ((s.commitIncr v).dropHeld [Reg.TIME_INCR + 4]) :=
  congrArg Host.Outcome.next (onPage_free hheld hbusy _)

theorem exec_timeAdjWrite (v : Nat) : exec (.timeAdjWrite v) s = .next ((s.commitAdj v).dropHeld [Reg.TIME_ADJ + 4]) :=
  congrArg Host.Outcome.next (onPage_free hheld hbusy _)

theorem exec_timeStepKey (v : Nat) : exec (.timeStepKey v) s = .next (s.stepKeyWrite v) :=
  congrArg Host.Outcome.next (onPage_free hheld hbusy _)

theorem exec_timeSet (sec ns : Nat) :
    exec (.timeSet sec ns) s = .next ((s.commitSet sec ns).dropHeld [Reg.TIME_SET + 8, Reg.TIME_SET + 4, Reg.TIME_SET]) :=
  congrArg Host.Outcome.next (onPage_free hheld hbusy _)

theorem exec_declareLock : exec .declareLock s = .next s.declareLock := congrArg Host.Outcome.next (onPage_free hheld hbusy _)

theorem exec_declareLost : exec .declareLost s = .next s.declareLost := congrArg Host.Outcome.next (onPage_free hheld hbusy _)

theorem exec_timeHeartbeat : exec .timeHeartbeat s = .next s.heartbeat := congrArg Host.Outcome.next (onPage_free hheld hbusy _)
end

/-! ### TIME_INCR (R115) -/

theorem commitIncr_inRange {v : Nat} (h : bits 35 32 v = 1 ∧ 0x46AE147B ≤ v % 2 ^ 32 ∧ v % 2 ^ 32 ≤ 0x48AE147B) (s : State) :
    s.commitIncr v = s.wrWide Reg.TIME_INCR (v % 2 ^ 36) 2 := if_pos h

theorem commitIncr_outOfRange {v : Nat} (h : bits 35 32 v ≠ 1 ∨ v % 2 ^ 32 < 0x46AE147B ∨ 0x48AE147B < v % 2 ^ 32) (s : State) :
    s.commitIncr v = ((s.setFld Reg.TIME_STATUS Fld.TIME_STATUS_INCR_REFUSED 1).irq pgTime 4).logErr pgTime 0x0103 0 (locBlock 3) :=
  if_neg (by omega)

/-! ### TIME_ADJ (R118–R120, R122) -/

/-- TIME_ADJ stored, the offset that was pending dropped. -/
def adjStored (s : State) (v : Nat) : State :=
  let r := s.wrWide Reg.TIME_ADJ v 2
  { r with time := { r.time with pending := none } }

/-- The offset that a value of TIME_ADJ spells, in units of 2^-32 ns. -/
def adjOffset (v : Nat) : Int := toSigned 64 v * 65536

/-- Does an offset, and its sum with the slew in progress, stay within TIME_JUMP_LIMIT (R119)? -/
def adjFits (u : State) (d : Int) : Bool := decide (d.natAbs ≤ u.jumpLimit ∧ (d + u.time.slew).natAbs ≤ u.jumpLimit)

/-- Is an offset slewed, not stepped: in ACQUIRE, LOCKED and HOLDOVER (R119)? -/
def slews (s : State) : Prop := s.timeState = 1 ∨ s.timeState = 2 ∨ s.timeState = 3

theorem slews.not_stepped {s : State} (h : slews s) : ¬(s.timeState = 0 ∨ s.timeState = 4) := by
  unfold slews at h
  omega

section
variable {s : State} {v : Nat}

theorem commitAdj_unset (h : (adjStored s v).timeState = 0) :
    s.commitAdj v = (((adjStored s v).elapse 1).applyStep (adjOffset v)).enterAcquire :=
  (if_pos (.inl h)).trans (if_pos h)

theorem commitAdj_lost (h : (adjStored s v).timeState = 4) : s.commitAdj v = ((adjStored s v).elapse 1).applyStep (adjOffset v) :=
  (if_pos (.inr h)).trans (if_neg fun hunset => absurd (h.symm.trans hunset) (by decide))

theorem commitAdj_slewed (hst : slews (adjStored s v)) (hfits : adjFits (adjStored s v) (adjOffset v) = true) :
    s.commitAdj v = { adjStored s v with time := { (adjStored s v).time with slew := adjOffset v + (adjStored s v).time.slew } } :=
  (if_neg hst.not_stepped).trans (if_pos (of_decide_eq_true hfits))

theorem commitAdj_refused (hst : slews (adjStored s v)) (hfits : adjFits (adjStored s v) (adjOffset v) = false) :
    s.commitAdj v = ((({ adjStored s v with time := { (adjStored s v).time with pending := some (adjOffset v) } } : State).setFld
      Reg.TIME_STATUS Fld.TIME_STATUS_ADJ_REFUSED 1).irq pgTime 3).logErr pgTime 0x0101 0 (locBlock 3) :=
  (if_neg hst.not_stepped).trans (if_neg (of_decide_eq_false hfits))
end

/-! ### TIME_STEP_KEY (R121) -/

theorem stepKeyWrite_first (s : State) : s.stepKeyWrite 0xC3C3 = { s with time := { s.time with stepKey := some s.time.ticks } } := by
  simp [State.stepKeyWrite]

/-- Did the first key of the sequence come within 1 µs? -/
def keyInTime (s : State) : Prop := ∃ t, s.time.stepKey = some t ∧ (s.time.ticks - t) * 128 ≤ 100000

/-- The pending offset d taken as a step on the next tick. -/
def pendingStepped (s : State) (d : Int) : State :=
  (({ s with time := { s.time with stepKey := none, pending := none } } : State).elapse 1).applyStep d

section
variable {s : State} (hkey : keyInTime s)
include hkey

theorem stepKeyWrite_second_none (hnone : s.time.pending = none) :
    s.stepKeyWrite 0x3C3C = { s with time := { s.time with stepKey := none } } := by
  obtain ⟨t, ht, hin⟩ := hkey
  simp [State.stepKeyWrite, ht, hin, hnone]

/-- The second key within 1 µs of the first applies the pending offset; the time state follows. -/
theorem stepKeyWrite_second_some {d : Int} (hsome : s.time.pending = some d) : s.stepKeyWrite 0x3C3C =
    if s.timeState = 2 ∨ s.timeState = 3 then (pendingStepped s d).enterLost
    else if s.timeState = 0 then (pendingStepped s d).enterAcquire else pendingStepped s d := by
  obtain ⟨t, ht, hin⟩ := hkey
  unfold State.stepKeyWrite pendingStepped
  rw [if_neg (by decide), if_pos ⟨rfl, by rw [ht]; exact decide_eq_true hin⟩]
  dsimp only
  rw [hsome]
  rfl
end

/-- Any value but the first key forgets the sequence, unless it is the second key in time. -/
theorem stepKeyWrite_forgets {s : State} {v : Nat} (hfirst : v ≠ 0xC3C3) (hlate : v = 0x3C3C → ¬ keyInTime s) :
    s.stepKeyWrite v = { s with time := { s.time with stepKey := none } } := by
  refine (if_neg hfirst).trans (if_neg ?_)
  rintro ⟨hsecond, hin⟩
  refine hlate hsecond ?_
  split at hin
  next t hkey => exact ⟨t, hkey, of_decide_eq_true hin⟩
  next => cases hin

/-! ### TIME_SET (R123, R124) -/

/-- The time sec, ns loaded on the tick after the write, the slew and the pending offset cleared. -/
def timeLoaded (s : State) (sec ns : Nat) : State :=
  let u := (s.wrWide Reg.TIME_SET (sec % 2 ^ 48 * 2 ^ 64 + ns % 2 ^ 30 * 2 ^ 32) 4).elapse 1
  let v : State := { u with time := { u.time with slew := 0, pending := none } }
  v.applyStep ((((sec % 2 ^ 48 * 1000000000 + ns) * 2 ^ 32 : Nat) : Int) - v.time.now)

section
variable {s : State} {ns : Nat} (sec : Nat)

theorem commitSet_unset (hst : s.timeState = 0) (hns : ns < 1000000000) : s.commitSet sec ns = (timeLoaded s sec ns).enterAcquire :=
  (if_pos ⟨.inl hst, hns⟩).trans (if_pos hst)

theorem commitSet_lost (hst : s.timeState = 4) (hns : ns < 1000000000) : s.commitSet sec ns = timeLoaded s sec ns :=
  (if_pos ⟨.inr hst, hns⟩).trans (if_neg (by omega))

theorem commitSet_refused (h : (s.timeState ≠ 0 ∧ s.timeState ≠ 4) ∨ 1000000000 ≤ ns) :
    s.commitSet sec ns = (s.setFld Reg.TIME_STATUS Fld.TIME_STATUS_ADJ_REFUSED 1).irq pgTime 3 :=
  if_neg (by omega)
end

/-! ### The time states (R125–R127) -/

section
variable {s : State}

theorem declareLock_enters (h : s.timeState = 1 ∨ s.timeState = 3 ∨ s.timeState = 4) : s.declareLock = s.enterLocked := if_pos h
theorem declareLock_stays (h : s.timeState = 0 ∨ s.timeState = 2) : s.declareLock = s := if_neg (by omega)
theorem declareLost_enters (h : s.timeState ≠ 0) : s.declareLost = s.enterLost := if_neg h
theorem declareLost_stays (h : s.timeState = 0) : s.declareLost = s := if_pos h

theorem heartbeat_locked (h : s.timeState = 2) : s.heartbeat = { s with time := { s.time with holdFrom := s.time.ticks } } := by
  simp [State.heartbeat, h]
theorem heartbeat_holdover (h : s.timeState = 3) : s.heartbeat = s.enterLocked := by simp [State.heartbeat, h]
theorem heartbeat_lost (h : s.timeState = 4) : s.heartbeat = s.enterAcquire := by simp [State.heartbeat, h]
theorem heartbeat_stays (h : s.timeState = 0 ∨ s.timeState = 1) : s.heartbeat = s := by
  rcases h with h | h <;> simp [State.heartbeat, h]
end

/-! ### The ends of the windows (R125–R127) -/

/-- What the end of the hold window does at the tick it falls in. -/
def holdWindowEnds (u : State) : Result :=
  if u.heartbeatNext then .next u
  else if u.flag Reg.TIME_CTRL Fld.TIME_CTRL_HOLDOVER_EN then
    let v := u.setTimeState 3
    .next { v with time := { v.time with holdoverFrom := v.time.ticks } }
  else .next u.enterLost

/-- What the end of HOLDOVER's window does at the tick it falls in. -/
def holdoverEnds (u : State) : State := if u.heartbeatNext then u else u.enterLost

/-- The window is the one that TIME_HOLD_WIN reads when it ends. -/
theorem exec_holdWindowExpiry {s : State} (h : s.timeState = 2) :
    exec .holdWindowExpiry s = holdWindowEnds (s.elapseToTick (s.time.holdFrom + usTicks (s.rd Reg.TIME_HOLD_WIN).toNat)) :=
  if_pos h

theorem exec_holdoverExpiry {s : State} (h : s.timeState = 3) :
    exec .holdoverExpiry s = .next (holdoverEnds (s.elapseToTick (s.time.holdoverFrom + usTicks (s.rd Reg.TIME_HOLDOVER_MAX).toNat))) :=
  if_pos h

section
variable {u : State}

theorem holdWindowEnds_heartbeat (h : u.heartbeatNext = true) : holdWindowEnds u = .next u := if_pos h

theorem holdWindowEnds_holdover (h : u.heartbeatNext = false) (hen : u.flag Reg.TIME_CTRL Fld.TIME_CTRL_HOLDOVER_EN = true) :
    let v := u.setTimeState 3
    holdWindowEnds u = .next { v with time := { v.time with holdoverFrom := v.time.ticks } } := by
  simp [holdWindowEnds, h, hen]

theorem holdWindowEnds_lost (h : u.heartbeatNext = false) (hen : u.flag Reg.TIME_CTRL Fld.TIME_CTRL_HOLDOVER_EN = false) :
    holdWindowEnds u = .next u.enterLost := by
  simp [holdWindowEnds, h, hen]

theorem holdoverEnds_heartbeat (h : u.heartbeatNext = true) : holdoverEnds u = u := if_pos h
theorem holdoverEnds_lost (h : u.heartbeatNext = false) : holdoverEnds u = u.enterLost := if_neg (Bool.eq_false_iff.1 h)
end

theorem exec_parkMaxExpiry {s : State} {t : Nat} (h : s.time.lostFrom = some t) :
    let u := s.elapseToTick (t + (s.rd Reg.TIME_PARK_MAX).toNat)
    let v : State := { u with time := { u.time with lostFrom := none } }
    exec .parkMaxExpiry s = .next (v.optics.parkDue.foldl (fun s n => s.park n s.nowC true) v) := by
  show execParkMaxExpiry s = _
  unfold execParkMaxExpiry
  rw [h]

/-- Settles O5, clause by clause: the row runs on a free page, and its operation's case is named by the state and the operands. -/
theorem clockCommandsComplete : Obligations.ClockCommandsComplete := by
  unfold Obligations.ClockCommandsComplete
  refine ⟨?incr, ?adj, fun _ => rfl, ?firstKey, ?secondKey, ?otherKey, ?set, ?declare, ?heartbeat, ?holdWindow, ?holdover, fun s t => exec_parkMaxExpiry⟩
  case incr =>
    intro s v hheld hbusy
    rw [exec_timeIncrWrite hheld hbusy]
    exact ⟨fun h => by rw [commitIncr_inRange h], fun h => by rw [commitIncr_outOfRange h]⟩
  case adj =>
    intro s v hheld hbusy
    rw [exec_timeAdjWrite hheld hbusy]
    refine ⟨fun h => ?_, fun h => ?_, fun hst hfits => ?_, fun hst hfits => ?_⟩
    · rw [commitAdj_unset h]; rfl
    · rw [commitAdj_lost h]; rfl
    · rw [commitAdj_slewed hst hfits]; rfl
    · rw [commitAdj_refused hst hfits]; rfl
  case firstKey => exact fun s hheld hbusy => (exec_timeStepKey hheld hbusy _).trans (congrArg _ (stepKeyWrite_first s))
  case secondKey =>
    intro s t hheld hbusy hkey hin
    have hin : keyInTime s := ⟨t, hkey, hin⟩
    rw [exec_timeStepKey hheld hbusy]
    refine ⟨fun hnone => by rw [stepKeyWrite_second_none hin hnone], fun d hsome => ?_⟩
    rw [stepKeyWrite_second_some hin hsome]
    refine ⟨fun hst => ?_, fun hst => ?_, fun hst => ?_⟩
    · exact congrArg _ ((if_neg (by omega)).trans (if_neg (by omega)))
    · exact congrArg _ (if_pos hst)
    · exact congrArg _ ((if_neg (by omega)).trans (if_pos hst))
  case otherKey =>
    intro s v hheld hbusy hfirst hlate
    rw [exec_timeStepKey hheld hbusy, stepKeyWrite_forgets hfirst]
    rintro hsecond ⟨t, hkey, hin⟩
    rcases hlate with h | h | ⟨t', hkey', hin'⟩
    · exact h hsecond
    · simp [h] at hkey
    · obtain rfl : t' = t := Option.some.inj (hkey'.symm.trans hkey)
      omega
  case set =>
    intro s sec ns hheld hbusy
    rw [exec_timeSet hheld hbusy]
    refine ⟨fun hst hns => ?_, fun hst hns => ?_, fun h => ?_⟩
    · rw [commitSet_unset sec hst hns]; rfl
    · rw [commitSet_lost sec hst hns]; rfl
    · rw [commitSet_refused sec h]
  case declare =>
    intro s hheld hbusy
    rw [exec_declareLock hheld hbusy, exec_declareLost hheld hbusy]
    exact ⟨fun h => congrArg _ (declareLock_enters h), fun h => congrArg _ (declareLock_stays h), fun h => congrArg _ (declareLost_enters h),
      fun h => congrArg _ (declareLost_stays h)⟩
  case heartbeat =>
    intro s hheld hbusy
    rw [exec_timeHeartbeat hheld hbusy]
    exact ⟨fun h => congrArg _ (heartbeat_locked h), fun h => congrArg _ (heartbeat_holdover h), fun h => congrArg _ (heartbeat_lost h),
      fun h => congrArg _ (heartbeat_stays h)⟩
  case holdWindow =>
    intro s hst
    rw [exec_holdWindowExpiry hst]
    exact ⟨holdWindowEnds_holdover, holdWindowEnds_lost, holdWindowEnds_heartbeat⟩
  case holdover =>
    intro s hst
    rw [exec_holdoverExpiry hst]
    exact ⟨fun hquiet => congrArg _ (holdoverEnds_lost hquiet), fun hbeat => congrArg _ (holdoverEnds_heartbeat hbeat)⟩

end Sys2Proof.ClockRows
end

section
/-! PROOFS. O6: latching reads, fibre asymmetry and the time messages (chapter 3, R109, R139–R161, R171). -/
namespace Sys2Proof.TimeMessages
open Sys2Proof Sys2Proof.Machine

/-! ### Reads that latch (R109, R140, R171) -/

theorem exec_timeNowRead {s : State} (hbusy : s.pageBusy pgTime = false) (wide : Bool) :
    exec (.timeNowRead wide) s = .next (s.latchNow.emit (.readData Reg.TIME_NOW (s.nowReg % (if wide then 2 ^ 64 else 2 ^ 32)))) :=
  if_neg (Bool.eq_false_iff.1 hbusy)

theorem exec_timeTxqEntryRead {s : State} (hbusy : s.pageBusy pgTime = false) :
    exec .timeTxqEntryRead s = .next (s.popStamp.2.emit (.readData (Reg.TIME_TXQ_ENTRY + 12) s.popStamp.1)) :=
  if_neg (Bool.eq_false_iff.1 hbusy)

theorem exec_tpiCaptRead {s : State} (hbusy : s.pageBusy (pg 3 2) = false) (k : Nat) :
    exec (.tpiCaptRead k) s = .next ((s.latchCapt k).emit (.readData (Reg.TPI_CAPT k) (s.rdWide (Reg.TPI_CAPT k) 3 % 2 ^ 32))) :=
  if_neg (Bool.eq_false_iff.1 hbusy)

/-! ### Fibre asymmetry: the spine that calibrates (R157–R160) -/

theorem start_role (s : State) (h : CmdHdr) (op p : Nat) : (s.start h op).role p = s.role p := by simp [State.role]

/-- CAL_START sent with W 100 µs ahead, the calibration noted and the hairpin begun. -/
def calStarted (a : State) (h : CmdHdr) (x y : Nat) : State :=
  let w := a.time.now + 100000 * 2 ^ 32
  let v := a.sendTime (2 * h.target) (a.timePayload kCalStart 0 0 w 0 (w + 20000 * 2 ^ 32)) none
  (v.setCal (v.time.cal ++ [⟨h.target, h, w, x, y, false⟩])).hairpin h.target true

/-- ASYM_CAL, once begun, on a port in use: the state it leaves, and how it completes unless it goes on. -/
def asymCalOn (h : CmdHdr) (u d : Nat) (a : State) : State × Option Cmpl :=
  if a.carriesTraffic h.target ∨ (a.calOf h.target).isSome then fail a 0x0100
  else match a.fibreLengths h.target u d with
    | none => fail a 0x0102
    | some (x, y) => (calStarted a h x y, none)

section
variable {a : State} {h : CmdHdr} {u d : Nat}

theorem asymCalOn_busy (hbusy : a.carriesTraffic h.target = true ∨ (a.calOf h.target).isSome = true) : asymCalOn h u d a = fail a 0x0100 :=
  if_pos hbusy

theorem asymCalOn_noLength (htraffic : a.carriesTraffic h.target = false) (hcal : a.calOf h.target = none)
    (hlen : a.fibreLengths h.target u d = none) : asymCalOn h u d a = fail a 0x0102 := by
  simp [asymCalOn, htraffic, hcal, hlen]

theorem asymCalOn_starts {x y : Nat} (htraffic : a.carriesTraffic h.target = false) (hcal : a.calOf h.target = none)
    (hlen : a.fibreLengths h.target u d = some (x, y)) : asymCalOn h u d a = (calStarted a h x y, none) := by
  simp [asymCalOn, htraffic, hcal, hlen]
end

/-- A command that takes effect completes with what its body answers. -/
theorem runCmd_completes {s t : State} {h : CmdHdr} {op : Nat} {oper : Bool} {body : State → State × Option Cmpl} {c : Cmpl}
    (htakes : s.takes h op oper = true) (hbody : body (s.start h op) = (t, some c)) : s.runCmd h op oper body = t.complete h (op / 256) c := by
  rw [State.runCmd_takes _ htakes, hbody]

/-- A command whose body answers nothing goes on. -/
theorem runCmd_goesOn {s t : State} {h : CmdHdr} {op : Nat} {oper : Bool} {body : State → State × Option Cmpl}
    (htakes : s.takes h op oper = true) (hbody : body (s.start h op) = (t, none)) : s.runCmd h op oper body = t := by
  rw [State.runCmd_takes _ htakes, hbody]

theorem asymCal_onPort {s : State} {h : CmdHdr} {op : Nat} (hport : h.target < 512) (hrole : s.role h.target ≠ 0) :
    ¬(512 ≤ h.target ∨ (s.start h op).role h.target = 0) := by
  rw [start_role]
  omega

section
variable {s : State} {h : CmdHdr} (htakes : s.takes h 0x0301 true = true) (hport : h.target < 512) (hrole : s.role h.target ≠ 0) {u d : Nat} {t : State}
include htakes hport hrole

theorem exec_asymCal_completes {c : Cmpl} (hend : asymCalOn h u d (s.start h 0x0301) = (t, some c)) :
    exec (.asymCal h u d) s = .next (t.complete h 3 c) :=
  congrArg Host.Outcome.next (runCmd_completes htakes ((if_neg (asymCal_onPort hport hrole)).trans hend))

theorem exec_asymCal_goesOn (hon : asymCalOn h u d (s.start h 0x0301) = (t, none)) : exec (.asymCal h u d) s = .next t :=
  congrArg Host.Outcome.next (runCmd_goesOn htakes ((if_neg (asymCal_onPort hport hrole)).trans hon))
end

section
variable {s : State} {p : Nat} {c : CalSt} {rest : List CalSt} (hcal : s.calOf p = some (c, rest))
include hcal

theorem exec_calWindowEnd (hrel : c.released = false) : exec (.calWindowEnd p) s =
    .next (((s.elapseToDev (c.w + 20000 * 2 ^ 32)).setCal (rest ++ [{ c with released := true }])).hairpin p false) := by
  show execCalWindowEnd p s = _
  simp [execCalWindowEnd, hcal, hrel]

theorem exec_calReportTimeout (hrel : c.released = true) : exec (.calReportTimeout p) s =
    .next (((s.elapseToDev (c.w + 20000 * 2 ^ 32 + 1000000 * 2 ^ 32)).setCal rest).complete c.hdr 3 ⟨0x0101, 0, 0, []⟩) := by
  show execCalReportTimeout p s = _
  simp [execCalReportTimeout, hcal, hrel]
end

/-! ### Fibre asymmetry: the far end of the loop (R161) -/

section
variable {s : State} {p : Nat} {c : CalFar} (hfar : Tbl.find s.time.calFar p = some c)
include hfar

theorem exec_calBurst (m : Nat) :
    let at_ := c.w / 65536 + min m (10000 * 65536)
    let u := s.elapseToDev (at_ * 65536)
    let v : State := { u with time := { u.time with calFar := Tbl.put u.time.calFar p { c with sentAt := some at_ } } }
    exec (.calBurst p m) s = .next (v.emit (.calBurst p ((v.stampReed (2 * p)).getD 0) at_)) := by
  show execCalBurst p m s = _
  unfold execCalBurst
  rw [hfar]

theorem exec_calBurstReturn (st : Nat) (hsent : c.sentAt.isSome = true) : exec (.calBurstReturn p st) s =
    .next { s with time := { s.time with calFar := Tbl.put s.time.calFar p { c with backAt := some st } } } := by
  show execCalBurstReturn p st s = _
  unfold execCalBurstReturn
  rw [hfar]
  exact if_pos hsent

theorem exec_calLoopEnd {a b : Nat} (hsent : c.sentAt = some a) (hback : c.backAt = some b) :
    let u := s.elapseToDev (c.w + 70000 * 2 ^ 32)
    let v := u.sendTime (2 * p) (u.timePayload kCalReport 0 0 ((b - a) / 65536 * 2 ^ 32) ((b - a) % 65536) 0) none
    let restart := fun (s : State) (lp : Nat) =>
      s.setLink lp { s.link lp with replay := (s.link lp).replay.map fun r => { r with sentAt := s.time.ticks } }
    exec (.calLoopEnd p) s = .next (restart (restart ({ v with time := { v.time with calFar := Tbl.del v.time.calFar p } } : State) (2 * p)) (2 * p + 1)) := by
  show execCalLoopEnd p s = _
  unfold execCalLoopEnd
  rw [hfar]
  simp only [hsent, hback]
end

/-! ### Messages received (R139, R143, R146) -/

section
variable {s : State} {rx : TimeRx} (hen : s.timeEn rx.port = true)
include hen

/-- A message of IEEE 1588 on the management port is delivered and acted on. -/
theorem timeMessage_1588 (hport : rx.port = 0x7FF) (h1588 : rx.is1588 = true) (act : State → State) :
    s.timeMessage rx act = (s.emit (.timeToFw rx.port rx.stamp rx.payload)).ptpSeen rx := by
  unfold State.timeMessage
  rw [hen, if_neg (by decide), if_pos ⟨hport, h1588⟩]

variable (hfabric : ¬(rx.port = 0x7FF ∧ rx.is1588 = true)) (act : State → State)
include hfabric

theorem timeMessage_dropped (hok : s.timeMsgOk rx.payload = false) :
    s.timeMessage rx act = s.addFld Reg.TIME_MSG_DROP Fld.TIME_MSG_DROP_COUNT 1 := by
  unfold State.timeMessage
  rw [hen, hok, if_neg (by decide), if_neg hfabric, if_pos (by decide)]

theorem timeMessage_acts (hok : s.timeMsgOk rx.payload = true) :
    s.timeMessage rx act = act (s.emit (.timeToFw rx.port rx.stamp rx.payload)) := by
  unfold State.timeMessage
  rw [hen, hok, if_neg (by decide), if_neg hfabric, if_neg (by decide)]
end

/-- What the device does with a message of its own format that firmware has been given, by its KIND. -/
def timeAct (rx : TimeRx) (u : State) : State :=
  let k := beAt 0 1 rx.payload
  if k = kSync then (u.syncSeen rx.port (beAt 3 1 rx.payload) (bit 3 (beAt 1 1 rx.payload))).timeReply rx
  else if k = kCalStart then u.calStart (lp2p rx.port) rx.payload
  else if k = kCalReport then u.calReport (lp2p rx.port) rx.payload
  else u.timeReply rx

theorem exec_timeMessageRx (s : State) (rx : TimeRx) : exec (.timeMessageRx rx) s = .next (s.timeMessage rx (timeAct rx)) := rfl

section
variable {rx : TimeRx} (u : State)

theorem timeAct_sync (hk : beAt 0 1 rx.payload = kSync) :
    timeAct rx u = (u.syncSeen rx.port (beAt 3 1 rx.payload) (bit 3 (beAt 1 1 rx.payload))).timeReply rx := if_pos hk

theorem timeAct_calStart (hk : beAt 0 1 rx.payload = kCalStart) : timeAct rx u = u.calStart (lp2p rx.port) rx.payload :=
  (if_neg (by rw [hk]; decide)).trans (if_pos hk)

theorem timeAct_calReport (hk : beAt 0 1 rx.payload = kCalReport) : timeAct rx u = u.calReport (lp2p rx.port) rx.payload :=
  (if_neg (by rw [hk]; decide)).trans ((if_neg (by rw [hk]; decide)).trans (if_pos hk))

theorem timeAct_other (hsync : beAt 0 1 rx.payload ≠ kSync) (hstart : beAt 0 1 rx.payload ≠ kCalStart) (hreport : beAt 0 1 rx.payload ≠ kCalReport) :
    timeAct rx u = u.timeReply rx :=
  (if_neg hsync).trans ((if_neg hstart).trans (if_neg hreport))
end

section
variable {s : State} {rx : TimeRx} (hen : s.timeEn rx.port = true) (hfabric : ¬(rx.port = 0x7FF ∧ rx.is1588 = true))
  (hok : s.timeMsgOk rx.payload = true)
include hen hfabric hok

theorem exec_timeMessageRx_acts : exec (.timeMessageRx rx) s = .next (timeAct rx (s.emit (.timeToFw rx.port rx.stamp rx.payload))) :=
  congrArg Host.Outcome.next (timeMessage_acts hen hfabric _ hok)

theorem exec_calReportRx (hk : beAt 0 1 rx.payload = kCalReport) :
    exec (.calReportRx rx) s = .next ((s.emit (.timeToFw rx.port rx.stamp rx.payload)).calReport (lp2p rx.port) rx.payload) :=
  congrArg Host.Outcome.next ((timeMessage_acts hen hfabric _ hok).trans (if_pos hk))

theorem exec_calStartRx (hk : beAt 0 1 rx.payload = kCalStart) :
    exec (.calStartRx rx) s = .next ((s.emit (.timeToFw rx.port rx.stamp rx.payload)).calStart (lp2p rx.port) rx.payload) :=
  congrArg Host.Outcome.next ((timeMessage_acts hen hfabric _ hok).trans (if_pos hk))
end

/-! ### Messages sent (R143–R145, R148, R150) -/

section
variable {s : State} (hdomain : s.domainOk = true) (id : Option Nat)
include hdomain

/-- A grandmaster or plane time master sends Sync on a fabric port. -/
theorem exec_syncTx {port : Nat} (hport : port ≠ 0x7FF) (hen : s.flag (Reg.PT_TS_CFG (lpTile port) (lpPort port)) Fld.PT_TS_CFG_TIME_EN = true)
    (hup : (s.link port).st.isUp = true) (hrole : s.fabricRole = 1 ∨ s.fabricRole = 2)
    (hout : s.flag (Reg.PT_TS_CFG (lpTile port) (lpPort port)) Fld.PT_TS_CFG_SYNC_OUT = true) :
    let x := (s.paced port 0 s.logSync).nextSeq port 0
    exec (.syncTx port id) s = .next (x.2.sendTime port (x.2.timePayload kSync
      (b2n (!x.2.flag (Reg.PT_TS_CFG (lpTile port) (lpPort port)) Fld.PT_TS_CFG_ONE_STEP) + stateFlags x.2.timeState) x.1 x.2.time.now 0 0) id) := by
  have hsends : ((s.fabricRole == 1 || s.fabricRole == 2) && s.flag (Reg.PT_TS_CFG (lpTile port) (lpPort port)) Fld.PT_TS_CFG_TIME_EN &&
      s.flag (Reg.PT_TS_CFG (lpTile port) (lpPort port)) Fld.PT_TS_CFG_SYNC_OUT && (s.link port).st.isUp) = true := by
    simp [hrole, hen, hout, hup]
  show execSyncTx port id s = _
  unfold execSyncTx
  rw [hdomain, if_neg (by decide), if_neg hport, if_pos hsends]

theorem exec_pdelayReqTx {port : Nat} (hport : port ≠ 0x7FF)
    (hen : s.flag (Reg.PT_TS_CFG (lpTile port) (lpPort port)) Fld.PT_TS_CFG_TIME_EN = true) (hup : (s.link port).st.isUp = true)
    (hdelay : s.flag (Reg.PT_TS_CFG (lpTile port) (lpPort port)) Fld.PT_TS_CFG_PDELAY = true) :
    let x := (s.paced port 2 s.logPdelay).nextSeq port 2
    exec (.pdelayReqTx port id) s = .next (x.2.sendTime port (x.2.timePayload kPdelayReq (stateFlags x.2.timeState) x.1 x.2.time.now 0 0) id) := by
  show execPdelayReqTx port id s = _
  unfold execPdelayReqTx
  rw [hdomain, if_neg (by decide), if_neg hport]
  dsimp only
  rw [hen, hdelay, hup, if_pos (by decide)]

theorem exec_syncTx_mgmt (hrole : s.fabricRole = 2) :
    let x := (s.paced 0x7FF 0 s.logSync).nextSeq 0x7FF 0
    exec (.syncTx 0x7FF id) s = .next (x.2.ptpSend 0 x.1 x.2.short 0 id) := by
  show execSyncTx 0x7FF id s = _
  unfold execSyncTx
  rw [hdomain, if_neg (by decide), if_pos rfl, if_pos hrole]

theorem exec_pdelayReqTx_mgmt (hdelay : s.fld Reg.TIME_ROLE Fld.TIME_ROLE_MGMT_DELAY = 1) :
    let x := (s.paced 0x7FF 2 s.logPdelay).nextSeq 0x7FF 2
    exec (.pdelayReqTx 0x7FF id) s = .next (x.2.ptpSend 2 x.1 x.2.short 0 id) := by
  show execPdelayReqTx 0x7FF id s = _
  unfold execPdelayReqTx
  rw [hdomain, if_neg (by decide), if_pos rfl, if_pos hdelay]

theorem exec_announceTx (hrole : s.fabricRole = 2) :
    let x := s.nextSeq 0x7FF 11
    exec .announceTx s = .next (x.2.ptpSend 11 x.1 x.2.short 0 none) :=
  if_pos ⟨hrole, hdomain⟩
end

/-! ### The source in use falls silent (R153, R154) -/

/-- The source of a port is missing: it is noted, and the next valid one is taken. -/
def sourceMissing (port : Nat) (u : State) : State :=
  ({ u with time := { u.time with srcLost := Tbl.set u.time.srcLost false port true } } : State).switchSource

section
variable {s : State} (huses : s.usesSources = true)
include huses

theorem exec_sourceSwitch_never (hat : Tbl.getD s.time.srcAt 0 (s.srcField s.activeSrc % 2048) = 0) :
    exec .sourceSwitch s = .next (sourceMissing (s.srcField s.activeSrc % 2048) s) := by
  show execSourceSwitch s = _
  unfold execSourceSwitch sourceMissing
  rw [if_pos huses]
  simp only [hat]

theorem exec_sourceSwitch {t : Nat} (hat : Tbl.getD s.time.srcAt 0 (s.srcField s.activeSrc % 2048) = t + 1) : exec .sourceSwitch s =
    .next (sourceMissing (s.srcField s.activeSrc % 2048) (s.elapseToTick (t + usTicks (s.rd Reg.TIME_HOLD_WIN).toNat))) := by
  show execSourceSwitch s = _
  unfold execSourceSwitch sourceMissing
  rw [if_pos huses]
  simp only [hat]
end

/-- Settles O6, row by row: each row's own equation, and for a time message what its KIND makes of it once it is delivered. -/
theorem timeMessagesComplete : Obligations.TimeMessagesComplete := by
  unfold Obligations.TimeMessagesComplete
  refine ⟨fun s wide hbusy => exec_timeNowRead hbusy wide, fun s => exec_timeTxqEntryRead, fun s k hbusy => exec_tpiCaptRead hbusy k, ?asymCal,
    fun s p c rest => exec_calWindowEnd, fun s p c rest => exec_calReportTimeout, fun s p m c hfar => exec_calBurst hfar m,
    fun s p st c hfar => exec_calBurstReturn hfar st, fun s p a b c hfar => exec_calLoopEnd hfar, ?rx1588, ?rxFabric, ?txFabric, ?txMgmt, ?sources⟩
  case asymCal =>
    intro s h u d htakes hport hrole
    exact ⟨fun hbusy => exec_asymCal_completes htakes hport hrole (asymCalOn_busy hbusy),
      fun htraffic hcal hlen => exec_asymCal_completes htakes hport hrole (asymCalOn_noLength htraffic hcal hlen),
      fun x y htraffic hcal hlen => exec_asymCal_goesOn htakes hport hrole (asymCalOn_starts htraffic hcal hlen)⟩
  case rx1588 =>
    exact fun s rx hen hport h1588 => (exec_timeMessageRx s rx).trans (congrArg _ (timeMessage_1588 hen hport h1588 _))
  case rxFabric =>
    intro s rx hen hfabric
    refine ⟨fun hbad => ?_, fun hok hk => ?_, fun hok hk => ⟨?_, ?_⟩, fun hok hk => ⟨?_, ?_⟩, fun hok hsync hstart hreport => ?_⟩
    · rw [exec_timeMessageRx, timeMessage_dropped hen hfabric _ hbad]
    · rw [exec_timeMessageRx_acts hen hfabric hok, timeAct_sync _ hk]
    · exact exec_calReportRx hen hfabric hok hk
    · rw [exec_timeMessageRx_acts hen hfabric hok, timeAct_calReport _ hk]
    · exact exec_calStartRx hen hfabric hok hk
    · rw [exec_timeMessageRx_acts hen hfabric hok, timeAct_calStart _ hk]
    · rw [exec_timeMessageRx_acts hen hfabric hok, timeAct_other _ hsync hstart hreport]
  case txFabric =>
    exact fun s port id hdomain hport hen hup => ⟨exec_syncTx hdomain id hport hen hup, exec_pdelayReqTx hdomain id hport hen hup⟩
  case txMgmt =>
    exact fun s id hdomain => ⟨exec_syncTx_mgmt hdomain id, exec_pdelayReqTx_mgmt hdomain id, exec_announceTx hdomain⟩
  case sources => exact fun s huses => ⟨exec_sourceSwitch_never huses, fun t => exec_sourceSwitch huses⟩

end Sys2Proof.TimeMessages
end

section
/-! PROOFS. O7: pulse outputs and capture inputs (chapter 3, R152, R162–R170). -/
namespace Sys2Proof.PulsePins
open Sys2Proof Sys2Proof.Machine Sys2Proof.HostPort

/-! ### Pulse outputs (R162–R167) -/

theorem exec_tpoEnable {s : State} (hheld : s.pwr.held = false) (hbusy : s.pageBusy (pg 3 1) = false) (k : Nat) :
    exec (.tpoEnable k) s = .next (s.tpoCtrlWrite k (withBits 31 31 1 (withBits 27 27 0 (s.rd (Reg.TPO_CTRL k)).toNat))) :=
  congrArg Host.Outcome.next (onPage_free hheld hbusy _)

/-- What edge n of output k, of device time t, does in u, where that time has come. -/
def tpoEdgeAt (k n t : Nat) (u : State) : Result :=
  if u.flag (Reg.TPO_CTRL k) Fld.TPO_CTRL_SQUELCH_ON_LOST && u.time.unlocked then .next (u.setTpo k { u.tpo k with next := n + 1 })
  else
    let v := u.setTpo k ⟨n + 1, some (u.time.ticks + u.fld (Reg.TPO_WIDTH k) ⟨15, 0⟩, u.time.now - t)⟩
    .next (v.emit (.pulse k (!v.flag (Reg.TPO_CTRL k) Fld.TPO_CTRL_POLARITY) t))

/-- An enabled output that is periodic, or whose single edge is not past, makes its next edge when its time comes. -/
theorem exec_tpoEdge {s : State} {k : Nat} (hen : s.flag (Reg.TPO_CTRL k) Fld.TPO_CTRL_ENABLE = true)
    (hleft : s.flag (Reg.TPO_CTRL k) Fld.TPO_CTRL_PERIODIC = true ∨ (s.tpoNext k = 0 ∧ s.time.now ≤ s.tpoTime k 0)) :
    exec (.tpoEdge k) s = tpoEdgeAt k (s.tpoNext k) (s.tpoTime k (s.tpoNext k)) (s.elapseToDev (s.tpoTime k (s.tpoNext k))) := by
  have hpast : (!s.flag (Reg.TPO_CTRL k) Fld.TPO_CTRL_PERIODIC &&
      (decide (0 < s.tpoNext k) || decide (s.tpoTime k (s.tpoNext k) < s.time.now))) = false := by
    rcases hleft with hper | ⟨hnext, hnow⟩
    · simp [hper]
    · simp [hnext, Nat.not_lt.2 hnow]
  refine if_neg ?_
  rw [hen, hpast]
  decide

theorem tpoEdgeAt_made {k n t : Nat} {u : State}
    (h : (u.flag (Reg.TPO_CTRL k) Fld.TPO_CTRL_SQUELCH_ON_LOST && u.time.unlocked) = false) :
    tpoEdgeAt k n t u = .next ((u.setTpo k ⟨n + 1, some (u.time.ticks + u.fld (Reg.TPO_WIDTH k) ⟨15, 0⟩, u.time.now - t)⟩).emit
      (.pulse k (!u.flag (Reg.TPO_CTRL k) Fld.TPO_CTRL_POLARITY) t)) :=
  if_neg (Bool.eq_false_iff.1 h)

theorem tpoEdgeAt_squelched {k n t : Nat} {u : State}
    (h : (u.flag (Reg.TPO_CTRL k) Fld.TPO_CTRL_SQUELCH_ON_LOST && u.time.unlocked) = true) :
    tpoEdgeAt k n t u = .next (u.setTpo k { u.tpo k with next := n + 1 }) :=
  if_pos h

theorem exec_tpoPulseEnd {s : State} {k t lead : Nat} (h : (s.tpo k).highUntil = some (t, lead)) :
    let u := s.elapseToTick t
    let v := u.setTpo k { u.tpo k with highUntil := none }
    exec (.tpoPulseEnd k) s = .next (v.emit (.pulse k (v.flag (Reg.TPO_CTRL k) Fld.TPO_CTRL_POLARITY) (v.time.now - lead))) := by
  show execTpoPulseEnd k s = _
  unfold execTpoPulseEnd
  rw [h]

/-! ### Capture inputs (R168–R170, R152) -/

/-- Input k has become active, with the edge 20 ns ago. -/
def tpiRaised (k : Nat) (u : State) : State := u.setTpi k { u.tpi k with active := true, since := u.time.ticks - nsTicks 20 }

/-- Is input k enabled and not stuck? -/
def tpiOpen (k : Nat) (v : State) : Bool := v.flag (Reg.TPI_CTRL k) Fld.TPI_CTRL_ENABLE && !v.flag (Reg.TPI_STATUS k) Fld.TPI_STATUS_STUCK

/-- The time of an edge of input k less the cable delay, in 2^-16 ns. -/
def tpiTime (k edge : Nat) (v : State) : Nat := edge - v.fld (Reg.TPI_CTRL k) Fld.TPI_CTRL_CABLE_DELAY * 65536 / 1000

/-- Is an edge of input k that makes it active in u ignored: within 100 µs of the last event, or too far from a second that it marks? -/
def tpiQuiet (k edge : Nat) (u : State) : Bool :=
  (match (u.tpi k).lastEvent with | some e => decide ((tpiRaised k u).time.ticks < e + usTicks 100) | none => false) ||
    (tpiRaised k u).farFromSecond k (tpiTime k edge (tpiRaised k u) * 65536)

/-- The capture of time x (2^-16 ns) at input k; an input that marks seconds brings the second onto it. -/
def tpiCaptured (k x : Nat) (v : State) : State :=
  let w := v.setTpi k { v.tpi k with lastEvent := some v.time.ticks }
  let c := ((w.wrWide (Reg.TPI_CAPT k) (stampForm (x * 65536)) 3).setFld (Reg.TPI_STATUS k) Fld.TPI_STATUS_CAPTURED 1).irq (pg 3 2) (2 + k)
  if c.marksSecond k then c.alignSecond (x * 65536) else c

/-- What a level of input k held for 20 ns does in u, where that time has passed. -/
def tpiLevelHeld (k : Nat) (level : Bool) (edge : Nat) (u : State) : Result :=
  if (u.tpi k).active = (level != u.flag (Reg.TPI_CTRL k) Fld.TPI_CTRL_POLARITY) then .next u
  else if !(level != u.flag (Reg.TPI_CTRL k) Fld.TPI_CTRL_POLARITY) then
    .next ((u.setTpi k { u.tpi k with active := false }).setFld (Reg.TPI_STATUS k) Fld.TPI_STATUS_STUCK 0)
  else if !(tpiRaised k u).flag (Reg.TPI_CTRL k) Fld.TPI_CTRL_ENABLE || (tpiRaised k u).flag (Reg.TPI_STATUS k) Fld.TPI_STATUS_STUCK then
    .next (tpiRaised k u)
  else if tpiQuiet k edge u then .next ((tpiRaised k u).addFld (Reg.TPI_STATUS k) Fld.TPI_STATUS_IGNORED 1)
  else .next (tpiCaptured k (tpiTime k edge (tpiRaised k u)) (tpiRaised k u))

theorem exec_tpiEdge (s : State) (k edge : Nat) (level : Bool) :
    exec (.tpiEdge k level edge) s = tpiLevelHeld k level edge (s.elapseToDev (edge * 65536 + 20 * 2 ^ 32)) := by
  show execTpiEdge k level edge s = _
  unfold execTpiEdge
  generalize s.elapseToDev (edge * 65536 + 20 * 2 ^ 32) = u
  rfl

section
variable {k edge : Nat} {level : Bool} {u : State}

theorem tpiLevelHeld_same (h : (u.tpi k).active = (level != u.flag (Reg.TPI_CTRL k) Fld.TPI_CTRL_POLARITY)) :
    tpiLevelHeld k level edge u = .next u := if_pos h

theorem tpiLevelHeld_fall (hact : (level != u.flag (Reg.TPI_CTRL k) Fld.TPI_CTRL_POLARITY) = false) (hwas : (u.tpi k).active = true) :
    tpiLevelHeld k level edge u = .next ((u.setTpi k { u.tpi k with active := false }).setFld (Reg.TPI_STATUS k) Fld.TPI_STATUS_STUCK 0) := by
  unfold tpiLevelHeld
  rw [hact, if_neg (by simp [hwas])]
  rfl

/-- A rise on an open input is ignored and counted, or captured. -/
theorem tpiLevelHeld_rise (hact : (level != u.flag (Reg.TPI_CTRL k) Fld.TPI_CTRL_POLARITY) = true) (hwas : (u.tpi k).active = false)
    (hopen : tpiOpen k (tpiRaised k u) = true) :
    tpiLevelHeld k level edge u = if tpiQuiet k edge u then .next ((tpiRaised k u).addFld (Reg.TPI_STATUS k) Fld.TPI_STATUS_IGNORED 1)
      else .next (tpiCaptured k (tpiTime k edge (tpiRaised k u)) (tpiRaised k u)) := by
  simp only [tpiOpen, Bool.and_eq_true, Bool.not_eq_true'] at hopen
  obtain ⟨hen, hstuck⟩ := hopen
  unfold tpiLevelHeld
  rw [hact, if_neg (by simp [hwas]), hen, hstuck]
  rfl
end

theorem exec_tpiStuck {s : State} {k : Nat} (hact : (s.tpi k).active = true) (hen : s.flag (Reg.TPI_CTRL k) Fld.TPI_CTRL_ENABLE = true)
    (hstuck : s.flag (Reg.TPI_STATUS k) Fld.TPI_STATUS_STUCK = false) :
    exec (.tpiStuck k) s = .next ((((s.elapseToTick ((s.tpi k).since + usTicks 10000)).setFld (Reg.TPI_STATUS k) Fld.TPI_STATUS_STUCK 1).irq
      (pg 3 2) (6 + k)).logErr (pg 3 2) 0x0102 0 (locBlock 3)) :=
  if_pos (by rw [hact, hen, hstuck]; rfl)

/-- Settles O7: each row passes its time, and what it does then is the case that the state at that time names. -/
theorem pulsePinsComplete : Obligations.PulsePinsComplete := by
  unfold Obligations.PulsePinsComplete
  refine ⟨fun s k hheld hbusy => exec_tpoEnable hheld hbusy k, ?edge, fun s k t lead => exec_tpoPulseEnd, ?level, fun s k => exec_tpiStuck⟩
  case edge =>
    intro s k hen hleft
    rw [exec_tpoEdge hen hleft]
    exact ⟨tpoEdgeAt_made, tpoEdgeAt_squelched⟩
  case level =>
    intro s k edge level
    rw [exec_tpiEdge]
    generalize s.elapseToDev (edge * 65536 + 20 * 2 ^ 32) = u
    refine ⟨tpiLevelHeld_same, tpiLevelHeld_fall, fun hact hwas hopen hquiet => ?_, fun hact hwas hopen hquiet => ?_⟩
    · exact (tpiLevelHeld_rise hact hwas hopen).trans (if_pos hquiet)
    · exact (tpiLevelHeld_rise hact hwas hopen).trans (if_neg (Bool.eq_false_iff.1 hquiet))

end Sys2Proof.PulsePins
end

section
/-! PROOFS. O53: the counters of R281: adding, clearing by page, and a read of the low word (R61). -/
namespace Sys2Proof.Counters
open Sys2Proof Sys2Proof.Machine

/-! ### What a counter reads as after one is changed -/

/-- What a table in order reads as once the keys that p refuses are dropped. -/
theorem find_filter_key {α : Type} {t : Tbl α} (ht : rising t = true) (p : Nat → Bool) (k : Nat) :
    Tbl.find (t.filter fun e => p e.1) k = if p k then Tbl.find t k else none := by
  induction t with
  | nil => simp [Tbl.find]
  | cons e t ih =>
    obtain ⟨hlt, ht⟩ := rising_cons.1 ht
    rcases Nat.lt_trichotomy e.1 k with hek | rfl | hke
    · have hne : e.1 ≠ k := by omega
      have hnlt : ¬k < e.1 := by omega
      by_cases hp : p e.1 = true <;> simp [hp, Tbl.find, hne, hnlt, ih ht]
    · by_cases hp : p e.1 = true
      · simp [hp, Tbl.find]
      · have hgone : Tbl.find (t.filter fun e => p e.1) e.1 = none := find_none_of_lt fun x hx => hlt x (List.mem_filter.1 hx).1
        simp [hp, hgone]
    · have hall : ∀ x ∈ e :: t, k < x.1 := List.forall_mem_cons.2 ⟨hke, fun x hx => Nat.lt_trans hke (hlt x hx)⟩
      rw [find_none_of_lt hall, find_none_of_lt fun x hx => hall x (List.mem_filter.1 hx).1, ite_self]

section
variable {s : State} (hs : s.Inv)
include hs

theorem cnts_rising : rising s.cnts = true := (wf_iff.1 (countersWf_iff.1 hs.2.1).1).1

theorem cnt_addCnt (a n b : Nat) : (s.addCnt a n).cnt b = if b = a then min (s.cnt a + n) 0xFFFFFFFFFFFF else s.cnt b :=
  getD_set (cnts_rising hs) 0 _ a b

theorem cnt_clearCnts (p b : Nat) : (s.clearCnts p).cnt b = if b / 4096 = p then 0 else s.cnt b := by
  have hfind := find_filter_key (cnts_rising hs) (fun k => k / 4096 != p) b
  simp only [State.cnt, State.clearCnts, Tbl.getD, hfind]
  by_cases h : b / 4096 = p <;> simp [h]

/-- A counter taken out of the table reads as zero, and every other as before. -/
theorem getD_del_cnts (a b : Nat) : Tbl.getD (Tbl.del s.cnts a) 0 b = if b = a then 0 else s.cnt b := by
  unfold Tbl.getD
  split
  case isTrue h => rw [h, find_del_same (cnts_rising hs)]; rfl
  case isFalse h => rw [find_del_other (cnts_rising hs) h]; rfl
end

/-! ### A read of a counter's low word (R61, R281) -/

/-- s once the low word of the counter at a has been read: the counter is cleared and its high word kept for the next read of it. -/
def counterTaken (a : Nat) (s : State) : State :=
  { s with
    cnts := Tbl.del s.cnts a
    host := { s.host with latch := Tbl.put s.host.latch (a + 4) (BitVec.ofNat 32 (s.wordNow (a + 4))) } }

/-- The word at an address of a counter, in a page that is in no reset. -/
theorem wordNow_of_counterAt {s : State} {b c : Nat} (hin : inBlocks b = true) (hbusy : s.pageBusy (b / 4096) = false) (hat : counterAt b = some c) :
    s.wordNow b = if b = c then s.cnt c % 2 ^ 32 else s.cnt c / 2 ^ 32 := by
  simp only [inBlocks, Bool.and_eq_true, decide_eq_true_eq] at hin
  have hwin : inWindows b = false := by simp [inWindows]; omega
  have hven : inVendor b = false := by simp [inVendor]; omega
  simp [State.wordNow, hwin, hven, hbusy, hat]

/-- The word after a counter's low word shows its high bits, in the same page. -/
theorem wordNow_high {s : State} {a : Nat} (hin : inBlocks a = true) (hbusy : s.pageBusy (a / 4096) = false) (h8 : a % 8 = 0)
    (hhigh : counterAt (a + 4) = some a) : s.wordNow (a + 4) = s.cnt a / 2 ^ 32 := by
  have hin' : inBlocks (a + 4) = true := by simp [inBlocks] at hin ⊢; omega
  have hpage : (a + 4) / 4096 = a / 4096 := by omega
  exact (wordNow_of_counterAt hin' (hpage ▸ hbusy) hhigh).trans (if_neg (by omega))

section
variable {s : State} {a : Nat} (hin : inBlocks a = true) (hat : counterAt a = some a)
include hin hat

theorem lowOfWide_of_counterAt : lowOfWide a = true := by
  have hwin : inWindows a = false := by simp [inBlocks, inWindows] at hin ⊢; omega
  simp [lowOfWide, hwin, hin, hat]

variable (hbusy : s.pageBusy (a / 4096) = false)
include hbusy

theorem readEffect_of_counterAt : s.readEffect a = { s with cnts := Tbl.del s.cnts a } := by
  simp [State.readEffect, hin, hbusy, hat]

theorem wordRead_of_counterAt (hlatch : Tbl.find s.host.latch a = none) (htxq : a ≠ Reg.TIME_TXQ_ENTRY + 12) (hnow : a ≠ Reg.TIME_NOW)
    (hreg : regAt a = none) : s.wordRead a = (s.cnt a % 2 ^ 32, counterTaken a s) := by
  have hdisc : s.discards a = false := by simp [State.discards, hbusy]
  have hword := (wordNow_of_counterAt hin hbusy hat).trans (if_pos rfl)
  simp [State.wordRead, hdisc, hlatch, htxq, hnow, hreg, hword, readEffect_of_counterAt hin hat hbusy, lowOfWide_of_counterAt hin hat, counterTaken]
end

/-- A 4-byte read that a requester may make, of an aligned address in an implemented page, answers the word there. -/
theorem exec_rcFieldRead_word {s : State} {a : Nat} {who : Requester} (hheld : s.pwr.held = false) (hwho : reaches who a = true)
    (hin : inBlocks a = true) (himpl : pageImplemented (a / 4096) = true) (h4 : a % 4 = 0) :
    exec (.rcFieldRead a 4 who) s = .next ((s.wordRead a).2.emit (.readData a (s.wordRead a).1)) := by
  have hal : misaligned a 4 = false := by simp [misaligned, h4]
  have hmap : s.mapped a = true := by simp [State.mapped, hin, himpl]
  show execRcFieldRead a 4 who s = _
  simp [execRcFieldRead, State.hostRead, State.readAcc, hwho, hheld, hal, hmap]

/-- Settles O53: the three clauses are the laws of the counters' table, and for a read that a counter's low word is taken and its high word latched. -/
theorem counterRules : Obligations.CounterRules := by
  unfold Obligations.CounterRules
  refine ⟨fun s a n b hs => cnt_addCnt hs a n b, fun s p b hs => cnt_clearCnts hs p b, ?read⟩
  case read =>
    intro s a who hs hheld hwho hin himpl hat h8 hbusy hlatch htxq hnow hreg
    have hread := wordRead_of_counterAt hin hat hbusy hlatch htxq hnow hreg
    refine ⟨_, exec_rcFieldRead_word hheld hwho hin himpl (by omega), ?_⟩
    rw [hread]
    refine ⟨rfl, getD_del_cnts hs a, rfl, rfl, rfl, rfl, fun hhigh => ?_⟩
    exact (find_put_same _ _ _).trans (by rw [wordNow_high hin hbusy h8 hhigh])

end Sys2Proof.Counters
end

section
/-! PROOFS. O13: the switch core's registers that act on a write (chapter 5, R253, R254, R261, R276, R281, R282; R64). -/
namespace Sys2Proof.SwitchRegisters
open Sys2Proof Sys2Proof.Machine Sys2Proof.HostPort

/-! ### QM_LIMIT (R253, R64) -/

/-- A write that the lock of a page lets through acts. -/
theorem rwl_acts {s : State} {p : Nat} {changed : Bool} (h : s.pageLocked p = false ∨ changed = false) (f : State → State) : s.rwl p changed f = f s :=
  if_neg (by rcases h with h | h <;> simp [h])

/-- A change of a locked page is refused and logged. -/
theorem rwl_refused {s : State} {p : Nat} {changed : Bool} (hlock : s.pageLocked p = true) (hchg : changed = true) (f : State → State) :
    s.rwl p changed f = s.logErr p 0x0002 0 (locPage p) :=
  if_pos (by simp [hlock, hchg])

theorem exec_qmLimitWrite {s : State} {t : Nat} (hheld : s.pwr.held = false) (hbusy : s.pageBusy (pg 5 t) = false) (j c v : Nat) :
    exec (.qmLimitWrite t j c v) s = .next (s.limitWrite t j c v) :=
  congrArg Host.Outcome.next (onPage_free hheld hbusy _)

/-- The limits of all queues of tile t together. -/
def limitSum (s : State) (t : Nat) : Nat :=
  (List.range 64).foldl (fun n k => n + s.fld (Reg.QM_LIMIT t (k / 8) (k % 8)) Fld.QM_LIMIT_LIMIT) 0

section
variable {s : State} {t j c v : Nat}

theorem limitWrite_locked (hlock : s.pageLocked (pg 5 t) = true) (hne : s.fld (Reg.QM_LIMIT t j c) Fld.QM_LIMIT_LIMIT ≠ v % 16384) :
    s.limitWrite t j c v = s.logErr (pg 5 t) 0x0002 0 (locPage (pg 5 t)) := by
  unfold State.limitWrite
  exact rwl_refused hlock (by simpa using hne) _

variable (hlock : s.pageLocked (pg 5 t) = false ∨ s.fld (Reg.QM_LIMIT t j c) Fld.QM_LIMIT_LIMIT = v % 16384)
include hlock

/-- Past the lock, a write is judged by what the limits of the tile then add up to. -/
theorem limitWrite_unlocked : s.limitWrite t j c v =
    if 12288 < limitSum s t - s.fld (Reg.QM_LIMIT t j c) Fld.QM_LIMIT_LIMIT + v % 16384 then
      (s.irq (pg 5 t) 2).logErr (pg 5 t) 0x0100 0 (locTile t 31)
    else ((s.satJudge t [c]).setFld (Reg.QM_LIMIT t j c) Fld.QM_LIMIT_LIMIT (v % 16384)).satJudge t [c] := by
  unfold State.limitWrite
  exact rwl_acts (by simpa using hlock) _

theorem limitWrite_taken (hsum : limitSum s t - s.fld (Reg.QM_LIMIT t j c) Fld.QM_LIMIT_LIMIT + v % 16384 ≤ 12288) :
    s.limitWrite t j c v = ((s.satJudge t [c]).setFld (Reg.QM_LIMIT t j c) Fld.QM_LIMIT_LIMIT (v % 16384)).satJudge t [c] :=
  (limitWrite_unlocked hlock).trans (if_neg (Nat.not_lt.2 hsum))

theorem limitWrite_refused (hsum : 12288 < limitSum s t - s.fld (Reg.QM_LIMIT t j c) Fld.QM_LIMIT_LIMIT + v % 16384) :
    s.limitWrite t j c v = (s.irq (pg 5 t) 2).logErr (pg 5 t) 0x0100 0 (locTile t 31) :=
  (limitWrite_unlocked hlock).trans (if_pos hsum)
end

/-! ### PT_CTRL (R276, R281) -/

/-- s with the Drizzle seed of tile t loaded. -/
def drzSeeded (t seed : Nat) (s : State) : State :=
  let u := s.setFld (Reg.PT_CTRL t) Fld.PT_CTRL_DRZ_SEED seed
  { u with sw := { u.sw with drzGen := Tbl.set u.sw.drzGen 0 t 0 } }

theorem ptCtrlWrite_seeds {v : Nat} (hclear : bit 16 v = false) (s : State) (t : Nat) : s.ptCtrlWrite t v = drzSeeded t (v % 65536) s :=
  if_neg (Bool.eq_false_iff.1 hclear)

theorem ptCtrlWrite_clears {v : Nat} (hclear : bit 16 v = true) (s : State) (t : Nat) :
    s.ptCtrlWrite t v = (drzSeeded t (v % 65536) s).clearCnts (pg 4 t) :=
  if_pos hclear

/-- The word that PT_CNT_CLEAR writes carries the seed and CNT_CLEAR. -/
theorem ptCtrlWrite_cntClear (s : State) (t v : Nat) :
    s.ptCtrlWrite t (65536 + v % 65536) = (drzSeeded t (v % 65536) s).clearCnts (pg 4 t) := by
  have hbit : bit 16 (65536 + v % 65536) = true := by
    rw [bit, Nat.testBit_eq_decide_div_mod_eq, decide_eq_true_eq]
    omega
  have hseed : (65536 + v % 65536) % 65536 = v % 65536 := by omega
  rw [ptCtrlWrite_clears hbit, hseed]

/-! ### QM_CTRL (R261, R281) -/

/-- s with the LFSR seed of tile t loaded, zero as 0xACE1. -/
def lfsrSeeded (t seed : Nat) (s : State) : State :=
  let u := s.setFld (Reg.QM_CTRL t) Fld.QM_CTRL_LFSR_SEED seed
  { u with sw := { u.sw with lfsr := Tbl.set u.sw.lfsr 0xACE1 t (if seed = 0 then 0xACE1 else seed) } }

/-- s with the counters of tile t's queues cleared and HIGH_WATER restarted. -/
def qmCleared (t : Nat) (s : State) : State :=
  (s.clearCnts (pg 5 t)).setFld (Reg.QM_POOL_STATUS t) Fld.QM_POOL_STATUS_HIGH_WATER (s.fld (Reg.QM_POOL_STATUS t) Fld.QM_POOL_STATUS_USED)

theorem qmCtrlWrite_seeds {v : Nat} (hclear : bit 0 v = false) (s : State) (t : Nat) : s.qmCtrlWrite t v = lfsrSeeded t (bits 31 16 v) s :=
  if_neg (Bool.eq_false_iff.1 hclear)

theorem qmCtrlWrite_clears {v : Nat} (hclear : bit 0 v = true) (s : State) (t : Nat) :
    s.qmCtrlWrite t v = qmCleared t (lfsrSeeded t (bits 31 16 v) s) :=
  if_pos hclear

/-- The word that QM_CNT_CLEAR writes carries the seed and CNT_CLEAR. -/
theorem qmCtrlWrite_cntClear {seed : Nat} (hseed : seed < 65536) (s : State) (t : Nat) :
    s.qmCtrlWrite t (65536 * (seed % 65536) + 1) = qmCleared t (lfsrSeeded t seed s) := by
  have hbit : bit 0 (65536 * (seed % 65536) + 1) = true := by
    rw [bit, Nat.testBit_zero, decide_eq_true_eq]
    omega
  have hbits : bits 31 16 (65536 * (seed % 65536) + 1) = seed := by
    rw [bits, Nat.shiftRight_eq_div_pow]
    omega
  rw [qmCtrlWrite_clears hbit, hbits]

/-! ### The rows on a free page -/

section
variable {s : State} {t : Nat} (hheld : s.pwr.held = false)
include hheld

theorem exec_policerWrite (hbusy : s.pageBusy (pg 4 t) = false) (j c w v : Nat) :
    exec (.policerWrite t j c w v) s = .next (s.polWrite (16 * t + 2 * j) c w v) :=
  congrArg Host.Outcome.next (onPage_free hheld hbusy _)

theorem exec_drzSeedLoad (hbusy : s.pageBusy (pg 4 t) = false) (v : Nat) : exec (.drzSeedLoad t v) s = .next (s.ptCtrlWrite t v) :=
  congrArg Host.Outcome.next (onPage_free hheld hbusy _)

theorem exec_ptCntClear (hbusy : s.pageBusy (pg 4 t) = false) (v : Nat) :
    exec (.ptCntClear t v) s = .next (s.ptCtrlWrite t (65536 + v % 65536)) :=
  congrArg Host.Outcome.next (onPage_free hheld hbusy _)

theorem exec_lfsrSeedLoad (hbusy : s.pageBusy (pg 5 t) = false) (v : Nat) : exec (.lfsrSeedLoad t v) s = .next (s.qmCtrlWrite t v) :=
  congrArg Host.Outcome.next (onPage_free hheld hbusy _)

theorem exec_qmCntClear (hbusy : s.pageBusy (pg 5 t) = false) (seed : Nat) :
    exec (.qmCntClear t seed) s = .next (s.qmCtrlWrite t (65536 * (seed % 65536) + 1)) :=
  congrArg Host.Outcome.next (onPage_free hheld hbusy _)

theorem exec_ringCntClear {q : Nat} (hbusy : s.pageBusy (pg 7 q) = false) : exec (.ringCntClear q) s = .next (s.clearCnts (pg 7 q)) :=
  congrArg Host.Outcome.next (onPage_free hheld hbusy _)
end

/-- Settles O13: each row writes its register on a free page, and each register's write is its case by the lock, the sum and the bits written. -/
theorem switchRegistersComplete : Obligations.SwitchRegistersComplete := by
  unfold Obligations.SwitchRegistersComplete
  refine ⟨?limit, fun s t j c w v hheld hbusy => exec_policerWrite hheld hbusy j c w v, ?ptCtrl, ?qmCtrl,
    fun s q hheld hbusy => exec_ringCntClear hheld hbusy⟩
  case limit =>
    intro s t j c v hheld hbusy
    have hrow := exec_qmLimitWrite hheld hbusy j c v
    exact ⟨fun hlock => ⟨fun hsum => hrow.trans (congrArg _ (limitWrite_taken hlock hsum)),
      fun hsum => hrow.trans (congrArg _ (limitWrite_refused hlock hsum))⟩,
      fun hlock hne => hrow.trans (congrArg _ (limitWrite_locked hlock hne))⟩
  case ptCtrl =>
    intro s t v hheld hbusy
    have hload := exec_drzSeedLoad hheld hbusy v
    exact ⟨fun hclear => hload.trans (congrArg _ (ptCtrlWrite_seeds hclear s t)),
      fun hclear => hload.trans (congrArg _ (ptCtrlWrite_clears hclear s t)),
      (exec_ptCntClear hheld hbusy v).trans (congrArg _ (ptCtrlWrite_cntClear s t v))⟩
  case qmCtrl =>
    intro s t v seed hheld hbusy hseed
    have hload := exec_lfsrSeedLoad hheld hbusy v
    exact ⟨fun hclear => hload.trans (congrArg _ (qmCtrlWrite_seeds hclear s t)),
      fun hclear => hload.trans (congrArg _ (qmCtrlWrite_clears hclear s t)),
      (exec_qmCntClear hheld hbusy seed).trans (congrArg _ (qmCtrlWrite_cntClear hseed s t))⟩

end Sys2Proof.SwitchRegisters
end

section
/-! PROOFS. O9: frames of the link layer received (chapter 7, R325–R334, R341–R351; R251). -/
namespace Sys2Proof.LinkFrames
open Sys2Proof Sys2Proof.Machine

theorem isUp_iff {st : LinkState} : st.isUp = true ↔ st = .up ∨ st = .sluice := by cases st <;> simp [LinkState.isUp]

/-- s with the ACK_SEQ of a good link header applied, where it is valid (R333). -/
def ackTaken (lp : Nat) (hd : List Byte) (s : State) : State := if hdrAckValid hd then s.acked lp (hdrAck hd) else s

/-! ### DATA frames (R325, R332, R336) -/

/-- u with a DATA frame in sequence taken: the expected LSEQ moves on, and an ACK of all before it is sent. -/
def frameTaken (lp : Nat) (u : State) : State :=
  let l := u.link lp
  let q := (l.rxSeq + 1) % 65536
  (u.setLink lp { l with rxSeq := q, nakFor := none, nakDue := false, rxOpen := none }).control lp (ackBody q)

/-- What a good DATA frame does in u, its acknowledgement applied. -/
def dataFrame (lp : Nat) (hd : List Byte) (u : State) : State :=
  if hdrType hd ≠ 1 then u
  else if hdrSeq hd ≠ (u.link lp).rxSeq then (u.refuseOpen lp).nak lp
  else match (u.link lp).rxOpen with
    | some id => (frameTaken lp u).rxMod id fun r => { r with accepted := true }
    | none => frameTaken lp u

section
variable {lp : Nat} {hd : List Byte} {u : State}

theorem dataFrame_otherType (htype : hdrType hd ≠ 1) : dataFrame lp hd u = u := if_pos htype

variable (htype : hdrType hd = 1)
include htype

theorem dataFrame_outOfSeq (hseq : hdrSeq hd ≠ (u.link lp).rxSeq) : dataFrame lp hd u = (u.refuseOpen lp).nak lp :=
  (if_neg fun hne => hne htype).trans (if_pos hseq)

variable (hseq : hdrSeq hd = (u.link lp).rxSeq)
include hseq

theorem dataFrame_noPacket (hopen : (u.link lp).rxOpen = none) : dataFrame lp hd u = frameTaken lp u := by
  simp [dataFrame, htype, hseq, hopen]

/-- A frame in sequence has the open packet accepted. -/
theorem dataFrame_accepts {id : Nat} (hopen : (u.link lp).rxOpen = some id) :
    dataFrame lp hd u = (frameTaken lp u).rxMod id fun r => { r with accepted := true } := by
  simp [dataFrame, htype, hseq, hopen]
end

section
variable {s : State} {lp : Nat} {hd : List Byte} (hup : (s.link lp).st.isUp = true) (hlight : s.ignoresLight (lp2p lp) = false)
include hup hlight

theorem exec_linkDataFrameRx_bad {fec : Bool} (hbad : fec = true ∨ hdrGood hd = false) :
    exec (.linkDataFrameRx lp hd fec) s = .next ((s.refuseOpen lp).badFrame lp fec) :=
  (if_neg (by simp [hup, hlight])).trans (if_pos (by simpa using hbad))

theorem exec_linkDataFrameRx_good (hgood : hdrGood hd = true) : exec (.linkDataFrameRx lp hd false) s = .next (dataFrame lp hd (ackTaken lp hd s)) := by
  show execLinkDataFrameRx lp hd false s = _
  unfold execLinkDataFrameRx
  rw [if_neg (by simp [hup, hlight]), if_neg (by simp [hgood])]
  change _ = Host.Outcome.next (dataFrame lp hd (if hdrAckValid hd then s.acked lp (hdrAck hd) else s))
  unfold dataFrame
  exact ((apply_ite Host.Outcome.next _ _ _).trans (congrArg (ite _ _) (apply_ite Host.Outcome.next _ _ _))).symm
end

/-! ### CONTROL frames (R326): what a link makes of one, by its state -/

theorem controlRx_bad {s : State} {lp : Nat} {hd : List Byte} {fec : Bool} (htakes : s.takesFrames lp = true) (hbad : fec = true ∨ hdrGood hd = false)
    (kind : Nat) (body : List Byte) (f : State → State) : s.controlRx lp kind hd body fec f = s.badFrame lp fec :=
  (if_neg (by simp [htakes])).trans (if_pos (by simpa using hbad))

section
variable {s : State} {lp kind : Nat} {hd body : List Byte} (hlight : s.ignoresLight (lp2p lp) = false) (hgood : hdrGood hd = true)
  (htype : hdrType hd = 2)
include hlight hgood htype

/-- In UP and SLUICE the ACK_SEQ is applied before the frame's own effect. -/
theorem controlRx_up (hup : (s.link lp).st.isUp = true) (hkind : ctlKind body = kind) (f : State → State) :
    s.controlRx lp kind hd body false f = f (ackTaken lp hd s) := by
  simp [State.controlRx, State.takesFrames, ackTaken, hup, hlight, hgood, htype, hkind]

/-- In HELLO a HELLO alone acts, and acknowledges nothing (R341). -/
theorem controlRx_inHello (hst : (s.link lp).st = .hello) (hkind : ctlKind body = 4) (f : State → State) :
    s.controlRx lp 4 hd body false f = f s := by
  simp [State.controlRx, State.takesFrames, LinkState.isUp, hst, hlight, hgood, htype, hkind]
end

/-! ### HELLO (R342–R344, R349–R351) -/

/-- u with the GEN that the far end gives kept. -/
def farGenKept (lp gen : Nat) (u : State) : State := u.setLink lp { u.link lp with farGen := gen }

/-- u with what the far end's first HELLO says kept. -/
def farEndKept (lp : Nat) (x : Hello) (u : State) : State := u.setLink lp { u.link lp with seen := true, farGen := x.gen, farId := some x.id }

section
variable {u : State} {lp : Nat} {x : Hello}

theorem hello_wrongRole (hst : (u.link lp).st = .hello) (hrole : x.role ≠ u.wantRole lp) :
    u.hello lp x = u.logErr (pg 4 (lpTile lp)) 0x0106 0 (locLink lp) := by
  simp [State.hello, hst, hrole]

theorem hello_seen (hst : (u.link lp).st = .hello) (hrole : x.role = u.wantRole lp) (hseen : x.seen = true) :
    u.hello lp x = (farEndKept lp x u).enterUp lp x (helloState (u.link lp).gen x.gen) := by
  simp [State.hello, farEndKept, hst, hrole, hseen]

theorem hello_unseen (hst : (u.link lp).st = .hello) (hrole : x.role = u.wantRole lp) (hseen : x.seen = false) : u.hello lp x = farEndKept lp x u := by
  simp [State.hello, farEndKept, hst, hrole, hseen]

theorem hello_otherId (hup : (u.link lp).st.isUp = true) (hid : (u.link lp).farId ≠ some x.id) : u.hello lp x = u.flap lp 4 := by
  rcases isUp_iff.1 hup with hst | hst <;> simp [State.hello, hst, hid]

variable (hid : (u.link lp).farId = some x.id)
include hid

theorem hello_up (hst : (u.link lp).st = .up) :
    u.hello lp x = if x.gen = (u.link lp).gen then farGenKept lp x.gen u else (farGenKept lp x.gen u).setLinkState lp .sluice := by
  simp [State.hello, farGenKept, hst, hid]

theorem hello_sluice (hst : (u.link lp).st = .sluice) :
    u.hello lp x = if x.gen = (u.link lp).gen ∧ (u.link lp).gen ≠ 0 then (farGenKept lp x.gen u).setLinkState lp .up else farGenKept lp x.gen u := by
  simp [State.hello, farGenKept, hst, hid]
end

/-! ### The rows of CONTROL frames -/

section
variable (s : State) (lp : Nat) (hd body : List Byte) (fec : Bool)

theorem exec_ackRx : exec (.ackRx lp hd body fec) s = .next (s.controlRx lp 1 hd body fec fun u => u.acked lp (beAt 4 2 body)) := rfl

theorem exec_nakRx : exec (.nakRx lp hd body fec) s = .next (s.controlRx lp 2 hd body fec fun u =>
    (u.setLink lp { u.link lp with nakRx := min ((u.link lp).nakRx + 1) 0xFFFFFFFF }).resendFrom lp (beAt 4 2 body)) := rfl

theorem exec_creditRx : exec (.creditRx lp hd body fec) s = .next (s.controlRx lp 3 hd body fec fun u =>
    (u.setLink lp { u.link lp with
      privFreed := (List.range 8).map fun c => beAt (4 + 2 * c) 2 body
      sharedFreed := (List.range 8).map fun c => beAt (20 + 2 * c) 2 body }).blockCheck lp) := rfl

theorem exec_helloRx : exec (.helloRx lp hd body fec) s = .next (s.controlRx lp 4 hd body fec fun u => u.hello lp (helloOf body)) := rfl

theorem exec_goodbyeRx : exec (.goodbyeRx lp hd body fec) s = .next (s.controlRx lp 5 hd body fec fun u => u.leaveUp lp 4) := rfl
end

/-- Settles O9: a frame is bad, or its acknowledgement is applied and its own effect follows, by its type, the link's state and what it carries. -/
theorem linkFramesComplete : Obligations.LinkFramesComplete := by
  unfold Obligations.LinkFramesComplete
  refine ⟨?data, ?up, ?inHello, ?bad⟩
  case data =>
    intro s lp hd fec hup hlight
    refine ⟨exec_linkDataFrameRx_bad hup hlight, ?otherType, ?outOfSeq, ?inSeq⟩
    case otherType =>
      rintro rfl hgood htype
      exact (exec_linkDataFrameRx_good hup hlight hgood).trans (congrArg _ (dataFrame_otherType htype))
    case outOfSeq =>
      rintro rfl hgood htype hseq
      exact (exec_linkDataFrameRx_good hup hlight hgood).trans (congrArg _ (dataFrame_outOfSeq htype hseq))
    case inSeq =>
      rintro rfl hgood htype hseq
      have hrow := exec_linkDataFrameRx_good hup hlight hgood
      exact ⟨fun hopen => hrow.trans (congrArg _ (dataFrame_noPacket htype hseq hopen)),
        fun id hopen => hrow.trans (congrArg _ (dataFrame_accepts htype hseq hopen))⟩
  case up =>
    intro s lp hd body hup hlight hgood htype
    have hrx {kind : Nat} (hkind : ctlKind body = kind) (f : State → State) := controlRx_up hlight hgood htype hup hkind f
    have hhello (hkind : ctlKind body = 4) : exec (.helloRx lp hd body false) s = .next ((ackTaken lp hd s).hello lp (helloOf body)) :=
      (exec_helloRx s lp hd body false).trans (congrArg _ (hrx hkind _))
    refine ⟨fun hkind => (exec_ackRx s lp hd body false).trans (congrArg _ (hrx hkind _)),
      fun hkind => (exec_nakRx s lp hd body false).trans (congrArg _ (hrx hkind _)),
      fun hkind => (exec_creditRx s lp hd body false).trans (congrArg _ (hrx hkind _)), ?goodbye, ?otherId, ?sameId⟩
    case goodbye =>
      intro hkind hstill
      exact (exec_goodbyeRx s lp hd body false).trans (congrArg _ ((hrx hkind _).trans (if_pos hstill)))
    case otherId => exact fun hkind hid hstill => (hhello hkind).trans (congrArg _ (hello_otherId hstill hid))
    case sameId =>
      intro hkind hid
      refine ⟨fun hst hgen => ?_, fun hst hgen => ?_, fun hst hgen hzero => ?_, fun hst hgen => ?_⟩
      · exact (hhello hkind).trans (congrArg _ ((hello_up hid hst).trans (if_neg hgen)))
      · exact (hhello hkind).trans (congrArg _ ((hello_up hid hst).trans (if_pos hgen)))
      · exact (hhello hkind).trans (congrArg _ ((hello_sluice hid hst).trans (if_pos ⟨hgen, hgen ▸ hzero⟩)))
      · have hno : ¬((helloOf body).gen = ((ackTaken lp hd s).link lp).gen ∧ ((ackTaken lp hd s).link lp).gen ≠ 0) :=
          fun ⟨hsame, hnz⟩ => hgen.elim (fun hne => hne hsame) (fun hzero => hnz (hsame ▸ hzero))
        exact (hhello hkind).trans (congrArg _ ((hello_sluice hid hst).trans (if_neg hno)))
  case inHello =>
    intro s lp hd body hst hlight hgood htype hkind
    have hrow : exec (.helloRx lp hd body false) s = .next (s.hello lp (helloOf body)) :=
      (exec_helloRx s lp hd body false).trans (congrArg _ (controlRx_inHello hlight hgood htype hst hkind _))
    exact ⟨fun hrole => hrow.trans (congrArg _ (hello_wrongRole hst hrole)),
      fun hrole hseen => hrow.trans (congrArg _ (hello_seen hst hrole hseen)),
      fun hrole hseen => hrow.trans (congrArg _ (hello_unseen hst hrole hseen))⟩
  case bad =>
    intro s lp hd body fec htakes hbad
    have hrx (kind : Nat) (f : State → State) : (.next (s.controlRx lp kind hd body fec f) : Result) = .next (s.badFrame lp fec) :=
      congrArg _ (controlRx_bad htakes hbad kind body f)
    exact ⟨(exec_ackRx s lp hd body fec).trans (hrx 1 _), (exec_nakRx s lp hd body fec).trans (hrx 2 _),
      (exec_creditRx s lp hd body fec).trans (hrx 3 _), (exec_helloRx s lp hd body fec).trans (hrx 4 _),
      (exec_goodbyeRx s lp hd body fec).trans (hrx 5 _)⟩

end Sys2Proof.LinkFrames
end

section
/-! PROOFS. O16: the commands of the forwarding tables (chapter 6, R293–R313, R858). -/
namespace Sys2Proof.FwtCommands
open Sys2Proof Sys2Proof.Machine Sys2Proof.TimeMessages

/-! ### What ends an update command (R312, R313) -/

section
variable {s t : State} {h : CmdHdr} {op : Nat} {body : State → State × Option Cmpl} (htakes : s.takes h op true = true)
include htakes

/-- With TARGET 0 an update command that takes effect completes with what its own effect answers. -/
theorem update_completes {c : Cmpl} (htarget : h.target = 0) (hbody : body (s.start h op) = (t, some c)) :
    (.next (s.update h op body) : Result) = .next (t.complete h (op / 256) c) :=
  congrArg _ (runCmd_completes htakes ((if_neg fun hne => hne htarget).trans hbody))

/-- One copy of the tables is not updated alone: another TARGET is refused. -/
theorem update_badTarget (htarget : h.target ≠ 0) :
    (.next (s.update h op body) : Result) = .next ((s.start h op).complete h (op / 256) ⟨0x0105, 0, 0, []⟩) :=
  congrArg _ (runCmd_completes htakes (if_pos htarget))
end

/-! ### LEAF_SET within its bounds (R293, R294, R858) -/

section
variable {s : State} {h : CmdHdr} {leaf count : Nat} {ms : List Nat} (htakes : s.takes h 0x0601 true = true) (htarget : h.target = 0)
  (hleaf : leaf < (s.start h 0x0601).leaves) (hcount : count ≤ 512 / (s.start h 0x0601).leaves)
include htakes htarget hleaf hcount

theorem exec_leafSet_pass (hpass : (s.start h 0x0601).leafCheck leaf [] ((List.range count).map fun k => ms.getD k 0) = none) :
    exec (.leafSet h leaf count ms) s = ((s.start h 0x0601).commit
      (fun p => { p with row := Tbl.set p.row 0 leaf (mkRow ((List.range count).map fun k => ms.getD k 0)) }) id).okFor h 6 := by
  refine update_completes htakes htarget ((if_neg (by omega)).trans ?_)
  dsimp only
  rw [hpass]
  rfl

theorem exec_leafSet_fails {st : Nat}
    (hfails : (s.start h 0x0601).leafCheck leaf [] ((List.range count).map fun k => ms.getD k 0) = some st) :
    exec (.leafSet h leaf count ms) s = .next ((s.start h 0x0601).complete h 6 ⟨st, 0, 0, []⟩) := by
  refine update_completes htakes htarget ((if_neg (by omega)).trans ?_)
  dsimp only
  rw [hfails]
  rfl
end

/-! ### GRP_SET within its bounds (R298, R303, R304) -/

/-- The entry that a GRP_SET inserts: a descriptor is kept for KIND 0 alone. -/
abbrev grpSetEntry (group kind gen desc base count : Nat) : Nat :=
  mkGrp kind gen (group % 2 ^ 20) base count (if kind = 0 then desc else 0)

/-- A group entry inserted in every die, in one commit. -/
abbrev grpStored (e : Nat) (a : State) : State :=
  a.commit id fun d => { d with grp := (insertEntry grpKind d.grp e).getD d.grp }

section
variable {s : State} {h : CmdHdr} {group kind gen desc base count : Nat} (htakes : s.takes h 0x0606 true = true) (htarget : h.target = 0)
  (hin : ¬(3 ≤ kind ∨ count = 0 ∨ 131072 < count ∨ 262144 < base + count))
include htakes htarget hin

/-- An insertion that finds no path changes no table. -/
theorem exec_grpSet_noPath
    (hnone : insertEntry grpKind ((s.start h 0x0606).dieTbl 0).grp (grpSetEntry group kind gen desc base count) = none) :
    exec (.grpSet h group kind gen desc base count) s =
      .next ((((s.start h 0x0606).inc (Cnt.FWT_INSERT_FAIL 0)).irq (pg 6 0) 3).complete h 6 ⟨0x0102, 0, 0, []⟩) := by
  refine update_completes htakes htarget ((if_neg hin).trans ?_)
  dsimp only
  rw [hnone]
  rfl

/-- One that finds a place is committed, and a generation the group did not have is told. -/
theorem exec_grpSet_stores
    (hsome : (insertEntry grpKind ((s.start h 0x0606).dieTbl 0).grp (grpSetEntry group kind gen desc base count)).isSome = true) :
    exec (.grpSet h group kind gen desc base count) s =
      (if (s.start h 0x0606).groupGen (group % 2 ^ 20) = some gen then grpStored (grpSetEntry group kind gen desc base count) (s.start h 0x0606)
        else ((grpStored (grpSetEntry group kind gen desc base count) (s.start h 0x0606)).groupChanged (group % 2 ^ 20)).genChanged).okFor h 6 := by
  obtain ⟨grp, hgrp⟩ := Option.isSome_iff_exists.1 hsome
  refine update_completes htakes htarget ((if_neg hin).trans ?_)
  dsimp only
  rw [hgrp]
  rfl
end

/-! ### TABLE_READ of a copy that is there (R312, R854) -/

/-- The copies of a table: one for each die for the tables of groups and members, else one for each pipeline. -/
abbrev tableCopies (table : Nat) : Nat := if 4 ≤ table ∧ table ≤ 6 then 2 else 16

section
variable {s : State} {h : CmdHdr} {table index : Nat} (htakes : s.takes h 0x060A true = true) (hcopy : h.target < tableCopies table)
include htakes hcopy

theorem exec_tableRead_word {v : Nat} (hword : (s.start h 0x060A).tableWord table index h.target = some v) :
    exec (.tableRead h table index) s = (s.start h 0x060A).okFor h 6 v := by
  refine congrArg _ (runCmd_completes htakes ((if_neg (Nat.not_le.2 hcopy)).trans ?_))
  rw [hword]
  rfl

theorem exec_tableRead_none (hword : (s.start h 0x060A).tableWord table index h.target = none) :
    exec (.tableRead h table index) s = .next ((s.start h 0x060A).complete h 6 ⟨0x0104, 0, 0, []⟩) := by
  refine congrArg _ (runCmd_completes htakes ((if_neg (Nat.not_le.2 hcopy)).trans ?_))
  rw [hword]
  rfl
end

/-- Settles O16, row by row: an update with TARGET 0 completes with its own effect, whose branch the bounds and the tables name, and any other
TARGET is refused. -/
theorem tableCommandsComplete : Obligations.TableCommandsComplete := by
  unfold Obligations.TableCommandsComplete
  refine ⟨?leafSet, ?epgenSet, ?ovrInsert, ?ovrDelete, ?ovrAge, ?grpSet, ?grpDelete, ?memberLoad, ?tableLoad, ?tableRead, ?badTarget⟩
  case leafSet =>
    intro s h leaf count ms htakes htarget
    exact ⟨fun hleaf hcount => ⟨exec_leafSet_pass htakes htarget hleaf hcount, fun _ => exec_leafSet_fails htakes htarget hleaf hcount⟩,
      fun hout => update_completes htakes htarget (if_pos hout)⟩
  case epgenSet =>
    intro s h leaf first count gen htakes htarget a n u
    refine ⟨fun hleaf hn => ?_, fun hout => update_completes htakes htarget (if_pos hout)⟩
    have hin : ¬(a.leaves ≤ leaf ∨ 256 < first + n) := by omega
    exact update_completes htakes htarget (if_neg hin)
  case ovrInsert =>
    intro s h feid kind gen target htakes htarget
    exact ⟨fun hin => update_completes htakes htarget (if_neg (Bool.eq_false_iff.1 hin)),
      fun hout => update_completes htakes htarget (if_pos hout)⟩
  case ovrDelete => exact fun s h feid htakes htarget => update_completes htakes htarget rfl
  case ovrAge =>
    intro s h first htakes htarget
    refine ⟨fun haligned hfirst => ?_, fun hout => update_completes htakes htarget (if_pos hout)⟩
    have hin : ¬(first % 64 ≠ 0 ∨ 32704 < first) := by omega
    exact update_completes htakes htarget (if_neg hin)
  case grpSet =>
    intro s h group kind gen desc base count htakes htarget
    refine ⟨fun hout => update_completes htakes htarget (if_pos hout), fun hkind hcount hmax hslots => ?_⟩
    have hin : ¬(3 ≤ kind ∨ count = 0 ∨ 131072 < count ∨ 262144 < base + count) := by omega
    exact ⟨exec_grpSet_noPath htakes htarget hin,
      fun hsome hold => (exec_grpSet_stores htakes htarget hin hsome).trans (by rw [if_pos hold]),
      fun hsome hold => (exec_grpSet_stores htakes htarget hin hsome).trans (by rw [if_neg hold])⟩
  case grpDelete => exact fun s h group htakes htarget => update_completes htakes htarget rfl
  case memberLoad =>
    intro s h off first count htakes htarget a
    refine ⟨fun hslots hfree => ?_, fun hout => update_completes htakes htarget (if_pos hout)⟩
    have hin : ¬(262144 < first + count ∨ a.slotsUsed first count = true) := not_or.2 ⟨Nat.not_lt.2 hslots, Bool.eq_false_iff.1 hfree⟩
    exact update_completes htakes htarget (if_neg hin)
  case tableLoad =>
    intro s h off crc htakes htarget
    exact ⟨fun hoff => update_completes htakes htarget (if_pos hoff),
      fun hoff hcrc => update_completes htakes htarget ((if_neg fun hne => hne hoff).trans (if_pos hcrc)),
      fun hoff hcrc => update_completes htakes htarget ((if_neg fun hne => hne hoff).trans (if_neg fun hne => hne hcrc))⟩
  case tableRead =>
    intro s h table index htakes
    exact ⟨fun hcopy _ => exec_tableRead_word htakes hcopy, exec_tableRead_none htakes,
      fun hno => congrArg _ (runCmd_completes htakes (if_pos hno))⟩
  case badTarget =>
    intro s h htarget
    exact ⟨fun _ _ _ htakes => update_badTarget htakes htarget, fun _ _ _ _ htakes => update_badTarget htakes htarget,
      fun _ _ _ _ htakes => update_badTarget htakes htarget, fun _ htakes => update_badTarget htakes htarget,
      fun _ htakes => update_badTarget htakes htarget, fun _ _ _ _ _ _ htakes => update_badTarget htakes htarget,
      fun _ htakes => update_badTarget htakes htarget, fun _ _ _ htakes => update_badTarget htakes htarget,
      fun _ _ htakes => update_badTarget htakes htarget⟩

end Sys2Proof.FwtCommands
end

section
/-! PROOFS. O11: the link commands (chapter 7, R347, R355, R363–R366, R861). -/
namespace Sys2Proof.LinkCommands
open Sys2Proof Sys2Proof.Machine Sys2Proof.TimeMessages

/-! ### LINK_PROVISION (R363, R366, R861) -/

/-- A link given its provisioned GEN, whatever its state. -/
abbrev genGiven (lp gen : Nat) (a : State) : State := a.setLink lp { a.link lp with gen := gen }

section
variable {s : State} {h : CmdHdr} {action : Nat} (gen : Nat) (htakes : s.takes h 0x0401 true = true)
include htakes

theorem exec_linkProvision_notInUse (hout : (s.start h 0x0401).inUse h.target = false) :
    exec (.linkProvision h gen action) s = .next ((s.start h 0x0401).complete h 4 ⟨0x0100, 0, 0, []⟩) :=
  congrArg _ (runCmd_completes htakes (if_pos (by simp [hout])))

variable (hin : (s.start h 0x0401).inUse h.target = true)
include hin

theorem exec_linkProvision_badAction (haction : 2 < action) :
    exec (.linkProvision h gen action) s = .next ((s.start h 0x0401).complete h 4 ⟨0x0101, 0, 0, []⟩) :=
  congrArg _ (runCmd_completes htakes ((if_neg (by simp [hin])).trans (if_pos haction)))

/-- A link in use takes its GEN first, and ACTION then acts on the link with that GEN. -/
theorem exec_linkProvision_acts (haction : action ≤ 2) :
    let u := genGiven h.target gen (s.start h 0x0401)
    exec (.linkProvision h gen action) s =
      (if action = 1 then u.takeDown h.target else if action = 2 then u.clearDamping h.target else u).okFor h 4 :=
  congrArg _ (runCmd_completes htakes ((if_neg (by simp [hin])).trans (if_neg (Nat.not_lt.2 haction))))
end

/-! ### SLUICE_EP (R355, R363, R366) -/

/-- The forwarding tables with sluice list l, committed. -/
abbrev sluiceListed (l : List Nat) (a : State) : State := ({ a with fwt := { a.fwt with sluice := l } } : State).commit id id

section
variable {s : State} {h : CmdHdr} (feid : Nat) (htakes : s.takes h 0x0402 true = true)
include htakes

theorem exec_sluiceEp_badAction {action : Nat} (haction : 1 < action) :
    exec (.sluiceEp h feid action) s = .next ((s.start h 0x0402).complete h 4 ⟨0x0101, 0, 0, []⟩) :=
  congrArg _ (runCmd_completes htakes (if_pos haction))

theorem exec_sluiceEp_release :
    exec (.sluiceEp h feid 0) s = (sluiceListed ((s.start h 0x0402).fwt.sluice.filter (· != feidKey feid)) (s.start h 0x0402)).okFor h 4 :=
  congrArg _ (runCmd_completes htakes rfl)

/-- An endpoint that is listed already stays listed once; the tables are committed all the same. -/
theorem exec_sluiceEp_enter_listed (hlisted : (s.start h 0x0402).fwt.sluice.contains (feidKey feid) = true) :
    exec (.sluiceEp h feid 1) s = ((s.start h 0x0402).commit id id).okFor h 4 :=
  congrArg _ (runCmd_completes htakes (if_pos hlisted))

variable (hnew : (s.start h 0x0402).fwt.sluice.contains (feidKey feid) = false)
include hnew

theorem exec_sluiceEp_enter_full (hfull : 1024 ≤ (s.start h 0x0402).fwt.sluice.length) :
    exec (.sluiceEp h feid 1) s = .next ((s.start h 0x0402).complete h 4 ⟨0x0102, 0, 0, []⟩) :=
  congrArg _ (runCmd_completes htakes ((if_neg (Bool.eq_false_iff.1 hnew)).trans (if_pos hfull)))

theorem exec_sluiceEp_enter_room (hroom : (s.start h 0x0402).fwt.sluice.length < 1024) :
    exec (.sluiceEp h feid 1) s =
      ((sluiceListed ((s.start h 0x0402).fwt.sluice ++ [feidKey feid]) (s.start h 0x0402)).charge (objEndpoint (feidKey feid)) 17 1).okFor h 4 :=
  congrArg _ (runCmd_completes htakes ((if_neg (Bool.eq_false_iff.1 hnew)).trans (if_neg (Nat.not_le.2 hroom))))
end

/-! ### LINK_QUERY (R365, R366) -/

/-- What LINK_QUERY answers of a link: state, GEN, far GEN and H in RESULT, and its seven counts as extra data. -/
abbrev linkAnswer (l : LinkSt) : Cmpl :=
  ⟨0, l.st.code + l.gen % 256 * 2 ^ 8 + l.farGen % 256 * 2 ^ 16 + l.h % 1024 * 2 ^ 24, 0,
    [l.retryTx, l.nakTx, l.nakRx, l.replayTimeouts, l.fecUncorr, l.replayStall, l.flaps].flatMap (leBytes 4)⟩

/-- A link with the seven counts of LINK_QUERY cleared. -/
abbrev countsCleared (l : LinkSt) : LinkSt :=
  { l with retryTx := 0, nakTx := 0, nakRx := 0, replayTimeouts := 0, fecUncorr := 0, replayStall := 0, flaps := 0 }

section
variable {s : State} {h : CmdHdr} (clear : Nat) (htakes : s.takes h 0x0403 true = true)
include htakes

theorem exec_linkQuery_notInUse (hout : (s.start h 0x0403).inUse h.target = false) :
    exec (.linkQuery h clear) s = .next ((s.start h 0x0403).complete h 4 ⟨0x0100, 0, 0, []⟩) :=
  congrArg _ (runCmd_completes htakes (if_pos (by simp [hout])))

/-- The counts are answered as they stood before CLEAR 1 clears them. -/
theorem exec_linkQuery_inUse (hin : (s.start h 0x0403).inUse h.target = true) :
    let a := s.start h 0x0403
    let l := a.link h.target
    exec (.linkQuery h clear) s = .next ((if clear = 1 then a.setLink h.target (countsCleared l) else a).complete h 4 (linkAnswer l)) :=
  congrArg _ (runCmd_completes htakes (if_neg (by simp [hin])))
end

/-! ### LINK_PARAMS (R364, R366) -/

/-- The parameters of every link taken. -/
abbrev paramsTaken (grace thresh retry timeout : Nat) (a : State) : State :=
  { a with links := { a.links with sluiceGrace := grace, staleThresh := thresh, retryLimit := retry, replayTimeout := timeout } }

/-- Is a parameter of LINK_PARAMS outside its range? -/
abbrev paramsOut (thresh retry timeout : Nat) : Prop :=
  timeout < 1000 ∨ 16000 < timeout ∨ retry < 2 ∨ 255 < retry ∨ thresh < 1 ∨ 65535 < thresh

section
variable {s : State} {h : CmdHdr} (grace : Nat) {thresh retry timeout : Nat} (htakes : s.takes h 0x0404 true = true)
include htakes

theorem exec_linkParams_outOfRange (hout : paramsOut thresh retry timeout) :
    exec (.linkParams h grace thresh retry timeout) s = .next ((s.start h 0x0404).complete h 4 ⟨0x0101, 0, 0, []⟩) :=
  congrArg _ (runCmd_completes htakes (if_pos hout))

theorem exec_linkParams_inRange (hin : ¬ paramsOut thresh retry timeout) :
    exec (.linkParams h grace thresh retry timeout) s = (paramsTaken grace thresh retry timeout (s.start h 0x0404)).okFor h 4 :=
  congrArg _ (runCmd_completes htakes (if_neg hin))
end

/-- Settles O11, command by command: the command takes effect after its start, and the operands and the link or list it names choose the branch. -/
theorem linkCommandsComplete : Obligations.LinkCommandsComplete := by
  unfold Obligations.LinkCommandsComplete
  refine ⟨?provision, ?sluice, ?query, ?params⟩
  case provision =>
    intro s h gen action htakes
    refine ⟨exec_linkProvision_notInUse gen htakes, fun hin =>
      ⟨fun hkeep => ?_, fun hdown => ?_, fun hundamp => ?_, exec_linkProvision_badAction gen htakes hin⟩⟩
    · rw [exec_linkProvision_acts gen htakes hin (by omega), if_neg (by omega), if_neg (by omega)]
    · rw [exec_linkProvision_acts gen htakes hin (by omega), if_pos hdown]
    · rw [exec_linkProvision_acts gen htakes hin (by omega), if_neg (by omega), if_pos hundamp]
  case sluice =>
    intro s h feid htakes
    exact ⟨exec_sluiceEp_release feid htakes, exec_sluiceEp_enter_listed feid htakes, exec_sluiceEp_enter_room feid htakes,
      exec_sluiceEp_enter_full feid htakes, fun _ => exec_sluiceEp_badAction feid htakes⟩
  case query =>
    intro s h clear htakes
    refine ⟨exec_linkQuery_notInUse clear htakes, fun hin => ⟨fun hkeep => ?_, fun hclear => ?_⟩⟩
    · rw [exec_linkQuery_inUse clear htakes hin, if_neg hkeep]
    · rw [exec_linkQuery_inUse clear htakes hin, if_pos hclear]
  case params =>
    intro s h grace thresh retry timeout htakes
    refine ⟨fun _ _ _ _ _ _ => exec_linkParams_inRange grace htakes ?_, exec_linkParams_outOfRange grace htakes⟩
    unfold paramsOut
    omega

end Sys2Proof.LinkCommands
end

section
/-! PROOFS. O14: the tide engines (chapter 8, R373–R403). -/
namespace Sys2Proof.TideRows
open Sys2Proof Sys2Proof.Machine Sys2Proof.HostPort Sys2Proof.TimeMessages

/-! ### What an uncorrectable error in a bank does (R392) -/

theorem listError_active (s : State) (p : Nat) :
    s.listError p true = (((s.setFld (tideSt p) Fld.TIDE_PORT_STATUS_LIST_UE 1).listEnds p s.nowC true).irq (pg 8 (p / 8)) 3).logErr
      (pg 8 (p / 8)) 0x0100 2 (locTile (p / 8) 31) :=
  if_pos rfl

theorem listError_shadow (s : State) (p : Nat) :
    s.listError p false = ((s.setPortTide p ((s.portTide p).setBank (1 - s.activeIdx p) TideBank.init)).setFld (tideSt p)
      Fld.TIDE_PORT_STATUS_SHADOW_VALID 0).setFld (tideSt p) Fld.TIDE_PORT_STATUS_TAKEOVER_PENDING 0 :=
  if_neg Bool.false_ne_true

/-! ### LAUNCH (R393–R395, R402) -/

/-- s with device time at the time of launch entry l. -/
abbrev atLaunch (s : State) (l : Launch) : State := s.elapseToDev (cToDev l.t)

/-- The halves of port p whose TC6 queues hold a packet (R373). -/
abbrev tc6Halves (u : State) (p : Nat) : List Nat :=
  (if u.isSplit p then [2 * p, 2 * p + 1] else [2 * p]).filter fun lp => (u.headOf lp 6).isSome

/-- The heads of halves started in turn: did one start, and the state after the last. -/
abbrev startHalves (u : State) (lps : List Nat) : Bool × State :=
  lps.foldl (fun (x : Bool × State) lp => ((x.1 || (x.2.launchHalf lp).1), (x.2.launchHalf lp).2)) (false, u)

section
variable {s : State} {p e : Nat} {l : Launch} (hfirst : firstLaunch (s.portTide p).launches = some (e, l))
include hfirst

theorem exec_launch_skipped (hacts : (atLaunch s l).launchActs p = false) :
    exec (.launch p) s = .next (((atLaunch s l).inc (Cnt.TIDE_LAUNCH_SKIPPED (p / 8) (p % 8))).launchDone p e l) := by
  show execLaunch p s = _
  unfold execLaunch
  rw [hfirst]
  exact if_pos (by simp [hacts])

variable (hacts : (atLaunch s l).launchActs p = true)
include hacts

/-- A launch that may act waits for the frame being sent, if there is one, or else is done, and counted by the halves it found. -/
theorem exec_launch_acts :
    let u := atLaunch s l
    let r := startHalves u (tc6Halves u p)
    exec (.launch p) s =
      if (tc6Halves u p).any fun lp => (u.sending lp).isSome then .next u
      else .next (State.launchDone (if (tc6Halves u p).isEmpty then r.2.inc (Cnt.TIDE_LAUNCH_EMPTY (p / 8) (p % 8))
        else if r.1 then r.2.inc (Cnt.TIDE_LAUNCH_SENT (p / 8) (p % 8)) else r.2) p e l) := by
  show execLaunch p s = _
  unfold execLaunch
  rw [hfirst]
  exact if_neg (by simp [hacts])

theorem exec_launch_waits
    (hsending : ((tc6Halves (atLaunch s l) p).any fun lp => ((atLaunch s l).sending lp).isSome) = true) :
    exec (.launch p) s = .next (atLaunch s l) :=
  (exec_launch_acts hfirst hacts).trans (if_pos hsending)

theorem exec_launch_empty (hempty : tc6Halves (atLaunch s l) p = []) :
    exec (.launch p) s = .next (((atLaunch s l).inc (Cnt.TIDE_LAUNCH_EMPTY (p / 8) (p % 8))).launchDone p e l) := by
  rw [exec_launch_acts hfirst hacts]
  simp [hempty]

theorem exec_launch_starts
    (hfree : ((tc6Halves (atLaunch s l) p).any fun lp => ((atLaunch s l).sending lp).isSome) = false)
    (hfull : tc6Halves (atLaunch s l) p ≠ []) :
    let u := atLaunch s l
    let r := startHalves u (tc6Halves u p)
    exec (.launch p) s = .next (State.launchDone (if r.1 then r.2.inc (Cnt.TIDE_LAUNCH_SENT (p / 8) (p % 8)) else r.2) p e l) := by
  intro u r
  rw [exec_launch_acts hfirst hacts, if_neg (Bool.eq_false_iff.1 hfree), if_neg (mt List.isEmpty_iff.1 hfull)]
end

/-! ### TIDE_LOAD past its TARGET (R397–R399) -/

section
variable {s : State} {h : CmdHdr} {off : Nat} (htakes : s.takes h 0x0801 true = true) (htarget : h.target = 0)
include htakes htarget

theorem exec_tideLoad_commits {ls : List PkgList} {t c : Nat} (hpackage : (s.start h 0x0801).tidePackage off = .ok (ls, t, c)) :
    exec (.tideLoad h off) s = (ls.foldl (fun a l => a.commitList t c l) (s.start h 0x0801)).okFor h 8 := by
  refine congrArg _ (runCmd_completes htakes ((if_neg fun hne => hne htarget).trans ?_))
  rw [hpackage]
  rfl

theorem exec_tideLoad_fails {st : Nat} (hpackage : (s.start h 0x0801).tidePackage off = .error st) :
    exec (.tideLoad h off) s = .next ((s.start h 0x0801).complete h 8 ⟨st, 0, 0, []⟩) := by
  refine congrArg _ (runCmd_completes htakes ((if_neg fun hne => hne htarget).trans ?_))
  rw [hpackage]
  rfl
end

/-! ### TIDE_STOP of a port that is there (R400) -/

/-- TIDE_STOP's time kept: in whole ns, and no earlier than now. -/
abbrev stopKept (p time : Nat) (a : State) : State :=
  a.setPortTide p { a.portTide p with stop := some (max (fromShort time / 2 ^ 32) (ceilDiv a.time.now (2 ^ 32))) }

theorem exec_tideStop_onPort {s : State} {h : CmdHdr} (htakes : s.takes h 0x0803 true = true) (hport : h.target ≤ 511) (time : Nat) :
    let a := s.start h 0x0803
    exec (.tideStop h time) s = (if (a.portTide h.target).hasActive then stopKept h.target time a else a).okFor h 8 :=
  congrArg _ (runCmd_completes htakes (if_neg (Nat.not_lt.2 hport)))

/-! ### LAUNCH_SET of a port and an entry that are there (R393, R396) -/

/-- The launch entries of port p changed by f. -/
abbrev relaunched (p : Nat) (f : Tbl Launch → Tbl Launch) (a : State) : State :=
  a.setPortTide p { a.portTide p with launches := f (a.portTide p).launches }

section
variable {s : State} {h : CmdHdr} {e time period : Nat} (htakes : s.takes h 0x0804 true = true) (hport : h.target ≤ 511)
include htakes hport

theorem exec_launchSet_open {act : Nat} (hout : 15 < e ∨ 1 < act) :
    let d := (s.start h 0x0804).draw
    exec (.launchSet h e act time period) s = .next (d.2.complete h 8 ⟨d.1 % 65536, 0, 0, []⟩) :=
  congrArg _ (runCmd_completes htakes ((if_neg (Nat.not_lt.2 hport)).trans (if_pos hout)))

variable (hentry : e ≤ 15)
include hentry

theorem exec_launchSet_deletes :
    exec (.launchSet h e 0 time period) s = (relaunched h.target (Tbl.del · e) (s.start h 0x0804)).okFor h 8 :=
  congrArg _ (runCmd_completes htakes ((if_neg (Nat.not_lt.2 hport)).trans ((if_neg (by omega)).trans (if_pos rfl))))

theorem exec_launchSet_tooSoon (hsoon : fromShort time < (s.start h 0x0804).time.now + 2000 * 2 ^ 32) :
    exec (.launchSet h e 1 time period) s = .next ((s.start h 0x0804).complete h 8 ⟨0x0105, 0, 0, []⟩) :=
  congrArg _ (runCmd_completes htakes ((if_neg (Nat.not_lt.2 hport)).trans
    ((if_neg (by omega)).trans ((if_neg Nat.one_ne_zero).trans (if_pos hsoon)))))

theorem exec_launchSet_sets (hahead : (s.start h 0x0804).time.now + 2000 * 2 ^ 32 ≤ fromShort time) :
    exec (.launchSet h e 1 time period) s =
      (relaunched h.target (Tbl.put · e ⟨shortToC time, period⟩) (s.start h 0x0804)).okFor h 8 :=
  congrArg _ (runCmd_completes htakes ((if_neg (Nat.not_lt.2 hport)).trans
    ((if_neg (by omega)).trans ((if_neg Nat.one_ne_zero).trans (if_neg (Nat.not_lt.2 hahead))))))
end

/-! ### TIDE_READ of a port that is there (R400) -/

section
variable {s : State} {h : CmdHdr} {bank i : Nat} (htakes : s.takes h 0x0805 true = true) (hport : h.target ≤ 511)
include htakes hport

theorem exec_tideRead_entry (hbank : bank < 2) {e : Nat}
    (hentry : ((((s.start h 0x0805).portTide h.target).bank bank).entries)[i]? = some e) :
    exec (.tideRead h bank i) s = (s.start h 0x0805).okFor h 8 e := by
  refine congrArg _ (runCmd_completes htakes ((if_neg (Nat.not_lt.2 hport)).trans ?_))
  rw [if_pos hbank, hentry]
  rfl

theorem exec_tideRead_open
    (hnone : 2 ≤ bank ∨ ((((s.start h 0x0805).portTide h.target).bank bank).entries)[i]? = none) :
    let d := (s.start h 0x0805).draw
    exec (.tideRead h bank i) s = d.2.okFor h 8 (d.1 % 2 ^ 64) := by
  have hread : (if bank < 2 then ((((s.start h 0x0805).portTide h.target).bank bank).entries)[i]? else none) = none := by
    rcases hnone with hbank | hentry
    · exact if_neg (Nat.not_lt.2 hbank)
    · rw [hentry, ite_self]
  refine congrArg _ (runCmd_completes htakes ((if_neg (Nat.not_lt.2 hport)).trans ?_))
  rw [hread]
  rfl
end

/-! ### TIDE_PORT_CFG (R386) -/

/-- The register word of TIDE_PORT_CFG of port p taken as v. -/
abbrev cfgWritten (p v : Nat) (s : State) : State := s.wr (Reg.TIDE_PORT_CFG (p / 8) (p % 8)) (BitVec.ofNat 32 (v % 4))

/-- The word of TIDE_PORT_CFG of port p with LIST_EN as b. -/
abbrev listEnWord (s : State) (p b : Nat) : Nat := withBits 0 0 b (s.rd (Reg.TIDE_PORT_CFG (p / 8) (p % 8))).toNat

theorem bit_listEnWord (s : State) (p b : Nat) : bit 0 (listEnWord s p b) = bit 0 b := testBit_withBits 0 0 b _ 0 (Nat.le_refl 0)

section
variable {s : State} {p v : Nat}

/-- A write that leaves LIST_EN as it was writes the register alone. -/
theorem portCfgWrite_same (hsame : s.flag (Reg.TIDE_PORT_CFG (p / 8) (p % 8)) Fld.TIDE_PORT_CFG_LIST_EN = bit 0 v) :
    s.portCfgWrite p v = cfgWritten p v s := by
  dsimp only [State.portCfgWrite]
  rw [hsame, if_neg (by simp), if_neg (by simp)]

theorem portCfgWrite_falls (hwas : s.flag (Reg.TIDE_PORT_CFG (p / 8) (p % 8)) Fld.TIDE_PORT_CFG_LIST_EN = true) (hv : bit 0 v = false) :
    let u := (cfgWritten p v s).setTideState p 0
    s.portCfgWrite p v = if p % 32 = 0 then u.park (p / 32) u.nowC true else u := by
  dsimp only [State.portCfgWrite]
  rw [if_pos (by rw [hwas, hv]; rfl)]

/-- LIST_EN rising takes up an active bank at its next cycle start, no earlier than the resume time; without one only the register changes. -/
theorem portCfgWrite_rises (hwas : s.flag (Reg.TIDE_PORT_CFG (p / 8) (p % 8)) Fld.TIDE_PORT_CFG_LIST_EN = false) (hv : bit 0 v = true) :
    let u := cfgWritten p v s
    s.portCfgWrite p v =
      if (s.portTide p).hasActive then (u.setTideState p 1).setCycle p ((u.activeBank p).cycleFrom (max u.nowC u.resumeC)) else u := by
  dsimp only [State.portCfgWrite]
  rw [hwas, hv, if_neg (by simp)]
  rfl
end

/-! ### The rows that write a register, on a free page (R375, R386, R403) -/

section
variable {s : State} {p : Nat} (hheld : s.pwr.held = false) (hbusy : s.pageBusy (pg 8 (p / 8)) = false)
include hheld hbusy

theorem exec_tideListDisable : exec (.tideListDisable p) s = .next (s.portCfgWrite p (listEnWord s p 0)) :=
  congrArg _ (onPage_free hheld hbusy _)

theorem exec_tideListEnable : exec (.tideListEnable p) s = .next (s.portCfgWrite p (listEnWord s p 1)) :=
  congrArg _ (onPage_free hheld hbusy _)

theorem exec_shaperWrite (c v : Nat) : exec (.shaperWrite p c v) s = .next (s.shpWrite p c v) :=
  congrArg _ (onPage_free hheld hbusy _)
end

theorem exec_tideCntClear {s : State} {t : Nat} (hheld : s.pwr.held = false) (hbusy : s.pageBusy (pg 8 t) = false) :
    exec (.tideCntClear t) s = .next (s.clearCnts (pg 8 t)) :=
  congrArg _ (onPage_free hheld hbusy _)

/-- Settles O14, row by row: a boundary and a launch by what is found at their time, a command by its operands after its start, and a register write
by what it changes on a free page. -/
theorem tideCompletes : Obligations.TideCompletes := by
  unfold Obligations.TideCompletes
  refine ⟨?boundary, ?launch, ?load, ?cancel, ?stop, ?launchSet, ?read, ?portCfg,
    fun s p c v hheld hbusy => exec_shaperWrite hheld hbusy c v, fun s t hheld hbusy => exec_tideCntClear hheld hbusy⟩
  case boundary =>
    exact fun s p => ⟨rfl, fun _ => rfl, fun _ => congrArg Host.Outcome.next (listError_active s p),
      fun _ => congrArg Host.Outcome.next (listError_shadow s p)⟩
  case launch =>
    intro s p e l hfirst
    exact ⟨exec_launch_skipped hfirst, fun hacts => ⟨exec_launch_waits hfirst hacts, fun hfree =>
      ⟨exec_launch_empty hfirst hacts, exec_launch_starts hfirst hacts hfree⟩⟩⟩
  case load =>
    intro s h off htakes
    exact ⟨fun htarget _ _ _ => exec_tideLoad_commits htakes htarget, fun htarget _ => exec_tideLoad_fails htakes htarget,
      fun hne => congrArg _ (runCmd_completes htakes (if_pos hne))⟩
  case cancel =>
    intro s h htakes
    exact ⟨fun hport => congrArg _ (runCmd_completes htakes (if_neg (Nat.not_lt.2 hport))),
      fun hport => congrArg _ (runCmd_completes htakes (if_pos hport))⟩
  case stop =>
    intro s h time htakes
    refine ⟨fun hport hactive => ?_, fun hport hnone => ?_, fun hport => congrArg _ (runCmd_completes htakes (if_pos hport))⟩
    · rw [exec_tideStop_onPort htakes hport, if_pos hactive]
    · rw [exec_tideStop_onPort htakes hport, if_neg (Bool.eq_false_iff.1 hnone)]
  case launchSet =>
    intro s h e act time period htakes
    exact ⟨fun hport => congrArg _ (runCmd_completes htakes (if_pos hport)), fun hport => exec_launchSet_open htakes hport,
      exec_launchSet_deletes htakes, exec_launchSet_sets htakes, exec_launchSet_tooSoon htakes⟩
  case read =>
    intro s h bank i htakes
    exact ⟨fun hport => congrArg _ (runCmd_completes htakes (if_pos hport)), fun hport hbank _ => exec_tideRead_entry htakes hport hbank,
      exec_tideRead_open htakes⟩
  case portCfg =>
    intro s p hheld hbusy reg wr
    have hoff := bit_listEnWord s p 0
    have hon := bit_listEnWord s p 1
    rw [exec_tideListDisable hheld hbusy, exec_tideListEnable hheld hbusy]
    refine ⟨fun hwas => ?_, fun hwas => ?_⟩
    · rw [portCfgWrite_falls hwas hoff, portCfgWrite_same (hwas.trans hon.symm)]
      exact ⟨fun hfirst => by rw [if_pos hfirst], fun hother => by rw [if_neg hother], rfl⟩
    · rw [portCfgWrite_same (hwas.trans hoff.symm), portCfgWrite_rises hwas hon]
      exact ⟨rfl, fun hactive => by rw [if_pos hactive], fun hnone => by rw [if_neg (Bool.eq_false_iff.1 hnone)]⟩

end Sys2Proof.TideRows
end

section
/-! PROOFS. O15: the causeway engines (chapter 9, R458–R465, R470). -/
namespace Sys2Proof.CausewayRows
open Sys2Proof Sys2Proof.Machine Sys2Proof.HostPort Sys2Proof.TimeMessages

/-! ### CW_TAKEOVER (R464) -/

theorem exec_cwTakeover_swaps {s : State} {n t : Nat} (hpending : s.cwTakeover n = some t) (hstill : s.tideState (32 * n) ≠ 2)
    (hown : s.sameTakeover n = false) : exec (.cwTakeover n) s = .next ((s.elapseToDev (cToDev t)).cwSwap n) := by
  show execCwTakeover n s = _
  unfold execCwTakeover
  rw [hpending]
  exact if_neg (by simp [hstill, hown])

/-! ### CW_LOAD past its TARGET (R461–R463) -/

section
variable {s : State} {h : CmdHdr} {off : Nat} (htakes : s.takes h 0x0A01 true = true) (htarget : h.target = 0)
include htakes htarget

theorem exec_cwLoad_commits {bs : List (Nat × List Nat)} {g t c : Nat} (hpackage : (s.start h 0x0A01).cwPackage off = .ok (bs, g, t, c)) :
    exec (.cwLoad h off) s = (bs.foldl (fun a b => a.commitMaps g t c b) (s.start h 0x0A01)).okFor h 0x0A := by
  refine congrArg _ (runCmd_completes htakes ((if_neg fun hne => hne htarget).trans ?_))
  rw [hpackage]
  rfl

theorem exec_cwLoad_fails {st : Nat} (hpackage : (s.start h 0x0A01).cwPackage off = .error st) :
    exec (.cwLoad h off) s = .next ((s.start h 0x0A01).complete h 0x0A ⟨st, 0, 0, []⟩) := by
  refine congrArg _ (runCmd_completes htakes ((if_neg fun hne => hne htarget).trans ?_))
  rw [hpackage]
  rfl
end

/-! ### CW_STANDING of an engine that is there (R458–R460) -/

/-- A build (set) or a clearance of the pair that command h names, begun on its engine. -/
abbrev buildBegun (h : CmdHdr) (src dst : Nat) (set : Bool) (a : State) : State :=
  a.setEng h.target { a.eng h.target with builds := (a.eng h.target).builds ++ [⟨src, dst, set, some h, a.time.ticks⟩] }

/-- Does the pair stand on engine n? -/
abbrev stands (a : State) (n src dst : Nat) : Bool := (mapPairs (a.eng n).standing).contains (src, dst)

section
variable {s : State} {h : CmdHdr} {src dst : Nat} (htakes : s.takes h 0x0A02 true = true) (hengine : h.target ≤ 15)
include htakes hengine

theorem exec_cwStanding_open {act : Nat} (hact : 1 < act) :
    let d := (s.start h 0x0A02).draw
    exec (.cwStanding h src dst act) s = .next (d.2.complete h 0x0A ⟨d.1 % 65536, 0, 0, []⟩) :=
  congrArg _ (runCmd_completes htakes ((if_neg (Nat.not_lt.2 hengine)).trans ((if_neg (by omega)).trans (if_neg (by omega)))))

theorem exec_cwStanding_builds (haccepted : (s.start h 0x0A02).standingRefused h.target src dst = none) :
    exec (.cwStanding h src dst 1) s = .next (buildBegun h src dst true (s.start h 0x0A02)) := by
  refine congrArg _ (runCmd_goesOn htakes ((if_neg (Nat.not_lt.2 hengine)).trans ((if_pos rfl).trans ?_)))
  rw [haccepted]

theorem exec_cwStanding_refused {st : Nat} (hrefused : (s.start h 0x0A02).standingRefused h.target src dst = some st) :
    exec (.cwStanding h src dst 1) s = .next ((s.start h 0x0A02).complete h 0x0A ⟨st, 0, 0, []⟩) := by
  refine congrArg _ (runCmd_completes htakes ((if_neg (Nat.not_lt.2 hengine)).trans ((if_pos rfl).trans ?_)))
  rw [hrefused]
  rfl

theorem exec_cwStanding_nothingToClear (hnone : stands (s.start h 0x0A02) h.target src dst = false) :
    exec (.cwStanding h src dst 0) s = (s.start h 0x0A02).okFor h 0x0A :=
  congrArg _ (runCmd_completes htakes ((if_neg (Nat.not_lt.2 hengine)).trans
    ((if_neg Nat.zero_ne_one).trans ((if_pos rfl).trans (if_neg (Bool.eq_false_iff.1 hnone))))))

theorem exec_cwStanding_clears (hstands : stands (s.start h 0x0A02) h.target src dst = true) :
    exec (.cwStanding h src dst 0) s = .next (buildBegun h src dst false (s.start h 0x0A02)) :=
  congrArg _ (runCmd_goesOn htakes ((if_neg (Nat.not_lt.2 hengine)).trans
    ((if_neg Nat.zero_ne_one).trans ((if_pos rfl).trans (if_pos hstands)))))
end

/-! ### STANDING_BUILD_DONE (R458) -/

/-- Engine n with build b through and the builds after it left: the pair stands, or no longer does. -/
abbrev standingKept (n : Nat) (b : CwBuild) (rest : List CwBuild) (u : State) : State :=
  u.setEng n { u.eng n with
    standing := withBits (8 * b.src + 7) (8 * b.src) (if b.set then 32 + b.dst else 0) (u.eng n).standing, builds := rest }

/-- What the end of build b does besides completing a command: 40 µs after its start the pair is kept, the dark slot of its ports begins or ends, and
the build is counted and notified. -/
abbrev buildThrough (n : Nat) (b : CwBuild) (rest : List CwBuild) (s : State) : State :=
  let v := standingKept n b rest (s.elapseToTick (b.startedAt + usTicks 40))
  ((if b.set then v.beginDark n [b.src, b.dst] else v.endDark n v.nowC [b.src, b.dst]).inc (Cnt.CW_BUILDS n)).irq (pg 10 n) 4

section
variable {s : State} {n : Nat} {b : CwBuild} {rest : List CwBuild} (hbuilds : (s.eng n).builds = b :: rest)
include hbuilds

theorem exec_standingBuildDone_completes {h : CmdHdr} (hhdr : b.hdr = some h) :
    exec (.standingBuildDone n) s = (buildThrough n b rest s).okFor h 0x0A := by
  show execStandingBuildDone n s = _
  unfold execStandingBuildDone
  rw [hbuilds]
  dsimp only
  rw [hhdr]
  rfl

theorem exec_standingBuildDone_alone (hhdr : b.hdr = none) : exec (.standingBuildDone n) s = .next (buildThrough n b rest s) := by
  show execStandingBuildDone n s = _
  unfold execStandingBuildDone
  rw [hbuilds]
  dsimp only
  rw [hhdr]
end

/-! ### CW_CNT_CLEAR (R470) -/

theorem exec_cwCntClear {s : State} {n : Nat} (hheld : s.pwr.held = false) (hbusy : s.pageBusy (pg 10 n) = false) :
    exec (.cwCntClear n) s = .next (s.clearCnts (pg 10 n)) :=
  congrArg _ (onPage_free hheld hbusy _)

/-- Settles O15, row by row: a command after its start by its TARGET, its ACTION and what its checks find, and a build's end by whether a command
waits for it. -/
theorem causewayCompletes : Obligations.CausewayCompletes := by
  unfold Obligations.CausewayCompletes
  refine ⟨fun s n t => exec_cwTakeover_swaps, ?load, ?standing,
    fun s n b rest hbuilds => ⟨fun _ => exec_standingBuildDone_completes hbuilds, exec_standingBuildDone_alone hbuilds⟩, ?cancel,
    fun s n => exec_cwCntClear⟩
  case load =>
    intro s h off htakes
    exact ⟨fun htarget _ _ _ _ => exec_cwLoad_commits htakes htarget, fun htarget _ => exec_cwLoad_fails htakes htarget,
      fun hne => congrArg _ (runCmd_completes htakes (if_pos hne))⟩
  case standing =>
    intro s h src dst act htakes
    exact ⟨fun hengine => congrArg _ (runCmd_completes htakes (if_pos hengine)),
      fun hengine => exec_cwStanding_open htakes hengine, exec_cwStanding_builds htakes, fun hengine _ => exec_cwStanding_refused htakes hengine,
      exec_cwStanding_nothingToClear htakes, exec_cwStanding_clears htakes⟩
  case cancel =>
    intro s h htakes
    exact ⟨fun hengine => congrArg _ (runCmd_completes htakes (if_neg (Nat.not_lt.2 hengine))),
      fun hengine => congrArg _ (runCmd_completes htakes (if_pos hengine))⟩

end Sys2Proof.CausewayRows
end

section
/-! PROOFS. O18: laser modules, their light and the identity memories (chapter 9, R411–R420, R466, R471). -/
namespace Sys2Proof.LaserRows
open Sys2Proof Sys2Proof.Machine Sys2Proof.HostPort Sys2Proof.TimeMessages

/-! ### Lines and feeds judged by their readings (R411–R413) -/

section
variable (s : State) (m : Nat)

theorem exec_lineLow (line feed power : Nat) :
    exec (.lineLow m line feed power) s = .next ((((s.setFeed m feed line power).lineWarn m).judgeLine m line).judgeFeeds m) := rfl

theorem exec_lineFail (line : Nat) (powers : List Nat) :
    exec (.lineFail m line powers) s = .next ((((s.setLine m line powers).lineWarn m).judgeLine m line).judgeFeeds m) := rfl

/-- The sixteen readings of a feed stored. -/
abbrev feedRead (feed : Nat) (powers : List Nat) : State :=
  (List.range 16).foldl (fun s k => s.setFeed m feed k (powers.getD k 0x8000 % 65536)) s

theorem exec_feedFault (feed : Nat) (powers : List Nat) :
    exec (.feedFault m feed powers) s =
      .next (((List.range 16).foldl (fun s k => s.judgeLine m k) ((feedRead s m feed powers).lineWarn m)).judgeFeeds m) := rfl
end

/-- The reeds of line k on both engines that module m lights (R405, R412). -/
abbrev moduleReeds (m k : Nat) : List (Nat × Nat) := lineReeds (2 * m) 0 8 k ++ lineReeds (2 * m + 1) 0 8 k

/-- Line k of module m flagged as failed, counted, logged and charged. -/
abbrev lineFlagged (m k : Nat) (s : State) : State :=
  let v := s.setFld (Reg.ELS_STATUS m) Fld.ELS_STATUS_LINE_FAIL (s.fld (Reg.ELS_STATUS m) Fld.ELS_STATUS_LINE_FAIL + 2 ^ k)
  (((v.inc (Cnt.ELS_LINE_FAILS m)).irq (pg 11 m) 3).logErr (pg 11 m) 0x0101 1 (locEls m k)).charge (objLine m k) 12 1

theorem judgeLine_fails {s : State} {m k : Nat} (hlow : ((List.range 4).all fun f => s.below m f k (s.failAt m)) = true)
    (hnew : bit k (s.fld (Reg.ELS_STATUS m) Fld.ELS_STATUS_LINE_FAIL) = false) :
    s.judgeLine m k = (moduleReeds m k).foldl State.reedDark (lineFlagged m k s) :=
  if_neg (by rw [hlow, hnew]; decide)

theorem judgeFeed_darkens {s : State} {m feed : Nat} (hdark : (s.feedLow m feed).feedDark m feed = true)
    (hnew : bit (feed % 2) ((s.feedLow m feed).fld (Reg.OE_STATUS (2 * m + feed / 2)) Fld.OE_STATUS_FEED_DARK) = false) :
    let e := 2 * m + feed / 2
    s.judgeFeed m feed = (((s.feedLow m feed).logErr (pg 9 e) 0x0102 1 (locOeAll e)).irq (pg 9 e) 5).darken m feed :=
  (if_pos hdark).trans (if_neg (Bool.eq_false_iff.1 hnew))

/-! ### LINE_RESTORE (R412, R413) -/

/-- FEED_LOW and FEED_DARK of feed f follow the readings; a dark feed stays flagged. -/
abbrev feedFollows (m : Nat) (s : State) (f : Nat) : State :=
  let x := s.feedLow m f
  if x.feedDark m f then x else x.setFld (Reg.OE_STATUS (2 * m + f / 2)) Fld.OE_STATUS_FEED_DARK
    (withBits (f % 2) (f % 2) 0 (x.fld (Reg.OE_STATUS (2 * m + f / 2)) Fld.OE_STATUS_FEED_DARK))

/-- The state 1 s on with a line's readings stored, and what follows them. -/
abbrev lineReadAgain (m line : Nat) (powers : List Nat) (s : State) : State :=
  (List.range 4).foldl (feedFollows m) (((s.elapse (usTicks 1000000)).setLine m line powers).lineWarn m)

/-- Is a line of module m without a reading, or below WARN, in some feed? -/
abbrev lineStillLow (m line : Nat) (u : State) : Bool :=
  (List.range 4).any fun f => u.fld (feedReg m f line) Fld.OE_FEED_PWR_POWER == 0x8000 ||
    decide (dbm (u.fld (feedReg m f line) Fld.OE_FEED_PWR_POWER) < u.warnAt m)

/-- Line k of module m no longer flagged as failed. -/
abbrev lineUnflagged (m k : Nat) (u : State) : State :=
  u.setFld (Reg.ELS_STATUS m) Fld.ELS_STATUS_LINE_FAIL (withBits k k 0 (u.fld (Reg.ELS_STATUS m) Fld.ELS_STATUS_LINE_FAIL))

section
variable {s : State} {m line : Nat} {powers : List Nat}

theorem exec_lineRestore_low (hlow : lineStillLow m line (lineReadAgain m line powers s) = true) :
    exec (.lineRestore m line powers) s = .next (lineReadAgain m line powers s) :=
  if_pos hlow

theorem exec_lineRestore_restores (hgood : lineStillLow m line (lineReadAgain m line powers s) = false) :
    exec (.lineRestore m line powers) s =
      .next ((moduleReeds m line).foldl State.reedLit (lineUnflagged m line (lineReadAgain m line powers s))) :=
  if_neg (Bool.eq_false_iff.1 hgood)
end

/-! ### The interlock, removal and insertion (R414, R415) -/

/-- Module m turned off by the interlock 1 ms on, counted and logged. -/
abbrev interlocked (m : Nat) (s : State) : State :=
  let u := ((s.elapse (usTicks 1000)).setFld (Reg.ELS_CTRL m) Fld.ELS_CTRL_LASER_EN 0).setFld (Reg.ELS_STATUS m) Fld.ELS_STATUS_INTERLOCK 1
  ((u.inc (Cnt.ELS_INTERLOCKS m)).irq (pg 11 m) 4).logErr (pg 11 m) 0x0103 1 (locElsAll m)

/-- Module m gone: its light off, neither present nor identified, and the removal counted. -/
abbrev removed (m : Nat) (s : State) : State :=
  let u := (s.setFld (Reg.ELS_CTRL m) Fld.ELS_CTRL_LASER_EN 0).lightsOut m
  (((u.setFld (Reg.ELS_STATUS m) Fld.ELS_STATUS_PRESENT 0).setFld (Reg.ELS_STATUS m) Fld.ELS_STATUS_ID_OK 0).inc
    (Cnt.ELS_REMOVALS m)).irq (pg 11 m) 2

section
variable {s : State} {m : Nat}

theorem exec_feedDarkInterlock_lasing (hlasing : s.flag (Reg.ELS_STATUS m) Fld.ELS_STATUS_LASING = true) (feed : Nat) :
    exec (.feedDarkInterlock m feed) s = .next (((interlocked m s).darken m feed).lightsOut m) :=
  if_pos hlasing

theorem exec_feedDarkInterlock_unlit (hunlit : s.flag (Reg.ELS_STATUS m) Fld.ELS_STATUS_LASING = false) (feed : Nat) :
    exec (.feedDarkInterlock m feed) s = .next s :=
  if_neg (Bool.eq_false_iff.1 hunlit)

section
variable (hpresent : s.flag (Reg.ELS_STATUS m) Fld.ELS_STATUS_PRESENT = true)
include hpresent

/-- The removal is logged where the module lased before it. -/
theorem exec_elsRemoval_present :
    exec (.elsRemoval m) s = .next (if s.flag (Reg.ELS_STATUS m) Fld.ELS_STATUS_LASING
      then (removed m s).logErr (pg 11 m) 0x0102 1 (locElsAll m) else removed m s) :=
  if_pos hpresent

theorem exec_elsInsertion_present : exec (.elsInsertion m) s = .next s := if_pos hpresent
end

section
variable (habsent : s.flag (Reg.ELS_STATUS m) Fld.ELS_STATUS_PRESENT = false)
include habsent

theorem exec_elsRemoval_absent : exec (.elsRemoval m) s = .next s := if_neg (Bool.eq_false_iff.1 habsent)

theorem exec_elsInsertion_absent :
    exec (.elsInsertion m) s = .next (((s.setFld (Reg.ELS_STATUS m) Fld.ELS_STATUS_PRESENT 1).inc (Cnt.ELS_INSERTIONS m)).irq (pg 11 m) 2) :=
  if_neg (Bool.eq_false_iff.1 habsent)
end

/-! ### ELS_CTRL and the light that follows it (R415, R416, R471) -/

theorem exec_laserEnable (hheld : s.pwr.held = false) (hbusy : s.pageBusy (pg 11 m) = false) :
    exec (.laserEnable m) s = .next (s.elsCtrlWrite m (withBits 2 2 0 (withBits 0 0 1 (s.rd (Reg.ELS_CTRL m)).toNat))) :=
  congrArg _ (onPage_free hheld hbusy _)

theorem exec_elsCntClear (hheld : s.pwr.held = false) (hbusy : s.pageBusy (pg 11 m) = false) :
    exec (.elsCntClear m) s = .next (s.clearCnts (pg 11 m)) :=
  congrArg _ (onPage_free hheld hbusy _)

theorem laserOn_taken (hpresent : s.flag (Reg.ELS_STATUS m) Fld.ELS_STATUS_PRESENT = true)
    (hgood : s.flag (Reg.ELS_STATUS m) Fld.ELS_STATUS_ID_OK = true) (hclear : s.flag (Reg.ELS_STATUS m) Fld.ELS_STATUS_INTERLOCK = false) :
    s.laserOn m = s.setFld (Reg.ELS_CTRL m) Fld.ELS_CTRL_LASER_EN 1 :=
  if_pos (by rw [hpresent, hgood, hclear]; decide)

/-- Engine e lit: no feed dark, and every reed but those of the failed lines back to lock. -/
abbrev engineLit (failed : Nat) (s : State) (e : Nat) : State :=
  (List.range 32).foldl (fun s l => (List.range 4).foldl (fun s r =>
    if bit (4 * (l % 4) + r) failed then s else (s.reedLit (32 * e + l, r)).ringStart (32 * e + l) r) s)
    (s.setFld (Reg.OE_STATUS e) Fld.OE_STATUS_FEED_DARK 0)

theorem exec_laserLightOn_lights (hon : s.flag (Reg.ELS_CTRL m) Fld.ELS_CTRL_LASER_EN = true)
    (hunlit : s.flag (Reg.ELS_STATUS m) Fld.ELS_STATUS_LASING = false) :
    let u := s.setFld (Reg.ELS_STATUS m) Fld.ELS_STATUS_LASING 1
    exec (.laserLightOn m) s = .next ([2 * m, 2 * m + 1].foldl (engineLit (u.fld (Reg.ELS_STATUS m) Fld.ELS_STATUS_LINE_FAIL)) u) :=
  if_pos (by rw [hon, hunlit]; decide)
end

/-! ### Identity memories (R418, R466) -/

/-- Does the record of engine or module w stand as good? -/
abbrev identityGood (w : Nat) (u : State) : Bool :=
  if w < 16 then u.flag (Reg.OE_STATUS w) Fld.OE_STATUS_ID_OK else u.flag (Reg.ELS_STATUS (w - 16)) Fld.ELS_STATUS_ID_OK

/-- The ID_READ commands that wait, apart by whether they wait for the memory of w. -/
abbrev readsOf (w : Nat) (u : State) : List CmdHdr × List CmdHdr := u.optics.idReads.partition fun h => h.target == w

theorem exec_identityReadDone (s : State) (w : Nat) (record : List Byte) :
    let u := s.identityRead w record
    exec (.identityReadDone w record) s = .next ((readsOf w u).1.foldl (fun s h => s.complete h 9 ⟨0, b2n (identityGood w u), 0, []⟩)
      { u with optics := { u.optics with idReads := (readsOf w u).2 } }) := rfl

section
variable {s : State} {h : CmdHdr} (htakes : s.takes h 0x0903 true = true)
include htakes

theorem exec_idRead_waits (hmemory : h.target ≤ 23) :
    let a := s.start h 0x0903
    exec (.idRead h) s = .next { a with optics := { a.optics with idReads := a.optics.idReads ++ [h] } } :=
  congrArg _ (runCmd_goesOn htakes (if_neg (Nat.not_lt.2 hmemory)))

theorem exec_idRead_open (hnone : 23 < h.target) :
    let d := (s.start h 0x0903).draw
    exec (.idRead h) s = .next (d.2.complete h 9 ⟨d.1 % 65536, 0, 0, []⟩) :=
  congrArg _ (runCmd_completes htakes (if_pos hnone))
end

/-- Settles O18, row by row: readings are stored and judged, and the module's light, presence and identity choose what else a row does. -/
theorem laserModulesComplete : Obligations.LaserModulesComplete := by
  unfold Obligations.LaserModulesComplete
  refine ⟨exec_lineLow, exec_lineFail, exec_feedFault, fun s m k => judgeLine_fails, fun s m feed => judgeFeed_darkens,
    fun s m line powers => ⟨exec_lineRestore_low, exec_lineRestore_restores⟩, ?interlock, ?presence,
    fun s m => exec_laserEnable, fun s m => laserOn_taken, fun s m => exec_laserLightOn_lights, exec_identityReadDone,
    fun s h htakes => ⟨exec_idRead_waits htakes, exec_idRead_open htakes⟩, fun s m => exec_elsCntClear⟩
  case interlock =>
    exact fun s m feed => ⟨fun hlasing => exec_feedDarkInterlock_lasing hlasing feed, fun hunlit => exec_feedDarkInterlock_unlit hunlit feed⟩
  case presence =>
    exact fun s m => ⟨fun hpresent => ⟨exec_elsRemoval_present hpresent, exec_elsInsertion_present hpresent⟩,
      fun habsent => ⟨exec_elsRemoval_absent habsent, exec_elsInsertion_absent habsent⟩⟩

end Sys2Proof.LaserRows
end

section
/-! PROOFS. O19: rings and reeds (chapter 9, R423–R430, R437, R466–R469, R840). -/
namespace Sys2Proof.RingRows
open Sys2Proof Sys2Proof.Machine Sys2Proof.HostPort Sys2Proof.TimeMessages

section
variable {s : State} {p r : Nat} {tx : Bool}

/-- The receive ring of an occupied port holds (R430): a row that passes it over acts on a transmit ring, or on a port not occupied. -/
theorem ring_notHeld (hfree : tx = true ∨ s.occupied p = false) : (!tx && s.occupied p) = false := by
  rcases hfree with htx | hfree
  · rw [htx]; rfl
  · rw [hfree, Bool.and_false]

/-! ### RING_IDENTITY_FAIL (R423, R424, R430) -/

/-- A ring's wrong identity counted and logged, the ring relocking and its reed out of service. -/
abbrev misidentified (p r : Nat) (tx : Bool) (u : State) : State :=
  (((u.inc (Cnt.OE_ID_MISMATCH (p / 32))).logErr (pgOe p) 0x0101 0 (locRing p r tx)).relockBegins p r tx).setLive p r false

section
variable (hring : s.ring p r tx = 2 ∨ s.ring p r tx = 3)
include hring

theorem exec_ringIdentityFail_tx (htx : tx = true) (tone : Option Nat) :
    exec (.ringIdentityFail p r tx tone) s = .next (misidentified p r tx s) := by
  subst htx
  refine (if_neg (by simp; omega)).trans ?_
  cases tone <;> rfl

section
variable (htx : tx = false) (hfree : s.occupied p = false) (hcheck : s.flag (Reg.OE_CTRL (p / 32)) Fld.OE_CTRL_TONE_CHECK = true)
include htx hfree hcheck

theorem exec_ringIdentityFail_silent : exec (.ringIdentityFail p r tx none) s = .next (misidentified p r tx s) := by
  subst htx
  exact if_neg (by simp [hfree, hcheck]; omega)

theorem exec_ringIdentityFail_tone (t : Nat) :
    exec (.ringIdentityFail p r tx (some t)) s = .next (misidentified p r tx (s.setFld (reedReg p r) Fld.OE_REED_RX_TONE (t % 16))) := by
  subst htx
  exact if_neg (by simp [hfree, hcheck]; omega)
end
end

/-! ### RELOCK_DONE (R425, R426, R430) -/

/-- One more failure of the reed counted. -/
abbrev failureCounted (p r : Nat) (s : State) : State := s.setFld (reedReg p r) Fld.OE_REED_FAILS (s.fld (reedReg p r) Fld.OE_REED_FAILS + 1)

/-- A reed disabled in both directions, counted, logged and charged. -/
abbrev reedDisabled (p r : Nat) (tx : Bool) (u : State) : State :=
  ((((((u.setLive p r false).chargeReed p r 10).setRing p r true 5).setRing p r false 5).inc (Cnt.OE_REEDS_DISABLED (p / 32))).irq
    (pgOe p) 3).logErr (pgOe p) 0x0100 1 (locRing p r tx)

/-- A ring locked, a receive ring with its tone, and the time of lock kept. -/
abbrev ringLocked (p r : Nat) (tx : Bool) (tone : Nat) (s : State) : State :=
  let v := if tx then s.setRing p r tx 2 else (s.setRing p r tx 2).setFld (reedReg p r) Fld.OE_REED_RX_TONE tone
  { v with optics := { v.optics with lockAt := Tbl.set v.optics.lockAt 0 (4 * p + r) (v.time.ticks + 1) } }

/-- Is the reed locked in both directions with no first lock of its logical port kept yet? -/
abbrev locksPort (p r : Nat) (w : State) : Bool := w.reedLocked p r && Tbl.getD w.optics.firstLock 0 (w.reedPort p r) == 0

/-- The time of the first lock of the reed's logical port kept. -/
abbrev firstLockKept (p r : Nat) (w : State) : State :=
  { w with optics := { w.optics with firstLock := Tbl.set w.optics.firstLock 0 (w.reedPort p r) (w.time.ticks + 1) } }

section
variable {tone : Nat} (hsweeps : s.ring p r tx = 1) (hfree : tx = true ∨ s.occupied p = false)
include hsweeps hfree

theorem relockDone_acts : ¬(s.ring p r tx != 1 || (!tx && s.occupied p)) = true := by
  rw [hsweeps, ring_notHeld hfree]
  decide

theorem exec_relockDone_unlit (hunlit : s.causeLaser p r = true) (locked : Bool) :
    exec (.relockDone p r tx locked tone) s = .next (s.setRing p r tx 0) :=
  (if_neg (relockDone_acts hsweeps hfree)).trans (if_pos hunlit)

variable (hlit : s.causeLaser p r = false)
include hlit

theorem exec_relockDone_locked :
    let w := ringLocked p r tx tone s
    exec (.relockDone p r tx true tone) s = if locksPort p r w then .next (firstLockKept p r w) else .next w :=
  (if_neg (relockDone_acts hsweeps hfree)).trans ((if_neg (Bool.eq_false_iff.1 hlit)).trans (if_pos rfl))

theorem exec_relockDone_failed :
    let u := failureCounted p r s
    exec (.relockDone p r tx false tone) s =
      if s.fld (reedReg p r) Fld.OE_REED_FAILS + 1 < 3 then .next (u.relockBegins p r tx) else .next (reedDisabled p r tx u).settleReeds :=
  (if_neg (relockDone_acts hsweeps hfree)).trans ((if_neg (Bool.eq_false_iff.1 hlit)).trans (if_neg Bool.false_ne_true))
end

/-! ### Slips and the end of three failures (R426, R429) -/

theorem exec_ringSlip_slips (hfree : tx = true ∨ s.occupied p = false) (hlocked : s.ring p r tx = 2) :
    let u := s.elapse (nsTicks (100 * s.fld (Reg.OE_SLIP (p / 32)) Fld.OE_SLIP_DWELL))
    exec (.ringSlip p r tx) s = .next ((((u.setRing p r tx 3).inc (Cnt.OE_SLIPS (p / 32))).irq (pgOe p) 4).chargeReed p r 7) :=
  if_neg (by simp [hlocked, ring_notHeld hfree])

theorem exec_slipEnd_locks (hfree : tx = true ∨ s.occupied p = false) (hslips : s.ring p r tx = 3) :
    exec (.slipEnd p r tx) s = .next ((s.elapse (usTicks 10)).setRing p r tx 2) :=
  if_pos ⟨hslips, by simpa using hfree⟩

theorem exec_failsReset_clears {t : Nat} (hat : Tbl.getD s.optics.lockAt 0 (4 * p + r) = t + 1) (hlocked : s.reedLocked p r = true) :
    exec (.failsReset p r) s = .next ((s.elapseToTick (t + usTicks 1000000)).setFld (reedReg p r) Fld.OE_REED_FAILS 0) := by
  show execFailsReset p r s = _
  unfold execFailsReset
  rw [hat]
  exact if_pos hlocked

/-! ### REED_LIGHT_LOSS (R437) -/

theorem exec_reedLightLoss_acts (htimers : s.timersHeld p = false) :
    exec (.reedLightLoss p r) s = .next ((((s.elapse (usTicks 10)).setLive p r false).setGate p r false).abortReed p r) :=
  if_neg (Bool.eq_false_iff.1 htimers)
end

/-! ### CX_POWER_PUBLISH (R428, R840) -/

/-- The package power published at the next sample. -/
abbrev powerPublished (power : Nat) (s : State) : State := (s.nextSample 1).setFld Reg.PWR_CX_POWER Fld.PWR_CX_POWER_POWER power

/-- The feed-forward of engine n's heater for a published power: none without FF_EN. -/
abbrev feedForward (power : Nat) (u : State) (n : Nat) : Int :=
  if u.flag (Reg.OE_CTRL n) Fld.OE_CTRL_FF_EN then toSigned 16 (u.fld (Reg.OE_FF_COEF n) Fld.OE_FF_COEF_COEF) * ((power : Int) - u.optics.pref) else 0

theorem exec_cxPowerPublish (s : State) (power : Nat) (settled : Bool) :
    let u := powerPublished power s
    exec (.cxPowerPublish power settled) s = .next { u with optics := { u.optics with
      heater := (List.range 16).foldl (fun t n => Tbl.set t 0 n (feedForward power u n)) u.optics.heater
      pref := if settled then power else u.optics.pref } } := rfl

/-! ### REED_RETRY (R425, R466, R467) -/

/-- Has port p live reeds, and are all of them among rs (R467)? -/
abbrev allLive (a : State) (p : Nat) (rs : List Nat) : Bool := !(a.livePort p).isEmpty && (a.livePort p).all (rs.contains ·)

/-- Reed r of port p out of service and relocking in both directions, its failures and LOW_MARGIN cleared and its gate open. -/
abbrev reedRetried (p : Nat) (s : State) (r : Nat) : State :=
  (((((s.setFld (reedReg p r) Fld.OE_REED_FAILS 0).setFld (reedReg p r) Fld.OE_REED_LOW_MARGIN 0).setLive p r false).relockBegins
    p r true).setRing p r false 1).setGate p r true

section
variable {s : State} {h : CmdHdr} {mask : Nat} (htakes : s.takes h 0x0901 true = true)
include htakes

theorem exec_reedRetry_noLink (hout : (s.start h 0x0901).noLink h.target = true) :
    exec (.reedRetry h mask) s = .next ((s.start h 0x0901).complete h 9 ⟨0x0100, 0, 0, []⟩) :=
  congrArg _ (runCmd_completes htakes (if_pos hout))

variable (hlink : (s.start h 0x0901).noLink h.target = false)
include hlink

theorem exec_reedRetry_lastReed (hlast : allLive (s.start h 0x0901) h.target (bitList 4 mask) = true) :
    exec (.reedRetry h mask) s = .next ((s.start h 0x0901).complete h 9 ⟨0x0101, 0, 0, []⟩) :=
  congrArg _ (runCmd_completes htakes ((if_neg (Bool.eq_false_iff.1 hlink)).trans (if_pos hlast)))

variable (hleft : allLive (s.start h 0x0901) h.target (bitList 4 mask) = false)
include hleft

theorem exec_reedRetry_none (hnone : (bitList 4 mask).isEmpty = true) :
    exec (.reedRetry h mask) s = ((bitList 4 mask).foldl (reedRetried h.target) (s.start h 0x0901)).okFor h 9 :=
  congrArg _ (runCmd_completes htakes ((if_neg (Bool.eq_false_iff.1 hlink)).trans ((if_neg (Bool.eq_false_iff.1 hleft)).trans (if_pos hnone))))

theorem exec_reedRetry_waits (hsome : (bitList 4 mask).isEmpty = false) :
    let u := (bitList 4 mask).foldl (reedRetried h.target) (s.start h 0x0901)
    exec (.reedRetry h mask) s =
      .next { u with optics := { u.optics with reedCmds := u.optics.reedCmds ++ [(h, h.target, mask % 16)] } } :=
  congrArg _ (runCmd_goesOn htakes ((if_neg (Bool.eq_false_iff.1 hlink)).trans ((if_neg (Bool.eq_false_iff.1 hleft)).trans
    (if_neg (Bool.eq_false_iff.1 hsome)))))
end

/-! ### OE_CNT_CLEAR (R469) -/

theorem exec_oeCntClear {s : State} {n : Nat} (hheld : s.pwr.held = false) (hbusy : s.pageBusy (pg 9 n) = false) :
    exec (.oeCntClear n) s = .next (s.clearCnts (pg 9 n)) :=
  congrArg _ (onPage_free hheld hbusy _)

/-- Settles O19, row by row: the state of the ring and whether its port is occupied choose what a row does, and REED_RETRY after its start goes by its
port's link and the live reeds it names. -/
theorem ringsAndReedsComplete : Obligations.RingsAndReedsComplete := by
  unfold Obligations.RingsAndReedsComplete
  refine ⟨?identity, ?relock, fun s p r tx hfree => ⟨exec_ringSlip_slips hfree, exec_slipEnd_locks hfree⟩,
    fun s p r t => exec_failsReset_clears, fun s p r => exec_reedLightLoss_acts, exec_cxPowerPublish, ?retry, fun s n => exec_oeCntClear⟩
  case identity =>
    intro s p r tx tone hring
    refine ⟨fun htx => exec_ringIdentityFail_tx hring htx tone, fun htx hfree hcheck => ⟨?_, ?_⟩⟩
    · rintro rfl
      exact exec_ringIdentityFail_silent hring htx hfree hcheck
    · rintro t rfl
      exact exec_ringIdentityFail_tone hring htx hfree hcheck t
  case relock =>
    intro s p r tone tx hsweeps hfree
    refine ⟨exec_relockDone_unlit hsweeps hfree, fun hlit => ?_⟩
    rw [exec_relockDone_locked hsweeps hfree hlit, exec_relockDone_failed hsweeps hfree hlit]
    exact ⟨fun hfirst => if_pos hfirst, fun hlater => if_neg (Bool.eq_false_iff.1 hlater), fun hfew => if_pos hfew,
      fun hthird => if_neg (Nat.not_lt.2 hthird)⟩
  case retry =>
    intro s h mask htakes
    exact ⟨exec_reedRetry_noLink htakes, exec_reedRetry_lastReed htakes, exec_reedRetry_none htakes, exec_reedRetry_waits htakes⟩

end Sys2Proof.RingRows
end

section
/-! PROOFS. O20: margin tests (chapter 9, R432–R435, R466, R467). -/
namespace Sys2Proof.MarginRows
open Sys2Proof Sys2Proof.Machine Sys2Proof.TimeMessages Sys2Proof.LinkFrames Sys2Proof.RingRows

/-! ### MARGIN_TEST_START (R432) -/

/-- The locked reeds of a logical port that are not live and are due: a LOW_MARGIN one after a fresh entry to UP, and none that waits for a retry. -/
abbrev dueReeds (s : State) (lp : Nat) : List Nat :=
  (s.testable lp).filter fun r => !s.flag (reedReg (lp2p lp) r) Fld.OE_REED_LIVE &&
    (Tbl.getD s.optics.upFresh false lp || !s.flag (reedReg (lp2p lp) r) Fld.OE_REED_LOW_MARGIN) &&
    !s.optics.retries.any fun x => x.1 == lp && bit r x.2.1

/-- The entry to UP of a link no longer fresh. -/
abbrev entryTaken (lp : Nat) (s : State) : State := { s with optics := { s.optics with upFresh := Tbl.set s.optics.upFresh false lp false } }

/-- The first live reed of a logical port that is PROVISIONAL. -/
abbrev provisional (lp : Nat) (u : State) : Option Nat :=
  (u.liveReeds lp).find? fun r => u.flag (reedReg (lp2p lp) r) Fld.OE_REED_PROVISIONAL

/-- What becomes of the first PROVISIONAL reed, if there is one: it is tested while another reed stays live. -/
def provisionalTested (lp : Nat) (u : State) : Option Nat → Result
  | some r => if 1 < (u.liveReeds lp).length then .next (u.startTest lp (2 ^ r)) else .next u
  | none => .next u

theorem provisionalTested_alone {lp : Nat} {u : State} (halone : (u.liveReeds lp).length ≤ 1) (x : Option Nat) :
    provisionalTested lp u x = .next u := by
  cases x with
  | none => rfl
  | some r => exact if_neg (Nat.not_lt.2 halone)

section
variable {s : State} {lp : Nat} (hup : (s.link lp).st = .up) (hidle : s.testOf lp = none)
include hup hidle

theorem marginTestStart_acts : ¬((s.link lp).st ≠ .up ∨ (s.testOf lp).isSome = true) := by simp [hup, hidle]

theorem exec_marginTestStart_due (hdue : (dueReeds s lp).isEmpty = false) :
    exec (.marginTestStart lp) s = .next ((entryTaken lp s).startTest lp (bitsOf (dueReeds s lp))) :=
  (if_neg (marginTestStart_acts hup hidle)).trans (if_pos (by rw [hdue]; rfl))

section
variable (hnone : (dueReeds s lp).isEmpty = true)
include hnone

theorem exec_marginTestStart_noneDue :
    exec (.marginTestStart lp) s = provisionalTested lp (entryTaken lp s) (provisional lp (entryTaken lp s)) :=
  (if_neg (marginTestStart_acts hup hidle)).trans (if_neg (by rw [hnone]; decide))

theorem exec_marginTestStart_provisional {r : Nat} (hprov : provisional lp (entryTaken lp s) = some r)
    (hother : 1 < ((entryTaken lp s).liveReeds lp).length) :
    exec (.marginTestStart lp) s = .next ((entryTaken lp s).startTest lp (2 ^ r)) := by
  rw [exec_marginTestStart_noneDue hup hidle hnone, hprov]
  exact if_pos hother

theorem exec_marginTestStart_nothing
    (hstays : provisional lp (entryTaken lp s) = none ∨ ((entryTaken lp s).liveReeds lp).length ≤ 1) :
    exec (.marginTestStart lp) s = .next (entryTaken lp s) := by
  rw [exec_marginTestStart_noneDue hup hidle hnone]
  rcases hstays with hprov | halone
  · rw [hprov]
    rfl
  · exact provisionalTested_alone halone _
end
end

/-! ### MARGIN frames (R433–R435) -/

/-- A MARGIN frame on a link in UP or SLUICE acts after its ACK_SEQ, if its OP is the row's. -/
theorem marginRx_up {s : State} {lp : Nat} {hd body : List Byte} (hup : (s.link lp).st.isUp = true) (hlight : s.ignoresLight (lp2p lp) = false)
    (hgood : hdrGood hd = true) (htype : hdrType hd = 2) (hkind : ctlKind body = 6) (op : Nat) (f : Nat → Nat → State → State) :
    s.marginRx lp op hd body false f =
      if beAt 4 1 body = op then f (beAt 5 1 body % 16) (beAt 6 1 body) (ackTaken lp hd s) else ackTaken lp hd s :=
  controlRx_up hlight hgood htype hup hkind _

/-! ### The far end's report of a step (R434) -/

/-- The reeds of a test that stop at this step: with 510 errors, or at attenuation 48. -/
abbrev stepStops (t : MarginTest) (errors : List Nat) : List Nat :=
  (bitList 4 t.stepping).filter fun r => decide (510 ≤ errors.getD r 0) || t.s == 48

/-- The margins of a test after this step. -/
abbrev stepMargins (t : MarginTest) (errors : List Nat) : List Nat :=
  (List.range 4).map fun r => if (stepStops t errors).contains r then t.s - 1 else t.margins.getD r 0xFF

/-- The reeds of a test that go on past this step. -/
abbrev stepLeft (t : MarginTest) (errors : List Nat) : List Nat :=
  (bitList 4 t.stepping).filter fun r => !(stepStops t errors).contains r

section
variable {s : State} {lp : Nat} {errors : List Nat} {t : MarginTest} {rest : List MarginTest} (htest : s.testOf lp = some (t, rest))
include htest

theorem marginReport_unfit {reeds atten : Nat} (hunfit : t.reeds ≠ reeds ∨ t.s ≠ atten) : s.marginReport lp reeds atten errors = s := by
  dsimp only [State.marginReport]
  rw [htest]
  exact if_pos hunfit

theorem marginReport_ends (hleft : (stepLeft t errors).isEmpty = true) :
    let margins := stepMargins t errors
    let u := s.sendMargin lp 3 t.reeds 0 [] ((List.range 4).map fun r => if bit r t.reeds && !bit r t.aborted then margins.getD r 0 else 0)
    s.marginReport lp t.reeds t.s errors = ((bitList 4 t.reeds).foldl (fun s r =>
      if bit r t.aborted then s.setFld (reedReg (lp2p lp) r) Fld.OE_REED_ATTEN 0 else s.judgeReed (lp2p lp) r (margins.getD r 0))
      (u.setTests rest)).settleRuns.settleReeds := by
  dsimp only [State.marginReport]
  rw [htest]
  exact (if_neg (by simp)).trans (if_pos hleft)

theorem marginReport_steps (hleft : (stepLeft t errors).isEmpty = false) :
    let v := (s.attenuate (lp2p lp) (bitsOf (stepStops t errors)) 0).attenuate (lp2p lp) (bitsOf (stepLeft t errors)) (t.s + 1)
    s.marginReport lp t.reeds t.s errors = (v.setTests (rest ++ [{ t with
      stepping := bitsOf (stepLeft t errors), s := t.s + 1, margins := stepMargins t errors, sentAt := v.time.ticks }])).sendMargin
        lp 1 t.reeds (t.s + 1) [] [] := by
  dsimp only [State.marginReport]
  rw [htest]
  exact (if_neg (by simp)).trans (if_neg (Bool.eq_false_iff.1 hleft))
end

/-! ### The end of a dwell, of the wait for a REPORT, and of the wait for a retry (R434, R435, R467) -/

theorem exec_marginDwellEnd_reports {s : State} {lp x : Nat} (hfar : Tbl.getD s.optics.farTests 0 lp = x + 1) (errors : List Nat) :
    let u := s.elapse (usTicks 20)
    let es := (List.range 4).map fun r => if bit r (x / 256) then errors.getD r 0 % 2 ^ 32 else 0
    exec (.marginDwellEnd lp errors) s = .next (({ u with optics := { u.optics with
      farTests := Tbl.del u.optics.farTests lp } } : State).sendMargin lp 2 (x / 256) (x % 256) es []) := by
  show execMarginDwellEnd lp errors s = _
  unfold execMarginDwellEnd
  rw [hfar]

/-- Test t of lp over for want of a REPORT 100 µs after its STEP: its reeds at attenuation 0. -/
abbrev reportMissed (lp : Nat) (t : MarginTest) (rest : List MarginTest) (s : State) : State :=
  ((s.elapseToTick (t.sentAt + usTicks 100)).setTests rest).attenuate (lp2p lp) t.reeds 0

theorem exec_marginReportTimeout_ends {s : State} {lp : Nat} {t : MarginTest} {rest : List MarginTest} (htest : s.testOf lp = some (t, rest)) :
    let u := reportMissed lp t rest s
    let onPort := fun (c : CmdHdr × Nat × Nat) => c.2.1 == lp2p lp
    let v : State := { u with optics := { u.optics with
      retries := u.optics.retries ++ [(lp, t.reeds, u.time.ticks)], runCmds := u.optics.runCmds.filter fun c => !onPort c } }
    exec (.marginReportTimeout lp) s =
      .next ((u.optics.runCmds.filter onPort).foldl (fun s c => s.complete c.1 9 ⟨0x0102, 0, 0, []⟩) v) := by
  show execMarginReportTimeout lp s = _
  unfold execMarginReportTimeout
  rw [htest]
  dsimp only
  rw [List.partition_eq_filter_filter]
  rfl

/-- The reeds of a kept test that can be tested again. -/
abbrev retestable (lp m : Nat) (u : State) : Nat := bitsOf ((bitList 4 m).filter fun r => (u.testable lp).contains r)

/-- The state 1 s after the abort of a test, which is kept no longer. -/
abbrev retryDue (t : Nat) (rest : List (Nat × Nat × Nat)) (s : State) : State :=
  ({ s with optics := { s.optics with retries := rest } } : State).elapseToTick (t + usTicks 1000000)

/-- Does a kept test of lp run again: its link is in UP and tests nothing, and a reed of it can be tested? -/
abbrev retests (lp m : Nat) (u : State) : Bool := (u.link lp).st == .up && (u.testOf lp).isNone && retestable lp m u != 0

section
variable {u : State} {lp m : Nat}

theorem retests_of (hup : (u.link lp).st = .up) (hidle : u.testOf lp = none) (hagain : retestable lp m u ≠ 0) : retests lp m u = true := by
  rw [retests, hup, hidle, bne_iff_ne.2 hagain]
  rfl

theorem not_retests_of (hnot : (u.link lp).st ≠ .up ∨ (u.testOf lp).isSome = true ∨ retestable lp m u = 0) : ¬retests lp m u = true := by
  intro hretests
  obtain ⟨⟨hup, hidle⟩, hagain⟩ : ((u.link lp).st = .up ∧ u.testOf lp = none) ∧ retestable lp m u ≠ 0 := by simpa [retests] using hretests
  rcases hnot with hdown | htests | hnone
  · exact hdown hup
  · rw [hidle] at htests
    cases htests
  · exact hagain hnone
end

theorem exec_marginRetry_kept {s : State} {lp m t : Nat} {rest : List (Nat × Nat × Nat)}
    (hkept : takeFirst (fun (x : Nat × Nat × Nat) => x.1 == lp) s.optics.retries = some ((lp, m, t), rest)) :
    let u := retryDue t rest s
    exec (.marginRetry lp) s = if retests lp m u then .next (u.startTest lp (retestable lp m u)) else .next u := by
  show execMarginRetry lp s = _
  unfold execMarginRetry
  rw [hkept]

/-! ### MARGIN_RUN (R434, R466, R467) -/

/-- The reeds of a mask that can be tested on a logical port. -/
abbrev namedReeds (mask : Nat) (a : State) (lp : Nat) : List Nat := (a.testable lp).filter fun r => bit r mask

/-- The logical ports of port p that test nothing and have named reeds to test. -/
abbrev freeHalves (p mask : Nat) (a : State) : List Nat :=
  (a.halves p).filter fun lp => !(namedReeds mask a lp).isEmpty && (a.testOf lp).isNone

/-- The reeds that MARGIN_RUN tests. -/
abbrev runReeds (p mask : Nat) (a : State) : List Nat := (freeHalves p mask a).flatMap (namedReeds mask a)

section
variable {s : State} {h : CmdHdr} {mask : Nat} (htakes : s.takes h 0x0902 true = true)
include htakes

theorem exec_marginRun_noLink (hout : (s.start h 0x0902).noLink h.target = true) :
    exec (.marginRun h mask) s = .next ((s.start h 0x0902).complete h 9 ⟨0x0100, 0, 0, []⟩) :=
  congrArg _ (runCmd_completes htakes (if_pos hout))

variable (hlink : (s.start h 0x0902).noLink h.target = false)
include hlink

theorem exec_marginRun_lastReed (hlast : allLive (s.start h 0x0902) h.target (runReeds h.target mask (s.start h 0x0902)) = true) :
    exec (.marginRun h mask) s = .next ((s.start h 0x0902).complete h 9 ⟨0x0101, 0, 0, []⟩) :=
  congrArg _ (runCmd_completes htakes ((if_neg (Bool.eq_false_iff.1 hlink)).trans (if_pos hlast)))

variable (hleft : allLive (s.start h 0x0902) h.target (runReeds h.target mask (s.start h 0x0902)) = false)
include hleft

theorem exec_marginRun_none (hnone : (runReeds h.target mask (s.start h 0x0902)).isEmpty = true) :
    exec (.marginRun h mask) s = (s.start h 0x0902).okFor h 9 0xFFFFFFFF :=
  congrArg _ (runCmd_completes htakes ((if_neg (Bool.eq_false_iff.1 hlink)).trans ((if_neg (Bool.eq_false_iff.1 hleft)).trans (if_pos hnone))))

theorem exec_marginRun_waits (hsome : (runReeds h.target mask (s.start h 0x0902)).isEmpty = false) :
    let a := s.start h 0x0902
    let u := (freeHalves h.target mask a).foldl (fun s lp => s.startTest lp (bitsOf (namedReeds mask a lp))) a
    exec (.marginRun h mask) s = .next { u with optics := { u.optics with
      runCmds := u.optics.runCmds ++ [(h, h.target, bitsOf (runReeds h.target mask a))] } } :=
  congrArg _ (runCmd_goesOn htakes ((if_neg (Bool.eq_false_iff.1 hlink)).trans ((if_neg (Bool.eq_false_iff.1 hleft)).trans
    (if_neg (Bool.eq_false_iff.1 hsome)))))
end

/-- Settles O20, row by row: a test starts by what is due, a MARGIN frame acts after its ACK_SEQ if its OP is the row's, a report by the reeds it
leaves stepping, and MARGIN_RUN after its start by its port's link and the live reeds it would test. -/
theorem marginTestsComplete : Obligations.MarginTestsComplete := by
  unfold Obligations.MarginTestsComplete
  refine ⟨?start, ?frames, ?report, fun s lp x errors hfar => exec_marginDwellEnd_reports hfar errors,
    fun s lp t rest => exec_marginReportTimeout_ends, ?retry, ?run⟩
  case start =>
    intro s lp hup hidle
    exact ⟨exec_marginTestStart_due hup hidle, fun hnone r => exec_marginTestStart_provisional hup hidle hnone,
      exec_marginTestStart_nothing hup hidle⟩
  case frames =>
    intro s lp hd body hup hlight hgood htype hkind
    have hrx (op : Nat) (f : Nat → Nat → State → State) := marginRx_up hup hlight hgood htype hkind op f
    exact ⟨fun hop => congrArg _ ((hrx 1 _).trans (if_pos hop)), fun hop => congrArg _ ((hrx 2 _).trans (if_pos hop)),
      fun hop => congrArg _ ((hrx 3 _).trans (if_pos hop)), fun hop => congrArg _ ((hrx 1 _).trans (if_neg hop)),
      fun hop => congrArg _ ((hrx 2 _).trans (if_neg hop)), fun hop => congrArg _ ((hrx 3 _).trans (if_neg hop))⟩
  case report =>
    intro s lp errors t rest htest
    exact ⟨marginReport_ends htest, marginReport_steps htest, fun _ _ => marginReport_unfit htest⟩
  case retry =>
    intro s lp m t rest hkept
    rw [exec_marginRetry_kept hkept]
    exact ⟨fun hup hidle hagain => if_pos (retests_of hup hidle hagain), fun hnot => if_neg (not_retests_of hnot)⟩
  case run =>
    intro s h mask htakes
    exact ⟨exec_marginRun_noLink htakes, exec_marginRun_lastReed htakes, exec_marginRun_none htakes, exec_marginRun_waits htakes⟩

end Sys2Proof.MarginRows
end

section
/-! PROOFS. O51, O52: the exact accumulator (R498–R503), and a floating-point code that is read and written back (R476, R480–R484, R492). -/
namespace Sys2Proof.NumberFormats
open Sys2Proof

/-! ### Exact accumulators: merging is a commutative monoid, and an addend is merged in -/

theorem merge_comm (a b : ExAcc) : a.merge b = b.merge a := by
  simp [ExAcc.merge, Int.add_comm, Bool.or_comm, Bool.and_comm]

theorem merge_assoc (a b c : ExAcc) : (a.merge b).merge c = a.merge (b.merge c) := by
  simp [ExAcc.merge, Int.add_assoc, Bool.or_assoc, Bool.and_assoc]

@[simp] theorem merge_init (a : ExAcc) : a.merge ExAcc.init = a := by
  simp [ExAcc.merge, ExAcc.init]

theorem merge_right_comm (a b c : ExAcc) : (a.merge b).merge c = (a.merge c).merge b := by
  rw [merge_assoc, merge_comm b c, ← merge_assoc]

/-- What an addend does to an accumulator does not depend on what the accumulator holds: it merges in what the addend alone leaves. -/
theorem add_eq_merge (a : ExAcc) (x : FVal) : (a.add x).1 = a.merge (ExAcc.init.add x).1 := by
  cases x with
  | nan sig => simp [ExAcc.add, ExAcc.merge, ExAcc.init]
  | inf neg => cases neg <;> simp [ExAcc.add, ExAcc.merge, ExAcc.init]
  | fin neg m e =>
    by_cases hm : m = 0
    · simp [ExAcc.add, ExAcc.merge, ExAcc.init, hm]
    · by_cases hfar : 152 ≤ (log2 m : Int) + e
      · cases neg <;> simp [ExAcc.add, ExAcc.merge, ExAcc.init, hm, hfar]
      · simp [ExAcc.add, ExAcc.merge, ExAcc.init, hm, hfar]

/-- The accumulator after a list of values. -/
abbrev addAll (a : ExAcc) (xs : List FVal) : ExAcc := xs.foldl (fun a x => (a.add x).1) a

theorem addAll_eq_merge (a : ExAcc) (xs : List FVal) : addAll a xs = a.merge (addAll ExAcc.init xs) := by
  induction xs generalizing a with
  | nil => exact (merge_init a).symm
  | cons x xs ih =>
    calc addAll (a.add x).1 xs
        = (a.merge (ExAcc.init.add x).1).merge (addAll ExAcc.init xs) := by rw [ih, add_eq_merge]
      _ = a.merge (addAll (ExAcc.init.add x).1 xs) := by rw [merge_assoc, ← ih]

theorem addAll_append (a : ExAcc) (xs ys : List FVal) : addAll a (xs ++ ys) = (addAll a xs).merge (addAll ExAcc.init ys) :=
  List.foldl_append.trans (addAll_eq_merge _ ys)

theorem addAll_perm (a : ExAcc) {xs ys : List FVal} (h : xs.Perm ys) : addAll a xs = addAll a ys := by
  refine h.foldl_eq' (fun x _ y _ b => ?_) a
  rw [add_eq_merge (b.add x).1, add_eq_merge b, merge_right_comm, ← add_eq_merge b, ← add_eq_merge]

/-- Settles O51: an addend is merged in, and merging is commutative and associative. -/
theorem exactSumsCommute : Obligations.ExactSumsCommute := by
  unfold Obligations.ExactSumsCommute
  exact ⟨fun a b => ⟨rfl, rfl, rfl, rfl⟩,
    fun xs ys mode o => congrArg (ExAcc.finish mode o) (addAll_append ExAcc.init xs ys), fun xs ys h => addAll_perm ExAcc.init h⟩

/-! ### Codes and their fields (R480, R482) -/

/-- The sign of a code, read out of its container. -/
abbrev negOf (f : FFmt) (code : Nat) : Bool := (code / 2 ^ f.pad).testBit (f.eb + f.fb)
/-- The exponent field of a code. -/
abbrev expOf (f : FFmt) (code : Nat) : Nat := code / 2 ^ f.pad / 2 ^ f.fb % 2 ^ f.eb
/-- The fraction field of a code. -/
abbrev fracOf (f : FFmt) (code : Nat) : Nat := code / 2 ^ f.pad % 2 ^ f.fb

theorem expOf_lt (f : FFmt) (code : Nat) : expOf f code < 2 ^ f.eb := Nat.mod_lt _ (Nat.two_pow_pos _)
theorem fracOf_lt (f : FFmt) (code : Nat) : fracOf f code < 2 ^ f.fb := Nat.mod_lt _ (Nat.two_pow_pos _)

/-- Is the code the sign bit alone, in a format that has no negative zero (R484)? -/
abbrev negZero (f : FFmt) (code : Nat) : Prop := f.sat = true ∧ code / 2 ^ f.pad = 2 ^ (f.eb + f.fb)

theorem fmtOf_eb_pos {c : Nat} {f : FFmt} (h : fmtOf c = some f) : 0 < f.eb := by
  unfold fmtOf at h
  split at h <;> cases h <;> decide

theorem b2n_eq_toNat (b : Bool) : b2n b = b.toNat := by
  cases b <;> rfl

section
variable {f : FFmt} {code : Nat} (hlt : code < 2 ^ (f.eb + f.fb + 1 + f.pad))
include hlt

theorem container_lt : code / 2 ^ f.pad < 2 ^ (f.eb + f.fb + 1) :=
  Nat.div_lt_of_lt_mul (by rwa [← Nat.pow_add, Nat.add_comm])

/-- A code is its sign, exponent and fraction, each at its place. -/
theorem fields_sum : b2n (negOf f code) * 2 ^ (f.eb + f.fb) + (expOf f code * 2 ^ f.fb + fracOf f code) = code / 2 ^ f.pad := by
  have hsign : b2n (negOf f code) = code / 2 ^ f.pad / 2 ^ (f.eb + f.fb) := by
    have htop : code / 2 ^ f.pad / 2 ^ (f.eb + f.fb) < 2 := Nat.div_lt_of_lt_mul (container_lt hlt)
    rw [b2n_eq_toNat, Nat.toNat_testBit, Nat.mod_eq_of_lt htop]
  have hlow : expOf f code * 2 ^ f.fb + fracOf f code = code / 2 ^ f.pad % 2 ^ (f.eb + f.fb) := by
    rw [Nat.add_comm f.eb, Nat.pow_add, Nat.mod_mul, Nat.mul_comm, Nat.add_comm]
  rw [hsign, hlow, Nat.div_add_mod']

/-- The fields of a code, put together again, are the code in its container, but for the negative zero of a format that has none. -/
theorem pack_fields (hpad : code % 2 ^ f.pad = 0) (hzero : ¬negZero f code) :
    f.pack (negOf f code) (expOf f code * 2 ^ f.fb + fracOf f code) = code := by
  have hsum := fields_sum hlt
  have hcode : code / 2 ^ f.pad * 2 ^ f.pad = code := Nat.div_mul_cancel (Nat.dvd_of_mod_eq_zero hpad)
  unfold FFmt.pack
  split
  case isFalse => rw [hsum, hcode]
  case isTrue h =>
    simp only [Bool.and_eq_true, beq_iff_eq] at h
    obtain ⟨hsat, hlow⟩ := h
    rw [hlow] at hsum
    cases hneg : negOf f code
    · rw [← hcode, ← hsum, hneg]
      simp [b2n]
    · exact absurd ⟨hsat, by simpa [hneg, b2n] using hsum.symm⟩ hzero

end

/-! ### What a code spells (R481) -/

theorem decode_finite {f : FFmt} {code : Nat} (hlt : code < 2 ^ (f.eb + f.fb + 1 + f.pad)) (hzero : ¬negZero f code)
    (hfin : ¬(f.sat = false ∧ expOf f code = 2 ^ f.eb - 1)) :
    f.decode code = if expOf f code = 0 then .fin (negOf f code) (fracOf f code) (f.emin - f.fb)
      else .fin (negOf f code) (2 ^ f.fb + fracOf f code) ((expOf f code : Int) - f.bias - f.fb) :=
  (if_neg (by simpa [Nat.mod_eq_of_lt (container_lt hlt)] using hzero)).trans (if_neg (by simpa using hfin))

theorem decode_largestExp {f : FFmt} {code : Nat} (hsat : f.sat = false) (htop : expOf f code = 2 ^ f.eb - 1) :
    f.decode code = if fracOf f code = 0 then .inf (negOf f code) else .nan (f.ieee && !(fracOf f code).testBit (f.fb - 1)) :=
  (if_neg (by simp [hsat])).trans (if_pos (by simp [hsat, htop]))

/-! ### Writing a value that a format holds (R492) -/

/-- An exponent field below the largest, or any of a format that saturates, makes no code beyond the largest finite one (R481). -/
theorem code_le_maxCode {f : FFmt} {e x : Nat} (he : e < 2 ^ f.eb) (hx : x < 2 ^ f.fb) (hfin : ¬(f.sat = false ∧ e = 2 ^ f.eb - 1)) :
    e * 2 ^ f.fb + x ≤ f.maxCode := by
  unfold FFmt.maxCode
  split
  case isTrue =>
    have := Nat.mul_le_mul_right (2 ^ f.fb) he
    rw [Nat.pow_add]
    rw [Nat.succ_mul] at this
    omega
  case isFalse hsat =>
    have hne : e ≠ 2 ^ f.eb - 1 := fun htop => hfin ⟨Bool.not_eq_true _ ▸ hsat, htop⟩
    have hlt : e + 1 ≤ 2 ^ f.eb - 1 := by omega
    have := Nat.mul_le_mul_right (2 ^ f.fb) hlt
    rw [Nat.succ_mul] at this
    omega

theorem log2_two_pow_add {k x : Nat} (h : x < 2 ^ k) : log2 (2 ^ k + x) = k := by
  have hpos := Nat.two_pow_pos k
  exact (Nat.log2_eq_iff (by omega)).2 ⟨by omega, by omega⟩

@[simp] theorem roundSh_zero (mode : Nat) (neg : Bool) (m : Nat) : roundSh mode neg m 0 = (m, false) := by
  simp [roundSh]

/-- A value whose last place is the format's own there, not beyond the range, is written without rounding and sets no flag. -/
theorem encode_exact {f : FFmt} (mode : Nat) (neg : Bool) {m c : Nat} {e : Int} (hm : m ≠ 0) (hplace : max ((log2 m : Int) + e) f.emin - f.fb = e)
    (hcode : ((e + f.fb + f.bias).toNat - 1) * 2 ^ f.fb + m = c) (hmax : c ≤ f.maxCode) : f.encode mode (.fin neg m e) = (f.pack neg c, 0) := by
  simp [FFmt.encode, hm, hplace, hcode, Nat.not_lt.2 hmax]

theorem encode_subnormal {f : FFmt} (mode : Nat) (neg : Bool) {x : Nat} (hx : x < 2 ^ f.fb) (hmax : x ≤ f.maxCode) :
    f.encode mode (.fin neg x (f.emin - f.fb)) = (f.pack neg x, 0) := by
  by_cases h0 : x = 0
  · simp [FFmt.encode, h0]
  · have hlog : log2 x < f.fb := (Nat.log2_lt h0).2 hx
    refine encode_exact mode neg h0 (by omega) ?_ hmax
    have : (f.emin - f.fb + f.fb + f.bias).toNat - 1 = 0 := by unfold FFmt.emin; omega
    rw [this, Nat.zero_mul, Nat.zero_add]

theorem encode_normal {f : FFmt} (mode : Nat) (neg : Bool) {e x : Nat} (he : e ≠ 0) (hx : x < 2 ^ f.fb) (hmax : e * 2 ^ f.fb + x ≤ f.maxCode) :
    f.encode mode (.fin neg (2 ^ f.fb + x) ((e : Int) - f.bias - f.fb)) = (f.pack neg (e * 2 ^ f.fb + x), 0) := by
  have hpos := Nat.two_pow_pos f.fb
  refine encode_exact mode neg (by omega) ?_ ?_ hmax
  · rw [log2_two_pow_add hx, FFmt.emin]
    omega
  · have hfield : ((e : Int) - f.bias - f.fb + f.fb + f.bias).toNat - 1 = e - 1 := by omega
    obtain ⟨k, rfl⟩ := Nat.exists_eq_succ_of_ne_zero he
    rw [hfield, Nat.succ_mul, Nat.succ_sub_one, Nat.add_assoc]

theorem encode_inf {f : FFmt} (mode : Nat) (neg : Bool) (hsat : f.sat = false) (heb : 0 < f.eb) :
    f.encode mode (.inf neg) = (f.pack neg ((2 ^ f.eb - 1) * 2 ^ f.fb), 0) := by
  have hbeyond : f.maxCode + 1 = (2 ^ f.eb - 1) * 2 ^ f.fb := by
    have hone := Nat.one_lt_two_pow (Nat.ne_of_gt heb)
    exact (congrArg (· + 1) (if_neg (by simp [hsat]))).trans (Nat.sub_add_cancel (Nat.mul_pos (by omega) (Nat.two_pow_pos _)))
  simp [FFmt.encode, hsat, hbeyond]

/-- Settles O52: a code spells an infinity, a subnormal value (or zero) or a normal one, and each is written without rounding as the fields it was
read from. -/
theorem numberRoundTrip : Obligations.NumberRoundTrip := by
  unfold Obligations.NumberRoundTrip
  intro c f mode code hf hlt hpad hnan hzero
  have hpack := pack_fields hlt hpad hzero
  by_cases hlargest : f.sat = false ∧ expOf f code = 2 ^ f.eb - 1
  case pos =>
    obtain ⟨hsat, htop⟩ := hlargest
    have hdec := decode_largestExp hsat htop
    split at hdec
    case isTrue hx => rw [hdec, encode_inf mode _ hsat (fmtOf_eb_pos hf), ← htop, ← Nat.add_zero (_ * _), ← hx, hpack]
    case isFalse => exact absurd hdec (hnan _)
  case neg =>
    have hmax := code_le_maxCode (expOf_lt f code) (fracOf_lt f code) hlargest
    rw [decode_finite hlt hzero hlargest]
    split
    case isTrue he =>
      rw [he, Nat.zero_mul, Nat.zero_add] at hmax hpack
      rw [encode_subnormal mode _ (fracOf_lt f code) hmax, hpack]
    case isFalse he => rw [encode_normal mode _ he (fracOf_lt f code) hmax, hpack]

end Sys2Proof.NumberFormats
end

section
/-! PROOFS. O43, O44: what a command entry meets before its own effect (chapter 17, R782, R784), and what a page shows of its block's stage (R75). -/
namespace Sys2Proof.CommandGates
open Sys2Proof Sys2Proof.Machine

section
variable {b : Bool}

theorem bnot_of_false (h : b = false) : (!b) = true := (Bool.not_eq_true' b).mpr h

theorem not_bnot_of_true (h : b = true) : ¬ (!b) = true := fun hn => Bool.eq_false_iff.1 ((Bool.not_eq_true' b).mp hn) h
end

section
variable {s t : State} {h : CmdHdr} {op : Nat} {oper : Bool} {body : State → State × Option Cmpl} (htakes : s.takes h op oper = true)
include htakes

/-- The outcome of a command entry that takes effect, by what its own effect answers. -/
theorem cmd_completes {c : Cmpl} (hbody : body (s.start h op) = (t, some c)) :
    (.next (s.runCmd h op oper body) : Result) = .next (t.complete h (op / 256) c) :=
  congrArg _ (TimeMessages.runCmd_completes htakes hbody)

theorem cmd_goesOn (hbody : body (s.start h op) = (t, none)) : (.next (s.runCmd h op oper body) : Result) = .next t :=
  congrArg _ (TimeMessages.runCmd_goesOn htakes hbody)
end

/-- A register write on a page that takes writes has its effect. -/
theorem onPage_takes {s : State} {p : Nat} (hheld : s.pwr.held = false) (hbusy : s.pageBusy p = false) (f : State → State) :
    (.next (s.onPage p f) : Result) = .next (f s) :=
  congrArg _ (HostPort.onPage_free hheld hbusy f)

/-- Settles O43: every command entry runs as one, and what runs in recovery is asked before its own effect. -/
theorem recoveryRefuses : Obligations.RecoveryRefuses := by
  unfold Obligations.RecoveryRefuses
  intro c h op oper s hc hstart hrec hout
  obtain ⟨body, hexec⟩ := exec_command s hc
  rw [hexec, State.runCmd_recovery body hstart hrec hout]

/-! ### Where PAGE_STATUS stands (R66, R73) -/

theorem blockType_of_implemented {p : Nat} (h : pageImplemented p = true) : 1 ≤ p / 256 ∧ p / 256 ≤ 22 := by
  unfold pageImplemented at h
  split at h
  case h_23 => exact absurd h Bool.false_ne_true
  all_goals omega

/-- No counter of R281 stands among the words of the common header. -/
theorem counterAt_header {a : Nat} (h : a % 4096 < 0x100) : counterAt a = none := by
  have hoff : ∀ c ∈ counterRows, 0x100 ≤ c.off := by decide
  refine List.findSome?_eq_none_iff.2 fun c hc => ?_
  have := hoff c hc
  exact if_neg (by omega)

section
variable {p : Nat} (himp : pageImplemented p = true)
include himp

theorem pageStatus_place : Reg.PAGE_STATUS p / 4096 = p ∧ Reg.PAGE_STATUS p % 4096 = 0xC ∧ Reg.PAGE_STATUS p / 0x100000 = p / 256 ∧
    inWindows (Reg.PAGE_STATUS p) = false ∧ inVendor (Reg.PAGE_STATUS p) = false := by
  have hp := blockType_of_implemented himp
  unfold Reg.PAGE_STATUS
  have hlow : p * 4096 + 0xC < 0x8000000 := by omega
  exact ⟨by omega, by omega, by omega, by simp [inWindows, Nat.not_le.2 hlow], by simp [inVendor]; omega⟩

variable (hheader : hasHeader (p / 256) (p % 256) = true)
include hheader

theorem blockSpecific_pageStatus : blockSpecific (Reg.PAGE_STATUS p) = false := by
  obtain ⟨hpage, hoff, htyp, -, -⟩ := pageStatus_place himp
  simp [blockSpecific, hpage, hoff, htyp, hheader]

theorem regAt_pageStatus : ∃ r, regAt (Reg.PAGE_STATUS p) = some r ∧ r.desc.off = 0xC := by
  obtain ⟨hpage, hoff, htyp, -, -⟩ := pageStatus_place himp
  have hn : p % 256 ≤ 255 := by omega
  simp [regAt, hpage, hoff, htyp, hheader, hdrRegs, hdrRegs0, findIn, RegDesc.locate, hn]

/-- PAGE_STATUS shows what its block's state gives (R75, R782), whatever its register word holds. -/
theorem wordNow_pageStatus (s : State) : ∃ w, s.wordNow (Reg.PAGE_STATUS p) = s.pageStatus p w := by
  obtain ⟨hpage, hoff, -, hwin, hvendor⟩ := pageStatus_place himp
  obtain ⟨r, hreg, hat⟩ := regAt_pageStatus himp hheader
  have hspecific := blockSpecific_pageStatus himp hheader
  have hcounter := counterAt_header (a := Reg.PAGE_STATUS p) (by omega)
  refine ⟨(s.rd (wordHome r (Reg.PAGE_STATUS p))).toNat, ?_⟩
  simp [State.wordNow, hwin, hvendor, hspecific, hcounter, hreg, State.regWord, hat, hpage]
end

theorem enabled_pageStatus (s : State) (p w : Nat) : bit 0 (s.pageStatus p w) = s.stageReached (p / 256) := by
  refine (testBit_withBits 0 0 _ _ 0 (Nat.le_refl 0)).trans ?_
  cases s.stageReached (p / 256) <;> rfl

/-- Settles O44: every command entry runs as one and asks its block's stage before its own effect; ENABLED of PAGE_STATUS is that stage. -/
theorem stageBusy : Obligations.StageBusy := by
  unfold Obligations.StageBusy
  refine ⟨?busy, ?enabled⟩
  case busy =>
    intro c h op oper s hc hstart hrec hstage
    obtain ⟨body, hexec⟩ := exec_command s hc
    rw [hexec, State.runCmd_busy body hstart hrec hstage]
  case enabled =>
    intro s p himp hheader hstage
    obtain ⟨w, hword⟩ := wordNow_pageStatus himp hheader s
    rw [hword, enabled_pageStatus, hstage]

end Sys2Proof.CommandGates
end

section
/-! PROOFS. O54: the bytes of the two tiers after a store and after a range is zeroed (chapter 12, R582, R583). -/
namespace Sys2Proof.TierMemory
open Sys2Proof Sys2Proof.Machine

/-- Bytes stored from an address are read back from there. -/
theorem memRead_memWrite (bs : List Byte) : ∀ {m : List Host.Cell} (a : Nat), Memory.wf m = true → memRead (memWrite m a bs) a bs.length = bs := by
  induction bs with
  | nil => exact fun _ _ => rfl
  | cons b bs ih =>
    intro m a hm
    have hput := memPut_wf hm a b
    have hfirst : memByte (memWrite (memPut m a b) (a + 1) bs) a = b := by
      rw [memByte_memWrite_other bs (a + 1) a hput (by omega), memByte_memPut hm, if_pos rfl]
    have hrest := ih (a + 1) hput
    simp only [memRead, memWrite, List.length_cons, List.range_succ_eq_map, List.map_cons, List.map_map, Nat.add_zero, hfirst] at hrest ⊢
    refine congrArg (b :: ·) (Eq.trans (List.map_congr_left fun i _ => ?_) hrest)
    simp [Nat.add_assoc, Nat.add_comm 1]

theorem memByte_memZero {m : List Host.Cell} (hm : Memory.wf m = true) (a n b : Nat) :
    memByte (memZero m a n) b = if a ≤ b ∧ b < a + n then 0 else memByte m b := by
  unfold memByte Tbl.getD memZero
  rw [Counters.find_filter_key (wf_iff.1 hm).1 fun k => !(decide (a ≤ k) && decide (k < a + n))]
  by_cases hin : a ≤ b ∧ b < a + n
  case pos => simp [hin]
  case neg =>
    have hout : (!(decide (a ≤ b) && decide (b < a + n))) = true := by simp; omega
    rw [if_pos hout, if_neg hin]

/-- Settles O54: a store and a zeroed range in a memory in canonical form, and the frame of a store to one tier. -/
theorem memoryWrites : Obligations.MemoryWrites := by
  unfold Obligations.MemoryWrites
  refine ⟨fun m a bs hm => ⟨memRead_memWrite bs a hm, fun b hb => memByte_memWrite_other bs a b hm hb, memWrite_wf bs a hm⟩,
    fun m a n b hm => ⟨memByte_memZero hm a n b, memZero_wf hm a n⟩, fun s tier a bs => ?_⟩
  by_cases htier : tier = 0 <;> simp [State.tierWrite, htier, State.rest]

end Sys2Proof.TierMemory
end

section
/-! PROOFS. O24: the FADM commands and the Fen registers that act on a write (chapter 11, R515, R527, R557, R567, R574, R578–R581). -/
namespace Sys2Proof.FenCommands
open Sys2Proof Sys2Proof.Machine Sys2Proof.CommandGates

/-- Settles O24, row by row: the TARGET, then the bounds and what is in use, choose the branch of the command's own effect. -/
theorem fenCommandsComplete : Obligations.FenCommandsComplete := by
  unfold Obligations.FenCommandsComplete
  refine ⟨?descSet, ?descRead, ?partSet, ?partReset, ?abort, ?query, ?seed, ?fenClear, ?fadmClear⟩
  case descSet =>
    intro s h i d htakes
    refine ⟨fun htarget hi hd => ?_, fun htarget hbad => ?_, fun htarget => cmd_completes htakes (if_pos htarget)⟩
    · exact cmd_completes htakes ((if_neg (by simpa using htarget)).trans (if_neg (by simp [hd]; omega)))
    · exact cmd_completes htakes ((if_neg (by simpa using htarget)).trans (if_pos (by simpa using hbad)))
  case descRead =>
    intro s h i w htakes
    refine ⟨fun htarget hi hw => ?_, fun htarget hbad => ?_, fun htarget => cmd_completes htakes (if_pos htarget)⟩
    · exact cmd_completes htakes ((if_neg (Nat.not_lt.2 htarget)).trans (if_neg (by omega)))
    · exact cmd_completes htakes ((if_neg (Nat.not_lt.2 htarget)).trans (if_pos hbad))
  case partSet =>
    intro s h p ring ten sf sc tf tc en htakes a die sram t1f t1c clash bad used less u
    refine ⟨fun hdie => cmd_completes htakes (if_pos hdie), fun hdie hbad => ?_, fun hdie hbad hused hless => ?_, fun hdie hbad hfree => ?_⟩
    · refine cmd_completes htakes ((if_neg (Nat.not_lt.2 hdie)).trans (if_pos ?_))
      simpa only [bad, Bool.or_eq_true, decide_eq_true_eq, or_assoc] using hbad
    · refine cmd_completes htakes ((if_neg (Nat.not_lt.2 hdie)).trans ((if_neg ?_).trans (if_pos ?_)))
      · simpa only [bad, Bool.or_eq_false_iff, decide_eq_false_iff_not, or_assoc, not_or, Bool.not_eq_true, and_assoc] using hbad
      · exact Bool.and_eq_true_iff.2 ⟨hused, hless⟩
    · refine cmd_completes htakes ((if_neg (Nat.not_lt.2 hdie)).trans ((if_neg ?_).trans (if_neg ?_)))
      · simpa only [bad, Bool.or_eq_false_iff, decide_eq_false_iff_not, or_assoc, not_or, Bool.not_eq_true, and_assoc] using hbad
      · exact Bool.eq_false_iff.1 (Bool.and_eq_false_iff.2 hfree)
  case partReset =>
    intro s h p htakes
    exact ⟨fun htarget hp => cmd_completes htakes ((if_neg (Nat.not_lt.2 htarget)).trans (if_neg (Nat.not_lt.2 hp))),
      fun htarget hp => cmd_completes htakes ((if_neg (Nat.not_lt.2 htarget)).trans (if_pos hp)),
      fun htarget => cmd_completes htakes (if_pos htarget)⟩
  case abort =>
    intro s h g rnd htakes
    refine ⟨fun htarget r hr hrnd => ?_, fun htarget hno => ?_, fun htarget => cmd_completes htakes (if_pos htarget)⟩
    · exact cmd_completes htakes ((if_neg (Nat.not_lt.2 htarget)).trans (by rw [hr]; exact if_pos hrnd))
    · refine cmd_completes htakes ((if_neg (Nat.not_lt.2 htarget)).trans ?_)
      rcases hno with hnone | ⟨r, hr, hrnd⟩
      · rw [hnone]; rfl
      · rw [hr]; exact if_neg hrnd
  case query =>
    intro s h g htakes
    refine ⟨fun htarget hnone => ?_, fun htarget r hr => ?_, fun htarget => cmd_completes htakes (if_pos htarget)⟩
    · exact cmd_completes htakes ((if_neg (Nat.not_lt.2 htarget)).trans (by dsimp only; rw [hnone]; rfl))
    · exact cmd_completes htakes ((if_neg (Nat.not_lt.2 htarget)).trans (by dsimp only; rw [hr]; rfl))
  case seed => exact fun s die v hheld hbusy => onPage_takes hheld hbusy _
  case fenClear => exact fun s n hheld hbusy => onPage_takes hheld hbusy _
  case fadmClear => exact fun s die hheld hbusy => onPage_takes hheld hbusy _

end Sys2Proof.FenCommands
end

section
/-! PROOFS. O22: Fen's results, verdicts and errors (chapter 11, R552–R575, R721, R729). -/
namespace Sys2Proof.FenResults
open Sys2Proof Sys2Proof.Machine

section
variable {s : State} {die g c : Nat} {r : Round} {out right : RunOut} (hround : s.fenRound die g = some r)
  (hresult : (r.chunk c).result = some (out, right))
include hround hresult

/-! ### CHUNK_RELEASE (R553, R554, R558, R571) -/

section
variable (hreleased : (r.chunk c).released = false) (hsent : (r.chunk c).sent = false) (hfrozen : s.frozen = false) (hpass : r.pass = false)
include hreleased hsent hfrozen hpass

/-- A result that has not left, held by no verdict and no freeze: at a hall spine the partial leaves, else what is to leave unless its root is fenced. -/
theorem exec_chunkRelease_leaves (hfree : (r.chunk c).verdict ≠ 1 ∨ dSpec r.desc = true ∧ isHall r.desc = false) :
    exec (.chunkRelease die g c) s =
      if isHall r.desc then .next
        (((s.hallPkts r c out.bytes).foldl (fun s p => s.fenToPort r.die (dXport r.desc) p) s).setRound (r.setChunk c { r.chunk c with sent := true }))
      else if dKind r.desc = 1 ∧ r.fenced.contains (dRoot r.desc) then .next (s.fenAbort r 3)
      else .next ((((s.sendStream r r.receivers true (s.outPkts r c out.bytes ((r.chunk c).verdict == 1))).pmcEvent 0x12 0 r.pmcUnit
        (ceilDiv out.bytes.length 64))).settleChunk { r.setChunk c { r.chunk c with released := true, check := chunkCheck out.bytes } with
          kept := (r.kept ++ [(c, out.bytes)]).drop (r.kept.length + 1 - dRetain r.desc) } c) := by
  show execChunkRelease die g c s = _
  unfold execChunkRelease
  rw [hround]
  dsimp only
  rw [hresult]
  refine if_neg ?_
  rcases hfree with hverdict | ⟨hspec, hroot⟩ <;> simp [*]
end

/-! ### VERDICT (R557, R560–R562, R729) -/

/-- A shadow counted, and a pass of its chunk's reducer. -/
abbrev verdictPasses (s : State) (ch : Chunk) : State := (s.inc (Cnt.FEN_SHADOWS ch.spare)).inc (Cnt.FEN_VERDICT_PASS ch.phys)

/-- A failure of a reducer counted, with its interrupt and error. -/
abbrev verdictFails (s : State) (phys : Nat) : State :=
  ((s.inc (Cnt.FEN_VERDICT_FAIL phys)).irq (pg 0x0C phys) 3).logErr (pg 0x0C phys) 0x0101 1 (locFen phys)

section
variable (hverdict : (r.chunk c).verdict = 1) {shadow : Option RunOut}
include hverdict

/-- A shadow that agrees counts a pass and charges the instances of a first run that differ from it. -/
theorem exec_verdict_agrees (hagrees : shadow.getD right = out) {t : State}
    (ht : (match (r.chunk c).firstRun with
      | some (n, pb, k, sb) =>
        let x := if pb = out then verdictPasses s (r.chunk c) else (verdictPasses s (r.chunk c)).chargeVerdict n
        if sb = out then x else x.chargeVerdict k
      | none => verdictPasses s (r.chunk c)) = t) :
    exec (.verdict die g c shadow) s = .next (t.settleChunk (r.setChunk c { r.chunk c with verdict := 2 }) c) := by
  show execVerdict die g c shadow s = _
  unfold execVerdict
  rw [hround]
  dsimp only
  rw [hresult, ← ht]
  exact (if_neg (by simp [hverdict])).trans (if_pos hagrees)

variable (hdiffers : shadow.getD right ≠ out)
include hdiffers

/-- A first run that differs is recalled, with both results kept for the second to judge. -/
theorem exec_verdict_differs_first (hfirst : (r.chunk c).firstRun = none) :
    exec (.verdict die g c shadow) s =
      .next ((verdictFails (s.inc (Cnt.FEN_SHADOWS (r.chunk c).spare)) (r.chunk c).phys).recall r c 1 fun ch' =>
        { ch' with vfails := ch'.vfails + 1, firstRun := some (ch'.phys, out, (r.chunk c).spare, shadow.getD right) }) := by
  show execVerdict die g c shadow s = _
  unfold execVerdict
  rw [hround]
  dsimp only
  rw [hresult]
  refine (if_neg (by simp [hverdict])).trans ((if_neg hdiffers).trans ?_)
  rw [hfirst]

theorem exec_verdict_differs_again {n k : Nat} {pb sb : RunOut} (hfirst : (r.chunk c).firstRun = some (n, pb, k, sb)) :
    exec (.verdict die g c shadow) s =
      .next ((((verdictFails (s.inc (Cnt.FEN_SHADOWS (r.chunk c).spare)) (r.chunk c).phys).chargeVerdict n).chargeVerdict k).fenAbort r 2) := by
  show execVerdict die g c shadow s = _
  unfold execVerdict
  rw [hround]
  dsimp only
  rw [hresult]
  refine (if_neg (by simp [hverdict])).trans ((if_neg hdiffers).trans ?_)
  rw [hfirst]
end
end

/-! ### FEN_MEM_ERROR (R574) -/

/-- The beat of a slot of tier 1, seen by its channel; SRAM has none. -/
abbrev slotBeatSeen (die : Nat) (tier1 : Bool) (slot beat : Nat) (s : State) : State :=
  if tier1 then s.beatSeen ⟨s.chanOf 0 (s.rdWide (Reg.FADM_T1_BASE die) 2 / 2097152 * 2097152 + 65536 * slot + 64 * beat), true⟩ else s

theorem exec_fenMemError_owned {s : State} {die : Nat} {tier1 : Bool} {slot beat p : Nat}
    (hp : (slotBeatSeen die tier1 slot beat s).slotOwner die tier1 slot = some p) :
    exec (.fenMemError die tier1 slot beat) s = .next ((slotBeatSeen die tier1 slot beat s).fenPartReset die p true) := by
  show execFenMemError die tier1 slot beat s = _
  unfold execFenMemError
  dsimp only
  rw [hp]

theorem exec_fenMemError_unowned {s : State} {die : Nat} {tier1 : Bool} {slot beat : Nat}
    (hnone : (slotBeatSeen die tier1 slot beat s).slotOwner die tier1 slot = none) :
    exec (.fenMemError die tier1 slot beat) s = .next (slotBeatSeen die tier1 slot beat s) := by
  show execFenMemError die tier1 slot beat s = _
  unfold execFenMemError
  dsimp only
  rw [hnone]

/-- Settles O22: a chunk's round and result, then its verdict and first run, choose what CHUNK_RELEASE and VERDICT do; REDUCER_UE is one effect. -/
theorem fenResultsComplete : Obligations.FenResultsComplete := by
  unfold Obligations.FenResultsComplete
  refine ⟨?release, ?verdict, ?memError, fun s n => rfl⟩
  case release =>
    intro s die g c r out right hround hresult hreleased hsent hfrozen hpass
    have hleaves := exec_chunkRelease_leaves hround hresult hreleased hsent hfrozen hpass
    refine ⟨fun hhall hverdict => ?_, fun hroot hspec => ?_⟩
    · rw [hleaves (.inl hverdict), if_pos hhall]
    · have hfree : (r.chunk c).verdict ≠ 1 ∨ dSpec r.desc = true ∧ isHall r.desc = false :=
        (Decidable.em ((r.chunk c).verdict = 1)).symm.imp id fun hverdict => ⟨hspec hverdict, hroot⟩
      rw [hleaves hfree, if_neg (by simp [hroot])]
      refine ⟨fun hkind hfenced => if_pos ⟨hkind, hfenced⟩, fun hgo => if_neg ?_⟩
      rintro ⟨hkind, hfenced⟩
      rcases hgo with hne | hunfenced
      · exact hne hkind
      · exact absurd hfenced (Bool.eq_false_iff.1 hunfenced)
  case verdict =>
    intro s die g c r out right shadow hround hresult hverdict ch sh u w v settled
    refine ⟨fun hagrees hfirst => ?_, fun n pb k sb hagrees hfirst => ?_, fun hdiffers hfirst => ?_, fun n pb k sb hdiffers hfirst => ?_⟩
    · exact exec_verdict_agrees hround hresult hverdict hagrees (by rw [hfirst])
    · exact exec_verdict_agrees hround hresult hverdict hagrees (by rw [hfirst])
    · exact exec_verdict_differs_first hround hresult hverdict hdiffers hfirst
    · exact exec_verdict_differs_again hround hresult hverdict hdiffers hfirst
  case memError => exact fun s die slot beat tier1 => ⟨fun p => exec_fenMemError_owned, exec_fenMemError_unowned⟩

end Sys2Proof.FenResults
end

section
/-! PROOFS. O27: the memory tiers: training, the arbiter of a channel, the patrol scrubber (chapter 12, R584–R594, R638). -/
namespace Sys2Proof.TierRows
open Sys2Proof Sys2Proof.Machine Sys2Proof.CommandGates

/-! ### The best of a list -/

section
variable {α : Type} {better : α → α → Bool} {w : α}

/-- One that beats every other of a list is what a fold that keeps the better of two ends with. -/
theorem foldl_keeps_best : ∀ (l : List α) (b : α), (∀ c ∈ l, c ≠ w → better c w = false ∧ better w c = true) → (b = w ∨ w ∈ l ∧ better w b = true) →
    l.foldl (fun b c => if better c b then c else b) b = w := by
  intro l
  induction l with
  | nil => intro b _ hb; simpa using hb
  | cons c l ih =>
    intro b hbest hb
    have hrest : ∀ c ∈ l, c ≠ w → better c w = false ∧ better w c = true := fun c hc => hbest c (List.mem_cons_of_mem _ hc)
    refine ih _ hrest ?_
    by_cases hc : c = w
    case pos =>
      rcases hb with rfl | ⟨-, hwins⟩
      · simp [hc]
      · simp [hc, hwins]
    case neg =>
      obtain ⟨hloses, hbeats⟩ := hbest c List.mem_cons_self hc
      rcases hb with rfl | ⟨hw, hwins⟩
      · simp [hloses]
      · have hw' : w ∈ l := (List.mem_cons.1 hw).resolve_left (Ne.symm hc)
        refine .inr ⟨hw', ?_⟩
        by_cases hcb : better c b = true <;> simp [hcb, hbeats, hwins]
end

/-! ### TIER_GRANT (R592, R593) -/

section
variable (ch idle : Nat) (rs : List TierReq) (s : State)

/-- A cycle of the channel given, `idle` cycles after the last. -/
abbrev cycleGiven : State := s.setChan ch { s.chan ch with cyc := (s.chan ch).cyc + idle + 1 }

/-- The requests that are not in back-off. -/
abbrev tierCands (u : State) : List TierReq := rs.filter fun r => decide (Tbl.getD (u.chan ch).until_ 0 r.client ≤ (u.chan ch).cyc)

/-- A request of Peat's among them noted. -/
abbrev peatNoted (cand : List TierReq) (u : State) : State :=
  if cand.any fun r => r.client == 2 then u.setChan ch { u.chan ch with peatReq := (u.chan ch).peatReq + 1 } else u

/-- The state a grant with room is decided in. -/
abbrev grantState : State := peatNoted ch (tierCands ch rs (cycleGiven ch idle s)) (cycleGiven ch idle s)

/-- Does a request go before another: more credit, or as much and earlier in the rotation (R593)? -/
abbrev goesBefore (v : State) (r q : TierReq) : Bool := decide (v.credit ch q.client < v.credit ch r.client) ||
  (v.credit ch r.client == v.credit ch q.client && decide ((r.client + 8 - v.chOffset ch) % 8 < (q.client + 8 - v.chOffset ch) % 8))

/-- What a cycle with room gives on a channel that no client has locked: a grant to the best of the candidates, and a loss to the others. -/
def grantFree (v : State) (cand : List TierReq) : Result :=
  match cand with
  | [] => .next v
  | r :: rest =>
    let w := rest.foldl (fun w q => if goesBefore ch v q w then q else w) r
    .next ((cand.filter fun r => r.client != w.client).foldl (fun t r => t.loseTier ch r.client) (v.grantTier ch w))

variable {ch idle rs s}

theorem grantFree_best {v : State} {cand : List TierReq} {w : TierReq} (hw : w ∈ cand)
    (hbest : ∀ r ∈ cand, r ≠ w → goesBefore ch v r w = false ∧ goesBefore ch v w r = true) :
    grantFree ch v cand = .next ((cand.filter fun r => r.client != w.client).foldl (fun t r => t.loseTier ch r.client) (v.grantTier ch w)) := by
  cases cand with
  | nil => exact absurd hw List.not_mem_nil
  | cons r rest =>
    have hwins : r = w ∨ w ∈ rest ∧ goesBefore ch v w r = true := by
      rcases List.mem_cons.1 hw with rfl | hrest
      · exact .inl rfl
      · exact (Decidable.em (r = w)).imp id fun hne => ⟨hrest, (hbest r List.mem_cons_self hne).2⟩
    have := foldl_keeps_best rest r (fun c hc => hbest c (List.mem_cons_of_mem _ hc)) hwins
    simp only [grantFree, this]

/-- More credit, or as much and earlier in the rotation: one that goes before another is not gone before by it. -/
theorem goesBefore_of {v : State} {r w : TierReq} (h : v.credit ch r.client < v.credit ch w.client ∨
      (v.credit ch r.client = v.credit ch w.client ∧ (w.client + 8 - v.chOffset ch) % 8 < (r.client + 8 - v.chOffset ch) % 8)) :
    goesBefore ch v r w = false ∧ goesBefore ch v w r = true := by
  simp only [goesBefore, Bool.or_eq_false_iff, Bool.or_eq_true, Bool.and_eq_true, Bool.and_eq_false_iff, beq_iff_eq, beq_eq_false_iff_ne,
    decide_eq_true_eq, decide_eq_false_iff_not]
  omega

section
variable (hlocked : (grantState ch idle rs s).chLocked ch = true)
include hlocked

theorem exec_tierGrant_ownerAbsent
    (hnone : (tierCands ch rs (cycleGiven ch idle s)).find? (fun r => r.client == (grantState ch idle rs s).chOwner ch) = none) :
    exec (.tierGrant ch idle rs true) s = .next (grantState ch idle rs s) := by
  refine Eq.trans (if_pos hlocked : execTierGrant ch idle rs true s = _) ?_
  rw [hnone]

theorem exec_tierGrant_owner {r : TierReq}
    (hr : (tierCands ch rs (cycleGiven ch idle s)).find? (fun r => r.client == (grantState ch idle rs s).chOwner ch) = some r) :
    exec (.tierGrant ch idle rs true) s = .next ((grantState ch idle rs s).grantTier ch r) := by
  refine Eq.trans (if_pos hlocked : execTierGrant ch idle rs true s = _) ?_
  rw [hr]
end

section
variable (hfree : (grantState ch idle rs s).chLocked ch = false)
include hfree

theorem exec_tierGrant_free : exec (.tierGrant ch idle rs true) s = grantFree ch (grantState ch idle rs s) (tierCands ch rs (cycleGiven ch idle s)) :=
  (if_neg (Bool.eq_false_iff.1 hfree) : execTierGrant ch idle rs true s = _)
end
end

/-! ### SCRUB (R588) -/

/-- The tier and the address there that the scrubber reads next. -/
abbrev scrubAt (s : State) : Nat × Nat :=
  let at_ := s.peat.scrub % (s.tierBytes 0 + s.tierBytes 1)
  if at_ < s.tierBytes 0 then (0, at_) else (1, at_ - s.tierBytes 0)

theorem scrubAt_eq (s : State) :
    let at_ := s.peat.scrub % (s.tierBytes 0 + s.tierBytes 1)
    scrubAt s = (if at_ < s.tierBytes 0 then 0 else 1, if at_ < s.tierBytes 0 then at_ else at_ - s.tierBytes 0) := by
  dsimp only [scrubAt]
  split <;> rfl

/-- The scrubber gone on by one beat. -/
def scrubOn (s : State) : State :=
  let n := s.tierBytes 0 + s.tierBytes 1
  let at_ := s.peat.scrub % n
  let wrap := decide (n ≤ at_ + 64)
  let u := s.setPeat fun q => { q with scrub := if wrap then 0 else at_ + 64 }
  if wrap then u.inc Cnt.TIER_SCRUB_PASSES else u

/-- At the end of the tiers it begins again, with a pass counted. -/
theorem scrubOn_eq (s : State) :
    let n := s.tierBytes 0 + s.tierBytes 1
    let at_ := s.peat.scrub % n
    scrubOn s =
      if n ≤ at_ + 64 then (s.setPeat fun q => { q with scrub := 0 }).inc Cnt.TIER_SCRUB_PASSES else s.setPeat fun q => { q with scrub := at_ + 64 } := by
  intro n at_
  by_cases hend : n ≤ at_ + 64 <;> simp only [scrubOn, n, at_] at hend ⊢ <;> simp [hend]

theorem beatSeen_corrected (s : State) (c : Nat) : s.beatSeen ⟨c, false⟩ = s.inc (Cnt.TIER_CHAN_CE (c + 1)) := if_neg Bool.false_ne_true

theorem beatSeen_uncorrectable (s : State) (c : Nat) : s.beatSeen ⟨c, true⟩ =
    ((s.inc (Cnt.TIER_CHAN_UE (c + 1))).irq (chPg c) 2).logErr (chPg c) 0x0100 2 (locPage (chPg c)) := if_pos rfl

/-- What the scrubber does with the beat it read. -/
def scrubReads (s : State) (parts : List Nat) (at_ : Nat × Nat) : EccRes → State
  | .ok => scrubOn s
  | .corrected => (scrubOn s).beatSeen ⟨s.chanOf at_.1 at_.2, false⟩
  | .uncorrectable => ((scrubOn s).beatSeen ⟨s.chanOf at_.1 at_.2, true⟩).beatUe at_.1 at_.2 parts

theorem exec_scrub {s : State} (hen : s.flag Reg.TIER_CTRL Fld.TIER_CTRL_SCRUB_EN = true) (hn : s.tierBytes 0 + s.tierBytes 1 ≠ 0) (res : EccRes)
    (parts : List Nat) : exec (.scrub res parts) s = .next (scrubReads s parts (scrubAt s) res) := by
  have hon : ¬(!s.flag Reg.TIER_CTRL Fld.TIER_CTRL_SCRUB_EN || s.tierBytes 0 + s.tierBytes 1 == 0) = true := by simp [hen]; omega
  refine Eq.trans (if_neg hon : execScrub res parts s = _) ?_
  cases res <;> rfl

theorem exec_scrub_idle {s : State} (hidle : s.flag Reg.TIER_CTRL Fld.TIER_CTRL_SCRUB_EN = false ∨ s.tierBytes 0 + s.tierBytes 1 = 0) (res : EccRes)
    (parts : List Nat) : exec (.scrub res parts) s = .next s := by
  refine (if_pos ?_ : execScrub res parts s = _)
  rcases hidle with hoff | hnone <;> simp [*]

/-- Settles O27, row by row. -/
theorem tierCompletes : Obligations.TierCompletes := by
  unfold Obligations.TierCompletes
  refine ⟨?again1, ?first1, ?again2, ?first2, ?full, ?grant, ?window, ?lockBreak, ?idle, ?scrub, ?clear, ?clearChan⟩
  case again1 => exact fun s mask htrained => (if_pos htrained : execTier1Trained mask s = _)
  case again2 => exact fun s present accepted trained htrained => (if_pos htrained : execTier2Trained present accepted trained s = _)
  case first1 =>
    intro s mask hfirst t u v
    have hexec : exec (.tier1Trained mask) s = .next
        ((if mask % 256 == 255 then v.stageDone.setFlag Reg.CFG_STATUS Fld.CFG_STATUS_TIER1 true else v).irq (pg 0x0F 0) 3) :=
      (if_neg (Bool.eq_false_iff.1 hfirst) : execTier1Trained mask s = _)
    exact ⟨fun hall => by rw [hexec, if_pos (by simpa using hall)], fun hsome => by rw [hexec, if_neg (by simpa using hsome)]⟩
  case first2 =>
    intro s present accepted trained hfirst t n u v w
    have hexec : exec (.tier2Trained present accepted trained) s = .next
        ((if 0 < n then w.stageDone.setFlag Reg.CFG_STATUS Fld.CFG_STATUS_TIER2 true else w).irq (pg 0x0F 0) 3) :=
      (if_neg (Bool.eq_false_iff.1 hfirst) : execTier2Trained present accepted trained s = _)
    exact ⟨fun hserves => by rw [hexec, if_pos hserves], fun hnone => by rw [hexec, if_neg (by omega)]⟩
  case full => exact fun s ch idle rs => rfl
  case grant =>
    intro s ch idle rs u cand v
    refine ⟨exec_tierGrant_ownerAbsent, fun r hlocked => exec_tierGrant_owner hlocked, fun hfree hnone => ?_, fun w hfree hw hbest => ?_⟩
    · rw [exec_tierGrant_free hfree]
      exact congrArg (grantFree ch v) hnone
    · rw [exec_tierGrant_free hfree]
      exact grantFree_best hw fun r hr hne => goesBefore_of (hbest r hr hne)
  case window => exact fun s ch => rfl
  case lockBreak =>
    exact fun s ch => ⟨fun hfree => (if_pos (by simp [hfree]) : execLockBreak ch s = _), fun hlocked => (if_neg (by simp [hlocked]) : execLockBreak ch s = _)⟩
  case idle => exact fun s res parts hidle => exec_scrub_idle hidle res parts
  case scrub =>
    intro s parts hen hn n at_ t a c u
    have hu : u = scrubOn s := (scrubOn_eq s).symm
    have hat : scrubAt s = (t, a) := scrubAt_eq s
    have hexec (res : EccRes) : exec (.scrub res parts) s = .next (scrubReads s parts (t, a) res) := hat ▸ exec_scrub hen hn res parts
    rw [hu, ← beatSeen_corrected, ← beatSeen_uncorrectable]
    exact ⟨hexec .ok, hexec .corrected, hexec .uncorrectable⟩
  case clear => exact fun s hheld hbusy => onPage_takes hheld hbusy _
  case clearChan => exact fun s ch hheld hbusy => onPage_takes hheld hbusy _

end Sys2Proof.TierRows
end

section
/-! PROOFS. O26: Peat's partitions, moves, power and commands (chapter 12, R596, R602, R615, R621, R622, R630–R637, R845). -/
namespace Sys2Proof.PeatRows
open Sys2Proof Sys2Proof.Machine Sys2Proof.CommandGates

/-! ### The commands' TARGET and partition (R635) -/

section
variable {s t : State} {h : CmdHdr} {op : Nat} {body : State → State × Option Cmpl} (htakes : s.takes h op true = true)
include htakes

theorem peatCmd_badTarget (htarget : h.target ≠ 0) :
    (.next (s.peatCmd h op body) : Result) =
      .next ((s.start h op).draw.2.complete h (op / 256) ⟨(s.start h op).draw.1 % 65536, 0, 0, []⟩) :=
  cmd_completes htakes (if_pos htarget)

variable (htarget : h.target = 0)
include htarget

theorem peatCmd_completes {c : Cmpl} (hbody : body (s.start h op) = (t, some c)) :
    (.next (s.peatCmd h op body) : Result) = .next (t.complete h (op / 256) c) :=
  cmd_completes htakes ((if_neg fun hne => hne htarget).trans hbody)

theorem peatCmd_goesOn (hbody : body (s.start h op) = (t, none)) : (.next (s.peatCmd h op body) : Result) = .next t :=
  cmd_goesOn htakes ((if_neg fun hne => hne htarget).trans hbody)
end

/-! ### PEAT_PART_SET (R596, R635, R636) -/

section
variable (p ring ten grp f1 c1 f2 c2 base l en : Nat) (a : State)

/-- The registers of a partition written by PEAT_PART_SET. -/
abbrev partWritten : State :=
  let u := (a.wr (Reg.PEAT_PART_CFG p) (BitVec.ofNat 32 (b2n (bit 0 en) * 2 ^ 31 + ring % 256 * 2 ^ 16 + ten % 2 ^ 16))).wr
    (Reg.PEAT_PART_ACCESS p) (BitVec.ofNat 32 (grp % 2 ^ 20))
  let v := (u.wr (Reg.PEAT_PART_T1_FIRST p) (BitVec.ofNat 32 (f1 % 2 ^ 25))).wr (Reg.PEAT_PART_T1_COUNT p) (BitVec.ofNat 32 (c1 % 2 ^ 25))
  let w := (v.wr (Reg.PEAT_PART_T2_FIRST p) (BitVec.ofNat 32 (f2 % 2 ^ 25))).wr (Reg.PEAT_PART_T2_COUNT p) (BitVec.ofNat 32 (c2 % 2 ^ 25))
  w.wr (Reg.PEAT_PART_DIR p) (BitVec.ofNat 32 (l * 2 ^ 24 + base % 2 ^ 24))

/-- The partition's blocks forgotten: its owners and its stash. -/
abbrev partForgotten (x : State) : State :=
  (x.setPeat fun q => { q with owner := q.owner.filter fun o => o.2 / 2 ^ 32 != p, stash := q.stash.filter fun z => z.1 / 4 != p }).stashCount p

/-- Is its directory new, or newly enabled? -/
abbrev newDir : Bool := !a.partOn p || a.dirOff p 0 != 65536 * base || a.dirLog2 p != l

/-- Does it hold blocks that another slot range or tenant would lose? -/
abbrev partHeld : Bool := a.partOn p && (a.peat.owner.any fun o => o.2 / 2 ^ 32 == p) &&
  (!(a.slotRange p 0 == (f1, c1) && a.slotRange p 1 == (f2, c2)) || !(a.partTenant p == ten))

theorem partHeld_eq : partHeld p ten f1 c1 f2 c2 a = (a.partOn p && (a.peat.owner.any fun o => o.2 / 2 ^ 32 == p) &&
    !(a.slotRange p 0 == (f1, c1) && a.slotRange p 1 == (f2, c2) && a.partTenant p == ten)) := by
  rw [Bool.not_and (_ && _)]

theorem newDir_false (hon : a.partOn p = true) (hoff : a.dirOff p 0 = 65536 * base) (hlog : a.dirLog2 p = l) : newDir p base l a = false := by
  simp [newDir, hon, hoff, hlog]

theorem newDir_true (hnew : a.partOn p = false ∨ a.dirOff p 0 ≠ 65536 * base ∨ a.dirLog2 p ≠ l) : newDir p base l a = true := by
  simpa [newDir, or_assoc] using hnew

variable {p ring ten grp f1 c1 f2 c2 base l en} {s : State} {h : CmdHdr} (htakes : s.takes h 0x0E01 true = true) (htarget : h.target = 0)
include htakes htarget

theorem exec_peatPartSet_notReady (hready : (s.start h 0x0E01).tierReady 0 = false) :
    exec (.peatPartSet h p ring ten grp f1 c1 f2 c2 base l en) s = .next ((s.start h 0x0E01).complete h 0x0E ⟨0x0102, 0, 0, []⟩) :=
  peatCmd_completes htakes htarget (if_pos (by simp [hready]))

variable (hready : (s.start h 0x0E01).tierReady 0 = true)
include hready

theorem exec_peatPartSet_noFit (hfits : (s.start h 0x0E01).partFits p f1 c1 f2 c2 base l = false) :
    exec (.peatPartSet h p ring ten grp f1 c1 f2 c2 base l en) s = .next ((s.start h 0x0E01).complete h 0x0E ⟨0x0100, 0, 0, []⟩) :=
  peatCmd_completes htakes htarget ((if_neg (by simp [hready])).trans (if_pos (by simp [hfits])))

variable (hfits : (s.start h 0x0E01).partFits p f1 c1 f2 c2 base l = true)
include hfits

theorem exec_peatPartSet_held (hheld : partHeld p ten f1 c1 f2 c2 (s.start h 0x0E01) = true) :
    exec (.peatPartSet h p ring ten grp f1 c1 f2 c2 base l en) s = .next ((s.start h 0x0E01).complete h 0x0E ⟨0x0101, 0, 0, []⟩) :=
  peatCmd_completes htakes htarget ((if_neg (by simp [hready])).trans ((if_neg (by simp [hfits])).trans (if_pos hheld)))

variable (hfree : partHeld p ten f1 c1 f2 c2 (s.start h 0x0E01) = false)
include hfree

theorem exec_peatPartSet_keepsDir (hdir : newDir p base l (s.start h 0x0E01) = false) :
    exec (.peatPartSet h p ring ten grp f1 c1 f2 c2 base l en) s =
      (partWritten p ring ten grp f1 c1 f2 c2 base l en (s.start h 0x0E01)).slotOpenClear.okFor h 0x0E := by
  refine peatCmd_completes htakes htarget ((if_neg (by simp [hready])).trans ((if_neg (by simp [hfits])).trans ((if_neg (Bool.eq_false_iff.1 hfree)).trans ?_)))
  exact congrArg (fun x : State => ok x.slotOpenClear) (if_neg (Bool.eq_false_iff.1 hdir))

theorem exec_peatPartSet_emptiesDir (hdir : newDir p base l (s.start h 0x0E01) = true) {t b n : Nat}
    (hregion : (partForgotten p (partWritten p ring ten grp f1 c1 f2 c2 base l en (s.start h 0x0E01))).regionOf 4 = some (t, b, n)) :
    exec (.peatPartSet h p ring ten grp f1 c1 f2 c2 base l en) s =
      ((partForgotten p (partWritten p ring ten grp f1 c1 f2 c2 base l en (s.start h 0x0E01))).tierZero t
        (b + (partForgotten p (partWritten p ring ten grp f1 c1 f2 c2 base l en (s.start h 0x0E01))).dirOff p 0) (dirBytes l)).slotOpenClear.okFor h 0x0E := by
  refine peatCmd_completes htakes htarget ((if_neg (by simp [hready])).trans ((if_neg (by simp [hfits])).trans ((if_neg (Bool.eq_false_iff.1 hfree)).trans ?_)))
  refine congrArg (fun x : State => ok x.slotOpenClear) ((if_pos hdir).trans ?_)
  extract_lets y
  rw [show y.regionOf 4 = some (t, b, n) from hregion]
end

/-! ### PEAT_LOOKUP and PEAT_SNAPSHOT (R602, R632, R633) -/

section
variable {s : State} {h : CmdHdr} {p : Nat} (hp : p ≤ 63) (htarget : h.target = 0)
include hp htarget

section
variable {key : Nat} (htakes : s.takes h 0x0E03 true = true)
include htakes

theorem exec_peatLookup_notReady (hready : (s.start h 0x0E03).tierReady 0 = false) :
    exec (.peatLookup h p key) s = .next ((s.start h 0x0E03).complete h 0x0E ⟨0x0102, 0, 0, []⟩) :=
  peatCmd_completes htakes htarget ((if_neg (Nat.not_lt.2 hp)).trans (if_pos (by simp [hready])))

variable (hready : (s.start h 0x0E03).tierReady 0 = true) {u : State}
include hready

theorem exec_peatLookup_found {i : Nat} (hfind : (s.start h 0x0E03).dirFind p key = (some i, u)) :
    let e := u.dirEnt p i
    exec (.peatLookup h p key) s = u.okFor h 0x0E (2 ^ 63 + b2n (ePin e) * 2 ^ 62 + eTier e * 2 ^ 61 + eFmt e * 2 ^ 48 + eGen e * 2 ^ 40 + eLoc e) := by
  refine peatCmd_completes htakes htarget ((if_neg (Nat.not_lt.2 hp)).trans ((if_neg (by simp [hready])).trans ?_))
  rw [hfind]
  rfl

theorem exec_peatLookup_absent (hfind : (s.start h 0x0E03).dirFind p key = (none, u)) :
    exec (.peatLookup h p key) s = u.okFor h 0x0E := by
  refine peatCmd_completes htakes htarget ((if_neg (Nat.not_lt.2 hp)).trans ((if_neg (by simp [hready])).trans ?_))
  rw [hfind]
  rfl
end

section
variable {off : Nat} (htakes : s.takes h 0x0E04 true = true)
include htakes

theorem exec_peatSnapshot_notReady (hready : (s.start h 0x0E04).tierReady 0 = false) :
    exec (.peatSnapshot h p off) s = .next ((s.start h 0x0E04).complete h 0x0E ⟨0x0102, 0, 0, []⟩) :=
  peatCmd_completes htakes htarget ((if_neg (Nat.not_lt.2 hp)).trans (if_pos (by simp [hready])))

variable (hready : (s.start h 0x0E04).tierReady 0 = true)
include hready

theorem exec_peatSnapshot_noRegion (hregion : (s.start h 0x0E04).regionOf 6 = none) :
    exec (.peatSnapshot h p off) s = .next ((s.start h 0x0E04).complete h 0x0E ⟨0x0100, 0, 0, []⟩) := by
  refine peatCmd_completes htakes htarget ((if_neg (Nat.not_lt.2 hp)).trans ((if_neg (by simp [hready])).trans ?_))
  dsimp only
  rw [hregion]
  rfl

/-- Bytes of a partition's snapshot: its header and its live entries (R633). -/
abbrev snapBody (a : State) (p : Nat) : List Byte := (a.liveEntries p).flatMap (leBytes 32)

variable {t b n : Nat} (hregion : (s.start h 0x0E04).regionOf 6 = some (t, b, n))
include hregion

theorem exec_peatSnapshot_out (hout : off % 64 ≠ 0 ∨ n < off + (64 + (snapBody (s.start h 0x0E04) p).length)) :
    exec (.peatSnapshot h p off) s = .next ((s.start h 0x0E04).complete h 0x0E ⟨0x0100, 0, 0, []⟩) := by
  refine peatCmd_completes htakes htarget ((if_neg (Nat.not_lt.2 hp)).trans ((if_neg (by simp [hready])).trans ?_))
  dsimp only
  rw [hregion]
  exact if_pos hout

theorem exec_peatSnapshot_in (hin : ¬(off % 64 ≠ 0 ∨ n < off + (64 + (snapBody (s.start h 0x0E04) p).length))) :
    let a := s.start h 0x0E04
    let body := snapBody a p
    let len := 64 + body.length
    let hdr := leBytes 4 0x54414550 ++ leBytes 2 1 ++ leBytes 1 p ++ leBytes 1 (a.partGen p) ++ leBytes 4 (body.length / 32) ++ leBytes 4 0 ++
      leBytes 8 a.short ++ leBytes 4 (crc32c body) ++ leBytes 36 0
    let u := (a.regionWrite 6 off (hdr ++ body)).irq peatPg 5
    exec (.peatSnapshot h p off) s = (u.post (u.fld Reg.DEL_CTRL Fld.DEL_CTRL_EVENT_RING)
      ⟨5, 0x0E, 0, 0, 0, 0, none, u.short, 0, leBytes 8 off ++ leBytes 8 len ++ leBytes 20 0⟩).okFor h 0x0E := by
  refine peatCmd_completes htakes htarget ((if_neg (Nat.not_lt.2 hp)).trans ((if_neg (by simp [hready])).trans ?_))
  extract_lets body len
  rw [hregion]
  exact if_neg hin
end
end

/-! ### STALE_SWEEP_DONE (R631) -/

/-- The sweep of p through. -/
abbrev swept (p : Nat) (s : State) : State := (s.peatSweep p).setFlag (Reg.PEAT_PART_STATUS p) Fld.PEAT_PART_STATUS_RESETTING false

section
variable {s : State} {p : Nat} (hresetting : s.flag (Reg.PEAT_PART_STATUS p) Fld.PEAT_PART_STATUS_RESETTING = true)
include hresetting

theorem exec_staleSweepDone_noneWaits (hnone : takeFirst (fun x => x.1 == p) (swept p s).peat.resetWait = none) :
    exec (.staleSweepDone p) s = .next (swept p s) := by
  refine Eq.trans (if_neg (by simp [hresetting]) : execStaleSweepDone p s = _) ?_
  extract_lets u
  rw [show takeFirst (fun x => x.1 == p) u.peat.resetWait = none from hnone]

theorem exec_staleSweepDone_waits {x : Nat × Option CmdHdr} {rest : List (Nat × Option CmdHdr)}
    (hwaits : takeFirst (fun x => x.1 == p) (swept p s).peat.resetWait = some (x, rest)) :
    exec (.staleSweepDone p) s = .next (((swept p s).setPeat fun q => { q with resetWait := rest }).peatReset p x.2) := by
  refine Eq.trans (if_neg (by simp [hresetting]) : execStaleSweepDone p s = _) ?_
  extract_lets u
  rw [show takeFirst (fun x => x.1 == p) u.peat.resetWait = some (x, rest) from hwaits]
end

/-! ### AUTO_DEMOTE (R615) -/

/-- A fold that keeps the better of the one it has and the next ends with the one that beats every other. -/
theorem foldl_best {α : Type} [DecidableEq α] {better : α → α → Prop} [∀ b c, Decidable (better b c)] {f : Option α → α → Option α}
    (hfirst : ∀ c, f none c = some c) (hnext : ∀ b c, f (some b) c = if better b c then some c else some b) {w : α} {l : List α} (hw : w ∈ l)
    (hbest : ∀ c ∈ l, c ≠ w → ¬better w c ∧ better c w) : l.foldl f none = some w := by
  have hsome : ∀ (l : List α) (b : α), l.foldl f (some b) = some (l.foldl (fun b c => if decide (better b c) then c else b) b) := by
    intro l
    induction l with
    | nil => exact fun _ => rfl
    | cons c l ih =>
      intro b
      by_cases hbc : better b c <;> simpa [hnext, hbc] using ih _
  cases l with
  | nil => exact absurd hw List.not_mem_nil
  | cons c l =>
    rw [List.foldl_cons, hfirst, hsome]
    refine congrArg some (TierRows.foldl_keeps_best (better := fun c b => decide (better b c)) l c ?_ ?_)
    · exact fun x hx hne => by simpa using hbest x (List.mem_cons_of_mem _ hx) hne
    · rcases List.mem_cons.1 hw with rfl | hrest
      · exact .inl rfl
      · exact (Decidable.em (c = w)).imp id fun hne => ⟨hrest, by simpa using (hbest c List.mem_cons_self hne).2⟩

section
variable (p : Nat)

/-- The state when a scan begins. -/
abbrev scanAt (s : State) : State := s.elapseToTick (max s.peat.demoteAt (Tbl.getD s.peat.stopUntil 0 p))

/-- The candidates of a scan: slots of up to 64 from the hand, in the partition's range r, that hold an entry which is not pinned. -/
abbrev demoteCands (r : Nat × Nat) (u : State) : List (Nat × Nat) :=
  ((List.range (min 64 r.2)).map fun i => (Tbl.getD u.peat.hand 0 p + i) % r.2).filterMap fun o =>
    (Tbl.find u.peat.owner (slotKey 0 (r.1 + o))).bind fun w =>
      if ePin (u.dirEnt p ((w - 1) % 2 ^ 32)) then none else some (r.1 + o, (w - 1) % 2 ^ 32)

/-- The partition noted as one that is being brought down. -/
abbrev demotingNoted (u : State) : State := u.setPeat fun q => { q with demoting := if q.demoting.contains p then q.demoting else q.demoting ++ [p] }

/-- How long ago an entry was used (R615). -/
abbrev entryAge (v : State) (i : Nat) : Nat := (v.useNow + 2 ^ 24 - eUse (v.dirEnt p i)) % 2 ^ 24

/-- Is candidate c demoted before b: longer unused, or as long and in a lower slot? -/
abbrev demotedBefore (v : State) (b c : Nat × Nat) : Prop :=
  entryAge p v b.2 < entryAge p v c.2 ∨ (entryAge p v b.2 = entryAge p v c.2 ∧ c.1 < b.1)

/-- The imbalance reported, until the next millisecond. -/
abbrev imbalanceReported (v : State) : State :=
  let w := (v.irq peatPg 4).levelReport 3 p
  w.setPeat fun q => { q with stopUntil := Tbl.put q.stopUntil p ((w.time.ticks / 781250 + 1) * 781250) }

/-- The scan's hand and the time of its next copy set. -/
abbrev scanEnds (count : Nat) (u : State) (rate : Nat) (w : State) : State :=
  w.setPeat fun q => { q with
    hand := Tbl.put q.hand p ((Tbl.getD u.peat.hand 0 p + min 64 count) % count), demoteAt := w.time.ticks + nsTicks (ceilDiv 655360 rate) }

variable {p} {s : State} (hon : s.partOn p = true) (hrun : s.aboveHigh p = true ∨ s.peat.demoting.contains p = true ∧ s.atLow p = false)
  (hfrozen : s.frozen = false) (hrate : s.fld Reg.PEAT_DEMOTE Fld.PEAT_DEMOTE_RATE ≠ 0)
include hon hrun hfrozen hrate

theorem autoDemote_runs : ¬(!(s.partOn p && (s.aboveHigh p || (s.peat.demoting.contains p && !s.atLow p))) || s.frozen ||
    s.fld Reg.PEAT_DEMOTE Fld.PEAT_DEMOTE_RATE == 0) = true := by
  rcases hrun with habove | ⟨hbrought, hnotLow⟩ <;> simp_all

variable {first count : Nat} (hrange : (scanAt p s).slotRange p 0 = (first, count))
include hrange

theorem exec_autoDemote_reports (hnone : demoteCands p (first, count) (scanAt p s) = [] ∨
      (demotingNoted p (scanAt p s)).slotFree 1 ((demotingNoted p (scanAt p s)).slotRange p 1) = none) :
    exec (.autoDemote p) s = .next (imbalanceReported p (demotingNoted p (scanAt p s))) := by
  have hstop : ((demoteCands p (first, count) (scanAt p s)).isEmpty ||
      ((demotingNoted p (scanAt p s)).slotFree 1 ((demotingNoted p (scanAt p s)).slotRange p 1)).isNone) = true := by
    rcases hnone with hnone | hfull <;> simp only [*] <;> simp
  show execAutoDemote p s = _
  unfold execAutoDemote
  extract_lets rate run u
  rw [if_neg (autoDemote_runs hon hrun hfrozen hrate), show u.slotRange p 0 = (first, count) from hrange]
  dsimp -zeta only
  extract_lets offs cand
  have hcand : demoteCands p (first, count) (scanAt p s) = cand := by with_reducible rfl
  rw [if_pos (hcand ▸ hstop)]

theorem exec_autoDemote_demotes {w : Nat × Nat} (hw : w ∈ demoteCands p (first, count) (scanAt p s))
    (hroom : ((demotingNoted p (scanAt p s)).slotFree 1 ((demotingNoted p (scanAt p s)).slotRange p 1)).isSome = true)
    (hbest : ∀ c ∈ demoteCands p (first, count) (scanAt p s), c ≠ w → demotedBefore p (demotingNoted p (scanAt p s)) c w) :
    let x := scanEnds p count (scanAt p s) (s.fld Reg.PEAT_DEMOTE Fld.PEAT_DEMOTE_RATE)
      (((demotingNoted p (scanAt p s)).peatMove p w.2 1).2.inc Cnt.PEAT_AUTO_DEMOTES)
    exec (.autoDemote p) s =
      .next ((if x.atLow p then x.setPeat fun q => { q with demoting := q.demoting.filter (· != p) } else x).noteLevel p) := by
  have hgo : ¬((demoteCands p (first, count) (scanAt p s)).isEmpty ||
      ((demotingNoted p (scanAt p s)).slotFree 1 ((demotingNoted p (scanAt p s)).slotRange p 1)).isNone) = true := by
    simp only [Bool.or_eq_true, List.isEmpty_iff, Option.isNone_iff_eq_none, not_or]
    exact ⟨List.ne_nil_of_mem hw, Option.isSome_iff_ne_none.1 hroom⟩
  intro x
  show execAutoDemote p s = _
  unfold execAutoDemote
  extract_lets rate run u hand v rep age
  rw [if_neg (autoDemote_runs hon hrun hfrozen hrate), show u.slotRange p 0 = (first, count) from hrange]
  dsimp -zeta only
  extract_lets offs cand best moved ended done
  have hcand : demoteCands p (first, count) (scanAt p s) = cand := by with_reducible rfl
  have hfirst : ∀ c ∈ cand, c ≠ w → ¬(age w.2 < age c.2 ∨ (age w.2 = age c.2 ∧ c.1 < w.1)) ∧ (age c.2 < age w.2 ∨ (age c.2 = age w.2 ∧ w.1 < c.1)) := by
    intro c hc hne
    have hc : age c.2 < age w.2 ∨ (age c.2 = age w.2 ∧ w.1 < c.1) := by with_reducible exact hbest c (hcand ▸ hc) hne
    exact ⟨by omega, hc⟩
  have hcandw : w ∈ cand := hcand ▸ hw
  clear_value age cand
  have hvictim : best = some w :=
    foldl_best (better := fun b c => age b.2 < age c.2 ∨ (age b.2 = age c.2 ∧ c.1 < b.1)) (fun _ => rfl) (fun _ _ => rfl) hcandw hfirst
  rw [if_neg (hcand ▸ hgo)]
  simp only [done, ended, moved, hvictim]
  with_reducible rfl
end

/-- Settles O26, row by row: the TARGET and the partition first, then what each row finds in the partition, its sweep or its scan. -/
theorem peatRowsComplete : Obligations.PeatRowsComplete := by
  unfold Obligations.PeatRowsComplete
  refine ⟨?badTarget, ?partSet, ?partReset, ?badPart, ?lookup, ?snapshot, ?usage, ?partUe, ?reset, ?sweep, ?demote, ?power, ?clear⟩
  case badTarget =>
    rintro s h c opcode ⟨p, ring, ten, grp, f1, c1, f2, c2, base, l, en, key, off, hmem⟩ htakes htarget
    simp only [List.mem_cons, List.not_mem_nil, or_false, Prod.mk.injEq] at hmem
    rcases hmem with ⟨rfl, rfl⟩ | ⟨rfl, rfl⟩ | ⟨rfl, rfl⟩ | ⟨rfl, rfl⟩ | ⟨rfl, rfl⟩ <;> exact peatCmd_badTarget htakes htarget
  case partSet =>
    intro s h p ring ten grp f1 c1 f2 c2 base l en htakes htarget a done holds same
    refine ⟨exec_peatPartSet_notReady htakes htarget, exec_peatPartSet_noFit htakes htarget, fun hready hfits => ⟨fun hon hholds hsame => ?_, fun hfree => ?_⟩⟩
    · refine exec_peatPartSet_held htakes htarget hready hfits ?_
      rw [partHeld_eq, Bool.and_eq_true, Bool.and_eq_true, Bool.not_eq_true']
      exact ⟨⟨hon, hholds⟩, hsame⟩
    · have hkept : partHeld p ten f1 c1 f2 c2 a = false := by
        rw [partHeld_eq, Bool.and_eq_false_iff, Bool.and_eq_false_iff, Bool.not_eq_false', or_assoc]
        exact hfree
      refine ⟨fun hon hoff hlog => ?_, fun hnew t b n hregion => ?_⟩
      · exact exec_peatPartSet_keepsDir htakes htarget hready hfits hkept (newDir_false _ _ _ _ hon hoff hlog)
      · exact exec_peatPartSet_emptiesDir htakes htarget hready hfits hkept (newDir_true _ _ _ _ hnew) hregion
  case partReset =>
    intro s h p htakes htarget hp a
    have hexec : exec (.peatPartReset h p) s = .next (a.peatReset p (some h)) := peatCmd_goesOn htakes htarget (if_neg (Nat.not_lt.2 hp))
    exact ⟨fun hidle => by rw [hexec, State.peatReset_now (some h) hidle]; rfl,
      fun hresetting => by rw [hexec, State.peatReset_waits (some h) hresetting]⟩
  case badPart =>
    rintro s h c opcode p ⟨key, off, hmem⟩ htakes htarget hp
    simp only [List.mem_cons, List.not_mem_nil, or_false, Prod.mk.injEq] at hmem
    rcases hmem with ⟨rfl, rfl⟩ | ⟨rfl, rfl⟩ | ⟨rfl, rfl⟩ | ⟨rfl, rfl⟩ <;> exact peatCmd_completes htakes htarget (if_pos hp)
  case lookup =>
    exact fun s h p key htakes htarget hp => ⟨exec_peatLookup_notReady hp htarget htakes,
      fun i u hready => exec_peatLookup_found hp htarget htakes hready, fun u hready => exec_peatLookup_absent hp htarget htakes hready⟩
  case snapshot =>
    intro s h p off htakes htarget hp a body len bad
    refine ⟨exec_peatSnapshot_notReady hp htarget htakes, exec_peatSnapshot_noRegion hp htarget htakes, fun t b n hready hregion =>
      ⟨exec_peatSnapshot_out hp htarget htakes hready hregion, fun halign hroom => exec_peatSnapshot_in hp htarget htakes hready hregion ?_⟩⟩
    exact not_or.2 ⟨not_not.2 halign, Nat.not_lt.2 hroom⟩
  case usage => exact fun s h p htakes htarget hp => peatCmd_completes htakes htarget (if_neg (Nat.not_lt.2 hp))
  case partUe => exact fun s chan parts => rfl
  case reset => exact fun t p => ⟨State.peatReset_now none, State.peatReset_waits none⟩
  case sweep =>
    exact fun s p => ⟨fun hidle => (if_pos (by simp [hidle]) : execStaleSweepDone p s = _), fun hresetting =>
      ⟨exec_staleSweepDone_noneWaits hresetting, fun x rest => exec_staleSweepDone_waits hresetting⟩⟩
  case demote =>
    intro s p rate hon hrun hfrozen hrate u n hand cand v
    have hrange : (scanAt p s).slotRange p 0 = ((u.slotRange p 0).1, n) := Prod.mk.eta.symm
    refine ⟨fun hnone => ?_, ?_⟩
    · with_reducible exact exec_autoDemote_reports hon hrun hfrozen hrate hrange hnone
    · intro slot idx hcand hroom age hbest w x
      have hexec := exec_autoDemote_demotes hon hrun hfrozen hrate hrange (w := (slot, idx)) (by with_reducible exact hcand)
        (by with_reducible exact hroom) (by with_reducible exact hbest)
      refine ⟨fun hnotLow => ?_, fun hlow => ?_⟩
      · rw [hexec]; with_reducible exact congrArg (fun y : State => Host.Outcome.next (y.noteLevel p)) (if_neg (Bool.eq_false_iff.1 hnotLow))
      · rw [hexec]; with_reducible exact congrArg (fun y : State => Host.Outcome.next (y.noteLevel p)) (if_pos hlow)
  case power => exact fun s want => rfl
  case clear => exact fun s hheld hbusy => onPage_takes hheld hbusy _

end Sys2Proof.PeatRows
end

section
/-! PROOFS. O29, O30: Frost, Thaw, snapshots and the trace (chapter 13, R662–R683). -/
namespace Sys2Proof.FrostRows
open Sys2Proof Sys2Proof.Machine Sys2Proof.CommandGates

/-- Settles O30, row by row. -/
theorem traceCompletes : Obligations.TraceCompletes := by
  unfold Obligations.TraceCompletes
  refine ⟨fun s hheld hbusy => ⟨?arm, ?armNot, ?trigger, ?triggerNot, ?mark⟩, ?captureEnd⟩
  case arm => exact fun hidle => (onPage_takes hheld hbusy _).trans (congrArg _ (if_pos hidle))
  case armNot => exact fun h0 h3 => (onPage_takes hheld hbusy _).trans (congrArg _ (if_neg (not_or.2 ⟨h0, h3⟩)))
  case trigger => exact fun harmed => (onPage_takes hheld hbusy _).trans (congrArg _ (if_pos harmed))
  case triggerNot => exact fun hnot => (onPage_takes hheld hbusy _).trans (congrArg _ (if_neg hnot))
  case mark => exact fun m => onPage_takes hheld hbusy _
  case captureEnd =>
    intro s
    refine ⟨fun hcapt hposts => ?_, fun hcapt hposts hfull => ?_, fun hnot => ?_⟩
    · refine (if_pos ⟨hcapt, .inl hposts⟩ : execTraceCaptureEnd s = _).trans ?_
      rw [decide_eq_false (Nat.not_lt.2 hposts)]
    · refine (if_pos ⟨hcapt, .inr hfull⟩ : execTraceCaptureEnd s = _).trans ?_
      rw [decide_eq_true hposts]
    · refine (if_neg ?_ : execTraceCaptureEnd s = _)
      rintro ⟨hcapt, hend⟩
      rcases hnot with hidle | ⟨hposts, hfull⟩
      · simp [hidle] at hcapt
      · rcases hend with hle | hfull'
        · omega
        · simp [hfull] at hfull'

/-! ### FROST_LATCH (R665, R672) -/

/-- The T of an armed Frost. -/
def armedAt (s : State) : Option Nat := if s.frostState = 1 then some s.frostT else none

/-- The earlier of an armed Frost's T and a SNAPSHOT's. -/
def firstLatch (s : State) : Option Nat := match armedAt s, s.del.snapAt with
  | some a, some b => some (if fromShort a ≤ fromShort b then a else b)
  | some a, none => some a
  | none, b => b

/-- Has a time, where there is one, come? -/
def isDue (s : State) (x : Option Nat) : Bool := match x with
  | some t => decide (fromShort t < s.time.now)
  | none => false

/-- A device-time step has skipped the T of the latch. -/
abbrev skipped (s : State) (t : Nat) : Bool := s.stepCount != s.del.epochAt && decide (fromShort t < s.time.now)

/-- The latch of what is due in a state: of T where no Frost is among it. -/
def latchDue (u : State) (t : Nat) (armed : Option Nat) (stepped : Bool) : State :=
  u.latch (if isDue u armed then u.frostT else t) (isDue u armed) (isDue u u.del.snapAt) stepped

section
variable {s : State} {t : Nat}

theorem exec_frostLatch (hfirst : firstLatch s = some t) :
    exec .frostLatch s = .next (latchDue (s.elapseToDev (fromShort t + 1)) t (armedAt s) (skipped s t)) := by
  show execFrostLatch s = _
  unfold execFrostLatch
  extract_lets armed first
  rw [show first = some t from hfirst, show armedAt s = armed from rfl]
  clear_value armed
  dsimp only
  generalize s.elapseToDev (fromShort t + 1) = u
  rfl

theorem firstLatch_eq_some (hfirst : (s.frostState = 1 ∧ t = s.frostT ∧ ∀ b, s.del.snapAt = some b → fromShort t ≤ fromShort b) ∨
    (s.del.snapAt = some t ∧ (s.frostState = 1 → fromShort t < fromShort s.frostT))) : firstLatch s = some t := by
  rcases hfirst with ⟨harmed, rfl, hearlier⟩ | ⟨hsnap, hearlier⟩
  case inl =>
    cases hpend : s.del.snapAt with
    | none => simp [firstLatch, armedAt, harmed, hpend]
    | some b => simp [firstLatch, armedAt, harmed, hpend, hearlier b hpend]
  case inr =>
    by_cases harmed : s.frostState = 1
    · simp [firstLatch, armedAt, harmed, hsnap, hearlier harmed]
    · simp [firstLatch, armedAt, harmed, hsnap]

theorem latchDue_frost {u : State} {armed : Option Nat} (hdue : isDue u armed = true) (stepped : Bool) :
    latchDue u t armed stepped = u.latch u.frostT true (isDue u u.del.snapAt) stepped := by
  rw [latchDue, hdue, if_pos rfl]

theorem latchDue_snapshot {u : State} {armed : Option Nat} (hnot : isDue u armed = false) (stepped : Bool) :
    latchDue u t armed stepped = u.latch t false (isDue u u.del.snapAt) stepped := by
  rw [latchDue, hnot, if_neg Bool.false_ne_true]

theorem isDue_armed {u : State} (harmed : s.frostState = 1) : isDue u (armedAt s) = decide (fromShort s.frostT < u.time.now) := by
  rw [armedAt, if_pos harmed, isDue]

theorem isDue_not_armed {u : State} (hnot : s.frostState ≠ 1) : isDue u (armedAt s) = false := by
  rw [armedAt, if_neg hnot, isDue]
end

/-! ### FROST_IN_EDGE (R663) -/

section
variable {enabled stuck quiet : Bool} {m n : Nat}

theorem deaf_of_not_live (h : (enabled && !stuck) = false) : (!enabled || stuck) = true := by
  have hno : (!(enabled && !stuck)) = true := bnot_of_false h
  rwa [Bool.not_and, Bool.not_not] at hno

theorem not_deaf_of_live (h : (enabled && !stuck) = true) : ¬ (!enabled || stuck) = true := by
  obtain ⟨henabled, hstuck⟩ := Bool.and_eq_true_iff.1 h
  simp [henabled, (Bool.not_eq_true' stuck).mp hstuck]

/-- An edge is ignored while quiet, with a Frost that is not idle, or with time in UNSET or ACQUIRE. -/
theorem ignored_iff : (quiet || m != 0 || n == 0 || n == 1) = true ↔ quiet = true ∨ m ≠ 0 ∨ n = 0 ∨ n = 1 := by
  simp [or_assoc]
end

/-- Settles O29, row by row. -/
theorem frostCompletes : Obligations.FrostCompletes := by
  unfold Obligations.FrostCompletes
  refine ⟨?arm, ?thaw, ?cancel, ?snapshot, ?snapRead, ?latchNone, ?latch, ?outEnd, ?thaws, ?image, ?inEdge, ?inStuck, ?clear⟩
  case arm =>
    intro s h t m htakes a bad
    refine ⟨fun hm => cmd_completes htakes (if_pos hm), fun hm ht => ?_, fun hm ht hst => ?_, fun hm ht hst htime => ?_, fun hm ht hst h0 h1 => ?_⟩ <;>
      have hmode := Nat.not_lt.2 hm
    · exact cmd_completes htakes ((if_neg hmode).trans (if_pos ht))
    all_goals have hahead := Nat.not_lt.2 ht
    · exact cmd_completes htakes ((if_neg hmode).trans ((if_neg hahead).trans (if_pos hst)))
    all_goals have hidle := not_not.2 hst
    · exact cmd_completes htakes ((if_neg hmode).trans ((if_neg hahead).trans ((if_neg hidle).trans (if_pos htime))))
    · exact cmd_completes htakes ((if_neg hmode).trans ((if_neg hahead).trans ((if_neg hidle).trans (if_neg (not_or.2 ⟨h0, h1⟩)))))
  case thaw =>
    intro s h tt htakes a bad
    refine ⟨fun hearly => cmd_completes htakes (if_pos hearly), fun hahead hafter => ?_⟩
    have hearly : ¬(fromShort tt < a.time.now + 2000 * 2 ^ 32 ∨ fromShort tt ≤ fromShort a.frostT) :=
      not_or.2 ⟨Nat.not_lt.2 hahead, Nat.not_le.2 hafter⟩
    refine ⟨fun hno => ?_, fun hst hmode => ?_⟩
    · exact cmd_completes htakes ((if_neg hearly).trans (if_pos (hno.imp_right bnot_of_false)))
    · exact cmd_completes htakes ((if_neg hearly).trans (if_neg (not_or.2 ⟨hst, not_bnot_of_true hmode⟩)))
  case cancel =>
    intro s h htakes a
    exact ⟨fun harmed => cmd_completes htakes (congrArg (ok ·) (if_pos harmed)), fun hnot => cmd_completes htakes (congrArg (ok ·) (if_neg hnot))⟩
  case snapshot =>
    intro s h t htakes a
    refine ⟨fun hpend => cmd_completes htakes (if_pos hpend), fun hnone ht => ?_, fun hnone ht => ?_⟩ <;>
      have hno : ¬ a.del.snapAt.isSome = true := by simp [hnone]
    · exact cmd_completes htakes ((if_neg hno).trans (if_pos ht))
    · exact cmd_completes htakes ((if_neg hno).trans (if_neg (Nat.not_lt.2 ht)))
  case snapRead =>
    intro s h off sel htakes a lp bad
    refine ⟨fun hsel => cmd_completes htakes (if_pos hsel), ?link, ?linkValid, ?reg, ?regValid⟩
    case link =>
      rintro rfl hbad
      refine cmd_completes htakes ((if_neg (Nat.lt_irrefl 1)).trans ((if_pos rfl).trans (if_pos ?_)))
      exact hbad.imp_right bnot_of_false
    case linkValid =>
      rintro rfl hlp hvalid
      refine cmd_completes htakes ((if_neg (Nat.lt_irrefl 1)).trans ((if_pos rfl).trans (if_neg ?_)))
      exact not_or.2 ⟨Nat.not_le.2 hlp, not_bnot_of_true hvalid⟩
    case reg =>
      rintro rfl hbad
      refine cmd_completes htakes ((if_neg (by decide)).trans ((if_neg (by decide)).trans (if_pos ?_)))
      exact hbad.imp bnot_of_false bnot_of_false
    case regValid =>
      rintro rfl hsnap hvalid
      refine cmd_completes htakes ((if_neg (by decide)).trans ((if_neg (by decide)).trans (if_neg ?_)))
      exact not_or.2 ⟨not_bnot_of_true hsnap, not_bnot_of_true hvalid⟩
  case latchNone =>
    intro s hst hnone
    show execFrostLatch s = _
    unfold execFrostLatch
    rw [if_neg hst, hnone]
  case latch =>
    intro s t hfirst u stepped snap
    have hexec := exec_frostLatch (firstLatch_eq_some hfirst)
    refine ⟨fun harmed hdue => ?_, fun hnot => ?_⟩
    · have hframe : isDue u (armedAt s) = true := (isDue_armed harmed).trans (decide_eq_true hdue)
      rw [hexec, latchDue_frost hframe]
      clear_value u
      rfl
    · have hframe : isDue u (armedAt s) = false := by
        by_cases harmed : s.frostState = 1
        · exact (isDue_armed harmed).trans (decide_eq_false (Nat.not_lt.2 (hnot.resolve_left (not_not.2 harmed))))
        · exact isDue_not_armed harmed
      rw [hexec, latchDue_snapshot hframe]
      clear_value u
      rfl
  case outEnd =>
    intro s
    have hexec : exec .frostOutEnd s = execFrostOutEnd s := rfl
    rw [hexec, execFrostOutEnd]
    exact ⟨fun hnone => by rw [hnone], fun t ht => by rw [ht]⟩
  case thaws =>
    intro s tt
    refine ⟨fun htt => (if_pos htt : execThawTime s = _), fun hno => (if_neg hno : execThawTime s = _), fun hfrozen hno => ?_, fun hno => ?_⟩
    · exact (if_pos ⟨hfrozen, fun h => hno ⟨hfrozen, h⟩⟩ : execAutoThaw s = _)
    · refine (if_neg ?_ : execAutoThaw s = _)
      rintro ⟨hfrozen, hnott⟩
      rcases hno with hidle | htt
      · simp [hidle] at hfrozen
      · exact hnott htt.2
  case image =>
    intro s
    have hexec : exec .frostImage s = execFrostImage s := rfl
    rw [hexec, execFrostImage]
    exact ⟨fun hnone => by rw [hnone], fun im rest h => by rw [h]⟩
  case inEdge =>
    intro s lvl e u
    have hexec : exec (.frostInEdge lvl e) s = execFrostInEdge lvl e s := rfl
    generalize exec (.frostInEdge lvl e) s = r at hexec ⊢
    unfold execFrostInEdge at hexec
    extract_lets ctrl st at hexec
    clear_value u
    intro act v live quiet ignore
    refine ⟨fun hsame => hexec.trans (if_pos hsame), fun hactive hact => ?inactive, fun hidle hact => ?active⟩
    case inactive =>
      have hchange : ¬ u.del.fin.active = act := by rw [hactive, hact]; exact Bool.noConfusion
      exact hexec.trans ((if_neg hchange).trans (if_pos (bnot_of_false hact)))
    case active =>
      have hchange : ¬ u.del.fin.active = act := by rw [hidle, hact]; exact Bool.noConfusion
      have hrise := hexec.trans ((if_neg hchange).trans (if_neg (not_bnot_of_true hact)))
      refine ⟨fun hdead => ?_, fun hlive hignore => ?_, fun hlive hheard => ?_⟩
      · exact hrise.trans (if_pos (deaf_of_not_live hdead))
      · exact hrise.trans ((if_neg (not_deaf_of_live hlive)).trans (if_pos (ignored_iff.2 hignore)))
      · exact hrise.trans ((if_neg (not_deaf_of_live hlive)).trans (if_neg fun h => hheard (ignored_iff.1 h)))
  case inStuck =>
    intro s on u
    exact ⟨fun hon => (if_pos hon : execFrostInStuck s = _), fun hoff => (if_neg (Bool.eq_false_iff.1 hoff) : execFrostInStuck s = _)⟩
  case clear => exact fun s hheld hbusy => onPage_takes hheld hbusy _

end Sys2Proof.FrostRows
end

section
/-! PROOFS. O31: Barometer's evaluation, the fence list and its commands (chapter 14, R687–R719). -/
namespace Sys2Proof.FenceRows
open Sys2Proof Sys2Proof.Machine Sys2Proof.CommandGates

/-- Settles O31, row by row. -/
theorem fencesComplete : Obligations.FencesComplete := by
  unfold Obligations.FencesComplete
  refine ⟨?noWindow, ?evaluation, ?noneDecided, ?commit, ?shieldEnd, ?copyUe, ?add, ?clear, ?read, ?holdClear, ?scoreRead, ?scoreReset, ?cntClear⟩
  case noWindow =>
    intro s hnone
    show execBaroEvaluation s = _
    unfold execBaroEvaluation
    rw [hnone]
  case evaluation =>
    intro s c rest hclosed
    show execBaroEvaluation s = _
    unfold execBaroEvaluation
    rw [hclosed]
  case noneDecided =>
    intro s hnone
    show execFenceCommit s = _
    unfold execFenceCommit
    rw [hnone]
  case commit =>
    intro s o reason rest hdecided u
    have hexec : exec .fenceCommit s = execFenceCommit s := rfl
    unfold execFenceCommit at hexec
    rw [hdecided] at hexec
    refine ⟨fun hfenced => hexec.trans (if_pos hfenced), fun hfree hfull => ?_, fun k hfree hk => ?_⟩ <;>
      refine hexec.trans ((if_neg (Bool.eq_false_iff.1 hfree)).trans ?_)
    · rw [show (s.setBaro fun b => { b with decided := rest }).freeFence = none from hfull]
    · rw [show (s.setBaro fun b => { b with decided := rest }).freeFence = some k from hk]
  case shieldEnd =>
    intro s o
    refine ⟨fun hnone => ?_, fun stop by_ hshield => ?_⟩ <;> show execShieldEnd o s = _ <;> unfold execShieldEnd
    · rw [hnone]
    · rw [hshield]
  case copyUe => exact fun s => rfl
  case add =>
    intro s h obj key prop grp htakes a bad
    refine ⟨fun hno => cmd_completes htakes ?_, fun o ho => ⟨fun hfenced => cmd_completes htakes ?_, fun hfree hfull => cmd_completes htakes ?_,
      fun k hfree hk => cmd_completes htakes ?_⟩⟩ <;> dsimp only
    · rw [show (s.start h 0x1101).cmdObj obj key = none from hno]
      rfl
    all_goals rw [show (s.start h 0x1101).cmdObj obj key = some o from ho]
    · exact if_pos hfenced
    · refine (if_neg (Bool.eq_false_iff.1 hfree)).trans ?_
      rw [show (s.start h 0x1101).freeFence = none from hfull]
      rfl
    · refine (if_neg (Bool.eq_false_iff.1 hfree)).trans ?_
      rw [show (s.start h 0x1101).freeFence = some k from hk]
      rfl
  case clear =>
    intro s h obj key prop htakes a bad
    refine ⟨fun hno => cmd_completes htakes ?_, fun o ho => ⟨fun hfree => cmd_completes htakes ?_, fun k e hfenced => cmd_completes htakes ?_⟩⟩ <;>
      dsimp only
    · rw [show (s.start h 0x1102).cmdObj obj key = none from hno]
      rfl
    all_goals rw [show (s.start h 0x1102).cmdObj obj key = some o from ho]; dsimp only
    · rw [show (s.start h 0x1102).fenceOf o = none from hfree]
      rfl
    · rw [show (s.start h 0x1102).fenceOf o = some (k, e) from hfenced]
      rfl
  case read =>
    intro s h i htakes a
    exact ⟨fun hi => cmd_completes htakes (if_neg (Nat.not_le.2 hi)), fun hi => cmd_completes htakes (if_pos hi)⟩
  case holdClear =>
    intro s h o htakes a
    exact ⟨fun hok => cmd_completes htakes (if_neg (not_bnot_of_true hok)), fun hbad => cmd_completes htakes (if_pos (bnot_of_false hbad))⟩
  case scoreRead =>
    intro s h o htakes a
    exact ⟨fun hok => cmd_completes htakes (if_neg (not_bnot_of_true hok)), fun hbad => cmd_completes htakes (if_pos (bnot_of_false hbad))⟩
  case scoreReset =>
    intro s h o htakes a
    exact ⟨fun hok => cmd_completes htakes (if_neg (not_bnot_of_true hok)), fun hbad => cmd_completes htakes (if_pos (bnot_of_false hbad))⟩
  case cntClear => exact fun s hheld hbusy => onPage_takes hheld hbusy _

end Sys2Proof.FenceRows
end

section
/-! PROOFS. O33: the silent-error checker: in-field tests, margin steps, substitutions and memory errors (chapter 15, R721–R743). -/
namespace Sys2Proof.CheckerRows
open Sys2Proof Sys2Proof.Machine Sys2Proof.CommandGates

/-! ### IFT_WAIT_EXPIRY (R736) -/

/-- What a waiting test of a unit that runs at last runs in: a Fen unit's reducer shares the place of another. -/
def throttle (u : Nat) (v : State) : State :=
  match unitKind u with
  | some .fen => match v.servedBy (u - 64) with | some (d, l) => v.timeShare d l | none => v
  | _ => v

section
variable {u : Nat} {v : State}

theorem throttle_shares {d l : Nat} (hkind : unitKind u = some .fen) (hserved : v.servedBy (u - 64) = some (d, l)) : throttle u v = v.timeShare d l := by
  simp only [throttle, hkind, hserved]

theorem throttle_stays (hnot : unitKind u ≠ some .fen ∨ v.servedBy (u - 64) = none) : throttle u v = v := by
  unfold throttle
  split
  · rw [hnot.resolve_left (not_not.2 ‹_›)]
  · rfl
end

/-- Settles O33, row by row. -/
theorem checkerCompletes : Obligations.CheckerCompletes := by
  unfold Obligations.CheckerCompletes
  refine ⟨?margin, ?ret, ?run, ?untestable, ?schedule, ?waitExpiry, ?complete, ?drained, ?pending, ?macUe, ?coreError, ?regionError, ?cntClear⟩
  case margin =>
    intro s h u step htakes a bad
    refine ⟨fun hnone => cmd_completes htakes (by rw [hnone]; rfl), fun k hk => ⟨fun hno => ?_, fun hhas hout => ?_, fun hhas hin => ?_⟩⟩ <;>
      refine cmd_completes htakes ?_ <;> rw [hk]
    · exact if_pos (bnot_of_false hno)
    · exact (if_neg (not_bnot_of_true hhas)).trans (if_pos hout)
    · exact (if_neg (not_bnot_of_true hhas)).trans (if_neg hin)
  case ret =>
    intro s h u htakes a runs done
    refine ⟨fun hno => cmd_completes htakes (if_pos (bnot_of_false hno)), fun hu hruns => ?_, fun hu hruns hstep hmac => ?_, fun hu hruns hout => ?_⟩
    · exact cmd_completes htakes ((if_neg (not_bnot_of_true hu)).trans (if_pos hruns))
    · exact cmd_completes htakes ((if_neg (not_bnot_of_true hu)).trans ((if_neg (Bool.eq_false_iff.1 hruns)).trans
        (if_pos ⟨hstep, bnot_of_false hmac⟩)))
    · exact cmd_goesOn htakes ((if_neg (not_bnot_of_true hu)).trans ((if_neg (Bool.eq_false_iff.1 hruns)).trans
        (if_neg fun hin => hout.elim hin.1 fun hmac => not_bnot_of_true hmac hin.2)))
  case run =>
    intro s h u htakes a busy
    refine ⟨fun hno => cmd_completes htakes (if_pos (bnot_of_false hno)), fun hu hbusy => ?_, fun hu hfree => ?_⟩
    · exact cmd_completes htakes ((if_neg (not_bnot_of_true hu)).trans (if_pos hbusy))
    · exact cmd_goesOn htakes ((if_neg (not_bnot_of_true hu)).trans (if_neg (Bool.eq_false_iff.1 hfree)))
  case untestable => exact fun s u hno => (if_pos (by simp [hno]) : execIftSchedule u s = _)
  case schedule =>
    intro s u hu other
    refine ⟨fun hnone => ⟨fun hen hother hstep => ?_, fun hidle => ?_⟩, fun t ht => ⟨fun hwaits hfree => ?_, fun hidle => ?_⟩⟩ <;>
      show execIftSchedule u s = _ <;> unfold execIftSchedule <;> extract_lets k waits other'
    · have hoff : ¬(!testable u || !s.flag Reg.CHK_CTRL Fld.CHK_CTRL_IFT_EN && !waits) = true := by simp [hu, hen]
      rw [if_neg hoff, hnone]
      exact congrArg _ (if_neg (by simpa [hstep] using hother))
    · by_cases hen : s.flag Reg.CHK_CTRL Fld.CHK_CTRL_IFT_EN = true
      · have hoff : ¬(!testable u || !s.flag Reg.CHK_CTRL Fld.CHK_CTRL_IFT_EN && !waits) = true := by simp [hu, hen]
        rw [if_neg hoff, hnone]
        refine congrArg _ (if_pos ?_)
        simpa [hen] using hidle
      · refine if_pos ?_
        simp [hen, waits, hnone]
    · have hoff : ¬(!testable u || !s.flag Reg.CHK_CTRL Fld.CHK_CTRL_IFT_EN && !waits) = true := by simp [hu, waits, ht, hwaits]
      rw [if_neg hoff, ht]
      exact congrArg _ (if_neg (by simp [hwaits, hfree]))
    · split
      · rfl
      · rw [ht]
        refine congrArg _ (if_pos ?_)
        rcases hidle with hruns | hbusy <;> simp [*]
  case waitExpiry =>
    intro s u
    refine ⟨fun hnone => ?_, fun t ht => ⟨fun hruns => ?_, fun hwaits => ?_⟩⟩
    · show execIftWaitExpiry u s = _
      unfold execIftWaitExpiry
      rw [hnone]
    · show execIftWaitExpiry u s = _
      unfold execIftWaitExpiry
      rw [ht]
      exact if_pos hruns
    · have hexec : exec (.iftWaitExpiry u) s = execIftWaitExpiry u s := rfl
      unfold execIftWaitExpiry at hexec
      rw [ht] at hexec
      replace hexec := hexec.trans (if_neg (Bool.eq_false_iff.1 hwaits))
      intro v
      extract_lets at hexec
      clear_value v
      intro began run
      have hrun (w : State) (hw : throttle u v = w) : run w := by
        subst hw
        exact hexec
      exact ⟨fun d l hkind hserved => hrun _ (throttle_shares hkind hserved), fun hnot => hrun _ (throttle_stays hnot)⟩
  case complete =>
    intro s u pass
    refine ⟨fun hnone => ?_, fun t ht => ⟨fun hnot => ?_, fun hruns hdrain => ?_⟩⟩
    · show execIftComplete u pass s = _
      unfold execIftComplete
      rw [hnone]
    · show execIftComplete u pass s = _
      unfold execIftComplete
      rw [ht]
      refine if_pos ?_
      rcases hnot with h | h <;> simp [h]
    · have hexec : exec (.iftComplete u pass) s = execIftComplete u pass s := rfl
      unfold execIftComplete at hexec
      rw [ht] at hexec
      replace hexec := hexec.trans (if_neg (by simp [hruns, hdrain]))
      intro v w x
      extract_lets dropped v' w' x' at hexec
      have hx : x' = x := if_congr beq_iff_eq rfl rfl
      rw [hx] at hexec
      clear_value x
      refine ⟨fun hnone => ?_, fun h hhdr hret => ?_, fun h hhdr hrun => ?_⟩
      · rw [hexec, hnone]
      · rw [hexec, hhdr]
        exact if_pos hret
      · rw [hexec, hhdr]
        exact if_neg (Bool.eq_false_iff.1 hrun)
  case drained =>
    intro s n u
    refine ⟨fun hholds => (if_pos hholds : execHandoverDrained n s = _), fun hnone => ?_⟩
    have hexec : exec (.handoverDrained n) s = _ := (if_neg (Bool.eq_false_iff.1 hnone) : execHandoverDrained n s = _)
    refine ⟨fun hno => ?_, fun t ht => ⟨fun hnot => ?_, fun hruns hdrain => ?_⟩⟩ <;> refine hexec.trans ?_ <;> extract_lets
    · rw [show u.iftOf (unitFen n) = none from hno]
    all_goals rw [show u.iftOf (unitFen n) = some t from ht]
    · refine congrArg _ (if_neg ?_)
      rcases hnot with h | h <;> simp [h]
    · exact congrArg _ (if_pos (by simp [hruns, hdrain]))
  case pending =>
    intro s u due
    exact ⟨fun hdue => (if_pos hdue : execPendingSubstitution u s = _),
      fun hnot => (if_neg (Bool.eq_false_iff.1 hnot) : execPendingSubstitution u s = _)⟩
  case macUe =>
    intro s row col u
    refine ⟨fun hout => (if_pos (bnot_of_false hout) : execMacTileUe row col s = _), fun hin => ⟨fun hfree => ?_, fun hkept => ?_⟩⟩
    · exact (if_neg (not_bnot_of_true hin) : execMacTileUe row col s = _).trans (if_pos hfree)
    · exact (if_neg (not_bnot_of_true hin) : execMacTileUe row col s = _).trans (if_neg (Bool.eq_false_iff.1 hkept))
  case coreError => exact fun s k chan => rfl
  case regionError => exact fun s chan => rfl
  case cntClear => exact fun s hheld hbusy => onPage_takes hheld hbusy _

end Sys2Proof.CheckerRows
end

section
/-! PROOFS. O35, O36: firmware, records, takeovers, attestation and unlock (chapter 17, R726, R768–R804). -/
namespace Sys2Proof.FirmwareRows
open Sys2Proof Sys2Proof.Machine Sys2Proof.CommandGates

/-! ### The checks that FW_ACTIVATE and FW_ROLLBACK make alike (R795, R726, R812) -/

section
variable {s : State} {t : Nat} {go : State → State × Option Cmpl}

theorem takeoverAllowed_pending (hpend : s.cfg.takeover.isSome = true) : s.takeoverAllowed t go = fail s 4 := if_pos hpend

variable (hnone : s.cfg.takeover = none)
include hnone

theorem takeoverAllowed_free : s.takeoverAllowed t go =
    if s.degraded (1 - s.activeHalf) then failOpen s else if fromShort t < s.time.now + 2 * secUnits then fail s 0x0108 else go s :=
  if_neg (by simp [hnone])

theorem takeoverAllowed_degraded (hdegraded : s.degraded (1 - s.activeHalf) = true) : s.takeoverAllowed t go = failOpen s :=
  (takeoverAllowed_free hnone).trans (if_pos hdegraded)

variable (hgood : s.degraded (1 - s.activeHalf) = false)
include hgood

theorem takeoverAllowed_early (hearly : fromShort t < s.time.now + 2 * secUnits) : s.takeoverAllowed t go = fail s 0x0108 :=
  (takeoverAllowed_free hnone).trans ((if_neg (Bool.eq_false_iff.1 hgood)).trans (if_pos hearly))

theorem takeoverAllowed_goes (hahead : s.time.now + 2 * secUnits ≤ fromShort t) : s.takeoverAllowed t go = go s :=
  (takeoverAllowed_free hnone).trans ((if_neg (Bool.eq_false_iff.1 hgood)).trans (if_neg (Nat.not_lt.2 hahead)))
end

/-- Settles O35, row by row. -/
theorem firmwareCompletes : Obligations.FirmwareCompletes := by
  unfold Obligations.FirmwareCompletes
  refine ⟨?stage, ?activate, ?rollback, ?nonePending, ?takeover, ?commit, ?degraded, ?cfgWrite, ?jobReuse⟩
  case stage => exact fun s h off len fl htakes => cmd_completes htakes rfl
  case activate =>
    intro s h t htakes a done
    refine ⟨fun hpend => cmd_completes htakes (takeoverAllowed_pending hpend),
      fun hnone hdeg => cmd_completes htakes (takeoverAllowed_degraded hnone hdeg),
      fun hnone hgood => ⟨fun hearly => cmd_completes htakes (takeoverAllowed_early hnone hgood hearly), fun hahead => ⟨fun hbad => ?_, fun hok => ?_⟩⟩⟩
    · exact cmd_completes htakes ((takeoverAllowed_goes hnone hgood hahead).trans (if_pos hbad))
    · exact cmd_goesOn htakes ((takeoverAllowed_goes hnone hgood hahead).trans (if_neg (not_not.2 hok)))
  case rollback =>
    intro s h t htakes a done
    refine ⟨fun hno => cmd_completes htakes (if_pos (bnot_of_false hno)), fun htrial => ?_⟩
    have hon := not_bnot_of_true htrial
    refine ⟨fun hpend => ?_, fun hnone hdeg => ?_, fun hnone hgood => ⟨fun hearly => ?_, fun hahead => ?_⟩⟩
    · exact cmd_completes htakes ((if_neg hon).trans (takeoverAllowed_pending hpend))
    · exact cmd_completes htakes ((if_neg hon).trans (takeoverAllowed_degraded hnone hdeg))
    · exact cmd_completes htakes ((if_neg hon).trans (takeoverAllowed_early hnone hgood hearly))
    · exact cmd_goesOn htakes ((if_neg hon).trans (takeoverAllowed_goes hnone hgood hahead))
  case nonePending =>
    intro s hnone
    refine ⟨show execFwTakeover s = _ from ?_, show execTakeoverLate s = _ from ?_⟩
    · unfold execFwTakeover
      rw [hnone]
    · unfold execTakeoverLate
      rw [hnone]
  case takeover =>
    intro s t ht u
    have hexec : exec .fwTakeover s = execFwTakeover s := rfl
    have hlate : exec .takeoverLate s = execTakeoverLate s := rfl
    unfold execFwTakeover at hexec
    unfold execTakeoverLate at hlate
    rw [ht] at hexec hlate
    dsimp -zeta only at hexec
    extract_lets at hexec
    clear_value u
    intro trial
    refine ⟨fun hback hno => hexec.trans (if_pos ?_), fun hgo hdeg => ?_, fun hgo hgood => ?_, hlate⟩
    · exact Bool.and_eq_true_iff.2 ⟨hback, bnot_of_false hno⟩
    all_goals
      have hallowed : ¬ (t.back && !trial) = true := by rcases hgo with h | h <;> simp [h]
      refine hexec.trans ((if_neg hallowed).trans ?_)
    · exact if_pos hdeg
    · exact if_neg (Bool.eq_false_iff.1 hgood)
  case commit =>
    intro s h htakes a k u
    exact ⟨cmd_completes htakes (if_neg (not_not.2 rfl)), fun fl hfl => cmd_completes htakes (if_pos hfl)⟩
  case degraded =>
    intro s b t due u
    have hexec : exec .degradedTakeover s = execDegradedTakeover s := rfl
    unfold execDegradedTakeover at hexec
    extract_lets first v at hexec
    clear_value u
    intro end_
    refine ⟨fun hno => ?_, fun hdeg hgood hdue => ?_⟩
    · by_cases hstays : (!s.degraded b || s.degraded (1 - b)) = true
      · exact hexec.trans (if_pos hstays)
      · refine hexec.trans ((if_neg hstays).trans (if_pos ?_))
        simp only [Bool.or_eq_true, Bool.not_eq_true', not_or, Bool.not_eq_false, Bool.not_eq_true] at hstays
        obtain ⟨hdeg, hgood⟩ := hstays
        simpa only [hdeg, hgood, Bool.true_eq_false, Bool.false_eq_true, false_or] using hno
    · have hpasses : ¬ (!s.degraded b || s.degraded (1 - b)) = true := by simp [hdeg, hgood]
      have hlast := hexec.trans ((if_neg hpasses).trans (if_neg (Bool.eq_false_iff.1 hdue)))
      refine ⟨fun hnone => ?_, fun x hx => ?_⟩
      · have hv : v = u := by simp only [v, hnone]
        rw [hlast, hv]
      · have hv : v = u.takeoverLate x := by simp only [v, hx]
        rw [hlast, hv]
  case cfgWrite =>
    intro s h off len fl htakes a o put
    refine ⟨fun hbad => cmd_completes htakes (if_pos hbad), fun hok hlen => ?_, fun hok hlen hfl => ?_, fun hok hlen hfl => ?_⟩ <;>
      have hgood := not_not.2 hok
    · exact cmd_completes htakes ((if_neg hgood).trans (if_pos hlen))
    · refine cmd_completes htakes ((if_neg hgood).trans ((if_neg (Nat.not_lt.2 hlen)).trans ((if_neg (not_not.2 hfl)).trans ?_)))
      dsimp only
      cases kindCtr (objKindOf (a.staging off len)) <;> rfl
    · exact cmd_completes htakes ((if_neg hgood).trans ((if_neg (Nat.not_lt.2 hlen)).trans (if_pos hfl)))
  case jobReuse =>
    intro s h old new c1 c2 c3 htakes a
    exact ⟨fun hno => cmd_completes htakes (if_pos (bnot_of_false hno)), fun hok => cmd_completes htakes (if_neg (not_bnot_of_true hok))⟩

/-- The status UNLOCK ends with for an object (R789). -/
def tokenStatus (a : State) (o : List Byte) : Nat :=
  let body := slice 64 8 o
  let challenge := (a.rd Reg.SEC_CHALLENGE).toNat
  if a.objStatus [3] o ≠ 0 then a.objStatus [3] o
  else if objBodyLen o ≠ 8 ∨ !allZero (body.drop 5) ∨ 8 ≤ leAt 4 1 body then 0x0100
  else if challenge = 0 ∨ leAt 0 4 body ≠ challenge then 0x0104
  else 0

/-- Settles O36, row by row. -/
theorem securityCompletes : Obligations.SecurityCompletes := by
  unfold Obligations.SecurityCompletes
  refine ⟨?attest, ?challenge, ?unlock, ?refresh⟩
  case attest =>
    intro s h nonce off fl htakes a ok
    refine ⟨fun hno => cmd_completes htakes (if_pos (bnot_of_false hno)), fun hok hfull => ?_, fun hok hleft hfl => ?_, fun hok hleft hfl => ?_⟩ <;>
      have hsecret := not_bnot_of_true hok
    · exact cmd_completes htakes ((if_neg hsecret).trans (if_pos hfull))
    · exact cmd_completes htakes ((if_neg hsecret).trans ((if_neg (Nat.not_le.2 hleft)).trans (if_pos hfl)))
    · exact cmd_completes htakes ((if_neg hsecret).trans ((if_neg (Nat.not_le.2 hleft)).trans (if_neg (not_not.2 hfl))))
  case challenge =>
    intro s h htakes a v
    exact ⟨cmd_completes htakes (if_neg (not_not.2 rfl)), fun fl hfl => cmd_completes htakes (if_pos hfl)⟩
  case unlock =>
    intro s h off len htakes a o body ch bad
    have hrefused {st : Nat} (hst : tokenStatus a o = st) (hbad : st ≠ 0) : bad st := by
      subst hst
      exact cmd_completes htakes (if_pos hbad)
    refine ⟨fun hobj => hrefused (if_pos hobj) hobj, fun hobj hmal => hrefused ((if_neg (not_not.2 hobj)).trans (if_pos ?_)) (by decide),
      fun hobj hlen hzero hscope => ?_⟩
    · exact hmal.imp_right (Or.imp_left bnot_of_false)
    have hwhole : tokenStatus a o = if ch = 0 ∨ leAt 0 4 body ≠ ch then 0x0104 else 0 :=
      (if_neg (not_not.2 hobj)).trans (if_neg (not_or.2 ⟨not_not.2 hlen, not_or.2 ⟨not_bnot_of_true hzero, Nat.not_le.2 hscope⟩⟩))
    refine ⟨fun hno => hrefused (hwhole.trans (if_pos hno)) (by decide), fun hch hmatch => ?_⟩
    have hgood : tokenStatus a o = 0 := hwhole.trans (if_neg (not_or.2 ⟨hch, not_not.2 hmatch⟩))
    exact cmd_completes htakes (if_neg (not_not.2 hgood))
  case refresh =>
    intro s h fl htakes a scope
    refine ⟨fun hno => cmd_completes htakes (if_pos (bnot_of_false hno)), fun hscope hfl => ?_, fun hscope hfl => ?_⟩
    · exact cmd_completes htakes ((if_neg (not_bnot_of_true hscope)).trans (if_pos hfl))
    · exact cmd_completes htakes ((if_neg (not_bnot_of_true hscope)).trans (if_neg (not_not.2 hfl)))

end Sys2Proof.FirmwareRows
end

section
/-! PROOFS. O8: power, the reset pins, sensors and rails, and the stages of start-up (chapters 17 and 18, R769–R784, R832–R846). -/
namespace Sys2Proof.PowerRows
open Sys2Proof Sys2Proof.Machine Sys2Proof.CommandGates

/-! ### RESET_N_ASSERT (R833) -/

/-- RESET_N is taken as low: a device with power resets. -/
def resetTaken (t : State) : State :=
  if t.pwr.good then (t.setPwr fun p => { p with low := true }).resetTo false 2 else t.setPwr fun p => { p with low := true }

section
variable {s : State} {ns : Nat}

theorem exec_resetNAssert_long (hlong : 1000 ≤ ns) : exec (.resetNAssert ns) s = .next (resetTaken s) := by
  have hsure : ¬(100 ≤ ns ∧ ns < 1000) := by omega
  show execResetNAssert ns s = _
  simp only [execResetNAssert, resetTaken, if_neg hsure, decide_eq_true hlong, Bool.true_or, Bool.not_true, Bool.false_eq_true, if_false]
  cases s.pwr.good <;> rfl

theorem exec_resetNAssert_between (hmin : 100 ≤ ns) (hmax : ns < 1000) :
    exec (.resetNAssert ns) s = .next (if bit 0 s.draw.1 then resetTaken s.draw.2 else s.draw.2) := by
  show execResetNAssert ns s = _
  simp only [execResetNAssert, resetTaken, if_pos (And.intro hmin hmax), decide_eq_false (Nat.not_le.2 hmax), decide_eq_true hmin, Bool.false_or,
    Bool.true_and]
  cases bit 0 s.draw.1 <;> cases s.draw.2.pwr.good <;> rfl

theorem exec_resetNAssert_short (hshort : ns < 100) : exec (.resetNAssert ns) s = .next s := by
  have hlong : ¬ 1000 ≤ ns := by omega
  have hbetween : ¬(100 ≤ ns ∧ ns < 1000) := by omega
  show execResetNAssert ns s = _
  simp only [execResetNAssert, if_neg hbetween, decide_eq_false hlong, decide_eq_false (Nat.not_le.2 hshort), Bool.false_and, Bool.or_false,
    Bool.not_false, if_true]
end

/-! ### RAIL_MONITOR (R843) -/

section
variable {s : State} {rail v i : Nat} (hheld : s.pwr.held = false)
include hheld

/-- The state with a rail's reading shown. -/
abbrev railShown (rail v i : Nat) (s : State) : State :=
  (s.setFld (Reg.PWR_RAIL rail) Fld.PWR_RAIL_VOLTAGE v).setFld (Reg.PWR_RAIL rail) Fld.PWR_RAIL_CURRENT i

/-- The fault bits shown before. -/
abbrev railFaults (u : State) : Nat := u.fld Reg.PWR_STATUS Fld.PWR_STATUS_RAIL_FAULT

theorem exec_railMonitor {out : Bool} (hout : railOut rail v = out) : exec (.railMonitor rail v i) s =
    let u := railShown rail v i s
    let w := u.setFld Reg.PWR_STATUS Fld.PWR_STATUS_RAIL_FAULT (withBits rail rail (b2n out) (railFaults u))
    if out && !bit rail (railFaults u) then .next ((((w.logErr pwrPg 0x0101 1 pwrLoc).inc Cnt.PWR_RAIL_FAULTS).irq pwrPg 4).alertSource 2)
    else .next w := by
  subst hout
  exact (if_neg (Bool.eq_false_iff.1 hheld) : execRailMonitor rail v i s = _)
end

/-! ### What keeps a stage of start-up from taking place (R781) -/

section
variable {stop before own : Bool} (hstop : stop = false) (hown : own = false)
include hstop hown

theorem stage_due : ¬ (stop || own) = true := by simp [hstop, hown]

theorem stage_dueAfter (hbefore : before = true) : ¬ (stop || !before || own) = true := by simp [hstop, hown, hbefore]
end

/-- Settles O8, row by row. -/
theorem powerCompletes : Obligations.PowerCompletes := by
  unfold Obligations.PowerCompletes
  refine ⟨?rise, ?fall, ?long, ?between, ?short, ?release, ?clockLoss, ?clockBack, ?trip, ?sensors, ?rail, ?force, ?cntClear, ?stages⟩
  case rise =>
    exact fun s => ⟨fun hlow => congrArg Host.Outcome.next (if_neg (Bool.eq_false_iff.1 hlow)), fun hgood => congrArg Host.Outcome.next (if_pos hgood)⟩
  case fall =>
    intro s u
    refine ⟨fun hgood hcool => ?_, fun hgood htrip => ?_, fun hlow => (if_pos (bnot_of_false hlow) : execPwrGoodFall s = _)⟩ <;>
      refine (if_neg (not_bnot_of_true hgood) : execPwrGoodFall s = _).trans (congrArg Host.Outcome.next ?_)
    · exact if_neg (Bool.eq_false_iff.1 hcool)
    · exact if_pos htrip
  case long =>
    intro s ns hlong
    rw [exec_resetNAssert_long hlong]
    exact ⟨fun hgood => congrArg Host.Outcome.next (if_pos hgood), fun hlow => congrArg Host.Outcome.next (if_neg (Bool.eq_false_iff.1 hlow))⟩
  case between =>
    intro s ns hmin hmax t
    rw [exec_resetNAssert_between hmin hmax]
    refine ⟨fun hno => congrArg Host.Outcome.next (if_neg (Bool.eq_false_iff.1 hno)), fun htaken hgood => ?_, fun htaken hlow => ?_⟩ <;> rw [if_pos htaken]
    · exact congrArg Host.Outcome.next (if_pos hgood)
    · exact congrArg Host.Outcome.next (if_neg (Bool.eq_false_iff.1 hlow))
  case short => exact fun s ns hshort => exec_resetNAssert_short hshort
  case release =>
    intro s
    refine ⟨fun hgood hcold => (if_pos (Bool.and_eq_true_iff.2 ⟨hgood, hcold⟩) : execResetNRelease s = _),
      fun hno => (if_neg ?_ : execResetNRelease s = _)⟩
    rcases hno with h | h <;> simp [h]
  case clockLoss => exact fun s hheld => (if_neg (Bool.eq_false_iff.1 hheld) : execRefclkLoss s = _)
  case clockBack => exact fun s hlost => (if_neg (not_bnot_of_true hlost) : execClockRestored s = _)
  case trip =>
    intro s x k hheld hfirst
    refine (if_neg (Bool.eq_false_iff.1 hheld) : execSensorRead x s = _).trans ?_
    dsimp only
    rw [hfirst]
  case sensors =>
    intro s x hheld hnone
    refine (if_neg (Bool.eq_false_iff.1 hheld) : execSensorRead x s = _).trans ?_
    dsimp only
    rw [hnone]
  case rail =>
    intro s rail v i hheld u f w
    refine ⟨fun hout hnew => (exec_railMonitor hheld hout).trans (if_pos ?_), fun hout hold => (exec_railMonitor hheld hout).trans (if_neg ?_),
      fun hin => (exec_railMonitor hheld hin).trans (if_neg Bool.false_ne_true)⟩
    · exact bnot_of_false hnew
    · exact not_bnot_of_true hold
  case force => exact fun s hheld hbusy => onPage_takes hheld hbusy _
  case cntClear => exact fun s hheld hbusy => onPage_takes hheld hbusy _
  case stages =>
    intro s hheld hrec reached
    have hstop : (s.pwr.held || s.flag Reg.CFG_STATUS Fld.CFG_STATUS_RECOVERY) = false := Bool.or_eq_false_iff.2 ⟨hheld, hrec⟩
    refine ⟨fun hkeys => ?root, fun a b blob counters unitRec site values hpuf => ?identity, fun i0 i1 current previous hrecord hfw => ?firmware,
      fun failed hfw hfp32 => ?formats, fun failed hfp32 hexact => ?exact, fun failed hfw hattend => ?attend, fun hfw hfull hleft => ?fullOptics⟩ <;>
      refine congrArg Host.Outcome.next (if_neg ?_)
    case root => exact stage_due hstop hkeys
    case identity => exact stage_due hstop hpuf
    case firmware => exact stage_dueAfter hstop hfw hrecord
    case formats => exact stage_dueAfter hstop hfp32 hfw
    case exact => exact stage_dueAfter hstop hexact hfp32
    case attend => exact stage_dueAfter hstop hattend hfw
    case fullOptics => exact stage_due (Bool.eq_false_iff.2 (stage_dueAfter hstop hfull hfw)) hleft

end Sys2Proof.PowerRows
end

section
/-! PROOFS. Every operation of the model keeps the invariant of the state (R15, R54, R281): one lemma per operation, in the order of the definitions. -/
namespace Sys2Proof.Machine

/-- Does the state that a row answers meet the invariant? -/
def Result.Inv (r : Result) : Prop := ∀ t, r = .next t → t.Inv

theorem Result.inv_next {t : State} : Result.Inv (.next t) ↔ t.Inv := by
  simp [Result.Inv]

/-! ### Choices, folds and records of a block -/

theorem State.ite_inv {c : Prop} [Decidable c] {s t : State} (hs : s.Inv) (ht : t.Inv) : State.Inv (if c then s else t) := by
  split
  · exact hs
  · exact ht

theorem ite_fst_inv {β : Type} {c : Prop} [Decidable c] {x y : State × β} (hx : x.1.Inv) (hy : y.1.Inv) : State.Inv (if c then x else y).1 := by
  split
  · exact hx
  · exact hy

theorem ite_snd_inv {β : Type} {c : Prop} [Decidable c] {x y : β × State} (hx : x.2.Inv) (hy : y.2.Inv) : State.Inv (if c then x else y).2 := by
  split
  · exact hx
  · exact hy

theorem Result.ite_inv {c : Prop} [Decidable c] {s t : Result} (hs : Result.Inv s) (ht : Result.Inv t) : Result.Inv (if c then s else t) := by
  split
  · exact hs
  · exact ht

/-- A fold over pairs of a result and a state keeps the invariant of the state. -/
theorem foldl_snd_inv {α β : Type} (f : β × State → α → β × State) (hf : ∀ acc x, acc.2.Inv → (f acc x).2.Inv) (l : List α) (acc : β × State)
    (h0 : acc.2.Inv) : (l.foldl f acc).2.Inv :=
  List.foldlRecOn (motive := fun acc => acc.2.Inv) l f h0 fun acc h x _ => hf acc x h

theorem State.time_inv {s : State} (q : TimeSt) (h : s.Inv) : State.Inv { s with time := q } := State.Inv_of_eq h rfl rfl rfl rfl
theorem State.fen_inv {s : State} (q : FenSt) (h : s.Inv) : State.Inv { s with fen := q } := State.Inv_of_eq h rfl rfl rfl rfl
theorem State.host_inv {s : State} (q : HostSt) (h : s.Inv) : State.Inv { s with host := q } := State.Inv_of_eq h rfl rfl rfl rfl
theorem State.pmc_inv {s : State} (q : PmcSt) (h : s.Inv) : State.Inv { s with pmc := q } := State.Inv_of_eq h rfl rfl rfl rfl
theorem State.sw_inv {s : State} (q : SwSt) (h : s.Inv) : State.Inv { s with sw := q } := State.Inv_of_eq h rfl rfl rfl rfl

/-! ### Register words that a reset takes back -/

/-- A register word that is reset in part is listed only where it differs from its reset word. -/
theorem warmRegs_wf {t : Tbl Word} (h : Tbl.wf resetWord t = true) : Tbl.wf resetWord (warmRegs t) = true := by
  refine wf_filterMap h fun x y hxy => ?_
  dsimp only at hxy
  split at hxy
  · cases hxy
  · rename_i hw
    obtain rfl := Option.some.inj hxy
    exact ⟨rfl, fun _ => hw⟩

theorem resetPageRegs_wf {t : Tbl Word} (p : Nat) (h : Tbl.wf resetWord t = true) : Tbl.wf resetWord (resetPageRegs p t) = true := by
  refine wf_filterMap h fun x y hxy => ?_
  split at hxy
  · obtain rfl := Option.some.inj hxy
    exact ⟨rfl, id⟩
  · cases hr : regAt x.1 with
    | none =>
      rw [hr] at hxy
      obtain rfl := Option.some.inj hxy
      exact ⟨rfl, id⟩
    | some r =>
      rw [hr] at hxy
      dsimp only at hxy
      split at hxy
      · cases hxy
      · rename_i hw
        obtain rfl := Option.some.inj hxy
        exact ⟨rfl, fun _ => hw⟩

/-! ### The operations of Machine/Packet.lean -/

theorem State.withSeq_inv (s : State) (p : Pkt) (h0 : s.Inv) : (State.withSeq s p).2.Inv := by
  unfold State.withSeq
  simp -zeta -zetaHave only [ite_sel]
  grind -lia -linarith -ring [sel_or, State.Inv_iff, State.Inv]

theorem State.enterSwitch_inv (s : State) (die : Nat) (p : Pkt) (dests : List Dest) (group stampId : Option Nat) (h0 : s.Inv) :
    (State.enterSwitch s die p dests group stampId).Inv := by
  unfold State.enterSwitch
  grind -lia -linarith -ring [State.Inv_iff, State.Inv]

theorem State.originateOn_inv (s : State) (die lp : Nat) (p : Pkt) (stampId : Option Nat) (h0 : s.Inv) :
    (State.originateOn s die lp p stampId).Inv := by
  unfold State.originateOn
  grind -lia -linarith -ring [State.withSeq_inv, State.enterSwitch_inv]

theorem State.originateMarked_inv (s : State) (lp : Nat) (p : Pkt) (stampId : Option Nat) (h0 : s.Inv) :
    (State.originateMarked s lp p stampId).Inv := by
  unfold State.originateMarked
  grind -lia -linarith -ring [State.originateOn_inv]

theorem State.originate_inv (s : State) (lp : Nat) (p : Pkt) (h0 : s.Inv) : (State.originate s lp p).Inv := by
  unfold State.originate
  grind -lia -linarith -ring [State.originateMarked_inv]

theorem State.takeFn_inv (s : State) (lp : Nat) (p : Pkt) (h0 : s.Inv) : (State.takeFn s lp p).Inv := by
  unfold State.takeFn
  grind -lia -linarith -ring [State.Inv_iff, State.Inv]

/-! ### The operations of Machine/PeatCore.lean -/

theorem State.setPeat_inv (s : State) (f : PeatSt → PeatSt) (h0 : s.Inv) : (State.setPeat s f).Inv := by
  unfold State.setPeat
  grind -lia -linarith -ring [State.Inv_iff, State.Inv]

/-! ### The operations of Machine/Tables.lean -/

theorem State.modPipe_inv (s : State) (n : Nat) (f : Pipe → Pipe) (h0 : s.Inv) : (State.modPipe s n f).Inv := by
  unfold State.modPipe
  grind -lia -linarith -ring [State.Inv_iff, State.Inv]

theorem State.modDie_inv (s : State) (d : Nat) (f : DieTbl → DieTbl) (h0 : s.Inv) : (State.modDie s d f).Inv := by
  unfold State.modDie
  grind -lia -linarith -ring [State.Inv_iff, State.Inv]

theorem State.commit_inv (s : State) (f : Pipe → Pipe) (g : DieTbl → DieTbl) (h0 : s.Inv) : (State.commit s f g).Inv := by
  unfold State.commit
  grind -lia -linarith -ring [State.Inv_iff, State.Inv, State.wr_inv]

theorem State.genChanged_inv (s : State) (h0 : s.Inv) : (State.genChanged s).Inv := by
  unfold State.genChanged
  grind -lia -linarith -ring [State.Inv_iff, State.Inv]

theorem State.setLink_inv (s : State) (lp : Nat) (l : LinkSt) (h0 : s.Inv) : (State.setLink s lp l).Inv := by
  unfold State.setLink
  grind -lia -linarith -ring [State.Inv_iff, State.Inv]

theorem State.sprayPipe_inv (s : State) (n mode : Nat) (p : Pkt) (leaf : Nat) (h0 : s.Inv) : (State.sprayPipe s n mode p leaf).2.Inv := by
  unfold State.sprayPipe
  grind -lia -linarith -ring [State.modPipe_inv]

theorem State.sprayDie_inv (s : State) (d : Nat) (p : Pkt) (leaf : Nat) (h0 : s.Inv) : (State.sprayDie s d p leaf).2.Inv := by
  unfold State.sprayDie
  grind -lia -linarith -ring [State.modDie_inv]

theorem State.lookupDecide_inv (s : State) (n : Nat) (leafFacing : Bool) (p : Pkt) (h0 : s.Inv) : (State.lookupDecide s n leafFacing p).2.Inv := by
  unfold State.lookupDecide
  simp -zeta -zetaHave only [ite_sel, decide_sel]
  grind -lia -linarith -ring [sel_or, State.modPipe_inv]

theorem State.resolve_inv (s : State) (n mode : Nat) (p : Pkt) (r : Route) (h0 : s.Inv) : (State.resolve s n mode p r).2.Inv := by
  unfold State.resolve
  simp -zeta -zetaHave only [ite_sel, decide_sel]
  grind -lia -linarith -ring [sel_or, foldl_snd_inv, State.inc_inv, State.sprayPipe_inv]

theorem State.fnRoute_inv (s : State) (d : Nat) (p : Pkt) (h0 : s.Inv) : (State.fnRoute s d p).2.Inv := by
  unfold State.fnRoute
  simp -zeta -zetaHave only [ite_sel, decide_sel]
  grind -lia -linarith -ring [sel_or, foldl_snd_inv, State.inc_inv, State.modPipe_inv, State.sprayDie_inv]

theorem State.sendCopies_inv (s : State) (d : Nat) (p : Pkt) (dests : List Dest) (group : Option Nat) (h0 : s.Inv) :
    (State.sendCopies s d p dests group).Inv := by
  unfold State.sendCopies
  simp -zeta -zetaHave only [ite_sel]
  grind -lia -linarith -ring [sel_or, State.enterSwitch_inv]

theorem State.fnSend_inv (s : State) (d : Nat) (p : Pkt) (h0 : s.Inv) : (State.fnSend s d p).Inv := by
  unfold State.fnSend
  grind -lia -linarith -ring [State.withSeq_inv, State.fnRoute_inv, State.sendCopies_inv]

theorem State.sendBatch_inv (s : State) (d g : Nat) (p : Pkt) (batch : List (Nat × Nat)) (h0 : s.Inv) : (State.sendBatch s d g p batch).Inv := by
  unfold State.sendBatch
  grind -lia -linarith -ring [foldl_snd_inv, State.withSeq_inv, State.sendCopies_inv]

theorem State.replicateTo_inv (s : State) (d g : Nat) (p : Pkt) (ms : List Nat) (h0 : s.Inv) : (State.replicateTo s d g p ms).Inv := by
  unfold State.replicateTo
  simp -zeta -zetaHave only [ite_sel, decide_sel]
  grind -lia -linarith -ring [sel_or, foldl_snd_inv, State.fnRoute_inv, State.sendBatch_inv]

theorem State.replicate_inv (s : State) (d g gen : Nat) (p : Pkt) (keep : Nat → Bool) (h0 : s.Inv) : (State.replicate s d g gen p keep).Inv := by
  unfold State.replicate
  simp -zeta -zetaHave only [ite_sel]
  grind -lia -linarith -ring [sel_or, State.inc_inv, State.emit_inv, State.replicateTo_inv]

/-! ### The operations of Machine/Gates.lean -/

theorem State.setPortTide_inv (s : State) (p : Nat) (t : PortTide) (h0 : s.Inv) : (State.setPortTide s p t).Inv := by
  unfold State.setPortTide
  grind -lia -linarith -ring [State.Inv_iff, State.Inv]

theorem State.setTideState_inv (s : State) (p st : Nat) (h0 : s.Inv) : (State.setTideState s p st).Inv := by
  unfold State.setTideState
  simp -zeta -zetaHave only [ite_sel]
  grind -lia -linarith -ring [sel_or, State.setFld_inv, State.irq_inv]

theorem State.setEng_inv (s : State) (n : Nat) (e : EngSt) (h0 : s.Inv) : (State.setEng s n e).Inv := by
  unfold State.setEng
  grind -lia -linarith -ring [State.Inv_iff, State.Inv]

theorem State.beginDark_inv (s : State) (n : Nat) (ports : List Nat) (h0 : s.Inv) : (State.beginDark s n ports).Inv := by
  unfold State.beginDark
  simp -zeta -zetaHave only [ite_sel]
  grind -lia -linarith -ring [sel_or, State.Inv_iff, State.Inv, foldl_inv]

theorem State.timersResume_inv (s : State) (lp from_ : Nat) (h0 : s.Inv) : (State.timersResume s lp from_).Inv := by
  unfold State.timersResume
  simp -zeta -zetaHave only [ite_sel]
  grind -lia -linarith -ring [sel_or, State.setLink_inv]

theorem State.endDark_inv (s : State) (n t : Nat) (ports : List Nat) (h0 : s.Inv) : (State.endDark s n t ports).Inv := by
  unfold State.endDark
  grind -lia -linarith -ring [State.Inv_iff, State.Inv, foldl_inv, State.timersResume_inv]

theorem State.parkDone_inv (s : State) (n : Nat) (h0 : s.Inv) : (State.parkDone s n).Inv := by
  unfold State.parkDone
  grind -lia -linarith -ring [State.Inv_iff, State.Inv]

theorem State.park_inv (s : State) (n t : Nat) (cut : Bool) (h0 : s.Inv) : (State.park s n t cut).Inv := by
  unfold State.park
  simp -zeta -zetaHave only [ite_sel]
  grind -lia -linarith -ring [sel_or, State.setFld_inv, State.inc_inv, State.irq_inv, State.setEng_inv, State.endDark_inv, State.parkDone_inv]

theorem State.applyMap_inv (s : State) (n m t : Nat) (h0 : s.Inv) : (State.applyMap s n m t).Inv := by
  unfold State.applyMap
  simp -zeta -zetaHave only [ite_sel]
  grind -lia -linarith -ring [sel_or, foldl_inv, State.setFld_inv, State.addCnt_inv, State.inc_inv, State.irq_inv, State.logErr_inv,
    State.setEng_inv, State.beginDark_inv, State.endDark_inv, State.park_inv]

theorem State.elementFault_inv (s : State) (n e : Nat) (h0 : s.Inv) : (State.elementFault s n e).Inv := by
  unfold State.elementFault
  simp -zeta -zetaHave only [ite_sel]
  grind -lia -linarith -ring [sel_or, State.irq_inv, State.logErr_inv, State.setEng_inv]

theorem State.cwSwap_inv (s : State) (n : Nat) (h0 : s.Inv) : (State.cwSwap s n).Inv := by
  unfold State.cwSwap
  grind -lia -linarith -ring [State.setFld_inv, State.setFlag_inv, State.irq_inv, State.setEng_inv]

theorem State.setCycle_inv (s : State) (p c : Nat) (h0 : s.Inv) : (State.setCycle s p c).Inv := by
  unfold State.setCycle
  grind -lia -linarith -ring [State.wrWide_inv, State.setPortTide_inv]

theorem State.engineSlot_inv (s : State) (p t : Nat) (swap : Bool) (h0 : s.Inv) : (State.engineSlot s p t swap).Inv := by
  unfold State.engineSlot
  simp -zeta -zetaHave only [ite_sel]
  grind -lia -linarith -ring [sel_or, State.parkDone_inv, State.park_inv, State.applyMap_inv, State.cwSwap_inv]

theorem State.startCycle_inv (s : State) (p t : Nat) (h0 : s.Inv) : (State.startCycle s p t).Inv := by
  unfold State.startCycle
  grind -lia -linarith -ring [State.setFld_inv, State.inc_inv, State.setTideState_inv, State.setCycle_inv]

theorem State.bankActive_inv (s : State) (p t : Nat) (h0 : s.Inv) : (State.bankActive s p t).Inv := by
  unfold State.bankActive
  simp -zeta -zetaHave only [ite_sel, decide_sel]
  grind -lia -linarith -ring [sel_or, State.setTideState_inv, State.setCycle_inv, State.startCycle_inv]

theorem State.takeover_inv (s : State) (p t : Nat) (h0 : s.Inv) : (State.takeover s p t).Inv := by
  unfold State.takeover
  refine State.engineSlot_inv _ _ _ _ (State.bankActive_inv _ _ _ (State.irq_inv _ _ _ (State.inc_inv _ _ (State.setPortTide_inv _ _ _ ?_))))
  exact State.setFld_inv _ _ _ _ (State.setFlag_inv _ _ _ _ (State.setFld_inv _ _ _ _ (State.setFld_inv _ _ _ _ h0)))

theorem State.listEnds_inv (s : State) (p t : Nat) (cut : Bool) (h0 : s.Inv) : (State.listEnds s p t cut).Inv := by
  unfold State.listEnds
  simp -zeta -zetaHave only [ite_sel]
  grind -lia -linarith -ring [sel_or, State.setPortTide_inv, State.setTideState_inv, State.park_inv]

theorem State.ownBoundary_inv (s : State) (p t : Nat) (h0 : s.Inv) : (State.ownBoundary s p t).Inv := by
  unfold State.ownBoundary
  simp -zeta -zetaHave only [ite_sel, decide_sel]
  grind -lia -linarith -ring [sel_or, State.setFld_inv, State.engineSlot_inv, State.startCycle_inv, State.listEnds_inv]

theorem State.tideLost_inv (s : State) (h0 : s.Inv) : (State.tideLost s).Inv := by
  unfold State.tideLost
  simp -zeta -zetaHave only [ite_sel]
  grind -lia -linarith -ring [sel_or, State.Inv_iff, State.Inv, foldl_inv, State.setTideState_inv]

theorem State.tideLocked_inv (s : State) (h0 : s.Inv) : (State.tideLocked s).Inv := by
  unfold State.tideLocked
  simp -zeta -zetaHave only [ite_sel]
  grind -lia -linarith -ring [sel_or, foldl_inv, State.setTideState_inv, State.setCycle_inv]

theorem State.control_inv (s : State) (lp : Nat) (body : List Byte) (h0 : s.Inv) : (State.control s lp body).Inv := by
  unfold State.control
  simp -zeta -zetaHave only [ite_sel]
  grind -lia -linarith -ring [sel_or, State.emit_inv, State.setLink_inv]

theorem State.nak_inv (s : State) (lp : Nat) (h0 : s.Inv) : (State.nak s lp).Inv := by
  unfold State.nak
  simp -zeta -zetaHave only [ite_sel, decide_sel]
  grind -lia -linarith -ring [sel_or, State.setLink_inv, State.control_inv]

theorem State.sendDue_inv (s : State) (lp : Nat) (h0 : s.Inv) : (State.sendDue s lp).Inv := by
  unfold State.sendDue
  simp -zeta -zetaHave only [ite_sel]
  grind -lia -linarith -ring [sel_or, State.setLink_inv, State.control_inv, State.nak_inv]

theorem State.allDue_inv (s : State) (h0 : s.Inv) : (State.allDue s).Inv := by
  unfold State.allDue
  grind -lia -linarith -ring [foldl_inv, State.sendDue_inv]

/-! ### The operations of Machine/Clock.lean -/

theorem State.occNote_inv (s : State) (lp c : Nat) (h0 : s.Inv) : (State.occNote s lp c).Inv := by
  unfold State.occNote
  simp -zeta -zetaHave only [ite_sel]
  grind -lia -linarith -ring [sel_or, State.Inv_iff, State.Inv]

theorem State.satJudge_inv (s : State) (t : Nat) (cs : List Nat) (h0 : s.Inv) : (State.satJudge s t cs).Inv := by
  unfold State.satJudge
  grind -lia -linarith -ring [foldl_inv, State.occNote_inv]

theorem State.occAdd_inv (s : State) (lp c n : Nat) (h0 : s.Inv) : (State.occAdd s lp c n).Inv := by
  unfold State.occAdd
  grind -lia -linarith -ring [State.setFld_inv, State.occNote_inv]

theorem State.unblock_inv (s : State) (lp c : Nat) (h0 : s.Inv) : (State.unblock s lp c).Inv := by
  unfold State.unblock
  grind -lia -linarith -ring [State.Inv_iff, State.Inv]

theorem State.deficitLoss_inv (s : State) (lp c : Nat) (h0 : s.Inv) : (State.deficitLoss s lp c).Inv := by
  unfold State.deficitLoss
  simp -zeta -zetaHave only [ite_sel]
  grind -lia -linarith -ring [sel_or, State.Inv_iff, State.Inv]

theorem State.occSub_inv (s : State) (lp c n : Nat) (h0 : s.Inv) : (State.occSub s lp c n).Inv := by
  unfold State.occSub
  grind -lia -linarith -ring [State.setFld_inv, State.occNote_inv, State.unblock_inv, State.deficitLoss_inv]

theorem State.pmcEvent_inv (s : State) (ev c unit n : Nat) (h0 : s.Inv) : (State.pmcEvent s ev c unit n).Inv := by
  unfold State.pmcEvent
  simp -zeta -zetaHave only [ite_sel, decide_sel]
  grind -lia -linarith -ring [sel_or, foldl_inv, State.addCnt_inv]

theorem State.slotOpenClear_inv (s : State) (h0 : s.Inv) : (State.slotOpenClear s).Inv := by
  unfold State.slotOpenClear
  simp -zeta -zetaHave only [ite_sel]
  grind -lia -linarith -ring [sel_or, foldl_inv, State.wrWide_inv]

theorem State.pmcCycles_inv (s : State) (ev : Nat) (f : Nat × Pkt → Nat) (once : Bool) (h0 : s.Inv) : (State.pmcCycles s ev f once).Inv := by
  unfold State.pmcCycles
  simp -zeta -zetaHave only [ite_sel]
  grind -lia -linarith -ring [sel_or, foldl_inv, State.addCnt_inv]

theorem State.countCycles_inv (s : State) (n : Nat) (h0 : s.Inv) : (State.countCycles s n).Inv := by
  unfold State.countCycles
  simp -zeta -zetaHave only [ite_sel, decide_sel]
  grind -lia -linarith -ring [sel_or, foldl_inv, State.addCnt_inv, State.pmcCycles_inv]

theorem State.blockNote_inv (s : State) (h0 : s.Inv) : (State.blockNote s).Inv := by
  unfold State.blockNote
  grind -lia -linarith -ring [State.Inv_iff, State.Inv, foldl_inv]

theorem State.blockCheck_inv (s : State) (lp : Nat) (h0 : s.Inv) : (State.blockCheck s lp).Inv := by
  unfold State.blockCheck
  grind -lia -linarith -ring [foldl_inv, State.unblock_inv]

theorem State.elapse_inv (n : Nat) (s : State) (h0 : s.Inv) : (State.elapse n s).Inv := by
  unfold State.elapse
  simp -zeta -zetaHave only [ite_sel]
  grind -lia -linarith -ring [sel_or, State.Inv_iff, State.Inv, State.allDue_inv, State.countCycles_inv, State.blockNote_inv]

theorem State.elapseToTick_inv (t : Nat) (s : State) (h0 : s.Inv) : (State.elapseToTick t s).Inv := by
  unfold State.elapseToTick
  grind -lia -linarith -ring [State.elapse_inv]

theorem State.nextSample_inv (s : State) (k : Nat) (h0 : s.Inv) : (State.nextSample s k).Inv := by
  unfold State.nextSample
  grind -lia -linarith -ring [State.Inv_iff, State.Inv, State.elapseToTick_inv]

theorem State.elapseToDev_inv (t : Nat) (s : State) (h0 : s.Inv) : (State.elapseToDev t s).Inv := by
  unfold State.elapseToDev
  grind -lia -linarith -ring [State.elapse_inv]

theorem State.boundary_inv (s : State) (p : Nat) (h0 : s.Inv) : (State.boundary s p).Inv := by
  unfold State.boundary
  simp -zeta -zetaHave only [decide_sel]
  grind -lia -linarith -ring [sel_or, State.park_inv, State.engineSlot_inv, State.startCycle_inv, State.takeover_inv, State.listEnds_inv,
    State.ownBoundary_inv, State.elapseToDev_inv]

/-! ### The operations of Machine/FenCore.lean -/

theorem State.setRound_inv (s : State) (r : Round) (h0 : s.Inv) : (State.setRound s r).Inv := by
  unfold State.setRound
  simp -zeta -zetaHave only [ite_sel]
  grind -lia -linarith -ring [sel_or, State.Inv_iff, State.Inv]

theorem State.setHist_inv (s : State) (die g : Nat) (h : FenHist) (h0 : s.Inv) : (State.setHist s die g h).Inv := by
  unfold State.setHist
  grind -lia -linarith -ring [State.Inv_iff, State.Inv]

theorem State.fenSeq_inv (s : State) (g : Nat) (p : Pkt) (h0 : s.Inv) : (State.fenSeq s g p).2.Inv := by
  unfold State.fenSeq
  simp -zeta -zetaHave only [ite_sel]
  grind -lia -linarith -ring [sel_or, State.Inv_iff, State.Inv]

theorem State.fenToPort_inv (s : State) (die lp : Nat) (p : Pkt) (h0 : s.Inv) : (State.fenToPort s die lp p).Inv := by
  unfold State.fenToPort
  grind -lia -linarith -ring [State.originateOn_inv]

theorem State.fenSend_inv (s : State) (r : Round) (who : Option (List Nat)) (p : Pkt) (h0 : s.Inv) : (State.fenSend s r who p).Inv := by
  unfold State.fenSend
  grind -lia -linarith -ring [State.replicate_inv]

theorem State.fenTrace_inv (s : State) (r : Round) (code c : Nat) (h0 : s.Inv) : (State.fenTrace s r code c).Inv := by
  unfold State.fenTrace
  grind -lia -linarith -ring [State.trace_inv]

theorem State.sendCtrl_inv (s : State) (r : Round) (op : Nat) (who : Option (List Nat)) (status chunk regions retry : Nat) (h0 : s.Inv) :
    (State.sendCtrl s r op who status chunk regions retry).Inv := by
  unfold State.sendCtrl
  grind -lia -linarith -ring [State.fenSend_inv, State.fenTrace_inv]

theorem State.sendHall_inv (s : State) (r : Round) (lp op status chunk regions retry : Nat) (h0 : s.Inv) :
    (State.sendHall s r lp op status chunk regions retry).Inv := by
  unfold State.sendHall
  grind -lia -linarith -ring [State.fenToPort_inv, State.fenTrace_inv]

theorem State.sendHalls_inv (s : State) (r : Round) (hs : List Nat) (op status chunk : Nat) (h0 : s.Inv) :
    (State.sendHalls s r hs op status chunk).Inv := by
  unfold State.sendHalls
  grind -lia -linarith -ring [foldl_inv, State.sendHall_inv]

theorem State.partUse_inv (s : State) (r : Round) (take : Bool) (h0 : s.Inv) : (State.partUse s r take).Inv := by
  unfold State.partUse
  simp -zeta -zetaHave only [ite_sel]
  grind -lia -linarith -ring [sel_or, State.setFld_inv]

theorem State.dropRound_inv (s : State) (r : Round) (h0 : s.Inv) : (State.dropRound s r).Inv := by
  unfold State.dropRound
  grind -lia -linarith -ring [State.Inv_iff, State.Inv, State.partUse_inv]

theorem State.postRound_inv (s : State) (r : Round) (status flags : Nat) (h0 : s.Inv) : (State.postRound s r status flags).Inv := by
  unfold State.postRound
  simp -zeta -zetaHave only [ite_sel]
  grind -lia -linarith -ring [sel_or, State.post_inv]

theorem State.fenAbort_inv (s : State) (r : Round) (reason : Nat) (log : Bool) (h0 : s.Inv) : (State.fenAbort s r reason log).Inv := by
  unfold State.fenAbort
  simp -zeta -zetaHave only [ite_sel]
  grind -lia -linarith -ring [sel_or, State.logErr_inv, State.sendCtrl_inv, State.sendHall_inv, State.sendHalls_inv, State.dropRound_inv, State.postRound_inv]

theorem State.sendRecord_inv (s : State) (r : Round) (body : List Byte) (h0 : s.Inv) : (State.sendRecord s r body).Inv := by
  unfold State.sendRecord
  grind -lia -linarith -ring [foldl_inv, State.setHist_inv, State.fenSeq_inv, State.fenToPort_inv, State.fenSend_inv]

theorem State.endRound_inv (s : State) (r : Round) (flags : Nat) (h0 : s.Inv) : (State.endRound s r flags).Inv := by
  unfold State.endRound
  grind -lia -linarith -ring [State.dropRound_inv, State.postRound_inv]

theorem State.fenProgress_inv (s : State) (r : Round) (h0 : s.Inv) : (State.fenProgress s r).Inv := by
  unfold State.fenProgress
  simp -zeta -zetaHave only [ite_sel]
  grind -lia -linarith -ring [sel_or, State.setRound_inv, State.sendRecord_inv, State.endRound_inv]

theorem State.passCheck_inv (s : State) (r : Round) (h0 : s.Inv) : (State.passCheck s r).Inv := by
  unfold State.passCheck
  simp -zeta -zetaHave only [ite_sel]
  grind -lia -linarith -ring [sel_or, State.setRound_inv, State.sendRecord_inv, State.endRound_inv]

theorem State.arrivalRecord_inv (s : State) (r : Round) (c : Nat) (ch : Chunk) (h0 : s.Inv) : (State.arrivalRecord s r c ch).Inv := by
  unfold State.arrivalRecord
  simp -zeta -zetaHave only [ite_sel, decide_sel]
  grind -lia -linarith -ring [sel_or, State.Inv_iff, State.Inv, foldl_inv, State.draw_inv, State.charge_inv, State.archive_inv]

theorem State.finishChunk_inv (s : State) (r : Round) (c : Nat) (h0 : s.Inv) : (State.finishChunk s r c).2.Inv := by
  unfold State.finishChunk
  simp -zeta -zetaHave only [ite_sel]
  grind -lia -linarith -ring [sel_or, State.arrivalRecord_inv]

theorem State.orSticky_inv (s : State) (phys f : Nat) (h0 : s.Inv) : (State.orSticky s phys f).Inv := by
  unfold State.orSticky
  grind -lia -linarith -ring [State.wr_inv]

theorem State.tryFinish_inv (s : State) (r : Round) (c : Nat) (wrong : Option RunOut) (h0 : s.Inv) : (State.tryFinish s r c wrong).2.Inv := by
  unfold State.tryFinish
  simp -zeta -zetaHave only [ite_sel]
  grind -lia -linarith -ring [sel_or, State.Inv_iff, State.Inv, State.inc_inv, State.finishChunk_inv, State.orSticky_inv]

theorem State.sweep_inv (s : State) (r : Round) (h0 : s.Inv) : (State.sweep s r).2.Inv := by
  unfold State.sweep
  grind -lia -linarith -ring [foldl_snd_inv, State.tryFinish_inv]

theorem State.excuse_inv (s : State) (r : Round) (is : List Nat) (h0 : s.Inv) : (State.excuse s r is).2.Inv := by
  unfold State.excuse
  grind -lia -linarith -ring [State.addCnt_inv]

theorem State.fenceRound_inv (s : State) (r : Round) (h0 : s.Inv) : (State.fenceRound s r).Inv := by
  unfold State.fenceRound
  simp -zeta -zetaHave only [ite_sel]
  grind -lia -linarith -ring [sel_or, State.setRound_inv, State.fenAbort_inv, State.fenProgress_inv, State.passCheck_inv, State.sweep_inv, State.excuse_inv]

theorem State.fenFences_inv (s : State) (h0 : s.Inv) : (State.fenFences s).Inv := by
  unfold State.fenFences
  grind -lia -linarith -ring [foldl_inv, State.fenceRound_inv]

theorem State.groupChanged_inv (s : State) (g : Nat) (h0 : s.Inv) : (State.groupChanged s g).Inv := by
  unfold State.groupChanged
  grind -lia -linarith -ring [foldl_inv, State.setHist_inv, State.dropRound_inv]

theorem State.hallLost_inv (s : State) (lp : Nat) (h0 : s.Inv) : (State.hallLost s lp).Inv := by
  unfold State.hallLost
  grind -lia -linarith -ring [foldl_inv, State.fenAbort_inv]

/-! ### The operations of Machine/ChkCore.lean -/

theorem State.setSpare_inv (s : State) (d st : Nat) (h0 : s.Inv) : (State.setSpare s d st).Inv := by
  unfold State.setSpare
  grind -lia -linarith -ring [State.setFld_inv]

theorem State.outOfWork_inv (s : State) (n : Nat) (h0 : s.Inv) : (State.outOfWork s n).Inv := by
  unfold State.outOfWork
  simp -zeta -zetaHave only [ite_sel]
  grind -lia -linarith -ring [sel_or, State.setFld_inv, State.setFlag_inv, State.setSpare_inv]

theorem State.leaveWork_inv (s : State) (n : Nat) (h0 : s.Inv) : (State.leaveWork s n).Inv := by
  unfold State.leaveWork
  simp -zeta -zetaHave only [ite_sel]
  grind -lia -linarith -ring [sel_or, State.outOfWork_inv]

theorem State.unshare_inv (s : State) (d l : Nat) (h0 : s.Inv) : (State.unshare s d l).Inv := by
  unfold State.unshare
  simp -zeta -zetaHave only [ite_sel]
  grind -lia -linarith -ring [sel_or, foldl_inv, State.setFld_inv]

theorem State.handover_inv (s : State) (d l n : Nat) (h0 : s.Inv) : (State.handover s d l n).Inv := by
  unfold State.handover
  simp -zeta -zetaHave only [ite_sel]
  grind -lia -linarith -ring [sel_or, foldl_inv, State.setFld_inv, State.setFlag_inv, State.leaveWork_inv, State.unshare_inv]

theorem State.timeShare_inv (s : State) (d l : Nat) (h0 : s.Inv) : (State.timeShare s d l).Inv := by
  unfold State.timeShare
  grind -lia -linarith -ring [foldl_inv, State.setFld_inv, State.inc_inv, State.leaveWork_inv]

theorem State.iftResult_inv (s : State) (unit result : Nat) (h0 : s.Inv) : (State.iftResult s unit result).Inv := by
  unfold State.iftResult
  grind -lia -linarith -ring [State.wrWide_inv, State.setFld_inv]

theorem State.setTest_inv (s : State) (t : IftTest) (h0 : s.Inv) : (State.setTest s t).Inv := by
  unfold State.setTest
  simp -zeta -zetaHave only [ite_sel]
  grind -lia -linarith -ring [sel_or, State.Inv_iff, State.Inv]

theorem State.abortStandIn_inv (s : State) (d : Nat) (h0 : s.Inv) : (State.abortStandIn s d).Inv := by
  unfold State.abortStandIn
  simp -zeta -zetaHave only [decide_sel]
  grind -lia -linarith -ring [sel_or, State.handover_inv, State.iftResult_inv, State.setTest_inv]

theorem State.writeSettings_inv (s : State) (f : SetRec → SetRec) (h0 : s.Inv) : (State.writeSettings s f).Inv := by
  unfold State.writeSettings
  simp -zeta -zetaHave only [ite_sel]
  grind -lia -linarith -ring [sel_or, State.Inv_iff, State.Inv]

theorem State.setStep_inv (s : State) (u st : Nat) (h0 : s.Inv) : (State.setStep s u st).Inv := by
  unfold State.setStep
  simp -zeta -zetaHave only [ite_sel]
  grind -lia -linarith -ring [sel_or, State.setFld_inv, State.writeSettings_inv]

theorem State.setPending_inv (s : State) (u : Nat) (b : Bool) (h0 : s.Inv) : (State.setPending s u b).Inv := by
  unfold State.setPending
  grind -lia -linarith -ring [State.setFlag_inv]

theorem State.substituted_inv (s : State) (loc : Nat) (h0 : s.Inv) : (State.substituted s loc).Inv := by
  unfold State.substituted
  grind -lia -linarith -ring [State.inc_inv, State.irq_inv, State.logErr_inv]

theorem State.endSharing_inv (s : State) (d : Nat) (h0 : s.Inv) : (State.endSharing s d).Inv := by
  unfold State.endSharing
  simp -zeta -zetaHave only [ite_sel, decide_sel]
  grind -lia -linarith -ring [sel_or, State.setSpare_inv, State.handover_inv]

theorem State.retireFen_inv (s : State) (n : Nat) (share : Bool) (h0 : s.Inv) : (State.retireFen s n share).Inv := by
  unfold State.retireFen
  simp -zeta -zetaHave only [ite_sel]
  grind -lia -linarith -ring [sel_or, State.setSpare_inv, State.leaveWork_inv, State.handover_inv, State.timeShare_inv, State.abortStandIn_inv,
    State.setStep_inv, State.setPending_inv, State.substituted_inv]

theorem State.setRow_inv (s : State) (r : Nat) (spared testing : Bool) (skip : Nat) (h0 : s.Inv) : (State.setRow s r spared testing skip).Inv := by
  unfold State.setRow
  grind -lia -linarith -ring [State.setFld_inv, State.setFlag_inv]

theorem State.abortMac_inv (s : State) (r : Nat) (h0 : s.Inv) : (State.abortMac s r).Inv := by
  unfold State.abortMac
  grind -lia -linarith -ring [State.iftResult_inv, State.setTest_inv, State.setRow_inv]

theorem State.retireMac_inv (s : State) (u : Nat) (h0 : s.Inv) : (State.retireMac s u).Inv := by
  unfold State.retireMac
  simp -zeta -zetaHave only [ite_sel]
  grind -lia -linarith -ring [sel_or, State.setStep_inv, State.setPending_inv, State.substituted_inv, State.setRow_inv, State.abortMac_inv]

theorem State.setCore_inv (s : State) (h l k : Nat) (h0 : s.Inv) : (State.setCore s h l k).Inv := by
  unfold State.setCore
  grind -lia -linarith -ring [State.Inv_iff, State.Inv]

theorem State.setFailed_inv (s : State) (h k : Nat) (b : Bool) (h0 : s.Inv) : (State.setFailed s h k b).Inv := by
  unfold State.setFailed
  grind -lia -linarith -ring [State.setFld_inv]

theorem State.setSpareFor_inv (s : State) (h l : Nat) (h0 : s.Inv) : (State.setSpareFor s h l).Inv := by
  unfold State.setSpareFor
  grind -lia -linarith -ring [State.setFld_inv]

theorem State.abortCore_inv (s : State) (h : Nat) (h0 : s.Inv) : (State.abortCore s h).Inv := by
  unfold State.abortCore
  grind -lia -linarith -ring [State.iftResult_inv, State.setTest_inv, State.setCore_inv, State.setSpareFor_inv]

theorem State.retireCore_inv (s : State) (u : Nat) (lost : Bool) (h0 : s.Inv) : (State.retireCore s u lost).Inv := by
  unfold State.retireCore
  simp -zeta -zetaHave only [ite_sel]
  grind -lia -linarith -ring [sel_or, State.setFlag_inv, State.setStep_inv, State.setPending_inv, State.substituted_inv, State.setCore_inv,
    State.setFailed_inv, State.setSpareFor_inv, State.abortCore_inv]

theorem State.retireUnit_inv (s : State) (u : Nat) (h0 : s.Inv) : (State.retireUnit s u).Inv := by
  unfold State.retireUnit
  grind -lia -linarith -ring [State.retireFen_inv, State.retireMac_inv, State.retireCore_inv]

theorem State.baroStep_inv (s : State) (u : Nat) (h0 : s.Inv) : (State.baroStep s u).2.Inv := by
  unfold State.baroStep
  simp -zeta -zetaHave only [ite_sel]
  grind -lia -linarith -ring [sel_or, State.inc_inv, State.setStep_inv, State.setPending_inv, State.retireUnit_inv]

/-! ### The operations of Machine/Copies.lean -/

theorem State.drizzleSee_inv (s : State) (lp : Nat) (tx : Bool) (p : Pkt) (flight : Option Nat) (h0 : s.Inv) :
    (State.drizzleSee s lp tx p flight).Inv := by
  unfold State.drizzleSee
  simp -zeta -zetaHave only [ite_sel]
  grind -lia -linarith -ring [sel_or, State.Inv_iff, State.Inv]

theorem State.drizzleMark_inv (s : State) (id reason : Nat) (h0 : s.Inv) : (State.drizzleMark s id reason).Inv := by
  unfold State.drizzleMark
  simp -zeta -zetaHave only [ite_sel]
  grind -lia -linarith -ring [sel_or, State.Inv_iff, State.Inv]

theorem State.drizzleEnd_inv (s : State) (id : Nat) (tx : Option Nat) (stomped discarded : Bool) (len : Nat) (h0 : s.Inv) :
    (State.drizzleEnd s id tx stomped discarded len).Inv := by
  unfold State.drizzleEnd
  simp -zeta -zetaHave only [ite_sel]
  grind -lia -linarith -ring [sel_or, State.Inv_iff, State.Inv]

theorem State.tagArrive_inv (s : State) (r : List Byte) (h0 : s.Inv) : (State.tagArrive s r).Inv := by
  have hpmc (q : PmcSt) (t : State) (h : t.Inv) : State.Inv { t with pmc := q } := State.Inv_of_eq h rfl rfl rfl rfl
  unfold State.tagArrive
  dsimp only
  split
  · exact State.irq_inv _ _ _ (State.inc_inv _ _ (hpmc _ _ h0))
  · split
    · exact State.inc_inv _ _ (hpmc _ _ (State.inc_inv _ _ (hpmc _ _ h0)))
    · exact hpmc _ _ (State.inc_inv _ _ (hpmc _ _ h0))

theorem State.tagRecord_inv (s : State) (f : Flight) (out : Nat) (cut stomped discarded func : Bool) (reason : Nat) (h0 : s.Inv) :
    (State.tagRecord s f out cut stomped discarded func reason).Inv := by
  unfold State.tagRecord
  grind -lia -linarith -ring [State.tagArrive_inv]

theorem State.tagSee_inv (s : State) (lp : Nat) (p : Pkt) (h0 : s.Inv) : (State.tagSee s lp p).2.2.Inv := by
  unfold State.tagSee
  simp -zeta -zetaHave only [ite_sel]
  grind -lia -linarith -ring [sel_or, State.Inv_iff, State.Inv, State.inc_inv]

theorem State.setFlights_inv (s : State) (l : List Flight) (h0 : s.Inv) : (State.setFlights s l).Inv := by
  unfold State.setFlights
  grind -lia -linarith -ring [State.Inv_iff, State.Inv]

theorem State.setLegs_inv (s : State) (l : List Leg) (h0 : s.Inv) : (State.setLegs s l).Inv := by
  unfold State.setLegs
  grind -lia -linarith -ring [State.Inv_iff, State.Inv]

theorem State.setRingSt_inv (s : State) (r : Nat) (x : RingSt) (h0 : s.Inv) : (State.setRingSt s r x).Inv := by
  unfold State.setRingSt
  grind -lia -linarith -ring [State.Inv_iff, State.Inv]

theorem State.dropLegs_inv (s : State) (which : Leg → Bool) (h0 : s.Inv) : (State.dropLegs s which).Inv := by
  unfold State.dropLegs
  grind -lia -linarith -ring [State.Inv_iff, State.Inv]

theorem State.freeCredits_inv (s : State) (lp : Nat) (shared : Bool) (c n : Nat) (h0 : s.Inv) : (State.freeCredits s lp shared c n).Inv := by
  unfold State.freeCredits
  simp -zeta -zetaHave only [ite_sel]
  grind -lia -linarith -ring [sel_or, State.Inv_iff, State.Inv, State.setLink_inv, State.control_inv]

theorem State.setRx_inv (s : State) (l : List RxFrame) (h0 : s.Inv) : (State.setRx s l).Inv := by
  unfold State.setRx
  grind -lia -linarith -ring [State.Inv_iff, State.Inv]

theorem State.rxMod_inv (s : State) (id : Nat) (f : RxFrame → RxFrame) (h0 : s.Inv) : (State.rxMod s id f).Inv := by
  unfold State.rxMod
  simp -zeta -zetaHave only [ite_sel]
  grind -lia -linarith -ring [sel_or, State.freeCredits_inv, State.setRx_inv]

theorem State.leftStaging_inv (s : State) (id : Nat) (h0 : s.Inv) : (State.leftStaging s id).Inv := by
  unfold State.leftStaging
  grind -lia -linarith -ring [State.rxMod_inv]

theorem State.endCut_inv (s : State) (lp : Nat) (f : Flight) (stomped : Bool) (h0 : s.Inv) : (State.endCut s lp f stomped).Inv := by
  unfold State.endCut
  simp -zeta -zetaHave only [ite_sel]
  grind -lia -linarith -ring [sel_or, State.inc_inv, State.emit_inv, State.setLink_inv, State.drizzleEnd_inv, State.tagRecord_inv]

theorem State.spoilOne_inv (s : State) (reason : Nat) (f : Flight) (h0 : s.Inv) : (State.spoilOne s reason f).Inv := by
  unfold State.spoilOne
  grind -lia -linarith -ring [State.occSub_inv, State.tagRecord_inv, State.endCut_inv]

theorem State.spoil_inv (s : State) (reason : Nat) (which : Flight → Bool) (h0 : s.Inv) : (State.spoil s reason which).Inv := by
  unfold State.spoil
  grind -lia -linarith -ring [foldl_inv, State.setFlights_inv, State.spoilOne_inv]

theorem State.spoilAll_inv (s : State) (id reason : Nat) (h0 : s.Inv) : (State.spoilAll s id reason).Inv := by
  unfold State.spoilAll
  grind -lia -linarith -ring [State.drizzleMark_inv, State.dropLegs_inv, State.spoil_inv]

theorem State.spoilOutput_inv (s : State) (id output : Nat) (h0 : s.Inv) : (State.spoilOutput s id output).Inv := by
  unfold State.spoilOutput
  simp -zeta -zetaHave only [ite_sel]
  grind -lia -linarith -ring [sel_or, State.drizzleMark_inv, State.setFlights_inv, State.dropLegs_inv, State.spoil_inv]

theorem State.spoilPort_inv (s : State) (id p : Nat) (h0 : s.Inv) : (State.spoilPort s id p).Inv := by
  unfold State.spoilPort
  grind -lia -linarith -ring [State.drizzleMark_inv, State.setFlights_inv, State.dropLegs_inv, State.spoil_inv]

theorem State.staleDiscard_inv (s : State) (lp src : Nat) (h0 : s.Inv) : (State.staleDiscard s lp src).Inv := by
  unfold State.staleDiscard
  simp -zeta -zetaHave only [ite_sel, decide_sel]
  grind -lia -linarith -ring [sel_or, State.Inv_iff, State.Inv, State.emit_inv, State.logErr_inv, State.charge_inv, State.commit_inv]

theorem State.countReason_inv (s : State) (lp reason : Nat) (p : Pkt) (h0 : s.Inv) : (State.countReason s lp reason p).Inv := by
  unfold State.countReason
  simp -zeta -zetaHave only [ite_sel, decide_sel]
  grind -lia -linarith -ring [sel_or, State.inc_inv, State.staleDiscard_inv]

/-! ### The operations of Machine/Link.lean -/

theorem State.flushPort_inv (s : State) (lp : Nat) (h0 : s.Inv) : (State.flushPort s lp).Inv := by
  unfold State.flushPort
  simp -zeta -zetaHave only [ite_sel]
  grind -lia -linarith -ring [sel_or, foldl_inv, State.inc_inv, State.occSub_inv, State.drizzleMark_inv, State.drizzleEnd_inv, State.tagRecord_inv,
    State.setFlights_inv]

theorem State.refuseOpen_inv (s : State) (lp : Nat) (h0 : s.Inv) : (State.refuseOpen s lp).Inv := by
  unfold State.refuseOpen
  grind -lia -linarith -ring [State.setLink_inv, State.drizzleEnd_inv, State.setRx_inv, State.spoilAll_inv]

theorem State.setLinkState_inv (s : State) (lp : Nat) (st : LinkState) (h0 : s.Inv) : (State.setLinkState s lp st).Inv := by
  unfold State.setLinkState
  simp -zeta -zetaHave only [ite_sel]
  grind -lia -linarith -ring [sel_or, State.Inv_iff, State.Inv, State.trace_inv, State.irq_inv, State.logErr_inv, State.charge_inv, State.setLink_inv]

theorem State.sendHello_inv (s : State) (lp : Nat) (h0 : s.Inv) : (State.sendHello s lp).Inv := by
  unfold State.sendHello
  simp -zeta -zetaHave only [ite_sel]
  grind -lia -linarith -ring [sel_or, State.control_inv]

theorem State.trainingFails_inv (s : State) (lp : Nat) (h0 : s.Inv) : (State.trainingFails s lp).Inv := by
  unfold State.trainingFails
  grind -lia -linarith -ring [State.logErr_inv, State.charge_inv, State.setLink_inv, State.setLinkState_inv]

theorem State.flap_inv (s : State) (lp reason : Nat) (h0 : s.Inv) : (State.flap s lp reason).Inv := by
  unfold State.flap
  simp -zeta -zetaHave only [ite_sel]
  grind -lia -linarith -ring [sel_or, State.Inv_iff, State.Inv, State.charge_inv, State.setLink_inv, State.control_inv, State.hallLost_inv,
    State.flushPort_inv, State.refuseOpen_inv, State.setLinkState_inv]

theorem State.leaveUp_inv (s : State) (lp reason : Nat) (h0 : s.Inv) : (State.leaveUp s lp reason).Inv := by
  unfold State.leaveUp
  simp -zeta -zetaHave only [ite_sel]
  grind -lia -linarith -ring [sel_or, State.flap_inv]

theorem State.enterUp_inv (s : State) (lp : Nat) (h : Hello) (st : LinkState) (h0 : s.Inv) : (State.enterUp s lp h st).Inv := by
  unfold State.enterUp
  grind -lia -linarith -ring [State.setLink_inv, State.setLinkState_inv]

theorem State.acked_inv (s : State) (lp ackSeq : Nat) (h0 : s.Inv) : (State.acked s lp ackSeq).Inv := by
  unfold State.acked
  simp -zeta -zetaHave only [ite_sel]
  grind -lia -linarith -ring [sel_or, State.setLink_inv]

theorem State.resendFrom_inv (s : State) (lp q : Nat) (h0 : s.Inv) : (State.resendFrom s lp q).Inv := by
  unfold State.resendFrom
  simp -zeta -zetaHave only [ite_sel]
  grind -lia -linarith -ring [sel_or, foldl_inv, State.inc_inv, State.emit_inv, State.logErr_inv, State.setLink_inv, State.flap_inv]

theorem State.resendDue_inv (s : State) (lp : Nat) (h0 : s.Inv) : (State.resendDue s lp).Inv := by
  unfold State.resendDue
  grind -lia -linarith -ring [State.resendFrom_inv]

theorem State.badFrame_inv (s : State) (lp : Nat) (fecBad : Bool) (h0 : s.Inv) : (State.badFrame s lp fecBad).Inv := by
  unfold State.badFrame
  simp -zeta -zetaHave only [ite_sel]
  grind -lia -linarith -ring [sel_or, State.setLink_inv, State.nak_inv]

theorem State.controlRx_inv (s : State) (lp kind : Nat) (header body : List Byte) (fecBad : Bool) (f : State → State) (h0 : s.Inv)
    (h1 : ∀ x, x.Inv → (f x).Inv) :
    (State.controlRx s lp kind header body fecBad f).Inv := by
  unfold State.controlRx
  simp -zeta -zetaHave only [ite_sel]
  grind -lia -linarith -ring [sel_or, State.acked_inv, State.badFrame_inv]

theorem execLinkDataFrameRx_inv (lport : Nat) (header : List Byte) (fecBad : Bool) (s : State) (h0 : s.Inv) :
    Result.Inv (exec (.linkDataFrameRx lport header fecBad) s) := by
  show Result.Inv (execLinkDataFrameRx lport header fecBad s)
  unfold execLinkDataFrameRx
  simp -zeta -zetaHave only [ite_sel]
  grind -lia -linarith -ring [sel_or, Result.inv_next, State.setLink_inv, State.control_inv, State.nak_inv, State.rxMod_inv, State.refuseOpen_inv,
    State.acked_inv, State.badFrame_inv]

theorem execAckRx_inv (lport : Nat) (header body : List Byte) (fecBad : Bool) (s : State) (h0 : s.Inv) :
    Result.Inv (exec (.ackRx lport header body fecBad) s) := by
  show Result.Inv (execAckRx lport header body fecBad s)
  unfold execAckRx
  grind -lia -linarith -ring [Result.inv_next, State.acked_inv, State.controlRx_inv]

theorem execNakRx_inv (lport : Nat) (header body : List Byte) (fecBad : Bool) (s : State) (h0 : s.Inv) :
    Result.Inv (exec (.nakRx lport header body fecBad) s) := by
  show Result.Inv (execNakRx lport header body fecBad s)
  unfold execNakRx
  grind -lia -linarith -ring [Result.inv_next, State.setLink_inv, State.resendFrom_inv, State.controlRx_inv]

theorem execCreditRx_inv (lport : Nat) (header body : List Byte) (fecBad : Bool) (s : State) (h0 : s.Inv) :
    Result.Inv (exec (.creditRx lport header body fecBad) s) := by
  show Result.Inv (execCreditRx lport header body fecBad s)
  unfold execCreditRx
  grind -lia -linarith -ring [Result.inv_next, State.setLink_inv, State.blockCheck_inv, State.controlRx_inv]

theorem State.hello_inv (s : State) (lport : Nat) (hello : Hello) (h0 : s.Inv) : (State.hello s lport hello).Inv := by
  unfold State.hello
  simp -zeta -zetaHave only [ite_sel]
  grind -lia -linarith -ring [sel_or, State.logErr_inv, State.setLink_inv, State.setLinkState_inv, State.flap_inv, State.enterUp_inv]

theorem execHelloRx_inv (lport : Nat) (header body : List Byte) (fecBad : Bool) (s : State) (h0 : s.Inv) :
    Result.Inv (exec (.helloRx lport header body fecBad) s) := by
  show Result.Inv (execHelloRx lport header body fecBad s)
  unfold execHelloRx
  grind -lia -linarith -ring [Result.inv_next, State.controlRx_inv, State.hello_inv]

theorem execGoodbyeRx_inv (lport : Nat) (header body : List Byte) (fecBad : Bool) (s : State) (h0 : s.Inv) :
    Result.Inv (exec (.goodbyeRx lport header body fecBad) s) := by
  show Result.Inv (execGoodbyeRx lport header body fecBad s)
  unfold execGoodbyeRx
  grind -lia -linarith -ring [Result.inv_next, State.leaveUp_inv, State.controlRx_inv]

theorem execReplayTimeout_inv (lport : Nat) (s : State) (h0 : s.Inv) : Result.Inv (exec (.replayTimeout lport) s) := by
  show Result.Inv (execReplayTimeout lport s)
  unfold execReplayTimeout
  simp -zeta -zetaHave only [ite_sel]
  grind -lia -linarith -ring [sel_or, Result.inv_next, State.setLink_inv, State.elapseToTick_inv, State.resendFrom_inv]

theorem execHelloTimer_inv (lport : Nat) (s : State) (h0 : s.Inv) : Result.Inv (exec (.helloTimer lport) s) := by
  show Result.Inv (execHelloTimer lport s)
  unfold execHelloTimer
  grind -lia -linarith -ring [Result.inv_next, State.elapse_inv, State.sendHello_inv]

theorem State.reedsChanged_inv (s : State) (p : Nat) (h0 : s.Inv) : (State.reedsChanged s p).Inv := by
  unfold State.reedsChanged
  grind -lia -linarith -ring [State.irq_inv]

theorem State.setGate_inv (s : State) (p r : Nat) (open_ : Bool) (h0 : s.Inv) : (State.setGate s p r open_).Inv := by
  unfold State.setGate
  simp -zeta -zetaHave only [ite_sel]
  grind -lia -linarith -ring [sel_or, State.Inv_iff, State.Inv]

theorem State.setLive_inv (s : State) (p r : Nat) (live : Bool) (h0 : s.Inv) : (State.setLive s p r live).Inv := by
  unfold State.setLive
  simp -zeta -zetaHave only [ite_sel]
  grind -lia -linarith -ring [sel_or, State.setFlag_inv, State.reedsChanged_inv, State.setGate_inv]

theorem State.reportLocked_inv (s : State) (lp : Nat) (h0 : s.Inv) : (State.reportLocked s lp).Inv := by
  unfold State.reportLocked
  simp -zeta -zetaHave only [ite_sel]
  grind -lia -linarith -ring [sel_or, foldl_inv, State.setFld_inv, State.setLink_inv, State.setLinkState_inv, State.setLive_inv]

theorem State.reportUnlocked_inv (s : State) (lp : Nat) (h0 : s.Inv) : (State.reportUnlocked s lp).Inv := by
  unfold State.reportUnlocked
  grind -lia -linarith -ring [State.Inv_iff, State.Inv, foldl_inv, State.setLink_inv, State.setLive_inv]

theorem execReedsLocked_inv (lport : Nat) (s : State) (h0 : s.Inv) : Result.Inv (exec (.reedsLocked lport) s) := by
  show Result.Inv (execReedsLocked lport s)
  unfold execReedsLocked
  simp -zeta -zetaHave only [ite_sel, decide_sel]
  grind -lia -linarith -ring [sel_or, Result.inv_next, State.reportLocked_inv]

theorem execProvisionalTimer_inv (lport : Nat) (s : State) (h0 : s.Inv) : Result.Inv (exec (.provisionalTimer lport) s) := by
  show Result.Inv (execProvisionalTimer lport s)
  unfold execProvisionalTimer
  simp -zeta -zetaHave only [ite_sel, decide_sel]
  grind -lia -linarith -ring [sel_or, Result.inv_next, State.elapseToTick_inv, State.reportLocked_inv]

theorem execReedsUnlocked_inv (lport : Nat) (s : State) (h0 : s.Inv) : Result.Inv (exec (.reedsUnlocked lport) s) := by
  show Result.Inv (execReedsUnlocked lport s)
  unfold execReedsUnlocked
  simp -zeta -zetaHave only [ite_sel]
  grind -lia -linarith -ring [sel_or, Result.inv_next, State.setLinkState_inv, State.flap_inv, State.reportUnlocked_inv]

theorem execPcsAligned_inv (lport : Nat) (s : State) (h0 : s.Inv) : Result.Inv (exec (.pcsAligned lport) s) := by
  show Result.Inv (execPcsAligned lport s)
  unfold execPcsAligned
  simp -zeta -zetaHave only [ite_sel]
  grind -lia -linarith -ring [sel_or, Result.inv_next, State.setLink_inv, State.setLinkState_inv, State.sendHello_inv]

theorem execAlignTimeout_inv (lport : Nat) (s : State) (h0 : s.Inv) : Result.Inv (exec (.alignTimeout lport) s) := by
  show Result.Inv (execAlignTimeout lport s)
  unfold execAlignTimeout
  simp -zeta -zetaHave only [ite_sel]
  grind -lia -linarith -ring [sel_or, Result.inv_next, State.elapseToTick_inv, State.trainingFails_inv]

theorem execHelloTimeout_inv (lport : Nat) (s : State) (h0 : s.Inv) : Result.Inv (exec (.helloTimeout lport) s) := by
  show Result.Inv (execHelloTimeout lport s)
  unfold execHelloTimeout
  simp -zeta -zetaHave only [ite_sel]
  grind -lia -linarith -ring [sel_or, Result.inv_next, State.elapseToTick_inv, State.trainingFails_inv]

theorem execPcsAlignLoss_inv (lport : Nat) (s : State) (h0 : s.Inv) : Result.Inv (exec (.pcsAlignLoss lport) s) := by
  show Result.Inv (execPcsAlignLoss lport s)
  unfold execPcsAlignLoss
  have h1 : (s.elapse (usTicks 10)).Inv := State.elapse_inv _ _ h0
  generalize s.elapse (usTicks 10) = t at h1
  have h2 (l : LinkSt) : (t.setLink lport l).Inv := State.setLink_inv _ _ _ h1
  split
  · exact Result.inv_next.2 h0
  · dsimp only
    split <;> rw [Result.inv_next]
    · exact State.trainingFails_inv _ _ (h2 _)
    · exact State.flap_inv _ _ _ (h2 _)
    · exact State.flap_inv _ _ _ (h2 _)
    · exact h2 _

theorem execHoldDownEnd_inv (lport : Nat) (s : State) (h0 : s.Inv) : Result.Inv (exec (.holdDownEnd lport) s) := by
  show Result.Inv (execHoldDownEnd lport s)
  unfold execHoldDownEnd
  simp -zeta -zetaHave only [ite_sel]
  grind -lia -linarith -ring [sel_or, Result.inv_next, State.elapseToTick_inv, State.setLinkState_inv]

theorem execTrainingWaitEnd_inv (lport : Nat) (s : State) (h0 : s.Inv) : Result.Inv (exec (.trainingWaitEnd lport) s) := by
  show Result.Inv (execTrainingWaitEnd lport s)
  unfold execTrainingWaitEnd
  simp -zeta -zetaHave only [ite_sel]
  grind -lia -linarith -ring [sel_or, Result.inv_next, State.setLink_inv, State.elapseToTick_inv, State.setLinkState_inv]

theorem execDampingDecay_inv (lport : Nat) (s : State) (h0 : s.Inv) : Result.Inv (exec (.dampingDecay lport) s) := by
  show Result.Inv (execDampingDecay lport s)
  unfold execDampingDecay
  simp -zeta -zetaHave only [ite_sel]
  grind -lia -linarith -ring [sel_or, Result.inv_next, State.setLink_inv, State.elapseToTick_inv]

theorem State.takeDown_inv (s : State) (lp : Nat) (h0 : s.Inv) : (State.takeDown s lp).Inv := by
  unfold State.takeDown
  grind -lia -linarith -ring [State.setLink_inv, State.setLinkState_inv, State.flap_inv]

theorem State.clearDamping_inv (s : State) (lp : Nat) (h0 : s.Inv) : (State.clearDamping s lp).Inv := by
  unfold State.clearDamping
  simp -zeta -zetaHave only [ite_sel]
  grind -lia -linarith -ring [sel_or, State.setLink_inv, State.setLinkState_inv]

theorem execLinkProvision_inv (h : CmdHdr) (gen action : Nat) (s : State) (h0 : s.Inv) : Result.Inv (exec (.linkProvision h gen action) s) := by
  show Result.Inv (execLinkProvision h gen action s)
  unfold execLinkProvision
  simp -zeta -zetaHave only [ite_sel]
  grind -lia -linarith -ring [sel_or, Result.inv_next, State.runCmd_inv, ok_inv, fail_inv, State.setLink_inv, State.takeDown_inv, State.clearDamping_inv]

theorem execSluiceEp_inv (h : CmdHdr) (feid action : Nat) (s : State) (h0 : s.Inv) : Result.Inv (exec (.sluiceEp h feid action) s) := by
  show Result.Inv (execSluiceEp h feid action s)
  unfold execSluiceEp
  simp -zeta -zetaHave only [ite_sel]
  grind -lia -linarith -ring [sel_or, State.Inv_iff, State.Inv, Result.inv_next, State.runCmd_inv, ok_inv, fail_inv, State.charge_inv, State.commit_inv]

theorem execLinkQuery_inv (h : CmdHdr) (clear : Nat) (s : State) (h0 : s.Inv) : Result.Inv (exec (.linkQuery h clear) s) := by
  show Result.Inv (execLinkQuery h clear s)
  unfold execLinkQuery
  simp -zeta -zetaHave only [ite_sel]
  grind -lia -linarith -ring [sel_or, Result.inv_next, State.runCmd_inv, fail_inv, State.setLink_inv]

theorem execLinkParams_inv (h : CmdHdr) (grace thresh retry timeout : Nat) (s : State) (h0 : s.Inv) :
    Result.Inv (exec (.linkParams h grace thresh retry timeout) s) := by
  show Result.Inv (execLinkParams h grace thresh retry timeout s)
  unfold execLinkParams
  simp -zeta -zetaHave only [ite_sel]
  grind -lia -linarith -ring [sel_or, State.Inv_iff, State.Inv, Result.inv_next, State.runCmd_inv, ok_inv, fail_inv]

/-! ### The operations of Machine/DelCore.lean -/

theorem State.setDel_inv (s : State) (f : DelSt → DelSt) (h0 : s.Inv) : (State.setDel s f).Inv := by
  unfold State.setDel
  grind -lia -linarith -ring [State.Inv_iff, State.Inv]

theorem State.setRunning_inv (s : State) (w : Win) (h0 : s.Inv) : (State.setRunning s w).Inv := by
  unfold State.setRunning
  grind -lia -linarith -ring [State.setDel_inv]

theorem State.winResults_inv (s : State) (w : Win) (h0 : s.Inv) : (State.winResults s w).Inv := by
  unfold State.winResults
  grind -lia -linarith -ring [foldl_inv, State.inc_inv, State.archive_inv]

theorem State.closeWin_inv (s : State) (k : Nat) (h0 : s.Inv) : (State.closeWin s k).Inv := by
  unfold State.closeWin
  grind -lia -linarith -ring [State.Inv_iff, State.Inv, State.setDel_inv, State.winResults_inv]

theorem State.winReports_inv (s : State) (n : Nat) (h0 : s.Inv) : (State.winReports s n).Inv := by
  unfold State.winReports
  simp -zeta -zetaHave only [ite_sel, decide_sel]
  grind -lia -linarith -ring [sel_or, foldl_inv, State.levelReport_inv]

theorem State.winStart_inv (s : State) (h0 : s.Inv) : (State.winStart s).Inv := by
  unfold State.winStart
  simp -zeta -zetaHave only [ite_sel, decide_sel]
  grind -lia -linarith -ring [sel_or, State.Inv_iff, State.Inv, foldl_inv, State.setPeat_inv, State.setDel_inv]

theorem State.endWindow_inv (s : State) (fec : List FecCount) (cut : Bool) (h0 : s.Inv) : (State.endWindow s fec cut).Inv := by
  unfold State.endWindow
  simp -zeta -zetaHave only [ite_sel]
  grind -lia -linarith -ring [sel_or, foldl_inv, State.archive_inv, State.setRunning_inv, State.winReports_inv]

theorem State.openWindow_inv (s : State) (h0 : s.Inv) : (State.openWindow s).Inv := by
  unfold State.openWindow
  simp -zeta -zetaHave only [ite_sel, decide_sel]
  grind -lia -linarith -ring [sel_or, State.setFlag_inv, State.irq_inv, State.setDel_inv, State.closeWin_inv, State.winStart_inv]

theorem State.alignWindows_inv (s : State) (h0 : s.Inv) : (State.alignWindows s).Inv := by
  unfold State.alignWindows
  simp -zeta -zetaHave only [ite_sel]
  grind -lia -linarith -ring [sel_or, State.closeWin_inv, State.endWindow_inv, State.openWindow_inv]

/-! ### The operations of Machine/Time.lean -/

theorem State.sendTime_inv (s : State) (lp : Nat) (payload : List Byte) (stampId : Option Nat) (h0 : s.Inv) :
    (State.sendTime s lp payload stampId).Inv := by
  unfold State.sendTime
  simp -zeta -zetaHave only [ite_sel]
  grind -lia -linarith -ring [sel_or, State.originateMarked_inv]

theorem State.notices_inv (s : State) (st t : Nat) (h0 : s.Inv) : (State.notices s st t).Inv := by
  unfold State.notices
  grind -lia -linarith -ring [State.Inv_iff, State.Inv, foldl_inv, State.sendTime_inv]

theorem State.traceTime_inv (s : State) (h0 : s.Inv) : (State.traceTime s).Inv := by
  unfold State.traceTime
  grind -lia -linarith -ring [State.trace_inv]

theorem State.setTimeState_inv (s : State) (st : Nat) (h0 : s.Inv) : (State.setTimeState s st).Inv := by
  unfold State.setTimeState
  simp -zeta -zetaHave only [ite_sel]
  grind -lia -linarith -ring [sel_or, State.Inv_iff, State.Inv, State.setFld_inv, State.irq_inv, State.alignWindows_inv, State.traceTime_inv]

theorem State.enterLost_inv (s : State) (h0 : s.Inv) : (State.enterLost s).Inv := by
  have htime (q : TimeSt) (t : State) (h : t.Inv) : State.Inv { t with time := q } := State.Inv_of_eq h rfl rfl rfl rfl
  unfold State.enterLost
  split
  · exact h0
  · exact State.notices_inv _ _ _ (State.tideLost_inv _ (State.elapse_inv _ _ (htime _ _ (State.logErr_inv _ _ _ _ _ (State.setTimeState_inv _ _ h0)))))

theorem State.enterLocked_inv (s : State) (h0 : s.Inv) : (State.enterLocked s).Inv := by
  unfold State.enterLocked
  simp -zeta -zetaHave only [ite_sel]
  grind -lia -linarith -ring [sel_or, State.Inv_iff, State.Inv, State.wrWide_inv, State.tideLocked_inv, State.notices_inv, State.setTimeState_inv]

theorem State.enterAcquire_inv (s : State) (h0 : s.Inv) : (State.enterAcquire s).Inv := by
  unfold State.enterAcquire
  grind -lia -linarith -ring [State.setTimeState_inv]

theorem State.applyStep_inv (s : State) (d : Int) (h0 : s.Inv) : (State.applyStep s d).Inv := by
  unfold State.applyStep
  grind -lia -linarith -ring [State.Inv_iff, State.Inv, State.setFld_inv, State.irq_inv, State.traceTime_inv]

theorem State.commitIncr_inv (s : State) (v : Nat) (h0 : s.Inv) : (State.commitIncr s v).Inv := by
  unfold State.commitIncr
  simp -zeta -zetaHave only [ite_sel]
  grind -lia -linarith -ring [sel_or, State.wrWide_inv, State.setFld_inv, State.irq_inv, State.logErr_inv]

theorem State.commitAdj_inv (s : State) (v : Nat) (h0 : s.Inv) : (State.commitAdj s v).Inv := by
  unfold State.commitAdj
  simp -zeta -zetaHave only [ite_sel]
  grind -lia -linarith -ring [sel_or, State.Inv_iff, State.Inv, State.wrWide_inv, State.setFld_inv, State.irq_inv, State.logErr_inv,
    State.elapse_inv, State.enterAcquire_inv, State.applyStep_inv]

theorem State.dropHeld_inv (s : State) (as : List Nat) (h0 : s.Inv) : (State.dropHeld s as).Inv := by
  unfold State.dropHeld
  grind -lia -linarith -ring [State.Inv_iff, State.Inv]

theorem State.stepKeyWrite_inv (s : State) (v : Nat) (h0 : s.Inv) : (s.stepKeyWrite v).Inv := by
  unfold State.stepKeyWrite
  refine State.ite_inv (State.time_inv _ h0) (State.ite_inv ?_ (State.time_inv _ h0))
  dsimp only
  cases s.time.pending with
  | none => exact State.time_inv _ h0
  | some d =>
    have h1 (q : TimeSt) : (State.elapse 1 { s with time := q }).applyStep d |>.Inv := State.applyStep_inv _ d (State.elapse_inv _ _ (State.time_inv q h0))
    exact State.ite_inv (State.enterLost_inv _ (h1 _)) (State.ite_inv (State.enterAcquire_inv _ (h1 _)) (h1 _))

theorem State.commitSet_inv (s : State) (sec ns : Nat) (h0 : s.Inv) : (State.commitSet s sec ns).Inv := by
  unfold State.commitSet
  simp -zeta -zetaHave only [ite_sel]
  grind -lia -linarith -ring [sel_or, State.Inv_iff, State.Inv, State.wrWide_inv, State.setFld_inv, State.irq_inv, State.elapse_inv,
    State.enterAcquire_inv, State.applyStep_inv]

theorem State.declareLost_inv (s : State) (h0 : s.Inv) : (State.declareLost s).Inv := by
  unfold State.declareLost
  simp -zeta -zetaHave only [ite_sel]
  grind -lia -linarith -ring [sel_or, State.enterLost_inv]

theorem State.declareLock_inv (s : State) (h0 : s.Inv) : (State.declareLock s).Inv := by
  unfold State.declareLock
  simp -zeta -zetaHave only [ite_sel]
  grind -lia -linarith -ring [sel_or, State.enterLocked_inv]

theorem State.heartbeat_inv (s : State) (h0 : s.Inv) : s.heartbeat.Inv := by
  have htime (q : TimeSt) (t : State) (h : t.Inv) : State.Inv { t with time := q } := State.Inv_of_eq h rfl rfl rfl rfl
  unfold State.heartbeat
  split
  · exact htime _ _ h0
  · exact State.enterLocked_inv _ h0
  · exact State.enterAcquire_inv _ h0
  · exact h0

theorem execTimeIncrWrite_inv (value : Nat) (s : State) (h0 : s.Inv) : Result.Inv (exec (.timeIncrWrite value) s) := by
  show Result.Inv (execTimeIncrWrite value s)
  unfold execTimeIncrWrite
  grind -lia -linarith -ring [Result.inv_next, State.onPage_inv, State.commitIncr_inv, State.dropHeld_inv]

theorem execTimeAdjWrite_inv (value : Nat) (s : State) (h0 : s.Inv) : Result.Inv (exec (.timeAdjWrite value) s) := by
  show Result.Inv (execTimeAdjWrite value s)
  unfold execTimeAdjWrite
  grind -lia -linarith -ring [Result.inv_next, State.onPage_inv, State.commitAdj_inv, State.dropHeld_inv]

theorem execSlewDone_inv (s : State) (h0 : s.Inv) : Result.Inv (exec .slewDone s) := by
  show Result.Inv (execSlewDone s)
  unfold execSlewDone
  grind -lia -linarith -ring [Result.inv_next, State.elapse_inv]

theorem execTimeStepKey_inv (value : Nat) (s : State) (h0 : s.Inv) : Result.Inv (exec (.timeStepKey value) s) := by
  show Result.Inv (execTimeStepKey value s)
  unfold execTimeStepKey
  grind -lia -linarith -ring [Result.inv_next, State.onPage_inv, State.stepKeyWrite_inv]

theorem execTimeSet_inv (sec ns : Nat) (s : State) (h0 : s.Inv) : Result.Inv (exec (.timeSet sec ns) s) := by
  show Result.Inv (execTimeSet sec ns s)
  unfold execTimeSet
  grind -lia -linarith -ring [Result.inv_next, State.onPage_inv, State.dropHeld_inv, State.commitSet_inv]

theorem execDeclareLock_inv (s : State) (h0 : s.Inv) : Result.Inv (exec .declareLock s) := by
  show Result.Inv (execDeclareLock s)
  unfold execDeclareLock
  grind -lia -linarith -ring [Result.inv_next, State.onPage_inv, State.declareLock_inv]

theorem execDeclareLost_inv (s : State) (h0 : s.Inv) : Result.Inv (exec .declareLost s) := by
  show Result.Inv (execDeclareLost s)
  unfold execDeclareLost
  grind -lia -linarith -ring [Result.inv_next, State.onPage_inv, State.declareLost_inv]

theorem execTimeHeartbeat_inv (s : State) (h0 : s.Inv) : Result.Inv (exec .timeHeartbeat s) := by
  show Result.Inv (execTimeHeartbeat s)
  unfold execTimeHeartbeat
  grind -lia -linarith -ring [Result.inv_next, State.onPage_inv, State.heartbeat_inv]

theorem execHoldWindowExpiry_inv (s : State) (h0 : s.Inv) : Result.Inv (exec .holdWindowExpiry s) := by
  show Result.Inv (execHoldWindowExpiry s)
  unfold execHoldWindowExpiry
  simp -zeta -zetaHave only [ite_sel]
  grind -lia -linarith -ring [sel_or, State.Inv_iff, State.Inv, Result.inv_next, State.elapseToTick_inv, State.setTimeState_inv, State.enterLost_inv]

theorem execHoldoverExpiry_inv (s : State) (h0 : s.Inv) : Result.Inv (exec .holdoverExpiry s) := by
  show Result.Inv (execHoldoverExpiry s)
  unfold execHoldoverExpiry
  simp -zeta -zetaHave only [ite_sel]
  grind -lia -linarith -ring [sel_or, Result.inv_next, State.elapseToTick_inv, State.enterLost_inv]

theorem execParkMaxExpiry_inv (s : State) (h0 : s.Inv) : Result.Inv (exec .parkMaxExpiry s) := by
  show Result.Inv (execParkMaxExpiry s)
  unfold execParkMaxExpiry
  grind -lia -linarith -ring [State.Inv_iff, State.Inv, foldl_inv, Result.inv_next, State.park_inv, State.elapseToTick_inv]

theorem State.latchNow_inv (s : State) (h0 : s.Inv) : (State.latchNow s).Inv := by
  unfold State.latchNow
  grind -lia -linarith -ring [State.Inv_iff, State.Inv]

theorem State.popStamp_inv (s : State) (h0 : s.Inv) : (State.popStamp s).2.Inv := by
  unfold State.popStamp
  grind -lia -linarith -ring [State.Inv_iff, State.Inv]

theorem State.pushStamp_inv (s : State) (id port stamp : Nat) (h0 : s.Inv) : (State.pushStamp s id port stamp).Inv := by
  unfold State.pushStamp
  simp -zeta -zetaHave only [ite_sel]
  grind -lia -linarith -ring [sel_or, State.Inv_iff, State.Inv, State.setFld_inv, State.addFld_inv, State.irq_inv]

theorem State.latchCapt_inv (s : State) (k : Nat) (h0 : s.Inv) : (State.latchCapt s k).Inv := by
  unfold State.latchCapt
  grind -lia -linarith -ring [State.Inv_iff, State.Inv, State.setFld_inv]

theorem execTimeNowRead_inv (wide : Bool) (s : State) (h0 : s.Inv) : Result.Inv (exec (.timeNowRead wide) s) := by
  show Result.Inv (execTimeNowRead wide s)
  unfold execTimeNowRead
  simp -zeta -zetaHave only [ite_sel]
  grind -lia -linarith -ring [sel_or, Result.inv_next, State.emit_inv, State.latchNow_inv]

theorem execTimeTxqEntryRead_inv (s : State) (h0 : s.Inv) : Result.Inv (exec .timeTxqEntryRead s) := by
  show Result.Inv (execTimeTxqEntryRead s)
  unfold execTimeTxqEntryRead
  simp -zeta -zetaHave only [ite_sel]
  grind -lia -linarith -ring [sel_or, Result.inv_next, State.emit_inv, State.popStamp_inv]

theorem execTpiCaptRead_inv (k : Nat) (s : State) (h0 : s.Inv) : Result.Inv (exec (.tpiCaptRead k) s) := by
  show Result.Inv (execTpiCaptRead k s)
  unfold execTpiCaptRead
  simp -zeta -zetaHave only [ite_sel]
  grind -lia -linarith -ring [sel_or, Result.inv_next, State.emit_inv, State.latchCapt_inv]

theorem State.hairpin_inv (s : State) (p : Nat) (set : Bool) (h0 : s.Inv) : (State.hairpin s p set).Inv := by
  unfold State.hairpin
  simp -zeta -zetaHave only [ite_sel]
  grind -lia -linarith -ring [sel_or, State.setEng_inv]

theorem State.setCal_inv (s : State) (l : List CalSt) (h0 : s.Inv) : (State.setCal s l).Inv := by
  unfold State.setCal
  grind -lia -linarith -ring [State.Inv_iff, State.Inv]

theorem execAsymCal_inv (h : CmdHdr) (u d : Nat) (s : State) (h0 : s.Inv) : Result.Inv (exec (.asymCal h u d) s) := by
  show Result.Inv (execAsymCal h u d s)
  unfold execAsymCal
  simp -zeta -zetaHave only [ite_sel]
  grind -lia -linarith -ring [sel_or, Result.inv_next, State.draw_inv, State.runCmd_inv, fail_inv, State.sendTime_inv, State.hairpin_inv, State.setCal_inv]

theorem execCalWindowEnd_inv (port : Nat) (s : State) (h0 : s.Inv) : Result.Inv (exec (.calWindowEnd port) s) := by
  show Result.Inv (execCalWindowEnd port s)
  unfold execCalWindowEnd
  simp -zeta -zetaHave only [ite_sel]
  grind -lia -linarith -ring [sel_or, Result.inv_next, State.elapseToDev_inv, State.hairpin_inv, State.setCal_inv]

theorem State.calReport_inv (s : State) (p : Nat) (payload : List Byte) (h0 : s.Inv) : (State.calReport s p payload).Inv := by
  unfold State.calReport
  simp -zeta -zetaHave only [ite_sel]
  grind -lia -linarith -ring [sel_or, State.wr_inv, State.complete_inv, State.setCal_inv]

theorem execCalReportTimeout_inv (port : Nat) (s : State) (h0 : s.Inv) : Result.Inv (exec (.calReportTimeout port) s) := by
  show Result.Inv (execCalReportTimeout port s)
  unfold execCalReportTimeout
  simp -zeta -zetaHave only [ite_sel]
  grind -lia -linarith -ring [sel_or, Result.inv_next, State.complete_inv, State.elapseToDev_inv, State.setCal_inv]

theorem State.calStart_inv (s : State) (p : Nat) (payload : List Byte) (h0 : s.Inv) : (State.calStart s p payload).Inv := by
  unfold State.calStart
  simp -zeta -zetaHave only [ite_sel]
  grind -lia -linarith -ring [sel_or, State.Inv_iff, State.Inv]

theorem execCalBurst_inv (port moment : Nat) (s : State) (h0 : s.Inv) : Result.Inv (exec (.calBurst port moment) s) := by
  show Result.Inv (execCalBurst port moment s)
  unfold execCalBurst
  grind -lia -linarith -ring [State.Inv_iff, State.Inv, Result.inv_next, State.emit_inv, State.elapseToDev_inv]

theorem execCalBurstReturn_inv (port stamp : Nat) (s : State) (h0 : s.Inv) : Result.Inv (exec (.calBurstReturn port stamp) s) := by
  show Result.Inv (execCalBurstReturn port stamp s)
  unfold execCalBurstReturn
  simp -zeta -zetaHave only [ite_sel]
  grind -lia -linarith -ring [sel_or, State.Inv_iff, State.Inv, Result.inv_next]

theorem execCalLoopEnd_inv (port : Nat) (s : State) (h0 : s.Inv) : Result.Inv (exec (.calLoopEnd port) s) := by
  show Result.Inv (execCalLoopEnd port s)
  unfold execCalLoopEnd
  grind -lia -linarith -ring [State.Inv_iff, State.Inv, Result.inv_next, State.setLink_inv, State.elapseToDev_inv, State.sendTime_inv]

theorem State.moveSource_inv (s : State) (n : Nat) (h0 : s.Inv) : (State.moveSource s n).Inv := by
  unfold State.moveSource
  grind -lia -linarith -ring [State.setFld_inv, State.irq_inv]

theorem State.switchSource_inv (s : State) (h0 : s.Inv) : (State.switchSource s).Inv := by
  unfold State.switchSource
  grind -lia -linarith -ring [State.moveSource_inv]

theorem State.syncSeen_inv (s : State) (port steps : Nat) (lost : Bool) (h0 : s.Inv) : (State.syncSeen s port steps lost).Inv := by
  unfold State.syncSeen
  simp -zeta -zetaHave only [ite_sel]
  grind -lia -linarith -ring [sel_or, State.Inv_iff, State.Inv, State.moveSource_inv, State.switchSource_inv]

theorem State.ptpSend_inv (s : State) (msg seq time turn : Nat) (mark : Option Nat) (h0 : s.Inv) : (State.ptpSend s msg seq time turn mark).Inv := by
  unfold State.ptpSend
  simp -zeta -zetaHave only [ite_sel]
  grind -lia -linarith -ring [sel_or, State.emit_inv, State.pushStamp_inv]

theorem State.ptpSeen_inv (s : State) (r : TimeRx) (h0 : s.Inv) : (State.ptpSeen s r).Inv := by
  unfold State.ptpSeen
  simp -zeta -zetaHave only [ite_sel]
  grind -lia -linarith -ring [sel_or, State.Inv_iff, State.Inv, State.syncSeen_inv, State.ptpSend_inv]

theorem State.timeReply_inv (s : State) (r : TimeRx) (h0 : s.Inv) : (State.timeReply s r).Inv := by
  unfold State.timeReply
  simp -zeta -zetaHave only [ite_sel]
  grind -lia -linarith -ring [sel_or, State.sendTime_inv]

theorem State.timeMessage_inv (s : State) (r : TimeRx) (act : State → State) (h0 : s.Inv) (h1 : ∀ x, x.Inv → (act x).Inv) :
    (State.timeMessage s r act).Inv := by
  unfold State.timeMessage
  simp -zeta -zetaHave only [ite_sel]
  grind -lia -linarith -ring [sel_or, State.addFld_inv, State.emit_inv, State.ptpSeen_inv]

theorem execTimeMessageRx_inv (rx : TimeRx) (s : State) (h0 : s.Inv) : Result.Inv (exec (.timeMessageRx rx) s) := by
  show Result.Inv (execTimeMessageRx rx s)
  unfold execTimeMessageRx
  simp -zeta -zetaHave only [ite_sel]
  grind -lia -linarith -ring [sel_or, Result.inv_next, State.calReport_inv, State.calStart_inv, State.syncSeen_inv, State.timeReply_inv,
    State.timeMessage_inv]

theorem execCalReportRx_inv (rx : TimeRx) (s : State) (h0 : s.Inv) : Result.Inv (exec (.calReportRx rx) s) := by
  show Result.Inv (execCalReportRx rx s)
  unfold execCalReportRx
  simp -zeta -zetaHave only [ite_sel]
  grind -lia -linarith -ring [sel_or, Result.inv_next, State.calReport_inv, State.timeMessage_inv]

theorem execCalStartRx_inv (rx : TimeRx) (s : State) (h0 : s.Inv) : Result.Inv (exec (.calStartRx rx) s) := by
  show Result.Inv (execCalStartRx rx s)
  unfold execCalStartRx
  simp -zeta -zetaHave only [ite_sel]
  grind -lia -linarith -ring [sel_or, Result.inv_next, State.calStart_inv, State.timeMessage_inv]

theorem State.nextSeq_inv (s : State) (port kind : Nat) (h0 : s.Inv) : (State.nextSeq s port kind).2.Inv := by
  unfold State.nextSeq
  grind -lia -linarith -ring [State.Inv_iff, State.Inv]

theorem State.paced_inv (s : State) (port kind log : Nat) (h0 : s.Inv) : (State.paced s port kind log).Inv := by
  unfold State.paced
  grind -lia -linarith -ring [State.Inv_iff, State.Inv, State.elapseToTick_inv]

theorem execSyncTx_inv (port : Nat) (stampId : Option Nat) (s : State) (h0 : s.Inv) : Result.Inv (exec (.syncTx port stampId) s) := by
  show Result.Inv (execSyncTx port stampId s)
  unfold execSyncTx
  simp -zeta -zetaHave only [ite_sel]
  grind -lia -linarith -ring [sel_or, Result.inv_next, State.sendTime_inv, State.ptpSend_inv, State.nextSeq_inv, State.paced_inv]

theorem execPdelayReqTx_inv (port : Nat) (stampId : Option Nat) (s : State) (h0 : s.Inv) : Result.Inv (exec (.pdelayReqTx port stampId) s) := by
  show Result.Inv (execPdelayReqTx port stampId s)
  unfold execPdelayReqTx
  simp -zeta -zetaHave only [ite_sel]
  grind -lia -linarith -ring [sel_or, Result.inv_next, State.sendTime_inv, State.ptpSend_inv, State.nextSeq_inv, State.paced_inv]

theorem execAnnounceTx_inv (s : State) (h0 : s.Inv) : Result.Inv (exec .announceTx s) := by
  show Result.Inv (execAnnounceTx s)
  unfold execAnnounceTx
  simp -zeta -zetaHave only [ite_sel]
  grind -lia -linarith -ring [sel_or, Result.inv_next, State.ptpSend_inv, State.nextSeq_inv]

theorem execSourceSwitch_inv (s : State) (h0 : s.Inv) : Result.Inv (exec .sourceSwitch s) := by
  show Result.Inv (execSourceSwitch s)
  unfold execSourceSwitch
  simp -zeta -zetaHave only [ite_sel]
  grind -lia -linarith -ring [sel_or, State.Inv_iff, State.Inv, Result.inv_next, State.elapseToTick_inv, State.switchSource_inv]

theorem State.setTpo_inv (s : State) (k : Nat) (t : TpoSt) (h0 : s.Inv) : (State.setTpo s k t).Inv := by
  unfold State.setTpo
  grind -lia -linarith -ring [State.Inv_iff, State.Inv]

theorem State.tpoCtrlWrite_inv (s : State) (k v : Nat) (h0 : s.Inv) : (State.tpoCtrlWrite s k v).Inv := by
  unfold State.tpoCtrlWrite
  simp -zeta -zetaHave only [ite_sel, decide_sel]
  grind -lia -linarith -ring [sel_or, State.setFld_inv, State.irq_inv, State.setTpo_inv]

theorem execTpoEnable_inv (k : Nat) (s : State) (h0 : s.Inv) : Result.Inv (exec (.tpoEnable k) s) := by
  show Result.Inv (execTpoEnable k s)
  unfold execTpoEnable
  grind -lia -linarith -ring [Result.inv_next, State.onPage_inv, State.tpoCtrlWrite_inv]

theorem execTpoEdge_inv (k : Nat) (s : State) (h0 : s.Inv) : Result.Inv (exec (.tpoEdge k) s) := by
  show Result.Inv (execTpoEdge k s)
  unfold execTpoEdge
  simp -zeta -zetaHave only [ite_sel, decide_sel]
  grind -lia -linarith -ring [sel_or, Result.inv_next, State.emit_inv, State.elapseToDev_inv, State.setTpo_inv]

theorem execTpoPulseEnd_inv (k : Nat) (s : State) (h0 : s.Inv) : Result.Inv (exec (.tpoPulseEnd k) s) := by
  show Result.Inv (execTpoPulseEnd k s)
  unfold execTpoPulseEnd
  grind -lia -linarith -ring [Result.inv_next, State.emit_inv, State.elapseToTick_inv, State.setTpo_inv]

theorem State.setTpi_inv (s : State) (k : Nat) (t : TpiSt) (h0 : s.Inv) : (State.setTpi s k t).Inv := by
  unfold State.setTpi
  grind -lia -linarith -ring [State.Inv_iff, State.Inv]

theorem State.alignSecond_inv (s : State) (t : Nat) (h0 : s.Inv) : (State.alignSecond s t).Inv := by
  unfold State.alignSecond
  grind -lia -linarith -ring [State.commitAdj_inv]

theorem execTpiEdge_inv (k : Nat) (level : Bool) (edge : Nat) (s : State) (h0 : s.Inv) : Result.Inv (exec (.tpiEdge k level edge) s) := by
  show Result.Inv (execTpiEdge k level edge s)
  unfold execTpiEdge
  simp -zeta -zetaHave only [ite_sel, decide_sel]
  grind -lia -linarith -ring [sel_or, Result.inv_next, State.wrWide_inv, State.setFld_inv, State.addFld_inv, State.irq_inv, State.elapseToDev_inv,
    State.setTpi_inv, State.alignSecond_inv]

theorem execTpiStuck_inv (k : Nat) (s : State) (h0 : s.Inv) : Result.Inv (exec (.tpiStuck k) s) := by
  show Result.Inv (execTpiStuck k s)
  unfold execTpiStuck
  simp -zeta -zetaHave only [ite_sel]
  grind -lia -linarith -ring [sel_or, Result.inv_next, State.setFld_inv, State.irq_inv, State.logErr_inv, State.elapseToTick_inv]

/-! ### The operations of Machine/Flights.lean -/

theorem State.discardRx_inv (s : State) (id lp reason : Nat) (p : Pkt) (h0 : s.Inv) : (State.discardRx s id lp reason p).Inv := by
  unfold State.discardRx
  grind -lia -linarith -ring [State.drizzleMark_inv, State.rxMod_inv, State.countReason_inv]

theorem State.discard_inv (s : State) (f : Flight) (reason : Nat) (h0 : s.Inv) : (State.discard s f reason).Inv := by
  unfold State.discard
  grind -lia -linarith -ring [State.tagRecord_inv, State.discardRx_inv]

theorem State.loseCopy_inv (s : State) (f : Flight) (h0 : s.Inv) : (State.loseCopy s f).Inv := by
  unfold State.loseCopy
  grind -lia -linarith -ring [State.drizzleMark_inv, State.tagRecord_inv]

theorem State.deliverFn_inv (s : State) (f : Flight) (die : Nat) (h0 : s.Inv) : (State.deliverFn s f die).Inv := by
  unfold State.deliverFn
  grind -lia -linarith -ring [State.Inv_iff, State.Inv, State.tagRecord_inv]

theorem State.setPolTokens_inv (s : State) (lp c tc tp : Nat) (h0 : s.Inv) : (State.setPolTokens s lp c tc tp).Inv := by
  unfold State.setPolTokens
  grind -lia -linarith -ring [State.Inv_iff, State.Inv]

theorem State.police_inv (s : State) (lp c pre b : Nat) (h0 : s.Inv) : (State.police s lp c pre b).2.Inv := by
  unfold State.police
  simp -zeta -zetaHave only [ite_sel]
  grind -lia -linarith -ring [sel_or, State.setPolTokens_inv]

theorem State.polWrite_inv (s : State) (lp c word v : Nat) (h0 : s.Inv) : (State.polWrite s lp c word v).Inv := by
  unfold State.polWrite
  simp -zeta -zetaHave only [ite_sel]
  grind -lia -linarith -ring [sel_or, State.wr_inv, State.setPolTokens_inv]

/-! ### The operations of Machine/Scheduler.lean -/

theorem State.setShp_inv (s : State) (lp c : Nat) (t : Int) (h0 : s.Inv) : (State.setShp s lp c t).Inv := by
  unfold State.setShp
  grind -lia -linarith -ring [State.Inv_iff, State.Inv]

theorem State.shpTake_inv (s : State) (lp c b : Nat) (h0 : s.Inv) : (State.shpTake s lp c b).Inv := by
  unfold State.shpTake
  grind -lia -linarith -ring [State.setShp_inv]

theorem State.guardHolds_inv (s : State) (lp : Nat) (h0 : s.Inv) : (State.guardHolds s lp).Inv := by
  unfold State.guardHolds
  simp -zeta -zetaHave only [ite_sel]
  grind -lia -linarith -ring [sel_or, State.Inv_iff, State.Inv, foldl_inv, State.inc_inv]

theorem State.replayStalls_inv (s : State) (lp : Nat) (h0 : s.Inv) : (State.replayStalls s lp).Inv := by
  unfold State.replayStalls
  simp -zeta -zetaHave only [ite_sel, decide_sel]
  grind -lia -linarith -ring [sel_or, State.setLink_inv]

theorem State.setRr_inv (s : State) (lp c : Nat) (h0 : s.Inv) : (State.setRr s lp c).Inv := by
  unfold State.setRr
  grind -lia -linarith -ring [State.Inv_iff, State.Inv]

theorem State.setDeficit_inv (s : State) (lp c d : Nat) (fresh : Bool) (h0 : s.Inv) : (State.setDeficit s lp c d fresh).Inv := by
  unfold State.setDeficit
  grind -lia -linarith -ring [State.Inv_iff, State.Inv]

theorem State.rrPick_inv (s : State) (lp : Nat) (elig : List Nat) (fuel c : Nat) (h0 : s.Inv) : (State.rrPick s lp elig fuel c).2.Inv := by
  induction fuel generalizing s c with
  | zero => exact h0
  | succ fuel ih =>
    have kept (d : Nat) (b : Bool) (c' : Nat) : ((s.setDeficit lp c d b).setRr lp c').Inv := State.setRr_inv _ _ _ (State.setDeficit_inv _ _ _ _ _ h0)
    unfold State.rrPick
    split
    · exact ih _ _ h0
    · dsimp only
      cases s.headOf lp c with
      | none => exact h0
      | some f =>
        dsimp only
        split_ifs
        all_goals first | exact kept _ _ _ | exact ih _ _ (kept _ _ _)

theorem State.pickClass_inv (s : State) (lp : Nat) (h0 : s.Inv) : (State.pickClass s lp).2.Inv := by
  unfold State.pickClass
  simp -zeta -zetaHave only [ite_sel]
  grind -lia -linarith -ring [sel_or, State.rrPick_inv]

theorem State.followUp_inv (s : State) (lp : Nat) (f : Flight) (h0 : s.Inv) : (State.followUp s lp f).Inv := by
  unfold State.followUp
  simp -zeta -zetaHave only [ite_sel]
  grind -lia -linarith -ring [sel_or, State.sendTime_inv]

theorem State.sendHead_inv (s : State) (lp : Nat) (f : Flight) (h0 : s.Inv) : (State.sendHead s lp f).Inv := by
  unfold State.sendHead
  simp -zeta -zetaHave only [ite_sel]
  grind -lia -linarith -ring [sel_or, State.inc_inv, State.emit_inv, State.setLink_inv, State.occSub_inv, State.pmcEvent_inv, State.drizzleSee_inv,
    State.drizzleEnd_inv, State.tagRecord_inv, State.setFlights_inv, State.pushStamp_inv, State.shpTake_inv, State.followUp_inv]

/-! ### The operations of Machine/Switch.lean -/

theorem State.openRx_inv (s : State) (lp : Nat) (p : Pkt) (shared : Bool) (h0 : s.Inv) : (State.openRx s lp p shared).Inv := by
  unfold State.openRx
  simp -zeta -zetaHave only [ite_sel]
  grind -lia -linarith -ring [sel_or, State.Inv_iff, State.Inv, State.inc_inv, State.setLink_inv, State.pmcEvent_inv, State.drizzleSee_inv]

theorem execPacketRx_inv (lport : Nat) (header : List Byte) (pkt : Pkt) (shared : Bool) (s : State) (h0 : s.Inv) :
    Result.Inv (exec (.packetRx lport header pkt shared) s) := by
  show Result.Inv (execPacketRx lport header pkt shared s)
  unfold execPacketRx
  simp -zeta -zetaHave only [ite_sel, decide_sel]
  grind -lia -linarith -ring [sel_or, Result.inv_next, State.inc_inv, State.tagSee_inv, State.setFlights_inv, State.discardRx_inv,
    State.discard_inv, State.police_inv, State.openRx_inv]

theorem State.tailGood_inv (s : State) (id frameLen : Nat) (h0 : s.Inv) : (State.tailGood s id frameLen).Inv := by
  unfold State.tailGood
  simp -zeta -zetaHave only [ite_sel]
  grind -lia -linarith -ring [sel_or, State.drizzleEnd_inv, State.setLegs_inv, State.rxMod_inv]

theorem execPacketTail_inv (id frameLen : Nat) (fecBad stomped late : Bool) (s : State) (h0 : s.Inv) :
    Result.Inv (exec (.packetTail id frameLen fecBad stomped late) s) := by
  show Result.Inv (execPacketTail id frameLen fecBad stomped late s)
  unfold execPacketTail
  simp -zeta -zetaHave only [ite_sel]
  grind -lia -linarith -ring [sel_or, Result.inv_next, State.inc_inv, State.drizzleEnd_inv, State.rxMod_inv, State.spoilAll_inv,
    State.countReason_inv, State.tailGood_inv]

theorem State.nextStaged_inv (s : State) (n : Nat) (h0 : s.Inv) : ∀ f t, State.nextStaged s n = some (f, t) → t.Inv := by
  unfold State.nextStaged
  grind -lia -linarith -ring [State.Inv_iff, State.Inv]

theorem State.moveDetect_inv (s : State) (n lp : Nat) (p : Pkt) (h0 : s.Inv) : (State.moveDetect s n lp p).Inv := by
  unfold State.moveDetect
  simp -zeta -zetaHave only [ite_sel]
  grind -lia -linarith -ring [sel_or, State.Inv_iff, State.Inv, State.inc_inv, State.emit_inv, State.irq_inv]

theorem State.forward_inv (s : State) (f : Flight) (ds : List Dest) (h0 : s.Inv) : (State.forward s f ds).Inv := by
  unfold State.forward
  simp -zeta -zetaHave only [ite_sel, decide_sel]
  grind -lia -linarith -ring [sel_or, State.setFlights_inv, State.setLegs_inv]

theorem execPipelineLookup_inv (n : Nat) (ue : Option Nat) (s : State) (h0 : s.Inv) : Result.Inv (exec (.pipelineLookup n ue) s) := by
  show Result.Inv (execPipelineLookup n ue s)
  unfold execPipelineLookup
  simp -zeta -zetaHave only [ite_sel]
  grind -lia -linarith -ring [sel_or, State.Inv_iff, State.Inv, foldl_inv, Result.inv_next, State.inc_inv, State.irq_inv, State.logErr_inv,
    State.lookupDecide_inv, State.resolve_inv, State.setFlights_inv, State.discard_inv, State.nextStaged_inv, State.moveDetect_inv, State.forward_inv]

theorem State.legTidy_inv (s : State) (id p : Nat) (h0 : s.Inv) : (State.legTidy s id p).Inv := by
  unfold State.legTidy
  simp -zeta -zetaHave only [ite_sel]
  grind -lia -linarith -ring [sel_or, State.setLegs_inv]

theorem State.legDone_inv (s : State) (id p : Nat) (h0 : s.Inv) : (State.legDone s id p).Inv := by
  unfold State.legDone
  simp -zeta -zetaHave only [ite_sel]
  grind -lia -linarith -ring [sel_or, foldl_inv, State.setFlights_inv, State.endCut_inv, State.legTidy_inv]

theorem State.flitArrives_inv (s : State) (l : Leg) (h0 : s.Inv) : (State.flitArrives s l).Inv := by
  unfold State.flitArrives
  simp -zeta -zetaHave only [ite_sel]
  grind -lia -linarith -ring [sel_or, State.setFlights_inv, State.setLegs_inv, State.legDone_inv]

theorem State.moveFlit_inv (s : State) (r stop : Nat) (l : Leg) (enters : Bool) (h0 : s.Inv) : (State.moveFlit s r stop l enters).Inv := by
  unfold State.moveFlit
  simp -zeta -zetaHave only [ite_sel]
  grind -lia -linarith -ring [sel_or, State.setFlights_inv, State.setLegs_inv, State.setRingSt_inv, State.leftStaging_inv, State.flitArrives_inv]

theorem execRingFlitEntry_inv (quad pair : Nat) (ccw : Bool) (stop : Nat) (err : FlitErr) (s : State) (h0 : s.Inv) :
    Result.Inv (exec (.ringFlitEntry quad pair ccw stop err) s) := by
  show Result.Inv (execRingFlitEntry quad pair ccw stop err s)
  unfold execRingFlitEntry
  simp -zeta -zetaHave only [ite_sel]
  grind -lia -linarith -ring [sel_or, Result.inv_next, State.inc_inv, State.irq_inv, State.logErr_inv, State.setRingSt_inv, State.leftStaging_inv,
    State.spoilAll_inv, State.spoilPort_inv, State.moveFlit_inv]

theorem State.passFlit_inv (s : State) (f : Flight) (o : Nat) (h0 : s.Inv) : (State.passFlit s f o).Inv := by
  unfold State.passFlit
  simp -zeta -zetaHave only [ite_sel, decide_sel]
  grind -lia -linarith -ring [sel_or, State.setFlights_inv, State.setLegs_inv, State.deliverFn_inv]

theorem execSwitchGrant_inv (output : Nat) (s : State) (h0 : s.Inv) : Result.Inv (exec (.switchGrant output) s) := by
  show Result.Inv (execSwitchGrant output s)
  unfold execSwitchGrant
  grind -lia -linarith -ring [State.Inv_iff, State.Inv, Result.inv_next, State.passFlit_inv]

theorem execBridgeFlitRetry_inv (id output : Nat) (s : State) (h0 : s.Inv) : Result.Inv (exec (.bridgeFlitRetry id output) s) := by
  show Result.Inv (execBridgeFlitRetry id output s)
  unfold execBridgeFlitRetry
  simp -zeta -zetaHave only [ite_sel]
  grind -lia -linarith -ring [sel_or, Result.inv_next, State.inc_inv, State.irq_inv, State.logErr_inv, State.setFlights_inv, State.spoilOutput_inv]

theorem State.earlyDrop_inv (s : State) (lp : Nat) (p : Pkt) (occ limit : Nat) (h0 : s.Inv) : (State.earlyDrop s lp p occ limit).2.Inv := by
  unfold State.earlyDrop
  simp -zeta -zetaHave only [ite_sel]
  grind -lia -linarith -ring [sel_or, State.Inv_iff, State.Inv]

theorem State.dropDest_inv (s : State) (f : Flight) (lp : Nat) (h0 : s.Inv) : (State.dropDest s f lp).Inv := by
  unfold State.dropDest
  simp -zeta -zetaHave only [ite_sel]
  grind -lia -linarith -ring [sel_or, State.setFlights_inv, State.legTidy_inv]

theorem State.fenSkip_inv (s : State) (p : Pkt) (group feid : Nat) (h0 : s.Inv) : (State.fenSkip s p group feid).Inv := by
  unfold State.fenSkip
  simp -zeta -zetaHave only [ite_sel]
  grind -lia -linarith -ring [sel_or, foldl_inv, State.emit_inv, State.setRound_inv, State.fenAbort_inv, State.excuse_inv]

theorem execOutputEnqueue_inv (id lport : Nat) (s : State) (h0 : s.Inv) : Result.Inv (exec (.outputEnqueue id lport) s) := by
  show Result.Inv (execOutputEnqueue id lport s)
  unfold execOutputEnqueue
  simp -zeta -zetaHave only [ite_sel]
  grind -lia -linarith -ring [sel_or, Result.inv_next, State.inc_inv, State.occAdd_inv, State.setFlights_inv, State.loseCopy_inv,
    State.earlyDrop_inv, State.dropDest_inv, State.fenSkip_inv]

theorem State.cellError_inv (s : State) (t : Nat) (h0 : s.Inv) : (State.cellError s t).Inv := by
  unfold State.cellError
  grind -lia -linarith -ring [State.irq_inv, State.logErr_inv]

theorem execTransmitStart_inv (lport : Nat) (cellUe : Bool) (s : State) (h0 : s.Inv) : Result.Inv (exec (.transmitStart lport cellUe) s) := by
  show Result.Inv (execTransmitStart lport cellUe s)
  unfold execTransmitStart
  simp -zeta -zetaHave only [ite_sel]
  grind -lia -linarith -ring [sel_or, Result.inv_next, State.occSub_inv, State.setFlights_inv, State.endCut_inv, State.resendDue_inv,
    State.loseCopy_inv, State.guardHolds_inv, State.replayStalls_inv, State.pickClass_inv, State.sendHead_inv, State.cellError_inv]

theorem execOccPublish_inv (s : State) (h0 : s.Inv) : Result.Inv (exec .occPublish s) := by
  show Result.Inv (execOccPublish s)
  unfold execOccPublish
  simp -zeta -zetaHave only [decide_sel]
  grind -lia -linarith -ring [sel_or, State.Inv_iff, State.Inv, foldl_inv, Result.inv_next, State.elapse_inv]

theorem execDrizzleRecord_inv (quad : Nat) (s : State) (h0 : s.Inv) : Result.Inv (exec (.drizzleRecord quad) s) := by
  have hsw (q : SwSt) (t : State) (h : t.Inv) : State.Inv { t with sw := q } := State.Inv_of_eq h rfl rfl rfl rfl
  show Result.Inv (execDrizzleRecord quad s)
  unfold execDrizzleRecord
  split
  · exact Result.inv_next.2 h0
  · dsimp only
    split <;> rw [Result.inv_next]
    · exact State.emit_inv _ _ (State.inc_inv _ _ (hsw _ _ (hsw _ _ h0)))
    · exact State.irq_inv _ _ _ (State.inc_inv _ _ (hsw _ _ (hsw _ _ h0)))

theorem State.rwl_inv (s : State) (p : Nat) (changed : Bool) (f : State → State) (h0 : s.Inv) (h1 : ∀ x, x.Inv → (f x).Inv) :
    (State.rwl s p changed f).Inv := by
  unfold State.rwl
  simp -zeta -zetaHave only [ite_sel]
  grind -lia -linarith -ring [sel_or, State.logErr_inv]

theorem State.limitWrite_inv (s : State) (t j c v : Nat) (h0 : s.Inv) : (State.limitWrite s t j c v).Inv := by
  unfold State.limitWrite
  simp -zeta -zetaHave only [ite_sel]
  grind -lia -linarith -ring [sel_or, foldl_inv, State.setFld_inv, State.irq_inv, State.logErr_inv, State.satJudge_inv, State.rwl_inv]

theorem State.ptCtrlWrite_inv (s : State) (t v : Nat) (h0 : s.Inv) : (State.ptCtrlWrite s t v).Inv := by
  unfold State.ptCtrlWrite
  simp -zeta -zetaHave only [ite_sel]
  grind -lia -linarith -ring [sel_or, State.Inv_iff, State.Inv, State.setFld_inv, State.clearCnts_inv]

theorem State.qmCtrlWrite_inv (s : State) (t v : Nat) (h0 : s.Inv) : (State.qmCtrlWrite s t v).Inv := by
  unfold State.qmCtrlWrite
  simp -zeta -zetaHave only [ite_sel]
  grind -lia -linarith -ring [sel_or, State.Inv_iff, State.Inv, State.setFld_inv, State.clearCnts_inv]

theorem execQmLimitWrite_inv (tile port cls value : Nat) (s : State) (h0 : s.Inv) : Result.Inv (exec (.qmLimitWrite tile port cls value) s) := by
  show Result.Inv (execQmLimitWrite tile port cls value s)
  unfold execQmLimitWrite
  grind -lia -linarith -ring [Result.inv_next, State.onPage_inv, State.limitWrite_inv]

theorem execPolicerWrite_inv (tile port cls word value : Nat) (s : State) (h0 : s.Inv) :
    Result.Inv (exec (.policerWrite tile port cls word value) s) := by
  show Result.Inv (execPolicerWrite tile port cls word value s)
  unfold execPolicerWrite
  grind -lia -linarith -ring [Result.inv_next, State.onPage_inv, State.polWrite_inv]

theorem execDrzSeedLoad_inv (tile value : Nat) (s : State) (h0 : s.Inv) : Result.Inv (exec (.drzSeedLoad tile value) s) := by
  show Result.Inv (execDrzSeedLoad tile value s)
  unfold execDrzSeedLoad
  grind -lia -linarith -ring [Result.inv_next, State.onPage_inv, State.ptCtrlWrite_inv]

theorem execPtCntClear_inv (tile seed : Nat) (s : State) (h0 : s.Inv) : Result.Inv (exec (.ptCntClear tile seed) s) := by
  show Result.Inv (execPtCntClear tile seed s)
  unfold execPtCntClear
  grind -lia -linarith -ring [Result.inv_next, State.onPage_inv, State.ptCtrlWrite_inv]

theorem execLfsrSeedLoad_inv (tile value : Nat) (s : State) (h0 : s.Inv) : Result.Inv (exec (.lfsrSeedLoad tile value) s) := by
  show Result.Inv (execLfsrSeedLoad tile value s)
  unfold execLfsrSeedLoad
  grind -lia -linarith -ring [Result.inv_next, State.onPage_inv, State.qmCtrlWrite_inv]

theorem execQmCntClear_inv (tile seed : Nat) (s : State) (h0 : s.Inv) : Result.Inv (exec (.qmCntClear tile seed) s) := by
  show Result.Inv (execQmCntClear tile seed s)
  unfold execQmCntClear
  grind -lia -linarith -ring [Result.inv_next, State.onPage_inv, State.qmCtrlWrite_inv]

theorem execRingCntClear_inv (quad : Nat) (s : State) (h0 : s.Inv) : Result.Inv (exec (.ringCntClear quad) s) := by
  show Result.Inv (execRingCntClear quad s)
  unfold execRingCntClear
  grind -lia -linarith -ring [Result.inv_next, State.clearCnts_inv, State.onPage_inv]

/-! ### The operations of Machine/Fen.lean -/

theorem State.staleIn_inv (s : State) (lp : Nat) (p : Pkt) (h0 : s.Inv) : (State.staleIn s lp p).Inv := by
  unfold State.staleIn
  grind -lia -linarith -ring [State.countReason_inv]

theorem State.answerFen_inv (s : State) (die lp : Nat) (opn p : Pkt) (h0 : s.Inv) : (State.answerFen s die lp opn p).Inv := by
  unfold State.answerFen
  simp -zeta -zetaHave only [ite_sel]
  grind -lia -linarith -ring [sel_or, State.fnSend_inv, State.fenToPort_inv]

theorem State.replyFen_inv (s : State) (die lp : Nat) (opn : Pkt) (gen m op status chunk : Nat) (h0 : s.Inv) :
    (State.replyFen s die lp opn gen m op status chunk).Inv := by
  unfold State.replyFen
  grind -lia -linarith -ring [State.answerFen_inv]

theorem State.collCtrl_inv (s : State) (lp : Nat) (p : Pkt) (op : Nat) (body : Nat → Nat → Nat → Nat → State → State) (h0 : s.Inv)
    (h1 : ∀ i j k l x, x.Inv → (body i j k l x).Inv) :
    (State.collCtrl s lp p op body).Inv := by
  have h2 := State.takeFn_inv s lp p h0
  unfold State.collCtrl
  refine State.ite_inv h0 (State.ite_inv (State.staleIn_inv _ _ _ h2) (State.ite_inv h2 (State.ite_inv (State.inc_inv _ _ h2)
    (State.ite_inv h0 (State.ite_inv h0 ?_)))))
  dsimp only
  cases s.collGroup (p.msgId / 4096) with
  | none => exact State.ite_inv (State.replyFen_inv _ _ _ _ _ _ _ _ _ (State.inc_inv _ _ h2)) (State.inc_inv _ _ h2)
  | some x => exact State.ite_inv (State.inc_inv _ _ h2) (h1 _ _ _ _ _ h2)

theorem State.drawSalt_inv (s : State) (die : Nat) (h0 : s.Inv) : (State.drawSalt s die).2.Inv := by
  unfold State.drawSalt
  grind -lia -linarith -ring [State.Inv_iff, State.Inv]

theorem State.countRefusal_inv (s : State) (die d status : Nat) (h0 : s.Inv) : (State.countRefusal s die d status).Inv := by
  unfold State.countRefusal
  simp -zeta -zetaHave only [ite_sel]
  grind -lia -linarith -ring [sel_or, State.inc_inv, State.irq_inv, State.levelReport_inv]

theorem State.refuseRound_inv (s : State) (r : Round) (status : Nat) (h0 : s.Inv) : (State.refuseRound s r status).Inv := by
  unfold State.refuseRound
  simp -zeta -zetaHave only [ite_sel]
  grind -lia -linarith -ring [sel_or, State.setHist_inv, State.sendCtrl_inv, State.passCheck_inv]

theorem State.startRound_inv (s : State) (r : Round) (h0 : s.Inv) : (State.startRound s r).Inv := by
  unfold State.startRound
  simp -zeta -zetaHave only [ite_sel]
  grind -lia -linarith -ring [sel_or, State.setRound_inv, State.sendCtrl_inv, State.fenAbort_inv, State.fenProgress_inv, State.sweep_inv]

theorem State.rootReady_inv (s : State) (r : Round) (h0 : s.Inv) : (State.rootReady s r).Inv := by
  unfold State.rootReady
  simp -zeta -zetaHave only [ite_sel]
  grind -lia -linarith -ring [sel_or, State.setRound_inv, State.sendHalls_inv, State.startRound_inv]

theorem State.rootRefuse_inv (s : State) (r : Round) (status : Nat) (h0 : s.Inv) : (State.rootRefuse s r status).Inv := by
  unfold State.rootRefuse
  grind -lia -linarith -ring [State.sendHalls_inv, State.dropRound_inv, State.refuseRound_inv]

theorem State.openRound_inv (s : State) (die g e d rnd : Nat) (hall : Option Nat) (h0 : s.Inv) : (State.openRound s die g e d rnd hall).Inv := by
  unfold State.openRound
  simp -zeta -zetaHave only [ite_sel]
  grind -lia -linarith -ring [sel_or, State.inc_inv, State.setRound_inv, State.setHist_inv, State.sendHall_inv, State.partUse_inv, State.excuse_inv,
    State.drawSalt_inv, State.countRefusal_inv, State.refuseRound_inv, State.startRound_inv, State.rootReady_inv, State.rootRefuse_inv]

theorem execFenOpen_inv (lport : Nat) (pkt : Pkt) (s : State) (h0 : s.Inv) : Result.Inv (exec (.fenOpen lport pkt) s) := by
  show Result.Inv (execFenOpen lport pkt s)
  unfold execFenOpen
  simp -zeta -zetaHave only [ite_sel]
  grind -lia -linarith -ring [sel_or, Result.inv_next, State.inc_inv, State.replyFen_inv, State.collCtrl_inv, State.rootReady_inv, State.openRound_inv]

theorem State.spareTake_inv (s : State) (d desc : Nat) (h0 : s.Inv) : (State.spareTake s d desc).Inv := by
  unfold State.spareTake
  simp -zeta -zetaHave only [ite_sel, decide_sel]
  grind -lia -linarith -ring [sel_or, State.Inv_iff, State.Inv, foldl_inv]

theorem State.placeChunk_inv (s : State) (r : Round) (c : Nat) (h0 : s.Inv) : (State.placeChunk s r c).2.Inv := by
  unfold State.placeChunk
  refine ite_snd_inv h0 (ite_snd_inv (State.inc_inv _ _ h0) ?_)
  cases s.pickSpare r.die with
  | some d =>
    have h1 := State.pmcEvent_inv _ 0x13 0 r.pmcUnit 1 (State.inc_inv _ Cnt.CHK_CHECKS h0)
    exact State.ite_inv h1 (State.inc_inv _ _ h1)
  | none =>
    have h1 := State.irq_inv _ (pg 0x12 0) 4 (State.inc_inv _ Cnt.CHK_CHECKS_UNSPARED h0)
    exact State.inc_inv _ _ (State.ite_inv (State.fen_inv _ (State.logErr_inv _ _ _ _ _ h1)) h1)

theorem State.backoff_inv (s : State) (r : Round) (c who num limb : Nat) (hall : Option Nat) (h0 : s.Inv) :
    (State.backoff s r c who num limb hall).Inv := by
  unfold State.backoff
  simp -zeta -zetaHave only [ite_sel]
  grind -lia -linarith -ring [sel_or, State.inc_inv, State.pmcEvent_inv, State.setRound_inv, State.sendCtrl_inv, State.sendHall_inv]

theorem State.restartChunk_inv (s : State) (r : Round) (c : Nat) (f : Chunk → Chunk) (h0 : s.Inv) : (State.restartChunk s r c f).2.Inv := by
  unfold State.restartChunk
  grind -lia -linarith -ring [State.excuse_inv]

theorem State.sendResend_inv (s : State) (r : Round) (c : Nat) (h0 : s.Inv) : (State.sendResend s r c).Inv := by
  unfold State.sendResend
  grind -lia -linarith -ring [State.sendCtrl_inv, State.sendHalls_inv]

theorem State.resendChunk_inv (s : State) (r : Round) (c : Nat) (h0 : s.Inv) : (State.resendChunk s r c).Inv := by
  unfold State.resendChunk
  grind -lia -linarith -ring [State.fenProgress_inv, State.sweep_inv, State.restartChunk_inv, State.sendResend_inv]

theorem State.checkFails_inv (s : State) (r : Round) (c who : Nat) (h0 : s.Inv) : (State.checkFails s r c who).Inv := by
  unfold State.checkFails
  simp -zeta -zetaHave only [ite_sel]
  grind -lia -linarith -ring [sel_or, State.inc_inv, State.charge_inv, State.fenAbort_inv, State.resendChunk_inv]

theorem State.acceptRegion_inv (s : State) (r : Round) (c who rg limb : Nat) (hall : Bool) (p : Pkt) (wrong : Option RunOut) (h0 : s.Inv) :
    (State.acceptRegion s r c who rg limb hall p wrong).Inv := by
  unfold State.acceptRegion
  simp -zeta -zetaHave only [ite_sel]
  grind -lia -linarith -ring [sel_or, State.addCnt_inv, State.pmcEvent_inv, State.fenProgress_inv, State.tryFinish_inv, State.spareTake_inv,
    State.placeChunk_inv, State.checkFails_inv]

theorem execCollIn_inv (lport : Nat) (pkt : Pkt) (wrong : Option RunOut) (s : State) (h0 : s.Inv) :
    Result.Inv (exec (.collIn lport pkt wrong) s) := by
  have h1 := State.takeFn_inv s lport pkt h0
  show Result.Inv (execCollIn lport pkt wrong s)
  unfold execCollIn
  refine Result.ite_inv (Result.inv_next.2 h0) ?_
  generalize s.takeFn lport pkt = t at h1 ⊢
  have hinc (a : Nat) : Result.Inv (.next (t.inc a)) := Result.inv_next.2 (State.inc_inv _ _ h1)
  dsimp only
  cases t.collGroup (pkt.msgId / 4096) with
  | none => exact hinc _
  | some x =>
    refine Result.ite_inv (Result.inv_next.2 (State.staleIn_inv _ _ _ h1)) ?_
    cases t.fenRound (dHome x.2) (pkt.msgId / 4096) with
    | none => exact hinc _
    | some r =>
      exact Result.ite_inv (hinc _) (Result.ite_inv (hinc _) (Result.ite_inv (hinc _) (Result.ite_inv (hinc _) (Result.ite_inv (hinc _)
        (Result.ite_inv (hinc _) (Result.ite_inv (Result.inv_next.2 (State.backoff_inv _ _ _ _ _ _ _ h1))
        (Result.ite_inv (Result.inv_next.2 (State.backoff_inv _ _ _ _ _ _ _ (State.inc_inv _ _ h1)))
        (Result.inv_next.2 (State.acceptRegion_inv _ _ _ _ _ _ _ _ _ h1)))))))))

theorem State.sendStream_inv (s : State) (r : Round) (who : Option (List Nat)) (halls : Bool) (ps : List Pkt) (h0 : s.Inv) :
    (State.sendStream s r who halls ps).Inv := by
  unfold State.sendStream
  simp -zeta -zetaHave only [ite_sel]
  grind -lia -linarith -ring [sel_or, foldl_inv, State.fenSeq_inv, State.fenToPort_inv, State.fenSend_inv]

theorem State.settleChunk_inv (s : State) (r : Round) (c : Nat) (h0 : s.Inv) : (State.settleChunk s r c).Inv := by
  unfold State.settleChunk
  simp -zeta -zetaHave only [ite_sel]
  grind -lia -linarith -ring [sel_or, State.fenProgress_inv, State.finishChunk_inv]

theorem execChunkRelease_inv (die group chunk : Nat) (s : State) (h0 : s.Inv) : Result.Inv (exec (.chunkRelease die group chunk) s) := by
  show Result.Inv (execChunkRelease die group chunk s)
  unfold execChunkRelease
  simp -zeta -zetaHave only [ite_sel]
  grind -lia -linarith -ring [sel_or, foldl_inv, Result.inv_next, State.pmcEvent_inv, State.setRound_inv, State.fenToPort_inv, State.fenAbort_inv,
    State.sendStream_inv, State.settleChunk_inv]

theorem State.recall_inv (s : State) (r : Round) (c reason : Nat) (f : Chunk → Chunk) (h0 : s.Inv) : (State.recall s r c reason f).Inv := by
  unfold State.recall
  grind -lia -linarith -ring [State.inc_inv, State.irq_inv, State.fenTrace_inv, State.fenProgress_inv, State.sweep_inv, State.restartChunk_inv,
    State.sendStream_inv]

theorem State.chargeVerdict_inv (s : State) (n : Nat) (h0 : s.Inv) : (State.chargeVerdict s n).Inv := by
  unfold State.chargeVerdict
  grind -lia -linarith -ring [State.charge_inv]

theorem execVerdict_inv (die group chunk : Nat) (shadow : Option RunOut) (s : State) (h0 : s.Inv) :
    Result.Inv (exec (.verdict die group chunk shadow) s) := by
  show Result.Inv (execVerdict die group chunk shadow s)
  unfold execVerdict
  simp -zeta -zetaHave only [ite_sel]
  grind -lia -linarith -ring [sel_or, Result.inv_next, State.inc_inv, State.irq_inv, State.logErr_inv, State.fenAbort_inv, State.settleChunk_inv,
    State.recall_inv, State.chargeVerdict_inv]

theorem execFenStall_inv (die group chunk : Nat) (s : State) (h0 : s.Inv) : Result.Inv (exec (.fenStall die group chunk) s) := by
  show Result.Inv (execFenStall die group chunk s)
  unfold execFenStall
  simp -zeta -zetaHave only [ite_sel]
  grind -lia -linarith -ring [sel_or, foldl_inv, Result.inv_next, State.inc_inv, State.emit_inv, State.irq_inv, State.logErr_inv, State.charge_inv,
    State.elapseToTick_inv, State.setRound_inv]

theorem execFenRepeat_inv (lport : Nat) (pkt : Pkt) (s : State) (h0 : s.Inv) : Result.Inv (exec (.fenRepeat lport pkt) s) := by
  show Result.Inv (execFenRepeat lport pkt s)
  unfold execFenRepeat
  simp -zeta -zetaHave only [ite_sel]
  grind -lia -linarith -ring [sel_or, Result.inv_next, State.inc_inv, State.fnSend_inv, State.fenSeq_inv, State.replyFen_inv, State.collCtrl_inv,
    State.sendStream_inv]

theorem execFenDone_inv (lport : Nat) (pkt : Pkt) (s : State) (h0 : s.Inv) : Result.Inv (exec (.fenDone lport pkt) s) := by
  show Result.Inv (execFenDone lport pkt s)
  unfold execFenDone
  simp -zeta -zetaHave only [ite_sel]
  grind -lia -linarith -ring [sel_or, Result.inv_next, State.inc_inv, State.passCheck_inv, State.collCtrl_inv]

theorem State.hallAgain_inv (s : State) (r : Round) (c : Nat) (keep : Nat → Nat → Bool) (h0 : s.Inv) : (State.hallAgain s r c keep).Inv := by
  unfold State.hallAgain
  simp -zeta -zetaHave only [ite_sel]
  grind -lia -linarith -ring [sel_or, foldl_inv, State.fenToPort_inv]

theorem execHallAdmittedRx_inv (lport : Nat) (pkt : Pkt) (s : State) (h0 : s.Inv) : Result.Inv (exec (.hallAdmittedRx lport pkt) s) := by
  show Result.Inv (execHallAdmittedRx lport pkt s)
  unfold execHallAdmittedRx
  simp -zeta -zetaHave only [ite_sel]
  grind -lia -linarith -ring [sel_or, Result.inv_next, State.collCtrl_inv, State.startRound_inv, State.hallAgain_inv]

theorem execHallRefusedRx_inv (lport : Nat) (pkt : Pkt) (s : State) (h0 : s.Inv) : Result.Inv (exec (.hallRefusedRx lport pkt) s) := by
  show Result.Inv (execHallRefusedRx lport pkt s)
  unfold execHallRefusedRx
  simp -zeta -zetaHave only [ite_sel]
  grind -lia -linarith -ring [sel_or, Result.inv_next, State.setHist_inv, State.dropRound_inv, State.collCtrl_inv, State.countRefusal_inv,
    State.refuseRound_inv, State.rootRefuse_inv]

theorem execHallOpenTimeout_inv (die group : Nat) (s : State) (h0 : s.Inv) : Result.Inv (exec (.hallOpenTimeout die group) s) := by
  show Result.Inv (execHallOpenTimeout die group s)
  unfold execHallOpenTimeout
  simp -zeta -zetaHave only [ite_sel]
  grind -lia -linarith -ring [sel_or, Result.inv_next, State.elapseToTick_inv, State.countRefusal_inv, State.rootRefuse_inv]

theorem execHallReleaseRx_inv (lport : Nat) (pkt : Pkt) (s : State) (h0 : s.Inv) : Result.Inv (exec (.hallReleaseRx lport pkt) s) := by
  show Result.Inv (execHallReleaseRx lport pkt s)
  unfold execHallReleaseRx
  simp -zeta -zetaHave only [ite_sel, decide_sel]
  grind -lia -linarith -ring [sel_or, Result.inv_next, State.takeFn_inv, State.pmcEvent_inv, State.setRound_inv, State.sendStream_inv, State.settleChunk_inv]

theorem execHallRecallRx_inv (lport : Nat) (pkt : Pkt) (s : State) (h0 : s.Inv) : Result.Inv (exec (.hallRecallRx lport pkt) s) := by
  show Result.Inv (execHallRecallRx lport pkt s)
  unfold execHallRecallRx
  simp -zeta -zetaHave only [ite_sel]
  grind -lia -linarith -ring [sel_or, Result.inv_next, State.takeFn_inv, State.recall_inv]

theorem execHallRecordRx_inv (lport : Nat) (pkt : Pkt) (s : State) (h0 : s.Inv) : Result.Inv (exec (.hallRecordRx lport pkt) s) := by
  show Result.Inv (execHallRecordRx lport pkt s)
  unfold execHallRecordRx
  simp -zeta -zetaHave only [ite_sel]
  grind -lia -linarith -ring [sel_or, Result.inv_next, State.takeFn_inv, State.setRound_inv, State.sendRecord_inv, State.endRound_inv]

theorem execHallAbortRx_inv (lport : Nat) (pkt : Pkt) (s : State) (h0 : s.Inv) : Result.Inv (exec (.hallAbortRx lport pkt) s) := by
  show Result.Inv (execHallAbortRx lport pkt s)
  unfold execHallAbortRx
  simp -zeta -zetaHave only [ite_sel]
  grind -lia -linarith -ring [sel_or, Result.inv_next, State.fenAbort_inv, State.collCtrl_inv]

theorem State.abortFenPart_inv (s : State) (die p : Nat) (h0 : s.Inv) :
    (State.abortFenPart s die p).Inv := State.abortListed_inv _ _ h0

theorem State.fenPartReset_inv (s : State) (die p : Nat) (log : Bool) (h0 : s.Inv) : (State.fenPartReset s die p log).Inv := by
  unfold State.fenPartReset
  simp -zeta -zetaHave only [ite_sel]
  grind -lia -linarith -ring [sel_or, foldl_inv, State.setFld_inv, State.inc_inv, State.irq_inv, State.logErr_inv, State.fenAbort_inv, State.abortFenPart_inv]

theorem execFenMemError_inv (die : Nat) (tier1 : Bool) (slot beat : Nat) (s : State) (h0 : s.Inv) :
    Result.Inv (exec (.fenMemError die tier1 slot beat) s) := by
  show Result.Inv (execFenMemError die tier1 slot beat s)
  unfold execFenMemError
  simp -zeta -zetaHave only [ite_sel]
  grind -lia -linarith -ring [sel_or, Result.inv_next, State.beatSeen_inv, State.fenPartReset_inv]

theorem execReducerUe_inv (n : Nat) (s : State) (h0 : s.Inv) : Result.Inv (exec (.reducerUe n) s) := by
  show Result.Inv (execReducerUe n s)
  unfold execReducerUe
  simp -zeta -zetaHave only [ite_sel]
  grind -lia -linarith -ring [sel_or, foldl_inv, Result.inv_next, State.inc_inv, State.irq_inv, State.logErr_inv, State.charge_inv,
    State.leaveWork_inv, State.retireFen_inv, State.resendChunk_inv, State.recall_inv]

theorem State.fadm_inv (s : State) (h : CmdHdr) (opcode : Nat) (body : State → State × Option Cmpl) (h0 : s.Inv) (h1 : ∀ x, x.Inv → (body x).1.Inv) :
    (State.fadm s h opcode body).Inv := by
  unfold State.fadm
  grind -lia -linarith -ring [State.runCmd_inv]

theorem execFenDescSet_inv (h : CmdHdr) (index desc : Nat) (s : State) (h0 : s.Inv) : Result.Inv (exec (.fenDescSet h index desc) s) := by
  show Result.Inv (execFenDescSet h index desc s)
  unfold execFenDescSet
  simp -zeta -zetaHave only [ite_sel]
  grind -lia -linarith -ring [sel_or, State.Inv_iff, State.Inv, Result.inv_next, ok_inv, fail_inv, State.fadm_inv]

theorem execFenDescRead_inv (h : CmdHdr) (index word : Nat) (s : State) (h0 : s.Inv) : Result.Inv (exec (.fenDescRead h index word) s) := by
  show Result.Inv (execFenDescRead h index word s)
  unfold execFenDescRead
  simp -zeta -zetaHave only [ite_sel]
  grind -lia -linarith -ring [sel_or, Result.inv_next, ok_inv, fail_inv, State.fadm_inv]

theorem execFenPartSet_inv (h : CmdHdr) (part ring tenant sfirst scount tfirst tcount enable : Nat) (s : State) (h0 : s.Inv) :
    Result.Inv (exec (.fenPartSet h part ring tenant sfirst scount tfirst tcount enable) s) := by
  show Result.Inv (execFenPartSet h part ring tenant sfirst scount tfirst tcount enable s)
  unfold execFenPartSet
  simp -zeta -zetaHave only [ite_sel, decide_sel]
  grind -lia -linarith -ring [sel_or, Result.inv_next, State.wr_inv, ok_inv, fail_inv, State.slotOpenClear_inv, State.fadm_inv]

theorem execFenPartReset_inv (h : CmdHdr) (part : Nat) (s : State) (h0 : s.Inv) : Result.Inv (exec (.fenPartReset h part) s) := by
  show Result.Inv (execFenPartReset h part s)
  unfold execFenPartReset
  simp -zeta -zetaHave only [ite_sel]
  grind -lia -linarith -ring [sel_or, Result.inv_next, ok_inv, fail_inv, State.fenPartReset_inv, State.fadm_inv]

theorem execFenAbort_inv (h : CmdHdr) (group rnd : Nat) (s : State) (h0 : s.Inv) : Result.Inv (exec (.fenAbort h group rnd) s) := by
  show Result.Inv (execFenAbort h group rnd s)
  unfold execFenAbort
  simp -zeta -zetaHave only [ite_sel]
  grind -lia -linarith -ring [sel_or, Result.inv_next, ok_inv, fail_inv, State.fenAbort_inv, State.fadm_inv]

theorem execFenQuery_inv (h : CmdHdr) (group : Nat) (s : State) (h0 : s.Inv) : Result.Inv (exec (.fenQuery h group) s) := by
  show Result.Inv (execFenQuery h group s)
  unfold execFenQuery
  simp -zeta -zetaHave only [ite_sel]
  grind -lia -linarith -ring [sel_or, Result.inv_next, ok_inv, fail_inv, State.fadm_inv]

theorem State.saltSeedWrite_inv (s : State) (die v : Nat) (h0 : s.Inv) : (State.saltSeedWrite s die v).Inv := by
  unfold State.saltSeedWrite
  grind -lia -linarith -ring [State.Inv_iff, State.Inv, State.wr_inv]

theorem execSaltSeedLoad_inv (die value : Nat) (s : State) (h0 : s.Inv) : Result.Inv (exec (.saltSeedLoad die value) s) := by
  show Result.Inv (execSaltSeedLoad die value s)
  unfold execSaltSeedLoad
  grind -lia -linarith -ring [Result.inv_next, State.onPage_inv, State.saltSeedWrite_inv]

theorem execFenCntClear_inv (n : Nat) (s : State) (h0 : s.Inv) : Result.Inv (exec (.fenCntClear n) s) := by
  show Result.Inv (execFenCntClear n s)
  unfold execFenCntClear
  grind -lia -linarith -ring [Result.inv_next, State.clearCnts_inv, State.onPage_inv]

theorem execFadmCntClear_inv (die : Nat) (s : State) (h0 : s.Inv) : Result.Inv (exec (.fadmCntClear die) s) := by
  show Result.Inv (execFadmCntClear die s)
  unfold execFadmCntClear
  grind -lia -linarith -ring [Result.inv_next, State.clearCnts_inv, State.onPage_inv]

/-! ### The operations of Machine/Peat.lean -/

theorem State.slotRead_inv (s : State) (tier slot : Nat) (h0 : s.Inv) : (State.slotRead s tier slot).2.Inv := by
  unfold State.slotRead
  simp -zeta -zetaHave only [ite_sel]
  grind -lia -linarith -ring [sel_or, State.regionViolation_inv]

theorem State.slotWrite_inv (s : State) (tier slot : Nat) (bs : List Byte) (h0 : s.Inv) : (State.slotWrite s tier slot bs).Inv := by
  unfold State.slotWrite
  simp -zeta -zetaHave only [ite_sel]
  grind -lia -linarith -ring [sel_or, State.tierWrite_inv, State.regionViolation_inv]

theorem State.slotOwn_inv (s : State) (tier slot p idx : Nat) (h0 : s.Inv) : (State.slotOwn s tier slot p idx).Inv := by
  unfold State.slotOwn
  grind -lia -linarith -ring [State.setPeat_inv]

theorem State.slotRelease_inv (s : State) (tier slot : Nat) (h0 : s.Inv) : (State.slotRelease s tier slot).Inv := by
  unfold State.slotRelease
  grind -lia -linarith -ring [State.setPeat_inv]

theorem State.stashCount_inv (s : State) (p : Nat) (h0 : s.Inv) : (State.stashCount s p).Inv := by
  unfold State.stashCount
  grind -lia -linarith -ring [State.setFld_inv]

theorem State.dirPut_inv (s : State) (p idx e : Nat) (h0 : s.Inv) : (State.dirPut s p idx e).Inv := by
  unfold State.dirPut
  simp -zeta -zetaHave only [ite_sel]
  grind -lia -linarith -ring [sel_or, State.regionWrite_inv, State.setPeat_inv, State.slotOwn_inv, State.stashCount_inv]

theorem State.dirRemove_inv (s : State) (p idx : Nat) (h0 : s.Inv) : (State.dirRemove s p idx).Inv := by
  unfold State.dirRemove
  simp -zeta -zetaHave only [ite_sel]
  grind -lia -linarith -ring [sel_or, State.slotRelease_inv, State.dirPut_inv]

theorem State.dirFind_inv (s : State) (p key : Nat) (h0 : s.Inv) : (State.dirFind s p key).2.Inv := by
  unfold State.dirFind
  simp -zeta -zetaHave only [ite_sel]
  grind -lia -linarith -ring [sel_or, State.inc_inv, State.dirRemove_inv]

theorem State.peatInsert_inv (s : State) (p e : Nat) (h0 : s.Inv) (t : State) (ht : State.peatInsert s p e = some t) : t.Inv := by
  unfold State.peatInsert at ht
  split at ht
  · obtain rfl := Option.some.inj ht
    exact foldl_inv _ (fun _ _ h => State.dirPut_inv _ _ _ _ h) _ _ h0
  · obtain ⟨k, -, rfl⟩ := Option.map_eq_some_iff.1 ht
    exact State.logErr_inv _ _ _ _ _ (State.irq_inv _ _ _ (State.inc_inv _ _ (State.dirPut_inv _ _ _ _ h0)))

theorem State.abortPeatPart_inv (s : State) (p : Nat) (h0 : s.Inv) : (State.abortPeatPart s p).Inv := by
  unfold State.abortPeatPart
  grind -lia -linarith -ring [State.abortListed_inv]

theorem State.peatResetNow_inv (s : State) (p : Nat) (log : Bool) (h0 : s.Inv) : (State.peatResetNow s p log).Inv := by
  unfold State.peatResetNow
  simp -zeta -zetaHave only [ite_sel]
  grind -lia -linarith -ring [sel_or, State.setFld_inv, State.setFlag_inv, State.inc_inv, State.post_inv, State.irq_inv, State.logErr_inv,
    State.setPeat_inv, State.genChanged_inv, State.stashCount_inv, State.abortPeatPart_inv]

theorem State.peatReset_inv (s : State) (p : Nat) (h : Option CmdHdr) (h0 : s.Inv) : (State.peatReset s p h).Inv := by
  unfold State.peatReset
  simp -zeta -zetaHave only [ite_sel]
  grind -lia -linarith -ring [sel_or, State.complete_inv, State.setPeat_inv, State.peatResetNow_inv]

theorem State.peatSweep_inv (s : State) (p : Nat) (h0 : s.Inv) : (State.peatSweep s p).Inv := by
  unfold State.peatSweep
  simp -zeta -zetaHave only [ite_sel, decide_sel]
  grind -lia -linarith -ring [sel_or, foldl_inv, State.dirPut_inv]

theorem execPeatPartUe_inv (chan : Option Nat) (parts : List Nat) (s : State) (h0 : s.Inv) : Result.Inv (exec (.peatPartUe chan parts) s) := by
  show Result.Inv (execPeatPartUe chan parts s)
  unfold execPeatPartUe
  simp -zeta -zetaHave only [decide_sel]
  grind -lia -linarith -ring [sel_or, foldl_inv, Result.inv_next, State.beatSeen_inv, State.peatReset_inv]

theorem execStaleSweepDone_inv (p : Nat) (s : State) (h0 : s.Inv) : Result.Inv (exec (.staleSweepDone p) s) := by
  show Result.Inv (execStaleSweepDone p s)
  unfold execStaleSweepDone
  simp -zeta -zetaHave only [ite_sel]
  grind -lia -linarith -ring [sel_or, Result.inv_next, State.setFlag_inv, State.setPeat_inv, State.peatReset_inv, State.peatSweep_inv]

theorem State.peatMove_inv (s : State) (p idx tier : Nat) (h0 : s.Inv) : (State.peatMove s p idx tier).2.Inv := by
  unfold State.peatMove
  grind -lia -linarith -ring [State.slotRead_inv, State.slotWrite_inv, State.slotRelease_inv, State.dirPut_inv]

theorem State.noteLevel_inv (s : State) (p : Nat) (h0 : s.Inv) : (State.noteLevel s p).Inv := by
  unfold State.noteLevel
  simp -zeta -zetaHave only [ite_sel]
  grind -lia -linarith -ring [sel_or, State.setPeat_inv]

theorem execAutoDemote_inv (p : Nat) (s : State) (h0 : s.Inv) : Result.Inv (exec (.autoDemote p) s) := by
  show Result.Inv (execAutoDemote p s)
  unfold execAutoDemote
  refine Result.ite_inv (Result.inv_next.2 (State.setPeat_inv _ _ h0)) ?_
  have h1 := State.elapseToTick_inv (max s.peat.demoteAt (Tbl.getD s.peat.stopUntil 0 p)) s h0
  generalize State.elapseToTick (max s.peat.demoteAt (Tbl.getD s.peat.stopUntil 0 p)) s = t at h1 ⊢
  dsimp only
  refine Result.ite_inv (Result.inv_next.2 (State.setPeat_inv _ _ (State.levelReport_inv _ _ _ (State.irq_inv _ _ _ (State.setPeat_inv _ _ h1))))) ?_
  generalize List.foldl _ none _ = best
  refine Result.inv_next.2 (State.noteLevel_inv _ _ ?_)
  cases best with
  | none => exact State.ite_inv (State.setPeat_inv _ _ (State.setPeat_inv _ _ (State.setPeat_inv _ _ h1))) (State.setPeat_inv _ _ (State.setPeat_inv _ _ h1))
  | some v =>
    have h2 (f : PeatSt → PeatSt) := State.inc_inv _ Cnt.PEAT_AUTO_DEMOTES (State.peatMove_inv _ p v.2 1 (State.setPeat_inv t f h1))
    exact State.ite_inv (State.setPeat_inv _ _ (State.setPeat_inv _ _ (h2 _))) (State.setPeat_inv _ _ (h2 _))

theorem State.peatRespond_inv (s : State) (lp : Nat) (req : Pkt) (gen op status sum : Nat) (sts : List Nat) (t2 : Nat) (data : List Byte) (poison : Bool)
    (h0 : s.Inv) : (State.peatRespond s lp req gen op status sum sts t2 data poison).Inv := by
  unfold State.peatRespond
  exact foldl_inv _ (fun _ _ h => State.fnSend_inv _ _ _ h) _ _ h0

theorem State.countMacs_inv (s : State) (p n : Nat) (h0 : s.Inv) : (State.countMacs s p n).Inv := by
  unfold State.countMacs
  grind -lia -linarith -ring [State.addCnt_inv, State.setPeat_inv, State.pmcEvent_inv]

theorem State.drawStatuses_inv (s : State) (n : Nat) (h0 : s.Inv) : (State.drawStatuses s n).2.Inv := by
  unfold State.drawStatuses
  grind -lia -linarith -ring [State.Inv_iff, State.Inv]

theorem State.peatLost_inv (s : State) (lp : Nat) (pkt : Pkt) (p : Nat) (r : PeatReq) (h0 : s.Inv) : (State.peatLost s lp pkt p r).Inv := by
  unfold State.peatLost
  grind -lia -linarith -ring [State.draw_inv, State.peatRespond_inv, State.drawStatuses_inv]

/-- The state that a request has come to keeps the invariant. -/
def PeatRun.Inv (x : PeatRun) : Prop := x.st.Inv

theorem PeatRun.ite_inv {c : Prop} [Decidable c] {x y : PeatRun} (hx : x.Inv) (hy : y.Inv) : PeatRun.Inv (if c then x else y) := by
  split
  · exact hx
  · exact hy

theorem PeatRun.add_inv {x : PeatRun} {s : State} (status : Nat) (t2 : Bool) (data : List Byte) (h : s.Inv) : (x.add s status t2 data).Inv := h

theorem putBlock_inv (p : Nat) (r : PeatReq) (key : Nat) (bs : List Byte) (poison : Bool) (x : PeatRun) (h0 : x.Inv) :
    (putBlock p r key bs poison x).Inv := by
  have h1 := State.dirFind_inv x.st p key h0
  have hput (s : State) (tier slot : Nat) (h : s.Inv) : ((s.slotWrite tier slot bs).inc Cnt.PEAT_PUTS).Inv :=
    State.inc_inv _ _ (State.slotWrite_inv _ _ _ _ h)
  obtain ⟨ins, hins⟩ : ∃ f, f = State.peatInsert := ⟨_, rfl⟩
  obtain ⟨free, hfree⟩ : ∃ f, f = State.slotFree := ⟨_, rfl⟩
  unfold putBlock
  rw [← hins, ← hfree]
  generalize x.st.dirFind p key = q at h1 ⊢
  rcases q with ⟨_ | i, s⟩
  · refine PeatRun.ite_inv (PeatRun.add_inv _ _ _ h1) ?_
    dsimp only
    split
    · exact PeatRun.add_inv _ _ _ h1
    · split
      · rename_i hs
        exact PeatRun.add_inv _ _ _ (hput _ _ _ (State.peatInsert_inv _ _ _ h1 _ (hins ▸ hs)))
      · exact PeatRun.add_inv _ _ _ (State.inc_inv _ _ h1)
  · exact PeatRun.ite_inv (PeatRun.add_inv _ _ _ h1) (PeatRun.ite_inv (PeatRun.add_inv _ _ _ h1)
      (PeatRun.add_inv _ _ _ (State.dirPut_inv _ _ _ _ (hput _ _ _ h1))))

theorem readBlock_inv (p : Nat) (r : PeatReq) (key : Nat) (x : PeatRun) (h0 : x.Inv) : (readBlock p r key x).Inv := by
  have h1 := State.dirFind_inv x.st p key h0
  obtain ⟨read, hread⟩ : ∃ f, f = State.slotRead := ⟨_, rfl⟩
  unfold readBlock
  rw [← hread]
  generalize x.st.dirFind p key = q at h1 ⊢
  rcases q with ⟨_ | i, s⟩
  · exact PeatRun.add_inv _ _ _ (State.inc_inv _ _ h1)
  · refine PeatRun.ite_inv (PeatRun.add_inv _ _ _ h1) ?_
    have h2 := State.slotRead_inv _ (eTier (s.dirEnt p i)) (eLoc (s.dirEnt p i)) (State.dirPut_inv s p i (withBits 223 200 s.useNow (s.dirEnt p i)) h1)
    rw [← hread] at h2
    exact PeatRun.ite_inv (PeatRun.add_inv _ _ _ h2) (PeatRun.ite_inv (x := { x.add _ 0 _ [] with att := _ }) h2 (PeatRun.add_inv _ _ _ (State.inc_inv _ _ h2)))

theorem mindBlock_inv (p : Nat) (r : PeatReq) (key : Nat) (x : PeatRun) (h0 : x.Inv) : (mindBlock p r key x).Inv := by
  have h1 := State.dirFind_inv x.st p key h0
  have used (s : State) (i : Nat) (h : s.Inv) : (if r.op = 7 then s.dirPut p i (withBits 223 200 s.useNow (s.dirEnt p i)) else s).Inv :=
    State.ite_inv (State.dirPut_inv _ _ _ _ h) h
  unfold mindBlock
  generalize x.st.dirFind p key = q at h1 ⊢
  rcases q with ⟨_ | i, s⟩ <;> dsimp only
  · exact PeatRun.add_inv _ _ _ (State.inc_inv _ _ h1)
  · refine PeatRun.ite_inv (PeatRun.add_inv _ _ _ (State.dirPut_inv _ _ _ _ h1)) (PeatRun.ite_inv (PeatRun.add_inv _ _ _ h1)
      (PeatRun.ite_inv (PeatRun.add_inv _ _ _ (State.dirRemove_inv _ _ _ h1)) (PeatRun.ite_inv (PeatRun.add_inv _ _ _ (used _ _ h1)) ?_)))
    have h2 (tier : Nat) := State.peatMove_inv s p i tier h1
    generalize (if r.op = 7 then 0 else 1) = tier
    specialize h2 tier
    generalize s.peatMove p i tier = m at h2 ⊢
    rcases m with ⟨_ | _, t⟩
    · exact PeatRun.add_inv _ _ _ h2
    · exact PeatRun.add_inv _ _ _ (used _ _ (State.inc_inv _ _ h2))

theorem State.peatWork_inv (s : State) (p : Nat) (r : PeatReq) (m : List Byte) (poisoned : Nat → Bool) (h0 : s.Inv) :
    (s.peatWork p r m poisoned).Inv := by
  unfold State.peatWork
  refine List.foldlRecOn (motive := PeatRun.Inv) _ _ h0 fun x h k _ => ?_
  exact PeatRun.ite_inv (putBlock_inv _ _ _ _ _ _ h) (PeatRun.ite_inv (readBlock_inv _ _ _ _ h) (mindBlock_inv _ _ _ _ h))

theorem State.peatServe_inv (s : State) (lp : Nat) (pkt : Pkt) (m : List Byte) (badLen : Bool) (poison : List (Nat × Nat)) (errs : List BeatErr)
    (h0 : s.Inv) :
    (State.peatServe s lp pkt m badLen poison errs).Inv := by
  have h1 := State.inc_inv _ Cnt.PEAT_REQUESTS h0
  obtain ⟨run, hrun⟩ : ∃ f, f = State.peatWork := ⟨_, rfl⟩
  obtain ⟨att, hatt⟩ : ∃ f, f = attend := ⟨_, rfl⟩
  have respond (t : State) (gen op status sum : Nat) (sts : List Nat) (t2 : Nat) (data : List Byte) (b : Bool) (h : t.Inv) :
      (t.peatRespond lp pkt gen op status sum sts t2 data b).Inv := State.peatRespond_inv _ _ _ _ _ _ _ _ _ _ _ h
  unfold State.peatServe
  rw [← hrun, ← hatt]
  extract_lets +onlyGivenNames r part
  clear_value r part
  cases part with
  | none =>
    have hd (t : State) (h : t.Inv) := State.draw_inv t h
    exact State.ite_inv (respond _ _ _ _ _ _ _ _ _ (hd _ h1)) (State.ite_inv (respond _ _ _ _ _ _ _ _ _ (hd _ h1))
      (respond _ _ _ _ _ _ _ _ _ (hd _ (State.inc_inv _ _ h1))))
  | some p =>
    have h2 := State.pmcEvent_inv _ 0x20 0 p 1 h1
    have hwork (t : State) (h : t.Inv) (poisoned : Nat → Bool) (x : PeatRun) (hx : x = run t p r m poisoned) (n k : Nat) :
        (((x.st.pmcEvent 0x21 0 p n).pmcEvent 0x23 0 p k).noteLevel p).Inv := by
      subst hx hrun
      exact State.noteLevel_inv _ _ (State.pmcEvent_inv _ _ _ _ _ (State.pmcEvent_inv _ _ _ _ _ (State.peatWork_inv _ _ _ _ _ h)))
    refine State.ite_inv (respond _ _ _ _ _ _ _ _ _ h2) (State.ite_inv (respond _ _ _ _ _ _ _ _ _ h2)
      (State.ite_inv (respond _ _ _ _ _ _ _ _ _ (State.inc_inv _ _ h2)) (State.ite_inv (respond _ _ _ _ _ _ _ _ _ h2)
      (State.ite_inv (State.peatLost_inv _ _ _ _ _ h2) (State.ite_inv (State.peatLost_inv _ _ _ _ _ (State.peatReset_inv _ _ _ (State.beatsSeen_inv _ _ h2))) ?_)))))
    refine have h3 := hwork _ (State.beatsSeen_inv _ _ h2) _ _ rfl _ _; State.ite_inv ?_ (respond _ _ _ _ _ _ _ _ _ h3)
    exact respond _ _ _ _ _ _ _ _ _ (State.wr_inv _ _ _ (State.countMacs_inv _ _ _ (State.inc_inv _ _ h3)))

theorem State.peatRow_inv (s : State) (op lp : Nat) (pkt : Pkt) (errs : List BeatErr) (h0 : s.Inv) : (State.peatRow s op lp pkt errs).Inv := by
  unfold State.peatRow
  simp -zeta -zetaHave only [ite_sel]
  grind -lia -linarith -ring [sel_or, foldl_inv, State.takeFn_inv, State.setPeat_inv, State.staleIn_inv, State.peatServe_inv]

theorem execPeatPut_inv (lport : Nat) (pkt : Pkt) (errs : List BeatErr) (s : State) (h0 : s.Inv) : Result.Inv (exec (.peatPut lport pkt errs) s) := by
  show Result.Inv (execPeatPut lport pkt errs s)
  unfold execPeatPut
  grind -lia -linarith -ring [Result.inv_next, State.peatRow_inv]

theorem execPeatGet_inv (lport : Nat) (pkt : Pkt) (errs : List BeatErr) (s : State) (h0 : s.Inv) : Result.Inv (exec (.peatGet lport pkt errs) s) := by
  show Result.Inv (execPeatGet lport pkt errs s)
  unfold execPeatGet
  grind -lia -linarith -ring [Result.inv_next, State.peatRow_inv]

theorem execPeatGather_inv (lport : Nat) (pkt : Pkt) (errs : List BeatErr) (s : State) (h0 : s.Inv) :
    Result.Inv (exec (.peatGather lport pkt errs) s) := by
  show Result.Inv (execPeatGather lport pkt errs s)
  unfold execPeatGather
  grind -lia -linarith -ring [Result.inv_next, State.peatRow_inv]

theorem execPeatAttend_inv (lport : Nat) (pkt : Pkt) (errs : List BeatErr) (s : State) (h0 : s.Inv) :
    Result.Inv (exec (.peatAttend lport pkt errs) s) := by
  show Result.Inv (execPeatAttend lport pkt errs s)
  unfold execPeatAttend
  grind -lia -linarith -ring [Result.inv_next, State.peatRow_inv]

theorem execPeatPin_inv (lport : Nat) (pkt : Pkt) (errs : List BeatErr) (s : State) (h0 : s.Inv) : Result.Inv (exec (.peatPin lport pkt errs) s) := by
  show Result.Inv (execPeatPin lport pkt errs s)
  unfold execPeatPin
  grind -lia -linarith -ring [Result.inv_next, State.peatRow_inv]

theorem execPeatEvict_inv (lport : Nat) (pkt : Pkt) (errs : List BeatErr) (s : State) (h0 : s.Inv) :
    Result.Inv (exec (.peatEvict lport pkt errs) s) := by
  show Result.Inv (execPeatEvict lport pkt errs s)
  unfold execPeatEvict
  grind -lia -linarith -ring [Result.inv_next, State.peatRow_inv]

theorem execPeatPromote_inv (lport : Nat) (pkt : Pkt) (errs : List BeatErr) (s : State) (h0 : s.Inv) :
    Result.Inv (exec (.peatPromote lport pkt errs) s) := by
  show Result.Inv (execPeatPromote lport pkt errs s)
  unfold execPeatPromote
  grind -lia -linarith -ring [Result.inv_next, State.peatRow_inv]

theorem execPeatDemote_inv (lport : Nat) (pkt : Pkt) (errs : List BeatErr) (s : State) (h0 : s.Inv) :
    Result.Inv (exec (.peatDemote lport pkt errs) s) := by
  show Result.Inv (execPeatDemote lport pkt errs s)
  unfold execPeatDemote
  grind -lia -linarith -ring [Result.inv_next, State.peatRow_inv]

theorem execPeatReasmTimeout_inv (src msgId gen : Nat) (s : State) (h0 : s.Inv) : Result.Inv (exec (.peatReasmTimeout src msgId gen) s) := by
  show Result.Inv (execPeatReasmTimeout src msgId gen s)
  unfold execPeatReasmTimeout
  simp -zeta -zetaHave only [ite_sel]
  grind -lia -linarith -ring [sel_or, Result.inv_next, State.inc_inv, State.logErr_inv, State.setPeat_inv, State.elapseToTick_inv]

theorem execPeatPowerInterval_inv (want : Nat) (s : State) (h0 : s.Inv) : Result.Inv (exec (.peatPowerInterval want) s) := by
  show Result.Inv (execPeatPowerInterval want s)
  unfold execPeatPowerInterval
  simp -zeta -zetaHave only [ite_sel, decide_sel]
  grind -lia -linarith -ring [sel_or, Result.inv_next, State.setFld_inv, State.inc_inv, State.setPeat_inv, State.nextSample_inv]

theorem State.peatCmd_inv (s : State) (h : CmdHdr) (opcode : Nat) (body : State → State × Option Cmpl) (h0 : s.Inv) (h1 : ∀ x, x.Inv → (body x).1.Inv) :
    (State.peatCmd s h opcode body).Inv := by
  unfold State.peatCmd
  simp -zeta -zetaHave only [ite_sel]
  grind -lia -linarith -ring [sel_or, State.runCmd_inv, failOpen_inv]

theorem execPeatPartSet_inv (h : CmdHdr) (part ring tenant group t1First t1Count t2First t2Count dirBase dirLog2 enable : Nat) (s : State) (h0 : s.Inv) :
    Result.Inv (exec (.peatPartSet h part ring tenant group t1First t1Count t2First t2Count dirBase dirLog2 enable) s) := by
  show Result.Inv (execPeatPartSet h part ring tenant group t1First t1Count t2First t2Count dirBase dirLog2 enable s)
  unfold execPeatPartSet
  refine Result.inv_next.2 (State.peatCmd_inv _ _ _ _ h0 fun s h => ?_)
  refine ite_fst_inv (fail_inv _ _ h) (ite_fst_inv (fail_inv _ _ h) (ite_fst_inv (fail_inv _ _ h) ?_))
  refine have h1 := ?_; State.slotOpenClear_inv _ (State.ite_inv ?_ h1)
  · exact State.wr_inv _ _ _ (State.wr_inv _ _ _ (State.wr_inv _ _ _ (State.wr_inv _ _ _ (State.wr_inv _ _ _ (State.wr_inv _ _ _ (State.wr_inv _ _ _ h))))))
  · have h2 := State.stashCount_inv _ part (State.setPeat_inv _ (fun q => { q with
      owner := q.owner.filter fun o => o.2 / 2 ^ 32 != part, stash := q.stash.filter fun x => x.1 / 4 != part }) h1)
    dsimp only
    split
    · exact State.tierZero_inv _ _ _ _ h2
    · exact h2

theorem execPeatPartReset_inv (h : CmdHdr) (part : Nat) (s : State) (h0 : s.Inv) : Result.Inv (exec (.peatPartReset h part) s) := by
  show Result.Inv (execPeatPartReset h part s)
  unfold execPeatPartReset
  simp -zeta -zetaHave only [ite_sel]
  grind -lia -linarith -ring [sel_or, Result.inv_next, fail_inv, State.peatReset_inv, State.peatCmd_inv]

theorem execPeatLookup_inv (h : CmdHdr) (part key : Nat) (s : State) (h0 : s.Inv) : Result.Inv (exec (.peatLookup h part key) s) := by
  show Result.Inv (execPeatLookup h part key s)
  unfold execPeatLookup
  simp -zeta -zetaHave only [ite_sel]
  grind -lia -linarith -ring [sel_or, Result.inv_next, ok_inv, fail_inv, State.dirFind_inv, State.peatCmd_inv]

theorem execPeatSnapshot_inv (h : CmdHdr) (part off : Nat) (s : State) (h0 : s.Inv) : Result.Inv (exec (.peatSnapshot h part off) s) := by
  show Result.Inv (execPeatSnapshot h part off s)
  unfold execPeatSnapshot
  simp -zeta -zetaHave only [ite_sel]
  grind -lia -linarith -ring [sel_or, Result.inv_next, State.post_inv, State.irq_inv, ok_inv, fail_inv, State.regionWrite_inv, State.peatCmd_inv]

theorem execPeatUsage_inv (h : CmdHdr) (part : Nat) (s : State) (h0 : s.Inv) : Result.Inv (exec (.peatUsage h part) s) := by
  show Result.Inv (execPeatUsage h part s)
  unfold execPeatUsage
  simp -zeta -zetaHave only [ite_sel]
  grind -lia -linarith -ring [sel_or, Result.inv_next, ok_inv, fail_inv, State.peatCmd_inv]

theorem execPeatCntClear_inv (s : State) (h0 : s.Inv) : Result.Inv (exec .peatCntClear s) := by
  show Result.Inv (execPeatCntClear s)
  unfold execPeatCntClear
  grind -lia -linarith -ring [Result.inv_next, State.clearCnts_inv, State.onPage_inv]

/-! ### The operations of Machine/Tier.lean -/

theorem execTier1Trained_inv (mask : Nat) (s : State) (h0 : s.Inv) : Result.Inv (exec (.tier1Trained mask) s) := by
  show Result.Inv (execTier1Trained mask s)
  unfold execTier1Trained
  simp -zeta -zetaHave only [ite_sel]
  grind -lia -linarith -ring [sel_or, foldl_inv, Result.inv_next, State.setFld_inv, State.setFlag_inv, State.irq_inv, State.logErr_inv,
    State.stageDone_inv, State.setPeat_inv]

theorem execTier2Trained_inv (present accepted trained : Nat) (s : State) (h0 : s.Inv) :
    Result.Inv (exec (.tier2Trained present accepted trained) s) := by
  show Result.Inv (execTier2Trained present accepted trained s)
  unfold execTier2Trained
  simp -zeta -zetaHave only [ite_sel, decide_sel]
  grind -lia -linarith -ring [sel_or, foldl_inv, Result.inv_next, State.setFld_inv, State.setFlag_inv, State.irq_inv, State.logErr_inv,
    State.stageDone_inv, State.setPeat_inv]

theorem State.setChan_inv (s : State) (c : Nat) (x : ChanSt) (h0 : s.Inv) : (State.setChan s c x).Inv := by
  unfold State.setChan
  grind -lia -linarith -ring [State.setPeat_inv]

theorem State.setCredit_inv (s : State) (c k : Nat) (v : Int) (h0 : s.Inv) : (State.setCredit s c k v).Inv := by
  unfold State.setCredit
  grind -lia -linarith -ring [State.setFld_inv]

theorem State.grantTier_inv (s : State) (c : Nat) (r : TierReq) (h0 : s.Inv) : (State.grantTier s c r).Inv := by
  unfold State.grantTier
  simp -zeta -zetaHave only [ite_sel, decide_sel]
  grind -lia -linarith -ring [sel_or, State.setFld_inv, State.setFlag_inv, State.addCnt_inv, State.inc_inv, State.pmcEvent_inv, State.setChan_inv,
    State.setCredit_inv]

theorem State.loseTier_inv (s : State) (c k : Nat) (h0 : s.Inv) : (State.loseTier s c k).Inv := by
  unfold State.loseTier
  grind -lia -linarith -ring [State.addCnt_inv, State.inc_inv, State.pmcEvent_inv, State.setChan_inv]

theorem execTierGrant_inv (ch idle : Nat) (reqs : List TierReq) (room : Bool) (s : State) (h0 : s.Inv) :
    Result.Inv (exec (.tierGrant ch idle reqs room) s) := by
  show Result.Inv (execTierGrant ch idle reqs room s)
  unfold execTierGrant
  simp -zeta -zetaHave only [ite_sel, decide_sel]
  grind -lia -linarith -ring [sel_or, foldl_inv, Result.inv_next, State.inc_inv, State.setChan_inv, State.grantTier_inv, State.loseTier_inv]

theorem execArbWindow_inv (ch : Nat) (s : State) (h0 : s.Inv) : Result.Inv (exec (.arbWindow ch) s) := by
  show Result.Inv (execArbWindow ch s)
  unfold execArbWindow
  grind -lia -linarith -ring [foldl_inv, Result.inv_next, State.setFld_inv, State.elapseToTick_inv, State.setCredit_inv]

theorem execLockBreak_inv (ch : Nat) (s : State) (h0 : s.Inv) : Result.Inv (exec (.lockBreak ch) s) := by
  show Result.Inv (execLockBreak ch s)
  unfold execLockBreak
  simp -zeta -zetaHave only [ite_sel]
  grind -lia -linarith -ring [sel_or, Result.inv_next, State.setFld_inv, State.setFlag_inv, State.inc_inv, State.irq_inv, State.logErr_inv,
    State.elapse_inv, State.setChan_inv]

theorem State.beatUe_inv (s : State) (t a : Nat) (parts : List Nat) (h0 : s.Inv) : (State.beatUe s t a parts).Inv := by
  unfold State.beatUe
  simp -zeta -zetaHave only [decide_sel]
  grind -lia -linarith -ring [sel_or, foldl_inv, State.fenPartReset_inv, State.peatReset_inv]

theorem execScrub_inv (res : EccRes) (parts : List Nat) (s : State) (h0 : s.Inv) : Result.Inv (exec (.scrub res parts) s) := by
  show Result.Inv (execScrub res parts s)
  unfold execScrub
  simp -zeta -zetaHave only [ite_sel, decide_sel]
  grind -lia -linarith -ring [sel_or, Result.inv_next, State.inc_inv, State.beatSeen_inv, State.setPeat_inv, State.beatUe_inv]

theorem execTierCntClear_inv (s : State) (h0 : s.Inv) : Result.Inv (exec .tierCntClear s) := by
  show Result.Inv (execTierCntClear s)
  unfold execTierCntClear
  grind -lia -linarith -ring [Result.inv_next, State.clearCnts_inv, State.onPage_inv]

theorem execTierChCntClear_inv (ch : Nat) (s : State) (h0 : s.Inv) : Result.Inv (exec (.tierChCntClear ch) s) := by
  show Result.Inv (execTierChCntClear ch s)
  unfold execTierChCntClear
  grind -lia -linarith -ring [Result.inv_next, State.clearCnts_inv, State.onPage_inv]

/-! ### The operations of Machine/Delsia.lean -/

theorem execWindowOpen_inv (fec : List FecCount) (s : State) (h0 : s.Inv) : Result.Inv (exec (.windowOpen fec) s) := by
  show Result.Inv (execWindowOpen fec s)
  unfold execWindowOpen
  simp -zeta -zetaHave only [ite_sel]
  grind -lia -linarith -ring [sel_or, Result.inv_next, State.elapseToTick_inv, State.elapseToDev_inv, State.endWindow_inv, State.openWindow_inv]

theorem execWindowClose_inv (s : State) (h0 : s.Inv) : Result.Inv (exec .windowClose s) := by
  show Result.Inv (execWindowClose s)
  unfold execWindowClose
  simp -zeta -zetaHave only [ite_sel]
  grind -lia -linarith -ring [sel_or, Result.inv_next, State.elapseToTick_inv, State.elapseToDev_inv, State.closeWin_inv]

theorem State.windowWrite_inv (s : State) (v : Nat) (h0 : s.Inv) : (State.windowWrite s v).Inv := by
  unfold State.windowWrite
  simp -zeta -zetaHave only [ite_sel]
  grind -lia -linarith -ring [sel_or, State.setFld_inv, State.logErr_inv, State.setDel_inv]

theorem execWinUsWrite_inv (value : Nat) (s : State) (h0 : s.Inv) : Result.Inv (exec (.winUsWrite value) s) := by
  show Result.Inv (execWinUsWrite value s)
  unfold execWinUsWrite
  grind -lia -linarith -ring [Result.inv_next, State.onPage_inv, State.rwl_inv, State.windowWrite_inv]

theorem execWindowReconfig_inv (fec : List FecCount) (s : State) (h0 : s.Inv) : Result.Inv (exec (.windowReconfig fec) s) := by
  show Result.Inv (execWindowReconfig fec s)
  unfold execWindowReconfig
  simp -zeta -zetaHave only [ite_sel]
  grind -lia -linarith -ring [sel_or, foldl_inv, Result.inv_next, State.elapseToDev_inv, State.setDel_inv, State.closeWin_inv, State.endWindow_inv,
    State.openWindow_inv]

theorem State.judgeRec_inv (s : State) (b : List Byte) (h0 : s.Inv) : (State.judgeRec s b).Inv := by
  unfold State.judgeRec
  simp -zeta -zetaHave only [ite_sel]
  grind -lia -linarith -ring [sel_or, State.inc_inv, State.irq_inv, State.logErr_inv, State.archive_inv, State.setDel_inv]

theorem execTelem_inv (lport : Nat) (pkt : Pkt) (s : State) (h0 : s.Inv) : Result.Inv (exec (.telem lport pkt) s) := by
  show Result.Inv (execTelem lport pkt s)
  unfold execTelem
  simp -zeta -zetaHave only [ite_sel]
  grind -lia -linarith -ring [sel_or, foldl_inv, Result.inv_next, State.inc_inv, State.takeFn_inv, State.countReason_inv, State.judgeRec_inv]

theorem execSegmentTimeout_inv (kind : Nat) (s : State) (h0 : s.Inv) : Result.Inv (exec (.segmentTimeout kind) s) := by
  show Result.Inv (execSegmentTimeout kind s)
  unfold execSegmentTimeout
  grind -lia -linarith -ring [Result.inv_next, State.segClose_inv, State.elapseToTick_inv]

theorem execSegmentComplete_inv (kind next : Nat) (s : State) (h0 : s.Inv) : Result.Inv (exec (.segmentComplete kind next) s) := by
  show Result.Inv (execSegmentComplete kind next s)
  unfold execSegmentComplete
  simp -zeta -zetaHave only [ite_sel]
  grind -lia -linarith -ring [sel_or, Result.inv_next, State.segClose_inv]

theorem execDelGroupSet_inv (h : CmdHdr) (index set rgroup ops flags rawLog2 expect : Nat) (s : State) (h0 : s.Inv) :
    Result.Inv (exec (.delGroupSet h index set rgroup ops flags rawLog2 expect) s) := by
  show Result.Inv (execDelGroupSet h index set rgroup ops flags rawLog2 expect s)
  unfold execDelGroupSet
  simp -zeta -zetaHave only [ite_sel]
  grind -lia -linarith -ring [sel_or, Result.inv_next, State.runCmd_inv, ok_inv, fail_inv, State.setDel_inv]

theorem State.setFrostState_inv (s : State) (v : Nat) (h0 : s.Inv) : (State.setFrostState s v).Inv := by
  unfold State.setFrostState
  grind -lia -linarith -ring [State.setFld_inv]

theorem State.armFrost_inv (s : State) (t mode src : Nat) (h0 : s.Inv) : (State.armFrost s t mode src).Inv := by
  unfold State.armFrost
  grind -lia -linarith -ring [State.wrWide_inv, State.setFld_inv, State.setDel_inv, State.setFrostState_inv]

theorem execFrostArm_inv (h : CmdHdr) (t mode : Nat) (s : State) (h0 : s.Inv) : Result.Inv (exec (.frostArm h t mode) s) := by
  show Result.Inv (execFrostArm h t mode s)
  unfold execFrostArm
  simp -zeta -zetaHave only [ite_sel]
  grind -lia -linarith -ring [sel_or, Result.inv_next, State.runCmd_inv, ok_inv, fail_inv, failOpen_inv, State.armFrost_inv]

theorem execThaw_inv (h : CmdHdr) (tt : Nat) (s : State) (h0 : s.Inv) : Result.Inv (exec (.thaw h tt) s) := by
  show Result.Inv (execThaw h tt s)
  unfold execThaw
  simp -zeta -zetaHave only [ite_sel]
  grind -lia -linarith -ring [sel_or, Result.inv_next, State.wrWide_inv, State.runCmd_inv, ok_inv, fail_inv]

theorem execFrostCancel_inv (h : CmdHdr) (s : State) (h0 : s.Inv) : Result.Inv (exec (.frostCancel h) s) := by
  show Result.Inv (execFrostCancel h s)
  unfold execFrostCancel
  simp -zeta -zetaHave only [ite_sel]
  grind -lia -linarith -ring [sel_or, Result.inv_next, State.wrWide_inv, State.runCmd_inv, ok_inv, State.setFrostState_inv]

theorem execSnapshot_inv (h : CmdHdr) (t : Nat) (s : State) (h0 : s.Inv) : Result.Inv (exec (.snapshot h t) s) := by
  show Result.Inv (execSnapshot h t s)
  unfold execSnapshot
  simp -zeta -zetaHave only [ite_sel]
  grind -lia -linarith -ring [sel_or, Result.inv_next, State.runCmd_inv, ok_inv, fail_inv, failOpen_inv, State.setDel_inv]

theorem execDelSnapRead_inv (h : CmdHdr) (off sel : Nat) (s : State) (h0 : s.Inv) : Result.Inv (exec (.delSnapRead h off sel) s) := by
  show Result.Inv (execDelSnapRead h off sel s)
  unfold execDelSnapRead
  simp -zeta -zetaHave only [ite_sel]
  grind -lia -linarith -ring [sel_or, Result.inv_next, State.runCmd_inv, ok_inv, fail_inv, failOpen_inv]

theorem execFrostInEdge_inv (level : Bool) (edge : Nat) (s : State) (h0 : s.Inv) : Result.Inv (exec (.frostInEdge level edge) s) := by
  show Result.Inv (execFrostInEdge level edge s)
  unfold execFrostInEdge
  simp -zeta -zetaHave only [ite_sel, decide_sel]
  grind -lia -linarith -ring [sel_or, Result.inv_next, State.wrWide_inv, State.setFld_inv, State.addFld_inv, State.elapseToDev_inv,
    State.setDel_inv, State.armFrost_inv]

theorem execFrostInStuck_inv (s : State) (h0 : s.Inv) : Result.Inv (exec .frostInStuck s) := by
  show Result.Inv (execFrostInStuck s)
  unfold execFrostInStuck
  simp -zeta -zetaHave only [ite_sel]
  grind -lia -linarith -ring [sel_or, Result.inv_next, State.setFld_inv, State.irq_inv, State.logErr_inv, State.elapseToTick_inv]

theorem State.latchPage_inv (s : State) (t p : Nat) (h0 : s.Inv) : (State.latchPage s t p).Inv := by
  unfold State.latchPage
  grind -lia -linarith -ring [foldl_inv, State.wrWide_inv, State.setFlag_inv, State.irq_inv, State.setDel_inv]

theorem State.traceFrost_inv (s : State) (code t : Nat) (h0 : s.Inv) : (State.traceFrost s code t).Inv := by
  unfold State.traceFrost
  simp -zeta -zetaHave only [ite_sel]
  grind -lia -linarith -ring [sel_or, State.draw_inv, State.traceFire_inv, State.trace_inv]

theorem State.freeze_inv (s : State) (h0 : s.Inv) : (State.freeze s).Inv := by
  unfold State.freeze
  grind -lia -linarith -ring [State.setDel_inv, State.setFrostState_inv]

theorem State.frostOut_inv (s : State) (h0 : s.Inv) : (State.frostOut s).Inv := by
  unfold State.frostOut
  simp -zeta -zetaHave only [ite_sel]
  grind -lia -linarith -ring [sel_or, State.emit_inv, State.setDel_inv]

theorem State.latch_inv (s : State) (t : Nat) (frost snap stepped : Bool) (h0 : s.Inv) : (State.latch s t frost snap stepped).Inv := by
  unfold State.latch
  simp -zeta -zetaHave only [ite_sel]
  grind -lia -linarith -ring [sel_or, foldl_inv, State.setFld_inv, State.setFlag_inv, State.inc_inv, State.irq_inv, State.setDel_inv,
    State.setFrostState_inv, State.latchPage_inv, State.traceFrost_inv, State.freeze_inv, State.frostOut_inv]

theorem execFrostLatch_inv (s : State) (h0 : s.Inv) : Result.Inv (exec .frostLatch s) := by
  show Result.Inv (execFrostLatch s)
  unfold execFrostLatch
  simp -zeta -zetaHave only [ite_sel, decide_sel]
  grind -lia -linarith -ring [sel_or, Result.inv_next, State.elapseToDev_inv, State.latch_inv]

theorem execFrostOutEnd_inv (s : State) (h0 : s.Inv) : Result.Inv (exec .frostOutEnd s) := by
  show Result.Inv (execFrostOutEnd s)
  unfold execFrostOutEnd
  grind -lia -linarith -ring [Result.inv_next, State.emit_inv, State.elapseToTick_inv, State.setDel_inv]

theorem State.shiftTimers_inv (s : State) (n : Nat) (h0 : s.Inv) : (State.shiftTimers s n).Inv := by
  unfold State.shiftTimers
  grind -lia -linarith -ring [State.Inv_iff, State.Inv, State.setPeat_inv]

theorem State.thaw_inv (s : State) (code : Nat) (h0 : s.Inv) : (State.thaw s code).Inv := by
  unfold State.thaw
  simp -zeta -zetaHave only [ite_sel, decide_sel]
  grind -lia -linarith -ring [sel_or, State.Inv_iff, State.Inv, foldl_inv, State.irq_inv, State.freeCredits_inv, State.setDel_inv,
    State.setFrostState_inv, State.traceFrost_inv, State.shiftTimers_inv]

theorem execThawTime_inv (s : State) (h0 : s.Inv) : Result.Inv (exec .thawTime s) := by
  show Result.Inv (execThawTime s)
  unfold execThawTime
  simp -zeta -zetaHave only [ite_sel]
  grind -lia -linarith -ring [sel_or, Result.inv_next, State.inc_inv, State.elapseToDev_inv, State.thaw_inv]

theorem execAutoThaw_inv (s : State) (h0 : s.Inv) : Result.Inv (exec .autoThaw s) := by
  show Result.Inv (execAutoThaw s)
  unfold execAutoThaw
  simp -zeta -zetaHave only [ite_sel]
  grind -lia -linarith -ring [sel_or, Result.inv_next, State.inc_inv, State.logErr_inv, State.elapseToDev_inv, State.thaw_inv]

theorem execFrostImage_inv (s : State) (h0 : s.Inv) : Result.Inv (exec .frostImage s) := by
  show Result.Inv (execFrostImage s)
  unfold execFrostImage
  grind -lia -linarith -ring [Result.inv_next, State.segClose_inv, State.archive_inv, State.setDel_inv]

theorem State.traceArm_inv (s : State) (h0 : s.Inv) : (State.traceArm s).Inv := by
  unfold State.traceArm
  simp -zeta -zetaHave only [ite_sel]
  grind -lia -linarith -ring [sel_or, State.setFld_inv, State.setTrace_inv]

theorem State.traceTrigger_inv (s : State) (h0 : s.Inv) : (State.traceTrigger s).Inv := by
  unfold State.traceTrigger
  simp -zeta -zetaHave only [ite_sel]
  grind -lia -linarith -ring [sel_or, State.draw_inv, State.traceFire_inv]

theorem State.traceMark_inv (s : State) (mark : Nat) (h0 : s.Inv) : (State.traceMark s mark).Inv := by
  unfold State.traceMark
  grind -lia -linarith -ring [State.trace_inv]

theorem State.traceCtrlWrite_inv (s : State) (v : Nat) (h0 : s.Inv) : (State.traceCtrlWrite s v).Inv := by
  unfold State.traceCtrlWrite
  simp -zeta -zetaHave only [ite_sel]
  grind -lia -linarith -ring [sel_or, State.wr_inv, State.traceArm_inv, State.traceTrigger_inv]

theorem execTraceArm_inv (s : State) (h0 : s.Inv) : Result.Inv (exec .traceArm s) := by
  show Result.Inv (execTraceArm s)
  unfold execTraceArm
  grind -lia -linarith -ring [Result.inv_next, State.onPage_inv, State.traceArm_inv]

theorem execTraceTrigger_inv (s : State) (h0 : s.Inv) : Result.Inv (exec .traceTrigger s) := by
  show Result.Inv (execTraceTrigger s)
  unfold execTraceTrigger
  grind -lia -linarith -ring [Result.inv_next, State.onPage_inv, State.traceTrigger_inv]

theorem execTraceMark_inv (mark : Nat) (s : State) (h0 : s.Inv) : Result.Inv (exec (.traceMark mark) s) := by
  show Result.Inv (execTraceMark mark s)
  unfold execTraceMark
  grind -lia -linarith -ring [Result.inv_next, State.onPage_inv, State.traceMark_inv]

theorem execTraceCaptureEnd_inv (s : State) (h0 : s.Inv) : Result.Inv (exec .traceCaptureEnd s) := by
  show Result.Inv (execTraceCaptureEnd s)
  unfold execTraceCaptureEnd
  simp -zeta -zetaHave only [ite_sel, decide_sel]
  grind -lia -linarith -ring [sel_or, Result.inv_next, State.traceEnd_inv]

theorem execDelCntClear_inv (s : State) (h0 : s.Inv) : Result.Inv (exec .delCntClear s) := by
  show Result.Inv (execDelCntClear s)
  unfold execDelCntClear
  grind -lia -linarith -ring [Result.inv_next, State.clearCnts_inv, State.onPage_inv]

theorem execDelFrostCntClear_inv (s : State) (h0 : s.Inv) : Result.Inv (exec .delFrostCntClear s) := by
  show Result.Inv (execDelFrostCntClear s)
  unfold execDelFrostCntClear
  grind -lia -linarith -ring [Result.inv_next, State.clearCnts_inv, State.onPage_inv]

/-! ### The operations of Machine/BcastCore.lean -/

theorem State.setCfg_inv (s : State) (f : CfgSt → CfgSt) (h0 : s.Inv) : (State.setCfg s f).Inv := by
  unfold State.setCfg
  grind -lia -linarith -ring [State.Inv_iff, State.Inv]

theorem State.setBcast_inv (s : State) (b : Bcast) (h0 : s.Inv) : (State.setBcast s b).Inv := by
  unfold State.setBcast
  simp -zeta -zetaHave only [ite_sel]
  grind -lia -linarith -ring [sel_or, State.setCfg_inv]

theorem State.dropBcast_inv (s : State) (b : Bcast) (h0 : s.Inv) : (State.dropBcast s b).Inv := by
  unfold State.dropBcast
  grind -lia -linarith -ring [State.setCfg_inv]

theorem State.bcastSettle_inv (s : State) (b : Bcast) (h0 : s.Inv) : (State.bcastSettle s b).Inv := by
  unfold State.bcastSettle
  simp -zeta -zetaHave only [ite_sel]
  grind -lia -linarith -ring [sel_or, State.complete_inv, State.replicate_inv, State.setBcast_inv, State.dropBcast_inv]

theorem State.bcastFences_inv (s : State) (h0 : s.Inv) : (State.bcastFences s).Inv := by
  unfold State.bcastFences
  grind -lia -linarith -ring [foldl_inv, State.bcastSettle_inv]

/-! ### The operations of Machine/Baro.lean -/

theorem State.setBaro_inv (s : State) (f : BaroSt → BaroSt) (h0 : s.Inv) : (State.setBaro s f).Inv := by
  unfold State.setBaro
  grind -lia -linarith -ring [State.Inv_iff, State.Inv]

theorem State.scoreZero_inv (s : State) (o : Nat) (h0 : s.Inv) : (State.scoreZero s o).Inv := by
  unfold State.scoreZero
  grind -lia -linarith -ring [State.setBaro_inv]

theorem State.squall_inv (s : State) (src code o score aux1 aux2 : Nat) (h0 : s.Inv) : (State.squall s src code o score aux1 aux2).Inv := by
  unfold State.squall
  simp -zeta -zetaHave only [ite_sel, decide_sel]
  grind -lia -linarith -ring [sel_or, State.inc_inv, State.emit_inv, State.post_inv, State.trace_inv, State.setBaro_inv]

theorem State.squallOf_inv (s : State) (code o aux1 aux2 : Nat) (h0 : s.Inv) : (State.squallOf s code o aux1 aux2).Inv := by
  unfold State.squallOf
  grind -lia -linarith -ring [State.squall_inv]

theorem State.fenceNotice_inv (s : State) (kind reason o group : Nat) (h0 : s.Inv) : (State.fenceNotice s kind reason o group).Inv := by
  unfold State.fenceNotice
  simp -zeta -zetaHave only [ite_sel]
  grind -lia -linarith -ring [sel_or, State.fnSend_inv, State.replicate_inv]

theorem State.sendRelayed_inv (s : State) (p : Pkt) (h0 : s.Inv) : (State.sendRelayed s p).Inv := by
  unfold State.sendRelayed
  grind -lia -linarith -ring [State.draw_inv, State.originate_inv]

theorem State.sendPeer_inv (s : State) (m : PeerMsg) (h0 : s.Inv) : (State.sendPeer s m).Inv := by
  unfold State.sendPeer
  grind -lia -linarith -ring [State.sendRelayed_inv]

theorem State.tellPeers_inv (s : State) (kind reason o : Nat) (h0 : s.Inv) : (State.tellPeers s kind reason o).Inv := by
  unfold State.tellPeers
  simp -zeta -zetaHave only [ite_sel]
  grind -lia -linarith -ring [sel_or, foldl_inv, State.setBaro_inv, State.sendPeer_inv]

theorem State.drainPort_inv (s : State) (lp : Nat) (b : Bool) (h0 : s.Inv) : (State.drainPort s lp b).Inv := by
  unfold State.drainPort
  simp -zeta -zetaHave only [ite_sel]
  grind -lia -linarith -ring [sel_or, State.setFlag_inv]

theorem State.fenceCommit_inv (s : State) (f : Tbl Nat → Tbl Nat) (h0 : s.Inv) : (State.fenceCommit s f).Inv := by
  unfold State.fenceCommit
  grind -lia -linarith -ring [State.Inv_iff, State.Inv, State.setFld_inv, State.elapseToTick_inv, State.fenFences_inv, State.bcastFences_inv]

theorem State.addFence_inv (s : State) (k o reason : Nat) (origin : Option Nat) (group : Nat) (h0 : s.Inv) :
    (State.addFence s k o reason origin group).Inv := by
  unfold State.addFence
  simp -zeta -zetaHave only [ite_sel]
  grind -lia -linarith -ring [sel_or, State.inc_inv, State.setBaro_inv, State.squallOf_inv, State.fenceNotice_inv, State.drainPort_inv, State.fenceCommit_inv]

theorem State.removeFence_inv (s : State) (k o reason group : Nat) (h0 : s.Inv) : (State.removeFence s k o reason group).Inv := by
  unfold State.removeFence
  simp -zeta -zetaHave only [ite_sel]
  grind -lia -linarith -ring [sel_or, State.inc_inv, State.setBaro_inv, State.squallOf_inv, State.fenceNotice_inv, State.drainPort_inv, State.fenceCommit_inv]

theorem State.listFull_inv (s : State) (h0 : s.Inv) : (State.listFull s).Inv := by
  unfold State.listFull
  grind -lia -linarith -ring [State.inc_inv, State.irq_inv, State.logErr_inv]

theorem State.storm_inv (s : State) (o : Nat) (h0 : s.Inv) : (State.storm s o).Inv := by
  unfold State.storm
  grind -lia -linarith -ring [State.inc_inv, State.irq_inv, State.setBaro_inv, State.squallOf_inv]

theorem State.holdObj_inv (s : State) (o : Nat) (h0 : s.Inv) : (State.holdObj s o).2.Inv := by
  unfold State.holdObj
  simp -zeta -zetaHave only [ite_sel]
  grind -lia -linarith -ring [sel_or, State.inc_inv, State.setBaro_inv, State.storm_inv]

theorem State.recommend_inv (s : State) (o reason : Nat) (h0 : s.Inv) : (State.recommend s o reason).Inv := by
  unfold State.recommend
  simp -zeta -zetaHave only [ite_sel]
  grind -lia -linarith -ring [sel_or, State.inc_inv, State.irq_inv, State.setBaro_inv, State.squallOf_inv, State.listFull_inv, State.storm_inv,
    State.holdObj_inv]

theorem execFenceCommit_inv (s : State) (h0 : s.Inv) : Result.Inv (exec .fenceCommit s) := by
  show Result.Inv (execFenceCommit s)
  unfold execFenceCommit
  simp -zeta -zetaHave only [ite_sel]
  grind -lia -linarith -ring [sel_or, Result.inv_next, State.setBaro_inv, State.tellPeers_inv, State.addFence_inv, State.listFull_inv, State.holdObj_inv]

theorem State.scoreStep_inv (s : State) (t : Tbl Nat) (o : Nat) (h0 : s.Inv) : (State.scoreStep s t o).2.Inv := by
  unfold State.scoreStep
  simp -zeta -zetaHave only [ite_sel]
  grind -lia -linarith -ring [sel_or, State.setBaro_inv]

theorem State.watchStep_inv (s : State) (o : Nat) (h0 : s.Inv) : (State.watchStep s o).2.Inv := by
  unfold State.watchStep
  simp -zeta -zetaHave only [ite_sel]
  grind -lia -linarith -ring [sel_or, State.setBaro_inv, State.squallOf_inv]

theorem State.scoreAll_inv (s : State) (t : Tbl Nat) (objs : List Nat) (h0 : s.Inv) : (State.scoreAll s t objs).2.Inv := by
  unfold State.scoreAll
  grind -lia -linarith -ring [foldl_snd_inv, State.scoreStep_inv]

theorem State.watchAll_inv (s : State) (objs : List Nat) (h0 : s.Inv) : (State.watchAll s objs).2.Inv := by
  unfold State.watchAll
  simp -zeta -zetaHave only [ite_sel]
  grind -lia -linarith -ring [sel_or, foldl_snd_inv, State.watchStep_inv]

theorem State.fenceAction_inv (s : State) (o reason : Nat) (h0 : s.Inv) : (State.fenceAction s o reason).Inv := by
  unfold State.fenceAction
  simp -zeta -zetaHave only [ite_sel]
  grind -lia -linarith -ring [sel_or, State.baroStep_inv, State.scoreZero_inv, State.squall_inv, State.squallOf_inv, State.recommend_inv]

theorem State.blame_inv (s : State) (parent : Nat) (fresh out : List Nat) (h0 : s.Inv) : (State.blame s parent fresh out).2.Inv := by
  unfold State.blame
  simp -zeta -zetaHave only [ite_sel, decide_sel]
  grind -lia -linarith -ring [sel_or, foldl_inv, State.inc_inv, State.setBaro_inv, State.squallOf_inv, State.watchStep_inv, State.fenceAction_inv]

theorem State.blameKind_inv (s : State) (kind : Nat) (fresh out : List Nat) (h0 : s.Inv) : (State.blameKind s kind fresh out).2.Inv := by
  unfold State.blameKind
  simp -zeta -zetaHave only [ite_sel, decide_sel]
  grind -lia -linarith -ring [sel_or, foldl_snd_inv, State.blame_inv]

theorem State.crossings_inv (s : State) (objs : List Nat) (h0 : s.Inv) : (State.crossings s objs).Inv := by
  unfold State.crossings
  simp -zeta -zetaHave only [ite_sel, decide_sel]
  grind -lia -linarith -ring [sel_or, foldl_inv, State.setBaro_inv, State.fenceAction_inv]

theorem State.heldStep_inv (s : State) (h0 : s.Inv) : (State.heldStep s).Inv := by
  unfold State.heldStep
  simp -zeta -zetaHave only [ite_sel, decide_sel]
  grind -lia -linarith -ring [sel_or, foldl_inv, State.setBaro_inv, State.squallOf_inv]

theorem State.levelStep_inv (s : State) (c : Closed) (h0 : s.Inv) : (State.levelStep s c).Inv := by
  unfold State.levelStep
  simp -zeta -zetaHave only [ite_sel]
  grind -lia -linarith -ring [sel_or, foldl_inv, State.setBaro_inv, State.squall_inv]

theorem execBaroEvaluation_inv (s : State) (h0 : s.Inv) : Result.Inv (exec .baroEvaluation s) := by
  show Result.Inv (execBaroEvaluation s)
  unfold execBaroEvaluation
  split
  · exact Result.inv_next.2 h0
  · refine Result.inv_next.2 (State.levelStep_inv _ _ (State.heldStep_inv _ (State.crossings_inv _ _ (State.blameKind_inv _ _ _ _ (State.blameKind_inv _ _ _ _
      (State.blameKind_inv _ _ _ _ (State.blameKind_inv _ _ _ _ (State.watchAll_inv _ _ ?_))))))))
    exact foldl_inv _ (fun _ _ h => State.squall_inv _ _ _ _ _ _ _ h) _ _ (foldl_inv _ (fun _ _ h => State.squall_inv _ _ _ _ _ _ _ h) _ _
      (State.scoreAll_inv _ _ _ (State.inc_inv _ _ (State.setBaro_inv _ _ h0))))

theorem execShieldEnd_inv (obj : Nat) (s : State) (h0 : s.Inv) : Result.Inv (exec (.shieldEnd obj) s) := by
  show Result.Inv (execShieldEnd obj s)
  unfold execShieldEnd
  grind -lia -linarith -ring [Result.inv_next, State.elapseToTick_inv, State.setBaro_inv, State.watchStep_inv, State.crossings_inv]

theorem execPeerFenceResend_inv (dst seq : Nat) (s : State) (h0 : s.Inv) : Result.Inv (exec (.peerFenceResend dst seq) s) := by
  show Result.Inv (execPeerFenceResend dst seq s)
  unfold execPeerFenceResend
  simp -zeta -zetaHave only [ite_sel]
  grind -lia -linarith -ring [sel_or, Result.inv_next, State.irq_inv, State.logErr_inv, State.elapseToTick_inv, State.setBaro_inv, State.sendPeer_inv]

theorem State.fenceRx_inv (s : State) (lp : Nat) (p : Pkt) (kind : Nat) (f : Nat → Nat → State → State) (h0 : s.Inv) (h1 : ∀ i j x, x.Inv → (f i j x).Inv) :
    (State.fenceRx s lp p kind f).Inv := by
  unfold State.fenceRx
  simp -zeta -zetaHave only [ite_sel]
  grind -lia -linarith -ring [sel_or, State.inc_inv, State.takeFn_inv]

theorem State.fenceAck_inv (s : State) (lp : Nat) (p : Pkt) (seq : Nat) (h0 : s.Inv) : (State.fenceAck s lp p seq).Inv := by
  unfold State.fenceAck
  grind -lia -linarith -ring [State.originate_inv]

theorem State.peerRx_inv (s : State) (lp : Nat) (p : Pkt) (kind : Nat) (act : Nat → Nat → State → State) (h0 : s.Inv)
    (h1 : ∀ i j x, x.Inv → (act i j x).Inv) :
    (State.peerRx s lp p kind act).Inv := by
  unfold State.peerRx
  refine State.fenceRx_inv _ _ _ _ _ h0 fun origin seq s h => State.fenceAck_inv _ _ _ _ (State.ite_inv ?_ h)
  dsimp only
  split
  · exact h1 _ _ _ (State.setBaro_inv _ _ h)
  · exact State.setBaro_inv _ _ h

theorem execPeerFenceRx_inv (lport : Nat) (pkt : Pkt) (s : State) (h0 : s.Inv) : Result.Inv (exec (.peerFenceRx lport pkt) s) := by
  show Result.Inv (execPeerFenceRx lport pkt s)
  unfold execPeerFenceRx
  simp -zeta -zetaHave only [ite_sel]
  grind -lia -linarith -ring [sel_or, Result.inv_next, State.inc_inv, State.addFence_inv, State.listFull_inv, State.peerRx_inv]

theorem execPeerUnfenceRx_inv (lport : Nat) (pkt : Pkt) (s : State) (h0 : s.Inv) : Result.Inv (exec (.peerUnfenceRx lport pkt) s) := by
  show Result.Inv (execPeerUnfenceRx lport pkt s)
  unfold execPeerUnfenceRx
  simp -zeta -zetaHave only [ite_sel]
  grind -lia -linarith -ring [sel_or, Result.inv_next, State.removeFence_inv, State.peerRx_inv]

theorem execFenceAckRx_inv (lport : Nat) (pkt : Pkt) (s : State) (h0 : s.Inv) : Result.Inv (exec (.fenceAckRx lport pkt) s) := by
  show Result.Inv (execFenceAckRx lport pkt s)
  unfold execFenceAckRx
  grind -lia -linarith -ring [Result.inv_next, State.setBaro_inv, State.fenceRx_inv]

theorem execFenceCopyUe_inv (s : State) (h0 : s.Inv) : Result.Inv (exec .fenceCopyUe s) := by
  show Result.Inv (execFenceCopyUe s)
  unfold execFenceCopyUe
  grind -lia -linarith -ring [Result.inv_next, State.draw_inv, State.logErr_inv, State.setBaro_inv]

theorem execFenceAdd_inv (h : CmdHdr) (obj key prop group : Nat) (s : State) (h0 : s.Inv) : Result.Inv (exec (.fenceAdd h obj key prop group) s) := by
  show Result.Inv (execFenceAdd h obj key prop group s)
  unfold execFenceAdd
  simp -zeta -zetaHave only [ite_sel]
  grind -lia -linarith -ring [sel_or, Result.inv_next, State.runCmd_inv, ok_inv, fail_inv, State.tellPeers_inv, State.addFence_inv]

theorem execFenceClear_inv (h : CmdHdr) (obj key prop : Nat) (s : State) (h0 : s.Inv) : Result.Inv (exec (.fenceClear h obj key prop) s) := by
  show Result.Inv (execFenceClear h obj key prop s)
  unfold execFenceClear
  simp -zeta -zetaHave only [ite_sel]
  grind -lia -linarith -ring [sel_or, foldl_inv, Result.inv_next, State.runCmd_inv, ok_inv, fail_inv, State.setBaro_inv, State.scoreZero_inv,
    State.tellPeers_inv, State.removeFence_inv]

theorem execFenceRead_inv (h : CmdHdr) (index : Nat) (s : State) (h0 : s.Inv) : Result.Inv (exec (.fenceRead h index) s) := by
  show Result.Inv (execFenceRead h index s)
  unfold execFenceRead
  simp -zeta -zetaHave only [ite_sel]
  grind -lia -linarith -ring [sel_or, Result.inv_next, State.runCmd_inv, ok_inv, fail_inv]

theorem execHoldClear_inv (h : CmdHdr) (obj : Nat) (s : State) (h0 : s.Inv) : Result.Inv (exec (.holdClear h obj) s) := by
  show Result.Inv (execHoldClear h obj s)
  unfold execHoldClear
  simp -zeta -zetaHave only [ite_sel]
  grind -lia -linarith -ring [sel_or, Result.inv_next, State.runCmd_inv, ok_inv, fail_inv, State.setBaro_inv, State.scoreZero_inv, State.squallOf_inv]

theorem execScoreRead_inv (h : CmdHdr) (obj : Nat) (s : State) (h0 : s.Inv) : Result.Inv (exec (.scoreRead h obj) s) := by
  show Result.Inv (execScoreRead h obj s)
  unfold execScoreRead
  simp -zeta -zetaHave only [ite_sel]
  grind -lia -linarith -ring [sel_or, Result.inv_next, State.runCmd_inv, ok_inv, fail_inv]

theorem execScoreReset_inv (h : CmdHdr) (obj : Nat) (s : State) (h0 : s.Inv) : Result.Inv (exec (.scoreReset h obj) s) := by
  show Result.Inv (execScoreReset h obj s)
  unfold execScoreReset
  simp -zeta -zetaHave only [ite_sel]
  grind -lia -linarith -ring [sel_or, Result.inv_next, State.runCmd_inv, ok_inv, fail_inv, State.scoreZero_inv]

theorem execBaroCntClear_inv (s : State) (h0 : s.Inv) : Result.Inv (exec .baroCntClear s) := by
  show Result.Inv (execBaroCntClear s)
  unfold execBaroCntClear
  grind -lia -linarith -ring [Result.inv_next, State.clearCnts_inv, State.onPage_inv]

/-! ### The operations of Machine/Chk.lean -/

theorem State.dropTest_inv (s : State) (u : Nat) (h0 : s.Inv) : (State.dropTest s u).Inv := by
  unfold State.dropTest
  grind -lia -linarith -ring [State.Inv_iff, State.Inv]

theorem State.standIn_inv (s : State) (u : Nat) (h0 : s.Inv) : (State.standIn s u).Inv := by
  unfold State.standIn
  grind -lia -linarith -ring [State.setSpare_inv, State.handover_inv, State.setRow_inv, State.setCore_inv, State.setSpareFor_inv]

theorem State.putTest_inv (s : State) (t : IftTest) (h0 : s.Inv) : (State.putTest s t).Inv := by
  unfold State.putTest
  grind -lia -linarith -ring [State.Inv_iff, State.Inv, State.dropTest_inv]

theorem State.startIft_inv (s : State) (u : Nat) (h : Option CmdHdr) (ret : Bool) (h0 : s.Inv) : (State.startIft s u h ret).Inv := by
  unfold State.startIft
  simp -zeta -zetaHave only [ite_sel]
  grind -lia -linarith -ring [sel_or, State.inc_inv, State.setSpare_inv, State.standIn_inv, State.putTest_inv]

theorem execIftRun_inv (h : CmdHdr) (unit : Nat) (s : State) (h0 : s.Inv) : Result.Inv (exec (.iftRun h unit) s) := by
  show Result.Inv (execIftRun h unit s)
  unfold execIftRun
  simp -zeta -zetaHave only [ite_sel]
  grind -lia -linarith -ring [sel_or, Result.inv_next, State.runCmd_inv, fail_inv, State.startIft_inv]

theorem execChkReturn_inv (h : CmdHdr) (unit : Nat) (s : State) (h0 : s.Inv) : Result.Inv (exec (.chkReturn h unit) s) := by
  show Result.Inv (execChkReturn h unit s)
  unfold execChkReturn
  simp -zeta -zetaHave only [ite_sel]
  grind -lia -linarith -ring [sel_or, Result.inv_next, State.inc_inv, State.runCmd_inv, fail_inv, failOpen_inv, State.putTest_inv]

theorem execIftSchedule_inv (unit : Nat) (s : State) (h0 : s.Inv) : Result.Inv (exec (.iftSchedule unit) s) := by
  show Result.Inv (execIftSchedule unit s)
  unfold execIftSchedule
  simp -zeta -zetaHave only [ite_sel]
  grind -lia -linarith -ring [sel_or, Result.inv_next, State.startIft_inv]

theorem execIftWaitExpiry_inv (unit : Nat) (s : State) (h0 : s.Inv) : Result.Inv (exec (.iftWaitExpiry unit) s) := by
  show Result.Inv (execIftWaitExpiry unit s)
  unfold execIftWaitExpiry
  simp -zeta -zetaHave only [ite_sel]
  grind -lia -linarith -ring [sel_or, Result.inv_next, State.inc_inv, State.logErr_inv, State.elapseToTick_inv, State.timeShare_inv, State.putTest_inv]

theorem State.testPassed_inv (s : State) (t : IftTest) (h0 : s.Inv) : (State.testPassed s t).Inv := by
  unfold State.testPassed
  simp -zeta -zetaHave only [ite_sel]
  grind -lia -linarith -ring [sel_or, State.setSpare_inv, State.handover_inv, State.setRow_inv, State.setCore_inv, State.setSpareFor_inv]

theorem State.testFailed_inv (s : State) (t : IftTest) (h0 : s.Inv) : (State.testFailed s t).Inv := by
  unfold State.testFailed
  simp -zeta -zetaHave only [ite_sel]
  grind -lia -linarith -ring [sel_or, State.inc_inv, State.irq_inv, State.logErr_inv, State.charge_inv, State.setSpare_inv, State.setStep_inv,
    State.setPending_inv, State.substituted_inv, State.setRow_inv, State.setFailed_inv, State.retireCore_inv, State.squallOf_inv]

theorem State.returned_inv (s : State) (u : Nat) (h0 : s.Inv) : (State.returned s u).Inv := by
  unfold State.returned
  simp -zeta -zetaHave only [ite_sel]
  grind -lia -linarith -ring [sel_or, State.Inv_iff, State.Inv, State.setFlag_inv, State.setSpare_inv, State.outOfWork_inv, State.setStep_inv,
    State.setPending_inv, State.endSharing_inv, State.setRow_inv, State.retireMac_inv, State.setCore_inv, State.setFailed_inv, State.setSpareFor_inv]

theorem execIftComplete_inv (unit : Nat) (pass : Bool) (s : State) (h0 : s.Inv) : Result.Inv (exec (.iftComplete unit pass) s) := by
  show Result.Inv (execIftComplete unit pass s)
  unfold execIftComplete
  simp -zeta -zetaHave only [ite_sel]
  grind -lia -linarith -ring [sel_or, Result.inv_next, State.complete_inv, State.elapseToTick_inv, State.iftResult_inv, State.endSharing_inv,
    State.dropTest_inv, State.testPassed_inv, State.testFailed_inv, State.returned_inv]

theorem execHandoverDrained_inv (n : Nat) (s : State) (h0 : s.Inv) : Result.Inv (exec (.handoverDrained n) s) := by
  show Result.Inv (execHandoverDrained n s)
  unfold execHandoverDrained
  simp -zeta -zetaHave only [ite_sel]
  grind -lia -linarith -ring [sel_or, Result.inv_next, State.leaveWork_inv, State.setTest_inv, State.endSharing_inv]

theorem execChkMargin_inv (h : CmdHdr) (unit step : Nat) (s : State) (h0 : s.Inv) : Result.Inv (exec (.chkMargin h unit step) s) := by
  show Result.Inv (execChkMargin h unit step s)
  unfold execChkMargin
  simp -zeta -zetaHave only [ite_sel]
  grind -lia -linarith -ring [sel_or, Result.inv_next, State.inc_inv, State.runCmd_inv, ok_inv, fail_inv, State.setStep_inv, State.setPending_inv]

theorem execPendingSubstitution_inv (unit : Nat) (s : State) (h0 : s.Inv) : Result.Inv (exec (.pendingSubstitution unit) s) := by
  show Result.Inv (execPendingSubstitution unit s)
  unfold execPendingSubstitution
  simp -zeta -zetaHave only [ite_sel]
  grind -lia -linarith -ring [sel_or, Result.inv_next, State.retireUnit_inv]

theorem execMacTileUe_inv (row col : Nat) (s : State) (h0 : s.Inv) : Result.Inv (exec (.macTileUe row col) s) := by
  show Result.Inv (execMacTileUe row col s)
  unfold execMacTileUe
  simp -zeta -zetaHave only [ite_sel]
  grind -lia -linarith -ring [sel_or, State.Inv_iff, State.Inv, Result.inv_next, State.setFlag_inv, State.charge_inv, State.retireMac_inv]

theorem State.setReload_inv (s : State) (t : Nat) (h0 : s.Inv) : (State.setReload s t).Inv := by
  unfold State.setReload
  grind -lia -linarith -ring [State.Inv_iff, State.Inv]

theorem execErganMemError_inv (core : Option Nat) (chan : Nat) (s : State) (h0 : s.Inv) : Result.Inv (exec (.erganMemError core chan) s) := by
  show Result.Inv (execErganMemError core chan s)
  unfold execErganMemError
  grind -lia -linarith -ring [Result.inv_next, State.draw_inv, State.logErr_inv, State.charge_inv, State.beatSeen_inv, State.retireCore_inv,
    State.setReload_inv]

theorem execChkCntClear_inv (s : State) (h0 : s.Inv) : Result.Inv (exec .chkCntClear s) := by
  show Result.Inv (execChkCntClear s)
  unfold execChkCntClear
  grind -lia -linarith -ring [Result.inv_next, State.clearCnts_inv, State.onPage_inv]

/-! ### The operations of Machine/Pmc.lean -/

theorem State.setPmc_inv (s : State) (f : PmcSt → PmcSt) (h0 : s.Inv) : (State.setPmc s f).Inv := by
  unfold State.setPmc
  grind -lia -linarith -ring [State.Inv_iff, State.Inv]

theorem State.slotCfgWrite_inv (s : State) (k v : Nat) (h0 : s.Inv) : (State.slotCfgWrite s k v).Inv := by
  have h1 : State.Inv { s with cnts := Tbl.del s.cnts (Cnt.PMC_SLOT_CNT k) } := ⟨h0.1, countersWf_del h0.2.1 _, h0.2.2⟩
  exact State.ite_inv (State.wrWide_inv _ _ _ _ h1) (State.logErr_inv _ _ _ _ _ (State.irq_inv _ _ _ (State.setFlag_inv _ _ _ _ h0)))

theorem execPmcSlotCfgWrite_inv (slot value : Nat) (s : State) (h0 : s.Inv) : Result.Inv (exec (.pmcSlotCfgWrite slot value) s) := by
  show Result.Inv (execPmcSlotCfgWrite slot value s)
  unfold execPmcSlotCfgWrite
  grind -lia -linarith -ring [Result.inv_next, State.onPage_inv, State.slotCfgWrite_inv]

theorem State.pmcCtrlWrite_inv (s : State) (v : Nat) (h0 : s.Inv) : (State.pmcCtrlWrite s v).Inv := by
  unfold State.pmcCtrlWrite
  simp -zeta -zetaHave only [ite_sel]
  grind -lia -linarith -ring [sel_or, State.setFld_inv, State.clearCnts_inv, State.setPmc_inv]

theorem execTagSeedLoad_inv (value : Nat) (s : State) (h0 : s.Inv) : Result.Inv (exec (.tagSeedLoad value) s) := by
  show Result.Inv (execTagSeedLoad value s)
  unfold execTagSeedLoad
  grind -lia -linarith -ring [Result.inv_next, State.onPage_inv, State.pmcCtrlWrite_inv]

theorem execPmcCntClear_inv (seed : Nat) (s : State) (h0 : s.Inv) : Result.Inv (exec (.pmcCntClear seed) s) := by
  show Result.Inv (execPmcCntClear seed s)
  unfold execPmcCntClear
  grind -lia -linarith -ring [Result.inv_next, State.onPage_inv, State.pmcCtrlWrite_inv]

theorem execPmcTagCopy_inv (h : CmdHdr) (off count : Nat) (s : State) (h0 : s.Inv) : Result.Inv (exec (.pmcTagCopy h off count) s) := by
  show Result.Inv (execPmcTagCopy h off count s)
  unfold execPmcTagCopy
  simp -zeta -zetaHave only [ite_sel]
  grind -lia -linarith -ring [sel_or, Result.inv_next, State.runCmd_inv, ok_inv, failOpen_inv, State.regionWrite_inv, State.setPmc_inv]

theorem State.addEdges_inv (s : State) (es : List (Nat × Nat × Nat)) (h0 : s.Inv) : (State.addEdges s es).Inv := by
  unfold State.addEdges
  simp -zeta -zetaHave only [ite_sel]
  grind -lia -linarith -ring [sel_or, foldl_inv, State.setPmc_inv]

theorem State.mireReport_inv (s : State) (h0 : s.Inv) : (State.mireReport s).Inv := by
  unfold State.mireReport
  simp -zeta -zetaHave only [ite_sel]
  grind -lia -linarith -ring [sel_or, foldl_inv, State.sendRelayed_inv, State.addEdges_inv]

theorem State.mireClose_inv (s : State) (h0 : s.Inv) : (State.mireClose s).Inv := by
  unfold State.mireClose
  grind -lia -linarith -ring [foldl_inv, State.inc_inv, State.irq_inv, State.logErr_inv, State.setPmc_inv]

theorem State.mireNext_inv (s : State) (k : Nat) (h0 : s.Inv) : (State.mireNext s k).Inv := by
  unfold State.mireNext
  simp -zeta -zetaHave only [ite_sel]
  grind -lia -linarith -ring [sel_or, State.setPmc_inv, State.mireReport_inv, State.mireClose_inv]

theorem execMirePeriod_inv (s : State) (h0 : s.Inv) : Result.Inv (exec .mirePeriod s) := by
  show Result.Inv (execMirePeriod s)
  unfold execMirePeriod
  simp -zeta -zetaHave only [ite_sel]
  grind -lia -linarith -ring [sel_or, Result.inv_next, State.elapseToDev_inv, State.mireNext_inv]

theorem execMireRound_inv (h : CmdHdr) (s : State) (h0 : s.Inv) : Result.Inv (exec (.mireRound h) s) := by
  show Result.Inv (execMireRound h s)
  unfold execMireRound
  grind -lia -linarith -ring [Result.inv_next, State.runCmd_inv, ok_inv, State.mireNext_inv]

theorem execMireEdgesRx_inv (lport : Nat) (pkt : Pkt) (s : State) (h0 : s.Inv) : Result.Inv (exec (.mireEdgesRx lport pkt) s) := by
  show Result.Inv (execMireEdgesRx lport pkt s)
  unfold execMireEdgesRx
  simp -zeta -zetaHave only [ite_sel, decide_sel]
  grind -lia -linarith -ring [sel_or, Result.inv_next, State.inc_inv, State.takeFn_inv, State.addEdges_inv]

theorem execMireRead_inv (h : CmdHdr) (off maxLen : Nat) (s : State) (h0 : s.Inv) : Result.Inv (exec (.mireRead h off maxLen) s) := by
  show Result.Inv (execMireRead h off maxLen s)
  unfold execMireRead
  simp -zeta -zetaHave only [ite_sel]
  grind -lia -linarith -ring [sel_or, Result.inv_next, State.runCmd_inv, ok_inv, fail_inv, failOpen_inv, State.regionWrite_inv]

theorem execCreditBlockTimer_inv (lport cls : Nat) (s : State) (h0 : s.Inv) : Result.Inv (exec (.creditBlockTimer lport cls) s) := by
  show Result.Inv (execCreditBlockTimer lport cls s)
  unfold execCreditBlockTimer
  grind -lia -linarith -ring [Result.inv_next, State.blockNote_inv, State.elapseToTick_inv, State.setPmc_inv]

/-! ### The operations of Machine/Bcast.lean -/

theorem State.releaseBlock_inv (s : State) (group gen i : Nat) (bytes : List Byte) (bad : List Nat) (h0 : s.Inv) :
    (State.releaseBlock s group gen i bytes bad).2.Inv := by
  unfold State.releaseBlock
  grind -lia -linarith -ring [foldl_inv, State.replicate_inv, State.fenSeq_inv]

theorem execBcastStart_inv (h : CmdHdr) (off len group : Nat) (alts ue : List Nat) (s : State) (h0 : s.Inv) :
    Result.Inv (exec (.bcastStart h off len group alts ue) s) := by
  show Result.Inv (execBcastStart h off len group alts ue s)
  unfold execBcastStart
  simp -zeta -zetaHave only [ite_sel]
  grind -lia -linarith -ring [sel_or, foldl_snd_inv, Result.inv_next, State.runCmd_inv, fail_inv, failOpen_inv, State.setCfg_inv,
    State.bcastSettle_inv, State.releaseBlock_inv]

theorem execBcastAbort_inv (h : CmdHdr) (group : Nat) (s : State) (h0 : s.Inv) : Result.Inv (exec (.bcastAbort h group) s) := by
  show Result.Inv (execBcastAbort h group s)
  unfold execBcastAbort
  grind -lia -linarith -ring [Result.inv_next, State.complete_inv, State.runCmd_inv, ok_inv, failOpen_inv, State.dropBcast_inv]

theorem execBcastAck_inv (lport : Nat) (pkt : Pkt) (s : State) (h0 : s.Inv) : Result.Inv (exec (.bcastAck lport pkt) s) := by
  show Result.Inv (execBcastAck lport pkt s)
  unfold execBcastAck
  simp -zeta -zetaHave only [ite_sel, decide_sel]
  grind -lia -linarith -ring [sel_or, Result.inv_next, State.inc_inv, State.takeFn_inv, State.bcastSettle_inv]

theorem State.relayBlock_inv (s : State) (b : Bcast) (member k alt : Nat) (h0 : s.Inv) : (State.relayBlock s b member k alt).Inv := by
  unfold State.relayBlock
  simp -zeta -zetaHave only [decide_sel]
  grind -lia -linarith -ring [sel_or, foldl_inv, State.sendRelayed_inv]

theorem State.sendAlone_inv (s : State) (feid : Nat) (ps : List Pkt) (h0 : s.Inv) : (State.sendAlone s feid ps).Inv := by
  unfold State.sendAlone
  simp -zeta -zetaHave only [ite_sel]
  grind -lia -linarith -ring [sel_or, foldl_inv, State.fnSend_inv]

theorem execBcastBlockDeadline_inv (group member block : Nat) (s : State) (h0 : s.Inv) :
    Result.Inv (exec (.bcastBlockDeadline group member block) s) := by
  show Result.Inv (execBcastBlockDeadline group member block s)
  unfold execBcastBlockDeadline
  simp -zeta -zetaHave only [ite_sel]
  grind -lia -linarith -ring [sel_or, Result.inv_next, State.inc_inv, State.elapseToTick_inv, State.setBcast_inv, State.relayBlock_inv, State.sendAlone_inv]

theorem execBcastRelayRx_inv (lport : Nat) (pkt : Pkt) (s : State) (h0 : s.Inv) : Result.Inv (exec (.bcastRelayRx lport pkt) s) := by
  show Result.Inv (execBcastRelayRx lport pkt s)
  unfold execBcastRelayRx
  simp -zeta -zetaHave only [ite_sel, decide_sel]
  grind -lia -linarith -ring [sel_or, Result.inv_next, State.inc_inv, State.takeFn_inv, State.setCfg_inv, State.sendAlone_inv]

theorem execBcastStallNotice_inv (group : Nat) (s : State) (h0 : s.Inv) : Result.Inv (exec (.bcastStallNotice group) s) := by
  show Result.Inv (execBcastStallNotice group s)
  unfold execBcastStallNotice
  grind -lia -linarith -ring [Result.inv_next, State.emit_inv, State.logErr_inv, State.elapseToTick_inv, State.setBcast_inv]

/-! ### The operations of Machine/Tide.lean -/

theorem State.listError_inv (s : State) (p : Nat) (active : Bool) (h0 : s.Inv) : (State.listError s p active).Inv := by
  unfold State.listError
  simp -zeta -zetaHave only [ite_sel]
  grind -lia -linarith -ring [sel_or, State.setFld_inv, State.irq_inv, State.logErr_inv, State.setPortTide_inv, State.listEnds_inv]

theorem execTideSlotBoundary_inv (port : Nat) (listUe : Option Bool) (elemFail : Option Nat) (s : State) (h0 : s.Inv) :
    Result.Inv (exec (.tideSlotBoundary port listUe elemFail) s) := by
  show Result.Inv (execTideSlotBoundary port listUe elemFail s)
  unfold execTideSlotBoundary
  grind -lia -linarith -ring [Result.inv_next, State.elementFault_inv, State.boundary_inv, State.listError_inv]

theorem execCwTakeover_inv (n : Nat) (s : State) (h0 : s.Inv) : Result.Inv (exec (.cwTakeover n) s) := by
  show Result.Inv (execCwTakeover n s)
  unfold execCwTakeover
  simp -zeta -zetaHave only [ite_sel]
  grind -lia -linarith -ring [sel_or, Result.inv_next, State.cwSwap_inv, State.elapseToDev_inv]

theorem State.launchDone_inv (s : State) (p e : Nat) (l : Launch) (h0 : s.Inv) : (State.launchDone s p e l).Inv := by
  unfold State.launchDone
  simp -zeta -zetaHave only [ite_sel]
  grind -lia -linarith -ring [sel_or, State.setPortTide_inv]

theorem State.launchHalf_inv (s : State) (lp : Nat) (h0 : s.Inv) : (State.launchHalf s lp).2.Inv := by
  unfold State.launchHalf
  simp -zeta -zetaHave only [ite_sel]
  grind -lia -linarith -ring [sel_or, State.sendHead_inv]

theorem execLaunch_inv (port : Nat) (s : State) (h0 : s.Inv) : Result.Inv (exec (.launch port) s) := by
  show Result.Inv (execLaunch port s)
  unfold execLaunch
  simp -zeta -zetaHave only [ite_sel]
  grind -lia -linarith -ring [sel_or, foldl_inv, Result.inv_next, State.inc_inv, State.elapseToDev_inv, State.launchDone_inv, State.launchHalf_inv]

theorem State.commitList_inv (s : State) (takeover check : Nat) (l : PkgList) (h0 : s.Inv) : (State.commitList s takeover check l).Inv := by
  unfold State.commitList
  simp -zeta -zetaHave only [ite_sel]
  grind -lia -linarith -ring [sel_or, State.Inv_iff, State.Inv, State.wrWide_inv, State.setFld_inv, State.setPortTide_inv, State.takeover_inv]

theorem execTideLoad_inv (h : CmdHdr) (off : Nat) (s : State) (h0 : s.Inv) : Result.Inv (exec (.tideLoad h off) s) := by
  show Result.Inv (execTideLoad h off s)
  unfold execTideLoad
  simp -zeta -zetaHave only [ite_sel]
  grind -lia -linarith -ring [sel_or, foldl_inv, Result.inv_next, State.runCmd_inv, ok_inv, fail_inv, State.commitList_inv]

theorem execTideCancel_inv (h : CmdHdr) (s : State) (h0 : s.Inv) : Result.Inv (exec (.tideCancel h) s) := by
  show Result.Inv (execTideCancel h s)
  unfold execTideCancel
  simp -zeta -zetaHave only [ite_sel]
  grind -lia -linarith -ring [sel_or, Result.inv_next, State.setFld_inv, State.runCmd_inv, ok_inv, fail_inv]

theorem execTideStop_inv (h : CmdHdr) (time : Nat) (s : State) (h0 : s.Inv) : Result.Inv (exec (.tideStop h time) s) := by
  show Result.Inv (execTideStop h time s)
  unfold execTideStop
  simp -zeta -zetaHave only [ite_sel]
  grind -lia -linarith -ring [sel_or, Result.inv_next, State.runCmd_inv, ok_inv, fail_inv, State.setPortTide_inv]

theorem execLaunchSet_inv (h : CmdHdr) (entry action time period : Nat) (s : State) (h0 : s.Inv) :
    Result.Inv (exec (.launchSet h entry action time period) s) := by
  show Result.Inv (execLaunchSet h entry action time period s)
  unfold execLaunchSet
  simp -zeta -zetaHave only [ite_sel]
  grind -lia -linarith -ring [sel_or, Result.inv_next, State.runCmd_inv, ok_inv, fail_inv, failOpen_inv, State.setPortTide_inv]

theorem execTideRead_inv (h : CmdHdr) (bank entry : Nat) (s : State) (h0 : s.Inv) : Result.Inv (exec (.tideRead h bank entry) s) := by
  show Result.Inv (execTideRead h bank entry s)
  unfold execTideRead
  simp -zeta -zetaHave only [ite_sel]
  grind -lia -linarith -ring [sel_or, Result.inv_next, State.draw_inv, State.runCmd_inv, ok_inv, fail_inv]

theorem State.portCfgWrite_inv (s : State) (p v : Nat) (h0 : s.Inv) : (State.portCfgWrite s p v).Inv := by
  unfold State.portCfgWrite
  simp -zeta -zetaHave only [ite_sel]
  grind -lia -linarith -ring [sel_or, State.wr_inv, State.setTideState_inv, State.park_inv, State.setCycle_inv]

theorem execTideListDisable_inv (port : Nat) (s : State) (h0 : s.Inv) : Result.Inv (exec (.tideListDisable port) s) := by
  show Result.Inv (execTideListDisable port s)
  unfold execTideListDisable
  grind -lia -linarith -ring [Result.inv_next, State.onPage_inv, State.portCfgWrite_inv]

theorem execTideListEnable_inv (port : Nat) (s : State) (h0 : s.Inv) : Result.Inv (exec (.tideListEnable port) s) := by
  show Result.Inv (execTideListEnable port s)
  unfold execTideListEnable
  grind -lia -linarith -ring [Result.inv_next, State.onPage_inv, State.portCfgWrite_inv]

theorem State.shpWrite_inv (s : State) (p c v : Nat) (h0 : s.Inv) : (State.shpWrite s p c v).Inv := by
  unfold State.shpWrite
  simp -zeta -zetaHave only [ite_sel]
  grind -lia -linarith -ring [sel_or, State.wrWide_inv, State.setShp_inv]

theorem execShaperWrite_inv (port cls value : Nat) (s : State) (h0 : s.Inv) : Result.Inv (exec (.shaperWrite port cls value) s) := by
  show Result.Inv (execShaperWrite port cls value s)
  unfold execShaperWrite
  grind -lia -linarith -ring [Result.inv_next, State.onPage_inv, State.shpWrite_inv]

theorem execTideCntClear_inv (tile : Nat) (s : State) (h0 : s.Inv) : Result.Inv (exec (.tideCntClear tile) s) := by
  show Result.Inv (execTideCntClear tile s)
  unfold execTideCntClear
  grind -lia -linarith -ring [Result.inv_next, State.clearCnts_inv, State.onPage_inv]

/-! ### The operations of Machine/Optics.lean -/

theorem State.setRing_inv (s : State) (p r : Nat) (tx : Bool) (v : Nat) (h0 : s.Inv) : (State.setRing s p r tx v).Inv := by
  unfold State.setRing
  grind -lia -linarith -ring [State.setFld_inv]

theorem State.chargeReed_inv (s : State) (p r input : Nat) (h0 : s.Inv) : (State.chargeReed s p r input).Inv := by
  unfold State.chargeReed
  simp -zeta -zetaHave only [ite_sel]
  grind -lia -linarith -ring [sel_or, State.charge_inv]

theorem State.relockBegins_inv (s : State) (p r : Nat) (tx : Bool) (h0 : s.Inv) : (State.relockBegins s p r tx).Inv := by
  unfold State.relockBegins
  grind -lia -linarith -ring [State.inc_inv, State.setRing_inv, State.chargeReed_inv]

theorem State.settleReeds_inv (s : State) (h0 : s.Inv) : (State.settleReeds s).Inv := by
  unfold State.settleReeds
  grind -lia -linarith -ring [State.Inv_iff, State.Inv, foldl_inv, State.complete_inv]

theorem State.setFeed_inv (s : State) (m feed k v : Nat) (h0 : s.Inv) : (State.setFeed s m feed k v).Inv := by
  unfold State.setFeed
  grind -lia -linarith -ring [State.setFld_inv]

theorem State.lineWarn_inv (s : State) (m : Nat) (h0 : s.Inv) : (State.lineWarn s m).Inv := by
  unfold State.lineWarn
  grind -lia -linarith -ring [State.setFlag_inv]

theorem State.feedLow_inv (s : State) (m feed : Nat) (h0 : s.Inv) : (State.feedLow s m feed).Inv := by
  unfold State.feedLow
  grind -lia -linarith -ring [State.setFld_inv]

theorem State.reedDark_inv (s : State) (x : Nat × Nat) (h0 : s.Inv) : (State.reedDark s x).Inv := by
  unfold State.reedDark
  simp -zeta -zetaHave only [ite_sel]
  grind -lia -linarith -ring [sel_or, State.setFld_inv, State.setLive_inv, State.setRing_inv]

theorem State.reedLit_inv (s : State) (x : Nat × Nat) (h0 : s.Inv) : (State.reedLit s x).Inv := by
  unfold State.reedLit
  simp -zeta -zetaHave only [ite_sel]
  grind -lia -linarith -ring [sel_or, State.setFld_inv, State.setRing_inv]

theorem State.darken_inv (s : State) (m feed : Nat) (h0 : s.Inv) : (State.darken s m feed).Inv := by
  unfold State.darken
  grind -lia -linarith -ring [foldl_inv, State.setFld_inv, State.leaveUp_inv, State.reedDark_inv]

theorem State.lightsOut_inv (s : State) (m : Nat) (h0 : s.Inv) : (State.lightsOut s m).Inv := by
  unfold State.lightsOut
  simp -zeta -zetaHave only [ite_sel]
  grind -lia -linarith -ring [sel_or, foldl_inv, State.setFld_inv, State.darken_inv]

theorem State.judgeLine_inv (s : State) (m k : Nat) (h0 : s.Inv) : (State.judgeLine s m k).Inv := by
  unfold State.judgeLine
  simp -zeta -zetaHave only [ite_sel]
  grind -lia -linarith -ring [sel_or, foldl_inv, State.setFld_inv, State.inc_inv, State.irq_inv, State.logErr_inv, State.charge_inv, State.reedDark_inv]

theorem State.judgeFeed_inv (s : State) (m feed : Nat) (h0 : s.Inv) : (State.judgeFeed s m feed).Inv := by
  unfold State.judgeFeed
  simp -zeta -zetaHave only [ite_sel]
  grind -lia -linarith -ring [sel_or, foldl_inv, State.irq_inv, State.logErr_inv, State.feedLow_inv, State.reedDark_inv, State.darken_inv]

theorem State.judgeFeeds_inv (s : State) (m : Nat) (h0 : s.Inv) : (State.judgeFeeds s m).Inv := by
  unfold State.judgeFeeds
  grind -lia -linarith -ring [foldl_inv, State.judgeFeed_inv]

theorem execLineLow_inv (m line feed power : Nat) (s : State) (h0 : s.Inv) : Result.Inv (exec (.lineLow m line feed power) s) := by
  show Result.Inv (execLineLow m line feed power s)
  unfold execLineLow
  grind -lia -linarith -ring [Result.inv_next, State.setFeed_inv, State.lineWarn_inv, State.judgeLine_inv, State.judgeFeeds_inv]

theorem State.setLine_inv (s : State) (m line : Nat) (powers : List Nat) (h0 : s.Inv) : (State.setLine s m line powers).Inv := by
  unfold State.setLine
  grind -lia -linarith -ring [foldl_inv, State.setFeed_inv]

theorem execLineFail_inv (m line : Nat) (powers : List Nat) (s : State) (h0 : s.Inv) : Result.Inv (exec (.lineFail m line powers) s) := by
  show Result.Inv (execLineFail m line powers s)
  unfold execLineFail
  grind -lia -linarith -ring [Result.inv_next, State.lineWarn_inv, State.judgeLine_inv, State.judgeFeeds_inv, State.setLine_inv]

theorem execLineRestore_inv (m line : Nat) (powers : List Nat) (s : State) (h0 : s.Inv) : Result.Inv (exec (.lineRestore m line powers) s) := by
  show Result.Inv (execLineRestore m line powers s)
  unfold execLineRestore
  simp -zeta -zetaHave only [ite_sel, decide_sel]
  grind -lia -linarith -ring [sel_or, foldl_inv, Result.inv_next, State.setFld_inv, State.elapse_inv, State.lineWarn_inv, State.feedLow_inv,
    State.reedLit_inv, State.setLine_inv]

theorem execFeedFault_inv (m feed : Nat) (powers : List Nat) (s : State) (h0 : s.Inv) : Result.Inv (exec (.feedFault m feed powers) s) := by
  show Result.Inv (execFeedFault m feed powers s)
  unfold execFeedFault
  grind -lia -linarith -ring [foldl_inv, Result.inv_next, State.setFeed_inv, State.lineWarn_inv, State.judgeLine_inv, State.judgeFeeds_inv]

theorem execFeedDarkInterlock_inv (m feed : Nat) (s : State) (h0 : s.Inv) : Result.Inv (exec (.feedDarkInterlock m feed) s) := by
  show Result.Inv (execFeedDarkInterlock m feed s)
  unfold execFeedDarkInterlock
  simp -zeta -zetaHave only [ite_sel]
  grind -lia -linarith -ring [sel_or, Result.inv_next, State.setFld_inv, State.inc_inv, State.irq_inv, State.logErr_inv, State.elapse_inv,
    State.darken_inv, State.lightsOut_inv]

theorem execElsRemoval_inv (m : Nat) (s : State) (h0 : s.Inv) : Result.Inv (exec (.elsRemoval m) s) := by
  show Result.Inv (execElsRemoval m s)
  unfold execElsRemoval
  simp -zeta -zetaHave only [ite_sel]
  grind -lia -linarith -ring [sel_or, Result.inv_next, State.setFld_inv, State.inc_inv, State.irq_inv, State.logErr_inv, State.lightsOut_inv]

theorem execElsInsertion_inv (m : Nat) (s : State) (h0 : s.Inv) : Result.Inv (exec (.elsInsertion m) s) := by
  show Result.Inv (execElsInsertion m s)
  unfold execElsInsertion
  simp -zeta -zetaHave only [ite_sel]
  grind -lia -linarith -ring [sel_or, Result.inv_next, State.setFld_inv, State.inc_inv, State.irq_inv]

theorem State.laserOn_inv (s : State) (m : Nat) (h0 : s.Inv) : (State.laserOn s m).Inv := by
  unfold State.laserOn
  simp -zeta -zetaHave only [ite_sel]
  grind -lia -linarith -ring [sel_or, State.setFld_inv]

theorem State.elsCtrlWrite_inv (s : State) (m v : Nat) (h0 : s.Inv) : (State.elsCtrlWrite s m v).Inv := by
  unfold State.elsCtrlWrite
  simp -zeta -zetaHave only [ite_sel]
  grind -lia -linarith -ring [sel_or, State.setFld_inv, State.clearCnts_inv, State.rwl_inv, State.lightsOut_inv, State.laserOn_inv]

theorem execLaserEnable_inv (m : Nat) (s : State) (h0 : s.Inv) : Result.Inv (exec (.laserEnable m) s) := by
  show Result.Inv (execLaserEnable m s)
  unfold execLaserEnable
  grind -lia -linarith -ring [Result.inv_next, State.onPage_inv, State.elsCtrlWrite_inv]

theorem State.ringStart_inv (s : State) (p r : Nat) (h0 : s.Inv) : (State.ringStart s p r).Inv := by
  unfold State.ringStart
  simp -zeta -zetaHave only [ite_sel]
  grind -lia -linarith -ring [sel_or, State.setRing_inv]

theorem execLaserLightOn_inv (m : Nat) (s : State) (h0 : s.Inv) : Result.Inv (exec (.laserLightOn m) s) := by
  show Result.Inv (execLaserLightOn m s)
  unfold execLaserLightOn
  simp -zeta -zetaHave only [ite_sel]
  grind -lia -linarith -ring [sel_or, foldl_inv, Result.inv_next, State.setFld_inv, State.reedLit_inv, State.ringStart_inv]

theorem State.storeRecord_inv (s : State) (a : Nat) (r : List Byte) (h0 : s.Inv) : (State.storeRecord s a r).Inv := by
  unfold State.storeRecord
  grind -lia -linarith -ring [foldl_inv, State.wr_inv]

theorem State.closeEngine_inv (s : State) (n : Nat) (h0 : s.Inv) : (State.closeEngine s n).Inv := by
  unfold State.closeEngine
  grind -lia -linarith -ring [foldl_inv, State.setLinkState_inv, State.leaveUp_inv, State.setLive_inv, State.reportUnlocked_inv]

theorem State.identityRead_inv (s : State) (which : Nat) (r : List Byte) (h0 : s.Inv) : (State.identityRead s which r).Inv := by
  unfold State.identityRead
  simp -zeta -zetaHave only [ite_sel]
  grind -lia -linarith -ring [sel_or, State.setFlag_inv, State.irq_inv, State.logErr_inv, State.laserOn_inv, State.storeRecord_inv, State.closeEngine_inv]

theorem execIdentityReadDone_inv (which : Nat) (record : List Byte) (s : State) (h0 : s.Inv) :
    Result.Inv (exec (.identityReadDone which record) s) := by
  show Result.Inv (execIdentityReadDone which record s)
  unfold execIdentityReadDone
  simp -zeta -zetaHave only [ite_sel]
  grind -lia -linarith -ring [sel_or, State.Inv_iff, State.Inv, foldl_inv, Result.inv_next, State.complete_inv, State.identityRead_inv]

theorem execIdRead_inv (h : CmdHdr) (s : State) (h0 : s.Inv) : Result.Inv (exec (.idRead h) s) := by
  show Result.Inv (execIdRead h s)
  unfold execIdRead
  simp -zeta -zetaHave only [ite_sel]
  grind -lia -linarith -ring [sel_or, State.Inv_iff, State.Inv, Result.inv_next, State.runCmd_inv, failOpen_inv]

theorem execRingIdentityFail_inv (port reed : Nat) (tx : Bool) (tone : Option Nat) (s : State) (h0 : s.Inv) :
    Result.Inv (exec (.ringIdentityFail port reed tx tone) s) := by
  show Result.Inv (execRingIdentityFail port reed tx tone s)
  unfold execRingIdentityFail
  simp -zeta -zetaHave only [ite_sel]
  grind -lia -linarith -ring [sel_or, Result.inv_next, State.setFld_inv, State.inc_inv, State.logErr_inv, State.setLive_inv, State.relockBegins_inv]

theorem execRelockDone_inv (port reed : Nat) (tx locked : Bool) (tone : Nat) (s : State) (h0 : s.Inv) :
    Result.Inv (exec (.relockDone port reed tx locked tone) s) := by
  show Result.Inv (execRelockDone port reed tx locked tone s)
  unfold execRelockDone
  simp -zeta -zetaHave only [ite_sel]
  grind -lia -linarith -ring [sel_or, State.Inv_iff, State.Inv, Result.inv_next, State.setFld_inv, State.inc_inv, State.irq_inv, State.logErr_inv,
    State.setLive_inv, State.setRing_inv, State.chargeReed_inv, State.relockBegins_inv, State.settleReeds_inv]

theorem execRingSlip_inv (port reed : Nat) (tx : Bool) (s : State) (h0 : s.Inv) : Result.Inv (exec (.ringSlip port reed tx) s) := by
  show Result.Inv (execRingSlip port reed tx s)
  unfold execRingSlip
  simp -zeta -zetaHave only [ite_sel]
  grind -lia -linarith -ring [sel_or, Result.inv_next, State.inc_inv, State.irq_inv, State.elapse_inv, State.setRing_inv, State.chargeReed_inv]

theorem execSlipEnd_inv (port reed : Nat) (tx : Bool) (s : State) (h0 : s.Inv) : Result.Inv (exec (.slipEnd port reed tx) s) := by
  show Result.Inv (execSlipEnd port reed tx s)
  unfold execSlipEnd
  simp -zeta -zetaHave only [ite_sel]
  grind -lia -linarith -ring [sel_or, Result.inv_next, State.elapse_inv, State.setRing_inv]

theorem execFailsReset_inv (port reed : Nat) (s : State) (h0 : s.Inv) : Result.Inv (exec (.failsReset port reed) s) := by
  show Result.Inv (execFailsReset port reed s)
  unfold execFailsReset
  simp -zeta -zetaHave only [ite_sel]
  grind -lia -linarith -ring [sel_or, Result.inv_next, State.setFld_inv, State.elapseToTick_inv]

theorem State.abortReed_inv (s : State) (p r : Nat) (h0 : s.Inv) : (State.abortReed s p r).Inv := by
  unfold State.abortReed
  simp -zeta -zetaHave only [ite_sel]
  grind -lia -linarith -ring [sel_or, State.Inv_iff, State.Inv]

theorem execReedLightLoss_inv (port reed : Nat) (s : State) (h0 : s.Inv) : Result.Inv (exec (.reedLightLoss port reed) s) := by
  show Result.Inv (execReedLightLoss port reed s)
  unfold execReedLightLoss
  simp -zeta -zetaHave only [ite_sel]
  grind -lia -linarith -ring [sel_or, Result.inv_next, State.elapse_inv, State.setGate_inv, State.setLive_inv, State.abortReed_inv]

theorem execCxPowerPublish_inv (power : Nat) (settled : Bool) (s : State) (h0 : s.Inv) : Result.Inv (exec (.cxPowerPublish power settled) s) := by
  show Result.Inv (execCxPowerPublish power settled s)
  unfold execCxPowerPublish
  simp -zeta -zetaHave only [ite_sel]
  grind -lia -linarith -ring [sel_or, State.Inv_iff, State.Inv, foldl_inv, Result.inv_next, State.setFld_inv, State.nextSample_inv]

theorem State.sendMargin_inv (s : State) (lp op reeds atten : Nat) (errors margins : List Nat) (h0 : s.Inv) :
    (State.sendMargin s lp op reeds atten errors margins).Inv := by
  unfold State.sendMargin
  grind -lia -linarith -ring [State.control_inv]

theorem State.marginRx_inv (s : State) (lp op : Nat) (header body : List Byte) (fecBad : Bool) (f : Nat → Nat → State → State) (h0 : s.Inv)
    (h1 : ∀ i j x, x.Inv → (f i j x).Inv) :
    (State.marginRx s lp op header body fecBad f).Inv := by
  unfold State.marginRx
  simp -zeta -zetaHave only [ite_sel]
  grind -lia -linarith -ring [sel_or, State.controlRx_inv]

theorem State.attenuate_inv (s : State) (p mask v : Nat) (h0 : s.Inv) : (State.attenuate s p mask v).Inv := by
  unfold State.attenuate
  grind -lia -linarith -ring [foldl_inv, State.setFld_inv]

theorem State.setTests_inv (s : State) (l : List MarginTest) (h0 : s.Inv) : (State.setTests s l).Inv := by
  unfold State.setTests
  grind -lia -linarith -ring [State.Inv_iff, State.Inv]

theorem State.startTest_inv (s : State) (lp mask : Nat) (h0 : s.Inv) : (State.startTest s lp mask).Inv := by
  unfold State.startTest
  grind -lia -linarith -ring [foldl_inv, State.inc_inv, State.setGate_inv, State.setLive_inv, State.sendMargin_inv, State.attenuate_inv, State.setTests_inv]

theorem State.judgeReed_inv (s : State) (p r m : Nat) (h0 : s.Inv) : (State.judgeReed s p r m).Inv := by
  unfold State.judgeReed
  simp -zeta -zetaHave only [ite_sel]
  grind -lia -linarith -ring [sel_or, State.setFld_inv, State.inc_inv, State.logErr_inv, State.setLive_inv, State.chargeReed_inv]

theorem State.settleRuns_inv (s : State) (h0 : s.Inv) : (State.settleRuns s).Inv := by
  unfold State.settleRuns
  simp -zeta -zetaHave only [ite_sel]
  grind -lia -linarith -ring [sel_or, State.Inv_iff, State.Inv, foldl_inv, State.complete_inv]

theorem execMarginTestStart_inv (lport : Nat) (s : State) (h0 : s.Inv) : Result.Inv (exec (.marginTestStart lport) s) := by
  show Result.Inv (execMarginTestStart lport s)
  unfold execMarginTestStart
  simp -zeta -zetaHave only [ite_sel]
  grind -lia -linarith -ring [sel_or, State.Inv_iff, State.Inv, Result.inv_next, State.startTest_inv]

theorem execMarginStepRx_inv (lport : Nat) (header body : List Byte) (fecBad : Bool) (s : State) (h0 : s.Inv) :
    Result.Inv (exec (.marginStepRx lport header body fecBad) s) := by
  show Result.Inv (execMarginStepRx lport header body fecBad s)
  unfold execMarginStepRx
  grind -lia -linarith -ring [State.Inv_iff, State.Inv, Result.inv_next, State.marginRx_inv]

theorem execMarginDwellEnd_inv (lport : Nat) (errors : List Nat) (s : State) (h0 : s.Inv) : Result.Inv (exec (.marginDwellEnd lport errors) s) := by
  show Result.Inv (execMarginDwellEnd lport errors s)
  unfold execMarginDwellEnd
  simp -zeta -zetaHave only [ite_sel]
  grind -lia -linarith -ring [sel_or, State.Inv_iff, State.Inv, Result.inv_next, State.elapse_inv, State.sendMargin_inv]

theorem State.marginReport_inv (s : State) (lport reeds atten : Nat) (errors : List Nat) (h0 : s.Inv) :
    (State.marginReport s lport reeds atten errors).Inv := by
  unfold State.marginReport
  simp -zeta -zetaHave only [ite_sel, decide_sel]
  grind -lia -linarith -ring [sel_or, foldl_inv, State.setFld_inv, State.settleReeds_inv, State.sendMargin_inv, State.attenuate_inv,
    State.setTests_inv, State.judgeReed_inv, State.settleRuns_inv]

theorem execMarginReportRx_inv (lport : Nat) (header body : List Byte) (fecBad : Bool) (s : State) (h0 : s.Inv) :
    Result.Inv (exec (.marginReportRx lport header body fecBad) s) := by
  show Result.Inv (execMarginReportRx lport header body fecBad s)
  unfold execMarginReportRx
  grind -lia -linarith -ring [Result.inv_next, State.marginRx_inv, State.marginReport_inv]

theorem execMarginDoneRx_inv (lport : Nat) (header body : List Byte) (fecBad : Bool) (s : State) (h0 : s.Inv) :
    Result.Inv (exec (.marginDoneRx lport header body fecBad) s) := by
  show Result.Inv (execMarginDoneRx lport header body fecBad s)
  unfold execMarginDoneRx
  simp -zeta -zetaHave only [ite_sel]
  grind -lia -linarith -ring [sel_or, State.Inv_iff, State.Inv, Result.inv_next, State.marginRx_inv]

theorem execMarginReportTimeout_inv (lport : Nat) (s : State) (h0 : s.Inv) : Result.Inv (exec (.marginReportTimeout lport) s) := by
  show Result.Inv (execMarginReportTimeout lport s)
  unfold execMarginReportTimeout
  grind -lia -linarith -ring [State.Inv_iff, State.Inv, foldl_inv, Result.inv_next, State.complete_inv, State.elapseToTick_inv, State.attenuate_inv,
    State.setTests_inv]

theorem execMarginRetry_inv (lport : Nat) (s : State) (h0 : s.Inv) : Result.Inv (exec (.marginRetry lport) s) := by
  show Result.Inv (execMarginRetry lport s)
  unfold execMarginRetry
  simp -zeta -zetaHave only [ite_sel]
  grind -lia -linarith -ring [sel_or, State.Inv_iff, State.Inv, Result.inv_next, State.elapseToTick_inv, State.startTest_inv]

theorem execReedRetry_inv (h : CmdHdr) (mask : Nat) (s : State) (h0 : s.Inv) : Result.Inv (exec (.reedRetry h mask) s) := by
  show Result.Inv (execReedRetry h mask s)
  unfold execReedRetry
  simp -zeta -zetaHave only [ite_sel]
  grind -lia -linarith -ring [sel_or, State.Inv_iff, State.Inv, foldl_inv, Result.inv_next, State.setFld_inv, State.runCmd_inv, ok_inv, fail_inv,
    State.setGate_inv, State.setLive_inv, State.setRing_inv, State.relockBegins_inv]

theorem execMarginRun_inv (h : CmdHdr) (mask : Nat) (s : State) (h0 : s.Inv) : Result.Inv (exec (.marginRun h mask) s) := by
  show Result.Inv (execMarginRun h mask s)
  unfold execMarginRun
  simp -zeta -zetaHave only [ite_sel]
  grind -lia -linarith -ring [sel_or, State.Inv_iff, State.Inv, foldl_inv, Result.inv_next, State.runCmd_inv, ok_inv, fail_inv, State.startTest_inv]

theorem execOeCntClear_inv (n : Nat) (s : State) (h0 : s.Inv) : Result.Inv (exec (.oeCntClear n) s) := by
  show Result.Inv (execOeCntClear n s)
  unfold execOeCntClear
  grind -lia -linarith -ring [Result.inv_next, State.clearCnts_inv, State.onPage_inv]

theorem execElsCntClear_inv (m : Nat) (s : State) (h0 : s.Inv) : Result.Inv (exec (.elsCntClear m) s) := by
  show Result.Inv (execElsCntClear m s)
  unfold execElsCntClear
  grind -lia -linarith -ring [Result.inv_next, State.clearCnts_inv, State.onPage_inv]

/-! ### The operations of Machine/Causeway.lean -/

theorem State.commitMaps_inv (s : State) (gen takeover check : Nat) (b : Nat × List Nat) (h0 : s.Inv) :
    (State.commitMaps s gen takeover check b).Inv := by
  unfold State.commitMaps
  grind -lia -linarith -ring [State.Inv_iff, State.Inv, State.wrWide_inv, State.setFld_inv, State.setEng_inv]

theorem execCwLoad_inv (h : CmdHdr) (off : Nat) (s : State) (h0 : s.Inv) : Result.Inv (exec (.cwLoad h off) s) := by
  show Result.Inv (execCwLoad h off s)
  unfold execCwLoad
  simp -zeta -zetaHave only [ite_sel]
  grind -lia -linarith -ring [sel_or, foldl_inv, Result.inv_next, State.runCmd_inv, ok_inv, fail_inv, State.commitMaps_inv]

theorem execCwStanding_inv (h : CmdHdr) (src dst action : Nat) (s : State) (h0 : s.Inv) : Result.Inv (exec (.cwStanding h src dst action) s) := by
  show Result.Inv (execCwStanding h src dst action s)
  unfold execCwStanding
  simp -zeta -zetaHave only [ite_sel]
  grind -lia -linarith -ring [sel_or, Result.inv_next, State.runCmd_inv, ok_inv, fail_inv, failOpen_inv, State.setEng_inv]

theorem execStandingBuildDone_inv (n : Nat) (s : State) (h0 : s.Inv) : Result.Inv (exec (.standingBuildDone n) s) := by
  show Result.Inv (execStandingBuildDone n s)
  unfold execStandingBuildDone
  simp -zeta -zetaHave only [ite_sel]
  grind -lia -linarith -ring [sel_or, Result.inv_next, State.inc_inv, State.irq_inv, State.complete_inv, State.setEng_inv, State.beginDark_inv,
    State.endDark_inv, State.elapseToTick_inv]

theorem execCwCancel_inv (h : CmdHdr) (s : State) (h0 : s.Inv) : Result.Inv (exec (.cwCancel h) s) := by
  show Result.Inv (execCwCancel h s)
  unfold execCwCancel
  simp -zeta -zetaHave only [ite_sel]
  grind -lia -linarith -ring [sel_or, Result.inv_next, State.setFld_inv, State.runCmd_inv, ok_inv, fail_inv]

theorem execCwCntClear_inv (n : Nat) (s : State) (h0 : s.Inv) : Result.Inv (exec (.cwCntClear n) s) := by
  show Result.Inv (execCwCntClear n s)
  unfold execCwCntClear
  grind -lia -linarith -ring [Result.inv_next, State.clearCnts_inv, State.onPage_inv]

/-! ### The operations of Machine/Fwt.lean -/

theorem State.update_inv (s : State) (h : CmdHdr) (opcode : Nat) (body : State → State × Option Cmpl) (h0 : s.Inv) (h1 : ∀ x, x.Inv → (body x).1.Inv) :
    (State.update s h opcode body).Inv := by
  unfold State.update
  simp -zeta -zetaHave only [ite_sel]
  grind -lia -linarith -ring [sel_or, State.runCmd_inv, fail_inv]

theorem execLeafSet_inv (h : CmdHdr) (leaf count : Nat) (members : List Nat) (s : State) (h0 : s.Inv) :
    Result.Inv (exec (.leafSet h leaf count members) s) := by
  show Result.Inv (execLeafSet h leaf count members s)
  unfold execLeafSet
  simp -zeta -zetaHave only [ite_sel]
  grind -lia -linarith -ring [sel_or, Result.inv_next, ok_inv, fail_inv, State.commit_inv, State.update_inv]

theorem execEpgenSet_inv (h : CmdHdr) (leaf first count gen : Nat) (s : State) (h0 : s.Inv) :
    Result.Inv (exec (.epgenSet h leaf first count gen) s) := by
  show Result.Inv (execEpgenSet h leaf first count gen s)
  unfold execEpgenSet
  simp -zeta -zetaHave only [ite_sel]
  grind -lia -linarith -ring [sel_or, Result.inv_next, ok_inv, fail_inv, State.commit_inv, State.genChanged_inv, State.update_inv]

theorem State.ovrInsert_inv (s : State) (key kind gen target : Nat) (h0 : s.Inv) : (State.ovrInsert s key kind gen target).2.2.Inv := by
  unfold State.ovrInsert
  simp -zeta -zetaHave only [ite_sel]
  grind -lia -linarith -ring [sel_or, State.Inv_iff, State.Inv, State.inc_inv, State.irq_inv, State.logErr_inv, State.commit_inv, State.genChanged_inv]

theorem execOvrInsert_inv (h : CmdHdr) (feid kind gen target : Nat) (s : State) (h0 : s.Inv) :
    Result.Inv (exec (.ovrInsert h feid kind gen target) s) := by
  show Result.Inv (execOvrInsert h feid kind gen target s)
  unfold execOvrInsert
  simp -zeta -zetaHave only [ite_sel]
  grind -lia -linarith -ring [sel_or, Result.inv_next, fail_inv, State.update_inv, State.ovrInsert_inv]

theorem State.ovrDelete_inv (s : State) (key : Nat) (h0 : s.Inv) : (State.ovrDelete s key).2.Inv := by
  unfold State.ovrDelete
  simp -zeta -zetaHave only [ite_sel]
  grind -lia -linarith -ring [sel_or, State.Inv_iff, State.Inv, State.commit_inv, State.genChanged_inv]

theorem execOvrDelete_inv (h : CmdHdr) (feid : Nat) (s : State) (h0 : s.Inv) : Result.Inv (exec (.ovrDelete h feid) s) := by
  show Result.Inv (execOvrDelete h feid s)
  unfold execOvrDelete
  grind -lia -linarith -ring [Result.inv_next, ok_inv, State.update_inv, State.ovrDelete_inv]

theorem execOvrAge_inv (h : CmdHdr) (first : Nat) (s : State) (h0 : s.Inv) : Result.Inv (exec (.ovrAge h first) s) := by
  show Result.Inv (execOvrAge h first s)
  unfold execOvrAge
  simp -zeta -zetaHave only [ite_sel]
  grind -lia -linarith -ring [sel_or, Result.inv_next, ok_inv, fail_inv, State.commit_inv, State.update_inv]

theorem execGrpSet_inv (h : CmdHdr) (group kind gen desc base count : Nat) (s : State) (h0 : s.Inv) :
    Result.Inv (exec (.grpSet h group kind gen desc base count) s) := by
  show Result.Inv (execGrpSet h group kind gen desc base count s)
  unfold execGrpSet
  simp -zeta -zetaHave only [ite_sel]
  grind -lia -linarith -ring [sel_or, Result.inv_next, State.inc_inv, State.irq_inv, ok_inv, fail_inv, State.commit_inv, State.genChanged_inv,
    State.groupChanged_inv, State.update_inv]

theorem execGrpDelete_inv (h : CmdHdr) (group : Nat) (s : State) (h0 : s.Inv) : Result.Inv (exec (.grpDelete h group) s) := by
  show Result.Inv (execGrpDelete h group s)
  unfold execGrpDelete
  simp -zeta -zetaHave only [ite_sel]
  grind -lia -linarith -ring [sel_or, Result.inv_next, ok_inv, State.commit_inv, State.genChanged_inv, State.groupChanged_inv, State.update_inv]

theorem execMemberLoad_inv (h : CmdHdr) (off first count : Nat) (s : State) (h0 : s.Inv) : Result.Inv (exec (.memberLoad h off first count) s) := by
  show Result.Inv (execMemberLoad h off first count s)
  unfold execMemberLoad
  simp -zeta -zetaHave only [ite_sel]
  grind -lia -linarith -ring [sel_or, foldl_inv, Result.inv_next, ok_inv, fail_inv, State.commit_inv, State.update_inv]

theorem execTableLoad_inv (h : CmdHdr) (off crc : Nat) (s : State) (h0 : s.Inv) : Result.Inv (exec (.tableLoad h off crc) s) := by
  show Result.Inv (execTableLoad h off crc s)
  unfold execTableLoad
  simp -zeta -zetaHave only [ite_sel]
  grind -lia -linarith -ring [sel_or, State.Inv_iff, State.Inv, foldl_inv, Result.inv_next, ok_inv, fail_inv, State.commit_inv,
    State.genChanged_inv, State.groupChanged_inv, State.update_inv]

theorem execTableRead_inv (h : CmdHdr) (table index : Nat) (s : State) (h0 : s.Inv) : Result.Inv (exec (.tableRead h table index) s) := by
  show Result.Inv (execTableRead h table index s)
  unfold execTableRead
  simp -zeta -zetaHave only [ite_sel]
  grind -lia -linarith -ring [sel_or, Result.inv_next, State.runCmd_inv, ok_inv, fail_inv]

theorem State.sweepRepair_inv (s : State) (n w v : Nat) (h0 : s.Inv) : (State.sweepRepair s n w v).Inv := by
  unfold State.sweepRepair
  simp -zeta -zetaHave only [ite_sel]
  grind -lia -linarith -ring [sel_or, foldl_inv, State.modPipe_inv, State.modDie_inv]

theorem State.compareWord_inv (s : State) (n : Nat) (h0 : s.Inv) : (State.compareWord s n).Inv := by
  unfold State.compareWord
  simp -zeta -zetaHave only [ite_sel]
  grind -lia -linarith -ring [sel_or, State.Inv_iff, State.Inv, State.inc_inv, State.irq_inv, State.logErr_inv, State.sweepRepair_inv]

theorem execCmpWordCompare_inv (s : State) (h0 : s.Inv) : Result.Inv (exec .cmpWordCompare s) := by
  show Result.Inv (execCmpWordCompare s)
  unfold execCmpWordCompare
  simp -zeta -zetaHave only [ite_sel]
  grind -lia -linarith -ring [sel_or, foldl_inv, Result.inv_next, State.elapse_inv, State.compareWord_inv]

theorem execFwtCntClear_inv (n : Nat) (s : State) (h0 : s.Inv) : Result.Inv (exec (.fwtCntClear n) s) := by
  show Result.Inv (execFwtCntClear n s)
  unfold execFwtCntClear
  grind -lia -linarith -ring [Result.inv_next, State.clearCnts_inv, State.onPage_inv]

theorem State.learnRx_inv (s : State) (lp : Nat) (p : Pkt) (kind : Nat) (f : State → State) (h0 : s.Inv) (h1 : ∀ x, x.Inv → (f x).Inv) :
    (State.learnRx s lp p kind f).Inv := by
  unfold State.learnRx
  simp -zeta -zetaHave only [ite_sel]
  grind -lia -linarith -ring [sel_or, State.takeFn_inv, State.countReason_inv]

theorem State.learn_inv (s : State) (lp : Nat) (p : Pkt) (kind : Nat) (f : State → Bool × State) (h0 : s.Inv) (h1 : ∀ x, x.Inv → (f x).2.Inv) :
    (State.learn s lp p kind f).Inv := by
  unfold State.learn
  simp -zeta -zetaHave only [ite_sel, decide_sel]
  grind -lia -linarith -ring [sel_or, State.Inv_iff, State.Inv, State.originate_inv, State.learnRx_inv]

theorem execLearnMoveRx_inv (lport : Nat) (pkt : Pkt) (s : State) (h0 : s.Inv) : Result.Inv (exec (.learnMoveRx lport pkt) s) := by
  show Result.Inv (execLearnMoveRx lport pkt s)
  unfold execLearnMoveRx
  simp -zeta -zetaHave only [ite_sel]
  grind -lia -linarith -ring [sel_or, Result.inv_next, State.ovrInsert_inv, State.learn_inv]

theorem execLearnUnmoveRx_inv (lport : Nat) (pkt : Pkt) (s : State) (h0 : s.Inv) : Result.Inv (exec (.learnUnmoveRx lport pkt) s) := by
  show Result.Inv (execLearnUnmoveRx lport pkt s)
  unfold execLearnUnmoveRx
  grind -lia -linarith -ring [Result.inv_next, State.ovrDelete_inv, State.learn_inv]

theorem execLearnAckRx_inv (lport : Nat) (pkt : Pkt) (s : State) (h0 : s.Inv) : Result.Inv (exec (.learnAckRx lport pkt) s) := by
  show Result.Inv (execLearnAckRx lport pkt s)
  unfold execLearnAckRx
  simp -zeta -zetaHave only [ite_sel]
  grind -lia -linarith -ring [sel_or, State.Inv_iff, State.Inv, Result.inv_next, State.emit_inv, State.learnRx_inv]

/-! ### The operations of Machine/Cfg.lean -/

theorem State.enterRecovery_inv (s : State) (why : Nat) (h0 : s.Inv) : (State.enterRecovery s why).Inv := by
  unfold State.enterRecovery
  simp -zeta -zetaHave only [ite_sel]
  grind -lia -linarith -ring [sel_or, foldl_inv, State.setFld_inv, State.setFlag_inv, State.alertSource_inv, State.closeEngine_inv]

theorem State.flashFails_inv (s : State) (r : FlashRes) (h0 : s.Inv) : (State.flashFails s r).Inv := by
  unfold State.flashFails
  grind -lia -linarith -ring [State.logErr_inv, State.enterRecovery_inv]

theorem State.setCtr_inv (s : State) (k v : Nat) (h0 : s.Inv) : (State.setCtr s k v).Inv := by
  unfold State.setCtr
  grind -lia -linarith -ring [State.wr_inv, State.setCfg_inv]

theorem State.stageImage_inv (s : State) (o : List Byte) (flash : FlashRes) (h0 : s.Inv) : (State.stageImage s o flash).2.Inv := by
  unfold State.stageImage
  simp -zeta -zetaHave only [ite_sel]
  grind -lia -linarith -ring [sel_or, State.draw_inv, State.logErr_inv, State.setCfg_inv, State.flashFails_inv]

theorem execFwStage_inv (h : CmdHdr) (off len : Nat) (flash : FlashRes) (s : State) (h0 : s.Inv) :
    Result.Inv (exec (.fwStage h off len flash) s) := by
  show Result.Inv (execFwStage h off len flash s)
  unfold execFwStage
  grind -lia -linarith -ring [Result.inv_next, State.runCmd_inv, fail_inv, State.stageImage_inv]

theorem State.startSettings_inv (s : State) (version : Nat) (h0 : s.Inv) : (State.startSettings s version).Inv := by
  unfold State.startSettings
  simp -zeta -zetaHave only [ite_sel]
  grind -lia -linarith -ring [sel_or, State.setFlag_inv, State.logErr_inv, State.writeSettings_inv, State.setCfg_inv]

theorem State.exchange_inv (s : State) (h0 : s.Inv) : (State.exchange s).Inv := by
  unfold State.exchange
  grind -lia -linarith -ring [State.setFld_inv, State.setFlag_inv, State.inc_inv, State.irq_inv, State.writeSettings_inv]

theorem State.takeoverEnds_inv (s : State) (h0 : s.Inv) : (State.takeoverEnds s).Inv := by
  unfold State.takeoverEnds
  grind -lia -linarith -ring [State.setFlag_inv, State.setCfg_inv]

theorem State.setTakeover_inv (s : State) (t : Takeover) (h0 : s.Inv) : (State.setTakeover s t).Inv := by
  unfold State.setTakeover
  grind -lia -linarith -ring [State.wrWide_inv, State.setFlag_inv, State.setCfg_inv]

theorem State.takeoverAllowed_inv (s : State) (time : Nat) (go : State → State × Option Cmpl) (h0 : s.Inv) (h1 : ∀ x, x.Inv → (go x).1.Inv) :
    (State.takeoverAllowed s time go).1.Inv := by
  unfold State.takeoverAllowed
  simp -zeta -zetaHave only [ite_sel]
  grind -lia -linarith -ring [sel_or, fail_inv, failOpen_inv]

theorem execFwActivate_inv (h : CmdHdr) (time : Nat) (s : State) (h0 : s.Inv) : Result.Inv (exec (.fwActivate h time) s) := by
  show Result.Inv (execFwActivate h time s)
  unfold execFwActivate
  simp -zeta -zetaHave only [ite_sel]
  grind -lia -linarith -ring [sel_or, Result.inv_next, State.logErr_inv, State.runCmd_inv, fail_inv, State.setTakeover_inv, State.takeoverAllowed_inv]

theorem execFwRollback_inv (h : CmdHdr) (time : Nat) (s : State) (h0 : s.Inv) : Result.Inv (exec (.fwRollback h time) s) := by
  show Result.Inv (execFwRollback h time s)
  unfold execFwRollback
  simp -zeta -zetaHave only [ite_sel]
  grind -lia -linarith -ring [sel_or, Result.inv_next, State.runCmd_inv, fail_inv, State.setTakeover_inv, State.takeoverAllowed_inv]

theorem execFwTakeover_inv (s : State) (h0 : s.Inv) : Result.Inv (exec .fwTakeover s) := by
  show Result.Inv (execFwTakeover s)
  unfold execFwTakeover
  simp -zeta -zetaHave only [ite_sel]
  grind -lia -linarith -ring [sel_or, Result.inv_next, State.wr_inv, State.setFld_inv, State.setFlag_inv, State.inc_inv, State.complete_inv,
    failOpen_inv, State.elapseToDev_inv, State.startSettings_inv, State.exchange_inv, State.takeoverEnds_inv]

theorem State.takeoverLate_inv (s : State) (t : Takeover) (h0 : s.Inv) : (State.takeoverLate s t).Inv := by
  unfold State.takeoverLate
  grind -lia -linarith -ring [State.setFlag_inv, State.logErr_inv, State.complete_inv, State.takeoverEnds_inv]

theorem execTakeoverLate_inv (s : State) (h0 : s.Inv) : Result.Inv (exec .takeoverLate s) := by
  show Result.Inv (execTakeoverLate s)
  unfold execTakeoverLate
  grind -lia -linarith -ring [Result.inv_next, State.elapseToDev_inv, State.takeoverLate_inv]

theorem execFwCommit_inv (h : CmdHdr) (flash : FlashRes) (s : State) (h0 : s.Inv) : Result.Inv (exec (.fwCommit h flash) s) := by
  show Result.Inv (execFwCommit h flash s)
  unfold execFwCommit
  simp -zeta -zetaHave only [ite_sel]
  grind -lia -linarith -ring [sel_or, Result.inv_next, State.setFld_inv, State.setFlag_inv, State.runCmd_inv, ok_inv, fail_inv, State.setCfg_inv,
    State.flashFails_inv, State.setCtr_inv]

theorem execDegradedTakeover_inv (s : State) (h0 : s.Inv) : Result.Inv (exec .degradedTakeover s) := by
  show Result.Inv (execDegradedTakeover s)
  unfold execDegradedTakeover
  simp -zeta -zetaHave only [ite_sel, decide_sel]
  grind -lia -linarith -ring [sel_or, Result.inv_next, State.wrWide_inv, State.elapseToDev_inv, State.exchange_inv, State.takeoverLate_inv]

theorem State.setTx_inv (s : State) (x : ChainTx) (h0 : s.Inv) : (State.setTx s x).Inv := by
  unfold State.setTx
  grind -lia -linarith -ring [State.setCfg_inv]

theorem State.dropTx_inv (s : State) (origin xfer : Nat) (h0 : s.Inv) : (State.dropTx s origin xfer).Inv := by
  unfold State.dropTx
  grind -lia -linarith -ring [State.setCfg_inv]

theorem State.chainSend_inv (s : State) (x : ChainTx) (h0 : s.Inv) : (State.chainSend s x).Inv := by
  unfold State.chainSend
  simp -zeta -zetaHave only [decide_sel]
  grind -lia -linarith -ring [sel_or, foldl_inv, State.sendRelayed_inv, State.setTx_inv]

theorem State.chainEnds_inv (s : State) (x : ChainHead) (h0 : s.Inv) : (State.chainEnds s x).Inv := by
  unfold State.chainEnds
  grind -lia -linarith -ring [State.complete_inv, State.setCfg_inv]

theorem State.chainSettle_inv (s : State) (x : ChainHead) (h0 : s.Inv) : (State.chainSettle s x).Inv := by
  unfold State.chainSettle
  simp -zeta -zetaHave only [ite_sel]
  grind -lia -linarith -ring [sel_or, State.setCfg_inv, State.chainEnds_inv]

theorem State.chainTo_inv (s : State) (origin xfer : Nat) (data : List Byte) (bad targets : List Nat) (h0 : s.Inv) :
    (State.chainTo s origin xfer data bad targets).Inv := by
  unfold State.chainTo
  simp -zeta -zetaHave only [ite_sel]
  grind -lia -linarith -ring [sel_or, State.chainSend_inv]

theorem execFwChain_inv (h : CmdHdr) (off : Nat) (ue : List Nat) (s : State) (h0 : s.Inv) : Result.Inv (exec (.fwChain h off ue) s) := by
  show Result.Inv (execFwChain h off ue s)
  unfold execFwChain
  simp -zeta -zetaHave only [ite_sel]
  grind -lia -linarith -ring [sel_or, Result.inv_next, State.draw_inv, State.runCmd_inv, failOpen_inv, State.setCfg_inv, State.chainSettle_inv,
    State.chainTo_inv]

theorem State.updRx_inv (s : State) (lp : Nat) (p : Pkt) (kind : Nat) (f : State → State) (h0 : s.Inv) (h1 : ∀ x, x.Inv → (f x).Inv) :
    (State.updRx s lp p kind f).Inv := by
  unfold State.updRx
  simp -zeta -zetaHave only [ite_sel]
  grind -lia -linarith -ring [sel_or, State.inc_inv, State.takeFn_inv]

theorem execChainDataRx_inv (lport : Nat) (pkt : Pkt) (flash : FlashRes) (s : State) (h0 : s.Inv) :
    Result.Inv (exec (.chainDataRx lport pkt flash) s) := by
  show Result.Inv (execChainDataRx lport pkt flash s)
  unfold execChainDataRx
  simp -zeta -zetaHave only [ite_sel, decide_sel]
  grind -lia -linarith -ring [sel_or, Result.inv_next, State.draw_inv, State.setCfg_inv, State.sendRelayed_inv, State.stageImage_inv,
    State.chainTo_inv, State.updRx_inv]

theorem execChainAckRx_inv (lport : Nat) (pkt : Pkt) (s : State) (h0 : s.Inv) : Result.Inv (exec (.chainAckRx lport pkt) s) := by
  show Result.Inv (execChainAckRx lport pkt s)
  unfold execChainAckRx
  simp -zeta -zetaHave only [ite_sel]
  grind -lia -linarith -ring [sel_or, Result.inv_next, State.dropTx_inv, State.chainSend_inv, State.updRx_inv]

theorem execChainDoneRx_inv (lport : Nat) (pkt : Pkt) (s : State) (h0 : s.Inv) : Result.Inv (exec (.chainDoneRx lport pkt) s) := by
  show Result.Inv (execChainDoneRx lport pkt s)
  unfold execChainDoneRx
  refine Result.inv_next.2 (State.updRx_inv _ _ _ _ _ h0 fun s h => ?_)
  dsimp only
  split
  · exact h
  · exact State.ite_inv h (State.chainSettle_inv _ _ h)

theorem execChainAbortRx_inv (lport : Nat) (pkt : Pkt) (s : State) (h0 : s.Inv) : Result.Inv (exec (.chainAbortRx lport pkt) s) := by
  show Result.Inv (execChainAbortRx lport pkt s)
  unfold execChainAbortRx
  refine Result.inv_next.2 (State.updRx_inv _ _ _ _ _ h0 fun s h => ?_)
  have h1 (f : CfgSt → CfgSt) := State.setCfg_inv _ f (State.dropTx_inv s (beAt 16 4 pkt.payload) (beAt 4 4 pkt.payload) h)
  dsimp only
  split
  · exact h1 _
  · exact State.complete_inv _ _ _ _ (failOpen_inv _ (State.setCfg_inv _ _ (h1 _)))

theorem execChainResend_inv (origin xfer : Nat) (s : State) (h0 : s.Inv) : Result.Inv (exec (.chainResend origin xfer) s) := by
  show Result.Inv (execChainResend origin xfer s)
  unfold execChainResend
  cases s.txOf origin xfer with
  | none => exact Result.inv_next.2 h0
  | some t =>
    have h1 := State.elapseToTick_inv (t.at_ + usTicks 2000) s h0
    refine Result.ite_inv (Result.inv_next.2 (State.chainSend_inv _ _ h1)) (Result.inv_next.2 ?_)
    have h2 := State.chainTo_inv _ origin xfer t.data t.bad (t.targets.drop 1) (State.logErr_inv _ cfgPg 0x0104 1 cfgLoc
      (State.inc_inv _ Cnt.CFG_CHAIN_SKIPS (State.dropTx_inv _ origin xfer h1)))
    split
    · exact State.chainSettle_inv _ _ h2
    · exact h2

theorem execChainTimeout_inv (xfer : Nat) (s : State) (h0 : s.Inv) : Result.Inv (exec (.chainTimeout xfer) s) := by
  show Result.Inv (execChainTimeout xfer s)
  unfold execChainTimeout
  grind -lia -linarith -ring [Result.inv_next, State.elapseToTick_inv, State.chainEnds_inv]

theorem execCfgWrite_inv (h : CmdHdr) (off len : Nat) (flash : FlashRes) (s : State) (h0 : s.Inv) :
    Result.Inv (exec (.cfgWrite h off len flash) s) := by
  show Result.Inv (execCfgWrite h off len flash s)
  unfold execCfgWrite
  simp -zeta -zetaHave only [ite_sel]
  grind -lia -linarith -ring [sel_or, Result.inv_next, State.logErr_inv, State.runCmd_inv, ok_inv, fail_inv, failOpen_inv, State.setCfg_inv,
    State.flashFails_inv, State.setCtr_inv]

theorem execAttest_inv (h : CmdHdr) (nonce off : Nat) (flash : FlashRes) (s : State) (h0 : s.Inv) :
    Result.Inv (exec (.attest h nonce off flash) s) := by
  show Result.Inv (execAttest h nonce off flash s)
  unfold execAttest
  simp -zeta -zetaHave only [ite_sel]
  grind -lia -linarith -ring [sel_or, Result.inv_next, State.runCmd_inv, ok_inv, fail_inv, failOpen_inv, State.regionWrite_inv,
    State.flashFails_inv, State.setCtr_inv]

theorem execUnlockChallenge_inv (h : CmdHdr) (flash : FlashRes) (s : State) (h0 : s.Inv) : Result.Inv (exec (.unlockChallenge h flash) s) := by
  show Result.Inv (execUnlockChallenge h flash s)
  unfold execUnlockChallenge
  simp -zeta -zetaHave only [ite_sel]
  grind -lia -linarith -ring [sel_or, Result.inv_next, State.wr_inv, State.runCmd_inv, ok_inv, fail_inv, State.flashFails_inv, State.setCtr_inv]

theorem execUnlock_inv (h : CmdHdr) (off len : Nat) (s : State) (h0 : s.Inv) : Result.Inv (exec (.unlock h off len) s) := by
  show Result.Inv (execUnlock h off len s)
  unfold execUnlock
  simp -zeta -zetaHave only [ite_sel]
  grind -lia -linarith -ring [sel_or, Result.inv_next, State.setFld_inv, State.setFlag_inv, State.irq_inv, State.logErr_inv, State.runCmd_inv,
    ok_inv, fail_inv]

theorem execPufRefresh_inv (h : CmdHdr) (flash : FlashRes) (s : State) (h0 : s.Inv) : Result.Inv (exec (.pufRefresh h flash) s) := by
  show Result.Inv (execPufRefresh h flash s)
  unfold execPufRefresh
  simp -zeta -zetaHave only [ite_sel]
  grind -lia -linarith -ring [sel_or, Result.inv_next, State.setFlag_inv, State.runCmd_inv, ok_inv, fail_inv, State.writeSettings_inv, State.flashFails_inv]

theorem execJobReuse_inv (h : CmdHdr) (oldGen newGen c1 c2 c3 : Nat) (s : State) (h0 : s.Inv) :
    Result.Inv (exec (.jobReuse h oldGen newGen c1 c2 c3) s) := by
  show Result.Inv (execJobReuse h oldGen newGen c1 c2 c3 s)
  unfold execJobReuse
  simp -zeta -zetaHave only [ite_sel]
  grind -lia -linarith -ring [sel_or, foldl_inv, Result.inv_next, State.setFld_inv, State.inc_inv, State.runCmd_inv, ok_inv, fail_inv,
    State.commit_inv, State.genChanged_inv, State.setPortTide_inv, State.setEng_inv, State.groupChanged_inv]

/-! ### The operations of Machine/Reset.lean -/

theorem State.resetTo_inv (s : State) (cold : Bool) (cause : Nat) (h0 : s.Inv) : (State.resetTo s cold cause).Inv := by
  have hregs : Tbl.wf resetWord (if cold then [] else warmRegs s.regs) = true := by
    cases cold
    · exact warmRegs_wf h0.1
    · rfl
  unfold State.resetTo
  refine have h1 := State.setFld_inv _ _ _ _ ?_; State.ite_inv (State.alertUpdate_inv _ h1) (State.ite_inv (State.setFlag_inv _ _ _ _ h1) (State.emit_inv _ _ h1))
  exact ⟨hregs, rfl, rfl, rfl⟩

/-! ### The operations of Machine/RegAccess.lean -/

theorem State.readEffect_inv (s : State) (a : Nat) (h0 : s.Inv) : (State.readEffect s a).Inv := by
  unfold State.readEffect
  refine State.ite_inv h0 ?_
  split
  · exact State.ite_inv ⟨h0.1, countersWf_del h0.2.1 _, h0.2.2⟩ h0
  · split
    · exact h0
    · split
      · exact State.latchNow_inv _ h0
      · exact State.latchCapt_inv _ _ h0
      · exact State.setEr_inv _ _ _ h0
      · exact State.ite_inv h0 (State.wr_inv _ _ _ h0)

theorem State.wordRead_inv (s : State) (a : Nat) (h0 : s.Inv) : (State.wordRead s a).2.Inv := by
  unfold State.wordRead
  simp -zeta -zetaHave only [ite_sel]
  grind -lia -linarith -ring [sel_or, State.Inv_iff, State.Inv, State.popStamp_inv, State.latchCapt_inv, State.readEffect_inv]

theorem State.wideRead_inv (s : State) (a : Nat) (h0 : s.Inv) : (State.wideRead s a).2.Inv := by
  unfold State.wideRead
  simp -zeta -zetaHave only [ite_sel]
  grind -lia -linarith -ring [sel_or, State.Inv_iff, State.Inv, State.readEffect_inv, State.wordRead_inv]

theorem State.readAcc_inv (s : State) (a n : Nat) (h0 : s.Inv) : (State.readAcc s a n).2.2.Inv := by
  unfold State.readAcc
  simp -zeta -zetaHave only [ite_sel]
  grind -lia -linarith -ring [sel_or, State.logErr_inv, State.wordRead_inv, State.wideRead_inv]

theorem State.crEnable_inv (s : State) (i tail : Nat) (h0 : s.Inv) : (State.crEnable s i tail).Inv := by
  unfold State.crEnable
  simp -zeta -zetaHave only [ite_sel]
  grind -lia -linarith -ring [sel_or, State.emit_inv, State.setCr_inv, State.ringError_inv]

theorem State.crCfgWrite_inv (s : State) (i v tail : Nat) (h0 : s.Inv) : (State.crCfgWrite s i v tail).Inv := by
  unfold State.crCfgWrite
  simp -zeta -zetaHave only [ite_sel]
  grind -lia -linarith -ring [sel_or, State.wr_inv, State.setFld_inv, State.setCr_inv, State.crEnable_inv]

theorem State.crFetch_inv (s : State) (i : Nat) (h0 : s.Inv) : (State.crFetch s i).Inv := by
  unfold State.crFetch
  simp -zeta -zetaHave only [ite_sel]
  grind -lia -linarith -ring [sel_or, State.emit_inv, State.setCr_inv]

theorem State.crResume_inv (s : State) (p : State → Nat → Bool) (h0 : s.Inv) : (State.crResume s p).Inv := by
  unfold State.crResume
  simp -zeta -zetaHave only [ite_sel]
  grind -lia -linarith -ring [sel_or, foldl_inv, State.crFetch_inv]

theorem State.erRelease_inv (s : State) (j : Nat) (h0 : s.Inv) : (State.erRelease s j).Inv := by
  unfold State.erRelease
  grind -lia -linarith -ring [foldl_inv, State.emit_inv, State.setEr_inv, State.crResume_inv]

theorem State.erCfgWrite_inv (s : State) (j v cons : Nat) (h0 : s.Inv) : (State.erCfgWrite s j v cons).Inv := by
  unfold State.erCfgWrite
  simp -zeta -zetaHave only [ite_sel]
  grind -lia -linarith -ring [sel_or, State.wr_inv, State.setFld_inv, State.emit_inv, State.setEr_inv, State.logErr_inv, State.erRelease_inv]

theorem State.msixUnmasked_inv (s : State) (v : Nat) (h0 : s.Inv) : (State.msixUnmasked s v).Inv := by
  unfold State.msixUnmasked
  simp -zeta -zetaHave only [ite_sel]
  grind -lia -linarith -ring [sel_or, State.wr_inv, State.sendMsix_inv]

theorem State.msixCtrlWrite_inv (s : State) (v w : Nat) (h0 : s.Inv) : (State.msixCtrlWrite s v w).Inv := by
  unfold State.msixCtrlWrite
  simp -zeta -zetaHave only [ite_sel]
  grind -lia -linarith -ring [sel_or, State.setFld_inv, State.msixUnmasked_inv]

theorem State.twBindWrite_inv (s : State) (w v : Nat) (h0 : s.Inv) : (State.twBindWrite s w v).Inv := by
  unfold State.twBindWrite
  grind -lia -linarith -ring [State.wr_inv, State.slotOpenClear_inv, State.crResume_inv]

theorem State.hostKeyWrite_inv (s : State) (v : Nat) (h0 : s.Inv) : (State.hostKeyWrite s v).Inv :=
  State.ite_inv (State.host_inv _ h0) (State.ite_inv (State.resetTo_inv _ _ _ h0) (State.host_inv _ h0))

theorem State.abortCmd_inv (s : State) (block : Nat) (h : Option CmdHdr) (h0 : s.Inv) : (State.abortCmd s block h).Inv := by
  unfold State.abortCmd
  grind -lia -linarith -ring [State.complete_inv]

theorem State.abortRunning_inv (s : State) (p : Nat) (h0 : s.Inv) : (State.abortRunning s p).Inv := by
  unfold State.abortRunning
  grind -lia -linarith -ring [sel_or, State.Inv_iff, State.Inv, foldl_inv, State.setPeat_inv, State.setEng_inv, State.hairpin_inv, State.setCal_inv,
    State.setCfg_inv, State.takeoverEnds_inv, State.dropTx_inv, State.abortCmd_inv]

theorem State.abortPage_inv (s : State) (p : Nat) (h0 : s.Inv) : (State.abortPage s p).Inv := by
  unfold State.abortPage
  grind -lia -linarith -ring [State.abortListed_inv, State.abortRunning_inv]

theorem State.resetHostPage_inv (s : State) (n : Nat) (h0 : s.Inv) : (State.resetHostPage s n).Inv := by
  unfold State.resetHostPage
  simp -zeta -zetaHave only [ite_sel]
  grind -lia -linarith -ring [sel_or, State.Inv_iff, State.Inv, foldl_inv, State.setCr_inv, State.setEr_inv, State.slotOpenClear_inv, State.erRelease_inv]

theorem State.listsTakenUp_inv (s : State) (n : Nat) (off : List Nat) (h0 : s.Inv) : (State.listsTakenUp s n off).Inv := by
  unfold State.listsTakenUp
  grind -lia -linarith -ring [foldl_inv, State.setTideState_inv, State.setCycle_inv]

theorem State.resetEffects_inv (s : State) (p : Nat) (off : List Nat) (h0 : s.Inv) : (State.resetEffects s p off).Inv := by
  unfold State.resetEffects
  simp -zeta -zetaHave only [ite_sel]
  grind -lia -linarith -ring [sel_or, State.Inv_iff, State.Inv, State.setTrace_inv, State.alertUpdate_inv, State.satJudge_inv, State.setPmc_inv,
    State.lightsOut_inv, State.resetHostPage_inv, State.listsTakenUp_inv]

theorem State.pageReset_inv (s : State) (p : Nat) (h0 : s.Inv) : (State.pageReset s p).Inv := by
  have h1 := State.abortPage_inv s p h0
  unfold State.pageReset
  refine State.ite_inv h0 (State.setFlag_inv _ _ _ _ (State.wrWide_inv _ _ _ _ (State.setFlag_inv _ _ _ _ (State.setDel_inv _ _
    (State.resetEffects_inv _ _ _ (State.clearCnts_inv _ _ ?_))))))
  refine have h2 := State.ite_inv (State.satJudge_inv _ _ _ h1) h1; ⟨resetPageRegs_wf p h2.1, h2.2⟩

theorem State.pageResetDone_inv (s : State) (p : Nat) (h0 : s.Inv) : (State.pageResetDone s p).Inv := by
  unfold State.pageResetDone
  simp -zeta -zetaHave only [ite_sel]
  grind -lia -linarith -ring [sel_or, State.Inv_iff, State.Inv, State.wrWide_inv, State.setFlag_inv]

theorem State.plainWrite_inv (s : State) (r : RegAt) (a v : Nat) (h0 : s.Inv) : (State.plainWrite s r a v).Inv := by
  unfold State.plainWrite
  grind -lia -linarith -ring [State.wr_inv]

theorem State.errClear_inv (s : State) (p : Nat) (h0 : s.Inv) : (State.errClear s p).Inv := by
  unfold State.errClear
  grind -lia -linarith -ring [State.Inv_iff, State.Inv, State.setFld_inv]

theorem State.irqForce_inv (s : State) (p v : Nat) (h0 : s.Inv) : (State.irqForce s p v).Inv := by
  unfold State.irqForce
  grind -lia -linarith -ring [foldl_inv, State.irqStore_inv, State.trace_inv]

theorem State.pageCtrlWrite_inv (s : State) (p v : Nat) (h0 : s.Inv) : (State.pageCtrlWrite s p v).Inv := by
  unfold State.pageCtrlWrite
  simp -zeta -zetaHave only [ite_sel]
  grind -lia -linarith -ring [sel_or, State.setFld_inv, State.pageReset_inv]

theorem State.headerWrite_inv (s : State) (r : RegAt) (a v : Nat) (h0 : s.Inv) : (State.headerWrite s r a v).Inv := by
  unfold State.headerWrite
  simp -zeta -zetaHave only [ite_sel]
  grind -lia -linarith -ring [sel_or, State.irqStore_inv, State.plainWrite_inv, State.errClear_inv, State.irqForce_inv, State.pageCtrlWrite_inv]

theorem State.portCfgChange_inv (s : State) (r : RegAt) (a v : Nat) (h0 : s.Inv) : (State.portCfgChange s r a v).Inv := by
  unfold State.portCfgChange
  simp -zeta -zetaHave only [ite_sel]
  grind -lia -linarith -ring [sel_or, foldl_inv, State.satJudge_inv, State.setLinkState_inv, State.leaveUp_inv, State.setLive_inv,
    State.reportUnlocked_inv, State.setRing_inv, State.ringStart_inv, State.plainWrite_inv]

theorem State.timeWrite_inv (s : State) (r : RegAt) (a v : Nat) (h0 : s.Inv) : (State.timeWrite s r a v).Inv := by
  unfold State.timeWrite
  simp -zeta -zetaHave only [ite_sel]
  grind -lia -linarith -ring [sel_or, State.Inv_iff, State.Inv, State.commitIncr_inv, State.commitAdj_inv, State.dropHeld_inv,
    State.stepKeyWrite_inv, State.commitSet_inv, State.declareLost_inv, State.declareLock_inv, State.heartbeat_inv, State.plainWrite_inv]

theorem State.hostWrite_inv (s : State) (r : RegAt) (a v : Nat) (h0 : s.Inv) : (State.hostWrite s r a v).Inv := by
  unfold State.hostWrite
  simp -zeta -zetaHave only [ite_sel]
  grind -lia -linarith -ring [sel_or, State.draw_inv, State.setEr_inv, State.erSignal_inv, State.crCfgWrite_inv, State.erCfgWrite_inv,
    State.msixCtrlWrite_inv, State.twBindWrite_inv, State.hostKeyWrite_inv, State.plainWrite_inv]

theorem State.ctrlWrite_inv (s : State) (r : RegAt) (a v : Nat) (h0 : s.Inv) : (State.ctrlWrite s r a v).Inv := by
  unfold State.ctrlWrite
  simp -zeta -zetaHave only [ite_sel]
  grind -lia -linarith -ring [sel_or, foldl_inv, State.setFld_inv, State.clearCnts_inv, State.plainWrite_inv]

theorem State.oeCtrlWrite_inv (s : State) (r : RegAt) (a v : Nat) (h0 : s.Inv) : (State.oeCtrlWrite s r a v).Inv := by
  unfold State.oeCtrlWrite
  simp -zeta -zetaHave only [ite_sel]
  grind -lia -linarith -ring [sel_or, State.closeEngine_inv, State.ctrlWrite_inv]

theorem State.blockWrite_inv (s : State) (r : RegAt) (a v : Nat) (h0 : s.Inv) : (State.blockWrite s r a v).Inv := by
  have hplain : (s.plainWrite r a v).Inv := State.plainWrite_inv _ _ _ _ h0
  unfold State.blockWrite
  dsimp only
  split
  · exact State.hostWrite_inv _ _ _ _ h0
  · exact State.ite_inv (State.timeWrite_inv _ _ _ _ h0) (State.ite_inv (State.ite_inv (State.tpoCtrlWrite_inv _ _ _ h0) (State.ite_inv h0 hplain)) hplain)
  · exact State.ptCtrlWrite_inv _ _ _ h0
  · exact State.portCfgChange_inv _ _ _ _ h0
  · exact State.polWrite_inv _ _ _ _ _ h0
  · exact State.polWrite_inv _ _ _ _ _ h0
  · exact State.polWrite_inv _ _ _ _ _ h0
  · exact State.polWrite_inv _ _ _ _ _ h0
  · exact State.qmCtrlWrite_inv _ _ _ h0
  · exact State.limitWrite_inv _ _ _ _ _ h0
  · exact State.satJudge_inv _ _ _ (State.plainWrite_inv _ _ _ _ (State.satJudge_inv _ _ _ h0))
  · exact State.portCfgWrite_inv _ _ _ h0
  · exact State.shpWrite_inv _ _ _ _ h0
  · exact State.oeCtrlWrite_inv _ _ _ _ h0
  · exact State.elsCtrlWrite_inv _ _ _ h0
  · exact State.saltSeedWrite_inv _ _ _ h0
  · exact State.ite_inv (State.windowWrite_inv _ _ h0) hplain
  · exact State.ite_inv (State.traceCtrlWrite_inv _ _ h0) hplain
  · exact State.ite_inv (State.traceMark_inv _ _ (State.setTrace_inv _ _ h0)) (State.setTrace_inv _ _ h0)
  · exact State.ite_inv (State.pmcCtrlWrite_inv _ _ h0) (State.ite_inv (State.slotCfgWrite_inv _ _ _ h0) hplain)
  · exact State.alertUpdate_inv _ hplain
  · exact State.alertUpdate_inv _ hplain
  · exact State.ite_inv (State.alertSource_inv _ _ h0) h0
  · exact State.ite_inv (State.ctrlWrite_inv _ _ _ _ h0) hplain

theorem State.wordWrite_inv (s : State) (a v : Nat) (h0 : s.Inv) : (State.wordWrite s a v).Inv := by
  unfold State.wordWrite
  simp -zeta -zetaHave only [ite_sel]
  grind -lia -linarith -ring [sel_or, State.headerWrite_inv, State.blockWrite_inv]

theorem State.wideWrite_inv (s : State) (a v : Nat) (h0 : s.Inv) : (State.wideWrite s a v).Inv := by
  unfold State.wideWrite
  simp -zeta -zetaHave only [ite_sel]
  grind -lia -linarith -ring [sel_or, State.slotCfgWrite_inv, State.shpWrite_inv, State.wordWrite_inv]

theorem State.writeAcc_inv (s : State) (a n v : Nat) (h0 : s.Inv) : (State.writeAcc s a n v).2.Inv := by
  unfold State.writeAcc
  simp -zeta -zetaHave only [ite_sel]
  grind -lia -linarith -ring [sel_or, State.addFld_inv, State.logErr_inv, State.wordWrite_inv, State.wideWrite_inv]

/-! ### The operations of Machine/Host.lean -/

theorem execRegisterWrite_inv (addr size value : Nat) (who : Requester) (s : State) (h0 : s.Inv) :
    Result.Inv (exec (.registerWrite addr size value who) s) := by
  show Result.Inv (execRegisterWrite addr size value who s)
  unfold execRegisterWrite
  simp -zeta -zetaHave only [ite_sel]
  grind -lia -linarith -ring [sel_or, Result.inv_next, State.writeAcc_inv]

theorem State.hostRead_inv (s : State) (addr size : Nat) (who : Requester) (h0 : s.Inv) : (State.hostRead s addr size who).Inv := by
  unfold State.hostRead
  simp -zeta -zetaHave only [ite_sel]
  grind -lia -linarith -ring [sel_or, State.emit_inv, State.readAcc_inv]

theorem execRcFieldRead_inv (addr size : Nat) (who : Requester) (s : State) (h0 : s.Inv) : Result.Inv (exec (.rcFieldRead addr size who) s) := by
  show Result.Inv (execRcFieldRead addr size who s)
  unfold execRcFieldRead
  grind -lia -linarith -ring [Result.inv_next, State.hostRead_inv]

theorem execSplit64bitRead_inv (addr : Nat) (who : Requester) (s : State) (h0 : s.Inv) : Result.Inv (exec (.split64bitRead addr who) s) := by
  show Result.Inv (execSplit64bitRead addr who s)
  unfold execSplit64bitRead
  grind -lia -linarith -ring [Result.inv_next, State.hostRead_inv]

theorem State.onHeader_inv (s : State) (p : Nat) (f : State → State) (h0 : s.Inv) (h1 : ∀ x, x.Inv → (f x).Inv) : (State.onHeader s p f).Inv := by
  unfold State.onHeader
  simp -zeta -zetaHave only [ite_sel]
  grind -lia -linarith -ring [sel_or]

theorem State.pageCtrlSet_inv (s : State) (p b : Nat) (h0 : s.Inv) : (State.pageCtrlSet s p b).Inv := by
  unfold State.pageCtrlSet
  grind -lia -linarith -ring [State.pageCtrlWrite_inv]

theorem execPageLock_inv (page : Nat) (s : State) (h0 : s.Inv) : Result.Inv (exec (.pageLock page) s) := by
  show Result.Inv (execPageLock page s)
  unfold execPageLock
  grind -lia -linarith -ring [Result.inv_next, State.onHeader_inv, State.pageCtrlSet_inv]

theorem execPageReset_inv (page : Nat) (s : State) (h0 : s.Inv) : Result.Inv (exec (.pageReset page) s) := by
  show Result.Inv (execPageReset page s)
  unfold execPageReset
  grind -lia -linarith -ring [Result.inv_next, State.onHeader_inv, State.pageCtrlSet_inv]

theorem execPageResetComplete_inv (page : Nat) (s : State) (h0 : s.Inv) : Result.Inv (exec (.pageResetComplete page) s) := by
  show Result.Inv (execPageResetComplete page s)
  unfold execPageResetComplete
  grind -lia -linarith -ring [Result.inv_next, State.pageResetDone_inv, State.onHeader_inv]

theorem execPageIrqForce_inv (page value : Nat) (s : State) (h0 : s.Inv) : Result.Inv (exec (.pageIrqForce page value) s) := by
  show Result.Inv (execPageIrqForce page value s)
  unfold execPageIrqForce
  grind -lia -linarith -ring [Result.inv_next, State.irqForce_inv, State.onHeader_inv]

theorem execPageErrClear_inv (page : Nat) (s : State) (h0 : s.Inv) : Result.Inv (exec (.pageErrClear page) s) := by
  show Result.Inv (execPageErrClear page s)
  unfold execPageErrClear
  grind -lia -linarith -ring [Result.inv_next, State.errClear_inv, State.onHeader_inv]

theorem execHostResetKey_inv (value : Nat) (s : State) (h0 : s.Inv) : Result.Inv (exec (.hostResetKey value) s) := by
  show Result.Inv (execHostResetKey value s)
  unfold execHostResetKey
  grind -lia -linarith -ring [Result.inv_next, State.onPage_inv, State.hostKeyWrite_inv]

theorem execTenantWindowBind_inv (win value : Nat) (s : State) (h0 : s.Inv) : Result.Inv (exec (.tenantWindowBind win value) s) := by
  show Result.Inv (execTenantWindowBind win value s)
  unfold execTenantWindowBind
  grind -lia -linarith -ring [Result.inv_next, State.onPage_inv, State.twBindWrite_inv]

theorem execCxlLinkTrain_inv (wide fast switched cache mem : Bool) (s : State) (h0 : s.Inv) :
    Result.Inv (exec (.cxlLinkTrain wide fast switched cache mem) s) := by
  show Result.Inv (execCxlLinkTrain wide fast switched cache mem s)
  unfold execCxlLinkTrain
  simp -zeta -zetaHave only [ite_sel]
  grind -lia -linarith -ring [sel_or, Result.inv_next, State.setFld_inv, State.setFlag_inv]

theorem execCxlLinkDown_inv (s : State) (h0 : s.Inv) : Result.Inv (exec .cxlLinkDown s) := by
  show Result.Inv (execCxlLinkDown s)
  unfold execCxlLinkDown
  grind -lia -linarith -ring [Result.inv_next, State.setFlag_inv]

theorem State.hostMemRead_inv (s : State) (kind off n at_ : Nat) (errs : List BeatErr) (h0 : s.Inv) :
    (State.hostMemRead s kind off n at_ errs).Inv := by
  unfold State.hostMemRead
  simp -zeta -zetaHave only [ite_sel, decide_sel]
  grind -lia -linarith -ring [sel_or, State.emit_inv, State.draw_inv, State.beatsSeen_inv, State.regionViolation_inv]

theorem execBar2Access_inv (off : Nat) (acc : MemAcc) (s : State) (h0 : s.Inv) : Result.Inv (exec (.bar2Access off acc) s) := by
  show Result.Inv (execBar2Access off acc s)
  unfold execBar2Access
  simp -zeta -zetaHave only [ite_sel]
  grind -lia -linarith -ring [sel_or, Result.inv_next, State.emit_inv, State.regionWrite_inv, State.hostMemRead_inv]

theorem State.hdmRead_inv (s : State) (hdm off n : Nat) (errs : List BeatErr) (h0 : s.Inv) : (State.hdmRead s hdm off n errs).Inv := by
  unfold State.hdmRead
  simp -zeta -zetaHave only [ite_sel]
  grind -lia -linarith -ring [sel_or, State.emit_inv, State.draw_inv, State.hostMemRead_inv]

theorem execHdmWrite_inv (hdm off : Nat) (acc : MemAcc) (s : State) (h0 : s.Inv) : Result.Inv (exec (.hdmWrite hdm off acc) s) := by
  show Result.Inv (execHdmWrite hdm off acc s)
  unfold execHdmWrite
  simp -zeta -zetaHave only [ite_sel, decide_sel]
  grind -lia -linarith -ring [sel_or, Result.inv_next, State.addFld_inv, State.hdmRead_inv]

theorem execCmdRingEnable_inv (ring value tail : Nat) (s : State) (h0 : s.Inv) : Result.Inv (exec (.cmdRingEnable ring value tail) s) := by
  show Result.Inv (execCmdRingEnable ring value tail s)
  unfold execCmdRingEnable
  grind -lia -linarith -ring [Result.inv_next, State.onPage_inv, State.crCfgWrite_inv]

theorem execCmdRingDisable_inv (ring : Nat) (s : State) (h0 : s.Inv) : Result.Inv (exec (.cmdRingDisable ring) s) := by
  show Result.Inv (execCmdRingDisable ring s)
  unfold execCmdRingDisable
  grind -lia -linarith -ring [Result.inv_next, State.onPage_inv, State.crCfgWrite_inv]

theorem execTailSnoop_inv (ring : Nat) (s : State) (h0 : s.Inv) : Result.Inv (exec (.tailSnoop ring) s) := by
  show Result.Inv (execTailSnoop ring s)
  unfold execTailSnoop
  simp -zeta -zetaHave only [ite_sel]
  grind -lia -linarith -ring [sel_or, Result.inv_next, State.emit_inv, State.setCr_inv]

theorem execTailReread_inv (ring tail : Nat) (s : State) (h0 : s.Inv) : Result.Inv (exec (.tailReread ring tail) s) := by
  show Result.Inv (execTailReread ring tail s)
  unfold execTailReread
  simp -zeta -zetaHave only [ite_sel]
  grind -lia -linarith -ring [sel_or, Result.inv_next, State.setCr_inv, State.ringError_inv, State.crFetch_inv]

theorem State.takeEntry_inv (s : State) (src : CmdSrc) (e : RawEntry) (h0 : s.Inv) : (State.takeEntry s src e).Inv := by
  unfold State.takeEntry
  simp -zeta -zetaHave only [ite_sel]
  grind -lia -linarith -ring [sel_or, State.Inv_iff, State.Inv, State.answer_inv]

theorem execEntryFetch_inv (ring : Nat) (entries : List RawEntry) (s : State) (h0 : s.Inv) : Result.Inv (exec (.entryFetch ring entries) s) := by
  show Result.Inv (execEntryFetch ring entries s)
  unfold execEntryFetch
  simp -zeta -zetaHave only [ite_sel]
  grind -lia -linarith -ring [sel_or, foldl_inv, Result.inv_next, State.setCr_inv, State.takeEntry_inv]

theorem execEventRingEnable_inv (ring value cons : Nat) (s : State) (h0 : s.Inv) : Result.Inv (exec (.eventRingEnable ring value cons) s) := by
  show Result.Inv (execEventRingEnable ring value cons s)
  unfold execEventRingEnable
  grind -lia -linarith -ring [Result.inv_next, State.onPage_inv, State.erCfgWrite_inv]

theorem execEventRingDisable_inv (ring : Nat) (s : State) (h0 : s.Inv) : Result.Inv (exec (.eventRingDisable ring) s) := by
  show Result.Inv (execEventRingDisable ring s)
  unfold execEventRingDisable
  grind -lia -linarith -ring [Result.inv_next, State.onPage_inv, State.erCfgWrite_inv]

theorem execConsSnoop_inv (ring cons : Nat) (s : State) (h0 : s.Inv) : Result.Inv (exec (.consSnoop ring cons) s) := by
  show Result.Inv (execConsSnoop ring cons s)
  unfold execConsSnoop
  simp -zeta -zetaHave only [ite_sel]
  grind -lia -linarith -ring [sel_or, Result.inv_next, State.emit_inv, State.setEr_inv]

theorem heldWrites_inv (j : Nat) (es : List Ev) (s : State) (h0 : s.Inv) : (heldWrites j es s).Inv := by
  induction es generalizing s with
  | nil => exact h0
  | cons e es ih =>
    have h1 := State.setEr_inv s j { s.er j with waiting := es } h0
    exact State.ite_inv (ih _ (State.mpSendEvent_inv _ _ h1)) (State.ite_inv h0 (ih _ (State.erWrite_inv _ _ _ h1)))

theorem execHeldEventWrite_inv (ring : Nat) (s : State) (h0 : s.Inv) : Result.Inv (exec (.heldEventWrite ring) s) := by
  show Result.Inv (execHeldEventWrite ring s)
  unfold execHeldEventWrite
  grind -lia -linarith -ring [Result.inv_next, State.crResume_inv, heldWrites_inv]

theorem execEventWriteDone_inv (ring : Nat) (s : State) (h0 : s.Inv) : Result.Inv (exec (.eventWriteDone ring) s) := by
  show Result.Inv (execEventWriteDone ring s)
  unfold execEventWriteDone
  simp -zeta -zetaHave only [ite_sel]
  grind -lia -linarith -ring [sel_or, Result.inv_next, State.setEr_inv, State.erSignal_inv]

theorem execMsixDelayExpiry_inv (ring : Nat) (s : State) (h0 : s.Inv) : Result.Inv (exec (.msixDelayExpiry ring) s) := by
  show Result.Inv (execMsixDelayExpiry ring s)
  unfold execMsixDelayExpiry
  grind -lia -linarith -ring [Result.inv_next, State.erSignal_inv, State.elapseToTick_inv]

theorem execMsixUnmask_inv (vector : Nat) (s : State) (h0 : s.Inv) : Result.Inv (exec (.msixUnmask vector) s) := by
  show Result.Inv (execMsixUnmask vector s)
  unfold execMsixUnmask
  simp -zeta -zetaHave only [ite_sel]
  grind -lia -linarith -ring [sel_or, Result.inv_next, State.msixCtrlWrite_inv]

theorem execNop_inv (h : CmdHdr) (s : State) (h0 : s.Inv) : Result.Inv (exec (.nop h) s) := by
  show Result.Inv (execNop h s)
  unfold execNop
  grind -lia -linarith -ring [Result.inv_next, State.runCmd_inv, ok_inv]

theorem execRegWrite_inv (h : CmdHdr) (addr value : Nat) (s : State) (h0 : s.Inv) : Result.Inv (exec (.regWrite h addr value) s) := by
  show Result.Inv (execRegWrite h addr value s)
  unfold execRegWrite
  simp -zeta -zetaHave only [ite_sel]
  grind -lia -linarith -ring [sel_or, Result.inv_next, State.logErr_inv, State.runCmd_inv, ok_inv, fail_inv, State.writeAcc_inv]

theorem execRegRead_inv (h : CmdHdr) (addr : Nat) (s : State) (h0 : s.Inv) : Result.Inv (exec (.regRead h addr) s) := by
  show Result.Inv (execRegRead h addr s)
  unfold execRegRead
  simp -zeta -zetaHave only [ite_sel]
  grind -lia -linarith -ring [sel_or, Result.inv_next, State.logErr_inv, State.runCmd_inv, ok_inv, fail_inv, State.readAcc_inv]

theorem State.mpAuthFail_inv (s : State) (h0 : s.Inv) : (State.mpAuthFail s).Inv := by
  have h1 := State.irq_inv _ mgmtPg 2 (State.inc_inv _ Cnt.MGMT_MP_AUTH_FAIL h0)
  exact State.ite_inv (State.host_inv _ (State.logErr_inv _ _ _ _ _ h1)) h1

theorem State.mpAnswer_inv (s : State) (f : MpFrame) (op status : Nat) (body : List Byte) (h0 : s.Inv) : (State.mpAnswer s f op status body).Inv := by
  unfold State.mpAnswer
  grind -lia -linarith -ring [State.inc_inv, State.mpSend_inv]

theorem State.mpTake_inv (s : State) (op : Nat) (f : MpFrame) (act : State → State) (h0 : s.Inv) (h1 : ∀ x, x.Inv → (act x).Inv) :
    (State.mpTake s op f act).Inv := by
  unfold State.mpTake
  simp -zeta -zetaHave only [ite_sel, decide_sel]
  grind -lia -linarith -ring [sel_or, State.Inv_iff, State.Inv, State.inc_inv, State.mpAuthFail_inv]

theorem execMpRegRead_inv (frame : MpFrame) (s : State) (h0 : s.Inv) : Result.Inv (exec (.mpRegRead frame) s) := by
  show Result.Inv (execMpRegRead frame s)
  unfold execMpRegRead
  grind -lia -linarith -ring [Result.inv_next, State.readAcc_inv, State.mpAnswer_inv, State.mpTake_inv]

theorem execMpRegWrite_inv (frame : MpFrame) (s : State) (h0 : s.Inv) : Result.Inv (exec (.mpRegWrite frame) s) := by
  show Result.Inv (execMpRegWrite frame s)
  unfold execMpRegWrite
  simp -zeta -zetaHave only [ite_sel]
  grind -lia -linarith -ring [sel_or, Result.inv_next, State.writeAcc_inv, State.mpAnswer_inv, State.mpTake_inv]

theorem execMpCommand_inv (frame : MpFrame) (s : State) (h0 : s.Inv) : Result.Inv (exec (.mpCommand frame) s) := by
  show Result.Inv (execMpCommand frame s)
  unfold execMpCommand
  grind -lia -linarith -ring [Result.inv_next, State.takeEntry_inv, State.mpTake_inv]

theorem execMpKeySet_inv (h : CmdHdr) (slot empty key : Nat) (s : State) (h0 : s.Inv) : Result.Inv (exec (.mpKeySet h slot empty key) s) := by
  show Result.Inv (execMpKeySet h slot empty key s)
  unfold execMpKeySet
  simp -zeta -zetaHave only [ite_sel]
  grind -lia -linarith -ring [sel_or, State.Inv_iff, State.Inv, Result.inv_next, State.runCmd_inv, ok_inv, fail_inv, failOpen_inv, State.writeSettings_inv]

theorem execMgmtCntClear_inv (s : State) (h0 : s.Inv) : Result.Inv (exec .mgmtCntClear s) := by
  show Result.Inv (execMgmtCntClear s)
  unfold execMgmtCntClear
  grind -lia -linarith -ring [Result.inv_next, State.clearCnts_inv, State.onPage_inv]

/-! ### The operations of Machine/Pwr.lean -/

theorem State.closeCarriers_inv (s : State) (h0 : s.Inv) : (State.closeCarriers s).Inv := by
  unfold State.closeCarriers
  grind -lia -linarith -ring [foldl_inv, State.closeEngine_inv]

theorem State.setPwr_inv (s : State) (f : PwrSt → PwrSt) (h0 : s.Inv) : (State.setPwr s f).Inv := by
  unfold State.setPwr
  grind -lia -linarith -ring [State.Inv_iff, State.Inv]

theorem execPwrGoodRise_inv (s : State) (h0 : s.Inv) : Result.Inv (exec .pwrGoodRise s) := by
  show Result.Inv (execPwrGoodRise s)
  unfold execPwrGoodRise
  simp -zeta -zetaHave only [ite_sel]
  grind -lia -linarith -ring [sel_or, Result.inv_next, State.setPwr_inv]

theorem execPwrGoodFall_inv (s : State) (h0 : s.Inv) : Result.Inv (exec .pwrGoodFall s) := by
  show Result.Inv (execPwrGoodFall s)
  unfold execPwrGoodFall
  simp -zeta -zetaHave only [ite_sel]
  grind -lia -linarith -ring [sel_or, Result.inv_next, State.emit_inv, State.resetTo_inv, State.closeCarriers_inv, State.setPwr_inv]

theorem execResetNAssert_inv (ns : Nat) (s : State) (h0 : s.Inv) : Result.Inv (exec (.resetNAssert ns) s) := by
  show Result.Inv (execResetNAssert ns s)
  unfold execResetNAssert
  simp -zeta -zetaHave only [ite_sel, decide_sel]
  grind -lia -linarith -ring [sel_or, Result.inv_next, State.draw_inv, State.resetTo_inv, State.setPwr_inv]

theorem execResetNRelease_inv (s : State) (h0 : s.Inv) : Result.Inv (exec .resetNRelease s) := by
  show Result.Inv (execResetNRelease s)
  unfold execResetNRelease
  simp -zeta -zetaHave only [ite_sel]
  grind -lia -linarith -ring [sel_or, Result.inv_next, State.resetTo_inv, State.setPwr_inv]

theorem execRefclkLoss_inv (s : State) (h0 : s.Inv) : Result.Inv (exec .refclkLoss s) := by
  show Result.Inv (execRefclkLoss s)
  unfold execRefclkLoss
  simp -zeta -zetaHave only [ite_sel]
  grind -lia -linarith -ring [sel_or, Result.inv_next, State.alertUpdate_inv, State.logErr_inv, State.resetTo_inv, State.closeCarriers_inv, State.setPwr_inv]

theorem execClockRestored_inv (s : State) (h0 : s.Inv) : Result.Inv (exec .clockRestored s) := by
  show Result.Inv (execClockRestored s)
  unfold execClockRestored
  simp -zeta -zetaHave only [ite_sel]
  grind -lia -linarith -ring [sel_or, State.Inv_iff, State.Inv, Result.inv_next, State.setFld_inv, State.alertUpdate_inv, State.setPwr_inv]

theorem State.sensor_inv (s : State) (k raw : Nat) (h0 : s.Inv) : (State.sensor s k raw).Inv := by
  unfold State.sensor
  refine have h3 := ?_; State.ite_inv h3 (State.ite_inv (State.logErr_inv _ _ _ _ _ (State.irq_inv _ _ _ (State.setPwr_inv _ _ h3)))
    (State.ite_inv (State.setPwr_inv _ _ h3) h3))
  refine have h2 := ?_; State.ite_inv (State.inc_inv _ _ (State.logErr_inv _ _ _ _ _ (State.irq_inv _ _ _ (State.setPwr_inv _ _ h2))))
    (State.ite_inv (State.setPwr_inv _ _ h2) h2)
  exact State.setFld_inv _ _ _ _ (State.ite_inv (State.setFld_inv _ _ _ _ h0) h0)

theorem State.alertWhile_inv (s : State) (k : Nat) (b : Bool) (h0 : s.Inv) : (State.alertWhile s k b).Inv := by
  unfold State.alertWhile
  simp -zeta -zetaHave only [ite_sel]
  grind -lia -linarith -ring [sel_or, State.alertSource_inv]

theorem State.trip_inv (s : State) (k : Nat) (h0 : s.Inv) : (State.trip s k).Inv := by
  unfold State.trip
  grind -lia -linarith -ring [State.setFlag_inv, State.emit_inv, State.alertUpdate_inv, State.logErr_inv, State.resetTo_inv,
    State.closeCarriers_inv, State.setPwr_inv]

theorem execSensorRead_inv (sample : SensorSample) (s : State) (h0 : s.Inv) : Result.Inv (exec (.sensorRead sample) s) := by
  show Result.Inv (execSensorRead sample s)
  unfold execSensorRead
  simp -zeta -zetaHave only [ite_sel, decide_sel]
  grind -lia -linarith -ring [sel_or, foldl_inv, Result.inv_next, State.setFld_inv, State.setFlag_inv, State.inc_inv, State.nextSample_inv,
    State.sensor_inv, State.alertWhile_inv, State.trip_inv]

theorem execRailMonitor_inv (rail voltage current : Nat) (s : State) (h0 : s.Inv) : Result.Inv (exec (.railMonitor rail voltage current) s) := by
  show Result.Inv (execRailMonitor rail voltage current s)
  unfold execRailMonitor
  simp -zeta -zetaHave only [ite_sel]
  grind -lia -linarith -ring [sel_or, Result.inv_next, State.setFld_inv, State.inc_inv, State.irq_inv, State.alertSource_inv, State.logErr_inv]

theorem execPwrAlertForce_inv (s : State) (h0 : s.Inv) : Result.Inv (exec .pwrAlertForce s) := by
  show Result.Inv (execPwrAlertForce s)
  unfold execPwrAlertForce
  grind -lia -linarith -ring [Result.inv_next, State.alertSource_inv, State.onPage_inv]

theorem execPwrCntClear_inv (s : State) (h0 : s.Inv) : Result.Inv (exec .pwrCntClear s) := by
  show Result.Inv (execPwrCntClear s)
  unfold execPwrCntClear
  grind -lia -linarith -ring [foldl_inv, Result.inv_next, State.setFld_inv, State.clearCnts_inv, State.onPage_inv]

/-! ### The operations of Machine/Startup.lean -/

theorem State.applyValue_inv (s : State) (x : RegSet) (h0 : s.Inv) : (State.applyValue s x).Inv := by
  unfold State.applyValue
  simp -zeta -zetaHave only [ite_sel]
  grind -lia -linarith -ring [sel_or, State.wordWrite_inv]

theorem State.recoverKeys_inv (s : State) (helperA helperB : Bool) (h0 : s.Inv) : (State.recoverKeys s helperA helperB).Inv := by
  unfold State.recoverKeys
  simp -zeta -zetaHave only [ite_sel]
  grind -lia -linarith -ring [sel_or, State.draw_inv, State.logErr_inv, State.setCfg_inv]

theorem State.identityStage_inv (s : State) (helperA helperB blob counters unitRec : Bool) (site : Option SiteRec) (values : List RegSet) (h0 : s.Inv) :
    (State.identityStage s helperA helperB blob counters unitRec site values).Inv := by
  unfold State.identityStage
  simp -zeta -zetaHave only [ite_sel]
  grind -lia -linarith -ring [sel_or, State.Inv_iff, State.Inv, foldl_inv, State.wr_inv, State.wrWide_inv, State.setFlag_inv, State.stageDone_inv,
    State.setCfg_inv, State.enterRecovery_inv, State.flashFails_inv, State.applyValue_inv, State.recoverKeys_inv]

theorem State.restoreUnit_inv (s : State) (u step : Nat) (h0 : s.Inv) : (State.restoreUnit s u step).Inv := by
  unfold State.restoreUnit
  simp -zeta -zetaHave only [ite_sel]
  grind -lia -linarith -ring [sel_or, State.setStep_inv, State.retireFen_inv, State.retireMac_inv, State.retireCore_inv]

theorem State.readSettings_inv (s : State) (version : Nat) (current previous : Option SetRec) (h0 : s.Inv) :
    (State.readSettings s version current previous).Inv := by
  unfold State.readSettings
  grind -lia -linarith -ring [State.Inv_iff, State.Inv, foldl_inv, State.setFld_inv, State.setFlag_inv, State.setCfg_inv, State.startSettings_inv,
    State.restoreUnit_inv]

theorem State.firmwareStage_inv (s : State) (image0 image1 : Option ImageInfo) (current previous : Option SetRec) (h0 : s.Inv) :
    (State.firmwareStage s image0 image1 current previous).Inv := by
  unfold State.firmwareStage
  simp -zeta -zetaHave only [ite_sel]
  grind -lia -linarith -ring [sel_or, foldl_inv, State.wr_inv, State.setFld_inv, State.setFlag_inv, State.stageDone_inv, State.setCfg_inv,
    State.enterRecovery_inv, State.readSettings_inv]

theorem State.retireFailed_inv (s : State) (failed : List Nat) (h0 : s.Inv) : (State.retireFailed s failed).Inv := by
  unfold State.retireFailed
  simp -zeta -zetaHave only [ite_sel]
  grind -lia -linarith -ring [sel_or, foldl_inv, State.retireFen_inv]

theorem State.fenStage_inv (s : State) (failed : List Nat) (f stage : Fld) (h0 : s.Inv) : (State.fenStage s failed f stage).Inv := by
  unfold State.fenStage
  grind -lia -linarith -ring [foldl_inv, State.setFlag_inv, State.stageDone_inv, State.retireFailed_inv]

theorem State.macFailed_inv (s : State) (i : Nat) (h0 : s.Inv) : (State.macFailed s i).Inv := by
  unfold State.macFailed
  simp -zeta -zetaHave only [ite_sel]
  grind -lia -linarith -ring [sel_or, State.Inv_iff, State.Inv, State.retireMac_inv]

theorem State.startStage_inv (s : State) (x : StartStage) (h0 : s.Inv) : (State.startStage s x).Inv := by
  unfold State.startStage
  simp -zeta -zetaHave only [ite_sel]
  grind -lia -linarith -ring [sel_or, foldl_inv, State.setFlag_inv, State.logErr_inv, State.stageDone_inv, State.identityStage_inv,
    State.firmwareStage_inv, State.fenStage_inv, State.macFailed_inv]

theorem execCfgStartupStage_inv (stage : StartStage) (s : State) (h0 : s.Inv) : Result.Inv (exec (.cfgStartupStage stage) s) := by
  show Result.Inv (execCfgStartupStage stage s)
  unfold execCfgStartupStage
  grind -lia -linarith -ring [Result.inv_next, State.startStage_inv]

/-! ### A step -/

/-- Every row keeps the invariant: its own lemma, command by command. -/
theorem exec_inv (i : Instr) (s : State) (h0 : s.Inv) : Result.Inv (exec i s) := by
  cases i with
  | registerWrite => exact execRegisterWrite_inv _ _ _ _ _ h0
  | rcFieldRead => exact execRcFieldRead_inv _ _ _ _ h0
  | split64bitRead => exact execSplit64bitRead_inv _ _ _ h0
  | pageLock => exact execPageLock_inv _ _ h0
  | pageReset => exact execPageReset_inv _ _ h0
  | pageResetComplete => exact execPageResetComplete_inv _ _ h0
  | pageIrqForce => exact execPageIrqForce_inv _ _ _ h0
  | pageErrClear => exact execPageErrClear_inv _ _ h0
  | hostResetKey => exact execHostResetKey_inv _ _ h0
  | tenantWindowBind => exact execTenantWindowBind_inv _ _ _ h0
  | cxlLinkTrain => exact execCxlLinkTrain_inv _ _ _ _ _ _ h0
  | bar2Access => exact execBar2Access_inv _ _ _ h0
  | hdmWrite => exact execHdmWrite_inv _ _ _ _ h0
  | cmdRingEnable => exact execCmdRingEnable_inv _ _ _ _ h0
  | cmdRingDisable => exact execCmdRingDisable_inv _ _ h0
  | tailSnoop => exact execTailSnoop_inv _ _ h0
  | tailReread => exact execTailReread_inv _ _ _ h0
  | entryFetch => exact execEntryFetch_inv _ _ _ h0
  | eventRingEnable => exact execEventRingEnable_inv _ _ _ _ h0
  | eventRingDisable => exact execEventRingDisable_inv _ _ h0
  | consSnoop => exact execConsSnoop_inv _ _ _ h0
  | heldEventWrite => exact execHeldEventWrite_inv _ _ h0
  | eventWriteDone => exact execEventWriteDone_inv _ _ h0
  | msixDelayExpiry => exact execMsixDelayExpiry_inv _ _ h0
  | msixUnmask => exact execMsixUnmask_inv _ _ h0
  | nop => exact execNop_inv _ _ h0
  | regWrite => exact execRegWrite_inv _ _ _ _ h0
  | regRead => exact execRegRead_inv _ _ _ h0
  | mpRegRead => exact execMpRegRead_inv _ _ h0
  | mpRegWrite => exact execMpRegWrite_inv _ _ h0
  | mpCommand => exact execMpCommand_inv _ _ h0
  | mpKeySet => exact execMpKeySet_inv _ _ _ _ _ h0
  | mgmtCntClear => exact execMgmtCntClear_inv _ h0
  | timeIncrWrite => exact execTimeIncrWrite_inv _ _ h0
  | timeAdjWrite => exact execTimeAdjWrite_inv _ _ h0
  | slewDone => exact execSlewDone_inv _ h0
  | timeStepKey => exact execTimeStepKey_inv _ _ h0
  | timeSet => exact execTimeSet_inv _ _ _ h0
  | declareLock => exact execDeclareLock_inv _ h0
  | declareLost => exact execDeclareLost_inv _ h0
  | timeHeartbeat => exact execTimeHeartbeat_inv _ h0
  | holdWindowExpiry => exact execHoldWindowExpiry_inv _ h0
  | holdoverExpiry => exact execHoldoverExpiry_inv _ h0
  | parkMaxExpiry => exact execParkMaxExpiry_inv _ h0
  | timeNowRead => exact execTimeNowRead_inv _ _ h0
  | timeMessageRx => exact execTimeMessageRx_inv _ _ h0
  | syncTx => exact execSyncTx_inv _ _ _ h0
  | sourceSwitch => exact execSourceSwitch_inv _ h0
  | timeTxqEntryRead => exact execTimeTxqEntryRead_inv _ h0
  | tpoEnable => exact execTpoEnable_inv _ _ h0
  | tpoEdge => exact execTpoEdge_inv _ _ h0
  | tpoPulseEnd => exact execTpoPulseEnd_inv _ _ h0
  | tpiEdge => exact execTpiEdge_inv _ _ _ _ h0
  | tpiStuck => exact execTpiStuck_inv _ _ h0
  | tpiCaptRead => exact execTpiCaptRead_inv _ _ h0
  | asymCal => exact execAsymCal_inv _ _ _ _ h0
  | calWindowEnd => exact execCalWindowEnd_inv _ _ h0
  | calReportRx => exact execCalReportRx_inv _ _ h0
  | calReportTimeout => exact execCalReportTimeout_inv _ _ h0
  | calStartRx => exact execCalStartRx_inv _ _ h0
  | calBurst => exact execCalBurst_inv _ _ _ h0
  | packetRx => exact execPacketRx_inv _ _ _ _ _ h0
  | packetTail => exact execPacketTail_inv _ _ _ _ _ _ h0
  | pipelineLookup => exact execPipelineLookup_inv _ _ _ h0
  | ringFlitEntry => exact execRingFlitEntry_inv _ _ _ _ _ _ h0
  | switchGrant => exact execSwitchGrant_inv _ _ h0
  | bridgeFlitRetry => exact execBridgeFlitRetry_inv _ _ _ h0
  | outputEnqueue => exact execOutputEnqueue_inv _ _ _ h0
  | transmitStart => exact execTransmitStart_inv _ _ _ h0
  | occPublish => exact execOccPublish_inv _ h0
  | drizzleRecord => exact execDrizzleRecord_inv _ _ h0
  | qmLimitWrite => exact execQmLimitWrite_inv _ _ _ _ _ h0
  | policerWrite => exact execPolicerWrite_inv _ _ _ _ _ _ h0
  | drzSeedLoad => exact execDrzSeedLoad_inv _ _ _ h0
  | ptCntClear => exact execPtCntClear_inv _ _ _ h0
  | lfsrSeedLoad => exact execLfsrSeedLoad_inv _ _ _ h0
  | qmCntClear => exact execQmCntClear_inv _ _ _ h0
  | ringCntClear => exact execRingCntClear_inv _ _ h0
  | leafSet => exact execLeafSet_inv _ _ _ _ _ h0
  | epgenSet => exact execEpgenSet_inv _ _ _ _ _ _ h0
  | ovrInsert => exact execOvrInsert_inv _ _ _ _ _ _ h0
  | ovrDelete => exact execOvrDelete_inv _ _ _ h0
  | ovrAge => exact execOvrAge_inv _ _ _ h0
  | grpSet => exact execGrpSet_inv _ _ _ _ _ _ _ _ h0
  | grpDelete => exact execGrpDelete_inv _ _ _ h0
  | memberLoad => exact execMemberLoad_inv _ _ _ _ _ h0
  | tableLoad => exact execTableLoad_inv _ _ _ _ h0
  | tableRead => exact execTableRead_inv _ _ _ _ h0
  | cmpWordCompare => exact execCmpWordCompare_inv _ h0
  | fwtCntClear => exact execFwtCntClear_inv _ _ h0
  | learnMoveRx => exact execLearnMoveRx_inv _ _ _ h0
  | learnUnmoveRx => exact execLearnUnmoveRx_inv _ _ _ h0
  | learnAckRx => exact execLearnAckRx_inv _ _ _ h0
  | linkDataFrameRx => exact execLinkDataFrameRx_inv _ _ _ _ h0
  | ackRx => exact execAckRx_inv _ _ _ _ _ h0
  | nakRx => exact execNakRx_inv _ _ _ _ _ h0
  | creditRx => exact execCreditRx_inv _ _ _ _ _ h0
  | helloRx => exact execHelloRx_inv _ _ _ _ _ h0
  | goodbyeRx => exact execGoodbyeRx_inv _ _ _ _ _ h0
  | replayTimeout => exact execReplayTimeout_inv _ _ h0
  | helloTimer => exact execHelloTimer_inv _ _ h0
  | reedsLocked => exact execReedsLocked_inv _ _ h0
  | provisionalTimer => exact execProvisionalTimer_inv _ _ h0
  | reedsUnlocked => exact execReedsUnlocked_inv _ _ h0
  | pcsAligned => exact execPcsAligned_inv _ _ h0
  | alignTimeout => exact execAlignTimeout_inv _ _ h0
  | helloTimeout => exact execHelloTimeout_inv _ _ h0
  | pcsAlignLoss => exact execPcsAlignLoss_inv _ _ h0
  | holdDownEnd => exact execHoldDownEnd_inv _ _ h0
  | trainingWaitEnd => exact execTrainingWaitEnd_inv _ _ h0
  | dampingDecay => exact execDampingDecay_inv _ _ h0
  | linkProvision => exact execLinkProvision_inv _ _ _ _ h0
  | sluiceEp => exact execSluiceEp_inv _ _ _ _ h0
  | linkQuery => exact execLinkQuery_inv _ _ _ h0
  | linkParams => exact execLinkParams_inv _ _ _ _ _ _ h0
  | tideSlotBoundary => exact execTideSlotBoundary_inv _ _ _ _ h0
  | cwTakeover => exact execCwTakeover_inv _ _ h0
  | launch => exact execLaunch_inv _ _ h0
  | tideLoad => exact execTideLoad_inv _ _ _ h0
  | tideCancel => exact execTideCancel_inv _ _ h0
  | tideStop => exact execTideStop_inv _ _ _ h0
  | launchSet => exact execLaunchSet_inv _ _ _ _ _ _ h0
  | tideRead => exact execTideRead_inv _ _ _ _ h0
  | tideListDisable => exact execTideListDisable_inv _ _ h0
  | shaperWrite => exact execShaperWrite_inv _ _ _ _ h0
  | tideCntClear => exact execTideCntClear_inv _ _ h0
  | lineLow => exact execLineLow_inv _ _ _ _ _ h0
  | lineFail => exact execLineFail_inv _ _ _ _ h0
  | lineRestore => exact execLineRestore_inv _ _ _ _ h0
  | feedFault => exact execFeedFault_inv _ _ _ _ h0
  | feedDarkInterlock => exact execFeedDarkInterlock_inv _ _ _ h0
  | elsRemoval => exact execElsRemoval_inv _ _ h0
  | elsInsertion => exact execElsInsertion_inv _ _ h0
  | identityReadDone => exact execIdentityReadDone_inv _ _ _ h0
  | laserEnable => exact execLaserEnable_inv _ _ h0
  | ringIdentityFail => exact execRingIdentityFail_inv _ _ _ _ _ h0
  | relockDone => exact execRelockDone_inv _ _ _ _ _ _ h0
  | ringSlip => exact execRingSlip_inv _ _ _ _ h0
  | slipEnd => exact execSlipEnd_inv _ _ _ _ h0
  | failsReset => exact execFailsReset_inv _ _ _ h0
  | reedLightLoss => exact execReedLightLoss_inv _ _ _ h0
  | cxPowerPublish => exact execCxPowerPublish_inv _ _ _ h0
  | marginTestStart => exact execMarginTestStart_inv _ _ h0
  | marginStepRx => exact execMarginStepRx_inv _ _ _ _ _ h0
  | marginDwellEnd => exact execMarginDwellEnd_inv _ _ _ h0
  | marginReportRx => exact execMarginReportRx_inv _ _ _ _ _ h0
  | marginDoneRx => exact execMarginDoneRx_inv _ _ _ _ _ h0
  | marginReportTimeout => exact execMarginReportTimeout_inv _ _ h0
  | marginRetry => exact execMarginRetry_inv _ _ h0
  | reedRetry => exact execReedRetry_inv _ _ _ h0
  | marginRun => exact execMarginRun_inv _ _ _ h0
  | idRead => exact execIdRead_inv _ _ h0
  | cwLoad => exact execCwLoad_inv _ _ _ h0
  | cwStanding => exact execCwStanding_inv _ _ _ _ _ h0
  | standingBuildDone => exact execStandingBuildDone_inv _ _ h0
  | cwCancel => exact execCwCancel_inv _ _ h0
  | oeCntClear => exact execOeCntClear_inv _ _ h0
  | cwCntClear => exact execCwCntClear_inv _ _ h0
  | elsCntClear => exact execElsCntClear_inv _ _ h0
  | fenOpen => exact execFenOpen_inv _ _ _ h0
  | collIn => exact execCollIn_inv _ _ _ _ h0
  | chunkRelease => exact execChunkRelease_inv _ _ _ _ h0
  | verdict => exact execVerdict_inv _ _ _ _ _ h0
  | fenStall => exact execFenStall_inv _ _ _ _ h0
  | fenRepeat => exact execFenRepeat_inv _ _ _ h0
  | fenDone => exact execFenDone_inv _ _ _ h0
  | hallAdmittedRx => exact execHallAdmittedRx_inv _ _ _ h0
  | hallRefusedRx => exact execHallRefusedRx_inv _ _ _ h0
  | hallOpenTimeout => exact execHallOpenTimeout_inv _ _ _ h0
  | hallReleaseRx => exact execHallReleaseRx_inv _ _ _ h0
  | hallRecallRx => exact execHallRecallRx_inv _ _ _ h0
  | hallRecordRx => exact execHallRecordRx_inv _ _ _ h0
  | fenMemError => exact execFenMemError_inv _ _ _ _ _ h0
  | reducerUe => exact execReducerUe_inv _ _ h0
  | fenDescSet => exact execFenDescSet_inv _ _ _ _ h0
  | fenDescRead => exact execFenDescRead_inv _ _ _ _ h0
  | fenPartSet => exact execFenPartSet_inv _ _ _ _ _ _ _ _ _ _ h0
  | fenPartReset => exact execFenPartReset_inv _ _ _ h0
  | fenAbort => exact execFenAbort_inv _ _ _ _ h0
  | fenQuery => exact execFenQuery_inv _ _ _ h0
  | saltSeedLoad => exact execSaltSeedLoad_inv _ _ _ h0
  | fenCntClear => exact execFenCntClear_inv _ _ h0
  | fadmCntClear => exact execFadmCntClear_inv _ _ h0
  | tierGrant => exact execTierGrant_inv _ _ _ _ _ h0
  | arbWindow => exact execArbWindow_inv _ _ h0
  | lockBreak => exact execLockBreak_inv _ _ h0
  | scrub => exact execScrub_inv _ _ _ h0
  | tier1Trained => exact execTier1Trained_inv _ _ h0
  | tier2Trained => exact execTier2Trained_inv _ _ _ _ h0
  | peatPut => exact execPeatPut_inv _ _ _ _ h0
  | peatGet => exact execPeatGet_inv _ _ _ _ h0
  | peatGather => exact execPeatGather_inv _ _ _ _ h0
  | peatAttend => exact execPeatAttend_inv _ _ _ _ h0
  | peatPin => exact execPeatPin_inv _ _ _ _ h0
  | peatEvict => exact execPeatEvict_inv _ _ _ _ h0
  | peatPromote => exact execPeatPromote_inv _ _ _ _ h0
  | peatDemote => exact execPeatDemote_inv _ _ _ _ h0
  | peatReasmTimeout => exact execPeatReasmTimeout_inv _ _ _ _ h0
  | autoDemote => exact execAutoDemote_inv _ _ h0
  | peatPowerInterval => exact execPeatPowerInterval_inv _ _ h0
  | peatPartUe => exact execPeatPartUe_inv _ _ _ h0
  | staleSweepDone => exact execStaleSweepDone_inv _ _ h0
  | peatPartSet => exact execPeatPartSet_inv _ _ _ _ _ _ _ _ _ _ _ _ _ h0
  | peatPartReset => exact execPeatPartReset_inv _ _ _ h0
  | peatLookup => exact execPeatLookup_inv _ _ _ _ h0
  | peatSnapshot => exact execPeatSnapshot_inv _ _ _ _ h0
  | peatUsage => exact execPeatUsage_inv _ _ _ h0
  | peatCntClear => exact execPeatCntClear_inv _ h0
  | tierCntClear => exact execTierCntClear_inv _ h0
  | tierChCntClear => exact execTierChCntClear_inv _ _ h0
  | windowOpen => exact execWindowOpen_inv _ _ h0
  | windowClose => exact execWindowClose_inv _ h0
  | winUsWrite => exact execWinUsWrite_inv _ _ h0
  | windowReconfig => exact execWindowReconfig_inv _ _ h0
  | telem => exact execTelem_inv _ _ _ h0
  | segmentTimeout => exact execSegmentTimeout_inv _ _ h0
  | segmentComplete => exact execSegmentComplete_inv _ _ _ h0
  | delGroupSet => exact execDelGroupSet_inv _ _ _ _ _ _ _ _ _ h0
  | frostArm => exact execFrostArm_inv _ _ _ _ h0
  | thaw => exact execThaw_inv _ _ _ h0
  | frostCancel => exact execFrostCancel_inv _ _ h0
  | snapshot => exact execSnapshot_inv _ _ _ h0
  | delSnapRead => exact execDelSnapRead_inv _ _ _ _ h0
  | frostInEdge => exact execFrostInEdge_inv _ _ _ h0
  | frostInStuck => exact execFrostInStuck_inv _ h0
  | frostLatch => exact execFrostLatch_inv _ h0
  | frostOutEnd => exact execFrostOutEnd_inv _ h0
  | thawTime => exact execThawTime_inv _ h0
  | autoThaw => exact execAutoThaw_inv _ h0
  | frostImage => exact execFrostImage_inv _ h0
  | traceArm => exact execTraceArm_inv _ h0
  | traceTrigger => exact execTraceTrigger_inv _ h0
  | traceMark => exact execTraceMark_inv _ _ h0
  | traceCaptureEnd => exact execTraceCaptureEnd_inv _ h0
  | delCntClear => exact execDelCntClear_inv _ h0
  | delFrostCntClear => exact execDelFrostCntClear_inv _ h0
  | baroEvaluation => exact execBaroEvaluation_inv _ h0
  | fenceCommit => exact execFenceCommit_inv _ h0
  | peerFenceResend => exact execPeerFenceResend_inv _ _ _ h0
  | peerFenceRx => exact execPeerFenceRx_inv _ _ _ h0
  | peerUnfenceRx => exact execPeerUnfenceRx_inv _ _ _ h0
  | fenceAckRx => exact execFenceAckRx_inv _ _ _ h0
  | shieldEnd => exact execShieldEnd_inv _ _ h0
  | fenceCopyUe => exact execFenceCopyUe_inv _ h0
  | fenceAdd => exact execFenceAdd_inv _ _ _ _ _ _ h0
  | fenceClear => exact execFenceClear_inv _ _ _ _ _ h0
  | fenceRead => exact execFenceRead_inv _ _ _ h0
  | holdClear => exact execHoldClear_inv _ _ _ h0
  | scoreRead => exact execScoreRead_inv _ _ _ h0
  | scoreReset => exact execScoreReset_inv _ _ _ h0
  | baroCntClear => exact execBaroCntClear_inv _ h0
  | chkMargin => exact execChkMargin_inv _ _ _ _ h0
  | chkReturn => exact execChkReturn_inv _ _ _ h0
  | iftRun => exact execIftRun_inv _ _ _ h0
  | iftSchedule => exact execIftSchedule_inv _ _ h0
  | iftWaitExpiry => exact execIftWaitExpiry_inv _ _ h0
  | iftComplete => exact execIftComplete_inv _ _ _ h0
  | handoverDrained => exact execHandoverDrained_inv _ _ h0
  | pendingSubstitution => exact execPendingSubstitution_inv _ _ h0
  | macTileUe => exact execMacTileUe_inv _ _ _ h0
  | erganMemError => exact execErganMemError_inv _ _ _ h0
  | degradedTakeover => exact execDegradedTakeover_inv _ h0
  | chkCntClear => exact execChkCntClear_inv _ h0
  | pmcSlotCfgWrite => exact execPmcSlotCfgWrite_inv _ _ _ h0
  | tagSeedLoad => exact execTagSeedLoad_inv _ _ h0
  | pmcCntClear => exact execPmcCntClear_inv _ _ h0
  | pmcTagCopy => exact execPmcTagCopy_inv _ _ _ _ h0
  | mireRead => exact execMireRead_inv _ _ _ _ h0
  | mireRound => exact execMireRound_inv _ _ h0
  | mirePeriod => exact execMirePeriod_inv _ h0
  | mireEdgesRx => exact execMireEdgesRx_inv _ _ _ h0
  | creditBlockTimer => exact execCreditBlockTimer_inv _ _ _ h0
  | fwStage => exact execFwStage_inv _ _ _ _ _ h0
  | fwActivate => exact execFwActivate_inv _ _ _ h0
  | fwTakeover => exact execFwTakeover_inv _ h0
  | takeoverLate => exact execTakeoverLate_inv _ h0
  | fwCommit => exact execFwCommit_inv _ _ _ h0
  | fwRollback => exact execFwRollback_inv _ _ _ h0
  | fwChain => exact execFwChain_inv _ _ _ _ h0
  | chainDataRx => exact execChainDataRx_inv _ _ _ _ h0
  | chainAckRx => exact execChainAckRx_inv _ _ _ h0
  | chainDoneRx => exact execChainDoneRx_inv _ _ _ h0
  | chainAbortRx => exact execChainAbortRx_inv _ _ _ h0
  | chainResend => exact execChainResend_inv _ _ _ h0
  | chainTimeout => exact execChainTimeout_inv _ _ h0
  | cfgWrite => exact execCfgWrite_inv _ _ _ _ _ h0
  | jobReuse => exact execJobReuse_inv _ _ _ _ _ _ _ h0
  | attest => exact execAttest_inv _ _ _ _ _ h0
  | unlockChallenge => exact execUnlockChallenge_inv _ _ _ h0
  | unlock => exact execUnlock_inv _ _ _ _ h0
  | pufRefresh => exact execPufRefresh_inv _ _ _ h0
  | bcastStart => exact execBcastStart_inv _ _ _ _ _ _ _ h0
  | bcastAbort => exact execBcastAbort_inv _ _ _ h0
  | bcastAck => exact execBcastAck_inv _ _ _ h0
  | bcastBlockDeadline => exact execBcastBlockDeadline_inv _ _ _ _ h0
  | bcastRelayRx => exact execBcastRelayRx_inv _ _ _ h0
  | bcastStallNotice => exact execBcastStallNotice_inv _ _ h0
  | cfgStartupStage => exact execCfgStartupStage_inv _ _ h0
  | pwrGoodRise => exact execPwrGoodRise_inv _ h0
  | pwrGoodFall => exact execPwrGoodFall_inv _ h0
  | resetNAssert => exact execResetNAssert_inv _ _ h0
  | resetNRelease => exact execResetNRelease_inv _ h0
  | refclkLoss => exact execRefclkLoss_inv _ h0
  | clockRestored => exact execClockRestored_inv _ h0
  | sensorRead => exact execSensorRead_inv _ _ h0
  | railMonitor => exact execRailMonitor_inv _ _ _ _ h0
  | pwrAlertForce => exact execPwrAlertForce_inv _ h0
  | pwrCntClear => exact execPwrCntClear_inv _ h0
  | tideListEnable => exact execTideListEnable_inv _ _ h0
  | calBurstReturn => exact execCalBurstReturn_inv _ _ _ h0
  | calLoopEnd => exact execCalLoopEnd_inv _ _ h0
  | pdelayReqTx => exact execPdelayReqTx_inv _ _ _ h0
  | announceTx => exact execAnnounceTx_inv _ h0
  | hallAbortRx => exact execHallAbortRx_inv _ _ _ h0
  | cxlLinkDown => exact execCxlLinkDown_inv _ h0
  | laserLightOn => exact execLaserLightOn_inv _ _ h0

theorem step_inv (s : State) (h0 : s.Inv) : Result.Inv (step s) := by
  unfold step
  cases s.pending with
  | cons c rest => exact exec_inv c _ (State.Inv_of_eq h0 rfl rfl rfl rfl)
  | nil => exact Result.inv_next.2 (State.elapse_inv _ _ h0)

/-- Settles O41: a step runs one row, or lets a tick pass, and each keeps the invariant. -/
theorem stepKeepsInv : Obligations.StepKeepsInv := fun s t h0 ht => step_inv s h0 t ht

end Sys2Proof.Machine
end

section
/-! PROOF. The rules of the whole block: the tie of a step to its command, starts, privileges, the shape of an access, events and completions. -/
namespace Sys2Proof.BlockRules
open Sys2Proof Sys2Proof.Machine

/-! ### The step, the reset state, and the start of a command -/

/-- Settles O39: a step matches on the queue. -/
theorem stepRunsFront : Obligations.StepRunsFront := by
  unfold Obligations.StepRunsFront
  refine ⟨fun s c rest hq => ?_, fun s hq => ?_⟩ <;> simp only [step, hq]

/-- Settles O40: every table of the reset state is empty. -/
theorem resetInv : Obligations.ResetInv := by
  unfold Obligations.ResetInv
  exact ⟨rfl, rfl, rfl, rfl⟩

section
variable {s : State} {h : CmdHdr} {op : Nat}

theorem mayStart_of_ahead_waiting (hw : ∃ t ∈ s.ahead h op, t.running = false) : s.mayStart h op = false := by
  obtain ⟨t, ht, hr⟩ := hw
  have hall : (s.ahead h op).all (·.running) = false := List.all_eq_false.2 ⟨t, ht, by simp [hr]⟩
  simp [State.mayStart, hall]

theorem mayStart_of_fence_behind (hf : h.fence = true) (ha : s.ahead h op ≠ []) : s.mayStart h op = false := by
  simp [State.mayStart, hf, ha]

theorem mayStart_of_outranked (ho : s.outranked h op = true) : s.mayStart h op = false := by
  simp [State.mayStart, ho]

theorem exec_waits {c : Instr} {oper : Bool} (hc : commandOf c = some (h, op, oper)) (hw : s.mayStart h op = false) : exec c s = .next s := by
  obtain ⟨body, hbody⟩ := exec_command s hc
  rw [hbody, State.runCmd_waits body hw]

end

/-- Settles O42: each condition keeps the command from starting. -/
theorem fenceWaits : Obligations.FenceWaits := by
  unfold Obligations.FenceWaits
  intro c h op oper s hc
  exact ⟨fun hw => exec_waits hc (mayStart_of_ahead_waiting hw), fun hf ha => exec_waits hc (mayStart_of_fence_behind hf ha),
    fun ho => exec_waits hc (mayStart_of_outranked ho)⟩

/-- Settles O45: the operator check stands between the stage check and the command's own effect. -/
theorem tenantsDenied : Obligations.TenantsDenied := by
  unfold Obligations.TenantsDenied
  intro c h op s hc hmay hstage hoper
  obtain ⟨body, hbody⟩ := exec_command s hc
  rw [hbody, State.runCmd_denied body hmay hstage hoper, State.deny]

/-! ### The shape of an access -/

theorem misaligned_iff {a n : Nat} : misaligned a n = true ↔ (n ≠ 4 ∧ n ≠ 8) ∨ a % n ≠ 0 := by
  simp [misaligned]

section
variable {s : State} {a n v : Nat}

theorem writeAcc_misaligned (hheld : s.pwr.held = false) (hmis : misaligned a n = true) :
    s.writeAcc a n v = (true, s.logErr hostPg 0x0001 0 hostLoc) := by
  simp only [State.writeAcc, hheld, hmis, if_true, Bool.false_eq_true, if_false]

theorem readAcc_misaligned (hheld : s.pwr.held = false) (hmis : misaligned a n = true) :
    s.readAcc a n = (true, 0, s.logErr hostPg 0x0001 0 hostLoc) := by
  simp only [State.readAcc, hheld, hmis, if_true, Bool.false_eq_true, if_false]

theorem writeAcc_mapped_kept (hheld : s.pwr.held = false) (hmis : misaligned a n = false) (hmap : s.mapped a = true) : (s.writeAcc a n v).1 = false := by
  simp only [State.writeAcc, hheld, hmis, hmap, Bool.not_true, Bool.false_eq_true, if_false]

theorem readAcc_mapped_kept (hheld : s.pwr.held = false) (hmis : misaligned a n = false) (hmap : s.mapped a = true) : (s.readAcc a n).1 = false := by
  simp only [State.readAcc, hheld, hmis, hmap, Bool.not_true, Bool.false_eq_true, if_false]
  split <;> rfl

theorem exec_registerWrite_reaches {who : Requester} (hwho : reaches who a = true) : exec (.registerWrite a n v who) s = .next (s.writeAcc a n v).2 :=
  congrArg Host.Outcome.next (if_pos hwho)

theorem exec_rcFieldRead_reaches {who : Requester} (hwho : reaches who a = true) :
    exec (.rcFieldRead a n who) s = .next ((s.readAcc a n).2.2.emit (.readData a (s.readAcc a n).2.1)) :=
  congrArg Host.Outcome.next (if_pos hwho)

theorem exec_split64bitRead_reaches {who : Requester} (hwho : reaches who a = true) :
    exec (.split64bitRead a who) s = .next ((s.readAcc a 4).2.2.emit (.readData a (s.readAcc a 4).2.1)) :=
  congrArg Host.Outcome.next (if_pos hwho)

end

/-- Settles O46: the shape is checked before the mapping, and a mapped access of a right shape is carried out. -/
theorem accessShape : Obligations.AccessShape := by
  unfold Obligations.AccessShape
  refine ⟨?rows, ?shape, ?kept⟩
  case rows =>
    intro s a n v who hheld hwho hshape
    have hmis := misaligned_iff.2 hshape
    rw [exec_registerWrite_reaches hwho, exec_rcFieldRead_reaches hwho, writeAcc_misaligned hheld hmis, readAcc_misaligned hheld hmis]
    exact ⟨rfl, rfl⟩
  case shape =>
    intro s a n v hheld hshape
    have hmis := misaligned_iff.2 hshape
    exact ⟨writeAcc_misaligned hheld hmis, readAcc_misaligned hheld hmis⟩
  case kept =>
    intro s a n v hheld hn ha hmap
    have hmis : misaligned a n = false := by
      rw [← Bool.not_eq_true, misaligned_iff]
      omega
    exact ⟨writeAcc_mapped_kept hheld hmis hmap, readAcc_mapped_kept hheld hmis hmap⟩

/-- Settles O47: both directions of BAR2 stand behind the training of tier 1. -/
theorem bar2BeforeTraining : Obligations.Bar2BeforeTraining := by
  unfold Obligations.Bar2BeforeTraining
  exact ⟨fun _ off n errs hready => (HostPort.exec_bar2Access_untrained hready off n errs []).1,
    fun _ off bs hready => (HostPort.exec_bar2Access_untrained hready off 0 [] bs).2⟩

end Sys2Proof.BlockRules
end

section
/-! PROOF. Event rings: what posting an event does with the ring off, full or free (R93, R97–R99, R104, R105). -/
namespace Sys2Proof.EventRules
open Sys2Proof Sys2Proof.Machine

section
variable {s : State} {j : Nat} {e : Ev}

/-! ### A ring's record and its configuration -/

/-- A record that differs from the initial one is listed as it is, whatever the table. -/
theorem er_setEr_same {r : ErSt} (hr : r ≠ ErSt.init) : (s.setEr j r).er j = r := by
  simp [State.er, State.setEr, Tbl.set, hr, getD_put]

theorem setEr_erOn (r : ErSt) : (s.setEr j r).erOn j = s.erOn j := rfl
theorem setEr_mpTakes (r : ErSt) : (s.setEr j r).mpTakes j = s.mpTakes j := rfl
theorem setEr_erSize (r : ErSt) : (s.setEr j r).erSize j = s.erSize j := rfl

theorem er_ne_init_of_full (hfull : s.erFull j = true) : ¬ ((s.er j).prod = 0 ∧ (s.er j).cons = 0) := by
  rintro ⟨hp, hc⟩
  have hpos : 0 < s.erSize j := Nat.two_pow_pos _
  simp only [State.erFull, hp, hc, decide_eq_true_eq] at hfull
  omega

/-! ### Ring off -/

theorem post_off_completion (hoff : s.erOn j = false) (hmp : s.mpTakes j = false) (hk : e.kind = 1) : s.post j e = s.emit (.firmware e) := by
  simp [State.post, State.erSeq, hk, hoff, hmp]

theorem post_off_other (hoff : s.erOn j = false) (hmp : s.mpTakes j = false) (hk : e.kind ≠ 1) :
    s.post j e = (s.setEr j { s.er j with seq := ((s.er j).seq + 1) % 2 ^ 32 }).emit (.firmware { e with tag := (s.er j).seq }) := by
  simp only [State.post, State.erSeq, hk, if_false, setEr_mpTakes, setEr_erOn, hoff, hmp, Bool.false_eq_true, Bool.not_false, if_true]

end

/-- Settles O48: with the ring off only the delivery to firmware is left. -/
theorem eventsToFirmware : Obligations.EventsToFirmware := by
  unfold Obligations.EventsToFirmware
  refine ⟨fun s j e hoff hmp => ⟨post_off_completion hoff hmp, post_off_other hoff hmp⟩, fun s i code hoff hmp => ?_⟩
  unfold State.ringError
  rw [post_off_other hoff hmp (by simp)]
  exact ⟨_, rfl, rfl, rfl⟩

section
variable {s : State} {j : Nat} {e : Ev}

/-! ### A full ring -/

/-- The state in which an event that is no completion has taken its number. -/
def numbered (s : State) (j : Nat) : State := s.setEr j { s.er j with seq := ((s.er j).seq + 1) % 2 ^ 32 }

theorem er_numbered (hfull : s.erFull j = true) : (numbered s j).er j = { s.er j with seq := ((s.er j).seq + 1) % 2 ^ 32 } :=
  er_setEr_same fun h => er_ne_init_of_full hfull ⟨congrArg ErSt.prod h, congrArg ErSt.cons h⟩

theorem erFull_numbered (hfull : s.erFull j = true) : (numbered s j).erFull j = true := by
  unfold State.erFull at hfull ⊢
  rw [er_numbered (by unfold State.erFull; exact hfull)]
  exact hfull

theorem numbered_on (hon : s.erOn j = true) : (numbered s j).erOn j = true := hon
theorem numbered_off_port (hmp : s.mpTakes j = false) : (numbered s j).mpTakes j = false := hmp

theorem erSeq_numbered (hk : e.kind ≠ 1) : s.erSeq j e = ({ e with tag := (s.er j).seq }, numbered s j) := by
  simp only [State.erSeq, hk, if_false, numbered]

theorem post_full_completion (hon : s.erOn j = true) (hmp : s.mpTakes j = false) (hfull : s.erFull j = true) (hk : e.kind = 1) :
    s.post j e = s.setEr j { s.er j with waiting := (s.er j).waiting ++ [e] } := by
  simp [State.post, State.erSeq, hk, hon, hmp, hfull]

theorem waitingOf_numbered (hfull : s.erFull j = true) (b : Bool) : ((numbered s j).er j).waitingOf b = (s.er j).waitingOf b := by
  rw [er_numbered hfull]; rfl

theorem post_full_queued (hon : s.erOn j = true) (hmp : s.mpTakes j = false) (hfull : s.erFull j = true) (hk : e.kind = 4 ∨ e.kind = 5)
    (hroom : (s.er j).waitingOf false < 64) : s.post j e = (numbered s j).setEr j
      { (numbered s j).er j with waiting := ((numbered s j).er j).waiting ++ [{ e with tag := (s.er j).seq }] } := by
  have hk1 : e.kind ≠ 1 := by omega
  have hkeep : (e.kind == 1 || e.kind == 4 || e.kind == 5) = true := by rcases hk with hk | hk <;> simp [hk]
  have hlen : decide (64 ≤ ((numbered s j).er j).waitingOf false) = false := by
    rw [waitingOf_numbered hfull]; exact decide_eq_false (by omega)
  simp only [State.post, erSeq_numbered hk1, numbered_off_port hmp, numbered_on hon, erFull_numbered hfull, hkeep, hlen, Bool.and_false,
    Bool.false_eq_true, if_false, Bool.not_true, Bool.true_or, Bool.and_true, if_true]

theorem post_full_dropped (hon : s.erOn j = true) (hmp : s.mpTakes j = false) (hfull : s.erFull j = true)
    (hk : (e.kind = 4 ∨ e.kind = 5) ∧ 64 ≤ (s.er j).waitingOf false ∨ e.kind = 2 ∨ e.kind = 3) : s.post j e = (numbered s j).erDrop j := by
  have hk1 : e.kind ≠ 1 := by omega
  simp only [State.post, erSeq_numbered hk1, numbered_off_port hmp, numbered_on hon, erFull_numbered hfull, Bool.false_eq_true, if_false, Bool.not_true,
    Bool.true_or, Bool.and_true, if_true, waitingOf_numbered hfull]
  rcases hk with ⟨_, hlen⟩ | hk | hk
  · simp [hk1, hlen]
  · simp [hk]
  · simp [hk]

theorem er_erDrop : (s.erDrop j).er j = { s.er j with dropped := min ((s.er j).dropped + 1) 0xFFFF, overflowed := 1, lost := true } :=
  er_setEr_same fun h => Bool.noConfusion (congrArg ErSt.lost h)

/-! ### Writing an entry -/

theorem erAddr_eq (k : Nat) : s.erAddr j k = 4096 * s.fld (Reg.HOST_ER_BASE (erPage j) (j % 64)) Fld.HOST_ER_BASE_ADDR + 64 * (k % s.erSize j) := by
  have hlt := State.rdWide_lt 2 s (Reg.HOST_ER_BASE (erPage j) (j % 64))
  simp only [State.erAddr, State.fld, Fld.HOST_ER_BASE_ADDR, bits]
  norm_num [Nat.shiftRight_eq_div_pow]
  omega

theorem er_erWrite : (s.erWrite j e).er j = { s.er j with prod := ((s.er j).prod + 1) % 2 ^ 32, lost := false, unsig := (s.er j).unsig ++ [s.time.ticks] } :=
  er_setEr_same fun h => absurd (congrArg ErSt.unsig h) (by simp [ErSt.init])

theorem erWrite_out (he : e.ring = none) : (s.erWrite j e).out =
    .wrInv j (s.er j).prod (s.erAddr j (s.er j).prod) e ((s.er j).prod / s.erSize j % 2 == 0) (s.er j).lost :: s.out := by
  simp only [State.erWrite, he, State.emit]
  rfl

theorem crFetch_held {i : Nat} (hheld : (s.er (s.crCfg i Fld.HOST_CR_CFG_EVENT_RING)).waitingOf true ≠ 0) : s.crFetch i = s :=
  if_neg fun h => by simp [State.crMayFetch, hheld] at h

end

/-- Settles O49: the three answers of a full ring, the entry written, and the fetch that waits. -/
theorem fullEventRing : Obligations.FullEventRing := by
  unfold Obligations.FullEventRing
  refine ⟨fun s j e hon hmp hfull => ⟨post_full_completion hon hmp hfull, ?queued, ?dropped⟩, ?entry, fun s i => crFetch_held⟩
  case queued =>
    intro hk hroom
    rw [post_full_queued hon hmp hfull hk hroom, er_setEr_same fun h => absurd (congrArg ErSt.waiting h) (by simp [ErSt.init]), er_numbered hfull]
    exact ⟨rfl, rfl⟩
  case dropped =>
    intro hk
    rw [post_full_dropped hon hmp hfull hk, er_erDrop, er_numbered hfull]
    exact ⟨rfl, rfl, rfl, rfl, rfl⟩
  case entry =>
    intro s j e he
    rw [er_erWrite, erWrite_out he, erAddr_eq]
    exact ⟨rfl, rfl, rfl⟩

end Sys2Proof.EventRules
end

section
/-! PROOF. Completions: to whom they go, and what posting one leaves as it was (R93, R104). -/
namespace Sys2Proof.CompletionRules
open Sys2Proof Sys2Proof.Machine

/-! ### What posting keeps -/

/-- The register words, the memories, the log positions and Delsia are as before. -/
structure KeepsWords (s t : State) : Prop where
  regs : t.regs = s.regs
  mem1 : t.mem1 = s.mem1
  mem2 : t.mem2 = s.mem2
  logLast : t.logLast = s.logLast
  del : t.del = s.del

theorem KeepsWords.refl (s : State) : KeepsWords s s := ⟨rfl, rfl, rfl, rfl, rfl⟩

theorem KeepsWords.trans {s t u : State} (h : KeepsWords s t) (k : KeepsWords t u) : KeepsWords s u :=
  ⟨k.regs.trans h.regs, k.mem1.trans h.mem1, k.mem2.trans h.mem2, k.logLast.trans h.logLast, k.del.trans h.del⟩

theorem setEr_keeps (s : State) (j : Nat) (r : ErSt) : KeepsWords s (s.setEr j r) := ⟨rfl, rfl, rfl, rfl, rfl⟩
theorem erDrop_keeps (s : State) (j : Nat) : KeepsWords s (s.erDrop j) := ⟨rfl, rfl, rfl, rfl, rfl⟩
theorem erWrite_keeps (s : State) (j : Nat) (e : Ev) : KeepsWords s (s.erWrite j e) := ⟨rfl, rfl, rfl, rfl, rfl⟩
theorem emit_keeps (s : State) (o : Out) : KeepsWords s (s.emit o) := ⟨rfl, rfl, rfl, rfl, rfl⟩
theorem mpSendEvent_keeps (s : State) (e : Ev) : KeepsWords s (s.mpSendEvent e) := ⟨rfl, rfl, rfl, rfl, rfl⟩

theorem erSeq_keeps (s : State) (j : Nat) (e : Ev) : KeepsWords s (s.erSeq j e).2 := by
  unfold State.erSeq
  split
  · exact .refl s
  · exact setEr_keeps ..

theorem post_keeps (s : State) (j : Nat) (e : Ev) : KeepsWords s (s.post j e) := by
  have hseq := erSeq_keeps s j e
  unfold State.post
  generalize s.erSeq j e = x at hseq ⊢
  obtain ⟨e, t⟩ := x
  refine hseq.trans ?_
  dsimp only
  split
  · exact mpSendEvent_keeps ..
  split
  · exact emit_keeps ..
  split
  · split
    · exact erDrop_keeps ..
    · exact setEr_keeps ..
  split
  · exact erDrop_keeps ..
  · exact erWrite_keeps ..

theorem unstart_keeps (s : State) (h : CmdHdr) (b : Nat) : KeepsWords s (s.unstart h b) := by
  unfold State.unstart
  split
  · exact ⟨rfl, rfl, rfl, rfl, rfl⟩
  · exact .refl s

/-! ### The three ways a command is answered -/

section
variable {s : State} {h : CmdHdr} {b : Nat} {c : Cmpl}

theorem answer_ring_silent {i : Nat} (hsrc : h.src = .ring i) (hok : c.status = 0) (hev : h.event = false) : s.answer h b c = s := by
  simp [State.answer, hsrc, hok, hev]

theorem answer_ring_posted {i : Nat} (hsrc : h.src = .ring i) (hev : c.status ≠ 0 ∨ h.event = true) :
    s.answer h b c = s.post (s.crCfg i Fld.HOST_CR_CFG_EVENT_RING)
      ⟨1, b, h.tag, c.status, 0, c.sum, some i, s.short, (s.cr i).head, leBytes 8 c.result ++ c.extra⟩ := by
  simp only [State.answer, hsrc, hev, if_true]

theorem answer_mgmt {mac seq : Nat} (hsrc : h.src = .mgmt mac seq) :
    s.answer h b c = (s.inc Cnt.MGMT_MP_ANSWERS).mpSend mac 0x83 0 seq
      (Ev.bytes ⟨1, b, h.tag, c.status, 0, c.sum, none, s.short, 0, leBytes 8 c.result ++ c.extra⟩ false false) := by
  simp only [State.answer, hsrc]

theorem answer_firmware_silent (hsrc : h.src = .firmware) (hok : c.status = 0) (hev : h.event = false) : s.answer h b c = s := by
  simp [State.answer, hsrc, hok, hev]

theorem answer_firmware_emitted (hsrc : h.src = .firmware) (hev : c.status ≠ 0 ∨ h.event = true) :
    s.answer h b c = s.emit (.firmware ⟨1, b, h.tag, c.status, 0, c.sum, none, s.short, 0, leBytes 8 c.result ++ c.extra⟩) := by
  simp only [State.answer, hsrc, hev, if_true]

theorem answer_keeps : KeepsWords s (s.answer h b c) := by
  rcases hsrc : h.src with i | ⟨mac, seq⟩ | _
  · by_cases hev : c.status ≠ 0 ∨ h.event = true
    · rw [answer_ring_posted hsrc hev]
      exact post_keeps ..
    · simp only [State.answer, hsrc, hev, if_false]
      exact .refl s
  · rw [answer_mgmt hsrc]
    exact ⟨rfl, rfl, rfl, rfl, rfl⟩
  · by_cases hev : c.status ≠ 0 ∨ h.event = true
    · rw [answer_firmware_emitted hsrc hev]
      exact emit_keeps ..
    · simp only [State.answer, hsrc, hev, if_false]
      exact .refl s

theorem complete_keeps : KeepsWords s (s.complete h b c) := (unstart_keeps s h b).trans answer_keeps

/-! ### What a completion frame reads is not what the list of commands holds -/

theorem unstart_short : (s.unstart h b).short = s.short := by
  unfold State.unstart; split <;> rfl
theorem unstart_out : (s.unstart h b).out = s.out := by
  unfold State.unstart; split <;> rfl
theorem unstart_sessions : (s.unstart h b).host.sessions = s.host.sessions := by
  unfold State.unstart; split <;> rfl
theorem unstart_keys : (s.unstart h b).host.keys = s.host.keys := by
  unfold State.unstart; split <;> rfl

theorem mpSend_out (dest op status seq : Nat) (body : List Byte) :
    (s.mpSend dest op status seq body).out = .mpFrame dest s.mpOwn 0x88B5 (etherPad (mpBytes op status s.mpSession seq 0 body ++
      s.mpMac (mpBytes op status s.mpSession seq 0 body))) :: s.out := rfl

theorem mpOwn_congr {t : State} (ht : t.regs = s.regs) : t.mpOwn = s.mpOwn := State.fld_congr ht ..
theorem mpSession_congr {t : State} (ht : t.host.sessions = s.host.sessions) : t.mpSession = s.mpSession := by
  simp only [State.mpSession, ht]
theorem mpMac_congr {t : State} (ht : t.regs = s.regs) (hk : t.host.keys = s.host.keys) (m : List Byte) : t.mpMac m = s.mpMac m := by
  simp only [State.mpMac, hk, State.fld_congr ht]

end

/-- Settles O59: the command leaves the list, and the source of its header chooses who is answered. -/
theorem completionRule : Obligations.CompletionRule := by
  unfold Obligations.CompletionRule
  refine ⟨?silent, ?posted, ?frame, ?firmware, ?keeps⟩
  case silent => exact fun s h b i c hsrc hok hev => answer_ring_silent hsrc hok hev
  case posted => exact fun s h b i c hsrc hev => answer_ring_posted hsrc hev
  case frame =>
    intro s h b mac seq c hsrc
    have hregs : ((s.unstart h b).inc Cnt.MGMT_MP_ANSWERS).regs = s.regs := (unstart_keeps s h b).regs
    have hkeys : ((s.unstart h b).inc Cnt.MGMT_MP_ANSWERS).host.keys = s.host.keys := unstart_keys
    have hsess : ((s.unstart h b).inc Cnt.MGMT_MP_ANSWERS).host.sessions = s.host.sessions := unstart_sessions
    have hout : ((s.unstart h b).inc Cnt.MGMT_MP_ANSWERS).out = s.out := unstart_out
    rw [State.complete, answer_mgmt hsrc, mpSend_out, unstart_short, mpOwn_congr hregs, mpSession_congr hsess, mpMac_congr hregs hkeys, hout]
  case firmware =>
    refine fun s h b c hsrc => ⟨fun hok hev => answer_firmware_silent hsrc hok hev, fun hev => ?_⟩
    rw [State.complete, answer_firmware_emitted hsrc hev, unstart_short]
  case keeps =>
    intro s h b c
    have hk : KeepsWords s (s.complete h b c) := complete_keeps
    exact ⟨hk.regs, hk.mem1, hk.mem2, State.complete_rest .., hk.logLast, hk.del⟩

end Sys2Proof.CompletionRules
end

section
/-! PROOF. What interrupts and error logs change (R69, R71, R72). -/
namespace Sys2Proof.ReportRules
open Sys2Proof Sys2Proof.Machine Sys2Proof.CompletionRules

/-! ### Interrupts -/

theorem postPageIrq_keeps (s : State) (p : Nat) : KeepsWords s (s.postPageIrq p) := by
  unfold State.postPageIrq
  dsimp only
  split
  · exact post_keeps ..
  · exact emit_keeps ..

theorem irqStore_keeps (s : State) (p a : Nat) (v : Word) : KeepsWords (s.wr a v) (s.irqStore p a v) := by
  unfold State.irqStore
  dsimp only
  split
  · exact postPageIrq_keeps ..
  · exact .refl _

/-- With the trace idle nothing is traced (R673). -/
theorem trace_idle {s : State} (hidle : s.traceState = 0) (kind code loc src inst : Nat) (data : List Byte) : s.trace kind code loc src inst data = s := by
  unfold State.trace State.traceTake
  simp [hidle]

theorem traceError_idle {s : State} (hidle : s.traceState = 0) (p code sev loc : Nat) : s.traceError p code sev loc = s := by
  unfold State.traceError
  simp [trace_idle hidle]

theorem traceState_congr {s t : State} (ht : t.rd trSt = s.rd trSt) : t.traceState = s.traceState :=
  congrArg (fun w : Word => bits 31 30 (w.toNat + 2 ^ 32 * 0)) ht

theorem irqStatus_ne_trSt (p : Nat) : trSt ≠ Reg.PAGE_IRQ_STATUS p := by
  unfold trSt Reg.DEL_TRACE_STATUS Reg.PAGE_IRQ_STATUS
  omega

/-- With the trace idle, setting a source stores the word and at most posts an event. -/
theorem irq_keeps {s : State} (hs : rising s.regs = true) (hidle : s.traceState = 0) (p b : Nat) :
    KeepsWords (s.wr (Reg.PAGE_IRQ_STATUS p) (s.rd (Reg.PAGE_IRQ_STATUS p) ||| BitVec.ofNat 32 (2 ^ b))) (s.irq p b) := by
  have hraw := irqStore_keeps s p (Reg.PAGE_IRQ_STATUS p) (s.rd (Reg.PAGE_IRQ_STATUS p) ||| BitVec.ofNat 32 (2 ^ b))
  have hidle' : (s.irqRaw p b).traceState = 0 := by
    rw [traceState_congr (s := s)]
    · exact hidle
    · rw [State.irqRaw, State.rd_congr hraw.regs, State.rd_wr s hs, if_neg (irqStatus_ne_trSt p)]
  unfold State.irq
  dsimp only
  split
  · exact hraw
  · rw [trace_idle hidle']
    exact hraw

/-! ### Error logs -/

/-- Only words of page p's common header differ, and both memories are as before. -/
structure HeaderOnly (p : Nat) (s t : State) : Prop where
  rising : rising t.regs = true
  rd : ∀ a, (a < p * 4096 + 0x010 ∨ p * 4096 + 0x100 ≤ a) → t.rd a = s.rd a
  mem1 : t.mem1 = s.mem1
  mem2 : t.mem2 = s.mem2

section
variable {p : Nat} {s t u : State}

theorem HeaderOnly.refl (hs : Machine.rising s.regs = true) : HeaderOnly p s s := ⟨hs, fun _ _ => rfl, rfl, rfl⟩

theorem HeaderOnly.trans (h : HeaderOnly p s t) (k : HeaderOnly p t u) : HeaderOnly p s u :=
  ⟨k.rising, fun a ha => (k.rd a ha).trans (h.rd a ha), k.mem1.trans h.mem1, k.mem2.trans h.mem2⟩

theorem HeaderOnly.congr (h : HeaderOnly p s t) (k : KeepsWords t u) : HeaderOnly p s u :=
  h.trans ⟨by rw [k.regs]; exact h.rising, fun a _ => State.rd_congr k.regs a, k.mem1, k.mem2⟩

theorem HeaderOnly.withLogLast (h : HeaderOnly p s t) (l : Tbl Nat) : HeaderOnly p s { t with logLast := l } := ⟨h.rising, h.rd, h.mem1, h.mem2⟩

theorem HeaderOnly.traceState (h : HeaderOnly p s t) (hidle : s.traceState = 0) : t.traceState = 0 := by
  rw [traceState_congr (s := s) (h.rd _ ?_), hidle]
  unfold trSt Reg.DEL_TRACE_STATUS
  omega

theorem setFld_headerOnly (hs : Machine.rising s.regs = true) {a : Nat} {f : Fld} (v : Nat) (n : Nat) (hf : f.lo ≤ f.hi) (hn : f.hi / 32 = n)
    (ha : p * 4096 + 0x010 ≤ a) (hb : a + 4 * n + 4 ≤ p * 4096 + 0x100) : HeaderOnly p s (s.setFld a f v) :=
  ⟨State.setFld_rising s hs a f v, fun b _ => State.rd_setFld_other s hs a b f v hf (by subst hn; omega), by simp, by simp⟩

theorem wrWide_headerOnly (hs : Machine.rising s.regs = true) {a : Nat} (v n : Nat) (ha : p * 4096 + 0x010 ≤ a) (hb : a + 4 * n ≤ p * 4096 + 0x100) :
    HeaderOnly p s (s.wrWide a v n) :=
  ⟨State.wrWide_rising n s a v hs, fun b _ => State.rd_wrWide_other n s a b v hs (by omega), by simp, by simp⟩

theorem irq_headerOnly (hs : Machine.rising s.regs = true) (hidle : s.traceState = 0) (b : Nat) : HeaderOnly p s (s.irq p b) := by
  have hwr : HeaderOnly p s (s.wr (Reg.PAGE_IRQ_STATUS p) (s.rd (Reg.PAGE_IRQ_STATUS p) ||| BitVec.ofNat 32 (2 ^ b))) := by
    refine ⟨State.wr_rising s hs .., fun a ha => ?_, rfl, rfl⟩
    rw [State.rd_wr s hs, if_neg (by unfold Reg.PAGE_IRQ_STATUS; omega)]
  exact hwr.congr (irq_keeps hs hidle p b)

theorem putLogEntry_headerOnly (hs : Machine.rising s.regs = true) {k code sev loc : Nat} (hk : k ≤ 10) (hsev : sev < 3) :
    HeaderOnly p s (s.putLogEntry p k code sev loc) := by
  unfold State.putLogEntry
  dsimp only
  rw [if_neg (by omega)]
  exact wrWide_headerOnly hs _ 4 (by unfold Reg.PAGE_ERR_ENTRY; omega) (by unfold Reg.PAGE_ERR_ENTRY; omega)

/-- A new entry is put, its place is noted, and the interrupt is set. -/
theorem newEntry_headerOnly (h : HeaderOnly p s t) (hidle : s.traceState = 0) {k code sev loc : Nat} (hk : k ≤ 10) (hsev : sev < 3)
    {f : Fld} (v : Nat) (l : Tbl Nat) (hf : f.lo ≤ f.hi) (hf' : f.hi < 32) :
    HeaderOnly p s (({ (t.putLogEntry p k code sev loc).setFld (Reg.PAGE_ERR_STATUS p) f v with logLast := l }.irq p 0).traceError p code sev loc) := by
  have hput := h.trans (putLogEntry_headerOnly h.rising (code := code) (loc := loc) hk hsev)
  have hset := (hput.trans (setFld_headerOnly hput.rising (a := Reg.PAGE_ERR_STATUS p) v 0 hf (Nat.div_eq_of_lt hf')
    (by unfold Reg.PAGE_ERR_STATUS; omega) (by unfold Reg.PAGE_ERR_STATUS; omega))).withLogLast l
  have hirq := hset.trans (irq_headerOnly hset.rising (hset.traceState hidle) 0)
  rw [traceError_idle (hirq.traceState hidle)]
  exact hirq

theorem addTotal_headerOnly (hs : Machine.rising s.regs = true) :
    HeaderOnly p s (s.addFld (Reg.PAGE_ERR_STATUS p) Fld.PAGE_ERR_STATUS_TOTAL 1) :=
  setFld_headerOnly hs _ 0 (by decide) rfl (by unfold Reg.PAGE_ERR_STATUS; omega) (by unfold Reg.PAGE_ERR_STATUS; omega)

theorem addTotal_next (hs : Machine.rising s.regs = true) :
    (s.addFld (Reg.PAGE_ERR_STATUS p) Fld.PAGE_ERR_STATUS_TOTAL 1).fld (Reg.PAGE_ERR_STATUS p) Fld.PAGE_ERR_STATUS_NEXT =
      s.fld (Reg.PAGE_ERR_STATUS p) Fld.PAGE_ERR_STATUS_NEXT :=
  State.fld_setFld_apart s hs _ _ _ _ (by decide) (by decide) (by decide) (by decide) rfl

theorem logErr_headerOnly (hs : Machine.rising s.regs = true) (hidle : s.traceState = 0) {code sev loc : Nat} (hsev : sev < 3)
    (hlast : Tbl.getD s.logLast 0 p ≤ 11) (hnext : s.fld (Reg.PAGE_ERR_STATUS p) Fld.PAGE_ERR_STATUS_NEXT ≤ 10) :
    HeaderOnly p s (s.logErr p code sev loc) := by
  have htotal := addTotal_headerOnly (p := p) hs
  have hnext' := (addTotal_next (p := p) hs).le.trans hnext
  have hlast' : Tbl.getD (s.addFld (Reg.PAGE_ERR_STATUS p) Fld.PAGE_ERR_STATUS_TOTAL 1).logLast 0 p ≤ 11 := by simpa using hlast
  unfold State.logErr
  dsimp only
  split
  · split
    · exact htotal.trans (setFld_headerOnly htotal.rising _ 3 (by decide) rfl (by unfold Reg.PAGE_ERR_ENTRY; omega)
        (by unfold Reg.PAGE_ERR_ENTRY; omega))
    · exact newEntry_headerOnly htotal hidle hnext' hsev _ _ (by decide) (by decide)
  · exact newEntry_headerOnly htotal hidle (by omega) hsev _ _ (by decide) (by decide)

end

/-- Settles O60: a source stores one word, and an entry, its place and its interrupt are words of the page's header. -/
theorem reportingFrame : Obligations.ReportingFrame := by
  unfold Obligations.ReportingFrame
  refine ⟨fun s p b hs hidle => ?_, fun s p code sev loc hs hidle hsev hlast hnext => ?_⟩
  · have hk := irq_keeps hs.rising hidle p b
    refine ⟨?_, fun a ha => ?_, State.irq_rest .., hk.mem1, hk.mem2, hk.logLast⟩
    · rw [State.rd_congr hk.regs, State.rd_wr s hs.rising, if_pos rfl]
    · rw [State.rd_congr hk.regs, State.rd_wr s hs.rising, if_neg ha]
  · have hlog := logErr_headerOnly (code := code) (loc := loc) hs.rising hidle hsev hlast hnext
    exact ⟨hlog.rd, State.logErr_rest .., hlog.mem1, hlog.mem2⟩

/-! ### The log at NEXT 0 -/

/-- A first error is held and NEXT reads 0: register words in canonical form, though no reset and no logged error leaves NEXT at 0. -/
def nextZero : State := { State.reset with regs := [(Reg.PAGE_ERR_STATUS hostPg, 1)] }

theorem nextZero_inv : nextZero.Inv := ⟨by decide, rfl, rfl, rfl⟩

theorem nextZero_overwrites_first :
    (nextZero.logErr hostPg 5 0 7).rdWide (Reg.PAGE_ERR_ENTRY hostPg 0) 3 ≠ nextZero.rdWide (Reg.PAGE_ERR_ENTRY hostPg 0) 3 := by decide

/-- Refutes O50: its clause on entry 0 bounds no NEXT, and from the well-kept state whose NEXT is 0 with a first error held, a later error is written
to entry 0. -/
theorem not_errorLogRule : ¬ Obligations.ErrorLogRule := by
  unfold Obligations.ErrorLogRule
  intro h
  obtain ⟨_, _, _, _, _, _, hfirst, _⟩ := h nextZero hostPg 5 0 7 nextZero_inv (by decide) (by decide) (by decide) (by decide)
  exact nextZero_overwrites_first (hfirst (by decide))

end Sys2Proof.ReportRules
end

section
/-! PROOF. Register accesses and the common page header, row by row (R54–R75, R853). -/
namespace Sys2Proof.RegisterRows
open Sys2Proof Sys2Proof.Machine Sys2Proof.BlockRules

/-! ### Accesses -/

section
variable {s : State} {a v : Nat}

theorem writeAcc_four (hheld : s.pwr.held = false) (hmap : s.mapped a = true) (hmis : misaligned a 4 = false) : (s.writeAcc a 4 v).2 =
    if inBlocks a && s.lockHit a (v % 2 ^ 32) && !(s.pageBusy (a / 4096) && blockSpecific a)
    then (s.wordWrite a (v % 2 ^ 32)).logErr (a / 4096) 0x0002 0 (locPage (a / 4096)) else s.wordWrite a (v % 2 ^ 32) := by
  have hfour : ((4 : Nat) == 8) = false := rfl
  simp only [State.writeAcc, hheld, hmis, hmap, hfour, Bool.not_true, Bool.false_and, Bool.or_false, Bool.false_eq_true, if_false, Nat.reduceEqDiff]

theorem writeAcc_eight (hheld : s.pwr.held = false) (hmap : s.mapped a = true) (hmis : misaligned a 8 = false) : (s.writeAcc a 8 v).2 =
    if inBlocks a && (s.lockHit a (v % 2 ^ 32) || s.lockHit (a + 4) (v / 2 ^ 32 % 2 ^ 32)) && !(s.pageBusy (a / 4096) && blockSpecific a)
    then (s.wideWrite a v).logErr (a / 4096) 0x0002 0 (locPage (a / 4096)) else s.wideWrite a v := by
  simp only [State.writeAcc, hheld, hmis, hmap, beq_self_eq_true, Bool.not_true, Bool.true_and, Bool.false_eq_true, if_false, if_true]

theorem readAcc_four (hheld : s.pwr.held = false) (hmap : s.mapped a = true) (hmis : misaligned a 4 = false) : s.readAcc a 4 = (false, s.wordRead a) := by
  simp only [State.readAcc, hheld, hmis, hmap, Bool.not_true, Bool.false_eq_true, if_false, Nat.reduceEqDiff]

theorem readAcc_eight (hheld : s.pwr.held = false) (hmap : s.mapped a = true) (hmis : misaligned a 8 = false) : s.readAcc a 8 = (false, s.wideRead a) := by
  simp only [State.readAcc, hheld, hmis, hmap, Bool.not_true, Bool.false_eq_true, if_false, if_true]

/-- A read of a low word that is neither discarded nor latched latches the high word (R61). -/
theorem wordRead_latches (hdisc : s.discards a = false) (hlatch : Tbl.find s.host.latch a = none) (htop : a ≠ Reg.TIME_TXQ_ENTRY + 12)
    (hlow : lowOfWide a = true) : Tbl.find (s.wordRead a).2.host.latch (a + 4) = some (BitVec.ofNat 32 (s.wordNow (a + 4))) := by
  have htop' : ¬ (a = Reg.TIME_TXQ_ENTRY + 12 ∧ s.pageBusy pgTime = false) := fun h => htop h.1
  simp only [State.wordRead, hdisc, hlatch, htop', hlow, Bool.false_eq_true, if_false, if_true]
  exact find_put_same ..

end

/-! ### The common page header -/

theorem onHeader_runs {s : State} {p : Nat} (hheld : s.pwr.held = false) (himp : pageImplemented p = true) (hhead : hasHeader (p / 256) (p % 256) = true)
    (f : State → State) : s.onHeader p f = f s := by
  simp [State.onHeader, hheld, himp, hhead]

/-- PAGE_CTRL's ENABLE and SNAP_ARM are stored as they are asked for. -/
def ctrlKept (s : State) (p v : Nat) : State :=
  (s.setFld (Reg.PAGE_CTRL p) Fld.PAGE_CTRL_ENABLE (v % 2)).setFld (Reg.PAGE_CTRL p) Fld.PAGE_CTRL_SNAP_ARM (bits 2 2 v)

section
variable {s : State} {p v : Nat}

theorem ctrlKept_inv (hs : s.Inv) : (ctrlKept s p v).Inv := State.setFld_inv _ _ _ _ (State.setFld_inv _ _ _ _ hs)

theorem ctrlKept_pageBusy (hs : s.Inv) : (ctrlKept s p v).pageBusy p = s.pageBusy p := by
  have harm := State.fld_setFld_apart _ (State.setFld_rising s hs.rising (Reg.PAGE_CTRL p) Fld.PAGE_CTRL_ENABLE (v % 2)) (Reg.PAGE_CTRL p)
    Fld.PAGE_CTRL_SNAP_ARM Fld.PAGE_CTRL_SOFT_RESET (bits 2 2 v) (by decide) (by decide) (by decide) (by decide) rfl
  have hena := State.fld_setFld_apart s hs.rising (Reg.PAGE_CTRL p) Fld.PAGE_CTRL_ENABLE Fld.PAGE_CTRL_SOFT_RESET (v % 2) (by decide) (by decide)
    (by decide) (by decide) rfl
  simp only [State.pageBusy, State.flag, ctrlKept, harm, hena]

theorem pageCtrlWrite_lock (hlock : bit 3 v = true) (hreset : bit 1 v = false) : s.pageCtrlWrite p v =
    (ctrlKept s p v).setFld (Reg.PAGE_CTRL (if p / 256 = 6 then pg 6 0 else p)) Fld.PAGE_CTRL_LOCK 1 := by
  simp only [State.pageCtrlWrite, hlock, hreset, Bool.false_eq_true, if_false, if_true]
  rfl

theorem pageCtrlWrite_reset (hlock : bit 3 v = false) (hreset : bit 1 v = true) : s.pageCtrlWrite p v = (ctrlKept s p v).pageReset p := by
  simp only [State.pageCtrlWrite, hlock, hreset, Bool.false_eq_true, if_false, if_true]
  rfl

/-- PAGE_LOCK writes LOCK, with ENABLE and SNAP_ARM as they are. -/
theorem lockWord_bits (r : Nat) : bit 3 (r % 2 + bits 2 2 r * 4 + 2 ^ 3) = true ∧ bit 1 (r % 2 + bits 2 2 r * 4 + 2 ^ 3) = false := by
  have hlt : bits 2 2 r < 2 := bits_lt 2 2 r
  simp only [bit, Nat.testBit_eq_decide_div_mod_eq, decide_eq_true_eq, decide_eq_false_iff_not, Nat.reducePow]
  omega

/-- PAGE_RESET writes SOFT_RESET, with ENABLE and SNAP_ARM as they are. -/
theorem resetWord_bits (r : Nat) : bit 3 (r % 2 + bits 2 2 r * 4 + 2 ^ 1) = false ∧ bit 1 (r % 2 + bits 2 2 r * 4 + 2 ^ 1) = true := by
  have hlt : bits 2 2 r < 2 := bits_lt 2 2 r
  simp only [bit, Nat.testBit_eq_decide_div_mod_eq, decide_eq_true_eq, decide_eq_false_iff_not, Nat.reducePow]
  omega

theorem pageReset_ends (hs : s.Inv) (hfree : s.pageBusy p = false) :
    ∃ u : State, u.Inv ∧ s.pageReset p = u.setFlag (Reg.PAGE_CTRL p) Fld.PAGE_CTRL_SOFT_RESET true := by
  have habort := State.abortPage_inv s p hs
  unfold State.pageReset
  rw [if_neg (by simp [hfree])]
  refine ⟨_, State.wrWide_inv _ _ _ _ (State.setFlag_inv _ _ _ _ (State.setDel_inv _ _ (State.resetEffects_inv _ _ _ (State.clearCnts_inv _ _ ?_)))), rfl⟩
  refine have hjudge := State.ite_inv (State.satJudge_inv _ _ _ habort) habort; ⟨resetPageRegs_wf p hjudge.1, hjudge.2⟩

theorem pageReset_busy (hs : s.Inv) (hhead : hasHeader (p / 256) (p % 256) = true) : (s.pageReset p).pageBusy p = true := by
  by_cases hbusy : s.pageBusy p = true
  · rwa [State.pageReset, if_pos hbusy]
  · obtain ⟨u, hu, heq⟩ := pageReset_ends hs (eq_false_of_ne_true hbusy)
    rw [heq, State.pageBusy, hhead, State.flag_setFlag_same u hu.rising _ _ _ rfl, Bool.and_self]

/-! ### A page reset ends -/

theorem pageResetDone_time (hbusy : s.pageBusy pgTime = true) : s.pageResetDone pgTime =
    let t := (s.setFlag (Reg.PAGE_CTRL pgTime) Fld.PAGE_CTRL_SOFT_RESET false).wrWide Reg.TIME_INCR 0x147AE147B 2
    { t with time := { t.time with holdFrom := t.time.ticks } } := by
  rw [State.pageResetDone, if_pos hbusy]
  rfl

theorem pageResetDone_other (hbusy : s.pageBusy p = true) (hp : p ≠ pgTime) :
    s.pageResetDone p = s.setFlag (Reg.PAGE_CTRL p) Fld.PAGE_CTRL_SOFT_RESET false := by
  rw [State.pageResetDone, if_pos hbusy]
  exact if_neg hp

theorem pageBusy_cleared (hs : s.Inv) : (s.setFlag (Reg.PAGE_CTRL p) Fld.PAGE_CTRL_SOFT_RESET false).pageBusy p = false := by
  rw [State.pageBusy, State.flag_setFlag_same s hs.rising _ _ _ rfl, Bool.and_false]

theorem fld_wrWide_other (hs : rising s.regs = true) {a b n : Nat} {g : Fld} (w : Nat) (hlen : g.hi < 32)
    (hap : b + 4 ≤ a ∨ a + 4 * n ≤ b) (hg : g.lo ≤ g.hi) : (s.wrWide a w n).fld b g = s.fld b g := by
  have hlo : g.lo / 32 = 0 := by omega
  have hhi : g.hi / 32 = 0 := by omega
  unfold State.fld
  rw [State.rdWide_wrWide_other n s a _ w _ hs (by omega)]

theorem pageResetDone_time_reads (hs : s.Inv) (hbusy : s.pageBusy pgTime = true) :
    (s.pageResetDone pgTime).pageBusy pgTime = false ∧ (s.pageResetDone pgTime).rdWide Reg.TIME_INCR 2 = 0x147AE147B := by
  have hrise : rising (s.setFlag (Reg.PAGE_CTRL pgTime) Fld.PAGE_CTRL_SOFT_RESET false).regs = true := State.setFld_rising s hs.rising ..
  have hregs : (s.pageResetDone pgTime).regs =
      ((s.setFlag (Reg.PAGE_CTRL pgTime) Fld.PAGE_CTRL_SOFT_RESET false).wrWide Reg.TIME_INCR 0x147AE147B 2).regs := by
    rw [pageResetDone_time hbusy]
  refine ⟨?_, ?_⟩
  · have hfld := fld_wrWide_other hrise (a := Reg.TIME_INCR) (b := Reg.PAGE_CTRL pgTime) (n := 2) (g := Fld.PAGE_CTRL_SOFT_RESET) 0x147AE147B
      (by decide) (by decide) (by decide)
    rw [State.pageBusy, State.flag_congr hregs, State.flag, hfld, ← State.flag, State.flag_setFlag_same s hs.rising _ _ _ rfl, Bool.and_false]
  · rw [State.rdWide_congr hregs, State.rdWide_wrWide 2 _ _ _ hrise, Nat.mod_eq_of_lt (by decide)]

end

/-! ### The error log cleared -/

section
variable {s : State} {p : Nat}

/-- The three fields of PAGE_ERR_STATUS that a clear stores. -/
def logCleared (s : State) (p : Nat) : State :=
  ((s.setFld (Reg.PAGE_ERR_STATUS p) Fld.PAGE_ERR_STATUS_TOTAL 0).setFld (Reg.PAGE_ERR_STATUS p) Fld.PAGE_ERR_STATUS_FIRST_VALID 0).setFld
    (Reg.PAGE_ERR_STATUS p) Fld.PAGE_ERR_STATUS_NEXT 1

theorem errClear_eq : s.errClear p = { logCleared s p with logLast := Tbl.del (logCleared s p).logLast p } := rfl

theorem errClear_regs : (s.errClear p).regs = (logCleared s p).regs := by rw [errClear_eq]

theorem errClear_reads (hs : s.Inv) : (s.errClear p).fld (Reg.PAGE_ERR_STATUS p) Fld.PAGE_ERR_STATUS_TOTAL = 0 ∧
    (s.errClear p).fld (Reg.PAGE_ERR_STATUS p) Fld.PAGE_ERR_STATUS_FIRST_VALID = 0 ∧
    (s.errClear p).fld (Reg.PAGE_ERR_STATUS p) Fld.PAGE_ERR_STATUS_NEXT = 1 := by
  have htotal := State.setFld_rising s hs.rising (Reg.PAGE_ERR_STATUS p) Fld.PAGE_ERR_STATUS_TOTAL 0
  have hfirst := State.setFld_rising _ htotal (Reg.PAGE_ERR_STATUS p) Fld.PAGE_ERR_STATUS_FIRST_VALID 0
  simp only [State.fld_congr errClear_regs, logCleared]
  refine ⟨?_, ?_, ?_⟩
  · rw [State.fld_setFld_apart _ hfirst _ _ _ _ (by decide) (by decide) (by decide) (by decide) rfl,
      State.fld_setFld_apart _ htotal _ _ _ _ (by decide) (by decide) (by decide) (by decide) rfl, State.fld_setFld_same s hs.rising _ _ _ (by decide)]
    rfl
  · rw [State.fld_setFld_apart _ hfirst _ _ _ _ (by decide) (by decide) (by decide) (by decide) rfl, State.fld_setFld_same _ htotal _ _ _ (by decide)]
    rfl
  · rw [State.fld_setFld_same _ hfirst _ _ _ (by decide)]
    rfl

end

/-- Settles O1: an access by its width, a header command by the bit of PAGE_CTRL it writes. -/
theorem registerAccessCompletes : Obligations.RegisterAccessCompletes := by
  unfold Obligations.RegisterAccessCompletes
  refine ⟨?write, ?read, ?latch, ?lock, ?reset, ?complete, ?force, ?clear⟩
  case write =>
    intro s a v who hwho hheld hmap
    exact ⟨fun hmis => (exec_registerWrite_reaches hwho).trans (congrArg Host.Outcome.next (writeAcc_four hheld hmap hmis)),
      fun hmis => (exec_registerWrite_reaches hwho).trans (congrArg Host.Outcome.next (writeAcc_eight hheld hmap hmis))⟩
  case read =>
    intro s a who hwho hheld hmap
    refine ⟨fun hmis => ?_, fun hmis => ?_⟩
    · rw [exec_rcFieldRead_reaches hwho, exec_split64bitRead_reaches hwho, readAcc_four hheld hmap hmis]
      exact ⟨rfl, rfl⟩
    · rw [exec_rcFieldRead_reaches hwho, readAcc_eight hheld hmap hmis]
  case latch =>
    intro s a who hwho hheld hmis hmap hdisc hlatch htop hlow
    refine ⟨_, exec_split64bitRead_reaches hwho, ?_⟩
    rw [readAcc_four hheld hmap hmis, State.emit_host]
    exact wordRead_latches hdisc hlatch htop hlow
  case lock =>
    intro s p hs hheld himp hhead
    obtain ⟨hlock, hreset⟩ := lockWord_bits (s.rd (Reg.PAGE_CTRL p)).toNat
    refine ⟨_, congrArg Host.Outcome.next ((onHeader_runs hheld himp hhead _).trans (pageCtrlWrite_lock hlock hreset)), ?_, ?_⟩
    · exact State.flag_setFlag_same _ (ctrlKept_inv hs).rising _ Fld.PAGE_CTRL_LOCK true rfl
    · simp [ctrlKept]
  case reset =>
    intro s p hs hheld himp hhead _
    obtain ⟨hlock, hreset⟩ := resetWord_bits (s.rd (Reg.PAGE_CTRL p)).toNat
    exact ⟨_, congrArg Host.Outcome.next ((onHeader_runs hheld himp hhead _).trans (pageCtrlWrite_reset hlock hreset)), pageReset_busy (ctrlKept_inv hs) hhead⟩
  case complete =>
    intro s p hs hheld himp hhead hbusy
    refine ⟨_, congrArg Host.Outcome.next (onHeader_runs hheld himp hhead _), ?_⟩
    by_cases hp : p = pgTime
    · subst hp
      obtain ⟨hfree, hincr⟩ := pageResetDone_time_reads hs hbusy
      refine ⟨hfree, fun _ => hincr, ?_⟩
      rw [pageResetDone_time hbusy]
      simp
    · rw [pageResetDone_other hbusy hp]
      exact ⟨pageBusy_cleared hs, fun h => absurd h hp, by simp⟩
  case force => exact fun s p v hheld himp hhead => congrArg Host.Outcome.next (onHeader_runs hheld himp hhead _)
  case clear =>
    intro s p hs hheld himp hhead
    refine ⟨_, congrArg Host.Outcome.next (onHeader_runs hheld himp hhead _), ?_⟩
    obtain ⟨htotal, hfirst, hnext⟩ := errClear_reads (p := p) hs
    exact ⟨htotal, hfirst, hnext, by simp [State.errClear, State.rest], by simp [State.errClear]⟩

end Sys2Proof.RegisterRows
end

section
/-! PROOF. The rings and MSI-X vectors, row by row (R83–R101, R849). -/
namespace Sys2Proof.HostRings
open Sys2Proof Sys2Proof.Machine Sys2Proof.HostPort

/-! ### Command rings -/

theorem bit31_enable (v : Nat) : bit 31 (v % 2 ^ 31 + 2 ^ 31) = true := by
  simp only [bit, Nat.testBit_eq_decide_div_mod_eq, decide_eq_true_eq]
  omega

theorem bit31_disable (v : Nat) : bit 31 (v % 2 ^ 31) = false := by
  simp only [bit, Nat.testBit_eq_decide_div_mod_eq, decide_eq_false_iff_not]
  omega

section
variable {s : State} {i v tail : Nat}

theorem crEnable_starts (hlo : 6 ≤ s.crCfg i Fld.HOST_CR_CFG_LOG2_SIZE) (hhi : s.crCfg i Fld.HOST_CR_CFG_LOG2_SIZE ≤ 16) :
    s.crEnable i tail = (s.emit (.rdShared false i (s.crLine i))).setCr i ⟨tail % 2 ^ 32, 1, 0, false, tail % 2 ^ 32, tail % 2 ^ 32⟩ :=
  if_pos ⟨hlo, hhi⟩

theorem crEnable_refuses (hbad : s.crCfg i Fld.HOST_CR_CFG_LOG2_SIZE < 6 ∨ 16 < s.crCfg i Fld.HOST_CR_CFG_LOG2_SIZE) :
    s.crEnable i tail = ((s.emit (.rdShared false i (s.crLine i))).setCr i ⟨(s.cr i).head, 2, 2, false, 0, 0⟩).ringError i 2 :=
  if_neg fun h : 6 ≤ s.crCfg i Fld.HOST_CR_CFG_LOG2_SIZE ∧ s.crCfg i Fld.HOST_CR_CFG_LOG2_SIZE ≤ 16 => by omega

theorem crCfgWrite_rise (hoff : s.flag (Reg.HOST_CR_CFG (crPage i) (i % 64)) Fld.HOST_CR_CFG_ENABLE = false) (hv : bit 31 v = true) :
    s.crCfgWrite i v tail = (s.wr (Reg.HOST_CR_CFG (crPage i) (i % 64)) (BitVec.ofNat 32 v &&& 0x80FFBF1F)).crEnable i tail := by
  simp only [State.crCfgWrite, hoff, hv, Bool.false_eq_true, if_false, if_true]

theorem crCfgWrite_fall (hon : s.flag (Reg.HOST_CR_CFG (crPage i) (i % 64)) Fld.HOST_CR_CFG_ENABLE = true) (hv : bit 31 v = false) :
    s.crCfgWrite i v tail = (s.setFld (Reg.HOST_CR_CFG (crPage i) (i % 64)) Fld.HOST_CR_CFG_ENABLE 0).setCr i { CrSt.init with head := (s.cr i).head } := by
  simp only [State.crCfgWrite, hon, hv, Bool.false_eq_true, if_false, if_true]

section
variable (hheld : s.pwr.held = false) (hpage : s.pageBusy (pg 2 (crPage i)) = false)
include hheld hpage

theorem exec_cmdRingEnable (hoff : s.flag (Reg.HOST_CR_CFG (crPage i) (i % 64)) Fld.HOST_CR_CFG_ENABLE = false) :
    exec (.cmdRingEnable i v tail) s = .next ((s.wr (Reg.HOST_CR_CFG (crPage i) (i % 64))
      (BitVec.ofNat 32 (v % 2 ^ 31 + 2 ^ 31) &&& 0x80FFBF1F)).crEnable i tail) :=
  congrArg Host.Outcome.next ((onPage_free hheld hpage _).trans (crCfgWrite_rise hoff (bit31_enable v)))

theorem exec_cmdRingDisable (hon : s.flag (Reg.HOST_CR_CFG (crPage i) (i % 64)) Fld.HOST_CR_CFG_ENABLE = true) :
    exec (.cmdRingDisable i) s = .next ((s.setFld (Reg.HOST_CR_CFG (crPage i) (i % 64)) Fld.HOST_CR_CFG_ENABLE 0).setCr i
      { CrSt.init with head := (s.cr i).head }) :=
  congrArg Host.Outcome.next ((onPage_free hheld hpage _).trans (crCfgWrite_fall hon (bit31_disable _)))
end

theorem exec_tailSnoop (hon : s.crCfg i Fld.HOST_CR_CFG_ENABLE = 1) (hline : (s.cr i).rereading = false) :
    exec (.tailSnoop i) s = .next ((s.setCr i { s.cr i with rereading := true }).emit (.rdShared false i (s.crLine i))) :=
  congrArg Host.Outcome.next (if_pos ⟨hon, hline⟩)

section
variable (hline : (s.cr i).rereading = true)
include hline

theorem exec_tailReread_stopped (hstop : (s.cr i).state ≠ 1) :
    exec (.tailReread i tail) s = .next (s.setCr i { s.cr i with rereading := false, tail := tail % 2 ^ 32 }) :=
  (if_neg (by simp [hline])).trans (if_pos hstop)

theorem exec_tailReread_fetches (hrun : (s.cr i).state = 1)
    (hin : (tail % 2 ^ 32 + 2 ^ 32 - (s.cr i).head) % 2 ^ 32 ≤ 2 ^ s.crCfg i Fld.HOST_CR_CFG_LOG2_SIZE) :
    exec (.tailReread i tail) s = .next ((s.setCr i { s.cr i with rereading := false, tail := tail % 2 ^ 32 }).crFetch i) :=
  (if_neg (by simp [hline])).trans ((if_neg (not_not.2 hrun)).trans (if_neg (Nat.not_lt.2 hin)))

theorem exec_tailReread_overruns (hrun : (s.cr i).state = 1)
    (hout : 2 ^ s.crCfg i Fld.HOST_CR_CFG_LOG2_SIZE < (tail % 2 ^ 32 + 2 ^ 32 - (s.cr i).head) % 2 ^ 32) :
    exec (.tailReread i tail) s = .next ((s.setCr i { s.cr i with state := 2, error := 1, rereading := false }).ringError i 1) :=
  (if_neg (by simp [hline])).trans ((if_neg (not_not.2 hrun)).trans (if_pos hout))
end

theorem exec_entryFetch {es : List RawEntry} (hrun : (s.cr i).state = 1) (hlen : es.length ≤ ((s.cr i).fetchTo + 2 ^ 32 - (s.cr i).head) % 2 ^ 32) :
    exec (.entryFetch i es) s = .next (es.foldl (fun s e => s.takeEntry (.ring i) e)
      (s.setCr i { s.cr i with head := ((s.cr i).head + es.length) % 2 ^ 32 })) := by
  refine (if_neg (not_not.2 hrun)).trans ?_
  simp only [List.take_of_length_le hlen]

end

/-! ### Event rings and vectors -/

section
variable {s : State} {j v cons : Nat}

theorem erCfgWrite_rise (hoff : s.flag (Reg.HOST_ER_CFG (erPage j) (j % 64)) Fld.HOST_ER_CFG_ENABLE = false) (hv : bit 31 v = true)
    (hlo : 6 ≤ v % 32) (hhi : v % 32 ≤ 16) :
    let u := s.wr (Reg.HOST_ER_CFG (erPage j) (j % 64)) (BitVec.ofNat 32 v &&& 0x87FFBF1F)
    s.erCfgWrite j v cons = (u.setEr j { s.er j with prod := 0, cons := cons % 2 ^ 32, seq := 0 }).emit (.rdShared true j (u.erLine j)) := by
  intro u
  simp only [State.erCfgWrite, hoff, hv, hlo, hhi, Bool.not_false, Bool.and_true, and_self, if_true]
  rfl

theorem erCfgWrite_fall (hon : s.flag (Reg.HOST_ER_CFG (erPage j) (j % 64)) Fld.HOST_ER_CFG_ENABLE = true) (hv : bit 31 v = false) :
    s.erCfgWrite j v cons = (s.wr (Reg.HOST_ER_CFG (erPage j) (j % 64)) (BitVec.ofNat 32 v &&& 0x87FFBF1F)).erRelease j := by
  simp only [State.erCfgWrite, hon, hv, Bool.not_true, Bool.not_false, Bool.and_self, Bool.false_eq_true, if_false, if_true]

section
variable (hheld : s.pwr.held = false) (hpage : s.pageBusy (pg 2 (erPage j)) = false)
include hheld hpage

theorem exec_eventRingEnable (hoff : s.flag (Reg.HOST_ER_CFG (erPage j) (j % 64)) Fld.HOST_ER_CFG_ENABLE = false) (hlo : 6 ≤ v % 32) (hhi : v % 32 ≤ 16) :
    let u := s.wr (Reg.HOST_ER_CFG (erPage j) (j % 64)) (BitVec.ofNat 32 (v % 2 ^ 31 + 2 ^ 31) &&& 0x87FFBF1F)
    exec (.eventRingEnable j v cons) s = .next ((u.setEr j { s.er j with prod := 0, cons := cons % 2 ^ 32, seq := 0 }).emit
      (.rdShared true j (u.erLine j))) :=
  congrArg Host.Outcome.next ((onPage_free hheld hpage _).trans (erCfgWrite_rise hoff (bit31_enable v) (by omega) (by omega)))

theorem exec_eventRingDisable (hon : s.flag (Reg.HOST_ER_CFG (erPage j) (j % 64)) Fld.HOST_ER_CFG_ENABLE = true) :
    exec (.eventRingDisable j) s = .next ((s.wr (Reg.HOST_ER_CFG (erPage j) (j % 64))
      (BitVec.ofNat 32 ((s.rd (Reg.HOST_ER_CFG (erPage j) (j % 64))).toNat % 2 ^ 31) &&& 0x87FFBF1F)).erRelease j) :=
  congrArg Host.Outcome.next ((onPage_free hheld hpage _).trans (erCfgWrite_fall hon (bit31_disable _)))
end

theorem exec_consSnoop (hon : s.erOn j = true) :
    exec (.consSnoop j cons) s = .next ((s.setEr j { s.er j with cons := cons % 2 ^ 32 }).emit (.rdShared true j (s.erLine j))) :=
  congrArg Host.Outcome.next (if_pos hon)

theorem exec_eventWriteDone (hlen : (s.er j).done < (s.er j).unsig.length) :
    exec (.eventWriteDone j) s = .next ((s.setEr j { s.er j with done := (s.er j).done + 1 }).erSignal j) :=
  congrArg Host.Outcome.next (if_pos hlen)

theorem exec_msixDelayExpiry {t : Nat} {l : List Nat} (hunsig : (s.er j).unsig = t :: l) : exec (.msixDelayExpiry j) s = .next
    ((s.elapseToTick (t + usTicks (s.fld (Reg.HOST_ER_MOD (erPage j) (j % 64)) Fld.HOST_ER_MOD_DELAY))).erSignal j) := by
  change execMsixDelayExpiry j s = _
  simp only [execMsixDelayExpiry, hunsig]

theorem exec_msixUnmask (hheld : s.pwr.held = false) :
    exec (.msixUnmask v) s = .next ((s.setFld (Reg.MSIX_CTRL (16 + v / 256) (v % 256)) Fld.MSIX_CTRL_MASK 0).msixUnmasked v) :=
  congrArg Host.Outcome.next (if_neg (by simp [hheld]))

end

/-- Settles O3, row by row: the ring's ENABLE, its state and the size of its ring choose the case. -/
theorem ringsComplete : Obligations.RingsComplete := by
  unfold Obligations.RingsComplete
  refine ⟨?enable, ?enableBad, ?disable, fun s i => exec_tailSnoop, fun s i tail hstop hline => exec_tailReread_stopped hline hstop,
    fun s i tail hrun hline => exec_tailReread_fetches hline hrun, fun s i tail hrun hline => exec_tailReread_overruns hline hrun,
    fun s i es => exec_entryFetch, fun s j v cons => exec_eventRingEnable, fun s j => exec_eventRingDisable, fun s j cons => exec_consSnoop,
    fun s j => rfl, fun s j => exec_eventWriteDone, fun s j t l => exec_msixDelayExpiry, fun s v => exec_msixUnmask⟩
  case enable =>
    intro s i v tail hheld hpage hoff u hlo hhi
    exact (exec_cmdRingEnable hheld hpage hoff).trans (congrArg Host.Outcome.next (crEnable_starts hlo hhi))
  case enableBad =>
    intro s i v tail hheld hpage hoff u hbad
    exact (exec_cmdRingEnable hheld hpage hoff).trans (congrArg Host.Outcome.next (crEnable_refuses hbad))
  case disable => exact fun s i hheld hpage hon => exec_cmdRingDisable hheld hpage hon

end Sys2Proof.HostRings
end

section
/-! PROOF. The HOST and MGMT commands and the management frames (R94, R102–R107). -/
namespace Sys2Proof.HostCommands
open Sys2Proof Sys2Proof.Machine Sys2Proof.HostPort

/-! ### Commands of the HOST block -/

section
variable {s : State} {h : CmdHdr} {a v : Nat}

theorem exec_nop (hrun : s.takes h 0x0200 false = true) : exec (.nop h) s = (s.start h 0x0200).okFor h 2 :=
  congrArg Host.Outcome.next (State.runCmd_takes _ hrun)

/-- What REG_WRITE does once it has started, its address in reach. -/
theorem exec_regWrite (hrun : s.takes h 0x0201 false = true) (hreach : s.cmdReaches h a = true) :
    let x := (s.start h 0x0201).writeAcc a 4 v
    exec (.regWrite h a v) s = .next (if x.1 then x.2.complete h 2 ⟨0x0100, 0, 0, []⟩
      else if x.2.host.started.any (cmdRuns h 2) then x.2.complete h 2 ⟨0, 0, 0, []⟩ else x.2) := by
  intro x
  have hreach' : (s.start h 0x0201).cmdReaches h a = true := by simpa only [State.cmdReaches, State.start_cmdWindow] using hreach
  refine congrArg Host.Outcome.next ((State.runCmd_takes _ hrun).trans ?_)
  simp only [hreach', Bool.not_true, Bool.false_eq_true, if_false]
  change (match (if x.1 then fail x.2 0x0100 else if x.2.host.started.any (cmdRuns h 2) then ok x.2 else (x.2, none)) with
    | (t, some c) => t.complete h 2 c | (t, none) => t) = _
  split_ifs <;> rfl

theorem exec_regRead (hrun : s.takes h 0x0202 false = true) (hreach : s.cmdReaches h a = true) :
    let x := (s.start h 0x0202).readAcc a 4
    exec (.regRead h a) s = .next (if x.1 then x.2.2.complete h 2 ⟨0x0100, 0, 0, []⟩ else x.2.2.complete h 2 ⟨0, x.2.1, 0, []⟩) := by
  intro x
  have hreach' : (s.start h 0x0202).cmdReaches h a = true := by simpa only [State.cmdReaches, State.start_cmdWindow] using hreach
  refine congrArg Host.Outcome.next ((State.runCmd_takes _ hrun).trans ?_)
  simp only [hreach', Bool.not_true, Bool.false_eq_true, if_false]
  change (match (if x.1 then fail x.2.2 0x0100 else ok x.2.2 x.2.1) with | (t, some c) => t.complete h 2 c | (t, none) => t) = _
  split_ifs <;> rfl

end

/-! ### Management frames -/

section
variable {s : State} {f : MpFrame} {op : Nat}

/-- The state in which a frame has been accepted: its SEQ is kept, and ACCEPTED counts (R103). -/
def accepted (s : State) (f : MpFrame) : State := { s with host := { s.host with mpSeq := some f.seq } }.inc Cnt.MGMT_MP_ACCEPTED

theorem mpTake_accepts (act : State → State) (hheld : s.pwr.held = false) (hours : s.mpOurs f = true) (hform : s.mpWellFormed f = true) (hop : f.op = op)
    (hsess : s.mpInSession f = true) (hauth : s.mpAuthentic f = true) (hseq : (s.host.mpSeq.any fun q => decide (f.seq ≤ q)) = false) :
    s.mpTake op f act = act (accepted s f) := by
  subst hop
  simp only [State.mpTake, hheld, hours, hform, hsess, hauth, hseq, beq_self_eq_true, Bool.and_self, Bool.not_true, Bool.or_self, Bool.false_eq_true, if_false]
  rfl

end

/-! ### The management keys -/

section
variable {s : State} {h : CmdHdr} {slot key : Nat}

/-- A change of the key slots, in the device and in the settings record. -/
def putKeys (u : State) (f : List (Nat × Nat) → List (Nat × Nat)) : State :=
  ({ u with host := { u.host with keys := f u.host.keys } } : State).writeSettings fun r => { r with keys := f r.keys }

theorem exec_mpKeySet_changes (hrun : s.takes h 0x0103 true = true) (htarget : h.target = 0) (hslot : slot ≤ 3) (empty : Nat) :
    exec (.mpKeySet h slot empty key) s =
      (putKeys (s.start h 0x0103) fun t => if empty = 1 then Tbl.del t slot else Tbl.put t slot key).okFor h 1 := by
  refine congrArg Host.Outcome.next ((State.runCmd_takes _ hrun).trans ?_)
  simp only [htarget, ne_eq, not_true_eq_false, if_false, Nat.not_lt.2 hslot]
  rfl

theorem exec_mpKeySet_refuses (hrun : s.takes h 0x0103 true = true) (htarget : h.target = 0) (hslot : 3 < slot) (empty : Nat) :
    exec (.mpKeySet h slot empty key) s = .next ((s.start h 0x0103).complete h 1 ⟨0x0100, 0, 0, []⟩) := by
  refine congrArg Host.Outcome.next ((State.runCmd_takes _ hrun).trans ?_)
  simp only [htarget, ne_eq, not_true_eq_false, if_false, hslot, if_true]
  rfl

end

/-- Settles O4, row by row: a command after its start by what its access or its operands give, a frame by its operation once it is accepted. -/
theorem hostCommandsComplete : Obligations.HostCommandsComplete := by
  unfold Obligations.HostCommandsComplete
  refine ⟨fun s h => exec_nop, ?regWrite, ?regRead, ?mpRead, ?mpWrite, ?mpCommand, ?keySet, fun s h slot empty key hrun htarget hslot =>
    exec_mpKeySet_refuses hrun htarget hslot empty, fun s hheld hpage => congrArg Host.Outcome.next (onPage_free hheld hpage _)⟩
  case regWrite =>
    intro s h a v hrun hreach x
    have heq := exec_regWrite (v := v) hrun hreach
    refine ⟨fun hx hany => heq.trans ?_, fun hx hany => heq.trans ?_, fun hx => heq.trans ?_⟩
    · exact congrArg Host.Outcome.next ((if_neg (ne_true_of_eq_false hx)).trans (if_pos hany))
    · exact congrArg Host.Outcome.next ((if_neg (ne_true_of_eq_false hx)).trans (if_neg (ne_true_of_eq_false hany)))
    · exact congrArg Host.Outcome.next (if_pos hx)
  case regRead =>
    intro s h a hrun hreach x
    have heq := exec_regRead hrun hreach
    exact ⟨fun hx => heq.trans (congrArg Host.Outcome.next (if_neg (ne_true_of_eq_false hx))),
      fun hx => heq.trans (congrArg Host.Outcome.next (if_pos hx))⟩
  case mpRead =>
    intro s f hheld hours hform hop hsess hauth hseq u
    exact congrArg Host.Outcome.next (mpTake_accepts _ hheld hours hform hop hsess hauth hseq)
  case mpWrite =>
    intro s f hheld hours hform hop hsess hauth hseq u hkept
    exact congrArg Host.Outcome.next ((mpTake_accepts _ hheld hours hform hop hsess hauth hseq).trans (if_pos hkept))
  case mpCommand =>
    intro s f hheld hours hform hop hsess hauth hseq
    exact congrArg Host.Outcome.next (mpTake_accepts _ hheld hours hform hop hsess hauth hseq)
  case keySet =>
    intro s h slot key hrun htarget hslot u put
    exact ⟨exec_mpKeySet_changes hrun htarget hslot 0, exec_mpKeySet_changes hrun htarget hslot 1⟩

end Sys2Proof.HostCommands
end

section
/-! PROOF. A packet's way through the switch core, row by row (chapter 5). -/
namespace Sys2Proof.SwitchRows
open Sys2Proof Sys2Proof.Machine Sys2Proof.CommandGates

/-! ### Ingress -/

section
variable {s : State} {lp : Nat} {hd : List Byte} {p : Pkt} {shared : Bool}

/-- No condition of PACKET_RX turns away the frame that a link expects. -/
theorem packetRx_gate (hup : (s.link lp).st.isUp = true) (hlight : s.ignoresLight (lp2p lp) = false) (hopen : (s.link lp).rxOpen = none)
    (hgood : hdrGood hd = true) (htype : hdrType hd = 1) (hseq : hdrSeq hd = (s.link lp).rxSeq) :
    ¬ (!(s.link lp).st.isUp || s.ignoresLight (lp2p lp) || (s.link lp).rxOpen.isSome || !hdrGood hd || hdrType hd != 1 ||
      hdrSeq hd != (s.link lp).rxSeq) = true := by
  simp [hup, hlight, hopen, hgood, htype, hseq]

end

/-- Settles O12, row by row. -/
theorem switchCoreCompletes : Obligations.SwitchCoreCompletes := by
  unfold Obligations.SwitchCoreCompletes
  refine ⟨?rx, ?tail, ?lookup, ?flit, ?grant, ?bridge, ?enqueue, ?sending, ?transmit, ?publish, ?drizzle⟩
  case rx =>
    intro s lp hd p shared hup hlight hopen hgood htype hseq id t j u
    have hexec : exec (.packetRx lp hd p shared) s = execPacketRx lp hd p shared s := rfl
    rw [hexec, execPacketRx, if_neg (packetRx_gate hup hlight hopen hgood htype hseq)]
    refine ⟨fun r hr => ?_, fun hr => ?_⟩
    · change (match u.rxReason lp p with | some _ => _ | none => _) = _
      rw [hr]
    · intro x g y v f redDrop
      refine ⟨fun hred => ?_, fun hred => ?_⟩ <;> change (match u.rxReason lp p with | some _ => _ | none => _) = _ <;> rw [hr]
      · exact if_pos hred
      · exact if_neg (ne_true_of_eq_false hred)
  case tail =>
    intro s id len fecBad stomped late r hr gone u
    have hexec : exec (.packetTail id len fecBad stomped late) s = execPacketTail id len fecBad stomped late s := rfl
    rw [hexec, execPacketTail, hr]
    refine ⟨fun hfec => if_pos hfec, fun hfec hacc => ?_⟩
    refine ⟨fun e he => ?_, fun he => ?_⟩ <;> refine (if_neg (ne_true_of_eq_false hfec)).trans ((if_neg (not_bnot_of_true hacc)).trans ?_) <;>
      change (match u.tailReason r len stomped late with | some _ => _ | none => _) = _ <;> rw [he]
  case lookup =>
    intro s t n x hx lp v f
    refine ⟨fun w => ?ue, fun hfn => ?function, fun hnofn htyp => ?forwarded⟩
    case ue =>
      show execPipelineLookup n (some w) s = _
      rw [execPipelineLookup, hx]
    all_goals
      have hexec : exec (.pipelineLookup n none) s = execPipelineLookup n none s := rfl
      rw [hexec, execPipelineLookup, hx]
    case function =>
      have hgate : (pflag f.pkt fDstSpine || f.pkt.typ == 0x30) = true := by simpa using hfn
      refine ⟨fun r cs hr => (if_pos hgate).trans ?_, fun hr => (if_pos hgate).trans ?_⟩
      · change (match v.fnReason n f.pkt with | some (_, _) => _ | none => _) = _
        rw [hr]
      · change (match v.fnReason n f.pkt with | some (_, _) => _ | none => _) = _
        rw [hr]
    case forwarded =>
      have hgate : ¬ (pflag f.pkt fDstSpine || f.pkt.typ == 0x30) = true := by simp [hnofn, htyp]
      refine ⟨fun r cs u hu => (if_neg hgate).trans ?_, fun r cnt u hu => ?_⟩
      · change (match v.lookupDecide n (v.role (lp2p lp) == 1) f.pkt with | (.discard _ _, _) => _ | (.forward _ _, _) => _) = _
        rw [hu]
      · intro w mode g
        refine ⟨fun hnone hr => (if_neg hgate).trans ?_, fun hnone hr => (if_neg hgate).trans ?_, fun hsome => (if_neg hgate).trans ?_⟩ <;>
          change (match v.lookupDecide n (v.role (lp2p lp) == 1) f.pkt with | (.discard _ _, _) => _ | (.forward _ _, _) => _) = _ <;> rw [hu]
        · exact if_pos ⟨List.isEmpty_iff.2 hnone, hr⟩
        · exact (if_neg fun h => h.2 hr).trans (if_pos (List.isEmpty_iff.2 hnone))
        · exact (if_neg fun h => hsome (List.isEmpty_iff.1 h.1)).trans (if_neg fun h => hsome (List.isEmpty_iff.1 h))
  case flit =>
    intro s quad pair stop ccw l enters k r hpick u lose
    have hexec : ∀ err, exec (.ringFlitEntry quad pair ccw stop err) s = execRingFlitEntry quad pair ccw stop err s := fun _ => rfl
    have hpick' : s.ringPick (16 * quad + 2 * pair + b2n ccw) stop = some (l, enters, k) := hpick
    simp only [hexec, execRingFlitEntry, hpick']
    refine ⟨rfl, rfl, rfl, fun hin hout => if_pos (by simp [hin, hout]), fun hnot => if_neg ?_⟩
    rcases hnot with hin | hout
    · simp [hin]
    · simp [Option.isNone_iff_eq_none, hout]
  case grant =>
    intro s o f
    have hexec : exec (.switchGrant o) s = execSwitchGrant o s := rfl
    rw [hexec, execSwitchGrant]
    exact ⟨fun hpick => by rw [hpick], fun k hpick => by rw [hpick]⟩
  case bridge =>
    intro s id o f hcar hdie q
    have hexec : exec (.bridgeFlitRetry id o) s = execBridgeFlitRetry id o s := rfl
    rw [hexec, execBridgeFlitRetry, hcar]
    exact ⟨fun hlt => (if_neg hdie).trans (if_pos hlt), fun hge => (if_neg hdie).trans (if_neg (Nat.not_lt.2 hge))⟩
  case enqueue =>
    intro s id lp x f l hcar hdest harr
    have hexec : exec (.outputEnqueue id lp) s = execOutputEnqueue id lp s := rfl
    have hnext : (((s.carried id (lp / 128)).filter fun f => (f.destOn lp).isSome).bind fun f => s.arrived lp f.pkt.cls) = some (f, l) := by
      simp [hcar, Option.filter, hdest, harr]
    obtain ⟨early, hearly⟩ : ∃ early, early = State.earlyDrop := ⟨_, rfl⟩
    obtain ⟨d0, hd0⟩ : ∃ d0, d0 = (f.destOn lp).getD (0, 0) := ⟨_, rfl⟩
    rw [hexec, execOutputEnqueue, hnext, ← hearly]
    dsimp only
    rw [← hd0]
    obtain ⟨feid, seq⟩ := d0
    dsimp only
    generalize (if feid = f.pkt.dst ∧ seq = f.pkt.seq then f.pkt else withHcrc { f.pkt with dst := feid, seq := seq }) = p
    generalize early (s.dropDest f lp) lp p ((s.dropDest f lp).qCells lp p.cls) ((s.dropDest f lp).qLimit lp p.cls) = e
    obtain ⟨verdict, z⟩ := e
    refine ⟨fun hf => if_pos hf, fun hf hdown => ?_, fun hf hup => ?_⟩
    · exact (if_neg (ne_true_of_eq_false hf)).trans (if_pos (bnot_of_false hdown))
    · refine ⟨fun hover => ?_, fun hroom => ⟨fun hdrop => ?_, fun hkeep => ?_⟩⟩ <;>
        refine (if_neg (ne_true_of_eq_false hf)).trans ((if_neg (not_bnot_of_true hup)).trans ?_)
      · exact if_pos hover
      · exact (if_neg (Nat.not_lt.2 hroom)).trans (if_pos (beq_iff_eq.2 hdrop))
      · refine (if_neg (Nat.not_lt.2 hroom)).trans ((if_neg fun h => hkeep (beq_iff_eq.1 h)).trans ?_)
        cases verdict with
        | drop => exact absurd rfl hkeep
        | mark => rfl
        | none => rfl
  case sending =>
    intro s lp f hsend
    have hexec : ∀ ue, exec (.transmitStart lp ue) s = execTransmitStart lp ue s := fun _ => rfl
    simp only [hexec, execTransmitStart, hsend]
    exact ⟨rfl, rfl⟩
  case transmit =>
    intro s lp ue hsend
    have hexec : ∀ ue, exec (.transmitStart lp ue) s = execTransmitStart lp ue s := fun _ => rfl
    obtain ⟨pick, hpick⟩ : ∃ pick, pick = State.pickClass := ⟨_, rfl⟩
    rw [hexec, hexec, hexec, execTransmitStart, execTransmitStart, execTransmitStart, hsend, ← hpick]
    refine ⟨fun hres => if_pos hres, fun hres => ?_⟩
    intro g
    refine ⟨fun hnone => (if_neg (ne_true_of_eq_false hres)).trans ?_, fun c f hc hf => ⟨(if_neg (ne_true_of_eq_false hres)).trans ?_,
      (if_neg (ne_true_of_eq_false hres)).trans ?_⟩⟩
    all_goals
      change (match g with | (none, z) => _ | (some c, z) => _) = _
      clear_value g
      obtain ⟨cls, z⟩ := g
    · obtain rfl : cls = none := hnone
      rfl
    all_goals
      obtain rfl : cls = some c := hc
      have hf' : z.headOf lp c = some f := hf
      simp only [hf']
    · rfl
    · rfl
  case publish => exact fun s => rfl
  case drizzle =>
    intro s q d hd u a depth tok w
    have hexec : exec (.drizzleRecord q) s = (if decide (288 * 6250 ≤ tok) then
        .next (((w (if decide (288 * 6250 ≤ tok) then tok - 288 * 6250 else tok)).inc (Cnt.RING_DRZ_SENT q)).emit (.drizzle (drzBytes d)))
      else .next (((w (if decide (288 * 6250 ≤ tok) then tok - 288 * 6250 else tok)).inc (Cnt.RING_DRZ_DROP q)).irq (pg 7 q) 4)) := by
      show execDrizzleRecord q s = _
      rw [execDrizzleRecord, hd]
    rw [hexec]
    clear_value tok w
    refine ⟨fun hhave => ?_, fun hlack => ?_⟩
    · simp only [decide_eq_true hhave, if_true]
    · simp only [decide_eq_false (Nat.not_le.2 hlack), Bool.false_eq_true, if_false]

end Sys2Proof.SwitchRows
end

section
/-! PROOF. Shadow comparison, learned moves and the FWT counters, row by row (R315–R322). -/
namespace Sys2Proof.LearnRows
open Sys2Proof Sys2Proof.Machine Sys2Proof.CommandGates

/-! ### A LEARN packet of its row's KIND -/

section
variable {s : State} {lp : Nat} {p : Pkt} {kind : Nat} (htyp : p.typ = 0x31) (hkind : beAt 0 1 p.payload = kind)
include htyp hkind

theorem learnRx_gate : ¬(p.typ ≠ 0x31 ∨ beAt 0 1 p.payload ≠ kind) := by simp [htyp, hkind]

theorem learnRx_unused (hbad : pflag p fPoison = true ∨ p.payload.length ≠ 64) (f : State → State) : s.learnRx lp p kind f = s.takeFn lp p :=
  (if_neg (learnRx_gate htyp hkind)).trans (if_pos (by simpa using hbad))

section
variable (hpois : pflag p fPoison = false) (hlen : p.payload.length = 64)
include hpois hlen

theorem learnRx_reserved (hres : learnReserved p.payload = true) (f : State → State) :
    s.learnRx lp p kind f = (s.takeFn lp p).countReason lp rReserved p :=
  (if_neg (learnRx_gate htyp hkind)).trans ((if_neg (by simp [hpois, hlen])).trans (if_pos hres))

theorem learnRx_takes (hres : learnReserved p.payload = false) (f : State → State) : s.learnRx lp p kind f = f (s.takeFn lp p) :=
  (if_neg (learnRx_gate htyp hkind)).trans ((if_neg (by simp [hpois, hlen])).trans (if_neg (ne_true_of_eq_false hres)))
end
end

/-- Every LEARN row goes on with what the gate of its KIND lets through. -/
theorem exec_learn {s : State} {lp : Nat} {p : Pkt} {c : Instr} (hrow : (c = .learnMoveRx lp p ∧ beAt 0 1 p.payload = 1) ∨
    (c = .learnUnmoveRx lp p ∧ beAt 0 1 p.payload = 2) ∨ (c = .learnAckRx lp p ∧ beAt 0 1 p.payload = 3)) :
    ∃ kind f, beAt 0 1 p.payload = kind ∧ exec c s = .next (s.learnRx lp p kind f) := by
  rcases hrow with ⟨rfl, h⟩ | ⟨rfl, h⟩ | ⟨rfl, h⟩ <;> exact ⟨_, _, h, rfl⟩

/-! ### Once per origin and sequence -/

/-- What a learned move asks of its origin and sequence (R316). -/
theorem learn_gate {t : State} {o seq : Nat} : (feidPlane o != t.plane || spineIdx o == t.spine || decide (seq < Tbl.getD t.fwt.learnSeq 0 o)) = true ↔
    ¬(feidPlane o = t.plane ∧ spineIdx o ≠ t.spine ∧ Tbl.getD t.fwt.learnSeq 0 o ≤ seq) := by
  simp only [Bool.or_eq_true, bne_iff_ne, beq_iff_eq, decide_eq_true_eq]
  omega

/-- Is a notice that came in the name of a spine to be applied: from another spine of the plane, of a sequence not yet seen (R316)? -/
def fresh (t : State) (b : List Byte) : Prop :=
  feidPlane (beAt 16 4 b) = t.plane ∧ spineIdx (beAt 16 4 b) ≠ t.spine ∧ Tbl.getD t.fwt.learnSeq 0 (beAt 16 4 b) ≤ beAt 12 4 b

/-- A notice that has been applied is recorded and answered with an ACK (R316). -/
def acknowledged (u : State) (lp : Nat) (b : List Byte) : State :=
  let v : State := { u with fwt := { u.fwt with learnSeq := Tbl.set u.fwt.learnSeq 0 (beAt 16 4 b) (beAt 12 4 b + 1) } }
  v.originate lp {
    cls := 7, typ := 0x31, flags := 2 ^ fSrcSpine + 2 ^ fDstSpine, dst := beAt 16 4 b / 4096 * 4096, src := v.spineAddr 0, plen := 64
    payload := learnBytes 3 (beAt 4 4 b) 0 0 (beAt 12 4 b) (beAt 16 4 b) }

section
variable {s u : State} {lp : Nat} {p : Pkt} {kind : Nat} {f : State → Bool × State} (htyp : p.typ = 0x31) (hkind : beAt 0 1 p.payload = kind)
  (hpois : pflag p fPoison = false) (hlen : p.payload.length = 64) (hres : learnReserved p.payload = false)
include htyp hkind hpois hlen hres

theorem learn_stale (hno : ¬ fresh (s.takeFn lp p) p.payload) : s.learn lp p kind f = s.takeFn lp p :=
  (learnRx_takes htyp hkind hpois hlen hres _).trans (if_pos (learn_gate.2 hno))

theorem learn_refused (hnew : fresh (s.takeFn lp p) p.payload) (hf : f (s.takeFn lp p) = (false, u)) : s.learn lp p kind f = u := by
  refine (learnRx_takes htyp hkind hpois hlen hres _).trans ((if_neg fun h => learn_gate.1 h hnew).trans ?_)
  rw [hf]
  rfl

theorem learn_applied (hnew : fresh (s.takeFn lp p) p.payload) (hf : f (s.takeFn lp p) = (true, u)) : s.learn lp p kind f = acknowledged u lp p.payload := by
  refine (learnRx_takes htyp hkind hpois hlen hres _).trans ((if_neg fun h => learn_gate.1 h hnew).trans ?_)
  rw [hf]
  rfl
end

/-- What LEARN_MOVE_RX applies: an override of the leaf, unless it is out of bounds (R316). -/
def moveApplies (b : List Byte) (t : State) : Bool × State :=
  if t.ovrBad 0 (beAt 8 2 b % 512) then (false, t)
  else
    let (st, _, u) := t.ovrInsert (feidKey (beAt 4 4 b)) 0 (beAt 10 1 b) (beAt 8 2 b % 512)
    (st == 0, u)

theorem moveApplies_bad {b : List Byte} {t : State} (hbad : t.ovrBad 0 (beAt 8 2 b % 512) = true) : moveApplies b t = (false, t) := if_pos hbad

theorem moveApplies_insert {b : List Byte} {t : State} (hok : t.ovrBad 0 (beAt 8 2 b % 512) = false) :
    let r := t.ovrInsert (feidKey (beAt 4 4 b)) 0 (beAt 10 1 b) (beAt 8 2 b % 512)
    moveApplies b t = (r.1 == 0, r.2.2) := if_neg (ne_true_of_eq_false hok)

/-- Settles O17, row by row: the gate of the LEARN packets, then the origin and what applying the notice answers. -/
theorem learningCompletes : Obligations.LearningCompletes := by
  unfold Obligations.LearningCompletes
  refine ⟨?compare, ?gate, ?learn, ?clear⟩
  case compare =>
    intro s u
    exact ⟨fun hon => (if_pos hon : execCmpWordCompare s = _), fun hoff => (if_neg (ne_true_of_eq_false hoff) : execCmpWordCompare s = _)⟩
  case gate =>
    intro s lp p c htyp hrow
    obtain ⟨kind, f, hkind, hexec⟩ := exec_learn (s := s) hrow
    rw [hexec]
    exact ⟨fun hbad => congrArg _ (learnRx_unused htyp hkind hbad f),
      fun hpois hlen hres => congrArg _ (learnRx_reserved htyp hkind hpois hlen hres f)⟩
  case learn =>
    intro s lp p htyp hpois hlen hres t o seq feid mine done
    refine ⟨fun hkind => ?move, fun hkind => ⟨fun hno => ?stale, fun hmine => ?applied⟩, fun hkind => ?ack⟩
    case move =>
      intro leaf r
      have hexec : exec (.learnMoveRx lp p) s = .next (s.learn lp p 1 (moveApplies p.payload)) := rfl
      rw [hexec]
      refine ⟨fun hno => congrArg _ ?_, fun hmine hok hst => congrArg _ ?_, fun hmine hok hst => congrArg _ ?_⟩
      · by_cases hmine : mine
        · exact learn_refused htyp hkind hpois hlen hres hmine (moveApplies_bad (hno.resolve_left (not_not.2 hmine)))
        · exact learn_stale htyp hkind hpois hlen hres hmine
      · exact learn_refused htyp hkind hpois hlen hres hmine ((moveApplies_insert hok).trans (Prod.ext (beq_eq_false_iff_ne.2 hst) rfl))
      · exact learn_applied htyp hkind hpois hlen hres hmine ((moveApplies_insert hok).trans (Prod.ext (beq_iff_eq.2 hst) rfl))
    case stale => exact congrArg Host.Outcome.next (learn_stale htyp hkind hpois hlen hres hno)
    case applied => exact congrArg Host.Outcome.next (learn_applied htyp hkind hpois hlen hres hmine rfl)
    case ack =>
      have htake := learnRx_takes (s := s) (lp := lp) htyp hkind hpois hlen hres
      exact ⟨fun hown => congrArg Host.Outcome.next ((htake _).trans (if_pos hown)), fun hother => congrArg Host.Outcome.next ((htake _).trans (if_neg hother))⟩
  case clear => exact fun s n hheld hbusy => onPage_takes hheld hbusy _

end Sys2Proof.LearnRows
end

section
/-! PROOF. Fen's rounds, contributions and halls, row by row (chapter 11). -/
namespace Sys2Proof.FenRows
open Sys2Proof Sys2Proof.Machine Sys2Proof.CommandGates

/-! ### The gate of the COLL_CTRL rows (R521) -/

/-- Is a COLL_CTRL packet stale against the group it names? -/
def ctrlStale (s : State) (p : Pkt) : Bool := match s.collGroup (p.msgId / 4096) with | some x => staleGen p (grpGen x.1) | none => false

/-- The die that counts a COLL_CTRL packet. -/
def ctrlHome (s : State) (lp : Nat) (p : Pkt) : Nat := match s.collGroup (p.msgId / 4096) with | some x => dHome x.2 | none => lp / 512 % 2

/-- May a packet's source send its OP? -/
def ctrlKnown (p : Pkt) : Bool := (if pflag p fSrcSpine then [1, 2, 3, 4, 5, 9] else [1, 6, 8]).contains (beAt 0 1 p.payload)

section
variable {s : State} {lp : Nat} {p : Pkt} {op : Nat} (htyp : p.typ = 0x13) (body : Nat → Nat → Nat → Nat → State → State)
include htyp

theorem collCtrl_stale (hstale : ctrlStale s p = true) : s.collCtrl lp p op body = (s.takeFn lp p).staleIn lp p :=
  (if_neg (not_not.2 htyp)).trans (if_pos hstale)

theorem collCtrl_poison (hfresh : ctrlStale s p = false) (hpois : pflag p fPoison = true) : s.collCtrl lp p op body = s.takeFn lp p :=
  (if_neg (not_not.2 htyp)).trans ((if_neg (ne_true_of_eq_false hfresh)).trans (if_pos hpois))

theorem collCtrl_badShape (hfresh : ctrlStale s p = false) (hpois : pflag p fPoison = false) (hbad : p.payload.length ≠ 64 ∨ ctrlKnown p = false) :
    s.collCtrl lp p op body = (s.takeFn lp p).inc (Cnt.FADM_BAD_SHAPE (ctrlHome s lp p)) :=
  (if_neg (not_not.2 htyp)).trans ((if_neg (ne_true_of_eq_false hfresh)).trans ((if_neg (ne_true_of_eq_false hpois)).trans
    (if_pos (hbad.imp_right bnot_of_false))))
end

/-- Every row of O21's gate is the gate with the row's own effect. -/
theorem exec_collCtrl {s : State} {lp : Nat} {p : Pkt} {c : Instr} {op : Nat} (hrow : (c, op) ∈ ([(.fenOpen lp p, 1), (.fenRepeat lp p, 6),
    (.fenDone lp p, 8), (.hallRefusedRx lp p, 3), (.hallAbortRx lp p, 9)] : List (Instr × Nat))) :
    ∃ body, exec c s = .next (s.collCtrl lp p op body) := by
  simp only [List.mem_cons, Prod.mk.injEq, List.not_mem_nil, or_false] at hrow
  rcases hrow with ⟨rfl, rfl⟩ | ⟨rfl, rfl⟩ | ⟨rfl, rfl⟩ | ⟨rfl, rfl⟩ | ⟨rfl, rfl⟩ <;> exact ⟨_, rfl⟩

/-! ### The place of a region (R534) -/

theorem outside_stripe {first n c : Nat} : (decide (first ≤ c) && decide (c < first + n)) = false ↔ c < first ∨ first + n ≤ c := by
  simp only [Bool.and_eq_false_iff, decide_eq_false_iff_not]
  omega

theorem wrong_shape {off len n m : Nat} : (off % 4096 == 0 && decide (off < len) && n == m) = false ↔ off % 4096 ≠ 0 ∨ len ≤ off ∨ n ≠ m := by
  simp only [Bool.and_eq_false_iff, decide_eq_false_iff_not, beq_eq_false_iff_ne]
  omega

/-- Settles O21, row by row: the gate, then the round that the packet names and what its member, its chunk and its region are to it. -/
theorem fenRoundsComplete : Obligations.FenRoundsComplete := by
  unfold Obligations.FenRoundsComplete
  refine ⟨?gate, ?open_, ?noRound, ?region, ?repeat_, ?done, ?stall⟩
  case gate =>
    intro s lp p c op htyp hrow stale home known
    obtain ⟨body, hexec⟩ := exec_collCtrl (s := s) hrow
    rw [hexec]
    exact ⟨fun hstale => congrArg _ (collCtrl_stale htyp body hstale), fun hfresh hpois => congrArg _ (collCtrl_poison htyp body hfresh hpois),
      fun hfresh hpois hbad => congrArg _ (collCtrl_badShape htyp body hfresh hpois hbad)⟩
  case open_ =>
    intro s lp p e d htakes
    have hexec : exec (.fenOpen lp p) s = execFenOpen lp p s := rfl
    rw [hexec, execFenOpen, State.collCtrl_takes _ htakes]
    dsimp only
    refine ⟨fun hnew hnext hfree => ?_, fun hnew hnext hopen => ?_, fun hnew hfar => ?_, fun hlast hnone => ?_, fun r hlast hsome => ?_⟩
    · rw [if_neg hnew, if_neg (not_not.2 hnext), hfree, if_neg (by simp)]
    · rw [if_neg hnew, if_neg (not_not.2 hnext), if_pos hopen]
    · rw [if_neg hnew, if_pos hfar]
    · rw [if_pos hlast, hnone]
    · rw [if_pos hlast, hsome]
      refine ⟨fun hw => ?_, fun hw hno => ?_, fun k hw hk => ?_⟩ <;> dsimp only
      · rw [if_neg (ne_true_of_eq_false hw)]
      · rw [if_pos hw, hno]
      · rw [if_pos hw, hk]
  case noRound =>
    intro s lp p wrong htyp
    have hexec : exec (.collIn lp p wrong) s = execCollIn lp p wrong s := rfl
    rw [hexec, execCollIn]
    dsimp only
    rw [if_neg (not_not.2 htyp)]
    refine ⟨fun hnone => by rw [hnone], fun e d hsome => ?_⟩
    rw [hsome]
    dsimp only
    refine ⟨fun hstale => if_pos hstale, fun hfresh hclosed => ?_⟩
    rw [if_neg (ne_true_of_eq_false hfresh)]
    rcases hclosed with hno | ⟨r, hr, hpass⟩
    · rw [hno]
    · rw [hr]
      dsimp only
      rw [if_pos hpass]
  case region =>
    intro s lp p wrong e d r htyp hgroup hfresh hround hpass
    have hexec : exec (.collIn lp p wrong) s = execCollIn lp p wrong s := rfl
    rw [hexec]
    unfold execCollIn
    dsimp only
    rw [if_neg (not_not.2 htyp), hgroup]
    dsimp only
    rw [if_neg (ne_true_of_eq_false hfresh), hround]
    dsimp only
    rw [if_neg (ne_true_of_eq_false hpass)]
    refine ⟨fun hout => if_pos hout, fun hin => ?_⟩
    rw [if_neg (ne_true_of_eq_false hin)]
    refine ⟨fun hfen => if_pos hfen, fun hfen hstripe => ?_, fun hfen hstripe hshape => ?_, fun hfen hstripe hshape => ?_⟩
    all_goals rw [if_neg (ne_true_of_eq_false hfen)]
    · rw [if_pos (outside_stripe.1 hstripe)]
    all_goals rw [if_neg fun h => ne_true_of_eq_false (outside_stripe.2 h) hstripe]
    · rw [if_pos (wrong_shape.1 hshape)]
    rw [if_neg fun h => ne_true_of_eq_false (wrong_shape.2 h) hshape]
    refine ⟨fun hgot => if_pos hgot, fun hgot hwait => ?_, fun hgot hwait hfull => ?_, fun hgot hwait hfull => ?_⟩ <;>
      rw [if_neg (ne_true_of_eq_false hgot)]
    · rw [if_pos hwait]
    · rw [if_neg (ne_true_of_eq_false hwait), if_pos hfull]
    · rw [if_neg (ne_true_of_eq_false hwait), if_neg (ne_true_of_eq_false hfull)]
  case repeat_ =>
    intro s lp p e d htakes
    have hexec : exec (.fenRepeat lp p) s = execFenRepeat lp p s := rfl
    rw [hexec, execFenRepeat, State.collCtrl_takes _ htakes]
    dsimp only
    refine ⟨fun hno => by rw [if_pos hno], fun hmem hrec => ?_, fun hmem hchunk => ?_⟩ <;> rw [if_neg (Nat.not_le.2 hmem)]
    · rw [if_pos hrec]
      refine ⟨fun hgone => ?_, fun body hbody hlast => ?_⟩
      · rcases hgone with hnone | hother
        · rw [hnone]
        · split
          · rw [if_neg hother]
          · rfl
      · rw [hbody]
        dsimp only
        rw [if_pos hlast]
    · rw [if_neg hchunk]
      refine ⟨fun hnone => by rw [hnone], fun r hr => ?_⟩
      rw [hr]
      dsimp only
      refine ⟨fun hgone => ?_, fun x hlast hx => ?_⟩
      · rcases hgone with hother | hnone
        · rw [if_neg hother]
        · rw [hnone]
          split <;> rfl
      · rw [if_pos hlast, hx]
  case done =>
    intro s lp p e d htakes
    have hexec : exec (.fenDone lp p) s = execFenDone lp p s := rfl
    rw [hexec, execFenDone, State.collCtrl_takes _ htakes]
    dsimp only
    refine ⟨fun hnone => by rw [hnone], fun r hr => ?_⟩
    rw [hr]
    dsimp only
    refine ⟨fun hclosed => ?_, fun hpass hlast => ?_⟩
    · rw [if_pos (by simpa using hclosed)]
    · rw [if_neg (by simp [hpass, hlast])]
      exact ⟨fun hno => by rw [if_pos hno], fun hmem => by rw [if_neg (Nat.not_le.2 hmem)]⟩
  case stall =>
    intro s die g c t r hround hfirst hfrozen hmissing hresult
    have hexec : exec (.fenStall die g c) s = execFenStall die g c s := rfl
    rw [hexec, execFenStall, hround]
    dsimp only
    rw [hfirst]
    dsimp only
    rw [if_neg (by simp [hfrozen, hmissing, hresult])]

end Sys2Proof.FenRows
end

section
/-! PROOF. Fen across halls, row by row (R535–R538, R569–R573). -/
namespace Sys2Proof.HallRows
open Sys2Proof Sys2Proof.Machine Sys2Proof.CommandGates

/-- What a COLL_CTRL packet that its row acts on says of its own OP. -/
theorem ctrlTakes_op {s : State} {p : Pkt} {op e d : Nat} (htakes : s.ctrlTakes p op e d = true) : beAt 0 1 p.payload = op := by
  unfold State.ctrlTakes at htakes
  simp only [Bool.and_eq_true, beq_iff_eq] at htakes
  obtain ⟨⟨⟨⟨⟨⟨⟨⟨_, _⟩, hop⟩, _⟩, _⟩, _⟩, _⟩, _⟩, _⟩ := htakes
  exact hop

/-- With no round open in a group, none is open across the halls. -/
theorem hallRound_none {s : State} {die : Nat} {p : Pkt} {rnd : Nat} (hnone : s.fenRound die (p.msgId / 4096) = none) : s.hallRound die p rnd = none := by
  rw [State.hallRound, hnone]

section
variable {s : State} {lp : Nat} {p : Pkt} {e d : Nat} {r : Round}

/-! ### The root's packets of COLL_CTRL at a hall spine, and a hall's at the root -/

section
variable (hround : (s.takeFn lp p).hallRound (dHome d) p (beAt 2 2 p.payload) = some r) (hhall : isHall r.desc = true) (hport : lp = dXport r.desc)
include hround hhall hport

theorem exec_hallAdmitted_start (htakes : s.ctrlTakes p 2 e d = true) :
    exec (.hallAdmittedRx lp p) s = .next (if r.waiting then (s.takeFn lp p).startRound r else s.takeFn lp p) := by
  have hexec : exec (.hallAdmittedRx lp p) s = execHallAdmittedRx lp p s := rfl
  rw [hexec, execHallAdmittedRx]
  simp only [ctrlTakes_op htakes]
  rw [State.collCtrl_takes _ htakes, hround]
  dsimp only
  rw [if_pos ⟨hhall, hport⟩]

theorem exec_hallAdmitted_backoff (htakes : s.ctrlTakes p 4 e d = true) :
    exec (.hallAdmittedRx lp p) s = .next ((s.takeFn lp p).hallAgain r (dFirst r.desc + beAt 4 2 p.payload / max 1 (dU r.desc)) fun num rg =>
      num == beAt 4 2 p.payload && bit rg (beAt 6 2 p.payload)) := by
  have hexec : exec (.hallAdmittedRx lp p) s = execHallAdmittedRx lp p s := rfl
  rw [hexec, execHallAdmittedRx]
  simp only [ctrlTakes_op htakes]
  rw [State.collCtrl_takes _ htakes, hround]
  dsimp only
  rw [if_pos ⟨hhall, hport⟩]

theorem exec_hallAdmitted_resend (htakes : s.ctrlTakes p 5 e d = true) :
    exec (.hallAdmittedRx lp p) s = .next ((s.takeFn lp p).hallAgain r (beAt 4 2 p.payload) fun _ _ => true) := by
  have hexec : exec (.hallAdmittedRx lp p) s = execHallAdmittedRx lp p s := rfl
  rw [hexec, execHallAdmittedRx]
  simp only [ctrlTakes_op htakes]
  rw [State.collCtrl_takes _ htakes, hround]
  dsimp only
  rw [if_pos ⟨hhall, hport⟩]
end

/-- A refusal for an open cross-hall round, at a hall spine from its root and at the root from a hall. -/
theorem exec_hallRefused_open (hround : (s.takeFn lp p).hallRound (dHome d) p (beAt 2 2 p.payload) = some r) (htakes : s.ctrlTakes p 3 e d = true) :
    exec (.hallRefusedRx lp p) s = .next (
      if !r.waiting then s.takeFn lp p
      else if isHall r.desc then
        (if lp = dXport r.desc then (((s.takeFn lp p).dropRound r).countRefusal (dHome d) r.desc 8).refuseRound r 8 else s.takeFn lp p)
      else if (hallOf r.desc lp).isSome then ((s.takeFn lp p).countRefusal (dHome d) r.desc 8).rootRefuse r 8
      else s.takeFn lp p) := by
  have hexec : exec (.hallRefusedRx lp p) s = execHallRefusedRx lp p s := rfl
  rw [hexec, execHallRefusedRx, State.collCtrl_takes _ htakes, hround]

theorem exec_hallAbort_open (hround : (s.takeFn lp p).hallRound (dHome d) p (beAt 2 2 p.payload) = some r) (htakes : s.ctrlTakes p 9 e d = true) :
    exec (.hallAbortRx lp p) s = .next (
      if isHall r.desc then (if lp = dXport r.desc then (s.takeFn lp p).fenAbort r (beAt 1 1 p.payload) else s.takeFn lp p)
      else if (hallOf r.desc lp).isSome then (s.takeFn lp p).fenAbort r 6
      else s.takeFn lp p) := by
  have hexec : exec (.hallAbortRx lp p) s = execHallAbortRx lp p s := rfl
  rw [hexec, execHallAbortRx, State.collCtrl_takes _ htakes, hround]

end

/-- Settles O23, row by row: the open round that a packet is for, what the spine is to it, and for a release what the hall holds of its chunk. -/
theorem fenHallsComplete : Obligations.FenHallsComplete := by
  unfold Obligations.FenHallsComplete
  refine ⟨?spine, ?root, ?next, ?timeout, ?release, ?recalled, ?record⟩
  case spine =>
    intro s lp p e d r u hround hhall hport c
    refine ⟨fun htakes hw => ?_, fun htakes hw => ?_, fun htakes => exec_hallAdmitted_backoff hround hhall hport htakes,
      fun htakes => exec_hallAdmitted_resend hround hhall hport htakes, fun htakes hw => ?_, fun htakes hw => ?_, fun htakes => ?_⟩
    · rw [exec_hallAdmitted_start hround hhall hport htakes, if_pos hw]
    · rw [exec_hallAdmitted_start hround hhall hport htakes, if_neg (ne_true_of_eq_false hw)]
    · rw [exec_hallRefused_open hround htakes, if_neg (not_bnot_of_true hw), if_pos hhall, if_pos hport]
    · rw [exec_hallRefused_open hround htakes, if_pos (bnot_of_false hw)]
    · rw [exec_hallAbort_open hround htakes, if_pos hhall, if_pos hport]
  case root =>
    intro s lp p e d r u hround hroot hfrom
    have hnot := ne_true_of_eq_false hroot
    refine ⟨fun htakes hw => ?_, fun htakes hw => ?_, fun htakes => ?_⟩
    · rw [exec_hallRefused_open hround htakes, if_neg (not_bnot_of_true hw), if_neg hnot, if_pos hfrom]
    · rw [exec_hallRefused_open hround htakes, if_pos (bnot_of_false hw)]
    · rw [exec_hallAbort_open hround htakes, if_neg hnot, if_pos hfrom]
  case next =>
    intro s lp p e d u g rnd htakes hnone hfrom hnext v
    have hexec : exec (.hallRefusedRx lp p) s = execHallRefusedRx lp p s := rfl
    rw [hexec, execHallRefusedRx, State.collCtrl_takes _ htakes, hallRound_none hnone]
    dsimp only
    rw [if_pos ⟨hfrom, hnext, Option.isNone_iff_eq_none.2 hnone⟩]
  case timeout =>
    intro s die g r hround hw hroot hfrozen
    have hexec : exec (.hallOpenTimeout die g) s = execHallOpenTimeout die g s := rfl
    rw [hexec, execHallOpenTimeout, hround]
    dsimp only
    rw [if_pos (by simp [hw, hroot, hfrozen])]
  case release =>
    intro s lp p r htyp hround hstripe hfinished hregion
    have hexec : exec (.hallReleaseRx lp p) s = execHallReleaseRx lp p s := rfl
    rw [hexec, execHallReleaseRx, if_neg (not_not.2 htyp)]
    dsimp only
    rw [hround]
    dsimp only
    refine ⟨fun hagain => ?_, fun hnew => ?_⟩
    · rw [if_pos (by simp [hagain])]
    rw [hstripe, hfinished, hnew, decide_eq_false (Nat.not_le.2 hregion), if_neg (by decide)]
    refine ⟨fun hpart => ?_, fun hwhole hbad => ?_, fun hwhole hok => ?_⟩
    · rw [if_pos (bnot_of_false hpart)]
    · rw [if_neg (not_bnot_of_true hwhole), if_pos (bnot_of_false hbad)]
    · rw [if_neg (not_bnot_of_true hwhole), if_neg (not_bnot_of_true hok)]
  case recalled =>
    intro s lp p r htyp hround hstripe hrnd
    have hexec : exec (.hallRecallRx lp p) s = execHallRecallRx lp p s := rfl
    rw [hexec, execHallRecallRx, if_neg (not_not.2 htyp)]
    dsimp only
    rw [hround]
    dsimp only
    rw [if_pos ⟨hstripe, hrnd⟩]
  case record =>
    intro s lp p r htyp hver hround
    have hexec : exec (.hallRecordRx lp p) s = execHallRecordRx lp p s := rfl
    rw [hexec, execHallRecordRx, if_neg (by simp [htyp, hver])]
    dsimp only
    rw [hround]
    dsimp only
    split <;> rfl

end Sys2Proof.HallRows
end

section
/-! PROOF. Peat's requests, row by row (R605–R613, R630, R637). -/
namespace Sys2Proof.PeatRequests
open Sys2Proof Sys2Proof.Machine Sys2Proof.CommandGates

/-! ### Counter events leave the register words alone -/

theorem foldl_regs {α : Type} (f : State → α → State) (hf : ∀ s x, (f s x).regs = s.regs) : ∀ (l : List α) (s : State), (l.foldl f s).regs = s.regs := by
  intro l
  induction l with
  | nil => exact fun _ => rfl
  | cons x l ih => exact fun s => (ih (f s x)).trans (hf s x)

theorem pmcEvent_regs (s : State) (ev c unit n : Nat) : (s.pmcEvent ev c unit n).regs = s.regs := by
  unfold State.pmcEvent
  split
  · rfl
  · refine foldl_regs _ (fun t a => ?_) _ _
    dsimp only
    split <;> rfl

theorem countMacs_regs (s : State) (p n : Nat) : (s.countMacs p n).regs = s.regs := pmcEvent_regs ..

theorem inc_countMacs_rd (s : State) (c p n a : Nat) : ((s.inc c).countMacs p n).rd a = s.rd a := State.rd_congr (countMacs_regs ..) a

/-! ### The packets of a request -/

theorem takeFn_peat (s : State) (lp : Nat) (p : Pkt) : (s.takeFn lp p).peat = s.peat := by
  unfold State.takeFn
  split <;> rfl

theorem setPeat_congr {s : State} {f g : PeatSt → PeatSt} (h : f s.peat = g s.peat) : s.setPeat f = s.setPeat g := by
  simp only [State.setPeat, h]

/-- Every request row takes its packet by its OP. -/
theorem exec_peatRow {s : State} {lp : Nat} {pkt : Pkt} {errs : List BeatErr} {c : Instr} {op : Nat} (hrow : (c, op) ∈
    ([(.peatPut lp pkt errs, 1), (.peatGet lp pkt errs, 2), (.peatGather lp pkt errs, 3), (.peatAttend lp pkt errs, 4), (.peatPin lp pkt errs, 5),
      (.peatEvict lp pkt errs, 6), (.peatPromote lp pkt errs, 7), (.peatDemote lp pkt errs, 8)] : List (Instr × Nat))) :
    exec c s = .next (s.peatRow op lp pkt errs) := by
  simp only [List.mem_cons, Prod.mk.injEq, List.not_mem_nil, or_false] at hrow
  rcases hrow with ⟨rfl, rfl⟩ | ⟨rfl, rfl⟩ | ⟨rfl, rfl⟩ | ⟨rfl, rfl⟩ | ⟨rfl, rfl⟩ | ⟨rfl, rfl⟩ | ⟨rfl, rfl⟩ | ⟨rfl, rfl⟩ <;> rfl

/-- Peat answers 0x10 when it is offline, or for an ATTEND that it may not run (R610). -/
theorem mayNot_iff {online att ok : Bool} : (!online || (att && !ok)) = true ↔ (online && (!att || ok)) = false := by
  cases online <;> cases att <;> cases ok <;> decide

theorem may_iff {online att ok : Bool} : ¬(!online || (att && !ok)) = true ↔ (online && (!att || ok)) = true := by
  cases online <;> cases att <;> cases ok <;> decide

/-- Settles O25: a packet by what its message holds and its generation, a request by its partition and its checks, a wait by its deadline. -/
theorem peatRequestsComplete : Obligations.PeatRequestsComplete := by
  unfold Obligations.PeatRequestsComplete
  refine ⟨?packet, ?serve, ?timeout⟩
  case packet =>
    intro s lp pkt errs c op htyp hfrozen hrow
    rw [exec_peatRow hrow, State.peatRow, if_neg (by simp [htyp, hfrozen])]
    unfold State.peatReasm
    dsimp only
    cases hfind : s.peat.reasm.find? fun q => q.src == pkt.src && q.msgId == pkt.msgId && q.gen == pkt.gen
    all_goals
      dsimp only [Option.getD]
      generalize (if pflag pkt fLast = true then some (pkt.offset + pkt.payload.length) else _) = total
      simp only [List.append_nil]
      refine ⟨fun hdup => congrArg Host.Outcome.next (if_pos hdup), fun hnew => ?_⟩
      rw [if_neg (ne_true_of_eq_false hnew)]
      refine ⟨fun hstale => ?_, fun hfresh htotal => ?_, fun hfresh htotal hop => ?_⟩
      · rw [if_pos hstale, setPeat_congr]
        rw [takeFn_peat]
      · rw [if_neg (ne_true_of_eq_false hfresh)]
        cases total with
        | none => rfl
        | some t => exact congrArg Host.Outcome.next (if_pos fun h => htotal (congrArg some h.symm))
      · rw [if_neg (ne_true_of_eq_false hfresh), htotal]
        refine congrArg Host.Outcome.next ((if_neg (not_not.2 rfl)).trans (if_neg ?_))
        rintro ⟨hlo, hhi, hne⟩
        rcases hop with hop | hop | hop
        · exact hne hop
        · exact Nat.not_succ_le_zero 0 (hlo.trans hop.le)
        · exact Nat.not_lt.2 hhi hop
  case serve =>
    intro s lp pkt m badLen poison errs
    unfold State.peatServe
    dsimp only
    refine ⟨fun hnone => ?_, fun p hp => ?_⟩
    · rw [hnone]
      dsimp only
      refine ⟨fun hmay => ?_, fun hmay hpois => ?_, fun hmay hpois => ?_⟩
      · rw [if_pos (mayNot_iff.2 hmay)]
      · rw [if_neg (may_iff.2 hmay), if_pos hpois]
      · rw [if_neg (may_iff.2 hmay), if_neg (ne_true_of_eq_false hpois)]
    · rw [hp]
      dsimp only
      refine ⟨fun hmay => ?_, fun hmay hpois => ?_, fun hmay hpois => ?_⟩
      · rw [if_pos (mayNot_iff.2 hmay)]
      · rw [if_neg (may_iff.2 hmay), if_pos hpois]
      rw [if_neg (may_iff.2 hmay), if_neg (ne_true_of_eq_false hpois)]
      refine ⟨fun hout => ?_, fun hmem hbad => ?_, fun hmem hlen hok hins => ?_⟩
      · rw [if_pos (bnot_of_false hout)]
      · rw [if_neg (not_bnot_of_true hmem), if_pos (by simpa [or_assoc] using hbad)]
      rw [if_neg (not_bnot_of_true hmem), hlen, hok, hins, if_neg (by decide)]
      refine ⟨fun hres => ?_, fun hres hue => ?_, fun hres hue => ?_⟩
      · rw [if_pos hres]
      · rw [if_neg (ne_true_of_eq_false hres), if_pos hue]
      rw [if_neg (ne_true_of_eq_false hres), if_neg (ne_true_of_eq_false hue)]
      refine ⟨fun hop => ?_, fun hop => ?_⟩
      · rw [if_neg hop]
      · rw [if_pos hop, inc_countMacs_rd]
  case timeout =>
    intro s src msgId gen mine
    have hexec : exec (.peatReasmTimeout src msgId gen) s = execPeatReasmTimeout src msgId gen s := rfl
    rw [hexec]
    refine ⟨fun hnone => ?_, fun q hq hfrozen => ?_⟩
    · rw [execPeatReasmTimeout, hnone]
    · rw [execPeatReasmTimeout, hq]
      exact if_neg (ne_true_of_eq_false hfrozen)

end Sys2Proof.PeatRequests
end

section
/-! PROOF. Delsia's windows, records, segments and descriptors, row by row (R639–R658, R681). -/
namespace Sys2Proof.WindowRows
open Sys2Proof Sys2Proof.Machine Sys2Proof.CommandGates

/-- A changed value of an RWL field of a locked page is refused (R64). -/
theorem rwl_refused {s : State} {p : Nat} {changed : Bool} (hchanged : changed = true) (hlock : s.pageLocked p = true) (f : State → State) :
    s.rwl p changed f = s.logErr p 0x0002 0 (locPage p) := if_pos (by simp [hchanged, hlock])

theorem rwl_taken {s : State} {p : Nat} {changed : Bool} (hfree : changed = false ∨ s.pageLocked p = false) (f : State → State) : s.rwl p changed f = f s :=
  if_neg (by rcases hfree with h | h <;> simp [h])

theorem exec_winUsWrite {s : State} (hheld : s.pwr.held = false) (hbusy : s.pageBusy delPg = false) (v : Nat) :
    exec (.winUsWrite v) s = .next (s.rwl delPg (v != (s.rd Reg.DEL_WINDOW).toNat) fun s => s.windowWrite v) :=
  onPage_takes hheld hbusy _

section
variable {s : State} {h : CmdHdr} {i set grp ops fl raw ex : Nat}

/-- The descriptor that DEL_GROUP_SET spells. -/
def descOfOperands (set grp ops fl raw ex : Nat) : DDesc := ⟨set, grp, ops, fl % 4, bit 2 fl, bit 7 fl, raw, ex⟩

/-- The other enabled descriptors. -/
def otherDescs (a : State) (i : Nat) : List (Nat × DDesc) := a.del.descs.filter fun x => x.1 != i && x.2.enable

/-- Does another descriptor in use have the same group and set? -/
def dupKey (a : State) (i set grp : Nat) : Bool := (otherDescs a i).any fun x => x.2.rgroup == grp && x.2.set == set

variable (htakes : s.takes h 0x1001 true = true)
include htakes

theorem exec_delGroupSet_bad (hbad : 4096 ≤ i ∨ 2 ^ 20 ≤ grp ∨ (20 < raw ∧ raw ≠ 0xFF) ∨ bits 6 3 fl ≠ 0 ∨ h.target ≠ 0) :
    exec (.delGroupSet h i set grp ops fl raw ex) s = .next ((s.start h 0x1001).complete h 0x10 ⟨0x0100, 0, 0, []⟩) :=
  cmd_completes htakes (if_pos hbad)

section
variable (hgood : ¬(4096 ≤ i ∨ 2 ^ 20 ≤ grp ∨ (20 < raw ∧ raw ≠ 0xFF) ∨ bits 6 3 fl ≠ 0 ∨ h.target ≠ 0))
include hgood

theorem exec_delGroupSet_dup (hen : (descOfOperands set grp ops fl raw ex).enable = true) (hdup : dupKey (s.start h 0x1001) i set grp = true) :
    exec (.delGroupSet h i set grp ops fl raw ex) s = .next ((s.start h 0x1001).complete h 0x10 ⟨0x0101, 0, 0, []⟩) :=
  cmd_completes htakes ((if_neg hgood).trans (if_pos ⟨hen, hdup⟩))

variable (hkey : ¬((descOfOperands set grp ops fl raw ex).enable = true ∧ dupKey (s.start h 0x1001) i set grp = true))
include hkey

theorem exec_delGroupSet_limit (hlim : (descOfOperands set grp ops fl raw ex).enable = true ∧ (descOfOperands set grp ops fl raw ex).sketches = true ∧
    256 ≤ ((otherDescs (s.start h 0x1001) i).filter (·.2.sketches)).length) :
    exec (.delGroupSet h i set grp ops fl raw ex) s = .next ((s.start h 0x1001).complete h 0x10 ⟨0x0102, 0, 0, []⟩) :=
  cmd_completes htakes ((if_neg hgood).trans ((if_neg hkey).trans (if_pos hlim)))

theorem exec_delGroupSet_stores (hroom : ¬((descOfOperands set grp ops fl raw ex).enable = true ∧ (descOfOperands set grp ops fl raw ex).sketches = true ∧
    256 ≤ ((otherDescs (s.start h 0x1001) i).filter (·.2.sketches)).length)) :
    exec (.delGroupSet h i set grp ops fl raw ex) s =
      ((s.start h 0x1001).setDel fun q => { q with descs := Tbl.put q.descs i (descOfOperands set grp ops fl raw ex) }).okFor h 0x10 :=
  cmd_completes htakes ((if_neg hgood).trans ((if_neg hkey).trans (if_neg hroom)))
end
end

/-- Settles O28, row by row: the running or oldest window, the page's lock, what a packet and its records hold, the open segment, the operands. -/
theorem windowsComplete : Obligations.WindowsComplete := by
  unfold Obligations.WindowsComplete
  refine ⟨?open_, ?close, ?write, ?reconfig, ?telem, ?segment, ?desc, fun s hheld hbusy => onPage_takes hheld hbusy _⟩
  case open_ =>
    intro s fec
    have hexec : exec (.windowOpen fec) s = execWindowOpen fec s := rfl
    rw [hexec, execWindowOpen]
    exact ⟨fun hnone => by rw [hnone], fun w hw => by rw [hw]⟩
  case close =>
    intro s
    have hexec : exec .windowClose s = execWindowClose s := rfl
    rw [hexec, execWindowClose]
    refine ⟨fun hnone => by rw [hnone], fun w ws hws => ?_⟩
    rw [hws]
    exact ⟨fun hno => if_pos (by rcases hno with h | h <;> simp [h]), fun hended hfrozen => if_neg (by simp [hended, hfrozen])⟩
  case write =>
    intro s v hheld hbusy u
    rw [exec_winUsWrite hheld hbusy]
    refine ⟨fun hnew hlock => ?_, fun hfree => ?_⟩
    · rw [rwl_refused (bne_iff_ne.2 hnew) hlock]
    · rw [rwl_taken (hfree.imp_left fun heq => bne_eq_false_iff_eq.2 heq)]
      exact ⟨fun hok => congrArg Host.Outcome.next (if_neg (not_bnot_of_true hok)), fun hbad => congrArg Host.Outcome.next (if_pos (bnot_of_false hbad))⟩
  case reconfig =>
    intro s fec
    have hexec : exec (.windowReconfig fec) s = execWindowReconfig fec s := rfl
    rw [hexec, execWindowReconfig]
    refine ⟨fun hnone => by rw [hnone], fun us sec hpend => ?_⟩
    rw [hpend]
    dsimp only
    refine ⟨fun hnone => ?_, fun hsome => ?_⟩
    · rw [if_neg (not_bnot_of_true (List.isEmpty_iff.2 hnone))]
    · rw [if_pos (bnot_of_false (List.isEmpty_eq_false_iff.2 hsome))]
  case telem =>
    intro s lp p htyp
    have hexec : exec (.telem lp p) s = execTelem lp p s := rfl
    rw [hexec, execTelem, if_neg (not_not.2 htyp)]
    dsimp only
    refine ⟨fun r cs hr => by rw [hr], fun hnone => ?_⟩
    rw [hnone]
    dsimp only
    refine ⟨fun hpois => if_pos hpois, fun hpois hlen => ?_, fun hpois hlen hmul => ?_⟩ <;> rw [if_neg (ne_true_of_eq_false hpois)]
    · rw [if_pos hlen]
    · rw [if_neg (not_or.2 ⟨hlen, not_not.2 hmul⟩)]
      exact ⟨fun hres => if_pos hres, fun hres => if_neg (ne_true_of_eq_false hres)⟩
  case segment =>
    intro s k n
    have htimeout : exec (.segmentTimeout k) s = execSegmentTimeout k s := rfl
    have hcomplete : exec (.segmentComplete k n) s = execSegmentComplete k n s := rfl
    rw [htimeout, hcomplete, execSegmentTimeout, execSegmentComplete]
    refine ⟨fun hnone => by rw [hnone]; exact ⟨rfl, rfl⟩, fun g hg => ?_⟩
    rw [hg]
    exact ⟨rfl, fun hfull => congrArg Host.Outcome.next (if_pos hfull), fun hfits => congrArg Host.Outcome.next (if_neg (Nat.not_lt.2 hfits))⟩
  case desc =>
    intro s h i set grp ops fl raw ex htakes a d others bad
    refine ⟨fun hbad => exec_delGroupSet_bad htakes hbad, fun hi hgrp hraw hrsv htarget => ?_⟩
    have hgood : ¬(4096 ≤ i ∨ 2 ^ 20 ≤ grp ∨ (20 < raw ∧ raw ≠ 0xFF) ∨ bits 6 3 fl ≠ 0 ∨ h.target ≠ 0) := by omega
    refine ⟨fun hen hdup => exec_delGroupSet_dup htakes hgood hen hdup, fun hen hkey hsk hlim => ?_, fun hkey hroom => ?_⟩
    · exact exec_delGroupSet_limit htakes hgood (fun hdup => ne_true_of_eq_false hkey hdup.2) ⟨hen, hsk, hlim⟩
    · exact exec_delGroupSet_stores htakes hgood (fun hdup => ne_true_of_eq_false (hkey hdup.1) hdup.2)
        fun hlim => Nat.not_le.2 (hroom hlim.1 hlim.2.1) hlim.2.2

end Sys2Proof.WindowRows
end

section
/-! PROOF. Fences of peers (R709, R710): what the gate of the FENCE packets refuses, how a message is applied once, and the resends. -/
namespace Sys2Proof.PeerRows
open Sys2Proof Sys2Proof.Machine Sys2Proof.CommandGates

section
variable {s : State} {lp : Nat} {p : Pkt} {kind : Nat} (htyp : p.typ = 0x32) (hkind : beAt 0 1 p.payload = kind) (f : Nat → Nat → State → State)
include htyp hkind

theorem fenceRx_poison (hpois : pflag p fPoison = true) : s.fenceRx lp p kind f = s.takeFn lp p := by
  rw [State.fenceRx, if_neg (by simp [htyp, hkind])]
  exact if_pos hpois

variable (hpois : pflag p fPoison = false)
include hpois

theorem fenceRx_stranger
    (hpeer : (pflag p fSrcSpine && feidPlane (beAt 16 4 p.payload) == (s.takeFn lp p).plane && spineIdx (beAt 16 4 p.payload) != (s.takeFn lp p).spine) = false) :
    s.fenceRx lp p kind f = (s.takeFn lp p).inc Cnt.BARO_BAD_FENCE := by
  rw [State.fenceRx, if_neg (by simp [htyp, hkind])]
  dsimp only
  rw [if_neg (ne_true_of_eq_false hpois), if_pos]
  rw [Bool.and_eq_false_iff, Bool.and_eq_false_iff] at hpeer
  rcases hpeer with (hflag | hplane) | hself
  · simp [hflag]
  · simp [bne, hplane]
  · simp [bne_eq_false_iff_eq.1 hself]

variable (hpeer : (pflag p fSrcSpine && feidPlane (beAt 16 4 p.payload) == (s.takeFn lp p).plane && spineIdx (beAt 16 4 p.payload) != (s.takeFn lp p).spine) = true)
include hpeer

omit htyp hkind hpois in
theorem not_stranger :
    ¬(!pflag p fSrcSpine || feidPlane (beAt 16 4 p.payload) != (s.takeFn lp p).plane || spineIdx (beAt 16 4 p.payload) == (s.takeFn lp p).spine) = true := by
  rw [Bool.and_eq_true, Bool.and_eq_true] at hpeer
  obtain ⟨⟨hflag, hplane⟩, hself⟩ := hpeer
  simp [hflag, bne, hplane, beq_eq_false_iff_ne.2 (bne_iff_ne.1 hself)]

theorem fenceRx_malformed (hwhole : (p.payload.length == 64 && beAt 3 1 p.payload == 0 && allZero (p.payload.drop 34)) = false) :
    s.fenceRx lp p kind f = (s.takeFn lp p).inc (reasonCnt lp rReserved) := by
  rw [State.fenceRx, if_neg (by simp [htyp, hkind])]
  dsimp only
  rw [if_neg (ne_true_of_eq_false hpois), if_neg (not_stranger hpeer), if_pos]
  rw [Bool.and_eq_false_iff, Bool.and_eq_false_iff, beq_eq_false_iff_ne, beq_eq_false_iff_ne] at hwhole
  rcases hwhole with (hlen | hres) | htail
  · exact .inl hlen
  · exact .inr (.inl hres)
  · exact .inr (.inr (bnot_of_false htail))

theorem fenceRx_takes (hwhole : (p.payload.length == 64 && beAt 3 1 p.payload == 0 && allZero (p.payload.drop 34)) = true) :
    s.fenceRx lp p kind f = f (beAt 16 4 p.payload) (beAt 12 4 p.payload) (s.takeFn lp p) := by
  rw [State.fenceRx, if_neg (by simp [htyp, hkind])]
  dsimp only
  rw [if_neg (ne_true_of_eq_false hpois), if_neg (not_stranger hpeer), if_neg]
  rw [Bool.and_eq_true, Bool.and_eq_true, beq_iff_eq, beq_iff_eq] at hwhole
  obtain ⟨⟨hlen, hres⟩, htail⟩ := hwhole
  simp [hlen, hres, htail]
end

section
variable {s : State} {lp : Nat} {p : Pkt} {kind : Nat} (act : Nat → Nat → State → State) (htyp : p.typ = 0x32) (hkind : beAt 0 1 p.payload = kind)
  (hpois : pflag p fPoison = false)
  (hpeer : (pflag p fSrcSpine && feidPlane (beAt 16 4 p.payload) == (s.takeFn lp p).plane && spineIdx (beAt 16 4 p.payload) != (s.takeFn lp p).spine) = true)
  (hwhole : (p.payload.length == 64 && beAt 3 1 p.payload == 0 && allZero (p.payload.drop 34)) = true)
include htyp hkind hpois hpeer hwhole

theorem peerRx_applied (hold : beAt 12 4 p.payload < Tbl.getD (s.takeFn lp p).baro.applied 0 (beAt 16 4 p.payload / 4096)) :
    s.peerRx lp p kind act = (s.takeFn lp p).fenceAck lp p (beAt 12 4 p.payload) := by
  rw [State.peerRx, fenceRx_takes htyp hkind _ hpois hpeer hwhole]
  dsimp only
  rw [if_neg (Nat.not_le.2 hold)]

variable (hnew : Tbl.getD (s.takeFn lp p).baro.applied 0 (beAt 16 4 p.payload / 4096) ≤ beAt 12 4 p.payload)
include hnew

theorem peerRx_new_none (hobj : (((s.takeFn lp p).setBaro fun b =>
      { b with applied := Tbl.put b.applied (beAt 16 4 p.payload / 4096) (beAt 12 4 p.payload + 1) }).packetObj p.payload) = none) :
    s.peerRx lp p kind act = ((s.takeFn lp p).setBaro fun b =>
      { b with applied := Tbl.put b.applied (beAt 16 4 p.payload / 4096) (beAt 12 4 p.payload + 1) }).fenceAck lp p (beAt 12 4 p.payload) := by
  rw [State.peerRx, fenceRx_takes htyp hkind _ hpois hpeer hwhole]
  dsimp only
  rw [if_pos hnew, hobj]

theorem peerRx_new_some {o : Nat} (hobj : (((s.takeFn lp p).setBaro fun b =>
      { b with applied := Tbl.put b.applied (beAt 16 4 p.payload / 4096) (beAt 12 4 p.payload + 1) }).packetObj p.payload) = some o) :
    s.peerRx lp p kind act = (act o (beAt 16 4 p.payload) ((s.takeFn lp p).setBaro fun b =>
      { b with applied := Tbl.put b.applied (beAt 16 4 p.payload / 4096) (beAt 12 4 p.payload + 1) })).fenceAck lp p (beAt 12 4 p.payload) := by
  rw [State.peerRx, fenceRx_takes htyp hkind _ hpois hpeer hwhole]
  dsimp only
  rw [if_pos hnew, hobj]
end

/-- What PEER_FENCE_RX does to the object that a new message names. -/
def fenceAct (o origin : Nat) (s : State) : State :=
  if s.isFenced o then s
  else match s.freeFence with
    | some k => (s.inc Cnt.BARO_PEER_FENCES).addFence k o 4 (some origin) 0
    | none => s.listFull

/-- What PEER_UNFENCE_RX does to the object that a new message names. -/
def unfenceAct (o origin : Nat) (s : State) : State :=
  match s.fenceOf o with
  | some (k, e) => if bit 61 e && Tbl.find s.baro.origin k == some origin then s.removeFence k o 4 0 else s
  | none => s

theorem exec_peerFenceRx (lp : Nat) (p : Pkt) (s : State) : exec (.peerFenceRx lp p) s = .next (s.peerRx lp p 3 fenceAct) := rfl
theorem exec_peerUnfenceRx (lp : Nat) (p : Pkt) (s : State) : exec (.peerUnfenceRx lp p) s = .next (s.peerRx lp p 4 unfenceAct) := rfl
theorem exec_fenceAckRx (lp : Nat) (p : Pkt) (s : State) : exec (.fenceAckRx lp p) s = .next (s.fenceRx lp p 5 fun origin seq s =>
    s.setBaro fun b => { b with peers := b.peers.filter fun m => !(m.dst == spineIdx origin && m.seq == seq) }) := rfl

/-- Each of the three rows is the gate of its KIND. -/
theorem exec_fenceRow {lp : Nat} {p : Pkt} {c : Instr} {kind : Nat}
    (hrow : (c, kind) ∈ ([(.peerFenceRx lp p, 3), (.peerUnfenceRx lp p, 4), (.fenceAckRx lp p, 5)] : List (Instr × Nat))) (s : State) :
    ∃ f, exec c s = .next (s.fenceRx lp p kind f) := by
  simp only [List.mem_cons, Prod.mk.injEq, List.not_mem_nil, or_false] at hrow
  rcases hrow with ⟨rfl, rfl⟩ | ⟨rfl, rfl⟩ | ⟨rfl, rfl⟩ <;> exact ⟨_, rfl⟩

/-- The two rows of PEER messages apply a message once. -/
theorem exec_peerRow {lp : Nat} {p : Pkt} {c : Instr} {kind : Nat}
    (hrow : (c, kind) ∈ ([(.peerFenceRx lp p, 3), (.peerUnfenceRx lp p, 4), (.fenceAckRx lp p, 5)] : List (Instr × Nat))) (hkind : kind ≠ 5) (s : State) :
    exec c s = .next (s.peerRx lp p kind (if kind = 3 then fenceAct else unfenceAct)) := by
  simp only [List.mem_cons, Prod.mk.injEq, List.not_mem_nil, or_false] at hrow
  rcases hrow with ⟨rfl, rfl⟩ | ⟨rfl, rfl⟩ | ⟨rfl, rfl⟩
  · exact exec_peerFenceRx lp p s
  · exact exec_peerUnfenceRx lp p s
  · exact absurd rfl hkind

theorem exec_ackRow {lp : Nat} {p : Pkt} {c : Instr}
    (hrow : (c, 5) ∈ ([(.peerFenceRx lp p, 3), (.peerUnfenceRx lp p, 4), (.fenceAckRx lp p, 5)] : List (Instr × Nat))) : c = .fenceAckRx lp p := by
  simpa using hrow

section
variable {o origin : Nat} {s : State}

theorem fenceAct_fenced (hfenced : s.isFenced o = true) : fenceAct o origin s = s := if_pos hfenced

theorem fenceAct_full (hfree : s.isFenced o = false) (hfull : s.freeFence = none) : fenceAct o origin s = s.listFull := by
  rw [fenceAct, if_neg (ne_true_of_eq_false hfree), hfull]

theorem fenceAct_adds {k : Nat} (hfree : s.isFenced o = false) (hk : s.freeFence = some k) :
    fenceAct o origin s = (s.inc Cnt.BARO_PEER_FENCES).addFence k o 4 (some origin) 0 := by
  rw [fenceAct, if_neg (ne_true_of_eq_false hfree), hk]

theorem unfenceAct_unlisted (hnone : s.fenceOf o = none) : unfenceAct o origin s = s := by
  rw [unfenceAct, hnone]

theorem unfenceAct_removes {k e : Nat} (hentry : s.fenceOf o = some (k, e)) (hpeer : bit 61 e = true) (horigin : Tbl.find s.baro.origin k = some origin) :
    unfenceAct o origin s = s.removeFence k o 4 0 := by
  rw [unfenceAct, hentry]
  exact if_pos (by rw [hpeer, horigin, beq_self_eq_true, Bool.and_true])

theorem unfenceAct_keeps {k e : Nat} (hentry : s.fenceOf o = some (k, e)) (hother : bit 61 e = false ∨ Tbl.find s.baro.origin k ≠ some origin) :
    unfenceAct o origin s = s := by
  rw [unfenceAct, hentry]
  refine if_neg fun hboth => ?_
  rw [Bool.and_eq_true, beq_iff_eq] at hboth
  exact hother.elim (fun hbit => Bool.false_ne_true (hbit.symm.trans hboth.1)) fun hne => hne hboth.2
end

/-- Settles O32: the gate of the three rows, then a PEER message by its SEQ and the object it names, and the resends of one not confirmed. -/
theorem peersComplete : Obligations.PeersComplete := by
  unfold Obligations.PeersComplete
  refine ⟨fun s lp p c kind htyp hkind hrow => ?_, fun s dst seq => ?_⟩
  · obtain ⟨f, hexec⟩ := exec_fenceRow hrow s
    refine ⟨fun hpois => ?_, fun hpois hpeer => ?_, fun hpois hpeer hwhole => ?_, fun hpois hpeer hwhole hfive => ?_,
      fun hpois hpeer hwhole hne hold => ?_, fun hpois hpeer hwhole hnew => ⟨fun hne hobj => ?_, fun o hthree hobj => ?_, fun o hfour hobj => ?_⟩⟩
    · rw [hexec, fenceRx_poison htyp hkind f hpois]
    · rw [hexec, fenceRx_stranger htyp hkind f hpois hpeer]
    · rw [hexec, fenceRx_malformed htyp hkind f hpois hpeer hwhole]
    · subst hfive
      rw [exec_ackRow hrow, exec_fenceAckRx, fenceRx_takes htyp hkind _ hpois hpeer hwhole]
    · rw [exec_peerRow hrow hne, peerRx_applied _ htyp hkind hpois hpeer hwhole hold]
    · rw [exec_peerRow hrow hne, peerRx_new_none _ htyp hkind hpois hpeer hwhole hnew hobj]
    · rw [exec_peerRow hrow (by omega), if_pos hthree, peerRx_new_some _ htyp hkind hpois hpeer hwhole hnew hobj]
      refine ⟨fun hfenced => ?_, fun hfree hfull => ?_, fun k hfree hk => ?_⟩
      · rw [fenceAct_fenced hfenced]
      · rw [fenceAct_full hfree hfull]
      · rw [fenceAct_adds hfree hk]
    · rw [exec_peerRow hrow (by omega), if_neg (by omega), peerRx_new_some _ htyp hkind hpois hpeer hwhole hnew hobj]
      refine ⟨fun hnone => ?_, fun k e hentry => ⟨fun hbit horigin => ?_, fun hother => ?_⟩⟩
      · rw [unfenceAct_unlisted hnone]
      · rw [unfenceAct_removes hentry hbit horigin]
      · rw [unfenceAct_keeps hentry hother]
  · have hexec : exec (.peerFenceResend dst seq) s = execPeerFenceResend dst seq s := rfl
    rw [hexec, execPeerFenceResend]
    refine ⟨fun hnone => by rw [hnone], fun m rest hsome => ?_⟩
    rw [hsome]
    exact ⟨fun hfew => if_pos hfew, fun hmany => if_neg (Nat.not_lt.2 hmany)⟩

end Sys2Proof.PeerRows
end

section
/-! PROOF. What the last rows share: a command that fails with a status the spec does not state. -/
namespace Sys2Proof.FreeFailures
open Sys2Proof Sys2Proof.Machine

/-- A command whose failure the spec gives no status for draws one, and changes nothing else. -/
theorem failOpen_eq (s : State) : failOpen s = (s.draw.2, some ⟨s.draw.1 % 65536, 0, 0, []⟩) := rfl

end Sys2Proof.FreeFailures
end

section
/-! PROOF. Counter slots, tag records and the rounds of the Mire map, row by row (R746–R766). -/
namespace Sys2Proof.MireRows
open Sys2Proof Sys2Proof.Machine Sys2Proof.CommandGates Sys2Proof.FreeFailures

/-- The word that PMC_CNT_CLEAR writes carries the seed in its upper half (R766). -/
theorem bits_seed (v : Nat) : bits 31 16 (65536 * (v % 65536) + 1) = v % 65536 := by
  rw [bits, Nat.shiftRight_eq_div_pow]
  omega

/-- ... and CNT_CLEAR in bit 0. -/
theorem bit_cntClear (v : Nat) : bit 0 (65536 * (v % 65536) + 1) = true := by
  rw [bit, Nat.testBit_zero, decide_eq_true_eq]
  omega

/-- The edges that a report lists (R759). -/
def reportEdges (b : List Byte) : List (Nat × Nat × Nat) :=
  (List.range (beAt 2 2 b)).map fun i => (beAt (32 + 24 * i) 8 b, beAt (40 + 24 * i) 8 b, beAt (48 + 24 * i) 8 b)

/-- Is a report as R759 lays it out? -/
def wholeReport (b : List Byte) : Bool :=
  beAt 1 1 b == 1 && decide (beAt 2 2 b ≤ 169) && b.length == 32 + 24 * beAt 2 2 b && decide (beAt 14 1 b ≤ 1) && allZero (slice 15 17 b) &&
    (reportEdges b).all fun e => nodeOk e.1 && nodeOk e.2.1

/-- What MIRE_EDGES_RX refuses is a report that is not whole. -/
theorem refused_iff (b : List Byte) :
    ((decide (beAt 1 1 b ≠ 1) || decide (169 < beAt 2 2 b) || b.length != 32 + 24 * beAt 2 2 b || decide (1 < beAt 14 1 b) || !allZero (slice 15 17 b) ||
      !((reportEdges b).all fun e => nodeOk e.1 && nodeOk e.2.1)) = true) ↔ wholeReport b = false := by
  rw [wholeReport]
  generalize ((reportEdges b).all fun e => nodeOk e.1 && nodeOk e.2.1) = edges
  simp only [Bool.or_eq_true, Bool.and_eq_false_iff, decide_eq_true_eq, decide_eq_false_iff_not, bne_iff_ne, beq_eq_false_iff_ne, Bool.not_eq_true',
    Nat.not_le, ne_eq]

/-- Settles O34, row by row: what the slot allows, the seed, the oldest tags, the period of the Mire map, a report, a round read, a class blocked. -/
theorem countersAndMireComplete : Obligations.CountersAndMireComplete := by
  unfold Obligations.CountersAndMireComplete
  refine ⟨?slot, ?seed, ?clear, ?tags, ?period, ?round, ?edges, ?read, ?blocked⟩
  case slot =>
    intro s k v hheld hbusy
    have hexec : exec (.pmcSlotCfgWrite k v) s = .next (s.slotCfgWrite k v) := onPage_takes hheld hbusy _
    rw [hexec, State.slotCfgWrite]
    exact ⟨fun hok => congrArg Host.Outcome.next (if_pos hok), fun hno => congrArg Host.Outcome.next (if_neg (ne_true_of_eq_false hno))⟩
  case seed =>
    intro s v hheld hbusy u
    exact onPage_takes hheld hbusy _
  case clear =>
    intro s v hheld hbusy
    have hexec : exec (.pmcCntClear v) s = .next (s.pmcCtrlWrite (65536 * (v % 65536) + 1)) := onPage_takes hheld hbusy _
    rw [hexec, State.pmcCtrlWrite, bits_seed]
    exact congrArg Host.Outcome.next (if_pos (bit_cntClear v))
  case tags =>
    intro s h off n htakes a
    exact ⟨fun haligned => cmd_completes htakes (if_neg (not_not.2 haligned)), fun hodd => cmd_completes htakes ((if_pos hodd).trans (failOpen_eq a))⟩
  case period =>
    intro s k
    have hexec : exec .mirePeriod s = execMirePeriod s := rfl
    rw [hexec, execMirePeriod]
    exact ⟨fun hon hlocked => if_neg (by simp [hon, hlocked]), fun hoff => if_pos (by rcases hoff with h | h <;> simp [h])⟩
  case round =>
    intro s h htakes a
    exact cmd_completes htakes rfl
  case edges =>
    intro s lp p htyp hservice u n es whole
    have hexec : exec (.mireEdgesRx lp p) s = execMireEdgesRx lp p s := rfl
    rw [hexec, execMireEdgesRx]
    dsimp only
    rw [if_neg (by simp [htyp, hservice])]
    refine ⟨fun hpois => if_pos hpois, fun hpois hbad => ?_, fun hpois hwhole => ?_⟩ <;> rw [if_neg (ne_true_of_eq_false hpois)]
    · exact if_pos ((refused_iff p.payload).2 hbad)
    · exact if_neg fun hbad => Bool.false_ne_true (((refused_iff p.payload).1 hbad).symm.trans hwhole)
  case read =>
    intro s h off max htakes a open_
    refine ⟨fun hother => cmd_completes htakes (if_pos (bnot_of_false hother)), fun hmine hnone => ?_, fun r hmine hr => ?_⟩
    · refine cmd_completes htakes ((if_neg (not_bnot_of_true hmine)).trans ?_)
      rw [hnone]
      exact failOpen_eq a
    · intro bs
      refine ⟨fun hodd => ?_, fun haligned hlong => ?_, fun haligned hfits => ?_⟩
      all_goals
        refine cmd_completes htakes ((if_neg (not_bnot_of_true hmine)).trans ?_)
        rw [hr]
        dsimp only
      · exact (if_pos hodd).trans (failOpen_eq a)
      · exact (if_neg (not_not.2 haligned)).trans (if_pos hlong)
      · exact (if_neg (not_not.2 haligned)).trans (if_neg (Nat.not_lt.2 hfits))
  case blocked =>
    intro s lp c u
    have hexec : exec (.creditBlockTimer lp c) s = execCreditBlockTimer lp c s := rfl
    rw [hexec, execCreditBlockTimer]
    exact ⟨fun hnone => by rw [hnone], fun t since b hsome => by rw [hsome]⟩

end Sys2Proof.MireRows
end

section
/-! PROOF. Firmware chains, row by row (R799–R802). -/
namespace Sys2Proof.ChainRows
open Sys2Proof Sys2Proof.Machine Sys2Proof.CommandGates Sys2Proof.FreeFailures

/-! ### FW_CHAIN (R799, R802) -/

section
variable {s : State} {h : CmdHdr} {off : Nat} {ue : List Nat} (htakes : s.takes h 0x1505 true = true)
include htakes

/-- The descriptor that FW_CHAIN reads. -/
def chainDesc (a : State) (off : Nat) : List Byte := a.staging off (64 + 4 * leAt 6 2 (a.staging off 64))

theorem exec_fwChain_begins {e : Nat} {es : List Nat} {img : List Byte} (hes : chainEntries (chainDesc (s.start h 0x1505) off) = some (e :: es))
    (himg : Tbl.find (s.start h 0x1505).cfg.slots (s.start h 0x1505).otherSlot = some img)
    (hknown : (Tbl.find (s.start h 0x1505).cfg.images (s.start h 0x1505).otherSlot).isSome = true) (hfirst : e = (s.start h 0x1505).spineAddr 0) :
    let a := s.start h 0x1505
    let u := a.draw.2
    let head : ChainHead := ⟨h, a.draw.1 % 2 ^ 32, e :: es, [(e, 0)], [], u.time.ticks⟩
    let v := u.setCfg fun c => { c with chainHead := c.chainHead ++ [head] }
    exec (.fwChain h off ue) s = .next ((v.chainTo (v.spineAddr 0) head.xfer (chainDesc a off ++ img) ue es).chainSettle head) := by
  intro a u head v
  refine cmd_goesOn htakes ?_
  dsimp only
  rw [← chainDesc, hes, himg, hknown]
  exact if_neg (not_not.2 hfirst)

theorem exec_fwChain_fails (hno : ∀ e es, chainEntries (chainDesc (s.start h 0x1505) off) = some (e :: es) →
      Tbl.find (s.start h 0x1505).cfg.slots (s.start h 0x1505).otherSlot = none ∨
      (Tbl.find (s.start h 0x1505).cfg.images (s.start h 0x1505).otherSlot).isSome = false ∨ e ≠ (s.start h 0x1505).spineAddr 0) :
    exec (.fwChain h off ue) s = .next ((s.start h 0x1505).draw.2.complete h 0x15 ⟨(s.start h 0x1505).draw.1 % 65536, 0, 0, []⟩) := by
  refine cmd_completes htakes (Eq.trans ?_ (failOpen_eq _))
  dsimp only
  rw [← chainDesc]
  split
  next e es img hes himg hknown =>
    refine if_pos ?_
    rcases hno e es hes with hslot | hunknown | hother
    · exact absurd (himg.symm.trans hslot) (Option.some_ne_none img)
    · exact nomatch hknown.symm.trans hunknown
    · exact hother
  next => rfl
end

/-! ### The gate of the UPDATE packets (R800) -/

/-- Each of the four rows is the gate of its KIND. -/
theorem exec_updRow {lp : Nat} {p : Pkt} {fl : FlashRes} {c : Instr} {kind : Nat} (hrow : (c, kind) ∈
    ([(.chainDataRx lp p fl, 1), (.chainAckRx lp p, 2), (.chainDoneRx lp p, 3), (.chainAbortRx lp p, 4)] : List (Instr × Nat))) (s : State) :
    ∃ f, exec c s = .next (s.updRx lp p kind f) := by
  simp only [List.mem_cons, Prod.mk.injEq, List.not_mem_nil, or_false] at hrow
  rcases hrow with ⟨rfl, rfl⟩ | ⟨rfl, rfl⟩ | ⟨rfl, rfl⟩ | ⟨rfl, rfl⟩ <;> exact ⟨_, rfl⟩

section
variable {s : State} {lp : Nat} {p : Pkt} {kind : Nat} (htyp : p.typ = 0x33) (hservice : beAt 0 1 p.payload = 0x20) (hkind : beAt 1 1 p.payload = kind)
  (f : State → State)
include htyp hservice hkind

theorem updRx_poison (hpois : pflag p fPoison = true) : s.updRx lp p kind f = s.takeFn lp p := by
  rw [State.updRx, if_neg (by simp [htyp, hservice, hkind])]
  exact if_pos hpois

theorem updRx_malformed (hpois : pflag p fPoison = false)
    (hbad : (decide (32 ≤ p.payload.length) && allZero (slice 20 12 p.payload) && (kind == 1 || p.payload.length == 32)) = false) :
    s.updRx lp p kind f = (s.takeFn lp p).inc (reasonCnt lp rReserved) := by
  rw [State.updRx, if_neg (by simp [htyp, hservice, hkind])]
  dsimp only
  rw [if_neg (ne_true_of_eq_false hpois), if_pos]
  rw [Bool.and_eq_false_iff, Bool.and_eq_false_iff, decide_eq_false_iff_not, Bool.or_eq_false_iff, beq_eq_false_iff_ne, beq_eq_false_iff_ne] at hbad
  rcases hbad with (hshort | hres) | hlen
  · exact .inl (Nat.not_le.1 hshort)
  · exact .inr (.inl (bnot_of_false hres))
  · exact .inr (.inr hlen)
end

/-- Settles O37, row by row: the descriptor and the staged image, the gate of the packets, a piece, an acknowledgement, a DONE, an ABORT, the timers. -/
theorem chainsComplete : Obligations.ChainsComplete := by
  unfold Obligations.ChainsComplete
  refine ⟨?chain, ?gate, ?data, ?ack, ?done, ?abort_, ?resend, ?timeout⟩
  case chain =>
    intro s h off ue htakes a d
    exact ⟨fun e es img hes himg hknown hfirst => exec_fwChain_begins htakes hes himg hknown hfirst, exec_fwChain_fails htakes⟩
  case gate =>
    intro s lp p fl c kind htyp hservice hkind hrow whole
    obtain ⟨f, hexec⟩ := exec_updRow hrow s
    rw [hexec]
    exact ⟨fun hpois => congrArg Host.Outcome.next (updRx_poison htyp hservice hkind f hpois),
      fun hpois hbad => congrArg Host.Outcome.next (updRx_malformed htyp hservice hkind f hpois hbad)⟩
  case data =>
    intro s lp p fl htakes
    have hexec : exec (.chainDataRx lp p fl) s = execChainDataRx lp p fl s := rfl
    rw [hexec, execChainDataRx, State.updRx_takes _ htakes]
    dsimp only
    generalize ((s.takeFn lp p).cfg.chainRx.find? _).getD _ = old
    generalize (if old.checked = true then old else _) = r
    refine ⟨fun hno => ?_, fun hwhole hnew => ?_⟩
    · rw [if_pos]
      rcases hno with hpart | hchecked
      · simp [Nat.not_le.2 hpart]
      · simp [hchecked]
    · rw [if_neg (by simp [hwhole, hnew])]
      refine ⟨fun hnone => ?_, fun es hes => ⟨fun hbad => ?_, fun hgood => ?_⟩⟩
      · rw [hnone]; rfl
      · rw [hes]; dsimp only; rw [if_neg hbad]; rfl
      · rw [hes]; dsimp only; rw [if_pos hgood, hgood]
  case ack =>
    intro s lp p htakes
    have hexec : exec (.chainAckRx lp p) s = execChainAckRx lp p s := rfl
    rw [hexec, execChainAckRx, State.updRx_takes _ htakes]
    dsimp only
    refine ⟨fun hnone => by rw [hnone], fun t hsome => ?_⟩
    rw [hsome]
    refine ⟨fun hno => congrArg Host.Outcome.next (if_pos hno), fun hnext hnew => ?_⟩
    dsimp only
    rw [if_neg (not_or.2 ⟨not_not.2 hnext, Nat.not_le.2 hnew⟩)]
    exact ⟨fun hall => congrArg Host.Outcome.next (if_pos hall), fun hpart => congrArg Host.Outcome.next (if_neg (Nat.not_le.2 hpart))⟩
  case done =>
    intro s lp p htakes
    have hexec : exec (.chainDoneRx lp p) s = execChainDoneRx lp p s := rfl
    rw [hexec, execChainDoneRx, State.updRx_takes _ htakes]
    dsimp only
    refine ⟨fun hnone => by rw [hnone], fun x hsome => ?_⟩
    rw [hsome]
    exact ⟨fun hother => congrArg Host.Outcome.next (if_pos (bnot_of_false hother)),
      fun hmine => congrArg Host.Outcome.next (if_neg (not_bnot_of_true hmine))⟩
  case abort_ =>
    intro s lp p htakes
    have hexec : exec (.chainAbortRx lp p) s = execChainAbortRx lp p s := rfl
    rw [hexec, execChainAbortRx, State.updRx_takes _ htakes]
    dsimp only
    refine ⟨fun hnone => by rw [hnone], fun y hsome => ?_⟩
    rw [hsome]
    dsimp only
    rw [failOpen_eq]
  case resend =>
    intro s origin xfer
    have hexec : exec (.chainResend origin xfer) s = execChainResend origin xfer s := rfl
    rw [hexec, execChainResend]
    refine ⟨fun hnone => by rw [hnone], fun t hsome => ?_⟩
    rw [hsome]
    dsimp only
    refine ⟨fun hfew => if_pos hfew, fun hmany => ?_⟩
    rw [if_neg (Nat.not_lt.2 hmany)]
    exact ⟨fun hnone => by rw [hnone], fun x hx => by rw [hx]⟩
  case timeout =>
    intro s xfer
    have hexec : exec (.chainTimeout xfer) s = execChainTimeout xfer s := rfl
    rw [hexec, execChainTimeout]
    exact ⟨fun hnone => by rw [hnone], fun x hx => by rw [hx]⟩

end Sys2Proof.ChainRows
end

section
/-! PROOF. Broadcasts, row by row (R805–R810, R813). -/
namespace Sys2Proof.BroadcastRows
open Sys2Proof Sys2Proof.Machine Sys2Proof.CommandGates Sys2Proof.FreeFailures

/-! ### BCAST_START (R805, R806) -/

/-- Releases one more block and notes the SEQ of its first packet. -/
def releaseNext (g : Nat) (b : Bcast) (ue : List Nat) (acc : List Nat × State) (i : Nat) : List Nat × State :=
  (acc.1 ++ [(acc.2.releaseBlock g b.gen i (b.block i) ue).1], (acc.2.releaseBlock g b.gen i (b.block i) ue).2)

/-- The broadcast that BCAST_START opens for a group's entry, before its blocks are released. -/
def opened (a : State) (h : CmdHdr) (off len g e : Nat) (alts ue : List Nat) : Bcast :=
  ⟨h, g, grpGen e, a.staging off len, ue, (alts.take 4).filter (· != 0xFF), a.members 0 e, [], [], [], [], [], a.time.ticks, 0⟩

section
variable {s : State} {h : CmdHdr} {off len group : Nat} {alts ue : List Nat} (htakes : s.takes h 0x0101 true = true)
include htakes

theorem exec_bcastStart_unknown (hnone : (s.start h 0x0101).group 0 (group % 2 ^ 20) = none) : exec (.bcastStart h off len group alts ue) s =
    .next ((s.start h 0x0101).draw.2.complete h 1 ⟨(s.start h 0x0101).draw.1 % 65536, 0, 0, []⟩) := by
  refine cmd_completes htakes (Eq.trans ?_ (failOpen_eq _))
  extract_lets g
  rw [hnone]

section
variable {e : Nat} (hgroup : (s.start h 0x0101).group 0 (group % 2 ^ 20) = some e)
include hgroup

theorem exec_bcastStart_unfit (hbad : grpKindOf e ≠ 1 ∨ len = 0 ∨ 2 ^ 28 < len) : exec (.bcastStart h off len group alts ue) s =
    .next ((s.start h 0x0101).draw.2.complete h 1 ⟨(s.start h 0x0101).draw.1 % 65536, 0, 0, []⟩) := by
  refine cmd_completes htakes (Eq.trans ?_ (failOpen_eq _))
  extract_lets g
  rw [hgroup]
  exact if_pos hbad

variable (hfit : ¬(grpKindOf e ≠ 1 ∨ len = 0 ∨ 2 ^ 28 < len))
include hfit

theorem exec_bcastStart_used (hused : Tbl.getD (s.start h 0x0101).cfg.used 0 (group % 2 ^ 20) = grpGen e + 1) :
    exec (.bcastStart h off len group alts ue) s = .next ((s.start h 0x0101).complete h 1 ⟨0x010C, 0, 0, []⟩) := by
  refine cmd_completes htakes ?_
  extract_lets g
  rw [hgroup]
  exact (if_neg hfit).trans (if_pos hused)

theorem exec_bcastStart_begins (hnew : Tbl.getD (s.start h 0x0101).cfg.used 0 (group % 2 ^ 20) ≠ grpGen e + 1) :
    let a := s.start h 0x0101
    let g := group % 2 ^ 20
    let b := opened a h off len g e alts ue
    let r := (List.range b.blocks).foldl (releaseNext g b ue) ([], a)
    exec (.bcastStart h off len group alts ue) s = .next ((r.2.setCfg fun c => { c with
      bcasts := c.bcasts.filter (fun (x : Bcast) => !(x.group == g && x.gen == b.gen)) ++ [{ b with seqs := r.1 }],
      used := Tbl.put c.used g (b.gen + 1) }).bcastSettle { b with seqs := r.1 }) := by
  intro a g b r
  refine cmd_goesOn htakes ?_
  extract_lets
  rw [hgroup]
  refine (if_neg hfit).trans ((if_neg hnew).trans ?_)
  extract_lets opens
  have hopens : opens = b := rfl
  clear_value opens
  subst hopens
  generalize hfold : List.foldl _ _ _ = q
  have hq : q = r := by
    rw [← hfold]
    refine congrArg (fun f => List.foldl f ([], a) (List.range b.blocks)) (funext fun acc => funext fun i => ?_)
    rw [releaseNext]
  clear_value r
  subst hq
  obtain ⟨seqs, t⟩ := q
  rfl
end
end

/-! ### BCAST_ACK (R807) -/

/-- Is an answer as R807 lays it out? -/
def wholeAck (b : List Byte) : Bool := b.length == 64 && decide (beAt 0 4 b < 2 ^ 20) && beAt 5 1 b == 0 && allZero (b.drop 40)

theorem ack_refused_iff (b : List Byte) :
    ((b.length != 64 || decide (2 ^ 20 ≤ beAt 0 4 b) || beAt 5 1 b != 0 || !allZero (b.drop 40)) = true) ↔ wholeAck b = false := by
  simp only [wholeAck, Bool.or_eq_true, Bool.and_eq_false_iff, decide_eq_true_eq, decide_eq_false_iff_not, bne_iff_ne, beq_eq_false_iff_ne,
    Bool.not_eq_true', Nat.not_lt, ne_eq]

/-- Is a relayed piece as R809 lays it out? -/
def wholeRelay (b : List Byte) : Bool :=
  beAt 1 1 b == 1 && beAt 2 2 b == 0 && allZero (slice 27 5 b) && decide (32 < b.length) && decide (beAt 8 4 b + (b.length - 32) ≤ beAt 12 4 b)

theorem relay_refused_iff (b : List Byte) :
    ((beAt 1 1 b != 1 || beAt 2 2 b != 0 || !allZero (slice 27 5 b) || decide (b.length ≤ 32) || decide (beAt 12 4 b < beAt 8 4 b + (b.length - 32))) =
      true) ↔ wholeRelay b = false := by
  simp only [wholeRelay, Bool.or_eq_true, Bool.and_eq_false_iff, decide_eq_true_eq, decide_eq_false_iff_not, bne_iff_ne, beq_eq_false_iff_ne,
    Bool.not_eq_true', Nat.not_lt, Nat.not_le, ne_eq]

/-- An answer is left alone where it is not newer, or its member is excused or fenced (R807, R810). -/
theorem left_iff {newer excused fenced : Bool} : ((!newer) = true ∨ excused = true ∨ fenced = true) ↔ (newer && !excused && !fenced) = false := by
  cases newer <;> cases excused <;> cases fenced <;> decide

/-- A deadline has nothing to send where the member or the block is none of the broadcast's, or the block is there, or the member excused (R809). -/
theorem settled_iff {m n k blocks : Nat} {has excused : Bool} :
    (n ≤ m ∨ blocks ≤ k ∨ has = true ∨ excused = true) ↔ (decide (m < n) && decide (k < blocks) && !has && !excused) = false := by
  simp only [Bool.and_eq_false_iff, decide_eq_false_iff_not, Nat.not_lt, Bool.not_eq_false', or_assoc]

/-- Settles O38, row by row: the group and its generation, the broadcast ended, an answer by its member, a deadline, a relayed piece, the notice. -/
theorem broadcastsComplete : Obligations.BroadcastsComplete := by
  unfold Obligations.BroadcastsComplete
  refine ⟨?start, ?abort_, ?ack, ?deadline, ?relay, ?stall⟩
  case start =>
    intro s h off len group alts ue htakes
    refine ⟨exec_bcastStart_unknown htakes, fun e hgroup => ⟨exec_bcastStart_unfit htakes hgroup, fun hkind hpos hmax => ?_⟩⟩
    have hfit : ¬(grpKindOf e ≠ 1 ∨ len = 0 ∨ 2 ^ 28 < len) := by omega
    exact ⟨exec_bcastStart_used htakes hgroup hfit, exec_bcastStart_begins htakes hgroup hfit⟩
  case abort_ =>
    intro s h g htakes a
    refine ⟨fun hnone => cmd_completes htakes ?_, fun b hsome => cmd_completes htakes ?_⟩
    · rw [hnone]
      exact failOpen_eq a
    · rw [hsome]
      rfl
  case ack =>
    intro s lp p htyp
    have hexec : exec (.bcastAck lp p) s = execBcastAck lp p s := rfl
    rw [hexec, execBcastAck]
    dsimp only
    rw [if_neg (not_not.2 htyp)]
    refine ⟨fun hpois => if_pos hpois, fun hpois hbad => ?_, fun hpois hwhole => ?_⟩ <;> rw [if_neg (ne_true_of_eq_false hpois)]
    · exact if_pos ((ack_refused_iff p.payload).2 hbad)
    · rw [if_neg fun hbad => Bool.false_ne_true (((ack_refused_iff p.payload).1 hbad).symm.trans hwhole)]
      refine ⟨fun hnone => by rw [hnone], fun b hb => ?_⟩
      rw [hb]
      dsimp only
      refine ⟨fun hnone => by rw [hnone], fun i hi => ?_⟩
      rw [hi]
      dsimp only
      exact ⟨fun hno => if_pos (left_iff.2 hno), fun hyes => if_neg fun hno => Bool.false_ne_true ((left_iff.1 hno).symm.trans hyes)⟩
  case deadline =>
    intro s g m k
    have hexec : exec (.bcastBlockDeadline g m k) s = execBcastBlockDeadline g m k s := rfl
    rw [hexec, execBcastBlockDeadline]
    refine ⟨fun hnone => by rw [hnone], fun b hb => ?_⟩
    rw [hb]
    dsimp only
    refine ⟨fun hno => if_pos (settled_iff.2 hno), fun alt hdue halt => ?_, fun hdue hlast => ?_⟩
    all_goals rw [if_neg fun hno => Bool.false_ne_true ((settled_iff.1 hno).symm.trans hdue)]
    · rw [halt]
    · rw [hlast]
  case relay =>
    intro s lp p
    dsimp only
    intro htyp hservice
    have hexec : exec (.bcastRelayRx lp p) s = execBcastRelayRx lp p s := rfl
    rw [hexec, execBcastRelayRx]
    dsimp only
    rw [if_neg (by simp [htyp, hservice])]
    refine ⟨fun hpois => if_pos hpois, fun hpois hbad => ?_, fun hpois hwhole => ?_⟩ <;> rw [if_neg (ne_true_of_eq_false hpois)]
    · exact if_pos ((relay_refused_iff p.payload).2 hbad)
    · rw [if_neg fun hbad => Bool.false_ne_true (((relay_refused_iff p.payload).1 hbad).symm.trans hwhole)]
      refine ⟨fun hpart => if_pos hpart, fun hall => ?_⟩
      rw [if_neg (Nat.not_lt.2 hall)]
      simp only [List.append_nil]
      exact ⟨fun hnone => by rw [hnone], fun e he => by rw [he]⟩
  case stall =>
    intro s g
    have hexec : exec (.bcastStallNotice g) s = execBcastStallNotice g s := rfl
    rw [hexec, execBcastStallNotice]
    exact ⟨fun hnone => by rw [hnone], fun b hb => by rw [hb]⟩

end Sys2Proof.BroadcastRows
end
